-- ==== Sys2Proof/Word.lean ====
section
/-! DEFINITION. The word types of the model and their plainest arithmetic. -/

namespace Sys2Proof

/-- A byte of memory (R6, R7). -/
abbrev Byte := BitVec 8
/-- A scalar of a stand and every 64-bit operand. -/
abbrev Word64 := BitVec 64
/-- An FP32 bit pattern, an address register of a stand, a 32-bit field. -/
abbrev Word32 := BitVec 32

end Sys2Proof
end

