-- ==== Sys2Proof/Syntax/Operands.lean ====
section
/-! DEFINITION. The operands the commands carry: host commands (R506), packets, messages and what the environment reports. Field names are the spec's. -/

namespace Sys2Proof

/-- A host command of R506 as the function `fn` issued it on its submission queue `sq`. The opcode is the row's own. `zero` is what the command's zero fields hold (FLAGS[7:3] and bytes 0x06 and 0x07), which R508 step 2 checks. -/
structure Cmd where
  fn : Nat
  sq : Nat
  fence : Bool
  noCqe : Bool
  rslotValid : Bool
  rslot : Nat
  cq : Nat
  zero : Nat
  userTag : Nat
  descAddr : Nat
  descLen : Nat
  handle : Nat
  arg0 : Nat
  arg1 : Nat
  arg2 : Nat
  arg3 : Nat
  deriving DecidableEq, Repr

/-- The states a cut-map entry takes (R77). -/
inductive CutState where
  | empty | resident | felling | felled | coppicing | moving
  deriving DecidableEq, Repr

/-- A cut-map entry (R77); CUT_NO is its place in the map. -/
structure CutEntry where
  state : CutState
  shared : Bool
  coppiced : Bool
  isLocal : Bool
  node : Nat
  pool : Nat
  slot : Nat
  ring : Nat
  deriving DecidableEq, Repr

/-- A cut slot as messages and commands name it (R76). -/
structure SlotName where
  pool : Nat
  group : Nat
  slot : Nat
  ring : Nat
  deriving DecidableEq, Repr

/-- A cut slot as a message names it, with the node that sent the message (R16, R202). -/
structure SentSlot where
  src : Nat
  slot : SlotName
  deriving DecidableEq, Repr

/-- Where a request record lies (R39: REC_NODE, REC_KEY, REC_OFFSET). -/
structure RecLoc where
  node : Nat
  key : Nat
  offset : Nat
  deriving DecidableEq, Repr

/-- What a read of a request record shows beside its commit word (R42, R43): head, token log and cut map. -/
structure RecView where
  handle : Nat
  tenant : Nat
  promptLen : Nat
  adapter : Nat
  model : Nat
  userTag : Nat
  log : List Nat
  cuts : List CutEntry
  deriving DecidableEq, Repr

/-- What a receiver has pulled when its reads end (R50): what the read of the record shows, and the bolts of the hot tail, by cut. -/
structure Pulled where
  record : RecView
  bolts : List (Nat × List Byte)
  deriving DecidableEq, Repr

/-- An OFFER (R46, R50). -/
structure OfferMsg where
  sender : Nat
  handle : Nat
  hseq : Nat
  epoch : Nat
  control : Nat
  adapter : Nat
  tlogLen : Nat
  promptLen : Nat
  kvLen : Nat
  maxNew : Nat
  cutCount : Nat
  openFill : Nat
  claimGen : Nat
  record : RecLoc
  userTag : Nat
  tail : List Nat
  deriving DecidableEq, Repr

/-- A TAKEN, RELEASE, RELEASE_ACK or ABORT: the sender of the message, the handle of the sending side's context, HSEQ, and the receiving side's handle where the message carries one. -/
structure HandMsg where
  src : Nat
  handle : Nat
  hseq : Nat
  peerHandle : Nat
  deriving DecidableEq, Repr

/-- A RESERVE (R202): the pool, the record, the cut and the owner's claim pair. -/
structure ReserveMsg where
  src : Nat
  handle : Nat
  pool : Nat
  record : RecLoc
  cut : Nat
  claimGen : Nat
  deriving DecidableEq, Repr

/-- A COPPICE (R84): the owner, the record, its claim pair, the cuts listed, whether the open cut is asked for, and the model and lengths the coppice node needs. -/
structure CoppiceMsg where
  src : Nat
  handle : Nat
  record : RecLoc
  claimGen : Nat
  model : Nat
  tenant : Nat
  cuts : List (Nat × CutEntry)
  openCut : Bool
  deriving DecidableEq, Repr

/-- What the owner has read when COPPICE_DONE arrives (R84): the entries of the cuts rebuilt, and the bolts of the open cut where it asked for them. -/
structure Rebuilt where
  cuts : List (Nat × CutEntry)
  tail : List Byte
  deriving DecidableEq, Repr

/-- A copy of a cut that has ended (R202): the cut, the slot it was written to and the bolts copied. -/
structure CutCopy where
  cut : Nat
  slot : SlotName
  bolts : List Byte
  deriving DecidableEq, Repr

/-- A cut entry of an ATTEND (R121). -/
structure AttCut where
  cut : Nat
  pool : Nat
  slot : Nat
  ring : Nat
  deriving DecidableEq, Repr

/-- An ATTEND (R121). `depth` is present where `nodes` is above 1; `q` holds the query rows. -/
structure AttendMsg where
  src : Nat
  epoch : Nat
  handle : Nat
  tenant : Nat
  model : Nat
  layer : Nat
  mergeKey : Nat
  mergeSlot : Nat
  mergeUse : Nat
  qPos0 : Nat
  window : Nat
  sinks : Nat
  shard : Nat
  nodes : Nat
  formats : Nat
  backup : Bool
  backupFor : Nat
  smScale : Nat
  cuts : List AttCut
  depth : List Nat
  q : List Byte
  deriving DecidableEq, Repr

/-- A SHARD_STATUS (R122, R132): who answers, the slot, its use count, layer and shard, status and detail, and the home that a REDIRECT names. -/
structure ShardMsg where
  src : Nat
  slot : Nat
  use : Nat
  layer : Nat
  shard : Nat
  status : Nat
  detail : Nat
  home : Nat
  deriving DecidableEq, Repr

/-- The answer to an atomic of the controller's own, commit `id`: status, detail, the word found, and what a read of the record shows. -/
structure AtomicResp where
  commit : Nat
  status : Nat
  detail : Nat
  result : Nat
  view : Option RecView
  deriving DecidableEq, Repr

/-- A Celwald packet that has passed step 1 of R297 (R290, R295), as it arrived on an Ethernet port: the header of R292 but OPCODE (the row's own), whether VER is 0x01 and the sizes agree with the frame (step 2), whether its ECN field read 0b11, the association number and PN of its MACsec SecTAG where it had one (R536), and the extension, payload and GCM tag. -/
structure Packet where
  port : Nat
  sec : Option (Nat × Nat)
  sizesOk : Bool
  ce : Bool
  flags : Nat
  srcNode : Nat
  dstNode : Nat
  dstQp : Nat
  srcQp : Nat
  psn : Nat
  ackPsn : Nat
  epoch : Nat
  msg : Nat
  ext : List Byte
  payload : List Byte
  tag : List Byte
  deriving DecidableEq, Repr

/-- The answer to a read of the controller's own (R132, R223): the read, its status and detail, and the bytes. -/
structure OwnResp where
  read : Nat
  status : Nat
  detail : Nat
  bytes : List Byte
  deriving DecidableEq, Repr

/-- Where a check of R434 failed: a command of a stand's attention, codec or mover engine in execution for a frame (deck words); the sequencer's registers or save area of a frame; the instruction memory of a stand; a flit; the haul road of a column under a mover command of a frame; a packet of a queue pair in the landing; packet `pos` of the miss queue; a chip-level SRAM entry; a hot line; data of a stack, with the stand and frame of the mover command that read or wrote them, if one did; `n` errors that a stack corrected inside itself; an uncorrectable FEC event whose failed codewords a lane carried; the host port; a flexible port, with such a mover command; the integrity of an IDE stream (port 15 is the host port). -/
inductive ErrPoint where
  | engine (which stand frame : Nat)
  | sequencer (stand frame : Nat)
  | instrMem (stand : Nat)
  | mesh
  | bus (col stand frame : Nat)
  | landing (index psn : Nat)
  | missQueue (pos : Nat)
  | sram
  | hotLine (line : Nat)
  | stack (k : Nat) (mover : Option (Nat × Nat))
  | corrected (k n : Nat)
  | lane (port lane : Nat)
  | hostPort
  | flexPort (q : Nat) (mover : Option (Nat × Nat))
  | ide (port stream : Nat)
  deriving DecidableEq, Repr

/-- What a survivor answers a reconstructor (R385): its data of the unit with the lock generation and whether the unit is dirty there (R384); `STALE` to an unlock; or nothing, because the node cannot be reached. -/
inductive UnitAns where
  | data (gen : Nat) (dirty : Bool) (bytes : List Byte)
  | stale
  | lost
  deriving DecidableEq, Repr

end Sys2Proof
end

