-- ==== Sys2Proof/Syntax.lean ====
section
/-! DEFINITION. The commands: one constructor per row of spec/opcode_table.json, in the table's order. A host command carries its 64-byte entry (R506); a doorbell or register write carries what software wrote; an arrival or event carries what the environment decides (a packet, a reading, an answer). -/

namespace Sys2Proof

/-- A command to the EY-9600 or an event at it. -/
inductive Instr where
  /-- WQ_CREATE (R505): Creates a submission queue with the lowest free number and returns that number in VALUE. -/
  | wqCreate (c : Cmd)
  /-- WQ_DESTROY (R505): Destroys a submission queue unless queue 0 is named or a command or object still uses it. -/
  | wqDestroy (c : Cmd)
  /-- CQ_CREATE (R505): Creates a command or transport completion queue with its MSI-X vector and coalescing settings. -/
  | cqCreate (c : Cmd)
  /-- CQ_DESTROY (R505): Destroys a completion queue unless it is queue 0, is in use, or names itself as the completion CQ. -/
  | cqDestroy (c : Cmd)
  /-- RQ_CREATE (R505): Creates a receive ring for SEND packets, tied to a transport CQ. -/
  | rqCreate (c : Cmd)
  /-- RQ_DESTROY (R505): Destroys a receive ring. -/
  | rqDestroy (c : Cmd)
  /-- ADMIT (R41): Queues an admission; on admission a handle and record head are created, the prompt is stored, and the handle is returned. -/
  | admitCmd (c : Cmd)
  /-- CTX_READ (R39): Returns a snapshot of a request context into a result slot, with no side effect. -/
  | ctxRead (c : Cmd)
  /-- TOKEN (R511): Appends a sampled token and commits the step that waits for it. -/
  | token (c : Cmd)
  /-- PAUSE (R185): Stops a request at its next kerf point, withdraws its tasks and abandons the layer in progress. -/
  | pause (c : Cmd)
  /-- RESUME (R46): Resumes a paused request, waiting for felling and coppicing felled cuts first. -/
  | resume (c : Cmd)
  /-- CANCEL (R48): Ends a request in DONE with CANCELLED once any step in flight has committed. -/
  | cancel (c : Cmd)
  /-- PARK (R35): Seals a paused context into a spill slot, releases its handle and returns a park ticket. -/
  | park (c : Cmd)
  /-- UNPARK (R37): Unseals a park ticket into a new handle in PAUSED and rewrites the owner handle in the record. -/
  | unpark (c : Cmd)
  /-- MIGRATE (R46): Commits HANDOFF and sends an OFFER to a named receiver node. -/
  | migrate (c : Cmd)
  /-- RECOVER (R54): Claims a request record by compare-and-set and creates a recovered context that owns it. -/
  | recover (c : Cmd)
  /-- CLAIM (R57): Recovers a request on a receiver that holds a TAKEN context, using its working buffers as state. -/
  | claim (c : Cmd)
  /-- VERIFY (R138): Runs a speculative verification step over a draft tree, writing draft keys into the tentative tail. -/
  | verify (c : Cmd)
  /-- COMMIT (R140): Copies an accepted draft path into the open cut, commits its tokens and frees the tentative tail. -/
  | commit (c : Cmd)
  /-- ROLLBACK (R141): Frees the tentative tail and changes nothing else. -/
  | rollback (c : Cmd)
  /-- FELL (R80): Fells up to a given number of unshared resident cuts of a paused request, from the tail. -/
  | fell (c : Cmd)
  /-- FELL_CUT (R447): Moves one named resident cut to FELLED and sends one FREE for it. -/
  | fellCut (c : Cmd)
  /-- MOVE (R201): Moves a range of a request's cuts one by one to a destination node and pool. -/
  | move (c : Cmd)
  /-- TRAIL_INSERT (R158): Inserts a live request's resident full cuts into its tenant's trail tree. -/
  | trailInsert (c : Cmd)
  /-- LOOKUP (R165): Probes the blaze table and trail tree for a prompt without taking holds and writes a lookup record. -/
  | lookup (c : Cmd)
  /-- TRAIL_REMOVE (R159): Clears a tenant's whole trail tree, leaves first, freeing each node's cut. -/
  | trailRemove (c : Cmd)
  /-- BLAZE_PUBLISH (R154): Publishes a tenant-0 request's leading blocks into a blaze set. -/
  | blazePublish (c : Cmd)
  /-- BLAZE_RETIRE (R155): Sweeps the blaze table and removes every entry matching a masked key. -/
  | blazeRetire (c : Cmd)
  /-- MODEL_REG (R170): Registers a model descriptor with the scheduler. -/
  | modelReg (c : Cmd)
  /-- MODEL_DEREG (R170): Deregisters a model that no context or enabled window names. -/
  | modelDereg (c : Cmd)
  /-- CUT_POOL (R75): Declares or redeclares a cut pool from a 96-byte descriptor. -/
  | cutPool (c : Cmd)
  /-- FREE (R76): Frees a cut slot, or lowers its hold count, optionally forcing the free. -/
  | free (c : Cmd)
  /-- SEAL (R218): Encrypts a plaintext body into a stored stream in a region of this node. -/
  | seal (c : Cmd)
  /-- EXPAND (R228): Reads a stored stream from its start and expands its blocks into an attach port. -/
  | expand (c : Cmd)
  /-- TABLE_LOAD (R232): Loads a codec table version into the free buffer of a slot. -/
  | tableLoad (c : Cmd)
  /-- TABLE_FREE (R234): Empties a codec table slot whose buffers have no users. -/
  | tableFree (c : Cmd)
  /-- ADAPTER_LOAD (R236): Loads an adapter version into a resident adapter slot, as current or held. -/
  | adapterLoad (c : Cmd)
  /-- ADAPTER_RETIRE (R238): Moves an adapter ID's current slot to DRAINING. -/
  | adapterRetire (c : Cmd)
  /-- PROG_LOAD (R264): Checks a stand image and loads it into the fenced columns of a mask. -/
  | progLoad (c : Cmd)
  /-- STAND_UNFENCE (R440): Unfences a stand unless a lasting failure awaits a passing self-test or another rule refuses it. -/
  | standUnfence (c : Cmd)
  /-- SELFTEST (R448): Runs a column test or a lane calibration in service. -/
  | selftest (c : Cmd)
  /-- LANE_RESTORE (R443): Returns a retired Ethernet lane to service after a passing calibration. -/
  | laneRestore (c : Cmd)
  /-- STACK_QUIESCE (R444): Quiesces an HBM stack so that it accepts no new access until reset. -/
  | stackQuiesce (c : Cmd)
  /-- QP_CREATE (R302): Allocates a queue pair index in RESET from the given context fields. -/
  | qpCreate (c : Cmd)
  /-- QP_MODIFY (R302): Moves a queue pair to RESET, READY, DRAINING or ERROR as the state table allows. -/
  | qpModify (c : Cmd)
  /-- QP_DESTROY (R302): Destroys a queue pair in RESET, advancing its ring count and putting it in fallow. -/
  | qpDestroy (c : Cmd)
  /-- REGION_REG (R331): Registers a region and returns its key. -/
  | regionReg (c : Cmd)
  /-- REGION_DEREG (R333): Moves a live region to CLOSING; the command completes when the region is free. -/
  | regionDereg (c : Cmd)
  /-- CHOKER_CANCEL (R323): Flushes a waiting choker, or refuses if it has been pulled. -/
  | chokerCancel (c : Cmd)
  /-- TRIG_ADD (R321): Advances a trigger counter by n and pulls every choker whose threshold it reaches. -/
  | trigAdd (c : Cmd)
  /-- TRIG_SET (R321): Writes a trigger counter outright, pulling chokers only if it moves forward past them. -/
  | trigSet (c : Cmd)
  /-- SHAPER_SET (R372): Stages new shaper values, which take effect at the next refill boundary. -/
  | shaperSet (c : Cmd)
  /-- LEASE_BREAK (R358): Ends every lease of a named node at once and snags its lines. -/
  | leaseBreak (c : Cmd)
  /-- MAP_INSTALL (R417): Installs or joins a map epoch, or leaves the map, as the epoch table resolves. -/
  | mapInstall (c : Cmd)
  /-- ROLE_BEGIN (R423): Starts a role change, optionally with QUIESCE on a cache node. -/
  | roleBegin (c : Cmd)
  /-- ROLE_COMMIT (R426): Commits the pending role once every drain condition holds and images are loaded. -/
  | roleCommit (c : Cmd)
  /-- ROLE_ABORT (R427): Abandons a role change that has not quiesced. -/
  | roleAbort (c : Cmd)
  /-- ROLL_COLUMN (R428): Drains, fences, reloads and unfences one column with a new stand image. -/
  | rollColumn (c : Cmd)
  /-- FW_STAGE (R430): Writes a firmware image to the inactive bank and verifies its signatures and version. -/
  | fwStage (c : Cmd)
  /-- FW_ACTIVATE (R431): Restarts the management core into the staged bank as TRIAL. -/
  | fwActivate (c : Cmd)
  /-- FW_CONFIRM (R432): Makes the TRIAL bank active and raises MIN_SVN. -/
  | fwConfirm (c : Cmd)
  /-- REBUILD (R387): Rebuilds a dead data member's protected space onto this spare unit by unit. -/
  | rebuild (c : Cmd)
  /-- PAR_REBUILD (R387): Builds or rebuilds the parity area of a group at the parity node. -/
  | parRebuild (c : Cmd)
  /-- RESYNC (R384): Rebuilds the parity of every dirty unit of degraded members and clears their dirty maps. -/
  | resync (c : Cmd) (dirty : List Nat)
  /-- KEY_IMPORT (R459): Verifies, decapsulates and unwraps a signed key blob into the key table. -/
  | keyImport (c : Cmd)
  /-- KEY_DESTROY (R462): Destroys a key index and zeroizes it once its last pin is released. -/
  | keyDestroy (c : Cmd)
  /-- KEY_INFO (R461): Returns a key entry's index, state, kind, tenant, serial and fingerprint. -/
  | keyInfo (c : Cmd)
  /-- KEY_GET_KEM (R459): Writes the device's ML-KEM-1024 import public key to a host buffer. -/
  | keyGetKem (c : Cmd)
  /-- KEY_SALT (R466): Returns 16 bytes of fresh salt into a result slot. -/
  | keySalt (c : Cmd)
  /-- KEY_ZEROIZE (R479): Zeroizes every Keyhouse secret and advances the wrapping epoch. -/
  | keyZeroize (c : Cmd)
  /-- KEY_SELFTEST (R476): Runs the Keyhouse known-answer tests, pausing services briefly. -/
  | keySelftest (c : Cmd)
  /-- PWR_STATE (R556): Checks and starts a transition to a target power state. -/
  | pwrState (c : Cmd)
  /-- POWER_TRANSITION_DONE (R557): A power-state transition ends and PWR_STATE completes with the new state. -/
  | powerTransitionDone
  /-- SQ_TAIL_DOORBELL (R513): Accepts a new submission tail and makes its commands available for fetch. -/
  | sqTailDoorbell (fn q v : Nat)
  /-- CQ_HEAD_DOORBELL (R513): Accepts a new completion head, freeing entries so held completions can be posted. -/
  | cqHeadDoorbell (fn q v : Nat)
  /-- QP_SQ_DOORBELL (R512): Posts new work requests on a queue pair's send queue. -/
  | qpSqDoorbell (fn v : Nat)
  /-- RQ_DOORBELL (R512): Posts new entries on a receive ring. -/
  | rqDoorbell (fn v : Nat)
  /-- RESULT_CONSUME (R521): Frees a finished result slot. -/
  | resultConsume (fn v : Nat)
  /-- CONSUME (R522): Releases a DONE or FAILED context's handle into fallow. -/
  | consume (fn v : Nat)
  /-- COMMAND_FETCH (R508): The host interface takes the next command by arbitration, checks it and hands it to its block. -/
  | commandFetch
  /-- CQ_COALESCE_TIMER (R524): COAL_US expires and an interrupt signals every entry written. -/
  | cqCoalesceTimer (fn q : Nat)
  /-- MSIX_UNMASK (R524): Unmasking a vector sends its message if its pending bit is set. -/
  | msixUnmask (fn vec : Nat)
  /-- ADMQ_ENABLE_WRITE (R500): Writing HIF_ADMQ_CFG.ENABLE starts the admin queues or cleans up the function. -/
  | admqEnableWrite (fn v : Nat)
  /-- VF_FLR (R500): A Function Level Reset of a VF cleans up its requests, QPs, regions and queues. -/
  | vfFlr (fn : Nat)
  /-- VF_ENABLE_CLEAR (R498): Clearing VF Enable cleans up every enabled VF. -/
  | vfEnableClear
  /-- D3HOT_CHANGE (R499): A function enters or leaves D3hot, stopping or resuming its fetches and interrupts. -/
  | d3hotChange (fn : Nat) (enter : Bool)
  /-- REGISTER_WRITE (R8): A write to a register without behaviour of its own takes effect by its access type. -/
  | registerWrite (fn off size v : Nat)
  /-- HIF_EVT_CFG_WRITE (R525): Setting an event cause's EN while its status reads 1 sends one message. -/
  | hifEvtCfgWrite (v : Nat)
  /-- ATT_ERROR_CLEAR (R94): Writing 1 to STD_ATT_STATUS.ERROR reopens the attention engine queue. -/
  | attErrorClear (stand v : Nat)
  /-- CDC_ERROR_CLEAR (R255): Writing 1 to STD_CDC_STATUS.ERROR reopens the codec queue. -/
  | cdcErrorClear (stand v : Nat)
  /-- TIR_FELL_KICK (R214): Writing a non-zero target starts a felling pass if none is running. -/
  | tirFellKick (v : Nat)
  /-- OBS_SNAP (R377): Writing CWT_OBS_CTL.SNAP copies live observer histograms to the snapshot bank and clears them. -/
  | obsSnap (v : Nat)
  /-- OBS_SEL_WRITE (R377): Reselecting an observer clears its live bins at the next sample. -/
  | obsSelWrite (o v : Nat)
  /-- SCB_FLUSH_WRITE (R491): Writing SCB_CTL.FLUSH starts a flush of the scale book. -/
  | scbFlushWrite (v : Nat)
  /-- CIRC_CLEAR (R490): Writing SCB_CTL.CIRC_CLEAR empties the MRAM circulating area. -/
  | circClear (v : Nat)
  /-- FAULT_HEAD_WRITE (R449): Writing MGT_FLT_HEAD consumes fault records, letting held records be written. -/
  | faultHeadWrite (v : Nat)
  /-- SWREPORT (R450): Writing MGT_FLT_SWREPORT posts a software fault record at severity 6. -/
  | swreport (v : Nat)
  /-- PWR_RESET (R551): Writing 0xA5 to PWR_RESET resets the controller with cause SOFTWARE. -/
  | pwrReset (v : Nat)
  /-- XW_ENABLE_WRITE (R398): Writing HIF_XW_CFG.ENABLE enables or disables an exchange window. -/
  | xwEnableWrite (w v : Nat)
  /-- FLEX_IND_START (R543): Writing HIF_FLEX_IND_CTL starts one indirect configuration or memory access downstream. -/
  | flexIndStart (q v : Nat)
  /-- FLEX_IND_DONE (R543): An indirect access completes or times out after 50 ms, setting RESULT and clearing BUSY. -/
  | flexIndDone (q result data : Nat)
  /-- MACSEC_SA_WRITE (R537): A write to a MACsec SA slot loads it; the last 8 bytes make it valid and restart its PNs. -/
  | macsecSaWrite (p n k v : Nat)
  /-- LASER_EN_WRITE (R539): Writing LASER_EN enables or disables a laser module, clearing wear history for a new module. -/
  | laserEnWrite (p v : Nat)
  /-- WINDOW_WRITE (R399): An accelerator write into an exchange window is committed to its backing or discarded as misuse. -/
  | windowWrite (w off path : Nat) (bytes : List Byte)
  /-- XW_DOORBELL (R406): An exchange doorbell hands over a slot, whose header and entries are checked and run. -/
  | xwDoorbell (w path v : Nat)
  /-- RHEAD (R403): The accelerator reports release records consumed, freeing release ring space. -/
  | rhead (w path v : Nat)
  /-- RELEASE_RECORD_WRITE (R402): The controller writes a release record to a window's ring once space allows. -/
  | releaseRecordWrite (w : Nat)
  /-- SLOT_FLAG_WRITE (R410): Once every entry has a result and every fence is met, outputs and the completion flag are written. -/
  | slotFlagWrite (w slot : Nat)
  /-- ADMISSION_SCAN (R174): At a KCLK cycle with an index out of fallow, the scheduler admits one queued request. -/
  | admissionScan
  /-- RISK_EVALUATION (R171): Each period the scheduler evaluates risk and may pause or resume requests automatically. -/
  | riskEvaluation
  /-- CHUNK_RELEASE (R180): The next prefill chunk of a request is cut and released once the previous chunk allows. -/
  | chunkRelease (handle : Nat)
  /-- TASK_PLACE (R178): A ready task is placed on the first free stand of its home column, or overflows, when a stand frees. -/
  | taskPlace
  /-- FRAME_SWITCH (R258): At a sequencer kerf point the running frame is saved and the next ready frame restored. -/
  | frameSwitch (st : Nat)
  /-- KERF_POINT (R183): A key tile ends and the engine arbiter chooses the next tile to issue. -/
  | kerfPoint (st : Nat)
  /-- ATT_COMMAND_DONE (R95): An attention or tile command completes and writes its outputs and status. -/
  | attCommandDone (st frame : Nat)
  /-- CDC_COMMAND_DONE (R255): A codec command completes. -/
  | cdcCommandDone (st frame : Nat)
  /-- MOVER_COMMAND_DONE (R253): A mover command completes. -/
  | moverCommandDone (st frame : Nat)
  /-- ILLEGAL_BUNDLE (R285): An illegal bundle issues, does nothing and ends the frame with STD_ILLEGAL. -/
  | illegalBundle (st : Nat)
  /-- NOP (R267): A no-op slot does nothing. -/
  | nop (st : Nat)
  /-- ADD (R271): Scalar add. -/
  | add (st : Nat)
  /-- SUB (R271): Scalar subtract. -/
  | sub (st : Nat)
  /-- AND (R271): Scalar bitwise AND. -/
  | and (st : Nat)
  /-- OR (R271): Scalar bitwise OR. -/
  | or (st : Nat)
  /-- XOR (R271): Scalar bitwise XOR. -/
  | xor (st : Nat)
  /-- SHL (R271): Scalar left shift by register. -/
  | shl (st : Nat)
  /-- SHR (R271): Scalar logical right shift by register. -/
  | shr (st : Nat)
  /-- SAR (R271): Scalar arithmetic right shift by register. -/
  | sar (st : Nat)
  /-- MUL (R271): Low 64 bits of a scalar product. -/
  | mul (st : Nat)
  /-- MIN (R271): Signed scalar minimum. -/
  | min (st : Nat)
  /-- MAX (R271): Signed scalar maximum. -/
  | max (st : Nat)
  /-- MINU (R271): Unsigned scalar minimum. -/
  | minu (st : Nat)
  /-- MAXU (R271): Unsigned scalar maximum. -/
  | maxu (st : Nat)
  /-- ADDI (R271): Scalar add of a sign-extended immediate. -/
  | addi (st : Nat)
  /-- ANDI (R271): Scalar AND with a zero-extended immediate. -/
  | andi (st : Nat)
  /-- ORI (R271): Scalar OR with a zero-extended immediate. -/
  | ori (st : Nat)
  /-- XORI (R271): Scalar XOR with a zero-extended immediate. -/
  | xori (st : Nat)
  /-- SHLI (R271): Scalar left shift by immediate. -/
  | shli (st : Nat)
  /-- SHRI (R271): Scalar logical right shift by immediate. -/
  | shri (st : Nat)
  /-- SARI (R271): Scalar arithmetic right shift by immediate. -/
  | sari (st : Nat)
  /-- LI (R271): Loads a sign-extended 24-bit immediate into a scalar register. -/
  | li (st : Nat)
  /-- LI_A (R271): Loads a sign-extended 24-bit immediate into an address register. -/
  | liA (st : Nat)
  /-- LSH (R271): Shifts a scalar left 24 bits and ORs in an immediate. -/
  | lsh (st : Nat)
  /-- ADDA (R271): Address add of an immediate modulo 2^32. -/
  | adda (st : Nat)
  /-- MOVA (R271): Moves a scalar's low 32 bits into an address register. -/
  | mova (st : Nat)
  /-- MOVS (R271): Moves an address register into a scalar, zero-extended. -/
  | movs (st : Nat)
  /-- CMP_EQ (R271): Sets a predicate to scalar equality. -/
  | cmpEq (st : Nat)
  /-- CMP_NE (R271): Sets a predicate to scalar inequality. -/
  | cmpNe (st : Nat)
  /-- CMP_LT (R271): Sets a predicate to signed less-than. -/
  | cmpLt (st : Nat)
  /-- CMP_GE (R271): Sets a predicate to signed greater-or-equal. -/
  | cmpGe (st : Nat)
  /-- CMP_LTU (R271): Sets a predicate to unsigned less-than. -/
  | cmpLtu (st : Nat)
  /-- CMP_GEU (R271): Sets a predicate to unsigned greater-or-equal. -/
  | cmpGeu (st : Nat)
  /-- CMPI_EQ (R271): Sets a predicate to equality with an immediate. -/
  | cmpiEq (st : Nat)
  /-- CMPI_NE (R271): Sets a predicate to inequality with an immediate. -/
  | cmpiNe (st : Nat)
  /-- CMPI_LT (R271): Sets a predicate to signed less-than an immediate. -/
  | cmpiLt (st : Nat)
  /-- CMPI_GE (R271): Sets a predicate to signed greater-or-equal an immediate. -/
  | cmpiGe (st : Nat)
  /-- PAND (R271): Predicate AND. -/
  | pand (st : Nat)
  /-- POR (R271): Predicate OR. -/
  | por (st : Nat)
  /-- PANDN (R271): Predicate AND NOT. -/
  | pandn (st : Nat)
  /-- PXOR (R271): Predicate XOR. -/
  | pxor (st : Nat)
  /-- LD_B (R273): Loads a zero-extended byte from the deck. -/
  | ldB (st : Nat)
  /-- LD_H (R273): Loads a zero-extended 16-bit value from the deck. -/
  | ldH (st : Nat)
  /-- LD_W (R273): Loads a zero-extended 32-bit value from the deck. -/
  | ldW (st : Nat)
  /-- LD_D (R273): Loads a 64-bit value from the deck. -/
  | ldD (st : Nat)
  /-- LD_WS (R273): Loads a sign-extended 32-bit value from the deck. -/
  | ldWs (st : Nat)
  /-- ST_B (R273): Stores a byte to the deck. -/
  | stB (st : Nat)
  /-- ST_H (R273): Stores 16 bits to the deck. -/
  | stH (st : Nat)
  /-- ST_W (R273): Stores 32 bits to the deck. -/
  | stW (st : Nat)
  /-- ST_D (R273): Stores 64 bits to the deck. -/
  | stD (st : Nat)
  /-- STI_B (R271): Stores an immediate byte to the deck. -/
  | stiB (st : Nat)
  /-- STI_H (R271): Stores an immediate 16-bit value to the deck. -/
  | stiH (st : Nat)
  /-- STI_W (R271): Stores a zero-extended immediate 32-bit value to the deck. -/
  | stiW (st : Nat)
  /-- DCPY (R274): Copies 8 to 2,048 deck bytes as if through a buffer. -/
  | dcpy (st : Nat)
  /-- BR (R275): Unconditional branch. -/
  | br (st : Nat)
  /-- BZ (R275): Branch if a scalar is zero. -/
  | bz (st : Nat)
  /-- BNZ (R275): Branch if a scalar is non-zero. -/
  | bnz (st : Nat)
  /-- HALT (R256): Ends the frame once its commands complete, with the task outcome held in a scalar. -/
  | halt (st : Nat)
  /-- WAIT_A (R252): Waits for an attention ticket and returns its status. -/
  | waitA (st : Nat)
  /-- WAIT_C (R252): Waits for a codec ticket and returns its status. -/
  | waitC (st : Nat)
  /-- WAIT_M (R252): Waits for a mover ticket and returns its status. -/
  | waitM (st : Nat)
  /-- RDTIME (R271): Reads device time into a scalar. -/
  | rdtime (st : Nat)
  /-- MV_LD (R253): Issues a mover copy from an extended address into the deck. -/
  | mvLd (st : Nat)
  /-- MV_ST (R253): Issues a mover copy from the deck to an extended address. -/
  | mvSt (st : Nat)
  /-- MV_GATHER (R253): Issues a gather that checks, decrypts and stages a list of bolts. -/
  | mvGather (st : Nat)
  /-- MV_BWRITE (R253): Issues an encrypted write of a staged bolt's new rows to its stored slot. -/
  | mvBwrite (st : Nat)
  /-- MV_REDUCE (R253): Issues an LSEM contribution of partial rows to the task's merge slot. -/
  | mvReduce (st : Nat)
  /-- ATT_ISSUE (R93): Issues an attention descriptor into the engine queue, refusing invalid ones. -/
  | attIssue (st : Nat)
  /-- CDC_ISSUE (R255): Issues a codec descriptor into the codec queue. -/
  | cdcIssue (st : Nat)
  /-- TZERO (R280): Issues a command that zeroes a tile. -/
  | tzero (st : Nat)
  /-- TMMA_BF16 (R279): Issues a tile multiply-accumulate with BF16 operands. -/
  | tmmaBf16 (st : Nat)
  /-- TMMA_E4M3 (R279): Issues a tile multiply-accumulate with E4M3 operands. -/
  | tmmaE4m3 (st : Nat)
  /-- TMMA_E5M2 (R279): Issues a tile multiply-accumulate with E5M2 operands. -/
  | tmmaE5m2 (st : Nat)
  /-- TMMA_MX8 (R279): Issues a tile multiply-accumulate with MXFP8 operands. -/
  | tmmaMx8 (st : Nat)
  /-- TMMA_MX4 (R279): Issues a tile multiply-accumulate with MXFP4 operands. -/
  | tmmaMx4 (st : Nat)
  /-- TPACK_BF16 (R280): Issues a command writing a tile to the deck as BF16. -/
  | tpackBf16 (st : Nat)
  /-- VADD (R282): Vector add. -/
  | vadd (st : Nat)
  /-- VSUB (R282): Vector subtract. -/
  | vsub (st : Nat)
  /-- VMUL (R282): Vector multiply. -/
  | vmul (st : Nat)
  /-- VFMA (R282): Vector fused multiply-add. -/
  | vfma (st : Nat)
  /-- VMAX (R282): Vector maximum. -/
  | vmax (st : Nat)
  /-- VMIN (R282): Vector minimum. -/
  | vmin (st : Nat)
  /-- VDIV (R282): Vector correctly rounded divide. -/
  | vdiv (st : Nat)
  /-- VEXP2 (R282): Vector exp2 of R110. -/
  | vexp2 (st : Nat)
  /-- VRMAX (R282): Broadcasts the maximum over 64 lanes. -/
  | vrmax (st : Nat)
  /-- VRSUM (R282): Broadcasts the pairwise-tree sum over 64 lanes. -/
  | vrsum (st : Nat)
  /-- VMOV (R281): Vector copy. -/
  | vmov (st : Nat)
  /-- VBCAST (R281): Broadcasts a scalar's low 32 bits as FP32. -/
  | vbcast (st : Nat)
  /-- VZERO (R281): Sets a vector to +0. -/
  | vzero (st : Nat)
  /-- VLD (R281): Loads 64 FP32 values from the deck. -/
  | vld (st : Nat)
  /-- VST (R281): Stores 64 FP32 values to the deck. -/
  | vst (st : Nat)
  /-- VLD_BF16 (R281): Loads 64 BF16 values and widens them. -/
  | vldBf16 (st : Nat)
  /-- VST_BF16 (R281): Stores 64 values as BF16. -/
  | vstBf16 (st : Nat)
  /-- WORK_REQUEST_START (R303): A posted or pulled work request starts on its queue pair in send-queue order. -/
  | workRequestStart (index : Nat)
  /-- PACKET_TRANSMIT (R307): The egress arbiter chooses a packet whose credit, window and shapers allow it and sends it. -/
  | packetTransmit (port : Nat)
  /-- SEND (R297): A SEND packet arrives, is checked and delivered into the receive ring. -/
  | send (p : Packet)
  /-- WRITE (R337): A WRITE packet arrives, is checked and its bytes are performed in the region. -/
  | write (p : Packet)
  /-- READ_REQ (R337): A READ_REQ arrives, is checked and its bytes are returned in READ_RESP packets. -/
  | readReq (p : Packet)
  /-- READ_RESP (R312): A READ_RESP arrives, delivers read data and acknowledges its request. -/
  | readResp (own : Option OwnResp) (p : Packet)
  /-- ATOMIC (R339): An ATOMIC arrives and is performed once, its result cached and answered. -/
  | atomic (p : Packet)
  /-- ATOMIC_RESP (R343): An ATOMIC_RESP arrives and completes the atomic request with its status and result. -/
  | atomicResp (own : Option AtomicResp) (p : Packet)
  /-- REDUCE (R347): A non-LSEM REDUCE packet arrives and its elements are applied. -/
  | reduce (p : Packet)
  /-- REDUCE_LSEM (R348): The last packet of an LSEM contribution arrives and the contribution is applied to its merge slot. -/
  | reduceLsem (p : Packet)
  /-- MCAST (R350): An MCAST packet arrives, is written locally and forwarded to children. -/
  | mcast (p : Packet)
  /-- ACK (R312): An ACK arrives, acknowledging PSNs and carrying a credit grant and SACK. -/
  | ack (p : Packet)
  /-- NAK (R326): A NAK arrives and the sender resends, waits or enters ERROR as its code gives. -/
  | nak (p : Packet)
  /-- CREDIT_REQ (R310): A CREDIT_REQ arrives and is answered with an ACK grant. -/
  | creditReq (p : Packet)
  /-- ARP_REQUEST (R291): An ARP request for this node's address is answered. -/
  | arpRequest (port sub : Nat) (mac ip target : List Byte)
  /-- NEIGHBOR_SOLICITATION (R291): An IPv6 Neighbor Solicitation for this node's address is answered. -/
  | neighborSolicitation (port sub : Nat) (mac src target : List Byte)
  /-- NON_CELWALD_FRAME (R290): A frame not addressed to Celwald or failing a check is dropped and counted. -/
  | nonCelwaldFrame (port : Nat) (frame : List Byte)
  /-- QP_CTX_FETCHED (R325): A QP context fetch completes and parked packets are processed from step 5. -/
  | qpCtxFetched (index : Nat) (crcOk retryOk : Bool)
  /-- QP_DRAINED (R302): The last started work request of a draining QP completes and CWT_DRAINED is posted. -/
  | qpDrained (index : Nat)
  /-- RTO_EXPIRY (R313): A PSN's retransmit timeout expires and it is resent on another path. -/
  | rtoExpiry (index psn : Nat)
  /-- GIVE_UP (R313): SND_UNA stays unacknowledged for the give-up time and the QP enters ERROR. -/
  | giveUp (index : Nat)
  /-- ACK_DELAY_EXPIRY (R312): The ACK delay after the first unacknowledged arrival expires and an ACK is sent. -/
  | ackDelayExpiry (index : Nat)
  /-- PATH_HOLD_EXPIRY (R311): A held path index is released after PATH_HOLD_US. -/
  | pathHoldExpiry (node path : Nat)
  /-- RNR_RETRY (R326): After RNR_US a SEND refused as receiver-not-ready is resent. -/
  | rnrRetry (index psn : Nat)
  /-- REGION_FREED (R333): A closing region's last work request ends or its timeout passes, and REGION_DEREG completes. -/
  | regionFreed (index : Nat)
  /-- LEASE_TERM_EXPIRY (R358): An unrenewed lease ends and its lines are snagged. -/
  | leaseTermExpiry (index : Nat)
  /-- HOT_LINE_COOL (R352): An idle hot line is written back to its region and leaves the combining table. -/
  | hotLineCool (line : Nat)
  /-- SHAPER_WHEEL_SLOT (R373): A timing-wheel slot is reached; shapers are refilled and waiting QPs retested. -/
  | shaperWheelSlot
  /-- OBSERVER_SAMPLE (R375): Each microsecond every observer samples its queue's depth and delay. -/
  | observerSample
  /-- OFFER (R46): A receiver accepts an OFFER, allocates a handle and pulls the request's state. -/
  | offer (m : OfferMsg)
  /-- PULL_COMPLETE (R50): The receiver holds everything it needs and sends TAKEN. -/
  | pullComplete (handle : Nat) (ok : Bool) (view : Pulled)
  /-- TAKEN (R51): The sender receives TAKEN and releases ownership by compare-and-set, then sends RELEASE. -/
  | taken (m : HandMsg)
  /-- RELEASE (R46): The receiver takes ownership, flips homes and sends RELEASE_ACK. -/
  | release (m : HandMsg) (word : Nat)
  /-- RELEASE_ACK (R46): The sender frees its hot-tail objects and ends in DONE with HANDED_OFF. -/
  | releaseAck (m : HandMsg)
  /-- ABORT (R52): A receiver getting ABORT discards its buffers and releases its handle. -/
  | abort (m : HandMsg)
  /-- HANDOFF_OFFER_TIMEOUT (R53): The sender's wait for TAKEN times out; it aborts or retries. -/
  | handoffOfferTimeout (handle : Nat)
  /-- HANDOFF_RELEASE_TIMEOUT (R53): The released sender's wait for RELEASE_ACK times out; it resends RELEASE or reports unresolved. -/
  | handoffReleaseTimeout (handle : Nat)
  /-- HANDOFF_TAKEN_TIMEOUT (R53): The receiver's wait for RELEASE times out; it reads the commit word and takes ownership or resends. -/
  | handoffTakenTimeout (handle word : Nat)
  /-- ATTEND (R122): A cache node checks an ATTEND and computes the shard partial or answers SHARD_STATUS. -/
  | attend (m : AttendMsg)
  /-- SHARD_STATUS (R132): A SHARD_STATUS reaches the requester, which fetches, regroups or backs up the shard. -/
  | shardStatus (m : ShardMsg)
  /-- STRAGGLER_TIMEOUT (R134): A shard passes the straggler threshold and a backup ATTEND may be sent. -/
  | stragglerTimeout (handle shard : Nat)
  /-- SHARD_HOLD_EXPIRY (R136): HOLD_US passes; a fetched mark ends or a lost shard is retried. -/
  | shardHoldExpiry (home handle layer shard : Nat)
  /-- COPPICE (R84): A coppice node recomputes listed felled cuts and flips each entry to RESIDENT. -/
  | coppice (m : CoppiceMsg)
  /-- COPPICE_DONE (R84): The owner receives COPPICE_DONE and issues the request's next step. -/
  | coppiceDone (handle : Nat) (full : List Nat) (status node : Nat) (entries : Rebuilt)
  /-- COPPICE_TIMEOUT (R85): The wait for COPPICE_DONE times out; COPPICE is resent or the entries return to FELLED. -/
  | coppiceTimeout (handle : Nat)
  /-- CUT_FILLED (R199): A cut fills and the owner starts moving it to a placement target. -/
  | cutFilled (handle : Nat)
  /-- PLACE_RETRY (R199): After HOLD_US a cut left local retries placement from its target. -/
  | placeRetry (handle cut : Nat)
  /-- RESERVE (R202): The destination allocates and reserves a cut slot for a move. -/
  | reserve (m : ReserveMsg)
  /-- MOVE_OUT (R202): The source home marks a slot moved-out under lease. -/
  | moveOut (n : SentSlot) (rec : RecLoc) (cut claimGen : Nat)
  /-- MOVE_COPY_DONE (R202): The copy of a moving cut completes and the owner flips the entry. -/
  | moveCopyDone (handle : Nat) (cut : CutCopy) (crcOk retryOk : Bool)
  /-- CONFIRM (R202): The destination makes a reserved slot an ordinary allocated slot. -/
  | confirm (n : SentSlot)
  /-- MOVE_GRACE_EXPIRY (R202): GRACE_US after a flip, the owner frees the old slot. -/
  | moveGraceExpiry (handle cut : Nat)
  /-- MOVE_LEASE_EXPIRY (R204): A reserved or moved-out slot's lease runs out and the home reconciles it against the entry. -/
  | moveLeaseExpiry (n : SlotName) (entry : CutEntry)
  /-- FREE_MSG (R76): A FREE message reaches a home, lowering a hold count or freeing the slot. -/
  | freeMsg (src handle cut : Nat) (n : SlotName)
  /-- HOLD (R162): A HOLD message reaches a home and advances a slot's hold count. -/
  | hold (src id : Nat) (n : SlotName)
  /-- FELL_PICK (R215): A felling pass picks the next eligible request and fells or moves its cuts. -/
  | fellPick
  /-- LOOKUP_RELEASE (R166): A lookup's result is released at its equalized time and holds and entry writes begin. -/
  | lookupRelease (id : Nat) (late : Bool)
  /-- STALL_REPORT (R212): A stall reaches REPORT_MS and a PENDING completion and record are posted. -/
  | stallReport (handle cause : Nat)
  /-- CTX_FILL_DONE (R33): A context-cache fill from the table completes and waiting work proceeds. -/
  | ctxFillDone (index : Nat) (crcOk retryOk : Bool)
  /-- KEY_SLOT_FILL_DONE (R457): A key slot fill completes and waiting key uses proceed. -/
  | keySlotFillDone (index : Nat)
  /-- FALLOW_EXPIRY (R30): A released index's fallow ends and it becomes allocatable. -/
  | fallowExpiry (index : Nat)
  /-- DELTA_ACKED (R383): Every parity delta of a protected write is acknowledged and the operation is performed. -/
  | deltaAcked (id : Nat)
  /-- DEGRADE_TIMEOUT (R384): Deltas stay unacknowledged for DEGRADE_MS and the member becomes degraded. -/
  | degradeTimeout (qpError : Bool)
  /-- UNIT_LOCK (R385): A survivor holds writes to a stripe unit and returns it with a lock generation. -/
  | unitLock (node unit : Nat)
  /-- UNIT_UNLOCK (R385): A survivor releases a unit lock, or answers STALE for a released generation. -/
  | unitUnlock (node unit gen : Nat) (resynced : Bool)
  /-- UNIT_LOCK_EXPIRY (R385): A survivor releases a unit lock on its own after LOCK_US. -/
  | unitLockExpiry (gen : Nat)
  /-- REBUILD_UNIT_DONE (R387): A reconstructed unit is written and marked built. -/
  | rebuildUnitDone (unit : Nat)
  /-- ACCESS_SWEEP (R391): Each second, hot and cold page lists are composed and counters halved. -/
  | accessSweep
  /-- INTERVAL_BOUNDARY (R488): A scale-book interval ends; histograms, extremes and observer snapshots are recorded. -/
  | intervalBoundary (ser : List (Nat × Nat × Nat))
  /-- SCB_FLUSH_DONE (R491): A scale-book flush ends, and another starts if eligible records remain. -/
  | scbFlushDone
  /-- BORER_MEASURE (R494): Every PERIOD_S each borer pair is counted and its degradation computed. -/
  | borerMeasure (counts : List (Nat × Nat × Nat))
  /-- WEAR_DAY_END (R496): A wear day ends; daily means are stored and wear and days to limit are fitted. -/
  | wearDayEnd
  /-- ARRAY_BUDGET_REFILL (R561): Each microsecond the array budget bucket is refilled and withholding levels set. -/
  | arrayBudgetRefill
  /-- THERMAL_SAMPLE (R563): Each millisecond sensors are sampled, Tj formed and blaze steps, warning and trip evaluated. -/
  | thermalSample (temps : List Int) (watts : Nat)
  /-- DETECTED_ERROR (R434): A parity, CRC or link check fails; the data is discarded and the operation retried or failed. -/
  | detectedError (p : ErrPoint) (retryOk : Bool)
  /-- STACK_FAULT (R444): A stack loses training or reports a fatal fault and is quiesced. -/
  | stackFault (k : Nat)
  /-- TAMPER (R480): A tamper detector trips and the Keyhouse zeroizes into ERROR. -/
  | tamper
  /-- ENTROPY_HEALTH_FAIL (R477): An entropy health test fails and is counted, becoming a self-test failure if repeated. -/
  | entropyHealthFail (apt : Bool)
  /-- SUBPORT_UP (R529): A sub-port holds alignment with no fault for UP_HOLD_MS and comes up. -/
  | subportUp (port sub : Nat)
  /-- SUBPORT_DOWN (R529): A sub-port loses alignment or sees a fault and goes down. -/
  | subportDown (port sub : Nat) (lfault rfault : Bool)
  /-- SPARE_ROTATE (R533): A spare dwell ends and the spare lane moves one position by make-before-break. -/
  | spareRotate (port : Nat) (compareOk calOk : Bool)
  /-- LASER_POLL (R538): Each second every laser module's presence, state, bias and temperature are read. -/
  | laserPoll (port : Nat) (present ok : Bool) (bias temp serial : Nat)
  /-- CW_LOSS (R538): Light is lost at an engine; the port's sub-ports go down and a fault is recorded. -/
  | cwLoss (port : Nat)
  /-- FLEX_LINK_DOWN (R546): A flexible port link goes down and a fault record is posted. -/
  | flexLinkDown (q : Nat)
  /-- FLEX_RETRAIN (R546): Each second a down flexible port is retrained. -/
  | flexRetrain (q rate width hdm : Nat)
  /-- SPDM_GET_VERSION (R469): Answers an SPDM GET_VERSION. -/
  | spdmGetVersion (way : Nat)
  /-- SPDM_GET_CAPABILITIES (R469): Answers an SPDM GET_CAPABILITIES. -/
  | spdmGetCapabilities (way : Nat)
  /-- SPDM_NEGOTIATE_ALGORITHMS (R469): Answers an SPDM NEGOTIATE_ALGORITHMS. -/
  | spdmNegotiateAlgorithms (way : Nat)
  /-- SPDM_GET_DIGESTS (R469): Answers an SPDM GET_DIGESTS. -/
  | spdmGetDigests (way : Nat)
  /-- SPDM_GET_CERTIFICATE (R469): Returns the slot-0 certificate chain. -/
  | spdmGetCertificate (way slot : Nat)
  /-- SPDM_CHALLENGE (R469): Answers an SPDM CHALLENGE. -/
  | spdmChallenge (way slot : Nat)
  /-- SPDM_GET_MEASUREMENTS (R470): Returns the measurement blocks. -/
  | spdmGetMeasurements (way index : Nat)
  /-- SPDM_KEY_EXCHANGE (R469): Starts an SPDM session with ECDH P-384. -/
  | spdmKeyExchange (way session : Nat)
  /-- SPDM_FINISH (R469): Completes an SPDM session handshake. -/
  | spdmFinish (way session : Nat) (good : Bool)
  /-- SPDM_KEY_UPDATE (R469): Updates an SPDM session's keys. -/
  | spdmKeyUpdate (way session : Nat)
  /-- SPDM_END_SESSION (R469): Ends an SPDM session. -/
  | spdmEndSession (way session : Nat)
  /-- MCTP_CONTROL (R526): Answers an MCTP control message on the sideband. -/
  | mctpControl (command : Nat)
  /-- MCTP_READ (R526): Returns 4 to 64 bytes of a permitted BAR0 range on the sideband. -/
  | mctpRead (off len : Nat)
  /-- MCTP_IDENT (R526): Returns identification, role and epoch registers on the sideband. -/
  | mctpIdent
  /-- POR_RELEASE (R551): POR_N is released and the whole controller resets and starts up. -/
  | porRelease
  /-- PERST (R551): PERST_N resets the controller except the AOCLK domain. -/
  | perst
  /-- HOT_RESET (R551): A hot reset of the host port resets the controller. -/
  | hotReset
  /-- LINK_DOWN (R551): The host link goes down outside D3hot, PS3 and PS4 and the controller resets. -/
  | linkDown
  /-- PF_FLR (R501): A Function Level Reset of the PF resets the whole controller. -/
  | pfFlr
  /-- REF_LOSS (R551): The reference or PLL lock is lost for 10 µs and the controller resets. -/
  | refLoss
  /-- STARTUP_STEP (R553): A start-up step ends and the steps that depend on it begin. -/
  | startupStep (n good : Nat) (vals : List (Nat × Nat))
  /-- PFAIL (R492): PFAIL_N asserts; a power-fail record is written and the power-fail flush runs. -/
  | pfail
  /-- MGT_WATCHDOG (R551): The management-core watchdog expires and restarts the management core alone. -/
  | mgtWatchdog
  /-- FW_TRIAL_TIMEOUT (R432): TRIAL firmware is not ready within 2 s and the previous bank is restarted. -/
  | fwTrialTimeout
  /-- FREE_ACK (R81): The acknowledgement of a FREE reaches the felling owner, which moves the entry from FELLING to FELLED. -/
  | freeAck (handle cut status detail : Nat)
  /-- RESERVE_ANSWER (R202): The destination's answer to a RESERVE reaches the owner, which marks the entry MOVING or tries the next target and may start a felling pass on POOL_FULL. -/
  | reserveAnswer (handle cut status detail : Nat) (n : SlotName)
  /-- HOLD_ANSWER (R161): A home's answer to a HOLD reaches the trail index, which attaches, publishes or inserts up to the first refused block. -/
  | holdAnswer (id status detail : Nat)
  /-- UNIT_LOCK_ANSWER (R385): A survivor's locked unit data, or its STALE answer to UNIT_UNLOCK, reaches the reconstructor, which XORs the unit or restarts it. -/
  | unitLockAnswer (node unit : Nat) (ans : UnitAns)
  /-- SELFTEST_END (R448): A 120 ms column test or 20 ms lane calibration ends, stands are unfenced or fenced, records posted and SELFTEST completes. -/
  | selftestEnd (lane : Bool) (pass : Nat)
  /-- COLUMN_DRAIN_EXPIRY (R428): DRAIN_US, the self-test drain bound or the 500 µs gating bound runs out and frames still live in the column are withdrawn. -/
  | columnDrainExpiry
  /-- MGT_CORE_READY (R431): The restarted management core becomes ready, FW_ACTIVATE completes with OK and deferred commands run. -/
  | mgtCoreReady
  /-- REFCLK_STABLE (R551): The reference has been stable for 1 ms after a loss and the held reset is released, starting start-up. -/
  | refclkStable
  /-- PERST_RELEASE (R551): PERST_N is deasserted and start-up begins, counted from that release. -/
  | perstRelease
  /-- POR_ASSERT (R574): POR_N is asserted, for instance when a rail leaves tolerance, and the whole controller is held in reset. -/
  | porAssert
  /-- IDE_KM (R471): An IDE_KM key-programming message inside an SPDM session programs or activates IDE stream keys. -/
  | ideKm (way session port stream op : Nat)
  /-- DEVICE_UNSUPPORTED_REQUEST (R542): A request from a downstream device outside the exchange aperture, or an MSI from it, completes with Unsupported Request and is logged. -/
  | deviceUnsupportedRequest (q : Nat)
  deriving DecidableEq, Repr

end Sys2Proof
end

