-- ==== Sys2Proof/WellFormed.lean ====
section
/-! DEFINITION. Well-formed commands: every number lies in the field the spec gives it, and every unit named is one the part has. -/

namespace Sys2Proof

/-- A number that fits in w bits. -/
def fits (n w : Nat) : Bool := decide (n < 2 ^ w)
/-- A function of the host port: the PF or one of 63 VFs (R497). -/
def fnOk (n : Nat) : Bool := decide (n < 64)
/-- A queue number (R505). -/
def queueOk (n : Nat) : Bool := decide (n < 16384)
/-- A stand of the part (R4). -/
def standOk (n : Nat) : Bool := decide (n < 64)
/-- A port, or a sub-port of one: eight of each (R527, R541). -/
def portOk (n : Nat) : Bool := decide (n < 8)

/-- A host command whose fields fit R506. -/
def Cmd.wf (c : Cmd) : Bool :=
  fnOk c.fn && queueOk c.sq && fits c.rslot 16 && fits c.cq 16 && fits c.zero 21 && fits c.userTag 64 && fits c.descAddr 64 && fits c.descLen 32
  && fits c.handle 32 && fits c.arg0 64 && fits c.arg1 64 && fits c.arg2 64 && fits c.arg3 64

/-- A cut slot's name within R76. -/
def SlotName.wf (n : SlotName) : Bool := fits n.pool 8 && fits n.group 8 && fits n.slot 32 && fits n.ring 8
def SentSlot.wf (n : SentSlot) : Bool := fits n.src 16 && n.slot.wf

/-- A record's place within R39. -/
def RecLoc.wf (r : RecLoc) : Bool := fits r.node 16 && fits r.key 32 && fits r.offset 64

/-- A packet whose header fits R292. -/
def Packet.wf (p : Packet) : Bool :=
  portOk p.port && fits p.flags 8 && fits p.srcNode 16 && fits p.dstNode 16 && fits p.dstQp 32 && fits p.srcQp 32 && fits p.psn 32
  && fits p.ackPsn 32 && fits p.epoch 32 && fits p.msg 32

/-- An OFFER whose fields fit R50. -/
def OfferMsg.wf (m : OfferMsg) : Bool :=
  fits m.sender 16 && fits m.handle 32 && fits m.hseq 32 && fits m.epoch 32 && fits m.control 32 && fits m.adapter 32 && fits m.claimGen 16
  && m.record.wf && fits m.userTag 64

/-- A handoff message whose fields fit R51 to R53. -/
def HandMsg.wf (m : HandMsg) : Bool := fits m.src 16 && fits m.handle 32 && fits m.hseq 32 && fits m.peerHandle 32

/-- A RESERVE whose fields fit R202. -/
def ReserveMsg.wf (m : ReserveMsg) : Bool := fits m.src 16 && fits m.handle 32 && fits m.pool 8 && m.record.wf && fits m.claimGen 16

/-- A COPPICE whose fields fit R84. -/
def CoppiceMsg.wf (m : CoppiceMsg) : Bool := fits m.src 16 && fits m.handle 32 && m.record.wf && fits m.claimGen 16 && fits m.model 16

/-- An ATTEND whose fields fit R121. -/
def AttendMsg.wf (m : AttendMsg) : Bool :=
  fits m.src 16 && fits m.handle 32 && fits m.tenant 20 && fits m.model 16 && fits m.layer 16 && fits m.shard 8 && fits m.formats 16

/-- A SHARD_STATUS whose fields fit R122. -/
def ShardMsg.wf (m : ShardMsg) : Bool := fits m.src 16 && fits m.layer 16 && fits m.shard 8 && fits m.status 8 && fits m.detail 8

/-- A well-formed command. -/
def Instr.wf (i : Instr) : Bool :=
  match i with
  | .wqCreate c | .wqDestroy c | .cqCreate c | .cqDestroy c | .rqCreate c | .rqDestroy c | .admitCmd c | .ctxRead c | .token c | .pause c | .resume c
    | .cancel c | .park c | .unpark c | .migrate c | .recover c | .claim c | .verify c | .commit c | .rollback c | .fell c | .fellCut c | .move c
    | .trailInsert c | .lookup c | .trailRemove c | .blazePublish c | .blazeRetire c | .modelReg c | .modelDereg c | .cutPool c | .free c | .seal c
    | .expand c | .tableLoad c | .tableFree c | .adapterLoad c | .adapterRetire c | .progLoad c | .standUnfence c | .selftest c | .laneRestore c
    | .stackQuiesce c | .qpCreate c | .qpModify c | .qpDestroy c | .regionReg c | .regionDereg c | .chokerCancel c | .trigAdd c | .trigSet c
    | .shaperSet c | .leaseBreak c | .mapInstall c | .roleBegin c | .roleCommit c | .roleAbort c | .rollColumn c | .fwStage c | .fwActivate c
    | .fwConfirm c | .rebuild c | .parRebuild c | .keyImport c | .keyDestroy c | .keyInfo c | .keyGetKem c | .keySalt c | .keyZeroize c
    | .keySelftest c | .pwrState c => c.wf
  | .resync c _ => c.wf
  | .powerTransitionDone | .commandFetch | .vfEnableClear | .admissionScan | .riskEvaluation | .taskPlace | .shaperWheelSlot | .observerSample
    | .fellPick | .accessSweep | .scbFlushDone | .wearDayEnd | .arrayBudgetRefill | .tamper | .mctpIdent | .porRelease | .perst | .hotReset
    | .linkDown | .pfFlr | .refLoss | .pfail | .mgtWatchdog | .fwTrialTimeout | .columnDrainExpiry | .mgtCoreReady | .refclkStable | .perstRelease
    | .porAssert => true
  | .sqTailDoorbell fn q v | .cqHeadDoorbell fn q v => fnOk fn && queueOk q && fits v 64
  | .qpSqDoorbell fn v | .rqDoorbell fn v | .resultConsume fn v | .consume fn v | .admqEnableWrite fn v => fnOk fn && fits v 64
  | .cqCoalesceTimer fn q => fnOk fn && queueOk q
  | .msixUnmask fn vec => fnOk fn && decide (vec < 32)
  | .vfFlr fn => fnOk fn
  | .d3hotChange fn _ => fnOk fn
  | .registerWrite fn off size v => fnOk fn && fits off 64 && fits size 64 && fits v 64
  | .hifEvtCfgWrite v | .tirFellKick v | .obsSnap v | .scbFlushWrite v | .circClear v | .faultHeadWrite v | .swreport v | .pwrReset v => fits v 64
  | .attErrorClear stand v | .cdcErrorClear stand v => standOk stand && fits v 64
  | .obsSelWrite o v => decide (o < 256) && fits v 64
  | .xwEnableWrite w v => decide (w < 64) && fits v 64
  | .flexIndStart q v => portOk q && fits v 64
  | .flexIndDone q result data => portOk q && fits result 64 && fits data 64
  | .macsecSaWrite p n k v => portOk p && fits n 64 && fits k 64 && fits v 64
  | .laserEnWrite p v => portOk p && fits v 64
  | .windowWrite w off path _ => decide (w < 64) && fits off 64 && fits path 64
  | .xwDoorbell w path v | .rhead w path v => decide (w < 64) && fits path 64 && fits v 64
  | .releaseRecordWrite w => decide (w < 64)
  | .slotFlagWrite w slot => decide (w < 64) && fits slot 64
  | .chunkRelease handle | .handoffOfferTimeout handle | .handoffReleaseTimeout handle | .coppiceTimeout handle | .cutFilled handle => fits handle 32
  | .frameSwitch st | .kerfPoint st | .illegalBundle st | .nop st | .add st | .sub st | .and st | .or st | .xor st | .shl st | .shr st | .sar st
    | .mul st | .min st | .max st | .minu st | .maxu st | .addi st | .andi st | .ori st | .xori st | .shli st | .shri st | .sari st | .li st | .liA st
    | .lsh st | .adda st | .mova st | .movs st | .cmpEq st | .cmpNe st | .cmpLt st | .cmpGe st | .cmpLtu st | .cmpGeu st | .cmpiEq st | .cmpiNe st
    | .cmpiLt st | .cmpiGe st | .pand st | .por st | .pandn st | .pxor st | .ldB st | .ldH st | .ldW st | .ldD st | .ldWs st | .stB st | .stH st
    | .stW st | .stD st | .stiB st | .stiH st | .stiW st | .dcpy st | .br st | .bz st | .bnz st | .halt st | .waitA st | .waitC st | .waitM st
    | .rdtime st | .mvLd st | .mvSt st | .mvGather st | .mvBwrite st | .mvReduce st | .attIssue st | .cdcIssue st | .tzero st | .tmmaBf16 st
    | .tmmaE4m3 st | .tmmaE5m2 st | .tmmaMx8 st | .tmmaMx4 st | .tpackBf16 st | .vadd st | .vsub st | .vmul st | .vfma st | .vmax st | .vmin st
    | .vdiv st | .vexp2 st | .vrmax st | .vrsum st | .vmov st | .vbcast st | .vzero st | .vld st | .vst st | .vldBf16 st | .vstBf16 st => standOk st
  | .attCommandDone st frame | .cdcCommandDone st frame | .moverCommandDone st frame => standOk st && decide (frame < 4)
  | .workRequestStart index | .qpDrained index | .giveUp index | .ackDelayExpiry index | .regionFreed index | .leaseTermExpiry index
    | .keySlotFillDone index | .fallowExpiry index => fits index 64
  | .packetTransmit port | .cwLoss port => portOk port
  | .send p | .write p | .readReq p | .atomic p | .reduce p | .reduceLsem p | .mcast p | .ack p | .nak p | .creditReq p => p.wf
  | .readResp _ p => p.wf
  | .atomicResp _ p => p.wf
  | .arpRequest port sp _ _ _ => portOk port && portOk sp
  | .neighborSolicitation port sp _ _ _ => portOk port && portOk sp
  | .nonCelwaldFrame port _ => portOk port
  | .qpCtxFetched index _ _ | .ctxFillDone index _ _ => fits index 64
  | .rtoExpiry index psn | .rnrRetry index psn => fits index 64 && fits psn 32
  | .pathHoldExpiry node path => fits node 16 && fits path 64
  | .hotLineCool line => fits line 64
  | .offer m => m.wf
  | .pullComplete handle _ _ => fits handle 32
  | .taken m | .releaseAck m | .abort m => m.wf
  | .release m word => m.wf && fits word 64
  | .handoffTakenTimeout handle word => fits handle 32 && fits word 64
  | .attend m => m.wf
  | .shardStatus m => m.wf
  | .stragglerTimeout handle shard => fits handle 32 && fits shard 64
  | .shardHoldExpiry home handle layer shard => fits home 16 && fits handle 32 && fits layer 64 && fits shard 64
  | .coppice m => m.wf
  | .coppiceDone handle _ status node _ => fits handle 32 && fits status 16 && fits node 16
  | .placeRetry handle cut | .moveGraceExpiry handle cut => fits handle 32 && fits cut 64
  | .reserve m => m.wf
  | .moveOut n rec cut claimGen => n.wf && rec.wf && fits cut 64 && fits claimGen 64
  | .moveCopyDone handle cut _ _ => fits handle 32 && fits cut.cut 64 && cut.slot.wf
  | .confirm n => n.wf
  | .moveLeaseExpiry n _ => fits n.pool 9 && fits n.group 8 && fits n.slot 32 && fits n.ring 8
  | .freeMsg src handle cut n => fits src 16 && fits handle 32 && fits cut 64 && n.wf
  | .hold src id n => fits src 16 && fits id 32 && n.wf
  | .lookupRelease id _ => fits id 32
  | .stallReport handle cause => fits handle 32 && fits cause 4
  | .deltaAcked id => fits id 32
  | .degradeTimeout _ => true
  | .unitLock node unit => fits node 16 && fits unit 32
  | .unitUnlock node unit gen _ => fits node 16 && fits unit 32 && fits gen 32
  | .unitLockExpiry gen => fits gen 32
  | .rebuildUnitDone unit => fits unit 32
  | .intervalBoundary _ => true
  | .borerMeasure _ => true
  | .thermalSample _ watts => fits watts 64
  | .detectedError _ _ => true
  | .stackFault k => fits k 64
  | .entropyHealthFail _ => true
  | .subportUp port sp => portOk port && portOk sp
  | .subportDown port sp _ _ => portOk port && portOk sp
  | .spareRotate port _ _ => portOk port
  | .laserPoll port _ _ bias temp serial => portOk port && fits bias 64 && fits temp 64 && fits serial 64
  | .flexLinkDown q | .deviceUnsupportedRequest q => portOk q
  | .flexRetrain q rate width hdm => portOk q && fits rate 64 && fits width 64 && fits hdm 64
  | .spdmGetVersion way | .spdmGetCapabilities way | .spdmNegotiateAlgorithms way | .spdmGetDigests way => decide (way < 2)
  | .spdmGetCertificate way slot | .spdmChallenge way slot => decide (way < 2) && fits slot 64
  | .spdmGetMeasurements way index => decide (way < 2) && fits index 64
  | .spdmKeyExchange way session | .spdmKeyUpdate way session | .spdmEndSession way session => decide (way < 2) && fits session 64
  | .spdmFinish way session _ => decide (way < 2) && fits session 64
  | .mctpControl command => fits command 32
  | .mctpRead off len => fits off 64 && fits len 64
  | .startupStep n good _ => fits n 64 && fits good 64
  | .freeAck handle cut status detail => fits handle 32 && fits cut 64 && fits status 16 && fits detail 16
  | .reserveAnswer handle cut status detail n => fits handle 32 && fits cut 64 && fits status 16 && fits detail 16 && n.wf
  | .holdAnswer id status detail => fits id 32 && fits status 16 && fits detail 16
  | .unitLockAnswer node unit _ => fits node 16 && fits unit 32
  | .selftestEnd _ pass => fits pass 64
  | .ideKm way session port stream op => decide (way < 2) && fits session 64 && (decide (port < 8) || port == 15) && fits stream 64 && fits op 64

end Sys2Proof
end

