-- ==== Sys2Proof/Decode.lean ====
section
/-! DEFINITION. Decoding. The spec gives the controller's commands no instruction words: spec/opcode_table.json gives no row any bits, so no word spells a command and the decoder answers none (log 56). How a host command's 64 bytes are read (R506) stands in Machine/Command.lean, and how a stand's bundles are read (R266 to R275) in Machine/Bundle.lean. -/

namespace Sys2Proof

/-- The command that a word spells by the opcode table's bits: the table gives none. -/
def decodeTableWord (_nbits _w : Nat) : Option Instr := none

end Sys2Proof
end

