-- ==== Sys2Proof/Config.lean ====
section
/-! DEFINITION. What one part fixes, and the free values: opaque constants with no body, of which nothing can be proved but that they are what they are. -/

namespace Sys2Proof.Config

/-- A fresh value the spec leaves open, by the state's counter of free values (State.free). -/
opaque freeNat : Nat → Nat

/-- A random byte string of the DRBG (R473, R476), by the counter of free values: n bytes are the first n entries. -/
opaque random : Nat → Nat → BitVec 8

/-- The choice the part makes in exp2 (R110), by the FP32 pattern of a result: how far into its allowed range the exact values that give it begin. The spec bounds the result and leaves the rest open. -/
opaque exp2Choice : Nat → Nat

/-- The codec issue cycles of a QUANT, by its positions and head dimension, which the spec does not state (R229, R561). -/
opaque quantCycles : Nat → Nat → Nat

/-- The parity node that the fleet map names for a home's parity group (R134): the fleet map is the placement controller's and no register of this node holds it. -/
opaque parityNode : Nat → Nat

/-- The PUF root secret (R458): each part has its own. -/
opaque rootSecret : List (BitVec 8)

/-- ML-DSA-87 verification (R454) of a message and signature under a public key. -/
opaque mldsaOk : List (BitVec 8) → List (BitVec 8) → List (BitVec 8) → Bool

/-- ECDSA P-384 verification (R454) of a message and signature under a public key. -/
opaque ecdsaOk : List (BitVec 8) → List (BitVec 8) → List (BitVec 8) → Bool

/-- ML-KEM-1024 decapsulation (R454, R459) with this device's key pair of a generation. -/
opaque kemDecap : Nat → List (BitVec 8) → List (BitVec 8)

/-- The ML-KEM-1024 public key of this device, by generation of the pair (R459, R479). -/
opaque kemPublic : Nat → List (BitVec 8)

/-- The operator import authority's ML-DSA-87 public key (R459). -/
opaque importAuthority : List (BitVec 8)

/-- The four fused digests of each kind of firmware key (R472). -/
opaque fusedMldsa : Nat → List (BitVec 8)
opaque fusedEcdsa : Nat → List (BitVec 8)

/-- Which of the four digests of each kind the fuses revoke (R472). -/
opaque revokedMldsa : Nat → Bool
opaque revokedEcdsa : Nat → Bool

/-- The firmware image that a new part's first bank holds (R430, R472: the spec gives no bytes). -/
opaque factoryImage : List (BitVec 8)

/-- Bodies of answers that other standards lay down (SPDM 1.3, MCTP: R469, R470, R526), by the kind of request and the counter of free values. -/
opaque answerBody : Nat → Nat → List (BitVec 8)

/-- The SHA-384 of measurement block i (R470), by the numbers it covers: how they are laid out for the digest the spec leaves open. -/
opaque measure : Nat → List Nat → List (BitVec 8)

/-- Where the parts of a request record lie within its region, by the offset of its head (R42, R43: the spec gives the head fields that name them and no places): part 0 is the segment index, 1 the cut map, 2 + k segment k of the token log. -/
opaque recPart : Nat → Nat → Nat

/-- The hash by which the hot-line detector's counter of a line is found (R352). -/
opaque hotHash : Nat → Nat

/-- The smoothed round trip and its variation after a sample (R313: the spec names them and gives no formula): SRTT, RTTVAR, sample. -/
opaque rttStep : Nat → Nat → Nat → Nat × Nat

/-- The protected byte of another member's bolt, by the member's node and the bolt's pool, slot, layer, head and cut: the parity node is told of the member's pools by no rule of the spec (R134). -/
opaque memberBolt : Nat → List Nat → Nat

/-- The protected byte of the slot-table entry of another member's slot, by the member's node and the slot's pool, slot and cut (R134, R380), which this node is told no more of. -/
opaque memberSlot : Nat → List Nat → Nat

/-- Whether a SHARED slot of another home has more holders than one request (R164), by the home, the slot's pool, slice group, number and ring count, and the time: the count stands there, and the spec gives the owner no message that asks for it. -/
opaque slotHeld : Nat → List Nat → Nat → Bool

/-- The bytes of the MRAM's first 64 KiB whose layout the spec does not give (R489), by the counter of free values and the offset. -/
opaque mramByte : Nat → Nat → BitVec 8

/-- The dirty units that the degraded member of a RESYNC lists (R384), where the command is fetched from a queue: they are that member's state, not this node's. -/
opaque dirtyUnits : Nat → List Nat

end Sys2Proof.Config
end

