-- ==== Sys2Proof/Machine/Assoc.lean ====
section
/-! DEFINITION. Finite maps as lists of key and value in strictly rising key order (so that equal maps are equal data), and the small operations the blocks use on them. -/

namespace Sys2Proof.Machine

/-- A finite map from numbers, as plain data. -/
abbrev AMap (α : Type) := List (Nat × α)

/-- The value of key `k`, if the map lists one. -/
def amGet {α : Type} (k : Nat) : AMap α → Option α
  | [] => none
  | (j, v) :: m => if j = k then some v else amGet k m

/-- Drops key `k`. -/
def amErase {α : Type} (k : Nat) : AMap α → AMap α
  | [] => []
  | (j, v) :: m => if j = k then amErase k m else (j, v) :: amErase k m

/-- Writes key `k`, keeping the keys in rising order. -/
def amSet {α : Type} (k : Nat) (v : α) : AMap α → AMap α
  | [] => [(k, v)]
  | (j, w) :: m =>
    if k < j then (k, v) :: (j, w) :: m
    else if k = j then (k, v) :: m
    else (j, w) :: amSet k v m

/-- Whether the map lists key `k`. -/
def amHas {α : Type} (k : Nat) (m : AMap α) : Bool := (amGet k m).isSome

/-- The value of key `k`, or `d` where none is listed. -/
def amGetD {α : Type} (k : Nat) (d : α) (m : AMap α) : α := (amGet k m).getD d

/-- Changes the value of key `k` where one is listed. -/
def amMod {α : Type} (k : Nat) (f : α → α) (m : AMap α) : AMap α :=
  match amGet k m with
  | some v => amSet k (f v) m
  | none => m

/-- The keys strictly rise. -/
def amSorted {α : Type} : AMap α → Bool
  | [] => true
  | [_] => true
  | (j, _) :: (k, v) :: m => decide (j < k) && amSorted ((k, v) :: m)

/-- The lowest number from `n` on, among the next `fuel`, that the map does not list. -/
def amFree {α : Type} (m : AMap α) (n fuel : Nat) : Option Nat :=
  match fuel with
  | 0 => none
  | fuel + 1 => if amHas n m then amFree m (n + 1) fuel else some n

/-- How many entries satisfy `p`. -/
def amCount {α : Type} (p : Nat → α → Bool) (m : AMap α) : Nat := (m.filter fun e => p e.1 e.2).length

/-- Every value changed by `f`. -/
def amMap {α β : Type} (f : Nat → α → β) (m : AMap α) : AMap β := m.map fun e => (e.1, f e.1 e.2)

/-- The entries that satisfy `p`. -/
def amFilter {α : Type} (p : Nat → α → Bool) (m : AMap α) : AMap α := m.filter fun e => p e.1 e.2

/-- Adds `n` to a saturating counter of `w` bits (the counters the register tables mark "saturates"). -/
def satAdd (w a n : Nat) : Nat := min (a + n) (2 ^ w - 1)

/-- Adds modulo 2^w (the counters the register tables do not mark as saturating wrap). -/
def wrapAdd (w a n : Nat) : Nat := (a + n) % 2 ^ w

/-- Bit field [lo + w − 1 : lo] of a number (R5). -/
def bits (x lo w : Nat) : Nat := (x >>> lo) % 2 ^ w

/-- One bit of a number (R5). -/
def bit (x n : Nat) : Bool := bits x n 1 == 1

/-- A Bool as a bit. -/
def b2n (b : Bool) : Nat := if b then 1 else 0

/-- The number with the listed bits set. -/
def bitSet : List Nat → Nat
  | [] => 0
  | n :: m => bitSet m ||| (1 <<< n)

/-- Rounds `a` up to a multiple of `n`. -/
def roundUp (a n : Nat) : Nat := (a + n - 1) / n * n

/-- Replaces element `i` of a list. -/
def listSet {α : Type} (i : Nat) (v : α) (l : List α) : List α := l.set i v

/-- Changes element `i` of a list where it has one. -/
def listMod {α : Type} (i : Nat) (f : α → α) : List α → List α
  | [] => []
  | a :: l => match i with
    | 0 => f a :: l
    | i + 1 => a :: listMod i f l

/-- Inserts into a list ordered by `le`. -/
def insertOrd {α : Type} (le : α → α → Bool) (a : α) : List α → List α
  | [] => [a]
  | b :: l => if le a b then a :: b :: l else b :: insertOrd le a l

/-- A list put in the order of `le`. -/
def isort {α : Type} (le : α → α → Bool) : List α → List α
  | [] => []
  | a :: l => insertOrd le a (isort le l)

end Sys2Proof.Machine
end

