-- ==== Sys2Proof/Machine/Memory.lean ====
section
/-! DEFINITION. Memory over the extended addresses of R254, byte order (R6, R7), and the CRCs of R70 and R221. -/

namespace Sys2Proof.Machine

/-- Memory as (address, byte) cells: addresses strictly rise and no cell holds what an unlisted address reads as. -/
abbrev Memory := List Host.Cell

/-- What a byte that nothing has written reads as. DESIGN CHOICE (log 3): the spec gives memory no contents at power-on. -/
def memDefault : Byte := 0

/-- No cell holds the byte an unlisted address reads as. -/
def Memory.noDefault : Memory → Bool
  | [] => true
  | (_, b) :: m => decide (b ≠ memDefault) && Memory.noDefault m

/-- The canonical form: addresses strictly rise and no cell holds the default. -/
def Memory.wf (m : Memory) : Bool := amSorted m && Memory.noDefault m

/-- The byte at an address. -/
def memRead (m : Memory) (a : Nat) : Byte := (amGet a m).getD memDefault

/-- Stores one byte and keeps the canonical form. -/
def memWrite (m : Memory) (a : Nat) (b : Byte) : Memory :=
  if b = memDefault then amErase a m else amSet a b m

/-- `n` bytes from `a` upward. -/
def memReadN (m : Memory) (a : Nat) : Nat → List Byte
  | 0 => []
  | n + 1 => memRead m a :: memReadN m (a + 1) n

/-- Stores a list of bytes from `a` upward. -/
def memWriteN (m : Memory) (a : Nat) : List Byte → Memory
  | [] => m
  | b :: l => memWriteN (memWrite m a b) (a + 1) l

/-- The little-endian value of a list of bytes (R6, R7). -/
def leNat : List Byte → Nat
  | [] => 0
  | b :: l => b.toNat + 256 * leNat l

/-- The `n` little-endian bytes of a value (R6, R7). -/
def leBytes : Nat → Nat → List Byte
  | 0, _ => []
  | n + 1, x => BitVec.ofNat 8 x :: leBytes n (x / 256)

/-- The little-endian field of `n` bytes at offset `o` of a structure (R7). -/
def leField (l : List Byte) (o n : Nat) : Nat := leNat ((l.drop o).take n)

/-- `l` with the bytes from offset `o` on replaced by `b`. -/
def splice (l : List Byte) (o : Nat) (b : List Byte) : List Byte := l.take o ++ b ++ l.drop (o + b.length)

/-- A little-endian read of memory. -/
def memReadLE (m : Memory) (a n : Nat) : Nat := leNat (memReadN m a n)

/-- A little-endian write of memory. -/
def memWriteLE (m : Memory) (a n x : Nat) : Memory := memWriteN m a (leBytes n x)

/-- Whether every byte of a list is zero. -/
def allZero : List Byte → Bool
  | [] => true
  | b :: l => decide (b = 0) && allZero l

/-- A list of bytes cut or padded with zeros to `n`. -/
def fit (n : Nat) (l : List Byte) : List Byte := (l ++ List.replicate n 0).take n

/-- One reflected CRC step over a bit. -/
def crcBit {w : Nat} (poly c : BitVec w) : BitVec w :=
  if c.getLsbD 0 then (c >>> 1) ^^^ poly else c >>> 1

/-- One reflected CRC step over a byte. -/
def crcByte {w : Nat} (poly c : BitVec w) (b : Byte) : BitVec w :=
  crcBit poly (crcBit poly (crcBit poly (crcBit poly (crcBit poly (crcBit poly (crcBit poly (crcBit poly (c ^^^ b.setWidth w))))))))

/-- The CRC-64 of R70: ECMA-182 polynomial, reflected, all-ones initial value and final XOR. -/
def crc64 (l : List Byte) : Nat :=
  ((l.foldl (crcByte 0xC96C5795D7870F42#64) 0xFFFFFFFFFFFFFFFF#64) ^^^ 0xFFFFFFFFFFFFFFFF#64).toNat

/-- The CRC-32C of R221: Castagnoli polynomial, reflected, all-ones initial value and final XOR. -/
def crc32c (l : List Byte) : Nat :=
  ((l.foldl (crcByte 0x82F63B78#32) 0xFFFFFFFF#32) ^^^ 0xFFFFFFFF#32).toNat

/-- Bits of an extended address that give its space (R254). -/
def xaSpace (a : Nat) : Nat := bits a 60 4
/-- Bits of an extended address that give the address within its space (R254). -/
def xaAddr (a : Nat) : Nat := bits a 0 60
/-- An address of host memory as an extended address (space 0x3 of R254). -/
def hostXA (a : Nat) : Nat := 3 * 2 ^ 60 + a % 2 ^ 60
/-- An address of the landing as an extended address (space 0x2 of R254). -/
def landXA (a : Nat) : Nat := 2 * 2 ^ 60 + a % 2 ^ 60

end Sys2Proof.Machine
end

