-- ==== Sys2Proof/Machine/Fp.lean ====
section
/-! DEFINITION. The arithmetic of the attention engine, the codec, the vector slot and reductions (R60 to R64, R102, R110, R128, R282): exact dyadic values, rounded once to nearest, ties to even, with subnormals kept. Every NaN produced is 0x7FC0_0000 (R112, R282; elsewhere log 26). -/

namespace Sys2Proof.Machine

/-- A floating-point value: NaN, an infinity, or (−1)^neg · m · 2^e. -/
inductive FV where
  | nan
  | inf (neg : Bool)
  | fin (neg : Bool) (m : Nat) (e : Int)
  deriving DecidableEq, Repr

namespace FV

/-- +0. -/
def zero : FV := fin false 0 0
/-- 1.0. -/
def one : FV := fin false 1 0
/-- −infinity. -/
def ninf : FV := inf true

/-- The value with its sign turned. -/
def neg : FV → FV
  | nan => nan
  | inf s => inf !s
  | fin s m e => fin (!s) m e

/-- Whether a value is a zero of either sign. -/
def isZero : FV → Bool
  | fin _ m _ => m == 0
  | _ => false

def isNan : FV → Bool
  | nan => true
  | _ => false

/-- Whether a value is NaN or infinite. -/
def special : FV → Bool
  | fin _ _ _ => false
  | _ => true

/-- The signed integer that `m · 2^e` is at exponent `q ≤ e`. -/
def at_ (s : Bool) (m : Nat) (e q : Int) : Int :=
  let n : Int := ((m * 2 ^ (e - q).toNat : Nat) : Int)
  if s then -n else n

/-- Exact sum (IEEE 754 for infinities and zeros). -/
def add : FV → FV → FV
  | nan, _ => nan
  | _, nan => nan
  | inf s, inf t => if s = t then inf s else nan
  | inf s, _ => inf s
  | _, inf t => inf t
  | fin s m e, fin t n f =>
    let q := min e f
    let z := at_ s m e q + at_ t n f q
    if z = 0 then fin (s && t && (m == 0 && n == 0)) 0 0 else fin (decide (z < 0)) z.natAbs q

/-- Exact difference. -/
def sub (a b : FV) : FV := a.add b.neg

/-- Exact product. -/
def mul : FV → FV → FV
  | nan, _ => nan
  | _, nan => nan
  | inf s, inf t => inf (s != t)
  | inf s, fin t n _ => if n = 0 then nan else inf (s != t)
  | fin s m _, inf t => if m = 0 then nan else inf (s != t)
  | fin s m e, fin t n f => fin (s != t) (m * n) (e + f)

/-- Division with a sticky bit below at least 80 quotient bits, so that one rounding of the result is correct (IEEE 754 for zeros and infinities). -/
def div : FV → FV → FV
  | nan, _ => nan
  | _, nan => nan
  | inf _, inf _ => nan
  | inf s, fin t _ _ => inf (s != t)
  | fin s _ _, inf t => fin (s != t) 0 0
  | fin s m e, fin t n f =>
    if n = 0 then (if m = 0 then nan else inf (s != t))
    else
      let k := 80 + Nat.log2 n
      let x := m * 2 ^ k
      fin (s != t) (2 * (x / n) + (if x % n = 0 then 0 else 1)) (e - f - k - 1)

/-- Whether a is below b; false where either is NaN. Zeros are equal. -/
def lt (a b : FV) : Bool :=
  match a, b with
  | nan, _ => false
  | _, nan => false
  | inf s, inf t => s && !t
  | inf s, _ => s
  | _, inf t => !t
  | fin s m e, fin t n f =>
    let q := min e f
    decide (at_ s m e q < at_ t n f q)

/-- The larger of two values that are not NaN. -/
def max (a b : FV) : FV := if a.lt b then b else a

/-- Whether a value is −0. -/
def negZero : FV → Bool
  | fin s m _ => s && m == 0
  | _ => false

/-- Maximum and minimum: NaN if either is NaN, −0 below +0 (R282). -/
def maxZ (a b : FV) : FV := if a.isNan || b.isNan then nan else if a.lt b || (a.negZero && b.isZero && !b.negZero) then b else a
def minZ (a b : FV) : FV := if a.isNan || b.isNan then nan else if b.lt a || (b.negZero && a.isZero && !a.negZero) then b else a

/-- m · 2^e rounded to nearest, ties to even, with at most `p` significant bits and no bit below 2^qmin: the integer and its exponent. -/
def rne (m : Nat) (e : Int) (p : Nat) (qmin : Int) : Nat × Int :=
  let q := Max.max qmin (e + (Nat.log2 m + 1 : Nat) - p)
  if q ≤ e then (m * 2 ^ (e - q).toNat, q)
  else
    let sh := (q - e).toNat
    let n := m / 2 ^ sh
    let r := m % 2 ^ sh
    let half := 2 ^ (sh - 1)
    (if half < r ∨ (r = half ∧ n % 2 = 1) then n + 1 else n, q)

/-- The magnitude bits of a value in a format of `t` fraction bits whose smallest subnormal is 2^qmin. -/
def packMag (m : Nat) (e : Int) (t : Nat) (qmin : Int) : Nat :=
  if m = 0 then 0
  else
    let r := rne m e (t + 1) qmin
    (r.2 - qmin).toNat * 2 ^ t + r.1

/-- The value that magnitude bits stand for in such a format. -/
def magVal (s : Bool) (b t : Nat) (qmin : Int) : FV :=
  let x := b / 2 ^ t
  if x = 0 then fin s (b % 2 ^ t) qmin else fin s (2 ^ t + b % 2 ^ t) (qmin + (x - 1 : Nat))

/-- A value as FP32: rounded to nearest even, overflow to infinity. -/
def to32 : FV → Nat
  | nan => 0x7FC00000
  | inf s => b2n s * 2 ^ 31 + 0x7F800000
  | fin s m e => b2n s * 2 ^ 31 + Min.min (packMag m e 23 (-149)) 0x7F800000

/-- The value of an FP32 pattern (R61). -/
def of32 (b : Nat) : FV :=
  let s := bit b 31
  let x := b % 2 ^ 31
  if x = 0x7F800000 then inf s else if 0x7F800000 < x then nan else magVal s x 23 (-149)

/-- A value as BF16: rounded to nearest even, overflow to infinity (R60, R112, R280). -/
def to16 : FV → Nat
  | nan => 0x7FC0
  | inf s => b2n s * 2 ^ 15 + 0x7F80
  | fin s m e => b2n s * 2 ^ 15 + Min.min (packMag m e 7 (-133)) 0x7F80

/-- The value of a BF16 pattern. -/
def of16 (b : Nat) : FV :=
  let s := bit b 15
  let x := b % 2 ^ 15
  if x = 0x7F80 then inf s else if 0x7F80 < x then nan else magVal s x 7 (-133)

/-- The value of an FP8 E4M3 pattern (R60). -/
def ofE4 (b : Nat) : FV := if b % 128 = 127 then nan else magVal (bit b 7) (b % 128) 3 (-9)

/-- The value of an FP8 E5M2 pattern (R60). -/
def ofE5 (b : Nat) : FV :=
  let x := b % 128
  if x = 0x7C then inf (bit b 7) else if 0x7C < x then nan else magVal (bit b 7) x 2 (-16)

/-- The value of an E2M1 pattern (R60). -/
def ofE2 (b : Nat) : FV := magVal (bit b 3) (b % 8) 1 (-1)

/-- A value rounded once to FP32 (R102). -/
def r32 (a : FV) : FV := of32 a.to32

/-- Rounded sum, difference, product and quotient of FP32 values. -/
def addR (a b : FV) : FV := (a.add b).r32
def subR (a b : FV) : FV := (a.sub b).r32
def mulR (a b : FV) : FV := (a.mul b).r32
def divR (a b : FV) : FV := (a.div b).r32

/-- The exact sum of a list, from +0. -/
def sum (l : List FV) : FV := l.foldl add zero

/-- One level of the pairwise tree of R114 and R282: neighbours added with one rounding each. -/
def pairs : List FV → List FV
  | a :: b :: l => addR a b :: pairs l
  | l => l

/-- The sum of 64 lanes by the fixed pairwise tree, lane 2i with lane 2i + 1 at each of six levels (R114, R282). -/
def treeSum (l : List FV) : FV := (pairs (pairs (pairs (pairs (pairs (pairs l)))))).headD zero

/-- A value scaled by 2^k. -/
def scale (a : FV) (k : Int) : FV :=
  match a with
  | fin s m e => fin s m (e + k)
  | x => x

end FV

/-! ### exp2 (R110) -/

/-- 2^64 · ln 2, rounded down. -/
def ln2Fix : Nat := 0xB17217F7D1CF79AB

/-- The alternating series of 2^(−f) in units of 2^−64, f in units of 2^−64: `t` is the next term. -/
def exp2Series (z : Nat) : Nat → Nat → Nat → Int → Int
  | 0, _, _, acc => acc
  | fuel + 1, k, t, acc =>
    exp2Series z fuel (k + 1) (t * z / 2 ^ 64 / (k + 1)) (if k % 2 = 0 then acc + t else acc - t)

/-- 2^(−F/2^64) in units of 2^−64, to within 2^−58. -/
def exp2Frac (f : Nat) : Nat := (exp2Series (f * ln2Fix / 2 ^ 64) 24 0 (2 ^ 64) 0).toNat

/-- The value of a non-negative finite FP32 pattern, in units of 2^-216. -/
def exp2Val (p : Nat) : Nat := if p < 2 ^ 23 then p * 2 ^ 67 else (2 ^ 23 + p % 2 ^ 23) * 2 ^ (p / 2 ^ 23 + 66)

/-- The pattern of the largest FP32 value not above y, y in units of 2^-216. -/
def exp2Floor (y : Nat) : Nat :=
  let b := Nat.log2 y
  if b < 90 then y / 2 ^ 67 else (b - 89) * 2 ^ 23 + y / 2 ^ (b - 23) - 2 ^ 23

/-- From which exact value on the result is at least the FP32 value of pattern p (1 or above): the part's own choice (log 27) among the values for which both this result and the one below it lie within the bounds of R110. Thresholds make the function monotonic whatever they are. -/
def exp2Step (p : Nat) : Nat :=
  let u := exp2Val p - exp2Val (p - 1)
  let edge (q : Nat) : Bool := q % 2 ^ 23 == 0 && decide (2 ≤ q / 2 ^ 23)
  let lo := if p = 1 then 2 ^ 64 + 1 else max (2 ^ 67) (if edge (p - 1) then exp2Val (p - 1) else exp2Val p - 2 * u)
  let hi := if edge p || edge (p + 1) then exp2Val p + 3 * u else exp2Val p + u
  lo + Config.exp2Choice p % (hi - lo + 1)

/-- The exp2 of a finite negative argument of magnitude m·2^e (R110): the largest FP32 value whose threshold 2^x has reached; +0 from −152 down. -/
def exp2Fin (m : Nat) (e : Int) : FV :=
  let v : Nat := if 0 ≤ e + 64 then m * 2 ^ (e + 64).toNat else m / 2 ^ (-(e + 64)).toNat
  if 152 * 2 ^ 64 ≤ v then FV.zero
  else
    let i : Nat := v / 2 ^ 64
    let f := v % 2 ^ 64
    let y := (if f = 0 then 2 ^ 64 else exp2Frac f) * 2 ^ (152 - i)
    let p := exp2Floor y
    let ok (q : Nat) : Bool := decide (1 ≤ q) && decide (q ≤ 0x3F800000) && decide (exp2Step q ≤ y)
    FV.of32 (([p + 2, p + 1, p, p - 1, p - 2].find? ok).getD 0)

/-- exp2 of R110 for an argument of at most 0; NaN for NaN and for positive arguments (R282). -/
def exp2 (x : FV) : FV :=
  match x with
  | .nan => .nan
  | .inf s => if s then FV.zero else .nan
  | .fin s m e => if m = 0 then FV.one else if s then exp2Fin m e else .nan

/-! ### MX blocks (R61 to R64, R68) -/

/-- A quantized block: its scale entry (R68) and 32 elements. -/
structure MxBlock where
  entry : Nat
  elems : List Nat
  deriving DecidableEq, Repr

/-- The magnitude of a finite value. -/
def FV.mag : FV → Nat × Int
  | .fin _ m e => (m, e)
  | _ => (0, 0)

/-- The sign of a value. -/
def FV.sign : FV → Bool
  | .fin s _ _ => s
  | .inf s => s
  | .nan => false

/-- floor(log2) of a non-zero finite value. -/
def FV.flog2 (a : FV) : Int := (Nat.log2 a.mag.1 : Int) + a.mag.2

/-- The element of a scaled value: `four` chooses E2M1, else E4M3; saturated beyond the largest finite value (R63, R64). The Bool says whether it saturated. -/
def mxElem (four : Bool) (q : FV) : Nat × Bool :=
  let sgn := b2n q.sign * (if four then 8 else 128)
  let big : FV := if four then .fin false 6 0 else .fin false 448 0
  let a : FV := .fin false q.mag.1 q.mag.2
  if big.lt a then (sgn + (if four then 7 else 0x7E), true)
  else (sgn + (if four then FV.packMag q.mag.1 q.mag.2 1 (-1) else FV.packMag q.mag.1 q.mag.2 3 (-9)), false)

/-- Quantizes a block of FP32 values under a shift (R63). -/
def mxQuant (four : Bool) (shift : Int) (v : List FV) : MxBlock :=
  if v.any FV.special then ⟨0xFF + 2 ^ 9, v.map fun _ => 0⟩
  else
    let amax := v.foldl (fun a x => a.max (.fin false x.mag.1 x.mag.2)) FV.zero
    if amax.isZero then ⟨0x7F + 2 ^ 8, v.map fun x => b2n x.sign * (if four then 8 else 128)⟩
    else
      let x := amax.flog2 - (if four then 2 else 8) + shift
      let sc := (min 254 (max 0 (x + 127))).toNat
      let es := v.map fun a => mxElem four (a.scale (127 - sc))
      ⟨sc + (if es.any (·.2) then 2 ^ 10 else 0), es.map (·.1)⟩

/-- The value of an MX element under a scale (R61): NaN where the scale is 0xFF. -/
def mxVal (four : Bool) (sc el : Nat) : FV :=
  if sc = 0xFF then .nan else ((if four then FV.ofE2 el else FV.ofE4 el).scale ((sc : Int) - 127))

/-- A list cut into pieces of n. -/
def chunks {α : Type} (n : Nat) (l : List α) : List (List α) :=
  (List.range ((l.length + n - 1) / max 1 n)).map fun i => (l.drop (i * n)).take n

/-! ### Merging partial rows (R128) -/

/-- prod of R128: +0 where the scale is +0. -/
def lsemProd (x s : FV) : FV := if s.isZero then FV.zero else x.mulR s

/-- A partial row: maximum, sum and channels (R111). -/
structure PRow where
  m : FV
  l : FV
  o : List FV
  deriving DecidableEq, Repr

/-- A row with nothing merged. -/
def PRow.empty (d : Nat) : PRow := ⟨FV.ninf, FV.zero, List.replicate d FV.zero⟩

/-- Merges row b into row a (R128); of two zero maxima of different sign the result is +0 whichever row arrives first, since either order gives the same bits (DEDUCED, log 144). -/
def PRow.merge (a b : PRow) : PRow :=
  if a.m.isNan || b.m.isNan then ⟨.nan, .nan, a.o.map fun _ => .nan⟩
  else if b.m = FV.ninf then a
  else if a.m = FV.ninf then b
  else
    let m := a.m.maxZ b.m
    let sa := exp2 (a.m.subR m)
    let sb := exp2 (b.m.subR m)
    ⟨m, (a.l.mulR sa).addR (b.l.mulR sb), (a.o.zip b.o).map fun e => (lsemProd e.1 sa).addR (lsemProd e.2 sb)⟩

/-- The bytes of a partial row (R111). -/
def PRow.bytes (r : PRow) : List Byte := (r.o.flatMap fun c => leBytes 4 c.to32) ++ leBytes 4 r.m.to32 ++ leBytes 4 r.l.to32

/-- A partial row read from its bytes. -/
def PRow.ofBytes (d : Nat) (l : List Byte) : PRow :=
  ⟨FV.of32 (leField l (4 * d) 4), FV.of32 (leField l (4 * d + 4) 4), (List.range d).map fun i => FV.of32 (leField l (4 * i) 4)⟩

/-- Row b merged into row a as bytes (R128): a row that takes part in no arithmetic stays as it is, bit for bit. -/
def lsemMerge (d : Nat) (a b : List Byte) : List Byte :=
  let x := PRow.ofBytes d a
  let y := PRow.ofBytes d b
  if !(x.m.isNan || y.m.isNan) && decide (y.m = FV.ninf) then a
  else if !(x.m.isNan || y.m.isNan) && decide (x.m = FV.ninf) then b
  else (x.merge y).bytes

/-- Whether a row is poisoned, and whether it is empty (R109). -/
def PRow.poisoned (r : PRow) : Bool := r.m.isNan
def PRow.isEmpty (r : PRow) : Bool := decide (r.m = FV.ninf)

/-- A normalized row in OUT_FMT (R112). -/
def PRow.normalize (r : PRow) (bf16 : Bool) : List Byte :=
  r.o.flatMap fun c =>
    let q : FV := if r.poisoned then .nan else if r.isEmpty then FV.zero else c.divR r.l
    if bf16 then leBytes 2 q.to16 else leBytes 4 q.to32

end Sys2Proof.Machine
end

