-- ==== Sys2Proof/Machine/RegTable.lean ====
section
/-! DEFINITION. Every register of the spec's 255 register tables: its BAR0 offset, its copies, its fields with their places, access types (R8) and reset values. The field names are the spec's, after the register's. A field whose reset value the spec gives in words (an index-dependent one, a fused one, one restored from MRAM) stands here with 0 and gets its value in `fieldReset` below. -/

namespace Sys2Proof.Machine

/-- The access types of R8. -/
inductive Access where
  | ro | rw | wo | w1c | w1s | rwl
  deriving DecidableEq, Repr

/-- A field of a register: the register's BAR0 offset, its lowest bit, width, access type and reset value. -/
structure Fld where
  off : Nat
  lo : Nat
  w : Nat
  acc : Access
  reset : Nat
  deriving DecidableEq, Repr

/-- The key under which the register file keeps a field. -/
def Fld.key (f : Fld) : Nat := f.off * 64 + f.lo

/-- The field of copy `i` of a register whose copies stand `stride` bytes apart. -/
def Fld.at (f : Fld) (stride i : Nat) : Fld := { f with off := f.off + stride * i }

/-- A register: its first offset, its width in bits, the (stride, count) of its copies, and its fields. -/
structure RegRow where
  name : String
  off : Nat
  width : Nat
  dims : List (Nat × Nat)
  fields : List Fld
  deriving DecidableEq, Repr

namespace Reg

def MGT_DEV_ID_PART : Fld := ⟨0x0, 16, 16, .ro, 0x9600⟩
def MGT_DEV_ID_FAMILY : Fld := ⟨0x0, 8, 8, .ro, 1⟩
def MGT_DEV_ID_STEP_LETTER : Fld := ⟨0x0, 4, 4, .ro, 1⟩
def MGT_DEV_ID_STEP_NUM : Fld := ⟨0x0, 0, 4, .ro, 1⟩
def MGT_FAMILY_PARAM_STANDS : Fld := ⟨0x4, 24, 8, .ro, 0x40⟩
def MGT_FAMILY_PARAM_STACKS : Fld := ⟨0x4, 20, 4, .ro, 8⟩
def MGT_FAMILY_PARAM_ETH_PORTS : Fld := ⟨0x4, 16, 4, .ro, 8⟩
def MGT_FAMILY_PARAM_FLEX_PORTS : Fld := ⟨0x4, 12, 4, .ro, 8⟩
def MGT_FAMILY_PARAM_STACK_GIB : Fld := ⟨0x4, 4, 8, .ro, 0x30⟩
def MGT_FAMILY_CAP_CTX_LOG2 : Fld := ⟨0x8, 24, 8, .ro, 0x15⟩
def MGT_FAMILY_CAP_QP_DIE_LOG2 : Fld := ⟨0x8, 16, 8, .ro, 0xf⟩
def MGT_FAMILY_CAP_CTXC_LOG2 : Fld := ⟨0x8, 8, 8, .ro, 0x10⟩
def MGT_ROLE_NODE_ID : Fld := ⟨0x10, 16, 16, .ro, 0⟩
def MGT_ROLE_CHANGING : Fld := ⟨0x10, 7, 1, .ro, 0⟩
def MGT_ROLE_ROLE_NEXT : Fld := ⟨0x10, 4, 3, .ro, 0⟩
def MGT_ROLE_ROLE : Fld := ⟨0x10, 0, 3, .ro, 0⟩
def SCH_CTX_CFG_HANDOFF_RETRY : Fld := ⟨0x4200300, 16, 8, .rw, 3⟩
def SCH_CTX_CFG_HANDOFF_TMO_US : Fld := ⟨0x4200300, 0, 16, .rw, 0x4e20⟩
def SCH_CTX_FALLOW_FALLOW_US : Fld := ⟨0x4200304, 0, 16, .rwl, 0xfa0⟩
def SCH_SPILL_BASE_LO_BASE_LO : Fld := ⟨0x4200308, 12, 20, .rw, 0⟩
def SCH_SPILL_BASE_HI_BASE_HI : Fld := ⟨0x420030c, 0, 32, .rw, 0⟩
def SCH_SPILL_SLOTS_SLOTS : Fld := ⟨0x4200310, 0, 25, .rw, 0⟩
def SCH_CTX_LIVE_LIVE : Fld := ⟨0x4200314, 0, 22, .ro, 0⟩
def SCH_CTX_FALLOWING_FALLOWING : Fld := ⟨0x4200318, 0, 22, .ro, 0⟩
def SCH_CTXC_MISS_MISSES : Fld := ⟨0x420031c, 0, 32, .ro, 0⟩
def SCH_CTX_STALL_SET_PINNED : Fld := ⟨0x4200320, 16, 16, .ro, 0⟩
def SCH_CTX_STALL_NO_INDEX : Fld := ⟨0x4200320, 0, 16, .ro, 0⟩
def SCH_CTX_EVENT_SPILL_TAG : Fld := ⟨0x4200324, 4, 1, .w1c, 0⟩
def SCH_CTX_EVENT_CTX_CRC : Fld := ⟨0x4200324, 3, 1, .w1c, 0⟩
def SCH_CTX_EVENT_SUPERSEDED : Fld := ⟨0x4200324, 2, 1, .w1c, 0⟩
def SCH_CTX_EVENT_UNRESOLVED : Fld := ⟨0x4200324, 1, 1, .w1c, 0⟩
def SCH_CTX_EVENT_ORPHAN : Fld := ⟨0x4200324, 0, 1, .w1c, 0⟩
def SCH_COPPICE_NODE_NODE : Fld := ⟨0x4200330, 0, 16, .rw, 0⟩
def SCH_FELL_COUNT_FELLED : Fld := ⟨0x4200334, 0, 32, .ro, 0⟩
def SCH_COPPICE_COUNT_COPPICED : Fld := ⟨0x4200338, 0, 32, .ro, 0⟩
def CDC_KVQ_SAT_BLOCKS : Fld := ⟨0x4400100, 0, 32, .ro, 0⟩
def CDC_KVQ_NAN_BLOCKS : Fld := ⟨0x4400104, 0, 32, .ro, 0⟩
def STD_ATT_STATUS_ERROR : Fld := ⟨0x8000200, 31, 1, .w1c, 0⟩
def STD_ATT_STATUS_BUSY : Fld := ⟨0x8000200, 30, 1, .ro, 0⟩
def STD_ATT_STATUS_DETAIL : Fld := ⟨0x8000200, 16, 8, .ro, 0⟩
def STD_ATT_STATUS_QDEPTH : Fld := ⟨0x8000200, 8, 8, .ro, 0⟩
def STD_ATT_FAULT_TAG_JOB_TAG : Fld := ⟨0x8000204, 0, 32, .ro, 0⟩
def STD_ATT_ROWS_ROWS : Fld := ⟨0x8000208, 0, 32, .ro, 0⟩
def STD_ATT_EMPTY_ROWS : Fld := ⟨0x800020c, 0, 32, .ro, 0⟩
def STD_ATT_NAN_ROWS : Fld := ⟨0x8000210, 0, 32, .ro, 0⟩
def STD_ATT_CYCLES_KCYCLES : Fld := ⟨0x8000214, 0, 32, .ro, 0⟩
def STD_ATT_SKIPPED_TILES : Fld := ⟨0x8000218, 0, 32, .ro, 0⟩
def STD_ATT_RETRY_LASTING : Fld := ⟨0x800021c, 16, 16, .ro, 0⟩
def STD_ATT_RETRY_RETRIED : Fld := ⟨0x800021c, 0, 16, .ro, 0⟩
def STD_ATT_HELD_KCYCLES : Fld := ⟨0x8000220, 0, 32, .ro, 0⟩
def SCH_MERGE_BASE_LO_BASE_LO : Fld := ⟨0x4200400, 12, 20, .rw, 0⟩
def SCH_MERGE_BASE_HI_BASE_HI : Fld := ⟨0x4200404, 0, 32, .rw, 0⟩
def SCH_MERGE_CFG_STRIDE_4K : Fld := ⟨0x4200408, 16, 12, .rw, 0⟩
def SCH_MERGE_CFG_SLOTS : Fld := ⟨0x4200408, 0, 16, .rw, 0⟩
def SCH_MERGE_DET_STRIDE_4K : Fld := ⟨0x420040c, 16, 12, .rw, 0⟩
def SCH_MERGE_DET_SLOTS : Fld := ⟨0x420040c, 0, 16, .rw, 0⟩
def SCH_SPLIT_CFG_STRAGGLER_US : Fld := ⟨0x4200410, 16, 16, .rw, 0x32⟩
def SCH_SPLIT_CFG_PREFETCH_LAYERS : Fld := ⟨0x4200410, 8, 8, .rw, 2⟩
def SCH_SPLIT_HOLD_HOLD_US : Fld := ⟨0x4200414, 0, 16, .rw, 0x3e8⟩
def SCH_SPLIT_BACKUP_BUDGET_BP : Fld := ⟨0x4200418, 16, 16, .rw, 0xc8⟩
def SCH_SPLIT_BACKUP_BURST : Fld := ⟨0x4200418, 8, 8, .rw, 0x40⟩
def SCH_SPLIT_BACKUP_CREDIT : Fld := ⟨0x4200418, 0, 8, .ro, 0x40⟩
def SCH_SPLIT_SHARDS_SENT : Fld := ⟨0x420041c, 0, 32, .ro, 0⟩
def SCH_SPLIT_FALLBACK_FETCHED : Fld := ⟨0x4200420, 0, 32, .ro, 0⟩
def SCH_SPLIT_BACKUP_ISSUED_ISSUED : Fld := ⟨0x4200424, 0, 32, .ro, 0⟩
def SCH_SPLIT_BACKUP_WON_WON : Fld := ⟨0x4200428, 0, 32, .ro, 0⟩
def SCH_SPLIT_BACKUP_DENIED_DENIED : Fld := ⟨0x420042c, 0, 32, .ro, 0⟩
def SCH_SPLIT_DISCARD_STALE : Fld := ⟨0x4200430, 16, 16, .ro, 0⟩
def SCH_SPLIT_DISCARD_LATE : Fld := ⟨0x4200430, 0, 16, .ro, 0⟩
def SCH_SPLIT_STALL_NO_SLOT : Fld := ⟨0x4200434, 16, 16, .ro, 0⟩
def SCH_SPLIT_STALL_SHARD_LOST : Fld := ⟨0x4200434, 0, 16, .ro, 0⟩
def TRL_BLAZE_CFG_UPD_SHARE : Fld := ⟨0x4300000, 8, 8, .rw, 4⟩
def TRL_BLAZE_CFG_ENABLE : Fld := ⟨0x4300000, 0, 1, .rw, 0⟩
def TRL_BLAZE_REC_LO_BASE_LO : Fld := ⟨0x4300004, 12, 20, .rw, 0⟩
def TRL_BLAZE_REC_HI_BASE_HI : Fld := ⟨0x4300008, 0, 32, .rw, 0⟩
def TRL_BLAZE_RECS_RECS : Fld := ⟨0x430000c, 0, 19, .rw, 0⟩
def TRL_TREE_BASE_LO_BASE_LO : Fld := ⟨0x4300010, 12, 20, .rw, 0⟩
def TRL_TREE_BASE_HI_BASE_HI : Fld := ⟨0x4300014, 0, 32, .rw, 0⟩
def TRL_TREE_CFG_TENANT_CAP : Fld := ⟨0x4300018, 16, 16, .rw, 0x400⟩
def TRL_TREE_CFG_ENABLE : Fld := ⟨0x4300018, 0, 1, .rw, 0⟩
def TRL_TREE_NODES_NODES : Fld := ⟨0x430001c, 0, 25, .rw, 0⟩
def TRL_EQ_CFG_ENABLE : Fld := ⟨0x4300020, 31, 1, .rw, 0⟩
def TRL_EQ_CFG_BASE : Fld := ⟨0x4300020, 16, 15, .rw, 0x100⟩
def TRL_EQ_CFG_BLOCK_NS : Fld := ⟨0x4300020, 0, 16, .rw, 0x15e⟩
def TRL_THROTTLE_STEP : Fld := ⟨0x4300024, 30, 2, .ro, 0⟩
def TRL_THROTTLE_KSLOTS : Fld := ⟨0x4300024, 0, 30, .ro, 0⟩
def TRL_BLAZE_LIVE_LIVE : Fld := ⟨0x4300028, 0, 19, .ro, 0⟩
def TRL_LOOKUPS_LOOKUPS : Fld := ⟨0x4300030, 0, 32, .ro, 0⟩
def TRL_HIT_BLOCKS_BLOCKS : Fld := ⟨0x4300034, 0, 32, .ro, 0⟩
def TRL_MISC_COLLIDE : Fld := ⟨0x4300038, 16, 16, .ro, 0⟩
def TRL_MISC_EQ_OVERRUN : Fld := ⟨0x4300038, 0, 16, .ro, 0⟩
def TRL_EVICT_EVICTED : Fld := ⟨0x430003c, 16, 16, .ro, 0⟩
def TRL_EVICT_CAP_REFUSED : Fld := ⟨0x430003c, 0, 16, .ro, 0⟩
def TRL_FN_BLAZE_EN : Fld := ⟨0x4300100, 8, 1, .rw, 0⟩
def TRL_FN_BLAZE_SET : Fld := ⟨0x4300100, 0, 8, .rw, 0⟩
def SCH_CLASS_TGT_TTFT_MS : Fld := ⟨0x4200000, 16, 16, .rw, 0⟩
def SCH_CLASS_TGT_TPOT_10US : Fld := ⟨0x4200000, 0, 16, .rw, 0⟩
def SCH_CLASS_CTL_PAUSABLE : Fld := ⟨0x4200004, 31, 1, .rw, 0⟩
def SCH_CLASS_CTL_MAX_ACTIVE : Fld := ⟨0x4200004, 0, 22, .rw, 0⟩
def SCH_ADMIT_CFG_QMAX : Fld := ⟨0x4200040, 0, 17, .rw, 0x10000⟩
def SCH_ADMIT_LIMIT_MAX_ACTIVE : Fld := ⟨0x4200044, 0, 22, .rw, 0⟩
def SCH_ADMIT_QUEUED_QUEUED : Fld := ⟨0x4200048, 0, 17, .ro, 0⟩
def SCH_CLASS_ACTIVE_ACTIVE : Fld := ⟨0x4200060, 0, 22, .ro, 0⟩
def SCH_PLACE_CFG_MIX_STANDS : Fld := ⟨0x4200080, 8, 4, .rw, 6⟩
def SCH_PLACE_CFG_DEPTH : Fld := ⟨0x4200080, 4, 4, .rw, 2⟩
def SCH_PLACE_CFG_OVERFLOW : Fld := ⟨0x4200080, 0, 1, .rw, 1⟩
def SCH_BUCK_CFG_MAX_CHUNK : Fld := ⟨0x4200084, 16, 16, .rw, 0x2000⟩
def SCH_BUCK_CFG_MIX_CHUNK : Fld := ⟨0x4200084, 0, 16, .rw, 0x400⟩
def SCH_PLACE_OVERFLOW_TASKS : Fld := ⟨0x4200088, 0, 32, .ro, 0⟩
def SCH_PLACE_WAIT_TASKS : Fld := ⟨0x420008c, 0, 32, .ro, 0⟩
def SCH_MODELS_REGISTERED : Fld := ⟨0x4200090, 0, 11, .ro, 0⟩
def SCH_CLASS_MISS_TTFT_MISS : Fld := ⟨0x4200100, 16, 16, .ro, 0⟩
def SCH_CLASS_MISS_TPOT_MISS : Fld := ⟨0x4200100, 0, 16, .ro, 0⟩
def SCH_PAUSE_CTL_AUTO : Fld := ⟨0x4200180, 31, 1, .rw, 1⟩
def SCH_PAUSE_CTL_AUTO_RESUME : Fld := ⟨0x4200180, 30, 1, .rw, 1⟩
def SCH_PAUSE_CTL_PAUSE_MAX : Fld := ⟨0x4200180, 16, 8, .rw, 4⟩
def SCH_PAUSE_CTL_RESUME_HOLD : Fld := ⟨0x4200180, 8, 8, .rw, 8⟩
def SCH_PAUSE_CTL_PERIOD_100US : Fld := ⟨0x4200180, 0, 8, .rw, 0xa⟩
def SCH_PAUSE_DWELL_DWELL_MS : Fld := ⟨0x4200184, 0, 16, .rw, 0xc8⟩
def SCH_RISK_CFG_TTFT_PCT : Fld := ⟨0x4200188, 8, 8, .rw, 0x32⟩
def SCH_RISK_CFG_TPOT_PCT : Fld := ⟨0x4200188, 0, 8, .rw, 0x50⟩
def SCH_RISK_STATUS_HELD : Fld := ⟨0x420018c, 8, 8, .ro, 0⟩
def SCH_RISK_STATUS_AT_RISK : Fld := ⟨0x420018c, 0, 8, .ro, 0⟩
def SCH_PAUSED_PAUSED : Fld := ⟨0x4200190, 0, 22, .ro, 0⟩
def SCH_AUTO_PAUSE_COUNT_PAUSES : Fld := ⟨0x4200194, 0, 32, .ro, 0⟩
def SCH_ARB_CFG_AGE_US : Fld := ⟨0x4200200, 0, 8, .rw, 0x40⟩
def SCH_ARB_Q_ENG_Q : Fld := ⟨0x4200204, 24, 8, .rw, 0x10⟩
def SCH_ARB_Q_COL_Q : Fld := ⟨0x4200204, 16, 8, .rw, 0x10⟩
def SCH_ARB_Q_CHIP_Q : Fld := ⟨0x4200204, 8, 8, .rw, 0x10⟩
def SCH_ARB_Q_EGR_Q : Fld := ⟨0x4200204, 0, 8, .rw, 9⟩
def SCH_ARB_AGED_ITEMS : Fld := ⟨0x4200210, 0, 32, .ro, 0⟩
def TIR_PD_BASE_LO_BASE_LO : Fld := ⟨0x4500000, 12, 20, .rw, 0⟩
def TIR_PD_BASE_HI_BASE_HI : Fld := ⟨0x4500004, 0, 32, .rw, 0⟩
def TIR_PD_COUNT_COUNT : Fld := ⟨0x4500008, 0, 13, .rw, 0⟩
def TIR_MOVE_CFG_INFLIGHT : Fld := ⟨0x4500010, 24, 8, .rw, 4⟩
def TIR_MOVE_CFG_LEASE_MS : Fld := ⟨0x4500010, 12, 12, .rw, 0x64⟩
def TIR_MOVE_CFG_GRACE_US : Fld := ⟨0x4500010, 0, 12, .rw, 0xc8⟩
def TIR_MOVE_COUNT_ABORTED : Fld := ⟨0x4500014, 16, 16, .ro, 0⟩
def TIR_MOVE_COUNT_RECLAIMED : Fld := ⟨0x4500014, 0, 16, .ro, 0⟩
def TIR_MOVE_DONE_FLIPPED : Fld := ⟨0x4500018, 0, 32, .ro, 0⟩
def TIR_PREFETCH_MISC_REFETCH : Fld := ⟨0x4500020, 16, 16, .ro, 0⟩
def TIR_PREFETCH_MISC_HELD : Fld := ⟨0x4500020, 0, 16, .ro, 0⟩
def TIR_STALL_CFG_REPORT_MS : Fld := ⟨0x4500030, 0, 16, .rw, 0xa⟩
def TIR_LOCAL_LO_BASE_LO : Fld := ⟨0x4500040, 12, 20, .rw, 0⟩
def TIR_LOCAL_HI_BASE_HI : Fld := ⟨0x4500044, 0, 32, .rw, 0⟩
def TIR_LOCAL_SIZE_SIZE_2M : Fld := ⟨0x4500048, 0, 16, .rw, 0⟩
def TIR_LOCAL_STAGE_FREE_2M : Fld := ⟨0x450004c, 16, 16, .ro, 0⟩
def TIR_LOCAL_STAGE_STAGE_2M : Fld := ⟨0x450004c, 0, 16, .rw, 8⟩
def TIR_STALL_COUNT_US : Fld := ⟨0x4500100, 32, 32, .ro, 0⟩
def TIR_STALL_COUNT_EVENTS : Fld := ⟨0x4500100, 0, 32, .ro, 0⟩
def TIR_FELL_CFG_ENABLE : Fld := ⟨0x4500200, 31, 1, .rw, 0⟩
def TIR_FELL_CFG_MODE : Fld := ⟨0x4500200, 30, 1, .rw, 0⟩
def TIR_FELL_CFG_FALLBACK : Fld := ⟨0x4500200, 29, 1, .rw, 1⟩
def TIR_FELL_CFG_EXEMPT : Fld := ⟨0x4500200, 16, 8, .rw, 3⟩
def TIR_FELL_CFG_PER_PICK : Fld := ⟨0x4500200, 8, 8, .rw, 0x40⟩
def TIR_FELL_CFG_TARGET_MIB : Fld := ⟨0x4500200, 0, 8, .rw, 0x20⟩
def TIR_FELL_KICK_MIB : Fld := ⟨0x4500204, 0, 20, .wo, 0⟩
def TIR_FELL_STATUS_RUNNING : Fld := ⟨0x4500208, 31, 1, .ro, 0⟩
def TIR_FELL_STATUS_PASSES : Fld := ⟨0x4500208, 16, 15, .ro, 0⟩
def TIR_FELL_STATUS_PICKS : Fld := ⟨0x4500208, 0, 16, .ro, 0⟩
def CDC_TBL_BASE_LO_BASE_LO : Fld := ⟨0x4400000, 12, 20, .rw, 0⟩
def CDC_TBL_BASE_HI_BASE_HI : Fld := ⟨0x4400004, 0, 32, .rw, 0⟩
def CDC_TBL_CFG_BUF_64K : Fld := ⟨0x4400008, 0, 16, .rw, 0x20⟩
def CDC_ADP_BASE_LO_BASE_LO : Fld := ⟨0x4400010, 21, 11, .rw, 0⟩
def CDC_ADP_BASE_HI_BASE_HI : Fld := ⟨0x4400014, 0, 32, .rw, 0⟩
def CDC_ADP_SIZE_FREE_2M : Fld := ⟨0x4400018, 16, 16, .ro, 0⟩
def CDC_ADP_SIZE_SIZE_2M : Fld := ⟨0x4400018, 0, 16, .rw, 0⟩
def CDC_ADP_STATUS_MISS : Fld := ⟨0x440001c, 16, 16, .ro, 0⟩
def CDC_ADP_STATUS_SLOTS : Fld := ⟨0x440001c, 0, 13, .ro, 0⟩
def CDC_EXP_BLOCKS_BLOCKS : Fld := ⟨0x4400020, 0, 32, .ro, 0⟩
def CDC_EXP_BYTES_KIB : Fld := ⟨0x4400024, 0, 32, .ro, 0⟩
def CDC_EXP_ERR_TAG : Fld := ⟨0x4400028, 16, 16, .ro, 0⟩
def CDC_EXP_ERR_CRC_RETRY : Fld := ⟨0x4400028, 0, 16, .ro, 0⟩
def CDC_EXP_NAN_BLOCKS : Fld := ⟨0x440002c, 0, 32, .ro, 0⟩
def CDC_TBL_STATE_OTHER_VER : Fld := ⟨0x4400400, 48, 16, .ro, 0⟩
def CDC_TBL_STATE_CUR_VER : Fld := ⟨0x4400400, 32, 16, .ro, 0⟩
def CDC_TBL_STATE_KIND : Fld := ⟨0x4400400, 24, 8, .ro, 0⟩
def CDC_TBL_STATE_LOADING : Fld := ⟨0x4400400, 23, 1, .ro, 0⟩
def CDC_TBL_STATE_CUR_BUF : Fld := ⟨0x4400400, 22, 1, .ro, 0⟩
def CDC_TBL_STATE_OTHER_USERS : Fld := ⟨0x4400400, 0, 21, .ro, 0⟩
def STD_SEQ_STATUS_FENCED : Fld := ⟨0x8000000, 31, 1, .ro, 1⟩
def STD_SEQ_STATUS_LIVE : Fld := ⟨0x8000000, 24, 4, .ro, 0⟩
def STD_SEQ_STATUS_RUN : Fld := ⟨0x8000000, 22, 2, .ro, 0⟩
def STD_SEQ_STATUS_RUNNING : Fld := ⟨0x8000000, 21, 1, .ro, 0⟩
def STD_SEQ_STATUS_DEPTH : Fld := ⟨0x8000000, 18, 3, .ro, 2⟩
def STD_PROG_ID_IMAGE_ID : Fld := ⟨0x8000004, 16, 16, .ro, 0⟩
def STD_PROG_ID_VERSION : Fld := ⟨0x8000004, 0, 16, .ro, 0⟩
def STD_SEQ_FAULT_VALID : Fld := ⟨0x8000008, 31, 1, .w1c, 0⟩
def STD_SEQ_FAULT_DETAIL : Fld := ⟨0x8000008, 23, 8, .ro, 0⟩
def STD_SEQ_FAULT_FRAME : Fld := ⟨0x8000008, 21, 2, .ro, 0⟩
def STD_SEQ_FAULT_PC : Fld := ⟨0x8000008, 0, 14, .ro, 0⟩
def STD_SEQ_COUNT_FAULTS : Fld := ⟨0x800000c, 16, 16, .ro, 0⟩
def STD_SEQ_COUNT_SWITCHES : Fld := ⟨0x800000c, 0, 16, .ro, 0⟩
def STD_SEQ_RETRY_LASTING : Fld := ⟨0x8000010, 16, 16, .ro, 0⟩
def STD_SEQ_RETRY_RETRIED : Fld := ⟨0x8000010, 0, 16, .ro, 0⟩
def STD_FRAME_LIVE : Fld := ⟨0x8000020, 31, 1, .ro, 0⟩
def STD_FRAME_HELD : Fld := ⟨0x8000020, 30, 1, .ro, 0⟩
def STD_FRAME_WITHDRAWING : Fld := ⟨0x8000020, 29, 1, .ro, 0⟩
def STD_FRAME_PC : Fld := ⟨0x8000020, 0, 14, .ro, 0⟩
def STD_FRAME_TAG_JOB_TAG : Fld := ⟨0x8000030, 0, 32, .ro, 0⟩
def STD_CDC_STATUS_ERROR : Fld := ⟨0x8000280, 31, 1, .w1c, 0⟩
def STD_CDC_STATUS_BUSY : Fld := ⟨0x8000280, 30, 1, .ro, 0⟩
def STD_CDC_STATUS_DETAIL : Fld := ⟨0x8000280, 16, 8, .ro, 0⟩
def STD_CDC_STATUS_QDEPTH : Fld := ⟨0x8000280, 8, 8, .ro, 0⟩
def STD_IMAGE_BASE_LO_BASE_LO : Fld := ⟨0x8400000, 21, 11, .rw, 0⟩
def STD_IMAGE_BASE_HI_BASE_HI : Fld := ⟨0x8400004, 0, 32, .rw, 0⟩
def CWT_CFG_UDP_PORT : Fld := ⟨0x4600000, 16, 16, .rwl, 0x440c⟩
def CWT_CFG_SPORT_BASE : Fld := ⟨0x4600000, 5, 11, .rwl, 0x600⟩
def CWT_TIMER_MIN_RTO_US : Fld := ⟨0x4600004, 24, 8, .rw, 8⟩
def CWT_TIMER_ACK_DELAY_100NS : Fld := ⟨0x4600004, 16, 8, .rw, 0xa⟩
def CWT_TIMER_ACK_COALESCE : Fld := ⟨0x4600004, 8, 8, .rw, 0x10⟩
def CWT_TIMER_RNR_US : Fld := ⟨0x4600004, 0, 8, .rw, 0x14⟩
def CWT_TIMER2_GIVEUP_US : Fld := ⟨0x4600008, 16, 16, .rw, 0x1f40⟩
def CWT_TIMER2_PATH_HOLD_US : Fld := ⟨0x4600008, 0, 16, .rw, 0x3e8⟩
def CWT_FALLOW_FALLOW_US : Fld := ⟨0x460000c, 0, 16, .rwl, 0xfa0⟩
def CWT_CREDIT_CFG_NODE_UNITS : Fld := ⟨0x4600010, 16, 16, .rw, 0x100⟩
def CWT_CREDIT_CFG_QP_UNITS : Fld := ⟨0x4600010, 0, 16, .rw, 0x40⟩
def CWT_QP_HBM_BASE_BASE : Fld := ⟨0x4600018, 12, 52, .rw, 0⟩
def CWT_QP_HOST_BASE_BASE : Fld := ⟨0x4600020, 12, 52, .rw, 0⟩
def CWT_QP_HOST_COUNT_COUNT : Fld := ⟨0x4600028, 0, 23, .rw, 0⟩
def CWT_NODE_TBL_BASE_BASE : Fld := ⟨0x4600030, 12, 52, .rw, 0⟩
def CWT_LAND_OVF_BASE_BASE : Fld := ⟨0x4600038, 21, 43, .rw, 0⟩
def CWT_LAND_OVF_SIZE_SIZE_2M : Fld := ⟨0x4600040, 0, 16, .rw, 0⟩
def CWT_CHOKER_BASE_BASE : Fld := ⟨0x4600048, 12, 52, .rw, 0⟩
def CWT_CHOKER_COUNT_SLOTS : Fld := ⟨0x4600050, 0, 17, .rw, 0⟩
def CWT_QP_LIVE_LIVE : Fld := ⟨0x4600058, 0, 23, .ro, 0⟩
def CWT_QP_RESIDENT_RESIDENT : Fld := ⟨0x460005c, 0, 16, .ro, 0⟩
def CWT_DROP_MISSQ_PACKETS : Fld := ⟨0x4600060, 0, 32, .ro, 0⟩
def CWT_DROP_STALE_QP : Fld := ⟨0x4600064, 16, 16, .ro, 0⟩
def CWT_DROP_MAP_REJECT : Fld := ⟨0x4600064, 0, 16, .ro, 0⟩
def CWT_DROP_CHECK_CHECK : Fld := ⟨0x4600068, 16, 16, .ro, 0⟩
def CWT_DROP_CHECK_NON_CELWALD : Fld := ⟨0x4600068, 0, 16, .ro, 0⟩
def CWT_MISSQ_PEAK_64K : Fld := ⟨0x460006c, 16, 16, .ro, 0⟩
def CWT_MISSQ_NOW_64K : Fld := ⟨0x460006c, 0, 16, .ro, 0⟩
def CWT_RETX_TIMEOUT : Fld := ⟨0x4600070, 16, 16, .ro, 0⟩
def CWT_RETX_FAST : Fld := ⟨0x4600070, 0, 16, .ro, 0⟩
def CWT_ECN_CE_MARKS : Fld := ⟨0x4600074, 0, 32, .ro, 0⟩
def CWT_QP_EVENT_DRAINED : Fld := ⟨0x4600078, 4, 1, .w1c, 0⟩
def CWT_QP_EVENT_MISSQ_DROP : Fld := ⟨0x4600078, 3, 1, .w1c, 0⟩
def CWT_QP_EVENT_AUTH : Fld := ⟨0x4600078, 2, 1, .w1c, 0⟩
def CWT_QP_EVENT_GIVE_UP : Fld := ⟨0x4600078, 1, 1, .w1c, 0⟩
def CWT_QP_EVENT_ERROR : Fld := ⟨0x4600078, 0, 1, .w1c, 0⟩
def CWT_REGION_BASE_BASE : Fld := ⟨0x4600100, 12, 52, .rw, 0⟩
def CWT_REGION_COUNT_COUNT : Fld := ⟨0x4600108, 0, 21, .rw, 0⟩
def CWT_ARC_BASE_BASE : Fld := ⟨0x4600110, 12, 52, .rw, 0⟩
def CWT_ARC_CFG_RINGS : Fld := ⟨0x4600118, 16, 16, .ro, 0x1000⟩
def CWT_ARC_CFG_IN_USE : Fld := ⟨0x4600118, 0, 13, .ro, 0⟩
def CWT_ARC_LIFE_LIFETIME_MS : Fld := ⟨0x460011c, 0, 8, .rwl, 0xa⟩
def CWT_LEASE_BASE_BASE : Fld := ⟨0x4600120, 12, 52, .rw, 0⟩
def CWT_LEASE_CFG_TERM_MS : Fld := ⟨0x4600128, 16, 16, .rw, 0x64⟩
def CWT_LEASE_CFG_COUNT : Fld := ⟨0x4600128, 0, 16, .rw, 0⟩
def CWT_HOT_CFG_ENABLE : Fld := ⟨0x4600130, 31, 1, .rw, 1⟩
def CWT_HOT_CFG_THRESH : Fld := ⟨0x4600130, 8, 8, .rw, 8⟩
def CWT_HOT_CFG_COOL_US : Fld := ⟨0x4600130, 0, 8, .rw, 0x14⟩
def CWT_HOT_STATUS_FULL : Fld := ⟨0x4600134, 16, 16, .ro, 0⟩
def CWT_HOT_STATUS_LINES : Fld := ⟨0x4600134, 0, 13, .ro, 0⟩
def CWT_MCAST_BASE_BASE : Fld := ⟨0x4600138, 12, 52, .rw, 0⟩
def CWT_MEM_COUNT_ARC_HIT : Fld := ⟨0x4600140, 16, 16, .ro, 0⟩
def CWT_MEM_COUNT_INDETERMINATE : Fld := ⟨0x4600140, 0, 16, .ro, 0⟩
def CWT_MEM_COUNT2_STALE_KEY : Fld := ⟨0x4600144, 16, 16, .ro, 0⟩
def CWT_MEM_COUNT2_POISON : Fld := ⟨0x4600144, 0, 16, .ro, 0⟩
def CWT_MEM_EVENT_HOT_FAULT : Fld := ⟨0x4600148, 3, 1, .w1c, 0⟩
def CWT_MEM_EVENT_SNAGGED : Fld := ⟨0x4600148, 2, 1, .w1c, 0⟩
def CWT_MEM_EVENT_CONFLICT : Fld := ⟨0x4600148, 1, 1, .w1c, 0⟩
def CWT_MEM_EVENT_INDETERMINATE : Fld := ⟨0x4600148, 0, 1, .w1c, 0⟩
def CWT_SHP_BASE_BASE : Fld := ⟨0x4600200, 12, 52, .rw, 0⟩
def CWT_SHP_MAP_BASE_BASE : Fld := ⟨0x4600208, 12, 52, .rw, 0⟩
def CWT_SHP_CFG_ENABLE : Fld := ⟨0x4600210, 31, 1, .rw, 0⟩
def CWT_SHP_CFG_COUNT : Fld := ⟨0x4600210, 0, 17, .rw, 0⟩
def CWT_SHP_STATUS_COARSE : Fld := ⟨0x4600214, 16, 16, .ro, 0⟩
def CWT_SHP_STATUS_FINE : Fld := ⟨0x4600214, 0, 16, .ro, 0⟩
def CWT_OBS_CTL_SNAP : Fld := ⟨0x4600218, 0, 1, .wo, 0⟩
def CWT_OBS_SNAP_TIME_TIME : Fld := ⟨0x4600220, 0, 64, .ro, 0⟩
def CWT_OBS_SEL_KIND : Fld := ⟨0x4600400, 28, 4, .rw, 0⟩
def CWT_OBS_SEL_INDEX : Fld := ⟨0x4600400, 0, 16, .rw, 0⟩
def TIR_CP_GROUP_D_EN : Fld := ⟨0x4500300, 31, 1, .rw, 0⟩
def TIR_CP_GROUP_P_EN : Fld := ⟨0x4500300, 30, 1, .rw, 0⟩
def TIR_CP_GROUP_DEGRADED : Fld := ⟨0x4500300, 29, 1, .ro, 0⟩
def TIR_CP_GROUP_CXL_LOST : Fld := ⟨0x4500300, 28, 1, .w1c, 0⟩
def TIR_CP_GROUP_D_IDX : Fld := ⟨0x4500300, 24, 4, .rw, 0⟩
def TIR_CP_GROUP_LOCK_US : Fld := ⟨0x4500300, 16, 8, .rw, 0x64⟩
def TIR_CP_GROUP_DEGRADE_MS : Fld := ⟨0x4500300, 0, 16, .rw, 0x32⟩
def TIR_CP_MEMBER_NODE : Fld := ⟨0x4500310, 0, 16, .rw, 0⟩
def TIR_CP_PKEY_KEY : Fld := ⟨0x4500358, 0, 32, .rw, 0⟩
def TIR_CP_ALIAS_VALID : Fld := ⟨0x450035c, 31, 1, .rw, 0⟩
def TIR_CP_ALIAS_NODE : Fld := ⟨0x450035c, 0, 16, .rw, 0⟩
def TIR_CP_CFG_LOCK_RETRY : Fld := ⟨0x4500360, 8, 8, .rw, 8⟩
def TIR_CP_CFG_INFLIGHT : Fld := ⟨0x4500360, 0, 8, .rw, 0x40⟩
def TIR_CP_PAR_BASE_BASE : Fld := ⟨0x4500368, 21, 43, .rw, 0⟩
def TIR_CP_REB_STATUS_RUNNING : Fld := ⟨0x4500500, 31, 1, .ro, 0⟩
def TIR_CP_REB_STATUS_DONE : Fld := ⟨0x4500500, 30, 1, .ro, 0⟩
def TIR_CP_REB_STATUS_UNBUILT : Fld := ⟨0x4500500, 0, 30, .ro, 0⟩
def TIR_CP_COUNT_LOCK_LOST : Fld := ⟨0x4500508, 48, 16, .ro, 0⟩
def TIR_CP_COUNT_LOCK_HELD : Fld := ⟨0x4500508, 32, 16, .ro, 0⟩
def TIR_CP_COUNT_DEGRADED : Fld := ⟨0x4500508, 0, 32, .ro, 0⟩
def TIR_CP_ACC_BASE_BASE : Fld := ⟨0x4500510, 21, 43, .rw, 0⟩
def TIR_CP_ACC_CFG_HOT_THRESH : Fld := ⟨0x4500518, 16, 16, .rw, 0x400⟩
def TIR_CP_ACC_CFG_COLD_THRESH : Fld := ⟨0x4500518, 0, 16, .rw, 4⟩
def TIR_CP_LIST_GEN_GEN : Fld := ⟨0x450051c, 0, 32, .ro, 0⟩
def TIR_CP_BW_BUDGET_GBPS : Fld := ⟨0x4500520, 0, 16, .rw, 0x4400⟩
def TIR_CP_BW_CLASS_CAP_PCT : Fld := ⟨0x4500530, 8, 8, .rw, 0⟩
def TIR_CP_BW_CLASS_SHARE_PCT : Fld := ⟨0x4500530, 0, 8, .rw, 0⟩
def TIR_CP_BW_CAPPED_WINDOWS : Fld := ⟨0x4500540, 0, 32, .ro, 0⟩
def HIF_XW_CFG_ENABLE : Fld := ⟨0x1100000, 63, 1, .rw, 0⟩
def HIF_XW_CFG_PORT : Fld := ⟨0x1100000, 56, 4, .rw, 0xf⟩
def HIF_XW_CFG_SLOTS : Fld := ⟨0x1100000, 48, 8, .rw, 4⟩
def HIF_XW_CFG_SLOT_64K : Fld := ⟨0x1100000, 32, 16, .rw, 0x10⟩
def HIF_XW_CFG_MODEL : Fld := ⟨0x1100000, 0, 16, .rw, 0⟩
def HIF_XW_BASE_BASE : Fld := ⟨0x1100008, 16, 48, .rw, 0⟩
def HIF_XW_REL_REL_DEST : Fld := ⟨0x1100010, 5, 59, .rw, 0⟩
def HIF_XW_RELSZ_REL_SLOTS : Fld := ⟨0x1100018, 0, 16, .rw, 0x100⟩
def HIF_XW_STATUS_DSEQ : Fld := ⟨0x1100020, 32, 32, .ro, 0⟩
def HIF_XW_STATUS_BOUND : Fld := ⟨0x1100020, 7, 12, .ro, 0⟩
def HIF_XW_STATUS_INFLIGHT : Fld := ⟨0x1100020, 0, 7, .ro, 0⟩
def HIF_XW_COUNT_MISUSE : Fld := ⟨0x1100028, 48, 16, .ro, 0⟩
def HIF_XW_COUNT_DUP : Fld := ⟨0x1100028, 32, 16, .ro, 0⟩
def HIF_XW_COUNT_REL_WAIT : Fld := ⟨0x1100028, 16, 16, .ro, 0⟩
def HIF_XW_COUNT_FENCE_WAIT : Fld := ⟨0x1100028, 0, 16, .ro, 0⟩
def HIF_XW_APER_BASE : Fld := ⟨0x1101000, 34, 30, .rwl, 0⟩
def HIF_XW_EVENT_DOORBELL : Fld := ⟨0x1101040, 0, 64, .w1c, 0⟩
def MGT_MAP_EPOCH_JOINED : Fld := ⟨0x100, 31, 1, .ro, 0⟩
def MGT_MAP_EPOCH_ROLE_LIVE : Fld := ⟨0x100, 30, 1, .ro, 0⟩
def MGT_MAP_EPOCH_EPOCH : Fld := ⟨0x100, 0, 16, .ro, 0⟩
def MGT_MAP_SUCC_SUCC : Fld := ⟨0x104, 0, 16, .ro, 0⟩
def MGT_MAP_COUNT_AHEAD : Fld := ⟨0x108, 48, 16, .ro, 0⟩
def MGT_MAP_COUNT_WRONG_NODE : Fld := ⟨0x108, 32, 16, .ro, 0⟩
def MGT_MAP_COUNT_REDIRECTS : Fld := ⟨0x108, 0, 32, .ro, 0⟩
def MGT_ROLE_DRAIN_QUIESCED : Fld := ⟨0x140, 31, 1, .ro, 0⟩
def MGT_ROLE_DRAIN_QUIESCE : Fld := ⟨0x140, 30, 1, .ro, 0⟩
def MGT_ROLE_DRAIN_COND : Fld := ⟨0x140, 0, 8, .ro, 0xff⟩
def MGT_ROLL_STATUS_RUNNING : Fld := ⟨0x144, 31, 1, .ro, 0⟩
def MGT_ROLL_STATUS_COLUMN : Fld := ⟨0x144, 28, 3, .ro, 0⟩
def MGT_ROLL_STATUS_ROLLED : Fld := ⟨0x144, 0, 16, .ro, 0⟩
def MGT_FW_STATUS_ACTIVE_BANK : Fld := ⟨0x180, 31, 1, .ro, 0⟩
def MGT_FW_STATUS_TRIAL : Fld := ⟨0x180, 30, 1, .ro, 0⟩
def MGT_FW_STATUS_FALLBACK : Fld := ⟨0x180, 29, 1, .w1c, 0⟩
def MGT_FW_STATUS_STAGED : Fld := ⟨0x180, 28, 1, .ro, 0⟩
def MGT_FW_VER_BANK1 : Fld := ⟨0x184, 16, 16, .ro, 0⟩
def MGT_FW_VER_BANK0 : Fld := ⟨0x184, 0, 16, .ro, 0⟩
def MGT_FLT_BASE_BASE : Fld := ⟨0x200, 12, 52, .rw, 0⟩
def MGT_FLT_SIZE_ENTRIES : Fld := ⟨0x208, 0, 16, .rw, 0⟩
def MGT_FLT_HEAD_HEAD : Fld := ⟨0x20c, 0, 32, .rw, 0⟩
def MGT_FLT_STATUS_TAIL : Fld := ⟨0x210, 32, 32, .ro, 0⟩
def MGT_FLT_STATUS_LOST : Fld := ⟨0x210, 16, 16, .ro, 0⟩
def MGT_FLT_STATUS_HELD : Fld := ⟨0x210, 0, 7, .ro, 0⟩
def MGT_FLT_LIMIT_TRANSIENT_LIMIT : Fld := ⟨0x218, 16, 16, .rw, 0x10⟩
def MGT_FLT_LIMIT_STACK_LIMIT : Fld := ⟨0x218, 0, 16, .rw, 4⟩
def MGT_FLT_SWREPORT_TAG : Fld := ⟨0x220, 32, 32, .wo, 0⟩
def MGT_FLT_SWREPORT_STATUS : Fld := ⟨0x220, 24, 8, .wo, 0⟩
def MGT_FLT_SWREPORT_DETAIL : Fld := ⟨0x220, 16, 8, .wo, 0⟩
def MGT_STAND_FENCE_FENCED : Fld := ⟨0x228, 0, 64, .ro, 0xffffffffffffffff⟩
def MGT_STAND_LASTING_LASTING : Fld := ⟨0x230, 0, 64, .ro, 0⟩
def MGT_STACK_STATE_LASTING : Fld := ⟨0x238, 8, 8, .ro, 0⟩
def MGT_STACK_STATE_QUIESCED : Fld := ⟨0x238, 0, 8, .ro, 0⟩
def MGT_LANE_STATE_DOWN : Fld := ⟨0x240, 31, 1, .ro, 0⟩
def MGT_LANE_STATE_SPARE_USED : Fld := ⟨0x240, 30, 1, .ro, 0⟩
def MGT_LANE_STATE_RETIRED : Fld := ⟨0x240, 4, 4, .ro, 0xf⟩
def MGT_LANE_STATE_CAL : Fld := ⟨0x240, 0, 4, .ro, 0xf⟩
def MGT_TRANSIENT_COUNT : Fld := ⟨0x260, 0, 32, .ro, 0⟩
def MGT_SELFTEST_COL_RUNNING : Fld := ⟨0x280, 31, 1, .ro, 0⟩
def MGT_SELFTEST_COL : Fld := ⟨0x280, 28, 3, .ro, 0⟩
def MGT_SELFTEST_LANE_RUNNING : Fld := ⟨0x280, 27, 1, .ro, 0⟩
def MGT_SELFTEST_PORT : Fld := ⟨0x280, 24, 3, .ro, 0⟩
def MGT_SELFTEST_LANE : Fld := ⟨0x280, 20, 4, .ro, 0⟩
def MGT_SELFTEST_COMPLETED : Fld := ⟨0x280, 0, 16, .ro, 0⟩
def KEY_STATUS_STATE : Fld := ⟨0x4700000, 30, 2, .ro, 0⟩
def KEY_STATUS_APPROVED : Fld := ⟨0x4700000, 29, 1, .ro, 0⟩
def KEY_STATUS_LAST_APPROVED : Fld := ⟨0x4700000, 28, 1, .ro, 0⟩
def KEY_STATUS_PREFIX_LOADED : Fld := ⟨0x4700000, 27, 1, .ro, 0⟩
def KEY_POLICY_REQUIRE_IDE : Fld := ⟨0x4700004, 1, 1, .rwl, 0⟩
def KEY_POLICY_APPROVED : Fld := ⟨0x4700004, 0, 1, .rwl, 0⟩
def KEY_TBL_BASE_BASE : Fld := ⟨0x4700008, 12, 52, .rwl, 0⟩
def KEY_TBL_COUNT_COUNT : Fld := ⟨0x4700010, 0, 25, .rwl, 0⟩
def KEY_EPOCH_WRAP_EPOCH : Fld := ⟨0x4700014, 0, 32, .ro, 0⟩
def KEY_CACHE_MISSES : Fld := ⟨0x4700018, 32, 32, .ro, 0⟩
def KEY_CACHE_PINNED_WAIT : Fld := ⟨0x4700018, 16, 16, .ro, 0⟩
def KEY_CACHE_RESIDENT : Fld := ⟨0x4700018, 0, 16, .ro, 0⟩
def KEY_HEALTH_DROPPED : Fld := ⟨0x4700020, 16, 16, .ro, 0⟩
def KEY_HEALTH_APT_FAIL : Fld := ⟨0x4700020, 8, 8, .ro, 0⟩
def KEY_HEALTH_RCT_FAIL : Fld := ⟨0x4700020, 0, 8, .ro, 0⟩
def KEY_EVENT_TAMPER : Fld := ⟨0x4700024, 3, 1, .w1c, 0⟩
def KEY_EVENT_TAG : Fld := ⟨0x4700024, 2, 1, .w1c, 0⟩
def KEY_EVENT_IDE : Fld := ⟨0x4700024, 1, 1, .w1c, 0⟩
def KEY_EVENT_SELFTEST : Fld := ⟨0x4700024, 0, 1, .w1c, 0⟩
def SCB_CFG_INTERVAL_MS : Fld := ⟨0x4800000, 16, 16, .rw, 0x3e8⟩
def SCB_CFG_FLUSH_SEV : Fld := ⟨0x4800000, 8, 3, .rw, 5⟩
def SCB_CFG_FLUSH_FLOOR : Fld := ⟨0x4800000, 4, 3, .rw, 3⟩
def SCB_CTL_CIRC_CLEAR : Fld := ⟨0x4800004, 1, 1, .wo, 0⟩
def SCB_CTL_FLUSH : Fld := ⟨0x4800004, 0, 1, .wo, 0⟩
def SCB_STATUS_LAST_SEQ : Fld := ⟨0x4800008, 32, 32, .ro, 0⟩
def SCB_STATUS_FLUSHING : Fld := ⟨0x4800008, 31, 1, .ro, 0⟩
def SCB_STATUS_LAST_PFAIL : Fld := ⟨0x4800008, 30, 1, .ro, 0⟩
def SCB_STATUS_DISCARDED : Fld := ⟨0x4800008, 16, 14, .ro, 0⟩
def SCB_STATUS_UNFLUSHED : Fld := ⟨0x4800008, 0, 13, .ro, 0⟩
def SCB_MRAM_STATUS_BOOT : Fld := ⟨0x4800010, 32, 32, .ro, 0⟩
def SCB_MRAM_STATUS_CIRC_NEXT : Fld := ⟨0x4800010, 15, 17, .ro, 0⟩
def SCB_MRAM_STATUS_KEPT : Fld := ⟨0x4800010, 0, 13, .ro, 0⟩
def SCB_CIRC_WRAPS_WRAPS : Fld := ⟨0x4800018, 0, 32, .ro, 0⟩
def SCB_BORER_CFG_PERIOD_S : Fld := ⟨0x4800020, 16, 16, .rw, 0x3c⟩
def SCB_BORER_CFG_WARN_DAYS : Fld := ⟨0x4800020, 8, 8, .rw, 0x5a⟩
def SCB_BORER_CFG_LASER_PCT : Fld := ⟨0x4800020, 0, 8, .rw, 0x96⟩
def SCB_EOL_CFG_CE_PER_DAY : Fld := ⟨0x4800024, 16, 16, .rw, 0x64⟩
def SCB_EOL_CFG_RO_LIMIT : Fld := ⟨0x4800024, 0, 16, .rw, 0x1388⟩
def SCB_EVENT_EOL_WARN : Fld := ⟨0x4800028, 2, 1, .w1c, 0⟩
def SCB_EVENT_FLUSH_DONE : Fld := ⟨0x4800028, 1, 1, .w1c, 0⟩
def SCB_EVENT_DISCARD : Fld := ⟨0x4800028, 0, 1, .w1c, 0⟩
def SCB_BORER_DEGR : Fld := ⟨0x4801000, 16, 16, .ro, 0⟩
def SCB_EOL_DAYS : Fld := ⟨0x4802000, 16, 16, .ro, 0⟩
def SCB_EOL_POINTS : Fld := ⟨0x4802000, 8, 8, .ro, 0⟩
def SCB_EOL_WEAR_PCT : Fld := ⟨0x4802000, 0, 8, .ro, 0⟩
def HIF_ADMQ_BASE_BASE : Fld := ⟨0x1000000, 12, 52, .rw, 0⟩
def HIF_ADMCQ_BASE_BASE : Fld := ⟨0x1000008, 12, 52, .rw, 0⟩
def HIF_ADMQ_CFG_ENABLE : Fld := ⟨0x1000010, 31, 1, .rw, 0⟩
def HIF_ADMQ_CFG_SQ_LOG2 : Fld := ⟨0x1000010, 24, 4, .rw, 4⟩
def HIF_ADMQ_CFG_CQ_LOG2 : Fld := ⟨0x1000010, 20, 4, .rw, 4⟩
def HIF_ADMQ_CFG_VECTOR : Fld := ⟨0x1000010, 0, 5, .rw, 0⟩
def HIF_FN_STATUS_READY : Fld := ⟨0x1000018, 31, 1, .ro, 0⟩
def HIF_FN_STATUS_CLEANING : Fld := ⟨0x1000018, 30, 1, .ro, 0⟩
def HIF_FN_STATUS_QUEUES : Fld := ⟨0x1000018, 0, 17, .ro, 0⟩
def HIF_FN_ERR_DB_ERR : Fld := ⟨0x1000020, 48, 16, .ro, 0⟩
def HIF_FN_ERR_UNMAPPED : Fld := ⟨0x1000020, 32, 16, .ro, 0⟩
def HIF_FN_ERR_CQ_FULL : Fld := ⟨0x1000020, 16, 16, .ro, 0⟩
def HIF_FN_ERR_DESC_FAIL : Fld := ⟨0x1000020, 0, 16, .ro, 0⟩
def HIF_FN_LIMIT_QUEUES : Fld := ⟨0x1000200, 0, 15, .rw, 0x400⟩
def HIF_FN_TENANT_VALID : Fld := ⟨0x1000400, 63, 1, .rw, 0⟩
def HIF_FN_TENANT_LAST : Fld := ⟨0x1000400, 32, 20, .rw, 0⟩
def HIF_FN_TENANT_FIRST : Fld := ⟨0x1000400, 0, 20, .rw, 0⟩
def HIF_EVT_CFG_EN_MGT : Fld := ⟨0x1000600, 31, 1, .rw, 0⟩
def HIF_EVT_CFG_VEC_MGT : Fld := ⟨0x1000600, 24, 5, .rw, 0⟩
def HIF_EVT_CFG_EN_HIF : Fld := ⟨0x1000600, 23, 1, .rw, 0⟩
def HIF_EVT_CFG_VEC_HIF : Fld := ⟨0x1000600, 16, 5, .rw, 0⟩
def HIF_EVT_CFG_EN_CWT : Fld := ⟨0x1000600, 15, 1, .rw, 0⟩
def HIF_EVT_CFG_VEC_CWT : Fld := ⟨0x1000600, 8, 5, .rw, 0⟩
def HIF_EVT_CFG_EN_SCH : Fld := ⟨0x1000600, 7, 1, .rw, 0⟩
def HIF_EVT_CFG_VEC_SCH : Fld := ⟨0x1000600, 0, 5, .rw, 0⟩
def HIF_EVT_STATUS_PENDING : Fld := ⟨0x1000604, 0, 4, .ro, 0⟩
def CWT_PORT_CFG_ENABLE : Fld := ⟨0x4608000, 31, 1, .rw, 0⟩
def CWT_PORT_CFG_LASER_EN : Fld := ⟨0x4608000, 30, 1, .rw, 0⟩
def CWT_PORT_CFG_MACSEC : Fld := ⟨0x4608000, 29, 1, .rw, 0⟩
def CWT_PORT_CFG_BREAKOUT : Fld := ⟨0x4608000, 24, 2, .rw, 0⟩
def CWT_PORT_CFG_SUB_EN : Fld := ⟨0x4608000, 16, 8, .rw, 1⟩
def CWT_PORT_CFG_CAL_DWELL_10MS : Fld := ⟨0x4608000, 8, 8, .rw, 0x14⟩
def CWT_PORT_CFG_UP_HOLD_MS : Fld := ⟨0x4608000, 0, 8, .rw, 0x64⟩
def CWT_PORT_STATUS_LASER_PRES : Fld := ⟨0x4608004, 31, 1, .ro, 0⟩
def CWT_PORT_STATUS_LASER_OK : Fld := ⟨0x4608004, 30, 1, .ro, 0⟩
def CWT_PORT_STATUS_CW_LOSS : Fld := ⟨0x4608004, 29, 1, .w1c, 0⟩
def CWT_PORT_STATUS_UP : Fld := ⟨0x4608004, 16, 8, .ro, 0⟩
def CWT_PORT_STATUS_RFAULT : Fld := ⟨0x4608004, 8, 8, .ro, 0⟩
def CWT_PORT_STATUS_LFAULT : Fld := ⟨0x4608004, 0, 8, .ro, 0⟩
def CWT_PORT_FEC_CORRECTED : Fld := ⟨0x4608008, 32, 32, .ro, 0⟩
def CWT_PORT_FEC_UNCORR : Fld := ⟨0x4608008, 0, 32, .ro, 0⟩
def CWT_PORT_LANE_MAPPED : Fld := ⟨0x4608010, 28, 4, .ro, 0⟩
def CWT_PORT_LANE_SER_PPB : Fld := ⟨0x4608010, 0, 28, .ro, 0⟩
def CWT_PORT_SERLIM_PPB : Fld := ⟨0x4608034, 0, 28, .rw, 0x2710⟩
def CWT_PORT_LASER_BIAS : Fld := ⟨0x4608040, 16, 16, .ro, 0⟩
def CWT_PORT_LASER_TEMP : Fld := ⟨0x4608040, 8, 8, .ro, 0⟩
def CWT_PORT_DROP_FCS_ERR : Fld := ⟨0x4608048, 48, 16, .ro, 0⟩
def CWT_PORT_DROP_OVERSIZE : Fld := ⟨0x4608048, 32, 16, .ro, 0⟩
def CWT_PORT_DROP_MACSEC_DROP : Fld := ⟨0x4608048, 16, 16, .ro, 0⟩
def CWT_PORT_MACSEC_TX_AN : Fld := ⟨0x4608050, 31, 1, .rw, 0⟩
def CWT_PORT_MACSEC_VALID1 : Fld := ⟨0x4608050, 30, 1, .ro, 0⟩
def CWT_PORT_MACSEC_VALID0 : Fld := ⟨0x4608050, 29, 1, .ro, 0⟩
def CWT_PORT_MAC_MAC : Fld := ⟨0x4608058, 0, 48, .ro, 0⟩
def HIF_FLEX_CFG_MODE : Fld := ⟨0x1000800, 30, 2, .rwl, 0⟩
def HIF_FLEX_CFG_SET : Fld := ⟨0x1000800, 4, 4, .rwl, 0⟩
def HIF_FLEX_STATUS_LINK_UP : Fld := ⟨0x1000804, 31, 1, .ro, 0⟩
def HIF_FLEX_STATUS_RATE : Fld := ⟨0x1000804, 24, 4, .ro, 0⟩
def HIF_FLEX_STATUS_WIDTH : Fld := ⟨0x1000804, 16, 8, .ro, 0⟩
def HIF_FLEX_STATUS_HDM_1G : Fld := ⟨0x1000804, 0, 16, .ro, 0⟩
def HIF_FLEX_WIN_BASE : Fld := ⟨0x1000808, 30, 34, .rwl, 0⟩
def HIF_FLEX_WIN_SIZE_1G : Fld := ⟨0x1000808, 0, 16, .rwl, 0⟩
def HIF_FLEX_IND_CTL_BUSY : Fld := ⟨0x1000810, 63, 1, .ro, 0⟩
def HIF_FLEX_IND_CTL_RESULT : Fld := ⟨0x1000810, 61, 2, .ro, 0⟩
def HIF_FLEX_IND_CTL_CFG : Fld := ⟨0x1000810, 60, 1, .rw, 0⟩
def HIF_FLEX_IND_CTL_WRITE : Fld := ⟨0x1000810, 59, 1, .rw, 0⟩
def HIF_FLEX_IND_CTL_ADDR : Fld := ⟨0x1000810, 3, 48, .rw, 0⟩
def HIF_FLEX_IND_DATA_DATA : Fld := ⟨0x1000818, 0, 64, .rw, 0⟩
def CLK_STATUS_PLL_LOCK : Fld := ⟨0x4a00000, 31, 1, .ro, 0⟩
def CLK_STATUS_REF_OK : Fld := ⟨0x4a00000, 30, 1, .ro, 0⟩
def CLK_STATUS_SCLK_ON : Fld := ⟨0x4a00000, 0, 8, .ro, 0⟩
def CLK_TIME_TIME : Fld := ⟨0x4a00008, 0, 64, .ro, 0⟩
def MGT_BOOT_STATUS_READY : Fld := ⟨0x300, 63, 1, .ro, 0⟩
def MGT_BOOT_STATUS_HOST_READY : Fld := ⟨0x300, 62, 1, .ro, 0⟩
def MGT_BOOT_STATUS_LOCKED : Fld := ⟨0x300, 61, 1, .ro, 0⟩
def MGT_BOOT_STATUS_KEY_OK : Fld := ⟨0x300, 60, 1, .ro, 0⟩
def MGT_BOOT_STATUS_RECOVERY : Fld := ⟨0x300, 59, 1, .ro, 0⟩
def MGT_BOOT_STATUS_CAUSE : Fld := ⟨0x300, 40, 8, .ro, 0⟩
def MGT_BOOT_STATUS_FLEX_UP : Fld := ⟨0x300, 24, 8, .ro, 0⟩
def MGT_BOOT_STATUS_ETH_CAL_OK : Fld := ⟨0x300, 16, 8, .ro, 0⟩
def MGT_BOOT_STATUS_HBM_OK : Fld := ⟨0x300, 8, 8, .ro, 0⟩
def MGT_BOOT_STATUS_COL_OK : Fld := ⟨0x300, 0, 8, .ro, 0⟩
def PWR_STATE_BUSY : Fld := ⟨0x4b00000, 31, 1, .ro, 0⟩
def PWR_STATE_TARGET : Fld := ⟨0x4b00000, 28, 3, .ro, 0⟩
def PWR_STATE_GATED : Fld := ⟨0x4b00000, 16, 8, .ro, 0⟩
def PWR_STATE_STATE : Fld := ⟨0x4b00000, 0, 3, .ro, 0⟩
def PWR_ARRAY_BUDGET_DEPTH_US : Fld := ⟨0x4b00008, 16, 16, .rw, 0x64⟩
def PWR_ARRAY_BUDGET_WATTS : Fld := ⟨0x4b00008, 0, 16, .rw, 0x118⟩
def PWR_ARRAY_COEF_C16 : Fld := ⟨0x4b0000c, 24, 8, .ro, 0⟩
def PWR_ARRAY_COEF_C8 : Fld := ⟨0x4b0000c, 16, 8, .ro, 0⟩
def PWR_ARRAY_COEF_C4 : Fld := ⟨0x4b0000c, 8, 8, .ro, 0⟩
def PWR_ARRAY_COEF_CDC : Fld := ⟨0x4b0000c, 0, 8, .ro, 0⟩
def PWR_ARRAY_STATUS_TOKENS : Fld := ⟨0x4b00010, 32, 32, .ro, 0x6d60⟩
def PWR_ARRAY_STATUS_LEVEL : Fld := ⟨0x4b00010, 30, 2, .ro, 0⟩
def PWR_ARRAY_STATUS_AVG_W : Fld := ⟨0x4b00010, 0, 16, .ro, 0⟩
def PWR_THERM_TRIP : Fld := ⟨0x4b00018, 31, 1, .ro, 0⟩
def PWR_THERM_WARN : Fld := ⟨0x4b00018, 30, 1, .w1c, 0⟩
def PWR_THERM_STEP : Fld := ⟨0x4b00018, 28, 2, .ro, 0⟩
def PWR_THERM_HOT_SENSOR : Fld := ⟨0x4b00018, 24, 4, .ro, 0⟩
def PWR_THERM_TJ : Fld := ⟨0x4b00018, 0, 16, .ro, 0⟩
def PWR_DIE_POWER_WATTS : Fld := ⟨0x4b0001c, 0, 16, .ro, 0⟩
def PWR_RESET_KEY : Fld := ⟨0x4b00020, 0, 8, .wo, 0⟩
def PWR_SENSOR_TEMP : Fld := ⟨0x4b00100, 0, 16, .ro, 0⟩
def TIR_CP_AREA_BASE : Fld := ⟨0x4500400, 21, 43, .rw, 0⟩
def TIR_CP_AREA_SIZE_2M : Fld := ⟨0x4500408, 0, 22, .rw, 0⟩

end Reg

/-- Rows 0 to 23 of the register map, in the order of the spec's chapters. -/
def regTable0 : List RegRow := [
  ⟨"MGT_DEV_ID", 0x0, 32, [], [Reg.MGT_DEV_ID_PART, Reg.MGT_DEV_ID_FAMILY, Reg.MGT_DEV_ID_STEP_LETTER, Reg.MGT_DEV_ID_STEP_NUM]⟩,
  ⟨"MGT_FAMILY_PARAM", 0x4, 32, [], [Reg.MGT_FAMILY_PARAM_STANDS, Reg.MGT_FAMILY_PARAM_STACKS, Reg.MGT_FAMILY_PARAM_ETH_PORTS, Reg.MGT_FAMILY_PARAM_FLEX_PORTS, Reg.MGT_FAMILY_PARAM_STACK_GIB]⟩,
  ⟨"MGT_FAMILY_CAP", 0x8, 32, [], [Reg.MGT_FAMILY_CAP_CTX_LOG2, Reg.MGT_FAMILY_CAP_QP_DIE_LOG2, Reg.MGT_FAMILY_CAP_CTXC_LOG2]⟩,
  ⟨"MGT_ROLE", 0x10, 32, [], [Reg.MGT_ROLE_NODE_ID, Reg.MGT_ROLE_CHANGING, Reg.MGT_ROLE_ROLE_NEXT, Reg.MGT_ROLE_ROLE]⟩,
  ⟨"SCH_CTX_CFG", 0x4200300, 32, [], [Reg.SCH_CTX_CFG_HANDOFF_RETRY, Reg.SCH_CTX_CFG_HANDOFF_TMO_US]⟩,
  ⟨"SCH_CTX_FALLOW", 0x4200304, 32, [], [Reg.SCH_CTX_FALLOW_FALLOW_US]⟩,
  ⟨"SCH_SPILL_BASE_LO", 0x4200308, 32, [], [Reg.SCH_SPILL_BASE_LO_BASE_LO]⟩,
  ⟨"SCH_SPILL_BASE_HI", 0x420030c, 32, [], [Reg.SCH_SPILL_BASE_HI_BASE_HI]⟩,
  ⟨"SCH_SPILL_SLOTS", 0x4200310, 32, [], [Reg.SCH_SPILL_SLOTS_SLOTS]⟩,
  ⟨"SCH_CTX_LIVE", 0x4200314, 32, [], [Reg.SCH_CTX_LIVE_LIVE]⟩,
  ⟨"SCH_CTX_FALLOWING", 0x4200318, 32, [], [Reg.SCH_CTX_FALLOWING_FALLOWING]⟩,
  ⟨"SCH_CTXC_MISS", 0x420031c, 32, [], [Reg.SCH_CTXC_MISS_MISSES]⟩,
  ⟨"SCH_CTX_STALL", 0x4200320, 32, [], [Reg.SCH_CTX_STALL_SET_PINNED, Reg.SCH_CTX_STALL_NO_INDEX]⟩,
  ⟨"SCH_CTX_EVENT", 0x4200324, 32, [], [Reg.SCH_CTX_EVENT_SPILL_TAG, Reg.SCH_CTX_EVENT_CTX_CRC, Reg.SCH_CTX_EVENT_SUPERSEDED, Reg.SCH_CTX_EVENT_UNRESOLVED, Reg.SCH_CTX_EVENT_ORPHAN]⟩,
  ⟨"SCH_COPPICE_NODE", 0x4200330, 32, [], [Reg.SCH_COPPICE_NODE_NODE]⟩,
  ⟨"SCH_FELL_COUNT", 0x4200334, 32, [], [Reg.SCH_FELL_COUNT_FELLED]⟩,
  ⟨"SCH_COPPICE_COUNT", 0x4200338, 32, [], [Reg.SCH_COPPICE_COUNT_COPPICED]⟩,
  ⟨"CDC_KVQ_SAT", 0x4400100, 32, [], [Reg.CDC_KVQ_SAT_BLOCKS]⟩,
  ⟨"CDC_KVQ_NAN", 0x4400104, 32, [], [Reg.CDC_KVQ_NAN_BLOCKS]⟩,
  ⟨"STD_ATT_STATUS", 0x8000200, 32, [(0x10000, 64)], [Reg.STD_ATT_STATUS_ERROR, Reg.STD_ATT_STATUS_BUSY, Reg.STD_ATT_STATUS_DETAIL, Reg.STD_ATT_STATUS_QDEPTH]⟩,
  ⟨"STD_ATT_FAULT_TAG", 0x8000204, 32, [(0x10000, 64)], [Reg.STD_ATT_FAULT_TAG_JOB_TAG]⟩,
  ⟨"STD_ATT_ROWS", 0x8000208, 32, [(0x10000, 64)], [Reg.STD_ATT_ROWS_ROWS]⟩,
  ⟨"STD_ATT_EMPTY", 0x800020c, 32, [(0x10000, 64)], [Reg.STD_ATT_EMPTY_ROWS]⟩,
  ⟨"STD_ATT_NAN", 0x8000210, 32, [(0x10000, 64)], [Reg.STD_ATT_NAN_ROWS]⟩]

/-- Rows 24 to 47 of the register map, in the order of the spec's chapters. -/
def regTable1 : List RegRow := [
  ⟨"STD_ATT_CYCLES", 0x8000214, 32, [(0x10000, 64)], [Reg.STD_ATT_CYCLES_KCYCLES]⟩,
  ⟨"STD_ATT_SKIPPED", 0x8000218, 32, [(0x10000, 64)], [Reg.STD_ATT_SKIPPED_TILES]⟩,
  ⟨"STD_ATT_RETRY", 0x800021c, 32, [(0x10000, 64)], [Reg.STD_ATT_RETRY_LASTING, Reg.STD_ATT_RETRY_RETRIED]⟩,
  ⟨"STD_ATT_HELD", 0x8000220, 32, [(0x10000, 64)], [Reg.STD_ATT_HELD_KCYCLES]⟩,
  ⟨"SCH_MERGE_BASE_LO", 0x4200400, 32, [], [Reg.SCH_MERGE_BASE_LO_BASE_LO]⟩,
  ⟨"SCH_MERGE_BASE_HI", 0x4200404, 32, [], [Reg.SCH_MERGE_BASE_HI_BASE_HI]⟩,
  ⟨"SCH_MERGE_CFG", 0x4200408, 32, [], [Reg.SCH_MERGE_CFG_STRIDE_4K, Reg.SCH_MERGE_CFG_SLOTS]⟩,
  ⟨"SCH_MERGE_DET", 0x420040c, 32, [], [Reg.SCH_MERGE_DET_STRIDE_4K, Reg.SCH_MERGE_DET_SLOTS]⟩,
  ⟨"SCH_SPLIT_CFG", 0x4200410, 32, [], [Reg.SCH_SPLIT_CFG_STRAGGLER_US, Reg.SCH_SPLIT_CFG_PREFETCH_LAYERS]⟩,
  ⟨"SCH_SPLIT_HOLD", 0x4200414, 32, [], [Reg.SCH_SPLIT_HOLD_HOLD_US]⟩,
  ⟨"SCH_SPLIT_BACKUP", 0x4200418, 32, [], [Reg.SCH_SPLIT_BACKUP_BUDGET_BP, Reg.SCH_SPLIT_BACKUP_BURST, Reg.SCH_SPLIT_BACKUP_CREDIT]⟩,
  ⟨"SCH_SPLIT_SHARDS", 0x420041c, 32, [], [Reg.SCH_SPLIT_SHARDS_SENT]⟩,
  ⟨"SCH_SPLIT_FALLBACK", 0x4200420, 32, [], [Reg.SCH_SPLIT_FALLBACK_FETCHED]⟩,
  ⟨"SCH_SPLIT_BACKUP_ISSUED", 0x4200424, 32, [], [Reg.SCH_SPLIT_BACKUP_ISSUED_ISSUED]⟩,
  ⟨"SCH_SPLIT_BACKUP_WON", 0x4200428, 32, [], [Reg.SCH_SPLIT_BACKUP_WON_WON]⟩,
  ⟨"SCH_SPLIT_BACKUP_DENIED", 0x420042c, 32, [], [Reg.SCH_SPLIT_BACKUP_DENIED_DENIED]⟩,
  ⟨"SCH_SPLIT_DISCARD", 0x4200430, 32, [], [Reg.SCH_SPLIT_DISCARD_STALE, Reg.SCH_SPLIT_DISCARD_LATE]⟩,
  ⟨"SCH_SPLIT_STALL", 0x4200434, 32, [], [Reg.SCH_SPLIT_STALL_NO_SLOT, Reg.SCH_SPLIT_STALL_SHARD_LOST]⟩,
  ⟨"TRL_BLAZE_CFG", 0x4300000, 32, [], [Reg.TRL_BLAZE_CFG_UPD_SHARE, Reg.TRL_BLAZE_CFG_ENABLE]⟩,
  ⟨"TRL_BLAZE_REC_LO", 0x4300004, 32, [], [Reg.TRL_BLAZE_REC_LO_BASE_LO]⟩,
  ⟨"TRL_BLAZE_REC_HI", 0x4300008, 32, [], [Reg.TRL_BLAZE_REC_HI_BASE_HI]⟩,
  ⟨"TRL_BLAZE_RECS", 0x430000c, 32, [], [Reg.TRL_BLAZE_RECS_RECS]⟩,
  ⟨"TRL_TREE_BASE_LO", 0x4300010, 32, [], [Reg.TRL_TREE_BASE_LO_BASE_LO]⟩,
  ⟨"TRL_TREE_BASE_HI", 0x4300014, 32, [], [Reg.TRL_TREE_BASE_HI_BASE_HI]⟩]

/-- Rows 48 to 71 of the register map, in the order of the spec's chapters. -/
def regTable2 : List RegRow := [
  ⟨"TRL_TREE_CFG", 0x4300018, 32, [], [Reg.TRL_TREE_CFG_TENANT_CAP, Reg.TRL_TREE_CFG_ENABLE]⟩,
  ⟨"TRL_TREE_NODES", 0x430001c, 32, [], [Reg.TRL_TREE_NODES_NODES]⟩,
  ⟨"TRL_EQ_CFG", 0x4300020, 32, [], [Reg.TRL_EQ_CFG_ENABLE, Reg.TRL_EQ_CFG_BASE, Reg.TRL_EQ_CFG_BLOCK_NS]⟩,
  ⟨"TRL_THROTTLE", 0x4300024, 32, [], [Reg.TRL_THROTTLE_STEP, Reg.TRL_THROTTLE_KSLOTS]⟩,
  ⟨"TRL_BLAZE_LIVE", 0x4300028, 32, [], [Reg.TRL_BLAZE_LIVE_LIVE]⟩,
  ⟨"TRL_LOOKUPS", 0x4300030, 32, [], [Reg.TRL_LOOKUPS_LOOKUPS]⟩,
  ⟨"TRL_HIT_BLOCKS", 0x4300034, 32, [], [Reg.TRL_HIT_BLOCKS_BLOCKS]⟩,
  ⟨"TRL_MISC", 0x4300038, 32, [], [Reg.TRL_MISC_COLLIDE, Reg.TRL_MISC_EQ_OVERRUN]⟩,
  ⟨"TRL_EVICT", 0x430003c, 32, [], [Reg.TRL_EVICT_EVICTED, Reg.TRL_EVICT_CAP_REFUSED]⟩,
  ⟨"TRL_FN_BLAZE", 0x4300100, 32, [(0x4, 64)], [Reg.TRL_FN_BLAZE_EN, Reg.TRL_FN_BLAZE_SET]⟩,
  ⟨"SCH_CLASS_TGT", 0x4200000, 32, [(0x8, 8)], [Reg.SCH_CLASS_TGT_TTFT_MS, Reg.SCH_CLASS_TGT_TPOT_10US]⟩,
  ⟨"SCH_CLASS_CTL", 0x4200004, 32, [(0x8, 8)], [Reg.SCH_CLASS_CTL_PAUSABLE, Reg.SCH_CLASS_CTL_MAX_ACTIVE]⟩,
  ⟨"SCH_ADMIT_CFG", 0x4200040, 32, [], [Reg.SCH_ADMIT_CFG_QMAX]⟩,
  ⟨"SCH_ADMIT_LIMIT", 0x4200044, 32, [], [Reg.SCH_ADMIT_LIMIT_MAX_ACTIVE]⟩,
  ⟨"SCH_ADMIT_QUEUED", 0x4200048, 32, [], [Reg.SCH_ADMIT_QUEUED_QUEUED]⟩,
  ⟨"SCH_CLASS_ACTIVE", 0x4200060, 32, [(0x4, 8)], [Reg.SCH_CLASS_ACTIVE_ACTIVE]⟩,
  ⟨"SCH_PLACE_CFG", 0x4200080, 32, [], [Reg.SCH_PLACE_CFG_MIX_STANDS, Reg.SCH_PLACE_CFG_DEPTH, Reg.SCH_PLACE_CFG_OVERFLOW]⟩,
  ⟨"SCH_BUCK_CFG", 0x4200084, 32, [], [Reg.SCH_BUCK_CFG_MAX_CHUNK, Reg.SCH_BUCK_CFG_MIX_CHUNK]⟩,
  ⟨"SCH_PLACE_OVERFLOW", 0x4200088, 32, [], [Reg.SCH_PLACE_OVERFLOW_TASKS]⟩,
  ⟨"SCH_PLACE_WAIT", 0x420008c, 32, [], [Reg.SCH_PLACE_WAIT_TASKS]⟩,
  ⟨"SCH_MODELS", 0x4200090, 32, [], [Reg.SCH_MODELS_REGISTERED]⟩,
  ⟨"SCH_CLASS_MISS", 0x4200100, 32, [(0x4, 8)], [Reg.SCH_CLASS_MISS_TTFT_MISS, Reg.SCH_CLASS_MISS_TPOT_MISS]⟩,
  ⟨"SCH_PAUSE_CTL", 0x4200180, 32, [], [Reg.SCH_PAUSE_CTL_AUTO, Reg.SCH_PAUSE_CTL_AUTO_RESUME, Reg.SCH_PAUSE_CTL_PAUSE_MAX, Reg.SCH_PAUSE_CTL_RESUME_HOLD, Reg.SCH_PAUSE_CTL_PERIOD_100US]⟩,
  ⟨"SCH_PAUSE_DWELL", 0x4200184, 32, [], [Reg.SCH_PAUSE_DWELL_DWELL_MS]⟩]

/-- Rows 72 to 95 of the register map, in the order of the spec's chapters. -/
def regTable3 : List RegRow := [
  ⟨"SCH_RISK_CFG", 0x4200188, 32, [], [Reg.SCH_RISK_CFG_TTFT_PCT, Reg.SCH_RISK_CFG_TPOT_PCT]⟩,
  ⟨"SCH_RISK_STATUS", 0x420018c, 32, [], [Reg.SCH_RISK_STATUS_HELD, Reg.SCH_RISK_STATUS_AT_RISK]⟩,
  ⟨"SCH_PAUSED", 0x4200190, 32, [], [Reg.SCH_PAUSED_PAUSED]⟩,
  ⟨"SCH_AUTO_PAUSE_COUNT", 0x4200194, 32, [], [Reg.SCH_AUTO_PAUSE_COUNT_PAUSES]⟩,
  ⟨"SCH_ARB_CFG", 0x4200200, 32, [], [Reg.SCH_ARB_CFG_AGE_US]⟩,
  ⟨"SCH_ARB_Q", 0x4200204, 32, [], [Reg.SCH_ARB_Q_ENG_Q, Reg.SCH_ARB_Q_COL_Q, Reg.SCH_ARB_Q_CHIP_Q, Reg.SCH_ARB_Q_EGR_Q]⟩,
  ⟨"SCH_ARB_AGED", 0x4200210, 32, [(0x4, 4)], [Reg.SCH_ARB_AGED_ITEMS]⟩,
  ⟨"TIR_PD_BASE_LO", 0x4500000, 32, [], [Reg.TIR_PD_BASE_LO_BASE_LO]⟩,
  ⟨"TIR_PD_BASE_HI", 0x4500004, 32, [], [Reg.TIR_PD_BASE_HI_BASE_HI]⟩,
  ⟨"TIR_PD_COUNT", 0x4500008, 32, [], [Reg.TIR_PD_COUNT_COUNT]⟩,
  ⟨"TIR_MOVE_CFG", 0x4500010, 32, [], [Reg.TIR_MOVE_CFG_INFLIGHT, Reg.TIR_MOVE_CFG_LEASE_MS, Reg.TIR_MOVE_CFG_GRACE_US]⟩,
  ⟨"TIR_MOVE_COUNT", 0x4500014, 32, [], [Reg.TIR_MOVE_COUNT_ABORTED, Reg.TIR_MOVE_COUNT_RECLAIMED]⟩,
  ⟨"TIR_MOVE_DONE", 0x4500018, 32, [], [Reg.TIR_MOVE_DONE_FLIPPED]⟩,
  ⟨"TIR_PREFETCH_MISC", 0x4500020, 32, [], [Reg.TIR_PREFETCH_MISC_REFETCH, Reg.TIR_PREFETCH_MISC_HELD]⟩,
  ⟨"TIR_STALL_CFG", 0x4500030, 32, [], [Reg.TIR_STALL_CFG_REPORT_MS]⟩,
  ⟨"TIR_LOCAL_LO", 0x4500040, 32, [(0x10, 8)], [Reg.TIR_LOCAL_LO_BASE_LO]⟩,
  ⟨"TIR_LOCAL_HI", 0x4500044, 32, [(0x10, 8)], [Reg.TIR_LOCAL_HI_BASE_HI]⟩,
  ⟨"TIR_LOCAL_SIZE", 0x4500048, 32, [(0x10, 8)], [Reg.TIR_LOCAL_SIZE_SIZE_2M]⟩,
  ⟨"TIR_LOCAL_STAGE", 0x450004c, 32, [(0x10, 8)], [Reg.TIR_LOCAL_STAGE_FREE_2M, Reg.TIR_LOCAL_STAGE_STAGE_2M]⟩,
  ⟨"TIR_STALL_COUNT", 0x4500100, 64, [(0x8, 16)], [Reg.TIR_STALL_COUNT_US, Reg.TIR_STALL_COUNT_EVENTS]⟩,
  ⟨"TIR_FELL_CFG", 0x4500200, 32, [], [Reg.TIR_FELL_CFG_ENABLE, Reg.TIR_FELL_CFG_MODE, Reg.TIR_FELL_CFG_FALLBACK, Reg.TIR_FELL_CFG_EXEMPT, Reg.TIR_FELL_CFG_PER_PICK, Reg.TIR_FELL_CFG_TARGET_MIB]⟩,
  ⟨"TIR_FELL_KICK", 0x4500204, 32, [], [Reg.TIR_FELL_KICK_MIB]⟩,
  ⟨"TIR_FELL_STATUS", 0x4500208, 32, [], [Reg.TIR_FELL_STATUS_RUNNING, Reg.TIR_FELL_STATUS_PASSES, Reg.TIR_FELL_STATUS_PICKS]⟩,
  ⟨"CDC_TBL_BASE_LO", 0x4400000, 32, [], [Reg.CDC_TBL_BASE_LO_BASE_LO]⟩]

/-- Rows 96 to 119 of the register map, in the order of the spec's chapters. -/
def regTable4 : List RegRow := [
  ⟨"CDC_TBL_BASE_HI", 0x4400004, 32, [], [Reg.CDC_TBL_BASE_HI_BASE_HI]⟩,
  ⟨"CDC_TBL_CFG", 0x4400008, 32, [], [Reg.CDC_TBL_CFG_BUF_64K]⟩,
  ⟨"CDC_ADP_BASE_LO", 0x4400010, 32, [], [Reg.CDC_ADP_BASE_LO_BASE_LO]⟩,
  ⟨"CDC_ADP_BASE_HI", 0x4400014, 32, [], [Reg.CDC_ADP_BASE_HI_BASE_HI]⟩,
  ⟨"CDC_ADP_SIZE", 0x4400018, 32, [], [Reg.CDC_ADP_SIZE_FREE_2M, Reg.CDC_ADP_SIZE_SIZE_2M]⟩,
  ⟨"CDC_ADP_STATUS", 0x440001c, 32, [], [Reg.CDC_ADP_STATUS_MISS, Reg.CDC_ADP_STATUS_SLOTS]⟩,
  ⟨"CDC_EXP_BLOCKS", 0x4400020, 32, [], [Reg.CDC_EXP_BLOCKS_BLOCKS]⟩,
  ⟨"CDC_EXP_BYTES", 0x4400024, 32, [], [Reg.CDC_EXP_BYTES_KIB]⟩,
  ⟨"CDC_EXP_ERR", 0x4400028, 32, [], [Reg.CDC_EXP_ERR_TAG, Reg.CDC_EXP_ERR_CRC_RETRY]⟩,
  ⟨"CDC_EXP_NAN", 0x440002c, 32, [], [Reg.CDC_EXP_NAN_BLOCKS]⟩,
  ⟨"CDC_TBL_STATE", 0x4400400, 64, [(0x8, 256)], [Reg.CDC_TBL_STATE_OTHER_VER, Reg.CDC_TBL_STATE_CUR_VER, Reg.CDC_TBL_STATE_KIND, Reg.CDC_TBL_STATE_LOADING, Reg.CDC_TBL_STATE_CUR_BUF, Reg.CDC_TBL_STATE_OTHER_USERS]⟩,
  ⟨"STD_SEQ_STATUS", 0x8000000, 32, [(0x10000, 64)], [Reg.STD_SEQ_STATUS_FENCED, Reg.STD_SEQ_STATUS_LIVE, Reg.STD_SEQ_STATUS_RUN, Reg.STD_SEQ_STATUS_RUNNING, Reg.STD_SEQ_STATUS_DEPTH]⟩,
  ⟨"STD_PROG_ID", 0x8000004, 32, [(0x10000, 64)], [Reg.STD_PROG_ID_IMAGE_ID, Reg.STD_PROG_ID_VERSION]⟩,
  ⟨"STD_SEQ_FAULT", 0x8000008, 32, [(0x10000, 64)], [Reg.STD_SEQ_FAULT_VALID, Reg.STD_SEQ_FAULT_DETAIL, Reg.STD_SEQ_FAULT_FRAME, Reg.STD_SEQ_FAULT_PC]⟩,
  ⟨"STD_SEQ_COUNT", 0x800000c, 32, [(0x10000, 64)], [Reg.STD_SEQ_COUNT_FAULTS, Reg.STD_SEQ_COUNT_SWITCHES]⟩,
  ⟨"STD_SEQ_RETRY", 0x8000010, 32, [(0x10000, 64)], [Reg.STD_SEQ_RETRY_LASTING, Reg.STD_SEQ_RETRY_RETRIED]⟩,
  ⟨"STD_FRAME", 0x8000020, 32, [(0x10000, 64), (0x4, 4)], [Reg.STD_FRAME_LIVE, Reg.STD_FRAME_HELD, Reg.STD_FRAME_WITHDRAWING, Reg.STD_FRAME_PC]⟩,
  ⟨"STD_FRAME_TAG", 0x8000030, 32, [(0x10000, 64), (0x4, 4)], [Reg.STD_FRAME_TAG_JOB_TAG]⟩,
  ⟨"STD_CDC_STATUS", 0x8000280, 32, [(0x10000, 64)], [Reg.STD_CDC_STATUS_ERROR, Reg.STD_CDC_STATUS_BUSY, Reg.STD_CDC_STATUS_DETAIL, Reg.STD_CDC_STATUS_QDEPTH]⟩,
  ⟨"STD_IMAGE_BASE_LO", 0x8400000, 32, [], [Reg.STD_IMAGE_BASE_LO_BASE_LO]⟩,
  ⟨"STD_IMAGE_BASE_HI", 0x8400004, 32, [], [Reg.STD_IMAGE_BASE_HI_BASE_HI]⟩,
  ⟨"CWT_CFG", 0x4600000, 32, [], [Reg.CWT_CFG_UDP_PORT, Reg.CWT_CFG_SPORT_BASE]⟩,
  ⟨"CWT_TIMER", 0x4600004, 32, [], [Reg.CWT_TIMER_MIN_RTO_US, Reg.CWT_TIMER_ACK_DELAY_100NS, Reg.CWT_TIMER_ACK_COALESCE, Reg.CWT_TIMER_RNR_US]⟩,
  ⟨"CWT_TIMER2", 0x4600008, 32, [], [Reg.CWT_TIMER2_GIVEUP_US, Reg.CWT_TIMER2_PATH_HOLD_US]⟩]

/-- Rows 120 to 143 of the register map, in the order of the spec's chapters. -/
def regTable5 : List RegRow := [
  ⟨"CWT_FALLOW", 0x460000c, 32, [], [Reg.CWT_FALLOW_FALLOW_US]⟩,
  ⟨"CWT_CREDIT_CFG", 0x4600010, 32, [], [Reg.CWT_CREDIT_CFG_NODE_UNITS, Reg.CWT_CREDIT_CFG_QP_UNITS]⟩,
  ⟨"CWT_QP_HBM_BASE", 0x4600018, 64, [], [Reg.CWT_QP_HBM_BASE_BASE]⟩,
  ⟨"CWT_QP_HOST_BASE", 0x4600020, 64, [], [Reg.CWT_QP_HOST_BASE_BASE]⟩,
  ⟨"CWT_QP_HOST_COUNT", 0x4600028, 32, [], [Reg.CWT_QP_HOST_COUNT_COUNT]⟩,
  ⟨"CWT_NODE_TBL_BASE", 0x4600030, 64, [], [Reg.CWT_NODE_TBL_BASE_BASE]⟩,
  ⟨"CWT_LAND_OVF_BASE", 0x4600038, 64, [], [Reg.CWT_LAND_OVF_BASE_BASE]⟩,
  ⟨"CWT_LAND_OVF_SIZE", 0x4600040, 32, [], [Reg.CWT_LAND_OVF_SIZE_SIZE_2M]⟩,
  ⟨"CWT_CHOKER_BASE", 0x4600048, 64, [], [Reg.CWT_CHOKER_BASE_BASE]⟩,
  ⟨"CWT_CHOKER_COUNT", 0x4600050, 32, [], [Reg.CWT_CHOKER_COUNT_SLOTS]⟩,
  ⟨"CWT_QP_LIVE", 0x4600058, 32, [], [Reg.CWT_QP_LIVE_LIVE]⟩,
  ⟨"CWT_QP_RESIDENT", 0x460005c, 32, [], [Reg.CWT_QP_RESIDENT_RESIDENT]⟩,
  ⟨"CWT_DROP_MISSQ", 0x4600060, 32, [], [Reg.CWT_DROP_MISSQ_PACKETS]⟩,
  ⟨"CWT_DROP", 0x4600064, 32, [], [Reg.CWT_DROP_STALE_QP, Reg.CWT_DROP_MAP_REJECT]⟩,
  ⟨"CWT_DROP_CHECK", 0x4600068, 32, [], [Reg.CWT_DROP_CHECK_CHECK, Reg.CWT_DROP_CHECK_NON_CELWALD]⟩,
  ⟨"CWT_MISSQ", 0x460006c, 32, [], [Reg.CWT_MISSQ_PEAK_64K, Reg.CWT_MISSQ_NOW_64K]⟩,
  ⟨"CWT_RETX", 0x4600070, 32, [], [Reg.CWT_RETX_TIMEOUT, Reg.CWT_RETX_FAST]⟩,
  ⟨"CWT_ECN_CE", 0x4600074, 32, [], [Reg.CWT_ECN_CE_MARKS]⟩,
  ⟨"CWT_QP_EVENT", 0x4600078, 32, [], [Reg.CWT_QP_EVENT_DRAINED, Reg.CWT_QP_EVENT_MISSQ_DROP, Reg.CWT_QP_EVENT_AUTH, Reg.CWT_QP_EVENT_GIVE_UP, Reg.CWT_QP_EVENT_ERROR]⟩,
  ⟨"CWT_REGION_BASE", 0x4600100, 64, [], [Reg.CWT_REGION_BASE_BASE]⟩,
  ⟨"CWT_REGION_COUNT", 0x4600108, 32, [], [Reg.CWT_REGION_COUNT_COUNT]⟩,
  ⟨"CWT_ARC_BASE", 0x4600110, 64, [], [Reg.CWT_ARC_BASE_BASE]⟩,
  ⟨"CWT_ARC_CFG", 0x4600118, 32, [], [Reg.CWT_ARC_CFG_RINGS, Reg.CWT_ARC_CFG_IN_USE]⟩,
  ⟨"CWT_ARC_LIFE", 0x460011c, 32, [], [Reg.CWT_ARC_LIFE_LIFETIME_MS]⟩]

/-- Rows 144 to 167 of the register map, in the order of the spec's chapters. -/
def regTable6 : List RegRow := [
  ⟨"CWT_LEASE_BASE", 0x4600120, 64, [], [Reg.CWT_LEASE_BASE_BASE]⟩,
  ⟨"CWT_LEASE_CFG", 0x4600128, 32, [], [Reg.CWT_LEASE_CFG_TERM_MS, Reg.CWT_LEASE_CFG_COUNT]⟩,
  ⟨"CWT_HOT_CFG", 0x4600130, 32, [], [Reg.CWT_HOT_CFG_ENABLE, Reg.CWT_HOT_CFG_THRESH, Reg.CWT_HOT_CFG_COOL_US]⟩,
  ⟨"CWT_HOT_STATUS", 0x4600134, 32, [], [Reg.CWT_HOT_STATUS_FULL, Reg.CWT_HOT_STATUS_LINES]⟩,
  ⟨"CWT_MCAST_BASE", 0x4600138, 64, [], [Reg.CWT_MCAST_BASE_BASE]⟩,
  ⟨"CWT_MEM_COUNT", 0x4600140, 32, [], [Reg.CWT_MEM_COUNT_ARC_HIT, Reg.CWT_MEM_COUNT_INDETERMINATE]⟩,
  ⟨"CWT_MEM_COUNT2", 0x4600144, 32, [], [Reg.CWT_MEM_COUNT2_STALE_KEY, Reg.CWT_MEM_COUNT2_POISON]⟩,
  ⟨"CWT_MEM_EVENT", 0x4600148, 32, [], [Reg.CWT_MEM_EVENT_HOT_FAULT, Reg.CWT_MEM_EVENT_SNAGGED, Reg.CWT_MEM_EVENT_CONFLICT, Reg.CWT_MEM_EVENT_INDETERMINATE]⟩,
  ⟨"CWT_SHP_BASE", 0x4600200, 64, [], [Reg.CWT_SHP_BASE_BASE]⟩,
  ⟨"CWT_SHP_MAP_BASE", 0x4600208, 64, [], [Reg.CWT_SHP_MAP_BASE_BASE]⟩,
  ⟨"CWT_SHP_CFG", 0x4600210, 32, [], [Reg.CWT_SHP_CFG_ENABLE, Reg.CWT_SHP_CFG_COUNT]⟩,
  ⟨"CWT_SHP_STATUS", 0x4600214, 32, [], [Reg.CWT_SHP_STATUS_COARSE, Reg.CWT_SHP_STATUS_FINE]⟩,
  ⟨"CWT_OBS_CTL", 0x4600218, 32, [], [Reg.CWT_OBS_CTL_SNAP]⟩,
  ⟨"CWT_OBS_SNAP_TIME", 0x4600220, 64, [], [Reg.CWT_OBS_SNAP_TIME_TIME]⟩,
  ⟨"CWT_OBS_SEL", 0x4600400, 32, [(0x4, 256)], [Reg.CWT_OBS_SEL_KIND, Reg.CWT_OBS_SEL_INDEX]⟩,
  ⟨"CWT_OBS_HIST", 0x4610000, 64, [(0x10000, 2), (0x100, 256)], []⟩,
  ⟨"TIR_CP_GROUP", 0x4500300, 32, [], [Reg.TIR_CP_GROUP_D_EN, Reg.TIR_CP_GROUP_P_EN, Reg.TIR_CP_GROUP_DEGRADED, Reg.TIR_CP_GROUP_CXL_LOST, Reg.TIR_CP_GROUP_D_IDX, Reg.TIR_CP_GROUP_LOCK_US, Reg.TIR_CP_GROUP_DEGRADE_MS]⟩,
  ⟨"TIR_CP_MEMBER", 0x4500310, 32, [(0x4, 18)], [Reg.TIR_CP_MEMBER_NODE]⟩,
  ⟨"TIR_CP_PKEY", 0x4500358, 32, [], [Reg.TIR_CP_PKEY_KEY]⟩,
  ⟨"TIR_CP_ALIAS", 0x450035c, 32, [], [Reg.TIR_CP_ALIAS_VALID, Reg.TIR_CP_ALIAS_NODE]⟩,
  ⟨"TIR_CP_CFG", 0x4500360, 32, [], [Reg.TIR_CP_CFG_LOCK_RETRY, Reg.TIR_CP_CFG_INFLIGHT]⟩,
  ⟨"TIR_CP_PAR_BASE", 0x4500368, 64, [], [Reg.TIR_CP_PAR_BASE_BASE]⟩,
  ⟨"TIR_CP_AREA", 0x4500400, 64, [(0x10, 16)], [Reg.TIR_CP_AREA_BASE]⟩,
  ⟨"TIR_CP_AREA_SIZE", 0x4500408, 32, [(0x10, 16)], [Reg.TIR_CP_AREA_SIZE_2M]⟩,
  ⟨"TIR_CP_REB_STATUS", 0x4500500, 32, [], [Reg.TIR_CP_REB_STATUS_RUNNING, Reg.TIR_CP_REB_STATUS_DONE, Reg.TIR_CP_REB_STATUS_UNBUILT]⟩]

/-- Rows 168 to 191 of the register map, in the order of the spec's chapters. -/
def regTable7 : List RegRow := [
  ⟨"TIR_CP_COUNT", 0x4500508, 64, [], [Reg.TIR_CP_COUNT_LOCK_LOST, Reg.TIR_CP_COUNT_LOCK_HELD, Reg.TIR_CP_COUNT_DEGRADED]⟩,
  ⟨"TIR_CP_ACC_BASE", 0x4500510, 64, [], [Reg.TIR_CP_ACC_BASE_BASE]⟩,
  ⟨"TIR_CP_ACC_CFG", 0x4500518, 32, [], [Reg.TIR_CP_ACC_CFG_HOT_THRESH, Reg.TIR_CP_ACC_CFG_COLD_THRESH]⟩,
  ⟨"TIR_CP_LIST_GEN", 0x450051c, 32, [], [Reg.TIR_CP_LIST_GEN_GEN]⟩,
  ⟨"TIR_CP_BW_BUDGET", 0x4500520, 32, [], [Reg.TIR_CP_BW_BUDGET_GBPS]⟩,
  ⟨"TIR_CP_BW_CLASS", 0x4500530, 32, [(0x4, 4)], [Reg.TIR_CP_BW_CLASS_CAP_PCT, Reg.TIR_CP_BW_CLASS_SHARE_PCT]⟩,
  ⟨"TIR_CP_BW_CAPPED", 0x4500540, 32, [(0x4, 4)], [Reg.TIR_CP_BW_CAPPED_WINDOWS]⟩,
  ⟨"HIF_XW_CFG", 0x1100000, 64, [(0x40, 64)], [Reg.HIF_XW_CFG_ENABLE, Reg.HIF_XW_CFG_PORT, Reg.HIF_XW_CFG_SLOTS, Reg.HIF_XW_CFG_SLOT_64K, Reg.HIF_XW_CFG_MODEL]⟩,
  ⟨"HIF_XW_BASE", 0x1100008, 64, [(0x40, 64)], [Reg.HIF_XW_BASE_BASE]⟩,
  ⟨"HIF_XW_REL", 0x1100010, 64, [(0x40, 64)], [Reg.HIF_XW_REL_REL_DEST]⟩,
  ⟨"HIF_XW_RELSZ", 0x1100018, 32, [(0x40, 64)], [Reg.HIF_XW_RELSZ_REL_SLOTS]⟩,
  ⟨"HIF_XW_STATUS", 0x1100020, 64, [(0x40, 64)], [Reg.HIF_XW_STATUS_DSEQ, Reg.HIF_XW_STATUS_BOUND, Reg.HIF_XW_STATUS_INFLIGHT]⟩,
  ⟨"HIF_XW_COUNT", 0x1100028, 64, [(0x40, 64)], [Reg.HIF_XW_COUNT_MISUSE, Reg.HIF_XW_COUNT_DUP, Reg.HIF_XW_COUNT_REL_WAIT, Reg.HIF_XW_COUNT_FENCE_WAIT]⟩,
  ⟨"HIF_XW_APER", 0x1101000, 64, [(0x8, 8)], [Reg.HIF_XW_APER_BASE]⟩,
  ⟨"HIF_XW_EVENT", 0x1101040, 64, [], [Reg.HIF_XW_EVENT_DOORBELL]⟩,
  ⟨"MGT_MAP_EPOCH", 0x100, 32, [], [Reg.MGT_MAP_EPOCH_JOINED, Reg.MGT_MAP_EPOCH_ROLE_LIVE, Reg.MGT_MAP_EPOCH_EPOCH]⟩,
  ⟨"MGT_MAP_SUCC", 0x104, 32, [], [Reg.MGT_MAP_SUCC_SUCC]⟩,
  ⟨"MGT_MAP_COUNT", 0x108, 64, [], [Reg.MGT_MAP_COUNT_AHEAD, Reg.MGT_MAP_COUNT_WRONG_NODE, Reg.MGT_MAP_COUNT_REDIRECTS]⟩,
  ⟨"MGT_ROLE_DRAIN", 0x140, 32, [], [Reg.MGT_ROLE_DRAIN_QUIESCED, Reg.MGT_ROLE_DRAIN_QUIESCE, Reg.MGT_ROLE_DRAIN_COND]⟩,
  ⟨"MGT_ROLL_STATUS", 0x144, 32, [], [Reg.MGT_ROLL_STATUS_RUNNING, Reg.MGT_ROLL_STATUS_COLUMN, Reg.MGT_ROLL_STATUS_ROLLED]⟩,
  ⟨"MGT_FW_STATUS", 0x180, 32, [], [Reg.MGT_FW_STATUS_ACTIVE_BANK, Reg.MGT_FW_STATUS_TRIAL, Reg.MGT_FW_STATUS_FALLBACK, Reg.MGT_FW_STATUS_STAGED]⟩,
  ⟨"MGT_FW_VER", 0x184, 32, [], [Reg.MGT_FW_VER_BANK1, Reg.MGT_FW_VER_BANK0]⟩,
  ⟨"MGT_FLT_BASE", 0x200, 64, [], [Reg.MGT_FLT_BASE_BASE]⟩,
  ⟨"MGT_FLT_SIZE", 0x208, 32, [], [Reg.MGT_FLT_SIZE_ENTRIES]⟩]

/-- Rows 192 to 215 of the register map, in the order of the spec's chapters. -/
def regTable8 : List RegRow := [
  ⟨"MGT_FLT_HEAD", 0x20c, 32, [], [Reg.MGT_FLT_HEAD_HEAD]⟩,
  ⟨"MGT_FLT_STATUS", 0x210, 64, [], [Reg.MGT_FLT_STATUS_TAIL, Reg.MGT_FLT_STATUS_LOST, Reg.MGT_FLT_STATUS_HELD]⟩,
  ⟨"MGT_FLT_LIMIT", 0x218, 32, [], [Reg.MGT_FLT_LIMIT_TRANSIENT_LIMIT, Reg.MGT_FLT_LIMIT_STACK_LIMIT]⟩,
  ⟨"MGT_FLT_SWREPORT", 0x220, 64, [], [Reg.MGT_FLT_SWREPORT_TAG, Reg.MGT_FLT_SWREPORT_STATUS, Reg.MGT_FLT_SWREPORT_DETAIL]⟩,
  ⟨"MGT_STAND_FENCE", 0x228, 64, [], [Reg.MGT_STAND_FENCE_FENCED]⟩,
  ⟨"MGT_STAND_LASTING", 0x230, 64, [], [Reg.MGT_STAND_LASTING_LASTING]⟩,
  ⟨"MGT_STACK_STATE", 0x238, 32, [], [Reg.MGT_STACK_STATE_LASTING, Reg.MGT_STACK_STATE_QUIESCED]⟩,
  ⟨"MGT_LANE_STATE", 0x240, 32, [(0x4, 8)], [Reg.MGT_LANE_STATE_DOWN, Reg.MGT_LANE_STATE_SPARE_USED, Reg.MGT_LANE_STATE_RETIRED, Reg.MGT_LANE_STATE_CAL]⟩,
  ⟨"MGT_TRANSIENT", 0x260, 32, [(0x4, 6)], [Reg.MGT_TRANSIENT_COUNT]⟩,
  ⟨"MGT_SELFTEST", 0x280, 32, [], [Reg.MGT_SELFTEST_COL_RUNNING, Reg.MGT_SELFTEST_COL, Reg.MGT_SELFTEST_LANE_RUNNING, Reg.MGT_SELFTEST_PORT, Reg.MGT_SELFTEST_LANE, Reg.MGT_SELFTEST_COMPLETED]⟩,
  ⟨"KEY_STATUS", 0x4700000, 32, [], [Reg.KEY_STATUS_STATE, Reg.KEY_STATUS_APPROVED, Reg.KEY_STATUS_LAST_APPROVED, Reg.KEY_STATUS_PREFIX_LOADED]⟩,
  ⟨"KEY_POLICY", 0x4700004, 32, [], [Reg.KEY_POLICY_REQUIRE_IDE, Reg.KEY_POLICY_APPROVED]⟩,
  ⟨"KEY_TBL_BASE", 0x4700008, 64, [], [Reg.KEY_TBL_BASE_BASE]⟩,
  ⟨"KEY_TBL_COUNT", 0x4700010, 32, [], [Reg.KEY_TBL_COUNT_COUNT]⟩,
  ⟨"KEY_EPOCH", 0x4700014, 32, [], [Reg.KEY_EPOCH_WRAP_EPOCH]⟩,
  ⟨"KEY_CACHE", 0x4700018, 64, [], [Reg.KEY_CACHE_MISSES, Reg.KEY_CACHE_PINNED_WAIT, Reg.KEY_CACHE_RESIDENT]⟩,
  ⟨"KEY_HEALTH", 0x4700020, 32, [], [Reg.KEY_HEALTH_DROPPED, Reg.KEY_HEALTH_APT_FAIL, Reg.KEY_HEALTH_RCT_FAIL]⟩,
  ⟨"KEY_EVENT", 0x4700024, 32, [], [Reg.KEY_EVENT_TAMPER, Reg.KEY_EVENT_TAG, Reg.KEY_EVENT_IDE, Reg.KEY_EVENT_SELFTEST]⟩,
  ⟨"SCB_CFG", 0x4800000, 32, [], [Reg.SCB_CFG_INTERVAL_MS, Reg.SCB_CFG_FLUSH_SEV, Reg.SCB_CFG_FLUSH_FLOOR]⟩,
  ⟨"SCB_CTL", 0x4800004, 32, [], [Reg.SCB_CTL_CIRC_CLEAR, Reg.SCB_CTL_FLUSH]⟩,
  ⟨"SCB_STATUS", 0x4800008, 64, [], [Reg.SCB_STATUS_LAST_SEQ, Reg.SCB_STATUS_FLUSHING, Reg.SCB_STATUS_LAST_PFAIL, Reg.SCB_STATUS_DISCARDED, Reg.SCB_STATUS_UNFLUSHED]⟩,
  ⟨"SCB_MRAM_STATUS", 0x4800010, 64, [], [Reg.SCB_MRAM_STATUS_BOOT, Reg.SCB_MRAM_STATUS_CIRC_NEXT, Reg.SCB_MRAM_STATUS_KEPT]⟩,
  ⟨"SCB_CIRC_WRAPS", 0x4800018, 32, [], [Reg.SCB_CIRC_WRAPS_WRAPS]⟩,
  ⟨"SCB_BORER_CFG", 0x4800020, 32, [], [Reg.SCB_BORER_CFG_PERIOD_S, Reg.SCB_BORER_CFG_WARN_DAYS, Reg.SCB_BORER_CFG_LASER_PCT]⟩]

/-- Rows 216 to 239 of the register map, in the order of the spec's chapters. -/
def regTable9 : List RegRow := [
  ⟨"SCB_EOL_CFG", 0x4800024, 32, [], [Reg.SCB_EOL_CFG_CE_PER_DAY, Reg.SCB_EOL_CFG_RO_LIMIT]⟩,
  ⟨"SCB_EVENT", 0x4800028, 32, [], [Reg.SCB_EVENT_EOL_WARN, Reg.SCB_EVENT_FLUSH_DONE, Reg.SCB_EVENT_DISCARD]⟩,
  ⟨"SCB_BORER", 0x4801000, 32, [(0x4, 128)], [Reg.SCB_BORER_DEGR]⟩,
  ⟨"SCB_EOL", 0x4802000, 32, [(0x4, 144)], [Reg.SCB_EOL_DAYS, Reg.SCB_EOL_POINTS, Reg.SCB_EOL_WEAR_PCT]⟩,
  ⟨"HIF_ADMQ_BASE", 0x1000000, 64, [], [Reg.HIF_ADMQ_BASE_BASE]⟩,
  ⟨"HIF_ADMCQ_BASE", 0x1000008, 64, [], [Reg.HIF_ADMCQ_BASE_BASE]⟩,
  ⟨"HIF_ADMQ_CFG", 0x1000010, 32, [], [Reg.HIF_ADMQ_CFG_ENABLE, Reg.HIF_ADMQ_CFG_SQ_LOG2, Reg.HIF_ADMQ_CFG_CQ_LOG2, Reg.HIF_ADMQ_CFG_VECTOR]⟩,
  ⟨"HIF_FN_STATUS", 0x1000018, 32, [], [Reg.HIF_FN_STATUS_READY, Reg.HIF_FN_STATUS_CLEANING, Reg.HIF_FN_STATUS_QUEUES]⟩,
  ⟨"HIF_FN_ERR", 0x1000020, 64, [], [Reg.HIF_FN_ERR_DB_ERR, Reg.HIF_FN_ERR_UNMAPPED, Reg.HIF_FN_ERR_CQ_FULL, Reg.HIF_FN_ERR_DESC_FAIL]⟩,
  ⟨"HIF_FN_LIMIT", 0x1000200, 32, [(0x8, 64)], [Reg.HIF_FN_LIMIT_QUEUES]⟩,
  ⟨"HIF_FN_TENANT", 0x1000400, 64, [(0x8, 64)], [Reg.HIF_FN_TENANT_VALID, Reg.HIF_FN_TENANT_LAST, Reg.HIF_FN_TENANT_FIRST]⟩,
  ⟨"HIF_EVT_CFG", 0x1000600, 32, [], [Reg.HIF_EVT_CFG_EN_MGT, Reg.HIF_EVT_CFG_VEC_MGT, Reg.HIF_EVT_CFG_EN_HIF, Reg.HIF_EVT_CFG_VEC_HIF, Reg.HIF_EVT_CFG_EN_CWT, Reg.HIF_EVT_CFG_VEC_CWT, Reg.HIF_EVT_CFG_EN_SCH, Reg.HIF_EVT_CFG_VEC_SCH]⟩,
  ⟨"HIF_EVT_STATUS", 0x1000604, 32, [], [Reg.HIF_EVT_STATUS_PENDING]⟩,
  ⟨"CWT_PORT_CFG", 0x4608000, 32, [(0x100, 8)], [Reg.CWT_PORT_CFG_ENABLE, Reg.CWT_PORT_CFG_LASER_EN, Reg.CWT_PORT_CFG_MACSEC, Reg.CWT_PORT_CFG_BREAKOUT, Reg.CWT_PORT_CFG_SUB_EN, Reg.CWT_PORT_CFG_CAL_DWELL_10MS, Reg.CWT_PORT_CFG_UP_HOLD_MS]⟩,
  ⟨"CWT_PORT_STATUS", 0x4608004, 32, [(0x100, 8)], [Reg.CWT_PORT_STATUS_LASER_PRES, Reg.CWT_PORT_STATUS_LASER_OK, Reg.CWT_PORT_STATUS_CW_LOSS, Reg.CWT_PORT_STATUS_UP, Reg.CWT_PORT_STATUS_RFAULT, Reg.CWT_PORT_STATUS_LFAULT]⟩,
  ⟨"CWT_PORT_FEC", 0x4608008, 64, [(0x100, 8)], [Reg.CWT_PORT_FEC_CORRECTED, Reg.CWT_PORT_FEC_UNCORR]⟩,
  ⟨"CWT_PORT_LANE", 0x4608010, 32, [(0x100, 8), (0x4, 9)], [Reg.CWT_PORT_LANE_MAPPED, Reg.CWT_PORT_LANE_SER_PPB]⟩,
  ⟨"CWT_PORT_SERLIM", 0x4608034, 32, [(0x100, 8)], [Reg.CWT_PORT_SERLIM_PPB]⟩,
  ⟨"CWT_PORT_LASER", 0x4608040, 32, [(0x100, 8)], [Reg.CWT_PORT_LASER_BIAS, Reg.CWT_PORT_LASER_TEMP]⟩,
  ⟨"CWT_PORT_DROP", 0x4608048, 64, [(0x100, 8)], [Reg.CWT_PORT_DROP_FCS_ERR, Reg.CWT_PORT_DROP_OVERSIZE, Reg.CWT_PORT_DROP_MACSEC_DROP]⟩,
  ⟨"CWT_PORT_MACSEC", 0x4608050, 32, [(0x100, 8)], [Reg.CWT_PORT_MACSEC_TX_AN, Reg.CWT_PORT_MACSEC_VALID1, Reg.CWT_PORT_MACSEC_VALID0]⟩,
  ⟨"CWT_PORT_MAC", 0x4608058, 64, [(0x100, 8)], [Reg.CWT_PORT_MAC_MAC]⟩,
  ⟨"CWT_PORT_SA", 0x4608080, 512, [(0x100, 8), (0x40, 2)], []⟩,
  ⟨"HIF_FLEX_CFG", 0x1000800, 32, [(0x20, 8)], [Reg.HIF_FLEX_CFG_MODE, Reg.HIF_FLEX_CFG_SET]⟩]

/-- Rows 240 to 254 of the register map, in the order of the spec's chapters. -/
def regTable10 : List RegRow := [
  ⟨"HIF_FLEX_STATUS", 0x1000804, 32, [(0x20, 8)], [Reg.HIF_FLEX_STATUS_LINK_UP, Reg.HIF_FLEX_STATUS_RATE, Reg.HIF_FLEX_STATUS_WIDTH, Reg.HIF_FLEX_STATUS_HDM_1G]⟩,
  ⟨"HIF_FLEX_WIN", 0x1000808, 64, [(0x20, 8)], [Reg.HIF_FLEX_WIN_BASE, Reg.HIF_FLEX_WIN_SIZE_1G]⟩,
  ⟨"HIF_FLEX_IND_CTL", 0x1000810, 64, [(0x20, 8)], [Reg.HIF_FLEX_IND_CTL_BUSY, Reg.HIF_FLEX_IND_CTL_RESULT, Reg.HIF_FLEX_IND_CTL_CFG, Reg.HIF_FLEX_IND_CTL_WRITE, Reg.HIF_FLEX_IND_CTL_ADDR]⟩,
  ⟨"HIF_FLEX_IND_DATA", 0x1000818, 64, [(0x20, 8)], [Reg.HIF_FLEX_IND_DATA_DATA]⟩,
  ⟨"CLK_STATUS", 0x4a00000, 32, [], [Reg.CLK_STATUS_PLL_LOCK, Reg.CLK_STATUS_REF_OK, Reg.CLK_STATUS_SCLK_ON]⟩,
  ⟨"CLK_TIME", 0x4a00008, 64, [], [Reg.CLK_TIME_TIME]⟩,
  ⟨"MGT_BOOT_STATUS", 0x300, 64, [], [Reg.MGT_BOOT_STATUS_READY, Reg.MGT_BOOT_STATUS_HOST_READY, Reg.MGT_BOOT_STATUS_LOCKED, Reg.MGT_BOOT_STATUS_KEY_OK, Reg.MGT_BOOT_STATUS_RECOVERY, Reg.MGT_BOOT_STATUS_CAUSE, Reg.MGT_BOOT_STATUS_FLEX_UP, Reg.MGT_BOOT_STATUS_ETH_CAL_OK, Reg.MGT_BOOT_STATUS_HBM_OK, Reg.MGT_BOOT_STATUS_COL_OK]⟩,
  ⟨"PWR_STATE", 0x4b00000, 32, [], [Reg.PWR_STATE_BUSY, Reg.PWR_STATE_TARGET, Reg.PWR_STATE_GATED, Reg.PWR_STATE_STATE]⟩,
  ⟨"PWR_ARRAY_BUDGET", 0x4b00008, 32, [], [Reg.PWR_ARRAY_BUDGET_DEPTH_US, Reg.PWR_ARRAY_BUDGET_WATTS]⟩,
  ⟨"PWR_ARRAY_COEF", 0x4b0000c, 32, [], [Reg.PWR_ARRAY_COEF_C16, Reg.PWR_ARRAY_COEF_C8, Reg.PWR_ARRAY_COEF_C4, Reg.PWR_ARRAY_COEF_CDC]⟩,
  ⟨"PWR_ARRAY_STATUS", 0x4b00010, 64, [], [Reg.PWR_ARRAY_STATUS_TOKENS, Reg.PWR_ARRAY_STATUS_LEVEL, Reg.PWR_ARRAY_STATUS_AVG_W]⟩,
  ⟨"PWR_THERM", 0x4b00018, 32, [], [Reg.PWR_THERM_TRIP, Reg.PWR_THERM_WARN, Reg.PWR_THERM_STEP, Reg.PWR_THERM_HOT_SENSOR, Reg.PWR_THERM_TJ]⟩,
  ⟨"PWR_DIE_POWER", 0x4b0001c, 32, [], [Reg.PWR_DIE_POWER_WATTS]⟩,
  ⟨"PWR_RESET", 0x4b00020, 32, [], [Reg.PWR_RESET_KEY]⟩,
  ⟨"PWR_SENSOR", 0x4b00100, 32, [(0x4, 16)], [Reg.PWR_SENSOR_TEMP]⟩]

/-- The register map: every register table of the spec. -/
def regTable : List RegRow :=
  regTable0 ++ regTable1 ++ regTable2 ++ regTable3 ++ regTable4 ++ regTable5 ++ regTable6 ++ regTable7 ++ regTable8 ++ regTable9 ++ regTable10

/-- The register file: the fields whose value differs from the one after reset, by field key. Fields of a function's own registers (HIF_ADMQ_BASE to HIF_FN_ERR) carry the function's number in the key. -/
abbrev Regs := AMap Nat

/-- The reset targets of the latency classes (SCH_CLASS_TGT, spec/07): TTFT in ms and TPOT in units of 10 µs. -/
def classTargets : List (Nat × Nat) :=
  [(0x00FA, 0x07D0), (0x01F4, 0x0FA0), (0x03E8, 0x1388), (0x07D0, 0x1F40), (0x1388, 0x2710), (0x2710, 0x4E20),
   (0x7530, 0x7530), (0xEA60, 0xC350)]

/-- The reset value of a field, with the ones that the spec gives by index: SCH_CLASS_TGT and SCH_CLASS_CTL (spec/07), TIR_CP_BW_CLASS (spec/15), CWT_PORT_LANE.MAPPED and CWT_PORT_MAC (spec/22; the fused base is not given: 0, log 12), and the typical fused values of PWR_ARRAY_COEF (spec/23; PRESUMED, log 12). -/
def fieldReset (f : Fld) : Nat :=
  if 0x4200000 ≤ f.off ∧ f.off < 0x4200040 then
    let c := (f.off - 0x4200000) / 8
    if f.off % 8 = 0 then
      let t := classTargets.getD c (0, 0)
      if f.lo = 16 then t.1 else t.2
    else if f.lo = 31 then (if c < 2 then 0 else 1) else f.reset
  else if 0x4500530 ≤ f.off ∧ f.off < 0x4500540 then
    let c := (f.off - 0x4500530) / 4
    if f.lo = 8 then [0x5A, 0x3C, 0x32, 0x28].getD c 0 else [0x28, 0x19, 0x14, 0x0F].getD c 0
  else if 0x4608000 ≤ f.off ∧ f.off < 0x4608800 ∧ 0x10 ≤ f.off % 0x100 ∧ f.off % 0x100 < 0x34 ∧ f.lo = 28 then
    let l := (f.off % 0x100 - 0x10) / 4
    if l < 8 then l else 0xF
  else if 0x4608000 ≤ f.off ∧ f.off < 0x4608800 ∧ f.off % 0x100 = 0x58 then 8 * ((f.off - 0x4608000) / 0x100)
  else if f.off = 0x4B0000C then
    if f.lo = 24 then 0xB4 else if f.lo = 16 then 0xC3 else if f.lo = 8 then 0xC3 else 0x2F
  else f.reset

/-- The value of a field. -/
def regGet (r : Regs) (f : Fld) : Nat := (amGet f.key r).getD (fieldReset f)

/-- Sets a field, as the device or an accepted write does; the value is cut to the field's width. -/
def regSet (r : Regs) (f : Fld) (v : Nat) : Regs := amSet f.key (v % 2 ^ f.w) r

/-- Advances a counter field that saturates. -/
def regCount (r : Regs) (f : Fld) (n : Nat) : Regs := regSet r f (satAdd f.w (regGet r f) n)

/-- Advances a counter field that wraps. -/
def regWrap (r : Regs) (f : Fld) (n : Nat) : Regs := regSet r f (wrapAdd f.w (regGet r f) n)

/-- A field of function `fn`'s own copy of a function register (R504: the same offset in each function's view). -/
def Fld.ofFn (f : Fld) (fn : Nat) : Fld := { f with off := f.off + fn * 2 ^ 32 }

/-- The copy offsets of a register: every sum of one multiple of each stride. -/
def copyOffsets : List (Nat × Nat) → Nat → Bool
  | [], d => d = 0
  | (st, n) :: ds, d =>
    if ds.isEmpty then d % st = 0 && decide (d / st < n)
    else
      -- the strides of the spec's registers fall or rise; the larger one is divided out first
      match ds with
      | [(st2, n2)] =>
        let (a, na, b, nb) := if st ≥ st2 then (st, n, st2, n2) else (st2, n2, st, n)
        decide (d / a < na) && (d % a) % b = 0 && decide ((d % a) / b < nb)
      | _ => false

/-- The row of the register at a BAR0 offset, with the distance of that copy from the first. -/
def regAt (off : Nat) : Option (RegRow × Nat) :=
  (regTable.find? fun r => decide (r.off ≤ off) && copyOffsets r.dims (off - r.off)).map fun r => (r, off - r.off)

/-- What a write of `v` leaves in a field that has no behaviour of its own (R8, R10): RO and WO fields keep their value, RWL fields do once locked. -/
def fieldWrite (locked : Bool) (r : Regs) (f : Fld) (v : Nat) : Regs :=
  let x := bits v f.lo f.w
  match f.acc with
  | .ro | .wo => r
  | .rw => regSet r f x
  | .w1c => regSet r f (regGet r f - (regGet r f &&& x))
  | .w1s => regSet r f (regGet r f ||| x)
  | .rwl => if locked then r else regSet r f x

/-- A write of `v` to one whole register, field by field (R8, R9). -/
def rowWrite (locked : Bool) (r : Regs) (row : RegRow) (d v : Nat) : Regs :=
  row.fields.foldl (fun r f => fieldWrite locked r { f with off := f.off + d } v) r

/-- The value a read of one whole register returns from the register file (R8, R9: reserved fields and WO fields read 0). -/
def rowRead (r : Regs) (row : RegRow) (d : Nat) : Nat :=
  row.fields.foldl (fun a f => if f.acc = .wo then a else a + (regGet r { f with off := f.off + d }) <<< f.lo) 0

/-- Whether a write touches a locked RWL field (R10). -/
def rowHasRwl (row : RegRow) : Bool := row.fields.any fun f => f.acc == .rwl

end Sys2Proof.Machine
end

