-- ==== Sys2Proof/Machine/Types/Host.lean ====
section
/-! DEFINITION. The state of the host interface (spec/21): queues, result slots, vectors and commands taken; and of one arbiter of R190. -/

namespace Sys2Proof.Machine

/-- One population-weighted deficit round robin of R190: the circular list of active inputs, written from the one after `last` on, and the deficits. -/
structure Arb where
  active : List Nat
  deficit : AMap Int
  deriving DecidableEq, Repr

/-- An arbiter with no input active. -/
def Arb.empty : Arb := ⟨[], []⟩

/-- A submission queue (R505, R513): ring, default CQ, entries posted and entries taken since creation, and since when its next entry has stood at its head. -/
structure Sq where
  base : Nat
  log2 : Nat
  cq : Nat
  tail : Nat
  head : Nat
  since : Nat
  deriving DecidableEq, Repr

/-- A completion queue (R505, R515, R517, R524). `held` are completions waiting for a free entry, as 32-byte images with PHASE 0; `unsig` counts entries written and not signalled, `firstUnsig` is when the first of them was written. -/
structure Cq where
  base : Nat
  log2 : Nat
  typ : Nat
  vector : Nat
  coalCount : Nat
  coalUs : Nat
  written : Nat
  consumed : Nat
  held : List (List Byte)
  unsig : Nat
  firstUnsig : Option Nat
  deriving DecidableEq, Repr

/-- A receive ring (R505): entries posted and taken since creation. -/
structure Rq where
  base : Nat
  log2 : Nat
  cq : Nat
  posted : Nat
  taken : Nat
  deriving DecidableEq, Repr

/-- A result slot that is not free (R519, R520): named by an unfinished command, or finished with its image. -/
inductive Slot where
  | named
  | done (image : List Byte)
  deriving DecidableEq, Repr

/-- One function of the host port. Its registers (HIF_ADMQ_BASE to HIF_FN_ERR) stand in the register file. `unmasked` and `msixPending` list MSI-X vectors. -/
structure Fn where
  d3hot : Bool
  sqs : AMap Sq
  cqs : AMap Cq
  rqs : AMap Rq
  slots : AMap Slot
  unmasked : List Nat
  msixPending : List Nat
  arb : Arb
  deriving DecidableEq, Repr

/-- A function as reset leaves it. -/
def Fn.reset : Fn := ⟨false, [], [], [], [], [], [], Arb.empty⟩

/-- A command taken from a queue and not completed (R507). `started` is false while the command waits for earlier ones; `note` is what its owning block remembers of it (a slot, a test, a move). -/
structure Taken where
  op : Nat
  cmd : Cmd
  started : Bool
  time : Nat
  note : Nat
  deriving DecidableEq, Repr

/-- The host interface. `dmaRefused` lists the (function, 4 KiB page) pairs whose reads and writes the host answers with Unsupported Request or Completer Abort (R502): a property of the host, not of the part. -/
structure Hif where
  fns : AMap Fn
  taken : List Taken
  arb : Arb
  dmaRefused : List (Nat × Nat)
  deriving DecidableEq, Repr

def Hif.reset : Hif := ⟨[], [], Arb.empty, []⟩

end Sys2Proof.Machine
end

