-- ==== Sys2Proof/Machine/Types/Mgt.lean ====
section
/-! DEFINITION. The state of the management core, of faults and self-test (spec/17, spec/18), of clocks, reset and power (spec/23, spec/24) and of the scale book (spec/20) beyond their registers. -/

namespace Sys2Proof.Machine

/-- A roll of one column in progress (R428): the command, the column, its image and when the drain bound ends. `draining` is true in step 2. -/
structure Roll where
  col : Nat
  image : Nat
  deadline : Nat
  cmd : Cmd
  deriving DecidableEq, Repr

/-- A column test (R448), draining until or running for its deadline. -/
structure ColTest where
  col : Nat
  running : Bool
  deadline : Nat
  cmd : Cmd
  deriving DecidableEq, Repr

/-- A lane calibration of R448 running since a time. -/
structure LaneCal where
  port : Nat
  lane : Nat
  since : Nat
  cmd : Cmd
  deriving DecidableEq, Repr

/-- A power-state transition in progress (R556, R557): target, mask, the command that asked for it, and the columns still draining. -/
structure PwrTrans where
  target : Nat
  mask : Nat
  cmd : Cmd
  drainCols : List Nat
  deadline : Nat
  deriving DecidableEq, Repr

/-- A firmware bank (R430 to R432): the image it holds, if any, and its version word. The empty list stands for the image the part was made with (log 163). -/
structure FwBank where
  image : Option (List Byte)
  version : Nat
  deriving DecidableEq, Repr

/-- The bytes of a bank's image: those of an image the part was made with the spec does not give (log 163). -/
def FwBank.bytes (b : FwBank) : Option (List Byte) := b.image.map fun l => if l.isEmpty then Config.factoryImage else l

/-- What holds the controller in reset (R551, R566): a lost reference, PERST_N and POR_N; and which steps of R553 have ended. -/
structure Boot where
  refOk : Bool
  perst : Bool
  por : Bool
  done : List Nat
  deriving DecidableEq, Repr

/-- The management core, faults, self-test and power. Fence reasons of R448 stand each in its own field; MGT_STAND_FENCE is their union. `drainFenced` says that the role change in progress has applied the stand fence of R424. `transient` counts the transient failures of each element in the current interval, keyed by 65536 × SOURCE + ELEMENT; `stackCount` the lasting failures of each stack in the interval; `lanePass` and `laneOver` follow each lane's calibration and symbol-error rate (R442, R443). `coolRun` counts the consecutive samples below the blaze step's threshold (R563). `bucket` is the array budget's contents in units of 0.01 nJ (R561); `spent` is the array energy charged since `spentAt`. -/
structure Mgt where
  notUnfenced : BitVec 64
  drainFenced : Bool
  lasting : BitVec 64
  takenCols : List Nat
  thermalTrip : Bool
  transient : AMap Nat
  stackCount : AMap Nat
  lanePass : List Nat
  laneFail : AMap Nat
  laneOver : AMap Nat
  laneFec : AMap Nat
  fltSeq : Nat
  fltTail : Nat
  fltHeld : List (List Byte)
  roll : Option Roll
  colTest : Option ColTest
  laneCal : Option LaneCal
  banks : List FwBank
  staged : Option Nat
  activating : Option Cmd
  activateStart : Nat
  coreUp : Bool
  minSvn : Nat
  trans : Option PwrTrans
  boot : Boot
  coolRun : Nat
  bucket : Int
  spent : Nat
  spentAt : Nat
  deriving DecidableEq, Repr

/-- Every stand fenced and none lasting: the state of R17, with the persistent marks of R441 restored by start-up. -/
def Mgt.reset : Mgt :=
  { notUnfenced := 0xFFFFFFFFFFFFFFFF#64, drainFenced := false, lasting := 0, takenCols := [], thermalTrip := false, transient := [],
    stackCount := [], lanePass := [], laneFail := [], laneOver := [], laneFec := [], fltSeq := 0, fltTail := 0,
    fltHeld := [], roll := none, colTest := none, laneCal := none, banks := [⟨some [], 0⟩, ⟨none, 0⟩], staged := none,
    activating := none, activateStart := 0, coreUp := false, minSvn := 0, trans := none,
    boot := ⟨true, false, false, []⟩, coolRun := 0, bucket := 2800000000, spent := 0, spentAt := 0 }

/-- A scale-book record of R483. `body` is the 216-byte body; for an EVENT record `count` is its COUNT field. -/
structure ScbRec where
  seq : Nat
  boot : Nat
  kind : Nat
  severity : Nat
  flushed : Bool
  clamped : Bool
  source : Nat
  element : Nat
  item : Nat
  tFirst : Nat
  tLast : Nat
  count : Nat
  body : List Byte
  deriving DecidableEq, Repr

/-- The MRAM (R489): store header, management state, wear store, Keyhouse region and the two record areas. `laserSerial` is the serial number last read from each port's laser module (R539). It outlives every reset. -/
structure Mram where
  boot : Nat
  kept : Nat
  circNext : Nat
  wraps : Nat
  lastPfail : Bool
  standLasting : BitVec 64
  wrapEpoch : Nat
  keptArea : AMap ScbRec
  circArea : AMap ScbRec
  baseline : AMap Nat
  daily : AMap (List Nat)
  eol : AMap Nat
  laserSerial : AMap Nat
  deriving DecidableEq, Repr

/-- The scale book. `intervalNs` is the length of the interval in progress (R488); `sensorExt` holds each sensor's minimum, maximum and the time of the maximum. `daySum` and `dayN` gather the current wear day of each monitor element. -/
structure Scb where
  ring : AMap ScbRec
  nextSeq : Nat
  intervalStart : Nat
  flush : List Nat
  flushing : Bool
  pfailing : Bool
  mram : Mram
  daySum : AMap Nat
  dayN : AMap Nat
  dayTime : Nat
  intervalNs : Nat
  tjSamples : List Int
  powerSamples : List Nat
  stallLens : AMap (List Nat)
  sensorExt : AMap (Int × Int × Nat)
  warned : List Nat
  deriving DecidableEq, Repr

def Mram.reset : Mram :=
  { boot := 0, kept := 0, circNext := 0, wraps := 0, lastPfail := false, standLasting := 0, wrapEpoch := 0,
    keptArea := [], circArea := [], baseline := [], daily := [], eol := [], laserSerial := [] }

def Scb.reset : Scb :=
  { ring := [], nextSeq := 0, intervalStart := 0, flush := [], flushing := false, pfailing := false, mram := Mram.reset,
    daySum := [], dayN := [], dayTime := 0, intervalNs := 1000000000, tjSamples := [], powerSamples := [], stallLens := [], sensorExt := [], warned := [] }

end Sys2Proof.Machine
end

