-- ==== Sys2Proof/Machine/Types/Sch.lean ====
section
/-! DEFINITION. The scheduler's state (spec/02, spec/07): request contexts, admission queues, models, commits in flight, parking. -/

namespace Sys2Proof.Machine

/-- The phases of R40. -/
inductive Phase where
  | admitted | prefill | handoff | decode | paused | done | failed
  deriving DecidableEq, Repr

/-- What a compare-and-set or claim-checked write in flight at a record home is for (R41, R45, R46, R51, R54, R78, R86). `store` is a write that commit `commit` waits for (R45), `head` a rewrite of the record head (R43), `unpark` the rewrite of its owner handle (R35); `copRead` is the read of a record by a coppice node (R84), `shardRead` that of a shard's cut-map entries by its requester (R133). -/
inductive CommitKind where
  | store (commit : Nat) | head | copRead | shardRead (shard : Nat)
  | recordHead | prompt | endDone (reason : Nat) | prefill | handoff | decode | token | cancel | ownerFlip | recover | claim | unpark | commitSpec
  | cutFelling (cut : Nat) | cutFelled (cut : Nat) | cutMark (cut : Nat) | cutFlip (cut : Nat) | cutBack (cut : Nat)
  | cutCoppicing (cut : Nat) | cutCoppiced (cut : Nat) | cutRefell (cut : Nat) | cutAttach (cut : Nat) | cutSettle (cut : Nat) | cutEmpty (cut : Nat) | cutShare (cut : Nat)
  deriving DecidableEq, Repr

/-- The cut whose cut-map entry a commit changes; none for the commit word. -/
def CommitKind.cut : CommitKind → Option Nat
  | .cutFelling k | .cutFelled k | .cutMark k | .cutFlip k | .cutBack k | .cutCoppicing k | .cutCoppiced k | .cutRefell k
  | .cutAttach k | .cutSettle k | .cutEmpty k | .cutShare k => some k
  | _ => none

/-- Whether a commit is a claim-checked write. -/
def CommitKind.isWrite : CommitKind → Bool
  | .store _ | .head | .unpark => true
  | _ => false

/-- Whether it only reads the record. -/
def CommitKind.isRead : CommitKind → Bool
  | .copRead | .shardRead _ => true
  | _ => false

/-- Whether a commit changes the commit word. -/
def CommitKind.isWord (k : CommitKind) : Bool := k.cut.isNone && !k.isWrite && !k.isRead

/-- Whether a commit is part of a step or chunk, which waits for its answer (R45, R210). -/
def CommitKind.ofStep : CommitKind → Bool
  | .token | .commitSpec | .prefill | .decode => true
  | _ => false

/-- An ATOMIC of the controller's own at a record home, in the fields of R339 to R343: AOP, OFFSET in the region of the record, OPERAND1, OPERAND2 and the payload. Its WIDTH is 0x3. -/
structure RecReq where
  aop : Nat
  off : Nat
  op1 : Nat
  op2 : Nat
  payload : List Byte
  deriving DecidableEq, Repr

/-- Where a commit stands (R45): it waits for an earlier commit of its request, its claim-checked writes are being stored, or its compare-and-set has been sent. -/
inductive CommitStage where
  | waiting
  | storing (left : Nat)
  | sent
  deriving DecidableEq, Repr

/-- A commit in flight: an atomic the controller sends to a record home and whose answer has not come. `handle` is the context's; for a RECOVER there is none yet and `record` says where the record lies. `stores` are the bytes to be stored by claim-checked writes before it, by offset; `gen` is the claim generation it is sent under; `tried` says that the compare-and-set or write itself has gone out, `reread` that the word or entry is being read; `slot` is the slot, with its home, that a change to EMPTY lets go (R163). -/
structure Commit where
  kind : CommitKind
  handle : Nat
  record : RecLoc
  gen : Nat
  expected : Nat
  new : Nat
  tokens : List Nat
  stores : List (Nat × List Byte)
  bytes : List Byte
  off : Nat
  cmd : Option (Nat × Cmd)
  stage : CommitStage
  tried : Bool
  reread : Bool
  slot : Option (Nat × SlotName)
  deriving DecidableEq, Repr

/-- A request context (R39, R40) and the scheduler's own state of the request (SCHED_STATE). `cop` marks the working context of a coppice job of this node, which no command names (R84); `openWait` says that the open cut waits to be rebuilt (R56), `coppicing` that COPPICE_DONE is awaited (R85), `autoResume` that a resume of the scheduler's own is under way (R188). `fillWait` says that a chunk waits for the context to be filled (R33); `pulled` are the local slots, as (cut, slot, ring), that hold pulled cuts whose homes are still the sender's (R50). `committed` and `committedLen` are the phase and TLOG_LEN the record's commit word last showed; `log` and `cuts` are the owner's view of the token log and cut map. -/
structure Ctx where
  handle : Nat
  homeNode : Nat
  mapEpoch : Nat
  resumeAdmitted : Bool
  model : Nat
  tenant : Nat
  endReason : Nat
  deterministic : Bool
  lclass : Nat
  recovered : Bool
  resumeDecode : Bool
  released : Bool
  taken : Bool
  owner : Bool
  phase : Phase
  adapter : Nat
  peerNode : Nat
  peerHandle : Nat
  hseq : Nat
  recNode : Nat
  claimGen : Nat
  recKey : Nat
  recOffset : Nat
  tlogLen : Nat
  promptLen : Nat
  kvLen : Nat
  maxNew : Nat
  cutCount : Nat
  openFill : Nat
  tentCount : Nat
  tentRoot : Nat
  admitTime : Nat
  firstTime : Nat
  lastTime : Nat
  hostCq : Nat
  recoverId : Nat
  userTag : Nat
  counters : List Nat
  -- the scheduler's own state
  hasRecord : Bool
  committed : Phase
  committedLen : Nat
  log : List Nat
  cuts : List CutEntry
  stepBusy : Bool
  relWritten : Bool
  layer : Nat
  chunkLen : Nat
  lookupBusy : Bool
  handoffNode : Nat
  pd : Nat
  trailInsert : Bool
  noLookup : Bool
  selfPaused : Bool
  autoResume : Bool
  pausedAt : Nat
  pausePending : Option (Option Cmd)
  cancelPending : Option Cmd
  handoffTries : Nat
  unresolved : Bool
  verifyN : Nat
  verifyTree : List Nat
  verifyDone : Bool
  verifyCmd : Option Cmd
  handoffSent : Nat
  needCoppice : List Nat
  coppiceNode : Nat
  coppiceTries : Nat
  coppiceSent : Nat
  coppiceCmd : Option (Nat × Cmd)
  openSlot : Option Nat
  tentSlot : Option Nat
  ahead : List Nat
  reportedUpTo : Nat
  resumeWait : Option (Nat × Option Cmd)
  migrateWait : Option (Nat × Option Cmd)
  chunkDone : Bool
  fillWait : Bool
  pulled : List (Nat × Nat × Nat)
  pdPosted : Bool
  cop : Bool
  openWait : Bool
  coppicing : Bool
  seq : Nat
  deriving DecidableEq, Repr

/-- An admission waiting in its class's queue (R173): the command, the descriptor of R510 and its time of arrival. -/
structure Admission where
  cmd : Cmd
  desc : List Byte
  time : Nat
  counted : Bool
  deriving DecidableEq, Repr

/-- A model descriptor of R169. -/
structure Model where
  layers : Nat
  qHeads : Nat
  kvHeads : Nat
  hdim : Nat
  format : Nat
  groups : Nat
  sinks : Nat
  window : Nat
  smScale : Nat
  end0 : Nat
  end1 : Nat
  deriving DecidableEq, Repr

/-- An identifier pool: the ring count of each index ever used, the free indices released (oldest first) with the time each may be used again, and the next index never used (R28, R30). -/
structure IdPool where
  ring : AMap Nat
  released : List (Nat × Nat)
  fresh : Nat
  deriving DecidableEq, Repr

def IdPool.reset : IdPool := ⟨[], [], 0⟩

/-- A spill slot in use (R35, R36), `busy` while an UNPARK of it is under way: its ring count and the context with the ticket it was sealed under and the 320 bytes written, and the wrapping epoch its spill key came from (R465). -/
structure Spill where
  ring : Nat
  ctx : Ctx
  ticket : Nat
  image : List Byte
  epoch : Nat
  busy : Bool
  deriving DecidableEq, Repr

/-- The scheduler: contexts by index with their identifiers, consumed contexts by handle whose cut-map entries are still being released (R49, R163), the context cache (indices resident, least recently used first, fills in progress, and those of them counted as waiting for an unpinned entry, R33), the admission queues by class, models, commits in flight, spill slots, and what risk evaluation keeps. -/
structure Sch where
  ctxs : AMap Ctx
  ghosts : AMap Ctx
  ids : IdPool
  cache : List Nat
  filling : List Nat
  setWait : List Nat
  queues : AMap (List Admission)
  models : AMap Model
  commits : AMap Commit
  nextCommit : Nat
  spill : AMap Spill
  spillIds : IdPool
  clearRuns : Nat
  nextPause : Nat
  deriving DecidableEq, Repr

def Sch.reset : Sch :=
  { ctxs := [], ghosts := [], ids := IdPool.reset, cache := [], filling := [], setWait := [], queues := [], models := [], commits := [], nextCommit := 0,
    spill := [], spillIds := IdPool.reset, clearRuns := 0, nextPause := 0 }

/-- What a cut slot of a pool is (R76, R162, R202): allocated with its hold count, reserved for a move or moved out, each of these two under a lease with the record and cut it belongs to. -/
structure CutSlot where
  reserved : Bool
  movedOut : Bool
  holds : Nat
  lease : Nat
  record : RecLoc
  cut : Nat
  claimGen : Nat
  deriving DecidableEq, Repr

/-- One slice group of a cut pool (R74, R75): its slot numbers and the slots in use. -/
structure CutGroup where
  ids : IdPool
  slots : AMap CutSlot
  deriving DecidableEq, Repr

/-- A cut pool (R75): the 96-byte descriptor's fields and the slice groups. `spare` keeps groups that an earlier declaration had beyond these, whose slots keep their ring counts (R28). -/
structure Pool where
  model : Nat
  format : Nat
  hdim : Nat
  layers : Nat
  kvHeads : Nat
  tier : Nat
  slices : Nat
  bases : List Nat
  groups : List CutGroup
  spare : List CutGroup
  deriving DecidableEq, Repr

/-- A placement descriptor (R198). -/
structure Pd where
  lowerEn : Bool
  targets : Nat
  start : Nat
  run : Nat
  lowerNode : Nat
  lowerPool : Nat
  target : List (Nat × Nat)
  deriving DecidableEq, Repr

/-- Where a move of one cut stands (R202): `writing` is a copy to a slot of this node whose parity deltas are still out (R383). -/
inductive MoveStage where
  | reserving | marking | copying | writing | flipping | grace
  deriving DecidableEq, Repr

/-- A move of one cut in progress at its owner (R202): destination, the target index tried and the descriptor the cut is placed by (R199, R200), the reserved slot, the entry's old value, and when the grace period ends. -/
structure Move where
  handle : Nat
  cut : Nat
  node : Nat
  pool : Nat
  tries : Nat
  pd : Option Pd
  group : Nat
  slot : Nat
  ring : Nat
  old : CutEntry
  stage : MoveStage
  deadline : Nat
  fell : Bool
  job : Bool
  deriving DecidableEq, Repr

/-- A MOVE command under way (R201): the cuts still to move, those moved, and whether a refusal stopped it. -/
structure MoveJob where
  cmd : Cmd
  handle : Nat
  todo : List Nat
  node : Nat
  pool : Nat
  moved : Nat
  stopped : Option (Nat × Nat)
  deriving DecidableEq, Repr

/-- A FELL, FELL_CUT or felling-policy pick under way: the cuts still to reach FELLED, those felled, and the command that waits. -/
structure FellJob where
  handle : Nat
  todo : List Nat
  felled : Nat
  cmd : Option (Nat × Cmd)
  deriving DecidableEq, Repr

/-- A stall of a request (R211, R212): its cause when it began, since when, whether its completion was posted, and the causes that hold now. -/
structure Stall where
  handle : Nat
  cause : Nat
  since : Nat
  reported : Bool
  causes : List Nat
  deriving DecidableEq, Repr

/-- A felling pass (R214, R215): the bytes it aims at, those it has freed or moved, and its pick: the request, the lower pool its cuts move to (R216), the cuts whose moves have not begun, and those not yet freed, moved or given up. -/
structure FellPass where
  target : Nat
  freed : Nat
  handle : Nat
  node : Nat
  pool : Nat
  todo : List Nat
  out : List Nat
  deriving DecidableEq, Repr

/-- A local slot in use (R197): the bytes it takes on each stack and where they begin in that stack's local area. -/
structure LocalSlot where
  bytes : List Nat
  offs : List Nat
  deriving DecidableEq, Repr

/-- Where a coppice job stands (R84): the record is being read, slots are being taken for the cuts of a chunk, the chunk runs, its cuts are being written and flipped. -/
inductive CopStage where
  | reading | gathering | running | writing
  deriving DecidableEq, Repr

/-- A coppice job at the coppice node (R84): the owner's message, the handle of the job's working context (0 for none), the entries of the cut map as the job knows them, the cuts still to do, how many the chunk in hand takes, those that have a slot, those that met a full pool, and whether the chunk is the open cut's. -/
structure CopJob where
  msg : CoppiceMsg
  stage : CopStage
  ctx : Nat
  entries : List CutEntry
  todo : List Nat
  want : Nat
  run : List (Nat × SlotName)
  full : List Nat
  tail : Bool
  deriving DecidableEq, Repr

/-- The tier manager's own state (spec/03, spec/08): pools, local slots, freed local slots in fallow with the time it ends, the leases of local slots moved out (R204), moves, felling, stalls, coppice jobs held here. -/
structure Tir where
  pools : AMap Pool
  localIds : IdPool
  localSlots : AMap LocalSlot
  localFallow : List (LocalSlot × Nat)
  localOut : AMap Nat
  moves : List Move
  moveJobs : List MoveJob
  fellJobs : List FellJob
  pass : Option FellPass
  stalls : List Stall
  placeRetry : List (Nat × Nat × Nat)
  copJobs : List CopJob
  deriving DecidableEq, Repr

def Tir.reset : Tir := ⟨[], IdPool.reset, [], [], [], [], [], [], none, [], [], []⟩

end Sys2Proof.Machine
end

