-- ==== Sys2Proof/Machine/Types/Store.lean ====
section
/-! DEFINITION. The state of the codec's tables, adapters and stream readers (spec/09) and of the trail index (spec/06). -/

namespace Sys2Proof.Machine

/-- A codec table slot (R231 to R233): its kind and model, which buffer is current, and version, length and CRC-32C of the body in each buffer with the users counted against it. -/
structure TblSlot where
  kind : Nat
  model : Nat
  curBuf : Nat
  curVer : Nat
  curLen : Nat
  curCrc : Nat
  curUsers : Nat
  otherVer : Nat
  otherLen : Nat
  otherUsers : Nat
  loading : Bool
  deriving DecidableEq, Repr

/-- The states of an adapter slot (R235). -/
inductive AdpState where
  | loading | current | held | draining
  deriving DecidableEq, Repr

/-- An adapter slot (R235): the adapter word, its extent in units of 2 MiB, each layer's stored stream as (offset in the extent, bytes), and the contexts and EXPANDs that pin it. -/
structure AdpSlot where
  word : Nat
  state : AdpState
  base : Nat
  size : Nat
  layers : List (Nat × Nat)
  pins : Nat
  deriving DecidableEq, Repr

/-- What a stream reader reads for (R228, R232, R236). -/
inductive StreamUse where
  | expand | table | adapter
  deriving DecidableEq, Repr

/-- A block of an EXPAND handed to the codec (R229): its place in the plaintext body and whether it has been written. -/
structure XBlock where
  start : Nat
  len : Nat
  written : Bool
  deriving DecidableEq, Repr

/-- A command that reads stored streams (R223): its descriptor; the layer read now and, for ADAPTER_LOAD, the headers gathered and the streams copied; the header of the stream in hand, its next segment, the tag before it, the parts of the piece in hand that are read again (pages 0 to 15, 16 the record or header; R223), the authenticated plaintext, the stored bytes; a segment that waits for a key fill; how far blocks have been scanned, the blocks, the rectangles they cover, the table buffers resolved (slot, buffer), the adapter slot loaded or pinned, and the CRC of the current table that a TABLE_LOAD of its version compares with. -/
structure StreamJob where
  op : Nat
  cmd : Cmd
  use : StreamUse
  desc : List Byte
  layer : Nat
  heads : List (List Byte)
  copied : List (List Byte)
  hdr : List Byte
  seg : Nat
  prevTag : List Byte
  retried : List Nat
  plain : List Byte
  stored : List Byte
  held : Option (List Byte)
  scanned : Nat
  blocks : List XBlock
  seen : List (Nat × Nat × Nat × Nat)
  users : List (Nat × Nat)
  adp : Option Nat
  same : Option Nat
  deriving DecidableEq, Repr

/-- The codec's chip-level state; `openBolts` gives for each open bolt, by its address, the table slot and buffer that hold the profile version its header names (R65, R233); `expBytes` counts bytes written by EXPAND. -/
structure Cdc where
  tables : AMap TblSlot
  adps : AMap AdpSlot
  jobs : AMap StreamJob
  nextJob : Nat
  openBolts : AMap (Nat × Nat)
  expBytes : Nat
  deriving DecidableEq, Repr

def Cdc.reset : Cdc := ⟨[], [], [], 0, [], 0⟩

/-- A valid blaze entry (R149). -/
structure BlazeEntry where
  key : Nat
  ring : Nat
  record : Nat
  deriving DecidableEq, Repr

/-- What a lookup is for: a request's admission, or a LOOKUP probe (R160, R165). -/
inductive LookupFor where
  | request (handle : Nat)
  | probe (c : Cmd)
  deriving DecidableEq, Repr

/-- A lookup in flight (R160, R166): its result, when it was issued and what it searched. -/
structure Lookup where
  purpose : LookupFor
  cls : Nat
  cuts : List CutEntry
  searchable : Nat
  detail : Nat
  issued : Nat
  deriving DecidableEq, Repr

/-- What HOLDs were sent for: attaching a hit (R161), publishing blocks (R154), inserting into a tree (R158). -/
inductive HoldUse where
  | attach | publish | insert
  deriving DecidableEq, Repr

/-- Work of the trail index that waits for holds or entry changes: for an attach the cuts of the hit and which holds were answered OK; for a publication or insertion the block reached, the number of blocks, and for an insertion the node it hangs from. -/
structure HoldJob where
  use : HoldUse
  handle : Nat
  cmd : Option (Nat × Cmd)
  cuts : List CutEntry
  answers : List (Option Bool)
  block : Nat
  count : Nat
  node : Nat
  set : Nat
  refused : Nat × Nat
  deriving DecidableEq, Repr

/-- A tree operation that waits for the one of its tenant under way (R158): an insertion of a request's cuts, or a TRAIL_REMOVE. -/
structure TreeWait where
  tenant : Nat
  handle : Nat
  cmd : Option (Nat × Cmd)
  remove : Bool
  deriving DecidableEq, Repr

/-- The trail index: the operator prefix key, the blaze table by way (16 × set + way), the ring counts of its records, what each tree slot in use is (1 a node, 2 a child extension, 3 a root), the slice group of each node's cut (R76; log 150), nodes per tenant, the eviction hand, lookups, hold jobs, the tree operations that wait for their tenant, the temperature step, and the pipe slots withheld beyond the last whole 1,024 (R153). -/
structure Trl where
  key : Option (List Byte)
  blaze : AMap BlazeEntry
  recIds : IdPool
  treeUse : AMap Nat
  treeGroup : AMap Nat
  treeCount : AMap Nat
  hand : Nat
  lookups : AMap Lookup
  nextLookup : Nat
  jobs : AMap HoldJob
  nextJob : Nat
  waiting : List TreeWait
  step : Nat
  withheld : Nat
  deriving DecidableEq, Repr

def Trl.reset : Trl :=
  { key := none, blaze := [], recIds := IdPool.reset, treeUse := [], treeGroup := [], treeCount := [], hand := 0,
    lookups := [], nextLookup := 0, jobs := [], nextJob := 0, waiting := [], step := 0, withheld := 0 }

end Sys2Proof.Machine
end

