-- ==== Sys2Proof/Machine/Types/Stand.lean ====
section
/-! DEFINITION. The state of tasks, frames and engines (spec/07, spec/10, spec/11, spec/04). -/

namespace Sys2Proof.Machine

/-- A task (R176, R178, R245): its task record with JOB_TAG and FRAME still zero, home column, cost, class, arbiter input, since when it waits, whether it stands at the head of its ready list, the rows of its shard that its partial rows are, its KV heads in order, the shard, the ATTEND or the EXPAND block it serves, FLOW of its job tag (R251), the stand that holds it, the part of a request's own layer it computes, whether bolts of it lie in T2 and have not been gathered (R210), whether it waits for a bolt that could not be read (R73, R209), and whether a sequencer error has placed it again (R261). -/
structure Task where
  kind : Nat
  handle : Nat
  layer : Nat
  col : Nat
  cost : Nat
  lclass : Nat
  flowKey : Nat
  since : Nat
  front : Bool
  record : List Byte
  rowIdx : List Nat
  heads : List Nat
  shard : Nat
  attend : Option Nat
  expand : Option (Nat × Nat)
  flow : Nat
  stand : Option Nat
  counted : Bool
  part : Option Nat
  late : Bool
  held : Bool
  erred : Bool
  deriving DecidableEq, Repr

/-- The register files of a frame (R248). Unlisted registers hold zero; vector lane i of v n is listed at 64 × n + i. -/
structure Files where
  sc : AMap Word64
  ad : AMap Word32
  pr : AMap Bool
  ve : AMap Word32
  deriving DecidableEq, Repr

/-- The three engines of a stand (R249). -/
inductive Engine where
  | att | cdc | mov
  deriving DecidableEq, Repr

/-- A frame (R241, R246 to R258). `files` is what sources read in the bundle now issuing, `next` what its slots have written, `stores` the deck bytes they will store (C slot 0, V slot 3); `target` is where a branch of this bundle goes; `slotsRun` the slots that have acted. `issued` counts the commands issued to the attention, codec and mover engines, and `before` as they stood when the bundle issued (R283); `withdrawing` says that the frame only waits for its commands in execution to stop (R260); `done` holds the outcome of finished commands by engine and ticket, `saved` says that the save area holds the registers. -/
structure Frame where
  task : Nat
  jobTag : Nat
  files : Files
  next : Files
  stores : List (Nat × Nat × List Byte)
  pc : Nat
  target : Option Nat
  slotsRun : List Nat
  issued : Nat × Nat × Nat
  before : Nat × Nat × Nat
  done : AMap (Nat × Nat)
  halted : Option (Nat × Nat)
  withdrawing : Bool
  saved : Bool
  deriving DecidableEq, Repr

/-- A row of online softmax (R106). -/
structure SRow where
  m : Word32
  l : Word32
  o : List Word32
  poisoned : Bool
  deriving DecidableEq, Repr

/-- What an engine command does: an attention descriptor (R92), a tile instruction (R279, R280), a codec descriptor (R255), or a mover operation with its operands (R253). -/
inductive CmdBody where
  | attention (desc : List Byte)
  | tile (code td ta tb n : Nat)
  | codec (desc : List Byte)
  | mover (code : Nat) (deckD deckS ext n : Nat)
  deriving DecidableEq, Repr

/-- A command in an engine queue (R249 to R252): frame, ticket, tag, body, when it became ready, its progress (whether it has started, the next tile or mover segment, its rows' state, and how many rows were poisoned at its start), the deck bytes of its window that later stores of its frame have replaced, by offset (R250), and whether a parity error has made it run again (R116). -/
structure EngCmd where
  frame : Nat
  ticket : Nat
  jobTag : Nat
  body : CmdBody
  since : Nat
  started : Bool
  tile : Nat
  rows : List SRow
  preNan : Nat
  kept : AMap Byte
  retried : Bool
  deriving DecidableEq, Repr

/-- What a column's sequencers keep of a loaded image (R262, R264): header fields, the bundles in instruction memory, and the ENTRY table. -/
structure Image where
  id : Nat
  version : Nat
  roles : Nat
  code : List Nat
  entries : List Nat
  deriving DecidableEq, Repr

/-- A stand: the DEPTH in force, frames, the running frame and since when, the frame that ran last, the queues in order, deck contents, the loaded image, the attention and the codec engine's arbiters, the lines of instruction memory that have been refetched (R261), error state of the attention and codec queues, and the array cycles issued and withheld. -/
structure Stand where
  depth : Nat
  frames : AMap Frame
  running : Option Nat
  since : Nat
  last : Nat
  att : List EngCmd
  cdc : List EngCmd
  mov : List EngCmd
  attErr : Bool
  cdcErr : Bool
  deck : Memory
  image : Option Image
  arb : Arb
  cdcArb : Arb
  badLines : List Nat
  attCycles : Nat
  heldCycles : Nat
  deriving DecidableEq, Repr

def Stand.reset : Stand :=
  { depth := 2, frames := [], running := none, since := 0, last := 3, att := [], cdc := [], mov := [], attErr := false, cdcErr := false,
    deck := [], image := none, arb := Arb.empty, cdcArb := Arb.empty, badLines := [], attCycles := 0, heldCycles := 0 }

end Sys2Proof.Machine
end

