-- ==== Sys2Proof/Machine/Types/Xch.lean ====
section
/-! DEFINITION. The state of exchange windows (spec/16), step-layers, merge slots and shards (spec/05). -/

namespace Sys2Proof.Machine

/-- A release or withdrawal that waits to be written as a record (R402 to R404), whether it was counted as waiting, and the class and USER_TAG it carries. -/
structure Release where
  handle : Nat
  kind : Nat
  pos0 : Nat
  count : Nat
  counted : Bool
  lclass : Nat
  tag : Nat
  deriving DecidableEq, Repr

/-- An entry of a slot use (R405, R408): RESULT once it has one. -/
structure SlotEntry where
  handle : Nat
  pos0 : Nat
  count : Nat
  row0 : Nat
  result : Option (Nat × Nat)
  deriving DecidableEq, Repr

/-- A slot use accepted and not yet flagged (R406 to R410): its header bytes, entries, the EXPANDs its flag waits for, and whether one failed. `badEntries` is FAILED of a refused header. -/
structure SlotUse where
  slot : Nat
  seq : Nat
  hdr : List Byte
  bad : Bool
  entries : List SlotEntry
  fences : List Nat
  weightFail : Bool
  counted : Bool
  deriving DecidableEq, Repr

/-- An exchange window (R398, R402, R403, R406): 64-bit counts, requests bound, releases waiting, and slot uses in flight by slot. -/
structure XWin where
  rcount : Nat
  rhead : Nat
  dcount : Nat
  bound : List Nat
  waiting : List Release
  uses : AMap SlotUse
  deriving DecidableEq, Repr

def XWin.reset : XWin := ⟨0, 0, 0, [], [], []⟩

/-- How a shard of a step-layer is being served (R132 to R136); `reading` while its cut-map entries are read again. -/
inductive Serve where
  | home | fetch | backup | here | lost | reading
  deriving DecidableEq, Repr

/-- A shard of a step-layer (R118): index, home, cut numbers, when its ATTEND went out, how it is served now, whether a backup was sent or denied, whether it has contributed, when a lost one is tried again, and for one computed here the part that computes it. -/
structure Shard where
  index : Nat
  home : Nat
  cuts : List Nat
  sent : Nat
  serve : Serve
  backedUp : Bool
  denied : Bool
  arrived : Bool
  retryAt : Nat
  part : Option Nat
  deriving DecidableEq, Repr

/-- Where a layer in progress stands (R120, R126, R181): writing keys and values, waiting for a merge slot, or attending. -/
inductive LayerStage where
  | writing | waitSlot | attending
  deriving DecidableEq, Repr

/-- A layer of a request in progress (R118 to R131, R409): the window, slot and entry it came in, its query positions, FORMATS, parent table, its merge slot (none for a prefill chunk), its shards and the tasks that write its keys and values. -/
structure StepLayer where
  handle : Nat
  layer : Nat
  kind : Nat
  window : Nat
  slot : Nat
  entry : Nat
  row0 : Nat
  pos0 : Nat
  count : Nat
  formats : Nat
  tree : List Nat
  stage : LayerStage
  merge : Option Nat
  det : Bool
  shards : List Shard
  kvTasks : List Nat
  deriving DecidableEq, Repr

/-- A shard, or the layer of a prefill chunk, that this node computes for a request of its own (R118, R123, R127): the handle, layer and shard, the merge slot and its use count (none for a prefill chunk), its query rows, the tasks it still waits for, and the rows they have delivered. It outlives its layer where another source of the shard was faster. -/
structure Part where
  handle : Nat
  layer : Nat
  shard : Nat
  merge : Option (Nat × Nat)
  rows : Nat
  tasks : List Nat
  got : AMap (List Byte)
  sent : Bool
  deriving DecidableEq, Repr

/-- Bolts of one layer of one cut in a working buffer (R207, R208): the node and handle of the request they are for, the layer and cut, the entry value they were fetched under, where each KV head's bolt lies, the bytes taken on each stack of the staging part of the local area with their offsets (none for a buffer in the landing), and the read that is to bring them. -/
structure Staged where
  node : Nat
  handle : Nat
  layer : Nat
  cut : Nat
  entry : CutEntry
  addrs : List Nat
  space : LocalSlot
  read : Option Nat
  deriving DecidableEq, Repr

/-- A merge slot in use (R124 to R131). Its header and rows stand in memory. -/
structure MSlot where
  use : Nat
  layer : Nat
  handle : Nat
  rows : Nat
  d : Nat
  det : Bool
  expect : Nat
  arrived : List Nat
  deriving DecidableEq, Repr

/-- An ATTEND this node computes (R122, R123): the message, its model's geometry, the tasks it still waits for, the rows they have delivered, the first failure, and since when it stalls for bolts in T2 (R210). -/
structure Serving where
  msg : AttendMsg
  tasks : List Nat
  got : AMap (List Byte)
  sent : Bool
  failed : Option (Nat × Nat)
  late : Option Nat
  deriving DecidableEq, Repr

/-- What a read of the controller's own is for (R132, R207, R223): staged bolts of a request, a stored stream, or the parity unit of a reconstruction (R385). -/
inductive ReadUse where
  | staged (handle layer : Nat)
  | stream (job : Nat)
  | unit (unit lost : Nat)
  deriving DecidableEq, Repr

/-- A read of the controller's own in flight: what for, where its bytes go, and how many. -/
structure OwnRead where
  use : ReadUse
  dst : Nat
  len : Nat
  deriving DecidableEq, Repr

/-- Exchange and split attention: windows, step-layers by handle, accepted layers that wait for the one before them, merge slots in use with the last use count of each, homes marked fetched until when, backup credit in 1/10,000, ATTENDs being served, tasks by number, stands, the chip arbiter and the arbiters beneath it, the column arbiters (stack k's under 16k + 15, that of its input i under 16k + i, R22), the window each handle is bound to, releases that found no window (R401), the shards computed here, staged bolts, the prefetches that full staging holds back (node, handle and layer), and by handle the cuts that keep their old home until the step ends, with that home (R133). -/
structure Xch where
  wins : AMap XWin
  layers : AMap StepLayer
  queuedLayers : List StepLayer
  merges : AMap MSlot
  uses : AMap Nat
  fetched : AMap Nat
  credit : Nat
  serving : AMap Serving
  nextServe : Nat
  tasks : AMap Task
  nextTask : Nat
  reads : AMap OwnRead
  nextRead : Nat
  arb : Arb
  subArbs : AMap Arb
  colArbs : AMap Arb
  stands : AMap Stand
  boundTo : AMap Nat
  unbound : List Release
  parts : AMap Part
  nextPart : Nat
  staged : List Staged
  stageHeld : List (Nat × Nat × Nat)
  regroup : AMap (List (Nat × Nat))
  deriving DecidableEq, Repr

def Xch.reset : Xch :=
  { wins := [], layers := [], queuedLayers := [], merges := [], uses := [], fetched := [], credit := 640000, serving := [], nextServe := 0,
    tasks := [], nextTask := 0, reads := [], nextRead := 0, arb := Arb.empty, subArbs := [], colArbs := [], stands := [], boundTo := [], unbound := [], parts := [], nextPart := 0, staged := [], stageHeld := [], regroup := [] }

end Sys2Proof.Machine
end

