-- ==== Sys2Proof/Machine/Types/Rm.lean ====
section
/-! DEFINITION. The state of remote memory (spec/13): regions, leases, hot lines, atomic results, multicasts in progress. -/

namespace Sys2Proof.Machine

/-- A region (R331): the entry's fields, whether it is closing and since when, the work requests begun in it and not ended (queue-pair index, message number), and the REGION_DEREGs that wait for it. -/
structure Region where
  key : Nat
  closing : Bool
  closedAt : Nat
  access : Nat
  kind : Nat
  base : Nat
  length : Nat
  tenant : Nat
  fn : Nat
  snagAddr : Nat
  dirKey : Nat
  dirIndex : Nat
  userTag : Nat
  openWrs : List (Nat × Nat)
  dereg : List Cmd
  deriving DecidableEq, Repr

/-- A write lease (R355): its ID, region index, first line, lines, lessee, and when its term began. -/
structure Lease where
  id : Nat
  region : Nat
  line : Nat
  count : Nat
  lessee : Nat
  since : Nat
  deriving DecidableEq, Repr

/-- An entry of an atomic result ring (R344), oldest first in its ring. -/
structure ArcEnt where
  psn : Nat
  status : Nat
  detail : Nat
  result : Nat
  time : Nat
  deriving DecidableEq, Repr

/-- A line in the combining table (R352): its latest operation and its 64 bytes. -/
structure HotLine where
  at_ : Nat
  bytes : List Byte
  deriving DecidableEq, Repr

/-- Who waits for a multicast (R349, R351): the work request `ord` of queue pair `qp` that the root posted, or packet `psn` that queue pair `qp` received. -/
inductive McastFor where
  | root (qp ord : Nat)
  | packet (qp psn : Nat)
  deriving DecidableEq, Repr

/-- A multicast packet in progress at a node (R351): who waits, the outcome of the local write, the deltas it waits for, and the outcome of each branch in CHILD_QP order. -/
structure Mcast where
  owner : McastFor
  bytes : Nat
  loc : Nat × Nat
  deltas : List Nat
  branches : List (Option (Nat × Nat))
  deriving DecidableEq, Repr

/-- Remote memory: regions by index, leases by index, atomic result rings by ring number, the hot-line detector's window and counters, the lines in the combining table by address / 64, lines that met a detected error, and multicasts. -/
structure Rm where
  regions : AMap Region
  ids : IdPool
  leases : AMap Lease
  leaseIds : IdPool
  arc : AMap (List ArcEnt)
  hotWindow : Nat
  hotCount : AMap Nat
  hot : AMap HotLine
  hotBad : List Nat
  mcasts : AMap Mcast
  nextMcast : Nat
  deriving DecidableEq, Repr

def Rm.reset : Rm :=
  { regions := [], ids := IdPool.reset, leases := [], leaseIds := IdPool.reset, arc := [], hotWindow := 0, hotCount := [], hot := [],
    hotBad := [], mcasts := [], nextMcast := 0 }

end Sys2Proof.Machine
end

