-- ==== Sys2Proof/Machine/Types/Cwt.lean ====
section
/-! DEFINITION. The state of Celwald transport (spec/12) and of shaping and queue observation (spec/14). -/

namespace Sys2Proof.Machine

/-- The states of a queue pair (R302). -/
inductive QpState where
  | reset | ready | draining | error
  deriving DecidableEq, Repr

/-- A work request in a send stream (R303, R320, R350): its place in posting order, when it became ready, the 64 bytes, the data and extension of a multicast forward with the multicast it serves and the message it forwards (the root's request, or the queue pair and message number the packet came on), whether it has started, the bytes handed to packets, whether all have been, payload bytes acknowledged as performed, the status and detail that end it early, the RESULT, and its message number. -/
structure SendWr where
  ord : Nat
  time : Nat
  wr : List Byte
  fwd : Option (Nat × Nat)
  fwdOf : Option McastFor
  fwdFlags : Nat
  fwdExt : List Byte
  data : List Byte
  started : Bool
  next : Nat
  allSent : Bool
  sentAny : Bool
  bytes : Nat
  failed : Option (Nat × Nat)
  result : Nat
  msg : Nat
  deriving DecidableEq, Repr

/-- A packet sent and not yet acknowledged (R313, R317): its PSN and how many PSNs it takes (more than one for a READ_REQ), opcode, flags, the work request's place and the packet's bytes in it, credit units, ATTEMPT, path last used, first and last transmission, doublings of its RTO, whether it is due again, whether a SACK covers it, whether it waits for a grant, when an answer RNR ends, for a READ_REQ the PSNs answered, and for an ATOMIC how many were sent before it (R346). -/
structure TxPkt where
  psn : Nat
  n : Nat
  op : Nat
  flags : Nat
  ord : Nat
  off : Nat
  len : Nat
  units : Nat
  attempt : Nat
  path : Nat
  first : Nat
  last : Nat
  doublings : Nat
  due : Bool
  dueAt : Nat
  sacked : Bool
  creditWait : Bool
  rnrAt : Option Nat
  rnrSeen : Bool
  got : List Nat
  atom : Nat
  deriving DecidableEq, Repr

/-- A response that waits to be sent (R367): opcode, PSN, extension, payload and when it became ready. -/
structure TxResp where
  op : Nat
  psn : Nat
  ext : List Byte
  payload : List Byte
  since : Nat
  deriving DecidableEq, Repr

/-- The answer an operation ends with at its home (R334): performed, or refused with a status and detail; for an ATOMIC its status, detail and result. -/
inductive Answer where
  | ok
  | refused (status detail : Nat)
  | atomic (status detail result : Nat)
  deriving DecidableEq, Repr

/-- Where an accepted packet stands at the receiver (R318, R319): waiting to be performed, held from it by a unit or a bandwidth class (R385, R388, R393), waiting for the parity deltas of its write (R383), waiting for its branches (R351), or performed. -/
inductive RxStage where
  | waiting
  | held
  | acking (deltas : List Nat) (ans : Answer)
  | branching (mcast : Nat)
  | done
  deriving DecidableEq, Repr

/-- A packet accepted at or beyond RCV_NXT (R318): how many PSNs it takes, opcode, the packet with its payload in the clear, its units, when it arrived and its place in the order of arrival (R338), and its stage. -/
structure RxPkt where
  psn : Nat
  n : Nat
  op : Nat
  pkt : Packet
  units : Nat
  time : Nat
  ord : Nat
  stage : RxStage
  deriving DecidableEq, Repr

/-- A message of SEND packets being received (R505): its number, next PSN, the buffer, its length, the bytes so far, and whether it has run beyond the buffer. -/
structure RecvMsg where
  msg : Nat
  next : Nat
  buf : Nat
  len : Nat
  got : Nat
  bad : Bool
  deriving DecidableEq, Repr

/-- A queue pair (R301): the fields of its context, and the controller's TX_STATE: among it the place in posting order and the time of the entries posted and not taken, the repeated READ_REQs that wait to be performed again with their places in the order of arrival (R316), how often the response of a PSN has been sent (R293), the ATOMICs sent (R346), and the message number of each multicast message being forwarded on it (R350). -/
structure Qp where
  qpn : Nat
  state : QpState
  mode : Nat
  domain : Nat
  dscp : Nat
  peerNode : Nat
  maxRd : Nat
  sqLog2 : Nat
  peerQp : Nat
  tenant : Nat
  keySlot : Nat
  fn : Nat
  cq : Nat
  rq : Nat
  sqAddr : Nat
  sqHead : Nat
  sqTail : Nat
  sndNxt : Nat
  sndUna : Nat
  sndUsed : Nat
  sndLimit : Nat
  rcvNxt : Nat
  rcvUnits : Nat
  rcvWindow : Nat
  rcvLimit : Nat
  srtt : Nat
  rttvar : Nat
  unaTime : Nat
  counters : List Nat
  userTag : Nat
  errStatus : Nat
  errDetail : Nat
  -- TX_STATE
  cls : Nat
  shaper : Option Nat
  salt : List Byte
  selfNode : Nat
  newSent : Nat
  msgNext : Nat
  posts : List (Nat × Nat)
  stream : List SendWr
  unacked : List TxPkt
  resp : List TxResp
  respSent : AMap Nat
  atomSent : Nat
  fwdMsg : List (McastFor × Nat)
  rx : List RxPkt
  lateReads : List (Nat × Packet)
  counted : List Nat
  recv : List RecvMsg
  begun : List Nat
  freed : Nat
  toAck : Nat
  toAckAt : Nat
  creditAt : Option Nat
  redirected : List (Nat × Nat × Nat)
  arc : Option Nat
  flushedAt : Option Nat
  drainPosted : Bool
  waitSince : Option Nat
  deriving DecidableEq, Repr

/-- A waiting choker (R322): its work request, the function and queue pair it was posted on, its trigger, threshold and posting order. -/
structure Choker where
  wr : List Byte
  qpn : Nat
  fn : Nat
  trig : Nat
  threshold : Nat
  ord : Nat
  deriving DecidableEq, Repr

/-- A packet parked in the miss queue (R325), and whether step 3 of R297 found it old. -/
structure MissPkt where
  op : Nat
  pkt : Packet
  old : Bool
  bytes : Nat
  time : Nat
  deriving DecidableEq, Repr

/-- What waits on a timing wheel (R372, R373): the boundary its slot holds, whether it is on the coarse wheel, and since when. -/
structure WheelEnt where
  wake : Nat
  coarse : Bool
  since : Nat
  deriving DecidableEq, Repr

/-- One bank of a queue observer's histograms (R374 to R377). -/
structure ObsBank where
  depth : List Nat
  delay : List Nat
  maxDepth : Nat
  maxDelay : Nat
  samples : Nat
  deriving DecidableEq, Repr

def ObsBank.clear : ObsBank := ⟨List.replicate 16 0, List.replicate 16 0, 0, 0, 0⟩

/-- A MACsec SA slot of a port (R537): the bytes written, whether it is valid, the next transmit PN and the latest PN accepted. -/
structure SaSlot where
  bytes : List Byte
  valid : Bool
  txPn : Nat
  rxPn : Nat
  deriving DecidableEq, Repr

def SaSlot.empty : SaSlot := ⟨List.replicate 64 0, false, 1, 0⟩

/-- Celwald transport: queue pairs by index, their identifiers, contexts on die (least recently used first) and fetches in progress, the miss queue, path rotors by node, path holds by 32 × node + path, trigger counters, the choker store, the posting order and the order of arrival, the salt each index last used, the egress arbiters by port and by 2^20 × (port + 1) + tenant, queue pairs and shapers on the wheels, from when each shaper that holds a packet back has yet to be charged with it (R368), the cycle in which ports choose: its time, the ports that have chosen, and the TOKENS with which each shaper charged in it began (R370), observers (live at 2 × o, snapshot at 2 × o + 1) with those to clear and the time of the latest sample, the live bins before that sample, what it saw, and the time of the latest snapshot (R377), MACsec slots by 2 × port + number, the ports whose spare lane moves upward and when each spare last moved, by flexible port that is down when it was last tried and its width before, and when an indirect access began. -/
structure Cwt where
  qps : AMap Qp
  ids : IdPool
  resident : List Nat
  fetching : List Nat
  missq : List MissPkt
  rotor : AMap Nat
  holds : AMap Nat
  trig : AMap Nat
  chokers : AMap Choker
  nextOrd : Nat
  nextRx : Nat
  salts : AMap (List Byte)
  arbs : AMap Arb
  wheel : AMap WheelEnt
  shpWheel : AMap Nat
  blocked : AMap Nat
  cycle : Nat × List Nat × AMap Int
  obs : AMap ObsBank
  obsClear : List Nat
  obsAt : Option Nat
  obsPrev : AMap ObsBank
  obsLast : AMap (Nat × Nat)
  obsSnapAt : Option Nat
  sas : AMap SaSlot
  spareUp : List Nat
  spareAt : AMap Nat
  flexDown : AMap (Nat × Nat)
  indAt : AMap Nat
  deriving DecidableEq, Repr

def Cwt.reset : Cwt :=
  { qps := [], ids := IdPool.reset, resident := [], fetching := [], missq := [], rotor := [], holds := [], trig := [], chokers := [],
    nextOrd := 0, nextRx := 0, salts := [], arbs := [], wheel := [], shpWheel := [], blocked := [], cycle := (0, [], []), obs := [], obsClear := [], obsAt := none, obsPrev := [], obsLast := [],
    obsSnapAt := none, sas := [], spareUp := [], spareAt := [], flexDown := [], indAt := [] }

end Sys2Proof.Machine
end

