-- ==== Sys2Proof/Machine/Types/Cp.lean ====
section
/-! DEFINITION. The state of the cache-pool role (spec/15). -/

namespace Sys2Proof.Machine

/-- A message the controller sends another node (or itself) over Celwald. `delta` is a parity delta (R383), `unitLock`, `unitData`, `unitLost` (of a unit that the survivor has itself lost for good, R389), `unitUnlock` and `unitStale` the messages of R385, `resynced` the end of a RESYNC (R384); `atomic` is an ATOMIC of R339 at a record home, in the region `key`: the compare-and-set of the commit word, or a claim-checked write or compare-and-set of R343 (R43, R44, R78); `readWord` reads the commit word or a cut-map entry, with the head, token log and cut map beside it; `attend` carries the body of R121; `home` of an answer is the node that a REDIRECT names, and 0 with any other status, and `redirect` answers a message that has no answer of its own (R15, R425). -/
inductive Msg where
  | atomic (id key : Nat) (req : RecReq)
  | freeRecord (record : RecLoc) (claimGen : Nat)
  | readWord (record : RecLoc) (cut : Option Nat)
  | offer (m : OfferMsg)
  | taken (m : HandMsg)
  | release (m : HandMsg) (word : Nat)
  | releaseAck (m : HandMsg)
  | abort (m : HandMsg)
  | pullTail (handle hseq : Nat)
  | reserve (m : ReserveMsg)
  | reserveAnswer (handle cut : Nat) (status detail : Nat) (n : SlotName) (home : Nat)
  | moveOut (n : SlotName) (record : RecLoc) (cut claimGen : Nat)
  | pullCut (handle cut : Nat) (src dst : CutEntry)
  | confirm (n : SlotName)
  | free (handle cut : Nat) (n : SlotName)
  | freeAck (handle cut : Nat) (status detail home : Nat)
  | hold (id : Nat) (n : SlotName)
  | holdAnswer (id : Nat) (status detail home : Nat)
  | coppice (m : CoppiceMsg)
  | coppiceDone (handle : Nat) (full : List Nat) (status : Nat) (node : Nat) (bolts : List Byte)
  | attend (body : List Byte)
  | shardStatus (m : ShardMsg)
  | lsem (mergeKey slot use layer shard : Nat) (rows : List (List Byte))
  | fetch (read : Nat) (model layer : Nat) (names : List (Nat × SlotName))
  | readRegion (read key off len : Nat)
  | delta (id key off : Nat) (bytes : List Byte)
  | unitLock (unit : Nat)
  | unitData (unit gen : Nat) (dirty : Bool) (bytes : List Byte)
  | unitLost (unit : Nat)
  | unitUnlock (unit gen : Nat)
  | unitStale (unit gen : Nat)
  | resynced
  | redirect (home : Nat)
  deriving DecidableEq, Repr

/-- What a home is asked to do with a cut slot (R76, R162, R202, R204). -/
inductive HomeMsg where
  | free (src handle cut : Nat) (n : SlotName)
  | freeCmd (c : Cmd)
  | hold (src id : Nat) (n : SlotName)
  | reserve (m : ReserveMsg)
  | moveOut (src : Nat) (n : SlotName) (rec : RecLoc) (cut claimGen : Nat)
  | confirm (src : Nat) (n : SlotName)
  | lease (n : SlotName) (e : CutEntry)
  deriving DecidableEq, Repr

/-- Work that unbuilt, locked or repaired stripe units hold up (R385, R388, R446): what a home is asked, the end of a lease that snags lines, a READ_RESP of a queue pair, a region that becomes free, a host command, a mover command of a frame, a copy of a cut. The last three start again on their own. -/
inductive HeldWork where
  | home (m : HomeMsg)
  | snag (index : Nat)
  | resp (index : Nat) (p : Packet)
  | regionFree (index : Nat)
  | command (op : Nat) (c : Cmd)
  | mover (stand frame ticket : Nat)
  | copy (handle cut : Nat)
  deriving DecidableEq, Repr

/-- What goes on once parity deltas have been acknowledged (R383): a command that then completes with OK and a result, an answer that goes to a node, a mover command that ends, the response bytes of a READ_RESP that then count as written, the end of a copy of a cut to a slot of this node. -/
inductive After where
  | command (op : Nat) (c : Cmd) (result : Nat)
  | answer (node : Nat) (m : Msg)
  | mover (stand frame ticket code detail : Nat)
  | resp (index psn piece : Nat)
  | copied (handle cut : Nat) (n : SlotName)
  deriving DecidableEq, Repr

/-- A parity delta sent and not acknowledged (R383): the units it touches and when it went out. -/
structure Delta where
  units : List Nat
  sent : Nat
  deriving DecidableEq, Repr

/-- A lock this data member holds on a unit (R385), by its lock generation: the unit, the reconstructor, whether its data has been returned, whether it has been released before that, and when its lease ends. -/
structure UnitLock where
  unit : Nat
  node : Nat
  returned : Bool
  released : Bool
  until_ : Nat
  deriving DecidableEq, Repr

/-- What a reconstruction is for: a rebuild of this node (R387), a RESYNC of a dirty unit (R384), a backup (R134), or the repair of a bolt (R446). -/
inductive UnitFor where
  | rebuild | resync | demand | repair
  deriving DecidableEq, Repr

/-- A unit being reconstructed (R385): whether in the group this node keeps parity for, the member whose unit it is (8 the parity node), what it is for, the surviving data members asked, their answers (node, lock generation, data), the parity unit's data where it is read, restarts so far, whether the locks have been asked for, and the result once formed. -/
structure UnitJob where
  unit : Nat
  par : Bool
  lost : Nat
  use : UnitFor
  asked : List Nat
  answers : List (Nat × Nat × List Byte)
  tries : Nat
  begun : Bool
  result : Option (List Byte)
  deriving DecidableEq, Repr

/-- A backup ATTEND under way (R134, R385): the message, the member it stands in for, the units it needs still, those it has, how often its bolts have failed R73, and whether they are its bolts' units and not yet its slots' entries. -/
structure Backup where
  msg : AttendMsg
  lost : Nat
  need : List Nat
  got : AMap (List Byte)
  tries : Nat
  bolts : Bool
  deriving DecidableEq, Repr

/-- A bolt under repair (R446): its units still to reconstruct, and the detail that ended the repair where it failed. -/
structure Repair where
  need : List Nat
  failed : Option Nat
  deriving DecidableEq, Repr

/-- A REBUILD, PAR_REBUILD or RESYNC under way (R384, R387): which, its command, whether it rebuilds the parity area, and the dirty units of a RESYNC still to do. -/
structure Rebuild where
  op : Nat
  cmd : Cmd
  parity : Bool
  todo : List Nat
  deriving DecidableEq, Repr

/-- The cache pool: the bandwidth window and the bytes of each class in it (R394), deltas in flight, dirty units while degraded (R384), those of them whose bytes a reconstructor has had under a lock since they were last written, units locked by reconstructors by lock generation and the next one, the rebuild and the units in reconstruction, which units are not built (those below `unTo` not in `built`; `unPar` where they are of the parity area), units moved to the front, the time of the last sweep (R391), backups by number, repairs by the bolt's address, ATTENDs that wait for units, other work that units hold up (R385, R388), and what waits for deltas (R383). -/
structure Cp where
  bwStart : Nat
  bwBytes : List Nat
  deltas : AMap Delta
  nextDelta : Nat
  dirty : List Nat
  clean : List Nat
  locks : AMap UnitLock
  nextGen : Nat
  rebuild : Option Rebuild
  jobs : List UnitJob
  unPar : Bool
  unTo : Nat
  built : List Nat
  front : List Nat
  sweptAt : Nat
  backups : AMap Backup
  nextBackup : Nat
  repairs : AMap Repair
  attends : List AttendMsg
  held : List HeldWork
  waits : List (List Nat × After)
  deriving DecidableEq, Repr

def Cp.reset : Cp :=
  { bwStart := 0, bwBytes := [0, 0, 0, 0], deltas := [], nextDelta := 0, dirty := [], clean := [], locks := [], nextGen := 1, rebuild := none, jobs := [],
    unPar := false, unTo := 0, built := [], front := [], sweptAt := 0, backups := [], nextBackup := 0, repairs := [], attends := [], held := [], waits := [] }

end Sys2Proof.Machine
end

