-- ==== Sys2Proof/Machine/Types/Kh.lean ====
section
/-! DEFINITION. The state of the Keyhouse (spec/19). -/

namespace Sys2Proof.Machine

/-- An entry of the key table that has been written (R455, R456): whether it is LIVE (else DESTROYED), kind, tenant, import serial, secret, fingerprint, and the wrapping epoch it was written under. -/
structure KeyEnt where
  live : Bool
  kind : Nat
  tenant : Nat
  serial : Nat
  secret : List Byte
  print : List Byte
  epoch : Nat
  nonce : List Byte
  bad : Bool
  deriving DecidableEq, Repr

/-- Where an SPDM responder stands (R469) on one of its two ways, DOE and MCTP: nothing yet, version, capabilities, algorithms agreed. -/
inductive SpdmStage where
  | start | version | capabilities | ready
  deriving DecidableEq, Repr

/-- An SPDM session (R469): whether its handshake is finished, and the generation of its keys. -/
structure SpdmSession where
  finished : Bool
  keyGen : Nat
  deriving DecidableEq, Repr

/-- An IDE stream (R471): whether keys are programmed, and whether it is Secure. -/
structure IdeStream where
  keyed : Bool
  secure : Bool
  deriving DecidableEq, Repr

/-- The Keyhouse: key table, on-die slots (least recently used first), their pins, fills in progress, the generation of the device ML-KEM pair, the latest time an entropy health test failed, SPDM stages by way (0 DOE, 1 MCTP), sessions, and IDE streams by 16 × port + stream (ports 0 to 7 flexible, 15 the host port). -/
structure Kh where
  keys : AMap KeyEnt
  resident : List Nat
  pins : AMap Nat
  filling : List Nat
  kemGen : Nat
  healthAt : Option Nat
  spdm : AMap SpdmStage
  sessions : AMap SpdmSession
  ide : AMap IdeStream
  deriving DecidableEq, Repr

def Kh.reset : Kh := ⟨[], [], [], [], 0, none, [], [], []⟩

end Sys2Proof.Machine
end

