-- ==== Sys2Proof/Machine/State.lean ====
section
/-! DEFINITION. The state of the EY-9600: everything the spec gives the machine, as plain data, and the machine right after reset. -/

namespace Sys2Proof.Machine

/-- A command that stops the machine. -/
inductive Fault where
  /-- An event or doorbell names a unit the part does not have (a stand above 63, a port above 7, a function above 63, a register copy that no table lists): no such command exists. Raised by the event and doorbell meanings. Safe: the machine stops where the hardware could not be so addressed. -/
  | noSuchUnit
  deriving DecidableEq, Repr

/-- A command the model gives no meaning. -/
inductive Refusal where
  /-- The command has no meaning in the model yet; raised by the dispatch alone. Safe. -/
  | notModelled (mnemonic : String)
  deriving DecidableEq, Repr

/-- The two pins the controller drives at the package (spec/24). -/
inductive OutPin where
  | thermtripN | pwroffReqN
  deriving DecidableEq, Repr

/-- What the controller has sent out, oldest first: interrupts, messages, packets, frames, sideband answers (an MCTP answer has kind 0 control, 1 READ, 2 IDENT, and `ok` false for ERROR_INVALID_DATA) and pins. A record of the wires, kept so that statements can speak of what was sent (log 4). -/
inductive Emit where
  | msix (fn vec : Nat)
  | pin (p : OutPin) (level : Bool)
  | msg (node : Nat) (m : Msg)
  | frame (port sub : Nat) (bytes : List Byte)
  | accel (port addr : Nat) (bytes : List Byte)
  | indirect (port addr : Nat) (cfg write : Bool) (data : Nat)
  | spdm (way session kind : Nat) (body : List Byte)
  | mctp (kind : Nat) (ok : Bool) (body : List Byte)
  deriving DecidableEq, Repr

/-- The EY-9600. `pending` is the queue of commands that wait; `sent` is what has gone out; `free` counts the free values used. -/
structure State where
  pending : List Instr
  now : Nat
  free : Nat
  sent : List Emit
  regs : Regs
  mem : Memory
  hif : Hif
  mgt : Mgt
  scb : Scb
  sch : Sch
  tir : Tir
  cdc : Cdc
  trl : Trl
  xch : Xch
  rm : Rm
  cwt : Cwt
  cp : Cp
  kh : Kh
  deriving DecidableEq, Repr

/-- The machine right after reset, with no reset yet released (start-up runs from POR_RELEASE on). -/
def State.reset : State :=
  { pending := [], now := 0, free := 0, sent := [], regs := [], mem := [], hif := Hif.reset, mgt := Mgt.reset,
    scb := Scb.reset, sch := Sch.reset, tir := Tir.reset, cdc := Cdc.reset, trl := Trl.reset, xch := Xch.reset, rm := Rm.reset, cwt := Cwt.reset, cp := Cp.reset, kh := Kh.reset }

end Sys2Proof.Machine
end

