-- ==== Sys2Proof/Machine/Detail.lean ====
section
/-! DEFINITION. The detail codes that the chapters of spec/ give beside the shared status of R12 (one constant per row of each chapter's detail table). -/

namespace Sys2Proof.Machine.Detail

/-- No detail (spec/02_request_lifecycle.md) -/
def NONE : Nat := 0x00
/-- Sender received no TAKEN; offer aborted (spec/02_request_lifecycle.md) -/
def HANDOFF_TIMEOUT : Nat := 0x10
/-- Receiver holds TAKEN; commit word still names the sender (spec/02_request_lifecycle.md) -/
def HANDOFF_ORPHAN : Nat := 0x11
/-- Sender released; no RELEASE_ACK (spec/02_request_lifecycle.md) -/
def HANDOFF_UNRESOLVED : Nat := 0x12
/-- Another node's claim is current (spec/02_request_lifecycle.md) -/
def SUPERSEDED : Nat := 0x13
/-- Context CRC failed twice (spec/02_request_lifecycle.md) -/
def CTX_CRC : Nat := 0x14
/-- Spill record failed its GCM tag or ticket check (spec/02_request_lifecycle.md) -/
def SPILL_TAG : Nat := 0x15
/-- The record home refused a commit or claim-checked write for a reason other than supersession, under R45 (spec/02_request_lifecycle.md) -/
def RECORD_FAULT : Nat := 0x16
/-- Sender in HANDOFF with no OFFER open; awaits MIGRATE naming a receiver (spec/02_request_lifecycle.md) -/
def HANDOFF_WAIT : Nat := 0x17
/-- A bolt failed its CRC twice (spec/03_bolts_and_formats.md) -/
def BOLT_CRC : Nat := 0x20
/-- A bolt's header did not match the bolt asked for (spec/03_bolts_and_formats.md) -/
def BOLT_IDENTITY : Nat := 0x21
/-- Felled cuts need recomputing and no coppice node is named (spec/03_bolts_and_formats.md) -/
def NO_COPPICE_NODE : Nat := 0x22
/-- No COPPICE_DONE after the allowed resends (spec/03_bolts_and_formats.md) -/
def COPPICE_TIMEOUT : Nat := 0x23
/-- The target pool had no free cut slot (spec/03_bolts_and_formats.md) -/
def POOL_FULL : Nat := 0x24
/-- A descriptor field is out of range, or the row or tile limit is exceeded (spec/04_attention_engine.md) -/
def ATT_DESC : Nat := 0x30
/-- A tree parent is not below its node (spec/04_attention_engine.md) -/
def ATT_TREE : Nat := 0x31
/-- A deck range runs past the deck or overlaps another job's output (spec/04_attention_engine.md) -/
def ATT_ADDR : Nat := 0x32
/-- The bolt list breaks the order, format or tentative rules (spec/04_attention_engine.md) -/
def ATT_LIST : Nat := 0x33
/-- A command met a detected error twice (spec/04_attention_engine.md) -/
def ATT_PARITY : Nat := 0x34
/-- The step's rows, or its deterministic buffer, exceed the merge slot stride (spec/05_split_attention.md) -/
def MERGE_SIZE : Nat := 0x40
/-- A COMMIT path does not start at node 0 or does not follow parent links (spec/05_split_attention.md) -/
def SPEC_PATH : Nat := 0x41
/-- A tentative tail is held, or is absent, or its step is not finished (spec/05_split_attention.md) -/
def SPEC_BUSY : Nat := 0x42
/-- A shard could be served neither at its home, nor by fetch, nor by backup (spec/05_split_attention.md) -/
def SHARD_LOST : Nat := 0x43
/-- A cut entry's ring count does not match its slot at the home (spec/05_split_attention.md) -/
def SHARD_STALE : Nat := 0x44
/-- The home's serve class is at its cap (spec/05_split_attention.md) -/
def SERVE_OVER : Nat := 0x45
/-- A publication broke R146 (spec/06_trail_index.md) -/
def TRL_CLASS : Nat := 0x50
/-- All 16 ways of the block's blaze set are valid (spec/06_trail_index.md) -/
def TRL_SET_FULL : Nat := 0x51
/-- A published entry with the same key holds a different block (spec/06_trail_index.md) -/
def TRL_COLLIDE : Nat := 0x52
/-- A blaze record or tree node failed its CRC twice (spec/06_trail_index.md) -/
def TRL_REC_CRC : Nat := 0x53
/-- The tenant's node cap was reached (spec/06_trail_index.md) -/
def TRL_TENANT_CAP : Nat := 0x54
/-- The operator prefix key is not loaded (spec/06_trail_index.md) -/
def TRL_NO_KEY : Nat := 0x55
/-- A move named a cut held by more than one holder (spec/06_trail_index.md) -/
def TRL_SHARED : Nat := 0x56
/-- A cut slot's hold count is at 65,535 (spec/06_trail_index.md) -/
def TRL_HOLD_FULL : Nat := 0x57
/-- Every admission queue entry is in use (spec/07_scheduler.md) -/
def SCH_ADMIT_FULL : Nat := 0x60
/-- A model descriptor was refused, or an ADMIT named an unregistered model (spec/07_scheduler.md) -/
def SCH_MODEL : Nat := 0x61
/-- The scheduler paused the request under R187 (spec/07_scheduler.md) -/
def SCH_AUTO_PAUSED : Nat := 0x62
/-- The scheduler resumed the request under R188 (spec/07_scheduler.md) -/
def SCH_AUTO_RESUMED : Nat := 0x63
/-- Every stand of the chip is fenced (spec/07_scheduler.md) -/
def SCH_NO_STAND : Nat := 0x64
/-- A placement, MOVE or pool names tier 0x00 (spec/08_tiers_and_homes.md) -/
def TIR_PLACE : Nat := 0x80
/-- A MOVE named a kind that is never moved (spec/08_tiers_and_homes.md) -/
def TIR_IMMOVABLE : Nat := 0x81
/-- A placement descriptor is invalid or out of range (spec/08_tiers_and_homes.md) -/
def TIR_PD : Nat := 0x82
/-- The felling policy picked the request (spec/08_tiers_and_homes.md) -/
def TIR_FELL_PICK : Nat := 0x83
/-- A RESERVE, FREE or HOLD names a pool not declared at the home, or a slice group the pool does not have (spec/08_tiers_and_homes.md) -/
def TIR_NO_POOL : Nat := 0x84
/-- A stream header, record or page failed its CRC twice (spec/09_codec_and_adapters.md) -/
def CDC_CRC : Nat := 0x90
/-- A segment failed its GCM tag (spec/09_codec_and_adapters.md) -/
def CDC_TAG : Nat := 0x91
/-- A header or block breaks R219, R224 or R228, or does not match the command (spec/09_codec_and_adapters.md) -/
def CDC_FORMAT : Nat := 0x92
/-- The key slot or the stream's tenant is not permitted to the issuer (spec/09_codec_and_adapters.md) -/
def CDC_KEY : Nat := 0x93
/-- The slot is loading, or its other buffer still has users (spec/09_codec_and_adapters.md) -/
def CDC_TBL_BUSY : Nat := 0x94
/-- A table body is too large or invalid (spec/09_codec_and_adapters.md) -/
def CDC_TBL_INVALID : Nat := 0x95
/-- A load collides with the slot's kind, version contents or model (spec/09_codec_and_adapters.md) -/
def CDC_TBL_KIND : Nat := 0x96
/-- A block names a table that does not serve it (spec/09_codec_and_adapters.md) -/
def CDC_TBL_MISMATCH : Nat := 0x97
/-- The model stores MX bolts and has no KV profile loaded (spec/09_codec_and_adapters.md) -/
def CDC_NO_PROFILE : Nat := 0x98
/-- The adapter version is not resident (spec/09_codec_and_adapters.md) -/
def CDC_ADP_ABSENT : Nat := 0x99
/-- ADMIT named an adapter version other than the current one (spec/09_codec_and_adapters.md) -/
def CDC_ADP_VERSION : Nat := 0x9A
/-- No adapter slot or extent is free (spec/09_codec_and_adapters.md) -/
def CDC_ADP_SLOTS : Nat := 0x9B
/-- An illegal bundle was issued (spec/10_stand_programming.md) -/
def STD_ILLEGAL : Nat := 0xA0
/-- A deck address lies outside the frame's usable window, or an extended address names an unknown space (spec/10_stand_programming.md) -/
def STD_WINDOW : Nat := 0xA1
/-- A wait named a ticket not yet issued (spec/10_stand_programming.md) -/
def STD_TICKET : Nat := 0xA2
/-- The image has no entry for the task's KIND (spec/10_stand_programming.md) -/
def STD_NO_ENTRY : Nat := 0xA3
/-- A program halted with an outcome that R256 does not handle (spec/10_stand_programming.md) -/
def STD_HALT : Nat := 0xA4
/-- A program image was refused (spec/10_stand_programming.md) -/
def STD_IMAGE : Nat := 0xA5
/-- A bundle met an instruction-memory parity error twice (spec/10_stand_programming.md) -/
def STD_IPARITY : Nat := 0xA6
/-- SND_UNA went unacknowledged for the give-up time (spec/12_celwald_transport.md) -/
def CWT_GIVE_UP : Nat := 0xB0
/-- The peer answered with a fatal NAK other than `NAK_AUTH` (spec/12_celwald_transport.md) -/
def CWT_REMOTE_ERR : Nat := 0xB1
/-- A GCM tag failed (spec/12_celwald_transport.md) -/
def CWT_AUTH : Nat := 0xB2
/-- A work request broke R303 or a permission (spec/12_celwald_transport.md) -/
def CWT_FORMAT : Nat := 0xB3
/-- Flushed before any packet was sent (spec/12_celwald_transport.md) -/
def CWT_NOT_SENT : Nat := 0xB4
/-- Flushed after packets were sent; it may have been performed in whole or in part (spec/12_celwald_transport.md) -/
def CWT_MAYBE : Nat := 0xB5
/-- The receive ring stayed full until give-up (spec/12_celwald_transport.md) -/
def CWT_RNR : Nat := 0xB6
/-- A command is not valid in the QP's state (spec/12_celwald_transport.md) -/
def CWT_QP_STATE : Nat := 0xB7
/-- The destination has no valid node-table entry, or no port up (spec/12_celwald_transport.md) -/
def CWT_NO_ROUTE : Nat := 0xB8
/-- The choker store is full (spec/12_celwald_transport.md) -/
def CWT_CHOKER_FULL : Nat := 0xB9
/-- A QP context failed its CRC twice (spec/12_celwald_transport.md) -/
def CWT_CTX_CRC : Nat := 0xBA
/-- A drain completed (spec/12_celwald_transport.md) -/
def CWT_DRAINED : Nat := 0xBB
/-- Region key not live, or its ring count differs (spec/13_memory_semantics.md) -/
def MEM_KEY : Nat := 0xC0
/-- The QP's tenant may not use the region (spec/13_memory_semantics.md) -/
def MEM_TENANT : Nat := 0xC1
/-- The region does not permit the operation (spec/13_memory_semantics.md) -/
def MEM_ACCESS : Nat := 0xC2
/-- Bytes beyond the region, slot or area (spec/13_memory_semantics.md) -/
def MEM_BOUNDS : Nat := 0xC3
/-- Misaligned atomic, claim word or element (spec/13_memory_semantics.md) -/
def MEM_ALIGN : Nat := 0xC4
/-- The claim pair does not match the claim word (spec/13_memory_semantics.md) -/
def MEM_CLAIM : Nat := 0xC5
/-- The lines are leased to another node or lease (spec/13_memory_semantics.md) -/
def MEM_LEASED : Nat := 0xC6
/-- The lease named is not live (spec/13_memory_semantics.md) -/
def MEM_LEASE : Nat := 0xC7
/-- No lease entry is free (spec/13_memory_semantics.md) -/
def MEM_LEASE_FULL : Nat := 0xC8
/-- The operation touches a snag (spec/13_memory_semantics.md) -/
def MEM_SNAG : Nat := 0xC9
/-- A publication was older, or collided at its version (spec/13_memory_semantics.md) -/
def MEM_PUB : Nat := 0xCA
/-- A verified digest differs from the region's contents (spec/13_memory_semantics.md) -/
def MEM_DIGEST : Nat := 0xCB
/-- A duplicate atomic found no cached result (spec/13_memory_semantics.md) -/
def MEM_ARC_EXPIRED : Nat := 0xCC
/-- No atomic result ring is free (spec/13_memory_semantics.md) -/
def MEM_ARC_FULL : Nat := 0xCD
/-- Multicast group absent, or the hop limit was reached (spec/13_memory_semantics.md) -/
def MEM_GROUP : Nat := 0xCE
/-- A multicast branch failed (spec/13_memory_semantics.md) -/
def MEM_BRANCH : Nat := 0xCF
/-- A tenant map entry names shapers at or beyond COUNT (spec/14_shaping.md) -/
def SHP_INDEX : Nat := 0xD0
/-- SHAPER_SET named an invalid index or an out-of-range field (spec/14_shaping.md) -/
def SHP_RANGE : Nat := 0xD1
/-- An object that R380 requires in the protected space would lie outside it (spec/15_cache_pool.md) -/
def CP_UNPROTECTED : Nat := 0xE0
/-- A delta came from a node that is not a member, or reaches beyond the parity area (spec/15_cache_pool.md) -/
def CP_GROUP : Nat := 0xE1
/-- A unit cannot be reconstructed because two members of its group are lost (spec/15_cache_pool.md) -/
def CP_DOUBLE : Nat := 0xE2
/-- A unit's lock expired on every allowed attempt (spec/15_cache_pool.md) -/
def CP_LOCK_LOST : Nat := 0xE3
/-- The operation touches a protected area behind a flexible port that is down (spec/15_cache_pool.md) -/
def CP_CXL_LOST : Nat := 0xE4
/-- A slot header broke R407 (spec/16_layer_exchange.md) -/
def XCH_SLOT : Nat := 0xF0
/-- An entry's handle is stale, or its kind, positions or layer do not match a released step, or it repeats a handle (spec/16_layer_exchange.md) -/
def XCH_ORDER : Nat := 0xF1
/-- The request is not bound to this window or its model (spec/16_layer_exchange.md) -/
def XCH_WINDOW : Nat := 0xF2
/-- The request was paused or withdrawn before or during the entry (spec/16_layer_exchange.md) -/
def XCH_PAUSED : Nat := 0xF3
/-- An epoch, node ID or successor does not follow the installed map (spec/17_composition.md) -/
def MAP_SEQ : Nat := 0xD8
/-- MAP_INSTALL names a role other than the committed one (spec/17_composition.md) -/
def MAP_ROLE : Nat := 0xD9
/-- A role change, roll or firmware activation is in progress, or the step cannot be undone (spec/17_composition.md) -/
def ROLE_BUSY : Nat := 0xDA
/-- A drain condition of R424 does not hold, or QUIESCE was asked outside cache role (spec/17_composition.md) -/
def DRAIN_PENDING : Nat := 0xDB
/-- A firmware image failed a signature, format or version check (spec/17_composition.md) -/
def FW_IMAGE : Nat := 0xDC
/-- A TRIAL firmware was not ready in time; the previous bank runs (spec/17_composition.md) -/
def FW_FALLBACK : Nat := 0xDD
/-- A stand was fenced after a lasting failure (spec/18_faults_integrity.md) -/
def FLT_STAND : Nat := 0xF8
/-- A lane was retired, or a lane calibration could not run (spec/18_faults_integrity.md) -/
def FLT_LANE : Nat := 0xF9
/-- A port with no rotating lane left lost a further lane (spec/18_faults_integrity.md) -/
def FLT_PORT_DOWN : Nat := 0xFA
/-- A stack failed lastingly or is quiesced, or the operation touched a quiesced stack (spec/18_faults_integrity.md) -/
def FLT_STACK : Nat := 0xFB
/-- A lasting failure in the mesh, the landing or a chip-level SRAM (spec/18_faults_integrity.md) -/
def FLT_MESH : Nat := 0xFC
/-- A self-test failed, or a stand awaits a passing self-test (spec/18_faults_integrity.md) -/
def FLT_SELFTEST : Nat := 0xFD
/-- A self-test or calibration of that kind is already queued or running, or a STAND_UNFENCE named a stand of a column under test (spec/18_faults_integrity.md) -/
def FLT_BUSY : Nat := 0xFE
/-- A host or flexible port link narrowed or went down (spec/18_faults_integrity.md) -/
def FLT_LINK : Nat := 0xFF
/-- The key index is not live, is destroyed, or is wrapped under an old epoch (spec/19_security.md) -/
def KEY_ABSENT : Nat := 0x01
/-- The key belongs to another tenant (spec/19_security.md) -/
def KEY_TENANT : Nat := 0x02
/-- An import failed its signature, decapsulation or tag, or its serial or contents conflict (spec/19_security.md) -/
def KEY_IMPORT : Nat := 0x03
/-- The Keyhouse is testing itself, is in its error state, or is zeroized (spec/19_security.md) -/
def KEY_STATE : Nat := 0x04
/-- A traffic key reached its packet limit (spec/19_security.md) -/
def KEY_NONCE_LIMIT : Nat := 0x05
/-- A QP index was given the salt it last used (spec/19_security.md) -/
def KEY_SALT_REUSE : Nat := 0x06
/-- IDE is required and not Secure, or a stream became Insecure (spec/19_security.md) -/
def KEY_IDE : Nat := 0x07
/-- A self-test failed (spec/19_security.md) -/
def KEY_SELFTEST : Nat := 0x08
/-- The index lies beyond the key table (spec/19_security.md) -/
def KEY_TABLE_FULL : Nat := 0x09

end Sys2Proof.Machine.Detail
end

