-- ==== Sys2Proof/Machine/Status.lean ====
section
/-! DEFINITION. The shared statuses of R12, the reasons of R508, the opcodes of R509 and the event codes of R516. -/

namespace Sys2Proof.Machine

/-- The shared status codes of R12. -/
inductive Status where
  | ok | pending | redirect | stale | conflict | poison | indeterminate | noCredit | fenced | errorFlushed
  deriving DecidableEq, Repr

/-- The 8-bit encoding of R12. -/
def Status.code : Status → Nat
  | .ok => 0 | .pending => 1 | .redirect => 2 | .stale => 3 | .conflict => 4 | .poison => 5
  | .indeterminate => 6 | .noCredit => 7 | .fenced => 8 | .errorFlushed => 9

/-- The status an 8-bit value stands for; reserved values are not produced (R12). -/
def Status.ofCode : Nat → Option Status
  | 0 => some .ok | 1 => some .pending | 2 => some .redirect | 3 => some .stale | 4 => some .conflict
  | 5 => some .poison | 6 => some .indeterminate | 7 => some .noCredit | 8 => some .fenced | 9 => some .errorFlushed
  | _ => none

/-- The REASON bytes of R508. -/
inductive Reason where
  | none | opcode | format | pfOnly | tenant | foreign | rslotBusy | descRead | queue | limit
  deriving DecidableEq, Repr

def Reason.code : Reason → Nat
  | .none => 0 | .opcode => 1 | .format => 2 | .pfOnly => 3 | .tenant => 4 | .foreign => 5 | .rslotBusy => 6
  | .descRead => 7 | .queue => 8 | .limit => 9

/-! The opcodes of R509. -/
namespace Op
def WQ_CREATE : Nat := 0x01
def WQ_DESTROY : Nat := 0x02
def CQ_CREATE : Nat := 0x03
def CQ_DESTROY : Nat := 0x04
def RQ_CREATE : Nat := 0x05
def RQ_DESTROY : Nat := 0x06
def ADMIT : Nat := 0x10
def CTX_READ : Nat := 0x11
def TOKEN : Nat := 0x12
def PAUSE : Nat := 0x13
def RESUME : Nat := 0x14
def CANCEL : Nat := 0x15
def PARK : Nat := 0x16
def UNPARK : Nat := 0x17
def MIGRATE : Nat := 0x18
def RECOVER : Nat := 0x19
def CLAIM : Nat := 0x1A
def VERIFY : Nat := 0x1B
def COMMIT : Nat := 0x1C
def ROLLBACK : Nat := 0x1D
def FELL : Nat := 0x1E
def FELL_CUT : Nat := 0x1F
def MOVE : Nat := 0x20
def TRAIL_INSERT : Nat := 0x21
def LOOKUP : Nat := 0x22
def TRAIL_REMOVE : Nat := 0x23
def BLAZE_PUBLISH : Nat := 0x24
def BLAZE_RETIRE : Nat := 0x25
def MODEL_REG : Nat := 0x26
def MODEL_DEREG : Nat := 0x27
def CUT_POOL : Nat := 0x28
def FREE : Nat := 0x29
def SEAL : Nat := 0x30
def EXPAND : Nat := 0x31
def TABLE_LOAD : Nat := 0x32
def TABLE_FREE : Nat := 0x33
def ADAPTER_LOAD : Nat := 0x34
def ADAPTER_RETIRE : Nat := 0x35
def PROG_LOAD : Nat := 0x40
def STAND_UNFENCE : Nat := 0x41
def SELFTEST : Nat := 0x42
def LANE_RESTORE : Nat := 0x43
def STACK_QUIESCE : Nat := 0x44
def QP_CREATE : Nat := 0x50
def QP_MODIFY : Nat := 0x51
def QP_DESTROY : Nat := 0x52
def REGION_REG : Nat := 0x53
def REGION_DEREG : Nat := 0x54
def CHOKER_CANCEL : Nat := 0x55
def TRIG_ADD : Nat := 0x56
def TRIG_SET : Nat := 0x57
def SHAPER_SET : Nat := 0x58
def LEASE_BREAK : Nat := 0x59
def MAP_INSTALL : Nat := 0x60
def ROLE_BEGIN : Nat := 0x61
def ROLE_COMMIT : Nat := 0x62
def ROLE_ABORT : Nat := 0x63
def ROLL_COLUMN : Nat := 0x64
def FW_STAGE : Nat := 0x65
def FW_ACTIVATE : Nat := 0x66
def FW_CONFIRM : Nat := 0x67
def REBUILD : Nat := 0x68
def PAR_REBUILD : Nat := 0x69
def RESYNC : Nat := 0x6A
def KEY_IMPORT : Nat := 0x70
def KEY_DESTROY : Nat := 0x71
def KEY_INFO : Nat := 0x72
def KEY_GET_KEM : Nat := 0x73
def KEY_SALT : Nat := 0x74
def KEY_ZEROIZE : Nat := 0x75
def KEY_SELFTEST : Nat := 0x76
def PWR_STATE : Nat := 0x78
end Op

/-! The event codes of R516. -/
namespace Ev
def END : Nat := 0xF0
def TOKEN : Nat := 0xF1
def SCHED : Nat := 0xF2
def STALL : Nat := 0xF3
def TIER : Nat := 0xF4
def HANDOFF : Nat := 0xF5
def ARRIVED : Nat := 0xF6
end Ev

/-- Whether a value is an opcode of R509. -/
def opDefined (o : Nat) : Bool :=
  (1 ≤ o && o ≤ 6) || (0x10 ≤ o && o ≤ 0x29) || (0x30 ≤ o && o ≤ 0x35) || (0x40 ≤ o && o ≤ 0x44)
  || (0x50 ≤ o && o ≤ 0x59) || (0x60 ≤ o && o ≤ 0x6A) || (0x70 ≤ o && o ≤ 0x76) || o == 0x78

/-- The opcodes that only the PF may issue (R509). -/
def opPfOnly (o : Nat) : Bool :=
  (Op.BLAZE_PUBLISH ≤ o && o ≤ Op.FREE) || o == Op.SEAL || o == Op.TABLE_LOAD || o == Op.TABLE_FREE
  || o == Op.ADAPTER_RETIRE || (0x40 ≤ o && o ≤ 0x44) || (Op.TRIG_ADD ≤ o && o ≤ Op.LEASE_BREAK) || 0x60 ≤ o

/-- Keyhouse commands (R509). -/
def opKeyhouse (o : Nat) : Bool := 0x70 ≤ o && o ≤ 0x76

/-- The opcodes whose entry names HANDLE (R509). -/
def opHasHandle (o : Nat) : Bool :=
  (Op.CTX_READ ≤ o && o ≤ Op.PARK) || o == Op.MIGRATE || (Op.VERIFY ≤ o && o ≤ Op.TRAIL_INSERT) || o == Op.BLAZE_PUBLISH

/-- The opcodes whose entry names RSLOT (R509). -/
def opHasRslot (o : Nat) : Bool := o == Op.CTX_READ || o == Op.LOOKUP || o == Op.KEY_INFO || o == Op.KEY_SALT

/-- The commands of R509 that role UNASSIGNED performs (R17). -/
def opUnassigned (o : Nat) : Bool :=
  (1 ≤ o && o ≤ 6) || o == 0x40 || (0x42 ≤ o && o ≤ 0x44) || (0x60 ≤ o && o ≤ 0x63) || (0x65 ≤ o && o ≤ 0x67)
  || opKeyhouse o || o == Op.PWR_STATE

/-- The bits each of ARG0 to ARG3 may use (R509; "narrower values sit in the low bits, with zeros above", R506). -/
def opArgMask (o : Nat) : List Nat :=
  let w (n : Nat) := 2 ^ n - 1
  if o == Op.WQ_CREATE then [w 64, 0xFFFF001F, 0, 0]
  else if o == Op.WQ_DESTROY || o == Op.CQ_DESTROY || o == Op.RQ_DESTROY then [w 16, 0, 0, 0]
  else if o == Op.CQ_CREATE then [w 64, 0xFFFFFF1F011F, 0, 0]
  else if o == Op.RQ_CREATE then [w 64, 0xFFFF001F, 0, 0]
  else if o == Op.TOKEN then [w 32, w 32, 0, 0]
  else if o == Op.RESUME || o == Op.MIGRATE then [w 16, 0, 0, 0]
  else if o == Op.UNPARK then [w 32, 0, 0, 0]
  else if o == Op.RECOVER || o == Op.CLAIM then [0xFFFFFFFF0000FFFF, w 64, w 64, 0xFFFFFFFFFFFF]
  else if o == Op.VERIFY then [w 7, 0, 0, 0]
  else if o == Op.COMMIT then [w 7, 0, 0, 0]
  else if o == Op.FELL || o == Op.FELL_CUT then [w 32, 0, 0, 0]
  else if o == Op.MOVE then [w 32, w 32, w 24, 0]
  else if o == Op.LOOKUP then [w 24, w 32, w 20, w 22]
  else if o == Op.TRAIL_REMOVE then [w 20, 0, 0, 0]
  else if o == Op.BLAZE_PUBLISH then [w 8, w 32, 0, 0]
  else if o == Op.BLAZE_RETIRE then [w 64, w 64, 0, 0]
  else if o == Op.MODEL_DEREG then [w 16, 0, 0, 0]
  else if o == Op.CUT_POOL then [w 8, 0, 0, 0]
  else if o == Op.FREE then [w 16, w 32, w 8, 1]
  else if o == Op.SEAL then [w 64, w 32, w 64, 0]
  else if o == Op.TABLE_LOAD then [w 8, w 16, w 64, w 32]
  else if o == Op.TABLE_FREE then [w 8, 0, 0, 0]
  else if o == Op.ADAPTER_LOAD then [w 32, 1, 0, 0]
  else if o == Op.ADAPTER_RETIRE then [w 20, 0, 0, 0]
  else if o == Op.PROG_LOAD then [w 64, w 8, 0, 0]
  else if o == Op.STAND_UNFENCE then [w 64, 0, 0, 0]
  else if o == Op.SELFTEST then [0xF71, 0, 0, 0]
  else if o == Op.LANE_RESTORE then [0xF07, 0, 0, 0]
  else if o == Op.STACK_QUIESCE then [w 64, 0, 0, 0]
  else if o == Op.QP_CREATE then [w 3, 0, 0, 0]
  else if o == Op.QP_MODIFY then [w 32, 3, 0, 0]
  else if o == Op.QP_DESTROY || o == Op.REGION_DEREG then [w 32, 0, 0, 0]
  else if o == Op.CHOKER_CANCEL then [w 64, 0, 0, 0]
  else if o == Op.TRIG_ADD || o == Op.TRIG_SET then [w 12, w 64, 0, 0]
  else if o == Op.SHAPER_SET then [w 32, 0, 0, 0]
  else if o == Op.LEASE_BREAK then [w 16, 0, 0, 0]
  else if o == Op.ROLE_BEGIN then [0x107, 0, 0, 0]
  else if o == Op.ROLL_COLUMN then [w 64, w 64, w 16, 0]
  else if o == Op.FW_STAGE then [w 64, w 32, 0, 0]
  else if o == Op.KEY_DESTROY || o == Op.KEY_INFO then [w 24, 0, 0, 0]
  else if o == Op.PWR_STATE then [0xFF07, 0, 0, 0]
  else [0, 0, 0, 0]

end Sys2Proof.Machine
end

