-- ==== Sys2Proof/Machine/Ops.lean ====
section
/-! DEFINITION. The named operations every block uses: registers, memory, interrupts, completions and events of the host interface (R514 to R518, R524, R525), the scale book's ring (R486, R487, R491), fault records (R449), handles (R29), identifiers (R28, R30), arbitration (R190) and commits at a record home (R44, R45). -/

namespace Sys2Proof.Machine

/-! ### Codes of enumerated states (R40, R302) -/

/-- PHASE (R40). -/
def Phase.code : Phase → Nat
  | .admitted => 0 | .prefill => 1 | .handoff => 2 | .decode => 3 | .paused => 4 | .done => 5 | .failed => 6

/-- The phase of a code (R40). -/
def Phase.ofCode : Nat → Phase
  | 0 => .admitted | 1 => .prefill | 2 => .handoff | 3 => .decode | 4 => .paused | 5 => .done | _ => .failed

/-- STATE of a queue pair (R302). -/
def QpState.code : QpState → Nat
  | .reset => 0 | .ready => 1 | .draining => 2 | .error => 3

/-! ### Registers and memory -/

/-- A field's value. -/
def State.r (s : State) (f : Fld) : Nat := regGet s.regs f
/-- Sets a field. -/
def State.setR (s : State) (f : Fld) (v : Nat) : State := { s with regs := regSet s.regs f v }
/-- Advances a saturating counter. -/
def State.cnt (s : State) (f : Fld) (n : Nat) : State := { s with regs := regCount s.regs f n }
/-- Advances a wrapping counter. -/
def State.wrap (s : State) (f : Fld) (n : Nat) : State := { s with regs := regWrap s.regs f n }
/-- Sends something out. -/
def State.emit (s : State) (e : Emit) : State := { s with sent := s.sent ++ [e] }
/-- A fresh index for a value the spec leaves open. -/
def State.takeFree (s : State) : State := { s with free := s.free + 1 }
/-- `n` bytes at an extended address. -/
def State.rd (s : State) (a n : Nat) : List Byte := memReadN s.mem a n
/-- Stores bytes at an extended address. -/
def State.wr (s : State) (a : Nat) (l : List Byte) : State := { s with mem := memWriteN s.mem a l }

/-- A function of the host port. -/
def State.fn (s : State) (f : Nat) : Fn := (amGet f s.hif.fns).getD Fn.reset
/-- Writes a function of the host port. -/
def State.setFn (s : State) (f : Nat) (F : Fn) : State := { s with hif := { s.hif with fns := amSet f F s.hif.fns } }
/-- A field of function `f`'s own registers. -/
def State.fr (s : State) (f : Nat) (x : Fld) : Nat := s.r (x.ofFn f)

/-- Whether `n` bytes of host memory at `a` can be reached for function `f` (R502). -/
def State.dmaOk (s : State) (f a n : Nat) : Bool :=
  n = 0 || s.hif.dmaRefused.all fun p => !(p.1 == f && decide (a / 4096 ≤ p.2) && decide (p.2 ≤ (a + n - 1) / 4096))

/-! ### The role and node -/

def roleUnassigned : Nat := 0
def rolePrompt : Nat := 1
def roleGeneration : Nat := 2
def roleCache : Nat := 3
def roleMixed : Nat := 4

/-- MGT_ROLE.ROLE. -/
def State.role (s : State) : Nat := s.r Reg.MGT_ROLE_ROLE
/-- MGT_ROLE.NODE_ID. -/
def State.nodeId (s : State) : Nat := s.r Reg.MGT_ROLE_NODE_ID
/-- The node a REDIRECT names (R15, R420): the successor, or this node's own ID where there is none. -/
def State.redirectNode (s : State) : Nat :=
  if s.r Reg.MGT_MAP_SUCC_SUCC = 0 then s.nodeId else s.r Reg.MGT_MAP_SUCC_SUCC
/-- Whether the role's functions are live: a role is committed and a MAP_INSTALL has named it (R426). -/
def State.roleLive (s : State) : Bool := s.r Reg.MGT_MAP_EPOCH_ROLE_LIVE = 1

/-! ### Interrupts (R524, R525) -/

/-- Sends the message of a vector, or leaves its pending bit where the vector is masked or the function sleeps. -/
def sendMsix (s : State) (f vec : Nat) : State :=
  let F := s.fn f
  if F.unmasked.contains vec && !F.d3hot then s.emit (.msix f vec)
  else s.setFn f { F with msixPending := if F.msixPending.contains vec then F.msixPending else vec :: F.msixPending }

/-- The enable and vector fields of the four causes of R525. -/
def eventCfg (c : Nat) : Fld × Fld :=
  match c with
  | 0 => (Reg.HIF_EVT_CFG_EN_SCH, Reg.HIF_EVT_CFG_VEC_SCH)
  | 1 => (Reg.HIF_EVT_CFG_EN_CWT, Reg.HIF_EVT_CFG_VEC_CWT)
  | 2 => (Reg.HIF_EVT_CFG_EN_HIF, Reg.HIF_EVT_CFG_VEC_HIF)
  | _ => (Reg.HIF_EVT_CFG_EN_MGT, Reg.HIF_EVT_CFG_VEC_MGT)

/-- Sends the event message of a cause where it is enabled (R525). -/
def eventMessage (s : State) (cause : Nat) : State :=
  let c := eventCfg cause
  if s.r c.1 = 1 then sendMsix s 0 (s.r c.2) else s

/-- Sets an event bit; a change from 0 to 1 sends the message of its cause (R525). -/
def setEvent (s : State) (f : Fld) (cause : Nat) : State :=
  if s.r f = 0 then eventMessage (s.setR f 1) cause else s

/-! ### The scale book's ring (R486, R487, R491) -/

/-- The slots of the on-die ring. -/
def scbSlots : Nat := 4096

/-- The records that a flush may take, best first: highest severity, then newest (R491). -/
def scbBefore (a b : Nat × ScbRec) : Bool :=
  decide (b.2.severity < a.2.severity) || (a.2.severity == b.2.severity && decide (b.2.seq < a.2.seq))

/-- Inserts into a list kept in flush order. -/
def scbInsert (e : Nat × ScbRec) : List (Nat × ScbRec) → List (Nat × ScbRec)
  | [] => [e]
  | x :: l => if scbBefore e x then e :: x :: l else x :: scbInsert e l

/-- The records a flush selects: up to 256 unflushed ones of severity at or above FLUSH_FLOOR (R491). -/
def scbSelect (s : State) : List Nat :=
  let cand := s.scb.ring.filter fun e => !e.2.flushed && decide (s.r Reg.SCB_CFG_FLUSH_FLOOR ≤ e.2.severity)
  ((cand.foldl (fun l e => scbInsert e l) []).take 256).map (·.1)

/-- Starts a flush; a trigger during a flush is merged with it (R491). -/
def scbStartFlush (s : State) : State :=
  if s.scb.flushing then s else { s with scb := { s.scb with flush := scbSelect s, flushing := true } }

/-- The slot a new record of severity `sev` takes: a free one, or the oldest of the lowest severity present where that is `sev` or below (R486). -/
def scbSlotFor (ring : AMap ScbRec) (sev : Nat) : Option Nat :=
  if ring.length < scbSlots then amFree ring 0 scbSlots
  else
    let best := ring.foldl (fun (b : Option (Nat × ScbRec)) e =>
      match b with
      | none => some e
      | some x => if e.2.severity < x.2.severity || (e.2.severity == x.2.severity && decide (e.2.seq < x.2.seq))
        then some e else b) none
    match best with
    | some x => if x.2.severity ≤ sev then some x.1 else none
    | none => none

/-- Writes a record into the ring, or discards it (R486); a record at or above FLUSH_SEV starts a flush (R491). During a power failure the ring takes no record (R492). -/
def scbPut (s : State) (rec : ScbRec) : State :=
  if s.scb.pfailing then s
  else
    match scbSlotFor s.scb.ring rec.severity with
    | none => setEvent (s.cnt Reg.SCB_STATUS_DISCARDED 1) Reg.SCB_EVENT_DISCARD 3
    | some k =>
      let n := s.scb.nextSeq + 1
      let s := { s with scb := { s.scb with nextSeq := n, ring := amSet k { rec with seq := n, boot := s.scb.mram.boot } s.scb.ring } }
      if s.r Reg.SCB_CFG_FLUSH_SEV ≤ rec.severity then scbStartFlush s else s

/-- The earlier record that an EVENT folds into (R487). -/
def scbFold (s : State) (source element item sev : Nat) : Option (Nat × ScbRec) :=
  s.scb.ring.find? fun e =>
    e.2.kind == 3 && !e.2.flushed && e.2.boot == s.scb.mram.boot && e.2.source == source && e.2.element == element && e.2.item == item
    && e.2.severity == sev && decide (s.scb.intervalStart ≤ e.2.tFirst)

/-- Records an EVENT with the 64-byte record of its first occurrence (R483, R487). -/
def scbEvent (s : State) (source element status detail sev : Nat) (rec : List Byte) : State :=
  let item := status % 256 * 256 + detail % 256
  if s.scb.pfailing then s
  else
    match scbFold s source element item sev with
    | some (k, e) =>
      { s with scb := { s.scb with ring := amSet k { e with count := min (e.count + 1) (2 ^ 32 - 1), tLast := s.now, clamped := e.clamped || decide (2 ^ 32 - 1 ≤ e.count + 1) } s.scb.ring } }
    | none =>
      scbPut s { seq := 0, boot := 0, kind := 3, severity := sev, flushed := false, clamped := false, source := source,
                 element := element, item := item, tFirst := s.now, tLast := s.now, count := 1, body := fit 64 rec }

/-! ### Fault records (R449) -/

/-- A fault record of R449 before its SEQ, TIME and PHASE. -/
structure FaultRec where
  severity : Nat
  source : Nat
  action : Nat
  element : Nat
  status : Nat
  detail : Nat
  count : Nat
  address : Nat
  handle : Nat
  jobTag : Nat
  node : Nat
  deriving DecidableEq, Repr

/-- A fault record with nothing in it but its source, action, severity, element, status and detail. -/
def faultRec (source action sev element status detail : Nat) : FaultRec :=
  { severity := sev, source := source, action := action, element := element, status := status, detail := detail,
    count := 0, address := 0, handle := 0, jobTag := 0, node := 0 }

namespace Src
def stand : Nat := 1
def ethLane : Nat := 2
def ethPort : Nat := 3
def stack : Nat := 4
def mesh : Nat := 5
def hostPort : Nat := 6
def flexPort : Nat := 7
def selftest : Nat := 8
def software : Nat := 9
def thermal : Nat := 0xA
def keyhouse : Nat := 0xB
def celwald : Nat := 0xC
def scheduler : Nat := 0xD
def tier : Nat := 0xE
def codec : Nat := 0xF
def trail : Nat := 0x10
def power : Nat := 0x11
def borer : Nat := 0x12
end Src

namespace Act
def recorded : Nat := 0
def fencedStand : Nat := 1
def retiredLane : Nat := 2
def portDown : Nat := 3
def quiescedStack : Nat := 4
def repaired : Nat := 5
def selftestPass : Nat := 6
def selftestFail : Nat := 7
end Act

/-- The 64-byte image of a fault record (R449) with record number `seq` and time `t`, PHASE 0. -/
def FaultRec.image (r : FaultRec) (seq t : Nat) : List Byte :=
  leBytes 4 seq ++ leBytes 1 0 ++ leBytes 1 r.severity ++ leBytes 1 r.source ++ leBytes 1 r.action ++ leBytes 8 t
  ++ leBytes 2 r.element ++ leBytes 1 r.status ++ leBytes 1 r.detail ++ leBytes 4 r.count ++ leBytes 8 r.address
  ++ leBytes 4 r.handle ++ leBytes 4 r.jobTag ++ leBytes 2 r.node ++ leBytes 22 0

/-- The queue's records (R449): 1 to 63 act as 64. -/
def fltEntries (s : State) : Nat :=
  let e := s.r Reg.MGT_FLT_SIZE_ENTRIES
  if e = 0 then 0 else max 64 e

/-- Whether the fault queue in host memory has a free slot. -/
def fltRoom (s : State) : Bool := decide (s.mgt.fltTail - s.r Reg.MGT_FLT_HEAD_HEAD < fltEntries s)

/-- Writes record image `img` to the fault queue: slot n mod ENTRIES with its PHASE (R449), n counted from 0. -/
def fltWrite (s : State) (img : List Byte) : State :=
  let n := s.mgt.fltTail
  let e := fltEntries s
  let ph := (n / e + 1) % 2
  let s := s.wr (hostXA (s.r Reg.MGT_FLT_BASE_BASE * 4096 + 64 * (n % e))) (img.take 4 ++ leBytes 1 ph ++ img.drop 5)
  { s with mgt := { s.mgt with fltTail := n + 1 } }

/-- Posts a fault record (R449): to the queue in host memory, or to one of 64 places on die, or lost; and always to the scale book; each record raises the management event vector. -/
def postFault (s : State) (r : FaultRec) : State :=
  let n := s.mgt.fltSeq + 1
  let img := r.image n s.now
  let s := { s with mgt := { s.mgt with fltSeq := n } }
  let s :=
    if s.mgt.fltHeld.isEmpty && fltRoom s then fltWrite s img
    else if s.mgt.fltHeld.length < 64 then { s with mgt := { s.mgt with fltHeld := s.mgt.fltHeld ++ [img] } }
    else s.cnt Reg.MGT_FLT_STATUS_LOST 1
  let s := scbEvent s r.source r.element r.status r.detail r.severity img
  eventMessage s 3

/-- Records an EVENT in the scale book alone (R487), with the 64-byte image its record would have. -/
def scbNote (s : State) (r : FaultRec) : State := scbEvent s r.source r.element r.status r.detail r.severity (r.image 0 s.now)

/-- Writes held fault records to the queue while it has room (R449). -/
def fltDrain (s : State) : Nat → State
  | 0 => s
  | k + 1 =>
    match s.mgt.fltHeld with
    | [] => s
    | img :: rest =>
      if fltRoom s then fltDrain (fltWrite { s with mgt := { s.mgt with fltHeld := rest } } img) k else s

/-! ### Completions and events (R514 to R518) -/

/-- A completion or event of R514, before its PHASE. -/
structure Cqe where
  userTag : Nat
  handle : Nat
  value : Nat
  status : Nat
  detail : Nat
  opcode : Nat
  event : Bool
  reason : Nat
  queue : Nat
  result : Nat
  deriving DecidableEq, Repr

/-- The 32-byte image of R514 with PHASE 0. -/
def Cqe.image (c : Cqe) : List Byte :=
  leBytes 8 c.userTag ++ leBytes 4 c.handle ++ leBytes 4 c.value ++ leBytes 1 c.status ++ leBytes 1 c.detail
  ++ leBytes 1 c.opcode ++ leBytes 1 (2 * b2n c.event) ++ leBytes 1 c.reason ++ leBytes 1 0 ++ leBytes 2 c.queue
  ++ leBytes 8 c.result

/-- A 32-byte image with bit 0 of byte 0x13 set to PHASE. -/
def withPhase (img : List Byte) (ph : Nat) : List Byte :=
  img.take 0x13 ++ leBytes 1 (leField img 0x13 1 + ph) ++ img.drop 0x14

/-- Signals a CQ: its vector's message, after which every entry written is signalled (R524). -/
def cqSignal (s : State) (f q : Nat) (c : Cq) : State :=
  sendMsix (s.setFn f { s.fn f with cqs := amSet q { c with unsig := 0, firstUnsig := none } (s.fn f).cqs }) f c.vector

/-- A failed write of a completion or a result buffer disables the function's queues and posts a record (R502). -/
def dmaWriteFail (s : State) (f a : Nat) : State :=
  postFault ((s.setR (Reg.HIF_ADMQ_CFG_ENABLE.ofFn f) 0).setR (Reg.HIF_FN_STATUS_CLEANING.ofFn f) 1)
    { faultRec Src.hostPort Act.recorded 6 f Status.fenced.code Detail.FLT_LINK with address := hostXA a }

/-- Writes one completion into its CQ (R515) and counts it toward an interrupt (R524). A write the host refuses disables the function's queues and posts a record (R502). -/
def cqWrite (s : State) (f q : Nat) (c : Cq) (img : List Byte) : State :=
  let size := 2 ^ c.log2
  let a := c.base + 32 * (c.written % size)
  if !s.dmaOk f a 32 then
    dmaWriteFail s f a
  else
    let s := s.wr (hostXA a) (withPhase img ((c.written / size + 1) % 2))
    let c := { c with written := c.written + 1, unsig := c.unsig + 1, firstUnsig := if c.unsig = 0 then some s.now else c.firstUnsig }
    if max 1 c.coalCount ≤ c.unsig then cqSignal s f q c
    else s.setFn f { s.fn f with cqs := amSet q c (s.fn f).cqs }

/-- Whether a CQ has an entry free (R517). -/
def Cq.hasRoom (c : Cq) : Bool := decide (c.written - c.consumed < 2 ^ c.log2)

/-- Posts a completion image to CQ `q` of function `f`: written, or held while the CQ is full or the function is in D3hot (R499, R517). During cleanup nothing is delivered (R500). -/
def cqPost (s : State) (f q : Nat) (img : List Byte) : State :=
  if s.fr f Reg.HIF_FN_STATUS_CLEANING = 1 then s
  else
    match amGet q (s.fn f).cqs with
    | none => s
    | some c =>
      if c.held.isEmpty && c.hasRoom && !(s.fn f).d3hot then cqWrite s f q c img
      else
        let s := s.setFn f { s.fn f with cqs := amSet q { c with held := c.held ++ [img] } (s.fn f).cqs }
        s.cnt (Reg.HIF_FN_ERR_CQ_FULL.ofFn f) 1

/-- Posts held completions of a CQ, in order, while it has room (R517). -/
def cqDrain (s : State) (f q : Nat) : Nat → State
  | 0 => s
  | k + 1 =>
    match amGet q (s.fn f).cqs with
    | none => s
    | some c =>
      match c.held with
      | [] => s
      | img :: rest =>
        if c.hasRoom && !(s.fn f).d3hot then cqDrain (cqWrite s f q { c with held := rest } img) f q k else s

/-- What a command ends with. -/
structure Done where
  status : Status
  detail : Nat
  reason : Reason
  handle : Nat
  value : Nat
  result : Nat
  record : List Byte
  defaultCq : Bool
  deriving DecidableEq, Repr

/-- A plain ending. -/
def Done.of (st : Status) (detail : Nat) : Done := ⟨st, detail, .none, 0, 0, 0, [], false⟩
/-- OK with nothing else. -/
def Done.ok : Done := Done.of .ok 0

/-- The CQ a command's completion goes to: the one it names where that exists and is of type 0, else the default CQ of its submission queue (R508, R505). -/
def cqFor (s : State) (c : Cmd) (d : Done) : Nat :=
  let F := s.fn c.fn
  let own := match amGet c.cq F.cqs with
    | some q => q.typ == 0 && !d.defaultCq
    | none => false
  if own then c.cq else match amGet c.sq F.sqs with
    | some q => q.cq
    | none => 0

/-- The 512-byte image of a finished result slot (R519). -/
def slotImage (op : Nat) (c : Cmd) (d : Done) : List Byte :=
  fit 512 (leBytes 1 d.status.code ++ leBytes 1 d.detail ++ leBytes 1 op ++ leBytes 1 0 ++ leBytes 4 d.record.length
    ++ leBytes 8 c.userTag ++ leBytes 48 0 ++ d.record)

/-- Drops a command from the list of those taken. -/
def dropTaken (l : List Taken) (op : Nat) (c : Cmd) : List Taken :=
  match l with
  | [] => []
  | t :: l => if t.op == op && t.cmd == c then l else t :: dropTaken l op c

/-- Ends a command: its result slot first (R518, R519), then its completion unless NO_CQE and OK (R506, R514). -/
def completeCmd (s : State) (op : Nat) (c : Cmd) (d : Done) : State :=
  let s := { s with hif := { s.hif with taken := dropTaken s.hif.taken op c } }
  let s := if c.rslotValid && decide (d.reason ≠ .rslotBusy) && decide (c.rslot < 1024) && decide (s.fr c.fn Reg.HIF_FN_STATUS_CLEANING = 0)
    then s.setFn c.fn { s.fn c.fn with slots := amSet c.rslot (.done (slotImage op c d)) (s.fn c.fn).slots } else s
  let s := if d.reason = .descRead then s.cnt (Reg.HIF_FN_ERR_DESC_FAIL.ofFn c.fn) 1 else s
  if c.noCqe && decide (d.status = .ok) then s
  else
    let value := if d.status = .redirect then d.value % 65536 else d.value
    cqPost s c.fn (cqFor s c d)
      (Cqe.image { userTag := c.userTag, handle := d.handle, value := value, status := d.status.code, detail := d.detail,
                   opcode := op, event := false, reason := d.reason.code, queue := c.sq, result := d.result })

/-- Posts an event of R516 to a request's HOST_CQ. -/
def postEvent (s : State) (x : Ctx) (code : Nat) (st : Status) (detail value result : Nat) : State :=
  cqPost s (bits x.hostCq 16 6) (bits x.hostCq 0 16)
    (Cqe.image { userTag := x.userTag, handle := x.handle, value := value, status := st.code, detail := detail,
                 opcode := code, event := true, reason := 0, queue := 0xFFFF, result := result })

/-! ### Identifiers (R28, R30) -/

/-- The ring count an index carries when it is next allocated (R28). -/
def IdPool.ringOf (p : IdPool) (i : Nat) : Nat := (amGet i p.ring).getD 1

/-- The next ring count: 255 is followed by 1 (R28). -/
def ringNext (r : Nat) : Nat := if r = 255 then 1 else r + 1

/-- Allocates an index below `cap`: one never released first, in ascending order, else the least recently released below `cap`, if its fallow has ended (R30). -/
def IdPool.alloc (p : IdPool) (cap now : Nat) : Option (Nat × IdPool) :=
  if p.fresh < cap then some (p.fresh, { p with fresh := p.fresh + 1 })
  else
    match p.released.find? fun e => decide (e.1 < cap) with
    | none => none
    | some e => if e.2 ≤ now then some (e.1, { p with released := p.released.erase e }) else none

/-- Releases an index at `now` with a fallow of `us` microseconds: its ring count advances (R28, R30). -/
def IdPool.release (p : IdPool) (i now us : Nat) : IdPool :=
  { p with ring := amSet i (ringNext (p.ringOf i)) p.ring, released := p.released ++ [(i, now + us * 1000)] }

/-- Whether some index could be allocated at once (R31, R174). -/
def IdPool.ready (p : IdPool) (cap now : Nat) : Bool := (p.alloc cap now).isSome

/-! ### Handles and contexts (R27 to R29) -/

/-- The handle of an index and ring count (R27). -/
def mkHandle (ring idx : Nat) : Nat := ring * 2 ^ 21 + idx

/-- The number of context indices this member reports (R27). -/
def ctxCap (s : State) : Nat := 2 ^ s.r Reg.MGT_FAMILY_CAP_CTX_LOG2

/-- The context a handle names; none where R29 gives STALE. -/
def State.ctx (s : State) (h : Nat) : Option Ctx :=
  if bits h 29 3 ≠ 0 then none
  else if ctxCap s ≤ bits h 0 21 then none
  else
    match amGet (bits h 0 21) s.sch.ctxs with
    | none => none
    | some x => if x.handle = h then some x else none

/-- The context of a handle, or the one that CONSUME released while its cut-map entries were still being released (R49, R163). -/
def State.req (s : State) (h : Nat) : Option Ctx :=
  match s.ctx h with
  | some x => some x
  | none => amGet h s.sch.ghosts

/-- Writes a context back at its index. -/
def State.setCtx (s : State) (x : Ctx) : State :=
  { s with sch := { s.sch with ctxs := amSet (bits x.handle 0 21) x s.sch.ctxs } }

/-- Writes back what `State.req` found. -/
def State.setReq (s : State) (x : Ctx) : State :=
  if (s.ctx x.handle).isSome then s.setCtx x
  else { s with sch := { s.sch with ghosts := amMod x.handle (fun _ => x) s.sch.ghosts } }

/-- The fallow interval of handles in µs: below 4,000 acts as 4,000 (R31). -/
def fallowUs (s : State) : Nat := max 4000 (s.r Reg.SCH_CTX_FALLOW_FALLOW_US)

/-- Releases a context: its index goes into fallow and its entry is gone (R30, R49). -/
def releaseCtx (s : State) (x : Ctx) : State :=
  let i := bits x.handle 0 21
  { s with sch := { s.sch with ctxs := amErase i s.sch.ctxs, ids := s.sch.ids.release i s.now (fallowUs s),
                               cache := s.sch.cache.filter (· ≠ i) } }

/-- Whether a phase counts as active (R174). -/
def Phase.active : Phase → Bool
  | .admitted | .prefill | .handoff | .decode => true
  | _ => false

/-! ### Commit words (R43) -/

/-- The commit word of R43. -/
def commitWord (node gen : Nat) (ph : Phase) (len : Nat) : Nat :=
  node * 2 ^ 48 + gen * 2 ^ 32 + ph.code * 2 ^ 23 + len

/-- The next claim generation: 65,535 is followed by 1 (R43). -/
def genNext (g : Nat) : Nat := if g = 65535 then 1 else g + 1

/-- The commit word a context last saw at its record home. -/
def Ctx.word (x : Ctx) (node : Nat) : Nat := commitWord node x.claimGen x.committed x.committedLen

/-! ### Arbitration (R190) -/

/-- What an input of an arbiter offers: its number, the leaf flows beneath it, its head's cost and when the head began to wait. -/
structure Offer where
  input : Nat
  weight : Nat
  cost : Nat
  since : Nat
  deriving DecidableEq, Repr

/-- Brings the active list to the inputs that offer an item: each newcomer directly after the last one served, so that the latest to arrive comes first, with deficit 0; idle inputs leave (R190). -/
def Arb.refresh (a : Arb) (os : List Offer) : Arb :=
  let kept := a.active.filter fun i => os.any fun o => o.input == i
  let new := isort (fun x y => decide (y.since < x.since) || (x.since == y.since && decide (y.input ≤ x.input))) (os.filter fun o => !a.active.contains o.input)
  { active := new.map (·.input) ++ kept, deficit := amFilter (fun i _ => kept.contains i) a.deficit }

/-- The oldest head that has waited `age` or longer; ties go to the lowest input index (R190). -/
def arbAged (os : List Offer) (age now : Nat) : Option Offer :=
  os.foldl (fun b o =>
    if o.since + age ≤ now then
      match b with
      | none => some o
      | some x => if o.since < x.since || (o.since == x.since && decide (o.input < x.input)) then some o else b
    else b) none

/-- How many quanta input `o` needs before its deficit covers its head (R190: the loop comes back to it until it does). -/
def arbTopUp (d : Int) (o : Offer) (q : Nat) : Int :=
  if d < o.cost then
    let step := max 1 (q * o.weight)
    let need := (o.cost - d).toNat
    d + step * ((need + step - 1) / step : Nat)
  else d

/-- One choice of the arbiter among inputs of which only those in `os` can be served now, all that wait being in `all`: the offer served, the arbiter after it, and whether the age override served it (R190, R191). -/
def Arb.pick (a : Arb) (all os : List Offer) (q age now : Nat) : Option (Offer × Arb × Bool) :=
  let a := a.refresh all
  match arbAged os age now with
  | some o => some (o, { a with deficit := amSet o.input ((amGet o.input a.deficit).getD 0 - o.cost) a.deficit }, true)
  | none =>
    let can (i : Nat) : Bool := os.any fun o => o.input == i
    match a.active.dropWhile fun i => !can i with
    | [] => none
    | i :: rest =>
      match os.find? fun o => o.input == i with
      | none => none
      | some o =>
        let d := arbTopUp ((amGet i a.deficit).getD 0) o q
        some (o, { active := rest ++ (a.active.takeWhile fun i => !can i) ++ [i], deficit := amSet i (d - o.cost) a.deficit }, false)

/-- The choice among inputs that can all be served. -/
def Arb.select (a : Arb) (os : List Offer) (q age now : Nat) : Option (Offer × Arb × Bool) := a.pick os os q age now

/-- An arbiter once an item has been taken from it: of its inputs only those with an item left stay active (R190). -/
def Arb.settle (a : Arb) (left : List Nat) : Arb :=
  { active := a.active.filter left.contains, deficit := amFilter (fun i _ => left.contains i) a.deficit }

/-- The age bound of every arbiter in ns (SCH_ARB_CFG.AGE_US): 8 to 64 µs. -/
def arbAge (s : State) : Nat := min 64 (max 8 (s.r Reg.SCH_ARB_CFG_AGE_US)) * 1000

/-! ### Stands and fences (R439, R448) -/

/-- The stands of the columns in a list. -/
def colMask (cols : List Nat) : BitVec 64 :=
  cols.foldl (fun m c => m ||| (0xFF#64 <<< (8 * c))) 0

/-- The columns power-gated now (PWR_STATE.GATED). -/
def gatedMask (s : State) : BitVec 64 :=
  colMask ((List.range 8).filter fun c => bit (s.r Reg.PWR_STATE_GATED) c)

/-- MGT_STAND_FENCE: stand s is fenced for any reason (R448: not unfenced, lasting, power-gated, thermal trip, column taken). -/
def standFence (s : State) : BitVec 64 :=
  s.mgt.notUnfenced ||| s.mgt.lasting ||| gatedMask s ||| colMask s.mgt.takenCols
  ||| (if s.mgt.thermalTrip then BitVec.allOnes 64 else 0)

/-- Whether a stand is fenced or does not exist (R4). -/
def standFenced (s : State) (i : Nat) : Bool :=
  decide (s.r Reg.MGT_FAMILY_PARAM_STANDS ≤ i) || (standFence s).getLsbD i

/-- Whether a column is closed to placement: it drains for a roll, a test or power gating (R428, R448, R557). -/
def colClosed (s : State) (c : Nat) : Bool :=
  (match s.mgt.roll with | some r => r.col == c | none => false)
  || (match s.mgt.colTest with | some t => t.col == c | none => false)
  || (match s.mgt.trans with | some t => t.drainCols.contains c | none => false)

/-- Whether stack `k` is quiesced. -/
def stackQuiesced (s : State) (k : Nat) : Bool := bit (s.r Reg.MGT_STACK_STATE_QUIESCED) k

/-- A command changes everything but the queue of the commands that wait. -/
def keepQueue (s t : State) : State := { t with pending := s.pending }

/-- Ends a meaning on `s` with the state `t`. -/
def nextOf (s t : State) : Host.Outcome State Fault Refusal := .next (keepQueue s t)

/-- Ends a meaning on `s` with `t` where the unit it names exists, else stops by name (R4 speaks of commands; an event of a unit that does not exist is no event). -/
def withUnit (s : State) (ok : Bool) (t : State) : Host.Outcome State Fault Refusal :=
  if ok then nextOf s t else .fault .noSuchUnit

end Sys2Proof.Machine
end

