-- ==== Sys2Proof/Machine/Escalate.lean ====
section
/-! DEFINITION. Transient and lasting failures (R436, R437), the count of a stack's lasting failures and its quiescing (R438, R444), and the memory areas that a quiesced stack takes away (R379, R396, R445). -/

namespace Sys2Proof.Machine

/-! ### Stacks and areas -/

/-- Bytes of a stack (R3). -/
def stackBytes (s : State) : Nat := s.r Reg.MGT_FAMILY_PARAM_STACK_GIB * 2 ^ 30

/-- The stack that holds an extended address of HBM (R254), or none elsewhere. -/
def stackAt (s : State) (a : Nat) : Option Nat := if xaSpace a = 0 ∧ xaAddr a / stackBytes s < 8 then some (xaAddr a / stackBytes s) else none

/-- Whether an address lies on a quiesced stack (R444, R445). -/
def onQuiesced (s : State) (a : Nat) : Bool := match stackAt s a with | some k => stackQuiesced s k | none => false

/-- Base and size of protected area n (R379). -/
def areaBase (s : State) (n : Nat) : Nat := s.r (Reg.TIR_CP_AREA_BASE.at 16 n) * 2 ^ 21
def areaSize (s : State) (n : Nat) : Nat := s.r (Reg.TIR_CP_AREA_SIZE_2M.at 16 n) * 2 ^ 21

/-- The protected byte that stands for an extended address, where it lies in an area (R379). -/
def protOff (s : State) (a : Nat) : Option Nat :=
  ((List.range 16).foldl (fun (acc : Option Nat × Nat) n =>
    match acc with
    | (some o, t) => (some o, t)
    | (none, t) =>
      if areaBase s n ≤ a ∧ a < areaBase s n + areaSize s n then (some (t + (a - areaBase s n)), t) else (none, t + areaSize s n))
    (none, 0)).1

/-- Protected areas of a cache-role node have become unreachable (R396, R445): CXL_LOST and a scale-book record. -/
def areasLost (s : State) (src el : Nat) : State :=
  scbNote (s.setR Reg.TIR_CP_GROUP_CXL_LOST 1) (faultRec src Act.recorded 6 el Status.fenced.code Detail.CP_CXL_LOST)

/-! ### Memory that cannot be reached (R445, R396, R546) -/

/-- The flexible port behind an address of space 0x1 (R545). -/
def cxlPort (s : State) (a : Nat) : Option Nat :=
  if xaSpace a ≠ 1 then none
  else
    let x := xaAddr a
    let inWin (q : Nat) : Bool :=
      s.r (Reg.HIF_FLEX_CFG_MODE.at 0x20 q) == 2
      && decide (s.r (Reg.HIF_FLEX_WIN_BASE.at 0x20 q) * 2 ^ 30 ≤ x)
      && decide (x < s.r (Reg.HIF_FLEX_WIN_BASE.at 0x20 q) * 2 ^ 30 + s.r (Reg.HIF_FLEX_WIN_SIZE_1G.at 0x20 q) * 2 ^ 30)
    let l := (List.range 8).filter inWin
    l[((x - s.r (Reg.HIF_FLEX_WIN_BASE.at 0x20 (l.headD 0)) * 2 ^ 30) / 4096) % l.length]?

/-- Whether a flexible port has a Secure IDE stream. -/
def flexSecure (s : State) (q : Nat) : Bool := s.kh.ide.any fun e => decide (e.1 / 16 = q) && e.2.secure

/-- Whether a CXL Type-3 port counts as down: its link is, or it has no Secure IDE where REQUIRE_IDE asks for it (R471). -/
def typ3Down (s : State) (q : Nat) : Bool :=
  s.r (Reg.HIF_FLEX_STATUS_LINK_UP.at 0x20 q) == 0 || (s.r Reg.KEY_POLICY_REQUIRE_IDE == 1 && !flexSecure s q)

/-- Whether an address lies behind a flexible port that is down, or in space 0x1 where no port presents it. -/
def cxlDown (s : State) (a : Nat) : Bool :=
  xaSpace a == 1 && (match cxlPort s a with
    | some q => typ3Down s q
    | none => true)

/-- Whether two ranges, each given by its start and its bytes, overlap. -/
def overlap (a n b m : Nat) : Bool := decide (a < b + m) && decide (b < a + n)

/-- Whether some of `n` bytes at an address lie on a quiesced stack. -/
def quiescedIn (s : State) (a n : Nat) : Bool :=
  xaSpace a == 0 && (List.range 8).any fun k => stackQuiesced s k && overlap (xaAddr a) n (k * stackBytes s) (stackBytes s)

/-- Whether some of `n` bytes at an address lie behind a flexible port that is down: 16 pages of 4 KiB visit every port of an interleave (R545). -/
def cxlDownIn (s : State) (a n : Nat) : Bool :=
  ((List.range (min 16 ((a + n - 1) / 4096 - a / 4096 + 1))).any fun i => cxlDown s (a + 4096 * i)) || cxlDown s (a + n - 1)

/-- The protected areas that `n` bytes at an address touch (R379). -/
def areasAt (s : State) (a n : Nat) : List Nat := (List.range 16).filter fun k => areaSize s k != 0 && overlap a n (areaBase s k) (areaSize s k)

/-- Whether a protected area of a cache-role node is unreachable as a whole: a port that part of it lies on is down (R396), or a stack that part of it lies on is quiesced (R445). -/
def areaLost (s : State) (k : Nat) : Bool :=
  s.role == roleCache && (quiescedIn s (areaBase s k) (areaSize s k) || (xaSpace (areaBase s k) == 1 && cxlDownIn s (areaBase s k) (areaSize s k)))

/-- Why `n` bytes at an extended address cannot be accessed: a protected area that is lost (R396, R445), a quiesced stack (R445), or a flexible port that is down (R546). -/
def memTrouble (s : State) (a n : Nat) : Option Nat :=
  if (areasAt s a (max 1 n)).any (areaLost s) then some Detail.CP_CXL_LOST
  else if quiescedIn s a (max 1 n) then some Detail.FLT_STACK
  else if cxlDownIn s a (max 1 n) then some Detail.FLT_LINK
  else none

/-- Whether the path to an accelerator stands: a flexible port must be up; any other path is the host port. -/
def portLive (s : State) (p : Nat) : Bool := decide (8 ≤ p) || s.r (Reg.HIF_FLEX_STATUS_LINK_UP.at 0x20 p) == 1

/-- A posted write to an accelerator; one to a port that is down is lost (R546). -/
def accelWrite (s : State) (p a : Nat) (b : List Byte) : State := if portLive s p then s.emit (.accel p a b) else s

/-! ### Transient failures (R436, R437) -/

/-- The counter of MGT_TRANSIENT that a source's transient failures go to. -/
def transientKind (src : Nat) : Nat :=
  if src = Src.stand then 0 else if src = Src.ethLane then 1 else if src = Src.stack then 2 else if src = Src.mesh then 3 else 4

/-- The transient failures of an element in the current interval. -/
def transients (s : State) (src el : Nat) : Nat := amGetD (65536 * src + el) 0 s.mgt.transient

/-- Counts a transient failure of an element (R436). -/
def noteTransient (s : State) (src el : Nat) : State :=
  let s := s.cnt (Reg.MGT_TRANSIENT_COUNT.at 4 (transientKind src)) 1
  { s with mgt := { s.mgt with transient := amSet (65536 * src + el) (transients s src el + 1) s.mgt.transient } }

/-- An operation failed its check and ran once more: a retry that succeeds counts as transient, unless the element has reached TRANSIENT_LIMIT in this interval; every other failure is lasting (R436, R437). Answers whether it is. -/
def failed (s : State) (src el : Nat) (retryOk : Bool) : State × Bool :=
  if retryOk && decide (transients s src el < max 1 (s.r Reg.MGT_FLT_LIMIT_TRANSIENT_LIMIT)) then (noteTransient s src el, false) else (s, true)

/-! ### Stacks (R438, R444, R445) -/

/-- Quiesces a stack (R444): no new access, a record of severity 7, and its protected areas lost on a cache-role node (R445). -/
def quiesceStack (s : State) (k : Nat) : State :=
  if stackQuiesced s k then s
  else
    let s := s.setR Reg.MGT_STACK_STATE_QUIESCED (s.r Reg.MGT_STACK_STATE_QUIESCED ||| 2 ^ k)
    let s := postFault s { faultRec Src.stack Act.quiescedStack 7 k Status.fenced.code Detail.FLT_STACK with count := transients s Src.stack k }
    let holds (n : Nat) : Bool := areaSize s n != 0 && decide (areaBase s n < (k + 1) * stackBytes s) && decide (k * stackBytes s < areaBase s n + areaSize s n)
    if s.role = roleCache ∧ (List.range 16).any holds then areasLost s Src.stack k else s

/-- A lasting failure of a stack (R438, R444): a record, and at STACK_LIMIT in one interval the stack is quiesced. -/
def stackLasting (s : State) (k dt addr handle : Nat) : State :=
  if stackQuiesced s k then s
  else
    let n := amGetD k 0 s.mgt.stackCount + 1
    let s := s.setR Reg.MGT_STACK_STATE_LASTING (s.r Reg.MGT_STACK_STATE_LASTING ||| 2 ^ k)
    let s := { s with mgt := { s.mgt with stackCount := amSet k n s.mgt.stackCount } }
    let s := postFault s { faultRec Src.stack Act.recorded 4 k Status.fenced.code dt with count := transients s Src.stack k, address := addr, handle := handle }
    if max 1 (s.r Reg.MGT_FLT_LIMIT_STACK_LIMIT) ≤ n then quiesceStack s k else s

/-- A check of data from a stack failed and the read was made again. -/
def stackFailed (s : State) (k dt addr handle : Nat) (retryOk : Bool) : State :=
  match failed s Src.stack k retryOk with
  | (s, true) => stackLasting s k dt addr handle
  | (s, false) => s

/-- A lasting failure at an address: of its stack, of the flexible port behind it, or of the mesh (R434, R438). -/
def lastingAt (s : State) (a dt handle : Nat) : State :=
  match stackAt s a, cxlPort s a with
  | some k, _ => stackLasting s k dt a handle
  | none, some q => postFault s { faultRec Src.flexPort Act.recorded 6 q Status.fenced.code dt with address := a, handle := handle }
  | none, none => postFault s { faultRec Src.mesh Act.recorded 7 0 Status.fenced.code dt with address := a, handle := handle }

/-- Data read at an address failed its check and was read again: a transient failure of its stack or port, or a lasting one. Answers whether it is lasting (R436, R437). -/
def failedAt (s : State) (a dt handle : Nat) (retryOk : Bool) : State × Bool :=
  let e := match stackAt s a, cxlPort s a with
    | some k, _ => failed s Src.stack k retryOk
    | none, some q => failed s Src.flexPort q retryOk
    | none, none => failed s Src.mesh 0 retryOk
  if e.2 then (lastingAt e.1 a dt handle, true) else e

end Sys2Proof.Machine
end

