-- ==== Sys2Proof/Machine/Command.lean ====
section
/-! DEFINITION. How a host command is read (R506), checked (R508), made to wait (R507, R431, R553), gated by role and power state (R17, R559) and performed. -/

namespace Sys2Proof.Machine

/-- The command that a 64-byte submission entry holds (R506), with its opcode. -/
def cmdOfEntry (f q : Nat) (e : List Byte) : Nat × Cmd :=
  let fl := leField e 1 1
  (leField e 0 1,
   { fn := f, sq := q, fence := bit fl 0, noCqe := bit fl 1, rslotValid := bit fl 2, rslot := leField e 2 2,
     cq := leField e 4 2, zero := bits fl 3 5 + 32 * leField e 6 2, userTag := leField e 8 8, descAddr := leField e 0x10 8,
     descLen := leField e 0x18 4, handle := leField e 0x1C 4, arg0 := leField e 0x20 8, arg1 := leField e 0x28 8,
     arg2 := leField e 0x30 8, arg3 := leField e 0x38 8 })

/-- The DESC_LEN that R509 gives for an opcode; none where the operands it depends on are out of range. -/
def descWant (o : Nat) (c : Cmd) : Option Nat :=
  if o == Op.ADMIT then some 64
  else if o == Op.VERIFY then some 64
  else if o == Op.COMMIT then some (64 + 4 * c.arg0)
  else if o == Op.LOOKUP then if 1 ≤ c.arg3 ∧ c.arg3 ≤ 4194303 then some (4 * c.arg3) else none
  else if o == Op.MODEL_REG then some 32
  else if o == Op.CUT_POOL then some 96
  else if o == Op.SEAL then some 256
  else if o == Op.EXPAND then some 64
  else if o == Op.ADAPTER_LOAD then if c.descLen % 16 = 0 ∧ 16 ≤ c.descLen ∧ c.descLen ≤ 4096 then some c.descLen else none
  else if o == Op.QP_CREATE then some 64
  else if o == Op.QP_MODIFY then if c.arg1 = 1 then some 32 else some 0
  else if o == Op.REGION_REG then some 128
  else if o == Op.SHAPER_SET then some 16
  else if o == Op.MAP_INSTALL then some 32
  else if o == Op.KEY_IMPORT then some 6307
  else if o == Op.KEY_GET_KEM then some 1568
  else some 0

/-- Whether ARG0 to ARG3 use only the bits R509 gives the opcode. -/
def argsInMask (o : Nat) (c : Cmd) : Bool :=
  match opArgMask o with
  | [a, b, d, e] => (c.arg0 &&& a) == c.arg0 && (c.arg1 &&& b) == c.arg1 && (c.arg2 &&& d) == c.arg2 && (c.arg3 &&& e) == c.arg3
  | _ => false

/-- The operand ranges that are narrower than their bits: 4 KiB aligned rings of 2^4 to 2^16 entries (R505, R509), 2 to 64 nodes (R138), 1 to 4,096 cuts (R201). -/
def argsInRange (o : Nat) (c : Cmd) : Bool :=
  if o == Op.WQ_CREATE || o == Op.CQ_CREATE || o == Op.RQ_CREATE then
    c.arg0 % 4096 == 0 && decide (4 ≤ bits c.arg1 0 5) && decide (bits c.arg1 0 5 ≤ 16)
  else if o == Op.VERIFY then decide (2 ≤ c.arg0) && decide (c.arg0 ≤ 64)
  else if o == Op.MOVE then decide (1 ≤ c.arg1) && decide (c.arg1 ≤ 4096)
  else true

/-- Step 2 of R508: zero fields zero, operands in range, DESC_LEN as R509 gives. -/
def formatOk (o : Nat) (c : Cmd) : Bool :=
  c.zero == 0 && argsInMask o c && argsInRange o c && descWant o c == some c.descLen
  && (c.descLen != 0 || c.descAddr == 0)
  && (!c.rslotValid || decide (c.rslot < 1024))
  && (opHasHandle o || c.handle == 0)

/-- Whether a tenant lies in a function's range (R523): every tenant for the PF; FIRST to LAST of HIF_FN_TENANT where VALID, tenant 0 never, for a VF. -/
def tenantInRange (s : State) (f t : Nat) : Bool :=
  f == 0 ||
  (s.r (Reg.HIF_FN_TENANT_VALID.at 8 f) == 1
   && decide (max 1 (s.r (Reg.HIF_FN_TENANT_FIRST.at 8 f)) ≤ t) && decide (t ≤ s.r (Reg.HIF_FN_TENANT_LAST.at 8 f)))

/-- The tenant that an operand of the command names, if one does (R508 step 4). -/
def operandTenant (o : Nat) (c : Cmd) : Option Nat :=
  if o == Op.LOOKUP then some c.arg2 else if o == Op.TRAIL_REMOVE then some c.arg0 else none

/-- The tenant in the descriptor of an ADMIT, QP_CREATE or REGION_REG (R508 step 9). -/
def descTenant (o : Nat) (d : List Byte) : Option Nat :=
  if o == Op.ADMIT then some (leField d 0x0C 4)
  else if o == Op.QP_CREATE then some (leField d 0x10 4 % 2 ^ 20)
  else if o == Op.REGION_REG then some (leField d 0x18 4 % 2 ^ 20)
  else none

/-- A command's descriptor in host memory. -/
def cmdDesc (s : State) (c : Cmd) : List Byte := s.rd (hostXA c.descAddr) c.descLen

/-- Whether the named command CQ exists and is of type 0. -/
def cqIsCommand (s : State) (f q : Nat) : Bool :=
  match amGet q (s.fn f).cqs with
  | some c => c.typ == 0
  | none => false

/-- A command refused by a check of R508. -/
def refusal (r : Reason) (detail : Nat) : Option Done := some { Done.of .fenced detail with reason := r }

/-- The detail of a command that only the PF may give: CDC_KEY of the Keyhouse's (R451), TRL_CLASS of BLAZE_PUBLISH (R146). -/
def pfDetail (o : Nat) : Nat := if opKeyhouse o then Detail.CDC_KEY else if o = Op.BLAZE_PUBLISH then Detail.TRL_CLASS else 0

/-- The checks of R508 in their order; the first that fails ends the command. `bad` is step 8, the conditions that R75 and R331 give on a descriptor. -/
def checkCommand (s : State) (o : Nat) (c : Cmd) (bad : Bool) : Option Done :=
  if !opDefined o then refusal .opcode 0
  else if !formatOk o c then refusal .format 0
  else if decide (c.fn ≠ 0) && opPfOnly o then refusal .pfOnly (pfDetail o)
  else if (match operandTenant o c with | some t => !tenantInRange s c.fn t | none => false) then refusal .tenant 0
  else if decide (c.fn ≠ 0) && (match s.ctx c.handle with | some x => bits x.hostCq 16 6 != c.fn | none => false) then
    refusal .foreign 0
  else if c.rslotValid && amHas c.rslot (s.fn c.fn).slots then refusal .rslotBusy 0
  else if !s.dmaOk c.fn c.descAddr c.descLen && o != Op.KEY_GET_KEM then refusal .descRead 0
  else if bad then refusal .format 0
  else if (match descTenant o (cmdDesc s c) with | some t => !tenantInRange s c.fn t | none => false) then refusal .tenant 0
  else if !cqIsCommand s c.fn c.cq then refusal .queue 0
  else none

/-- The commands taken before a given one, in the order they were taken (R507). -/
def takenBefore (l : List Taken) (o : Nat) (c : Cmd) : List Taken :=
  match l with
  | [] => []
  | t :: l => if t.op == o && t.cmd == c then [] else t :: takenBefore l o c

/-- Whether a command is in the list of those taken. -/
def isTaken (l : List Taken) (o : Nat) (c : Cmd) : Bool := l.any fun t => t.op == o && t.cmd == c

/-- The commands that need the management core and wait while it restarts (R431). -/
def opNeedsCore (o : Nat) : Bool :=
  (0x60 ≤ o && o ≤ 0x67) || o == Op.PROG_LOAD || o == Op.PWR_STATE || o == Op.SELFTEST || o == Op.LANE_RESTORE

/-- The commands that run from step 6 of start-up on, before READY (R553). -/
def opEarly (o : Nat) : Bool := (1 ≤ o && o ≤ 6) || opKeyhouse o

/-- Whether a commit of a request's commit word is in flight (R46); changes to cut-map entries and claim-checked writes are not such commits. -/
def commitBusy (s : State) (h : Nat) : Bool :=
  s.sch.commits.any fun e => e.2.handle == h && e.2.kind.isWord

/-- Whether a context is pinned in the cache (R32): a task of the request is queued or in flight, a handoff message awaits an answer, or a claim-checked write is outstanding. -/
def ctxPinned (s : State) (i : Nat) : Bool :=
  match amGet i s.sch.ctxs with
  | none => false
  | some x =>
    s.xch.tasks.any (fun e => e.2.handle == x.handle)
    || s.sch.commits.any (fun e => e.2.handle == x.handle)
    || (x.phase == .handoff && (decide (x.peerNode ≠ 0) || x.released || x.taken))

/-- The indices resident in the set of index i (R32: sets indexed by INDEX[11:0]), least recently used first. -/
def cacheSet (s : State) (i : Nat) : List Nat := s.sch.cache.filter fun j => j % 4096 == i % 4096

/-- Makes an index the most recently used of those resident. -/
def cacheTouch (s : State) (i : Nat) : State :=
  if s.sch.cache.contains i then { s with sch := { s.sch with cache := s.sch.cache.filter (· ≠ i) ++ [i] } } else s

/-- Places an index in its set, evicting the least recently used unpinned entry of a full set (R32, R33); none where all 16 are pinned. -/
def cacheInsert (s : State) (i : Nat) : Option State :=
  if s.sch.cache.contains i then some (cacheTouch s i)
  else
    let set := cacheSet s i
    if set.length < 16 then some { s with sch := { s.sch with cache := s.sch.cache ++ [i] } }
    else
      match set.find? fun j => !ctxPinned s j with
      | none => none
      | some j => some { s with sch := { s.sch with cache := s.sch.cache.filter (· ≠ j) ++ [i] } }

/-- Whether the context a command names must first be filled from the table (R33). -/
def needsFill (s : State) (h : Nat) : Bool :=
  match s.ctx h with
  | none => false
  | some _ => !s.sch.cache.contains (bits h 0 21)

/-- The fill of an index meets a set with every entry pinned: its wait is counted, once (R33). -/
def setPinned (s : State) (i : Nat) : State :=
  if s.sch.setWait.contains i then s
  else { s.cnt Reg.SCH_CTX_STALL_SET_PINNED 1 with sch := { s.sch with setWait := s.sch.setWait ++ [i] } }

/-- Whether every entry of an index's set is pinned. -/
def setFull (s : State) (i : Nat) : Bool := decide (16 ≤ (cacheSet s i).length) && (cacheSet s i).all (ctxPinned s)

/-- Begins a fill, counting the miss and a set with every entry pinned (R33). -/
def beginFill (s : State) (h : Nat) : State :=
  let i := bits h 0 21
  if s.sch.filling.contains i then s
  else
    let s := s.wrap Reg.SCH_CTXC_MISS_MISSES 1
    let s := if setFull s i then setPinned s i else s
    { s with sch := { s.sch with filling := s.sch.filling ++ [i] } }

/-- Whether a command has already started. -/
def isStarted (s : State) (o : Nat) (c : Cmd) : Bool := s.hif.taken.any fun t => t.op == o && t.cmd == c && t.started

/-- The commands that end a step in flight. -/
def opCommits (o : Nat) : Bool := o == Op.TOKEN || o == Op.COMMIT || o == Op.ROLLBACK

/-- Whether a command must wait: for an earlier command of its queue to start, since those of one queue start in order, for an earlier command of its handle (but TOKEN, COMMIT and ROLLBACK do not wait for a CANCEL that itself waits for the step they end, since R48 lets that step commit; log 29), for a FENCE (R507), for a commit of its request in flight (R46), for READY (R553; in recovery FW_STAGE alone runs, R472) or for the management core (R431). -/
def mustWait (s : State) (o : Nat) (c : Cmd) : Bool :=
  let before := takenBefore s.hif.taken o c
  (before.any fun t => t.cmd.fn == c.fn && t.cmd.sq == c.sq && !t.started)
  || (c.handle != 0 && before.any fun t => t.cmd.handle == c.handle && !(opCommits o && t.op == Op.CANCEL && t.started))
  || (c.handle != 0 && o != Op.CTX_READ && commitBusy s c.handle)
  || (c.fence && before.any fun t => t.cmd.fn == c.fn && t.cmd.sq == c.sq)
  || (s.r Reg.MGT_BOOT_STATUS_READY == 0 && (if s.r Reg.MGT_BOOT_STATUS_RECOVERY == 1 then o != Op.FW_STAGE else !opEarly o))
  || (!s.mgt.coreUp && opNeedsCore o && s.r Reg.MGT_BOOT_STATUS_READY == 1)

/-- Records a command as taken, started or not. -/
def markTaken (s : State) (o : Nat) (c : Cmd) (started : Bool) : State :=
  if isTaken s.hif.taken o c then
    { s with hif := { s.hif with taken := s.hif.taken.map fun t => if t.op == o && t.cmd == c then { t with started := started } else t } }
  else { s with hif := { s.hif with taken := s.hif.taken ++ [⟨o, c, started, s.now, 0⟩] } }

/-- What a command's start leaves: it counts as taken and started, and the slot it names reads PENDING (R520). -/
def startCmd (s : State) (o : Nat) (c : Cmd) : State :=
  let s := markTaken s o c true
  if c.rslotValid then s.setFn c.fn { s.fn c.fn with slots := amSet c.rslot .named (s.fn c.fn).slots } else s

/-- A command that cannot go on yet is put back among those taken and not started, its result slot free, so that it starts again later. -/
def unstartCmd (s : State) (o : Nat) (c : Cmd) : State :=
  let s := markTaken s o c false
  if c.rslotValid then s.setFn c.fn { s.fn c.fn with slots := amErase c.rslot (s.fn c.fn).slots } else s

/-- What a command's owning block answers: the state it leaves, and the command's ending, or none where the ending comes later. -/
abbrev Body := State → List Byte → State × Option Done

/-- A host command from its start to its ending; one that has started and not ended is under way already and is left to go on (log 19). It waits as R507, R431 and R553 give, is checked by R508, gated by PS3 (R559: only the PF's admin queue is fetched) and by role UNASSIGNED (R17), and performed by its block. -/
def hostCommand (s : State) (o : Nat) (c : Cmd) (bad : State → List Byte → Bool) (body : Body) : State :=
  if isStarted s o c then s
  else if mustWait s o c ∨ (s.r Reg.PWR_STATE_STATE = 3 ∧ (c.fn ≠ 0 ∨ c.sq ≠ 0)) then markTaken s o c false
  else if needsFill s c.handle then beginFill (markTaken s o c false) c.handle
  else
    let s := cacheTouch s (bits c.handle 0 21)
    let desc := cmdDesc s c
    match checkCommand s o c (bad s desc) with
    | some d => completeCmd s o c d
    | none =>
      let s := startCmd s o c
      if s.r Reg.PWR_STATE_STATE == 3 && o != Op.PWR_STATE then completeCmd s o c (Done.of .fenced 0)
      else if s.role == roleUnassigned && !opUnassigned o then completeCmd s o c (Done.of .fenced 0)
      else
        match body s desc with
        | (s, some d) => completeCmd s o c d
        | (s, none) => s

/-- No step-8 condition: for every opcode but CUT_POOL and REGION_REG. -/
def noBad : State → List Byte → Bool := fun _ _ => false

/-- A command whose function numbers are those of a function of the port runs; one from function 64 or above does not exist. -/
def runCommand (s : State) (o : Nat) (c : Cmd) (bad : State → List Byte → Bool) (body : Body) :
    Host.Outcome State Fault Refusal :=
  if c.fn < 64 then nextOf s (hostCommand s o c bad body) else .fault .noSuchUnit

/-- A command with no step-8 condition. -/
def runPlain (s : State) (o : Nat) (c : Cmd) (body : Body) : Host.Outcome State Fault Refusal :=
  runCommand s o c noBad body

/-- An ending at once with the state unchanged. -/
def answer (s : State) (d : Done) : State × Option Done := (s, some d)
/-- An ending at once with a status and detail, the state unchanged. -/
def fail (s : State) (st : Status) (detail : Nat) : State × Option Done := (s, some (Done.of st detail))
/-- A REDIRECT that names the successor (R15). -/
def redirect (s : State) : State × Option Done := (s, some { Done.of .redirect 0 with value := s.redirectNode })

/-- Whether the current role enables a function: the role is live and is one of those listed (R15, R426). -/
def roleEnables (s : State) (roles : List Nat) : Bool := s.roleLive && roles.contains s.role

/-- Gates a command body by the context it names: STALE where R29 gives it; CTX_READ and CONSUME apart, REDIRECT where OWNER is 0 (R47) and STALE in DONE and FAILED (R46). -/
def withCtx (c : Cmd) (s : State) (k : Ctx → State × Option Done) : State × Option Done :=
  match s.ctx c.handle with
  | none => fail s .stale 0
  | some x =>
    if x.phase = .done ∨ x.phase = .failed then (s, some { Done.of .stale 0 with handle := c.handle })
    else if !x.owner then (s, some { Done.of .redirect 0 with value := x.peerNode, handle := c.handle })
    else k x

/-- Ends a command that waited, where there is one. -/
def finish (s : State) (oc : Option (Nat × Cmd)) (d : Done) : State :=
  match oc with
  | none => s
  | some (o, c) => completeCmd s o c d

end Sys2Proof.Machine
end

