-- ==== Sys2Proof/Machine/Crypto.lean ====
section
/-! DEFINITION. The Keyhouse's symmetric algorithms (R454), written from the standards the rule names: AES-256 (FIPS 197), its GCM (SP 800-38D) and XTS (IEEE 1619) modes, SHA-384 (FIPS 180-4), HMAC (FIPS 198-1) and the counter-mode KDF (SP 800-108r1). PRESUMED, log 7: the spec cites the standards and does not repeat them. -/

namespace Sys2Proof.Machine

/-! ### AES-256 (FIPS 197) -/

/-- The S-box as one number, entry x in bits 8x + 7 to 8x; here its parts of 32 entries, the last first. -/
def sboxParts : List Nat :=
  [0x16bb54b00f2d99416842e6bf0d89a18cdf2855cee9871e9b948ed9691198f8e1,
   0x9e1dc186b95735610ef6034866b53e708a8bbd4b1f74dde8c6b4a61c2e2578ba,
   0x08ae7a65eaf4566ca94ed58d6d37c8e779e4959162acd3c25c2406490a3a32e0,
   0xdb0b5ede14b8ee4688902a22dc4f816073195d643d7ea7c41744975fec130ccd,
   0xd2f3ff1021dab6bcf5389d928f40a351a89f3c507f02f94585334d43fbaaefd0,
   0xcf584c4a39becb6a5bb1fc20ed00d153842fe329b3d63b52a05a6e1b1a2c8309,
   0x75b227ebe28012079a059618c323c7041531d871f1e5a534ccf73f362693fdb7,
   0xc072a49cafa2d4adf04759fa7dc982ca76abd7fe2b670130c56f6bf27b777c63]

/-- The inverse S-box in the same form. -/
def invSboxParts : List Nat :=
  [0x7d0c2155631469e126d677ba7e042b17619953833cbbebc8b0f52aae4d3be0a0,
   0xef9cc9939f7ae52d0d4ab519a97f51605fec8027591012b131c7078833a8dd1f,
   0xf45acd78fec0db9a2079d2c64b3e56fc1bbe18aa0e62b76f89c5291d711af147,
   0x6edf751ce837f9e28535ade72274ac9673e6b4f0cecff297eadc674f4111913a,
   0x6b8a130103bdafc1020f3fca8f1e2cd00645b3b80558e4f70ad3bc8c00abd890,
   0x849d8da75746155edab9edfd5048706c92b6655dcc5ca4d41698688664f6f872,
   0x25d18b6d49a25b76b224d92866a12e084ec3fa420b954cee3d23c2a632947b54,
   0xcbe9dec444438e3487ff2f9b8239e37cfbd7f3819ea340bf38a53630d56a0952]

/-- The entry of a byte in such a table. -/
def sboxAt (parts : List Nat) (x : Nat) : Nat := parts.getD (7 - x / 32) 0 >>> (8 * (x % 32)) % 256

/-- The four bytes of a 32-bit word each replaced by their S-box entry. -/
def subWord (w : Nat) : Nat :=
  sboxAt sboxParts (w / 2 ^ 24) * 2 ^ 24 + sboxAt sboxParts (w / 2 ^ 16 % 256) * 2 ^ 16 + sboxAt sboxParts (w / 256 % 256) * 256 + sboxAt sboxParts (w % 256)

/-- A product by x in the field of FIPS 197. -/
def xtime (b : Nat) : Nat := if b < 128 then 2 * b else (2 * b) ^^^ 0x11B

/-- The product of two field elements, n bits of the second. -/
def gfMul (a b : Nat) : Nat → Nat
  | 0 => 0
  | n + 1 => (if b % 2 = 1 then a else 0) ^^^ gfMul (xtime a) (b / 2) n

/-- Big-endian number of bytes. -/
def beNat (l : List Nat) : Nat := l.foldl (fun n b => 256 * n + b) 0
/-- The n bytes of a number, the most significant first. -/
def beNats (n v : Nat) : List Nat := (List.range n).map fun i => v >>> (8 * (n - 1 - i)) % 256

/-- The key schedule from word i on, the words so far given last first. -/
def aesExpand (ws : List Nat) (i : Nat) : Nat → List Nat
  | 0 => ws
  | n + 1 =>
    let t := ws.headD 0
    let t := if i % 8 = 0 then subWord (t % 2 ^ 24 * 256 + t / 2 ^ 24) ^^^ (2 ^ (i / 8 - 1) * 2 ^ 24)
             else if i % 8 = 4 then subWord t else t
    aesExpand ((ws.getD 7 0 ^^^ t) :: ws) (i + 1) n

/-- The fifteen round keys of a 32-byte key, 16 bytes each. -/
def aesKeys (key : List Byte) : List (List Nat) :=
  let k := (fit 32 key).map (·.toNat)
  let ws := (List.range 8).map fun i => beNat ((k.drop (4 * i)).take 4)
  let all := (aesExpand ws.reverse 8 52).reverse
  (List.range 15).map fun r => ((all.drop (4 * r)).take 4).flatMap (beNats 4)

/-- Two byte strings added bit by bit. -/
def xorNats (a b : List Nat) : List Nat := List.zipWith (· ^^^ ·) a b

/-- A column times the circulant matrix whose first row is given. -/
def mixColumn (m c : List Nat) : List Nat :=
  (List.range 4).map fun r => (List.range 4).foldl (fun x i => x ^^^ gfMul (c.getD i 0) (m.getD ((i + 4 - r) % 4) 0) 4) 0

/-- MixColumns with the matrix whose first row is given. -/
def mixColumns (m st : List Nat) : List Nat := (List.range 4).flatMap fun c => mixColumn m ((st.drop (4 * c)).take 4)

/-- ShiftRows by d columns a row: 1 forward, 3 inverse. -/
def shiftRows (d : Nat) (st : List Nat) : List Nat := (List.range 16).map fun i => st.getD (i % 4 + 4 * ((i / 4 + d * (i % 4)) % 4)) 0

/-- The rounds of the cipher over the round keys left. -/
def aesRounds (st : List Nat) : List (List Nat) → List Nat
  | [] => st
  | [k] => xorNats (shiftRows 1 (st.map (sboxAt sboxParts))) k
  | k :: ks => aesRounds (xorNats (mixColumns [2, 3, 1, 1] (shiftRows 1 (st.map (sboxAt sboxParts)))) k) ks

/-- One block encrypted under expanded keys. -/
def aesEnc (ks : List (List Nat)) (b : List Nat) : List Nat := aesRounds (xorNats b (ks.headD [])) ks.tail

/-- The rounds of the inverse cipher, the round keys last first. -/
def aesInvRounds (st : List Nat) : List (List Nat) → List Nat
  | [] => st
  | [k] => xorNats ((shiftRows 3 st).map (sboxAt invSboxParts)) k
  | k :: ks => aesInvRounds (mixColumns [14, 11, 13, 9] (xorNats ((shiftRows 3 st).map (sboxAt invSboxParts)) k)) ks

/-- One block decrypted under expanded keys. -/
def aesDec (ks : List (List Nat)) (b : List Nat) : List Nat := aesInvRounds (xorNats b (ks.getLastD [])) ks.dropLast.reverse

/-! ### GCM (SP 800-38D) -/

/-- The product of two blocks in GCM's field, the n lowest bits of x left. -/
def ghashMul (x v : Nat) : Nat → Nat
  | 0 => 0
  | n + 1 => (if x.testBit n then v else 0) ^^^ ghashMul x (if v % 2 = 1 then v / 2 ^^^ (0xE1 * 2 ^ 120) else v / 2) n

/-- The blocks of a string as numbers, the last one filled up with zeros. -/
def ghashBlocks (l : List Byte) : List Nat := (chunks 16 l).map fun c => beNat ((fit 16 c).map (·.toNat))

/-- GHASH of additional data and ciphertext under the hash key. -/
def ghash (h : Nat) (aad ct : List Byte) : Nat :=
  (ghashBlocks aad ++ ghashBlocks ct ++ [aad.length * 8 * 2 ^ 64 + ct.length * 8]).foldl (fun y b => ghashMul (y ^^^ b) h 128) 0

/-- The key stream block of a counter under a 96-bit nonce. -/
def gcmPad (ks : List (List Nat)) (nonce : List Byte) (c : Nat) : List Nat := aesEnc ks ((fit 12 nonce).map (·.toNat) ++ beNats 4 (c % 2 ^ 32))

/-- AES-256-GCM's ciphertext of a plaintext (R222, R293, R454); the same function decrypts. -/
def gcmSeal (key nonce pt : List Byte) : List Byte :=
  let ks := aesKeys key
  (chunks 16 pt).zipIdx.flatMap fun c => List.zipWith (fun (b : Byte) p => b ^^^ BitVec.ofNat 8 p) c.1 (gcmPad ks nonce (c.2 + 2))

/-- The plaintext of a ciphertext, its tag not looked at. -/
def gcmOpen (key nonce ct : List Byte) : List Byte := gcmSeal key nonce ct

/-- The 16-byte tag of a ciphertext and its additional data. -/
def gcmTag (key nonce aad ct : List Byte) : List Byte :=
  let ks := aesKeys key
  let h := beNat (aesEnc ks (List.replicate 16 0))
  (beNats 16 (ghash h aad ct ^^^ beNat (gcmPad ks nonce 1))).map (BitVec.ofNat 8)

/-! ### XTS (IEEE 1619) -/

/-- The tweak of the next block: times x in XTS's field, the number little-endian. -/
def xtsNext (t : Nat) : Nat := if t < 2 ^ 127 then 2 * t else (2 * t) % 2 ^ 128 ^^^ 0x87

/-- The blocks of a data unit under a block cipher, each between two additions of its tweak. -/
def xtsBlocks (f : List Nat → List Nat) (t : Nat) : List (List Byte) → List Byte
  | [] => []
  | b :: bs =>
    let w := (leBytes 16 t).map (·.toNat)
    (xorNats (f (xorNats (b.map (·.toNat)) w)) w).map (BitVec.ofNat 8) ++ xtsBlocks f (xtsNext t) bs

/-- The first tweak of a data unit: the number encrypted under the second half of the key pair. -/
def xtsFirst (pair : List Byte) (tweak : Nat) : Nat :=
  leNat ((aesEnc (aesKeys (pair.drop 32)) ((leBytes 16 tweak).map (·.toNat))).map (BitVec.ofNat 8))

/-- AES-256-XTS of a body of whole blocks under a key pair and a tweak (R71, R464). -/
def xtsSeal (pair : List Byte) (tweak : Nat) (l : List Byte) : List Byte :=
  xtsBlocks (aesEnc (aesKeys (pair.take 32))) (xtsFirst pair tweak) (chunks 16 l)

/-- The body decrypted under the same. -/
def xtsOpen (pair : List Byte) (tweak : Nat) (l : List Byte) : List Byte :=
  xtsBlocks (aesDec (aesKeys (pair.take 32))) (xtsFirst pair tweak) (chunks 16 l)

/-! ### SHA-384, HMAC and the KDF (FIPS 180-4, FIPS 198-1, SP 800-108r1) -/

/-- The 80 round constants. -/
def shaK : List Word64 :=
  [0x428a2f98d728ae22, 0x7137449123ef65cd, 0xb5c0fbcfec4d3b2f, 0xe9b5dba58189dbbc, 0x3956c25bf348b538]
  ++ [0x59f111f1b605d019, 0x923f82a4af194f9b, 0xab1c5ed5da6d8118, 0xd807aa98a3030242, 0x12835b0145706fbe]
  ++ [0x243185be4ee4b28c, 0x550c7dc3d5ffb4e2, 0x72be5d74f27b896f, 0x80deb1fe3b1696b1, 0x9bdc06a725c71235]
  ++ [0xc19bf174cf692694, 0xe49b69c19ef14ad2, 0xefbe4786384f25e3, 0x0fc19dc68b8cd5b5, 0x240ca1cc77ac9c65]
  ++ [0x2de92c6f592b0275, 0x4a7484aa6ea6e483, 0x5cb0a9dcbd41fbd4, 0x76f988da831153b5, 0x983e5152ee66dfab]
  ++ [0xa831c66d2db43210, 0xb00327c898fb213f, 0xbf597fc7beef0ee4, 0xc6e00bf33da88fc2, 0xd5a79147930aa725]
  ++ [0x06ca6351e003826f, 0x142929670a0e6e70, 0x27b70a8546d22ffc, 0x2e1b21385c26c926, 0x4d2c6dfc5ac42aed]
  ++ [0x53380d139d95b3df, 0x650a73548baf63de, 0x766a0abb3c77b2a8, 0x81c2c92e47edaee6, 0x92722c851482353b]
  ++ [0xa2bfe8a14cf10364, 0xa81a664bbc423001, 0xc24b8b70d0f89791, 0xc76c51a30654be30, 0xd192e819d6ef5218]
  ++ [0xd69906245565a910, 0xf40e35855771202a, 0x106aa07032bbd1b8, 0x19a4c116b8d2d0c8, 0x1e376c085141ab53]
  ++ [0x2748774cdf8eeb99, 0x34b0bcb5e19b48a8, 0x391c0cb3c5c95a63, 0x4ed8aa4ae3418acb, 0x5b9cca4f7763e373]
  ++ [0x682e6ff3d6b2b8a3, 0x748f82ee5defb2fc, 0x78a5636f43172f60, 0x84c87814a1f0ab72, 0x8cc702081a6439ec]
  ++ [0x90befffa23631e28, 0xa4506cebde82bde9, 0xbef9a3f7b2c67915, 0xc67178f2e372532b, 0xca273eceea26619c]
  ++ [0xd186b8c721c0c207, 0xeada7dd6cde0eb1e, 0xf57d4f7fee6ed178, 0x06f067aa72176fba, 0x0a637dc5a2c898a6]
  ++ [0x113f9804bef90dae, 0x1b710b35131c471b, 0x28db77f523047d84, 0x32caab7b40c72493, 0x3c9ebe0a15c9bebc]
  ++ [0x431d67c49c100d4c, 0x4cc5d4becb3e42b6, 0x597f299cfc657e2a, 0x5fcb6fab3ad6faec, 0x6c44198c4a475817]

/-- The initial hash value of SHA-384. -/
def shaInit : List Word64 :=
  [0xcbbb9d5dc1059ed8, 0x629a292a367cd507, 0x9159015a3070dd17, 0x152fecd8f70e5939]
  ++ [0x67332667ffc00b31, 0x8eb44a8768581511, 0xdb0c2e0d64f98fa7, 0x47b5481dbefa4fa4]

/-- The message schedule from its last 16 words, the newest first. -/
def shaSchedule (ws : List Word64) : Nat → List Word64
  | 0 => ws
  | n + 1 =>
    let a := ws.getD 14 0
    let b := ws.getD 1 0
    let s0 := a.rotateRight 1 ^^^ a.rotateRight 8 ^^^ (a >>> 7)
    let s1 := b.rotateRight 19 ^^^ b.rotateRight 61 ^^^ (b >>> 6)
    shaSchedule ((s1 + ws.getD 6 0 + s0 + ws.getD 15 0) :: ws) n

/-- One round on the eight working variables. -/
def shaRound (v : List Word64) (k w : Word64) : List Word64 :=
  match v with
  | [a, b, c, d, e, f, g, h] =>
    let t1 := h + (e.rotateRight 14 ^^^ e.rotateRight 18 ^^^ e.rotateRight 41) + ((e &&& f) ^^^ (~~~e &&& g)) + k + w
    let t2 := (a.rotateRight 28 ^^^ a.rotateRight 34 ^^^ a.rotateRight 39) + ((a &&& b) ^^^ (a &&& c) ^^^ (b &&& c))
    [t1 + t2, a, b, c, d + t1, e, f, g]
  | _ => v

/-- One 128-byte block. -/
def shaBlock (h : List Word64) (blk : List Byte) : List Word64 :=
  let ws := (chunks 8 blk).map fun c => BitVec.ofNat 64 (beNat (c.map (·.toNat)))
  let sch := (shaSchedule ws.reverse 64).reverse
  List.zipWith (· + ·) h ((shaK.zip sch).foldl (fun v p => shaRound v p.1 p.2) h)

/-- The bytes a message is filled up with to whole blocks. -/
def shaPad (n : Nat) : List Byte := (0x80#8) :: List.replicate ((111 + 128 - n % 128) % 128) 0 ++ (beNats 16 (8 * n)).map (BitVec.ofNat 8)

/-- SHA-384 (R454): 48 bytes. -/
def sha384 (m : List Byte) : List Byte :=
  ((((chunks 128 (m ++ shaPad m.length)).foldl shaBlock shaInit).take 6).flatMap fun w => beNats 8 w.toNat).map (BitVec.ofNat 8)

/-- HMAC-SHA-384 (R454). -/
def hmac384 (key m : List Byte) : List Byte :=
  let k := fit 128 (if 128 < key.length then sha384 key else key)
  sha384 (k.map (· ^^^ 0x5C) ++ sha384 (k.map (· ^^^ 0x36) ++ m))

/-- The KDF (R454, R458): `bits` bits, from a 32-bit counter, label, a zero byte, context and the length in bits; counter and length big-endian as SP 800-108r1 writes numbers. -/
def kdf (bits : Nat) (key lab ctx : List Byte) : List Byte :=
  let be (v : Nat) : List Byte := (beNats 4 v).map (BitVec.ofNat 8)
  ((List.range ((bits + 383) / 384)).flatMap fun i => hmac384 key (be (i + 1) ++ lab ++ [0] ++ ctx ++ be bits)).take (bits / 8)

end Sys2Proof.Machine
end

