-- ==== Sys2Proof/Machine/Key.lean ====
section
/-! DEFINITION. Keys as other blocks use them (spec/19): who may use a key (R455), derived keys (R458), on-die slots (R457), random values, and zeroization (R478, R479). -/

namespace Sys2Proof.Machine

/-- The bytes of an ASCII label (R458). -/
def label (t : String) : List Byte := t.toList.map fun c => BitVec.ofNat 8 c.toNat

/-- The current wrapping epoch (KEY_EPOCH). -/
def wrapEpoch (s : State) : Nat := s.scb.mram.wrapEpoch
/-- The device wrapping key (R458). -/
def wrapKey (s : State) : List Byte := kdf 256 Config.rootSecret (label "EY wrap") (leBytes 4 (wrapEpoch s))
/-- The spill key (R36, R458). -/
def spillKey (s : State) : List Byte := kdf 256 (wrapKey s) (label "EY spill") []
/-- The XTS pair of an entry (R71, R458). -/
def KeyEnt.xts (e : KeyEnt) : List Byte := kdf 512 e.secret (label "EY xts") []
/-- The stream key of an entry (R222, R458). -/
def KeyEnt.stream (e : KeyEnt) : List Byte := kdf 256 e.secret (label "EY stream") []
/-- The traffic key of an entry for one direction of a QP (R458, R466). -/
def KeyEnt.wire (e : KeyEnt) (salt : List Byte) (srcNode srcQp dstNode dstQp : Nat) : List Byte :=
  kdf 256 e.secret (label "EY wire") (fit 16 salt ++ leBytes 2 srcNode ++ leBytes 4 srcQp ++ leBytes 2 dstNode ++ leBytes 4 dstQp)

/-- n bytes of the DRBG (R454). -/
def drbg (s : State) (n : Nat) : List Byte := (List.range n).map (Config.random s.free)

/-- Whether the Keyhouse's services run (R476, R478): KEY_STATUS.STATE is OPERATIONAL. -/
def keyUp (s : State) : Bool := s.r Reg.KEY_STATUS_STATE == 1

/-- The indices of the key table (KEY_TBL_COUNT). -/
def keyCount (s : State) : Nat := min 16777216 (s.r Reg.KEY_TBL_COUNT_COUNT)

/-- The live entry of an index: index 0 never, one under an old wrapping epoch or whose entry has failed its CRC or tag not (R455, R456). -/
def keyLive (s : State) (i : Nat) : Option KeyEnt :=
  if i = 0 ∨ keyCount s ≤ i then none
  else
    match amGet i s.kh.keys with
    | some e => if e.live ∧ !e.bad ∧ e.epoch = wrapEpoch s then some e else none
    | none => none

/-- A use of a key on behalf of a tenant (R455, R478); `foreign` marks the decryptions that an OPERATOR key also does for a non-zero tenant. -/
def keyUse (s : State) (i tenant : Nat) (foreign : Bool) : Except (Status × Nat) KeyEnt :=
  if !keyUp s then .error (.fenced, Detail.KEY_STATE)
  else
    match keyLive s i with
    | none => .error (.fenced, Detail.KEY_ABSENT)
    | some e => if e.tenant = tenant ∨ (foreign ∧ e.kind = 2) then .ok e else .error (.fenced, Detail.KEY_TENANT)

/-- The on-die key slots (R457). -/
def keySlots : Nat := 65536

/-- KEY_CACHE.RESIDENT follows the slots in use. -/
def keyRegs (s : State) : State := s.setR Reg.KEY_CACHE_RESIDENT (s.kh.resident.length % 65536)

/-- Whether a use of an index need not wait for a fill: it is resident, or will be refused. -/
def keyReady (s : State) (i : Nat) : Bool := s.kh.resident.contains i || (keyLive s i).isNone || !keyUp s

/-- Begins a fill (R457). -/
def keyFill (s : State) (i : Nat) : State :=
  if s.kh.filling.contains i then s
  else ({ s with kh := { s.kh with filling := s.kh.filling ++ [i] } }).wrap Reg.KEY_CACHE_MISSES 1

/-- Makes an index the most recently used. -/
def keyTouch (s : State) (i : Nat) : State :=
  if s.kh.resident.contains i then { s with kh := { s.kh with resident := s.kh.resident.filter (· ≠ i) ++ [i] } } else s

/-- A use that begins to hold derived keys: its index becomes the most recently used, or its fill begins (R457). -/
def keyWant (s : State) (i : Nat) : State := if keyReady s i then keyTouch s i else keyFill s i

/-- Where an entry of the key table lies (R456). -/
def keyAddr (s : State) (i : Nat) : Nat := s.r Reg.KEY_TBL_BASE_BASE * 4096 + 128 * i

/-- The 128 bytes of an entry (R456). A destroyed one holds zeros for NONCE, WRAPPED and TAG (R462). -/
def keyEntryBytes (s : State) (i : Nat) (e : KeyEnt) : List Byte :=
  let head := leBytes 4 i ++ leBytes 1 (if e.live then 1 else 2) ++ leBytes 1 e.kind ++ leBytes 2 0 ++ leBytes 4 e.tenant ++ leBytes 4 e.serial
    ++ fit 8 e.print ++ leBytes 4 e.epoch ++ leBytes 4 0
  let w := if e.live then fit 32 (gcmSeal (wrapKey s) e.nonce e.secret) else leBytes 32 0
  let tag := if e.live then fit 16 (gcmTag (wrapKey s) e.nonce head w) else leBytes 16 0
  let b := head ++ fit 12 (if e.live then e.nonce else []) ++ leBytes 4 0 ++ w ++ tag ++ leBytes 24 0
  b ++ leBytes 8 (crc64 b)

/-- Writes an entry under a fresh nonce: the Keyhouse's view and its image in HBM (R456). -/
def setKey (s : State) (i : Nat) (e : KeyEnt) : State :=
  let e := { e with nonce := drbg s 12, bad := false }
  ({ s.takeFree with kh := { s.kh with keys := amSet i e s.kh.keys } }).wr (keyAddr s i) (keyEntryBytes s i e)

/-- What the Keyhouse finds of a live entry that it reads to fill a slot (R456): what it wrote there, or bytes whose CRC fails on both reads, or else whose tag fails. The entry is then no longer live. -/
def keyRead (s : State) (i : Nat) (e : KeyEnt) : State :=
  let img := s.rd (keyAddr s i) 128
  if img = keyEntryBytes s i e then s
  else
    let s := { s with kh := { s.kh with keys := amSet i { e with bad := true } s.kh.keys } }
    if leField img 0x78 8 ≠ crc64 (img.take 0x78) then lastingAt s (keyAddr s i) Detail.FLT_STACK 0
    else setEvent (scbNote s (faultRec Src.keyhouse Act.recorded 6 0 0 0)) Reg.KEY_EVENT_TAG 3

/-- A fill completes (R457): into a free slot, or over the least recently used unpinned one; with every slot pinned it waits and is counted. -/
def keySlotFillDone (s : State) (i : Nat) : State :=
  if !s.kh.filling.contains i then s
  else
    let s := match keyLive s i with | some e => keyRead s i e | none => s
    if (keyLive s i).isNone then { s with kh := { s.kh with filling := s.kh.filling.filter (· ≠ i) } }
    else if s.kh.resident.length < keySlots then
      keyRegs { s with kh := { s.kh with filling := s.kh.filling.filter (· ≠ i), resident := s.kh.resident ++ [i] } }
    else
      match s.kh.resident.find? fun j => amGetD j 0 s.kh.pins == 0 with
      | none => s.cnt Reg.KEY_CACHE_PINNED_WAIT 1
      | some j => keyRegs { s with kh := { s.kh with filling := s.kh.filling.filter (· ≠ i), resident := s.kh.resident.filter (· ≠ j) ++ [i] } }

/-- Pins an index while a queue pair holds traffic keys derived from it, and releases the pin (R457). -/
def keyPin (s : State) (i : Nat) : State := { s with kh := { s.kh with pins := amSet i (amGetD i 0 s.kh.pins + 1) s.kh.pins } }
def keyUnpin (s : State) (i : Nat) : State :=
  let n := amGetD i 0 s.kh.pins - 1
  { s with kh := { s.kh with pins := if n = 0 then amErase i s.kh.pins else amSet i n s.kh.pins } }

/-- A completed Keyhouse service, approved or not (R475): SipHash is the service that is not. -/
def keyServed (s : State) (approved : Bool) : State :=
  s.setR Reg.KEY_STATUS_LAST_APPROVED (b2n (approved && s.r Reg.KEY_POLICY_APPROVED == 1))

/-- What every zeroization overwrites (R479), the state the Keyhouse is left in, and its scale-book record. -/
def zeroize (s : State) (st : Nat) : State :=
  let s := { s with kh := { s.kh with resident := [], filling := [], pins := [], sessions := [], spdm := [], ide := [] },
                    trl := { s.trl with key := none } }
  let s := (keyRegs s).setR Reg.KEY_STATUS_STATE st
  let s := s.setR Reg.KEY_STATUS_PREFIX_LOADED 0
  scbNote s (faultRec Src.keyhouse Act.recorded 7 0 0 0)

/-- A failed self-test (R478). -/
def selfTestFail (s : State) : State :=
  let s := zeroize s 2
  let s := setEvent s Reg.KEY_EVENT_SELFTEST 3
  postFault s (faultRec Src.keyhouse Act.recorded 7 0 Status.fenced.code Detail.KEY_SELFTEST)

/-- Whether a port has a Secure IDE stream (R471). -/
def portSecure (s : State) (port : Nat) : Bool := s.kh.ide.any fun e => e.1 / 16 == port && e.2.secure

/-- A host-port doorbell under REQUIRE_IDE where the port has no Secure stream is discarded (R471). -/
def ideGate (s : State) (k : State) : State :=
  if s.r Reg.KEY_POLICY_REQUIRE_IDE == 1 && !portSecure s 15 then setEvent s Reg.KEY_EVENT_IDE 3 else k

end Sys2Proof.Machine
end

