-- ==== Sys2Proof/Machine/HostQueue.lean ====
section
/-! DEFINITION. The queue commands (R505), the doorbells of queues and slots (R512, R513, R521), interrupts (R524, R525) and the power states of functions (R499). -/

namespace Sys2Proof.Machine

/-- The queues of a function in use: submission queues and CQs, admin included (R505). -/
def queuesInUse (F : Fn) : Nat := F.sqs.length + F.cqs.length

/-- The function's queue limit: values above 16,384 act as 16,384 (HIF_FN_LIMIT). -/
def queueLimit (s : State) (f : Nat) : Nat := min 16384 (s.r (Reg.HIF_FN_LIMIT_QUEUES.at 8 f))

/-- A command that exceeds the queue limit (R505). -/
def limitDone : Done := { Done.of .noCredit 0 with reason := .limit }
/-- A command that names an absent queue or a CQ of the wrong type (R505). -/
def queueDone : Done := { Done.of .fenced 0 with reason := .queue }

/-- WQ_CREATE: a submission queue with the lowest free number (R505). -/
def wqCreateBody (c : Cmd) : Body := fun s _ =>
  let F := s.fn c.fn
  let cq := bits c.arg1 16 16
  if !cqIsCommand s c.fn cq then answer s queueDone
  else if queueLimit s c.fn ≤ queuesInUse F then answer s limitDone
  else
    match amFree F.sqs 1 16383 with
    | none => answer s limitDone
    | some q =>
      (s.setFn c.fn { F with sqs := amSet q ⟨c.arg0, bits c.arg1 0 5, cq, 0, 0, s.now⟩ F.sqs },
       some { Done.ok with value := q })

def execWqCreate (c : Cmd) (s : State) : Host.Outcome State Fault Refusal := runPlain s Op.WQ_CREATE c (wqCreateBody c)

/-- CQ_CREATE: a completion queue with the lowest free number, its type, vector and coalescing (R505, R524). -/
def cqCreateBody (c : Cmd) : Body := fun s _ =>
  let F := s.fn c.fn
  if queueLimit s c.fn ≤ queuesInUse F then answer s limitDone
  else
    match amFree F.cqs 1 16383 with
    | none => answer s limitDone
    | some q =>
      let n : Cq := { base := c.arg0, log2 := bits c.arg1 0 5, typ := bits c.arg1 8 1, vector := bits c.arg1 16 5,
                      coalCount := bits c.arg1 24 8, coalUs := bits c.arg1 32 16, written := 0, consumed := 0, held := [],
                      unsig := 0, firstUnsig := none }
      (s.setFn c.fn { F with cqs := amSet q n F.cqs }, some { Done.ok with value := q })

def execCqCreate (c : Cmd) (s : State) : Host.Outcome State Fault Refusal := runPlain s Op.CQ_CREATE c (cqCreateBody c)

/-- RQ_CREATE: a receive ring with the lowest free number from 1, tied to a transport CQ (R505). -/
def rqCreateBody (c : Cmd) : Body := fun s _ =>
  let F := s.fn c.fn
  let cq := bits c.arg1 16 16
  match amGet cq F.cqs with
  | none => answer s queueDone
  | some q =>
    if q.typ ≠ 1 then answer s queueDone
    else
      match amFree F.rqs 1 16383 with
      | none => answer s limitDone
      | some n =>
        (s.setFn c.fn { F with rqs := amSet n ⟨c.arg0, bits c.arg1 0 5, cq, 0, 0⟩ F.rqs }, some { Done.ok with value := n })

def execRqCreate (c : Cmd) (s : State) : Host.Outcome State Fault Refusal := runPlain s Op.RQ_CREATE c (rqCreateBody c)

/-- Whether a command of submission queue `q` of `f`, other than `c` itself, is unfinished (R505). -/
def sqBusy (s : State) (f q : Nat) (o : Nat) (c : Cmd) : Bool :=
  (s.hif.taken.any fun t => t.cmd.fn == f && t.cmd.sq == q && !(t.op == o && t.cmd == c))
  || (match amGet q (s.fn f).sqs with | some w => decide (w.head < w.tail) | none => false)

/-- WQ_DESTROY: CONFLICT for queue 0 or while a command of the queue is unfinished, itself not counted (R505). -/
def wqDestroyBody (c : Cmd) : Body := fun s _ =>
  let F := s.fn c.fn
  if c.arg0 = 0 then fail s .conflict 0
  else if !amHas c.arg0 F.sqs then answer s queueDone
  else if sqBusy s c.fn c.arg0 Op.WQ_DESTROY c then fail s .conflict 0
  else (s.setFn c.fn { F with sqs := amErase c.arg0 F.sqs }, some Done.ok)

def execWqDestroy (c : Cmd) (s : State) : Host.Outcome State Fault Refusal := runPlain s Op.WQ_DESTROY c (wqDestroyBody c)

/-- Whether a live object of function `f` names CQ `q`: a submission queue, a receive ring, a context, a QP, or a command whose completion goes there (R505). -/
def cqNamed (s : State) (f q : Nat) (o : Nat) (c : Cmd) : Bool :=
  (s.fn f).sqs.any (fun e => e.2.cq == q)
  || (s.fn f).rqs.any (fun e => e.2.cq == q)
  || s.sch.ctxs.any (fun e => bits e.2.hostCq 16 6 == f && bits e.2.hostCq 0 16 == q)
  || s.cwt.qps.any (fun e => e.2.fn == f && e.2.cq == q)
  || s.hif.taken.any (fun t => t.cmd.fn == f && t.cmd.cq == q && !(t.op == o && t.cmd == c))

/-- CQ_DESTROY: CONFLICT for queue 0, for the CQ it names for its own completion (which then goes to its queue's default CQ), or while something names it (R505). -/
def cqDestroyBody (c : Cmd) : Body := fun s _ =>
  let F := s.fn c.fn
  if c.arg0 = 0 then fail s .conflict 0
  else
    match amGet c.arg0 F.cqs with
    | none => answer s queueDone
    | some q =>
      if c.cq = c.arg0 then answer s { Done.of .conflict 0 with defaultCq := true }
      else if cqNamed s c.fn c.arg0 Op.CQ_DESTROY c || !q.held.isEmpty then fail s .conflict 0
      else (s.setFn c.fn { F with cqs := amErase c.arg0 F.cqs }, some Done.ok)

def execCqDestroy (c : Cmd) (s : State) : Host.Outcome State Fault Refusal := runPlain s Op.CQ_DESTROY c (cqDestroyBody c)

/-- RQ_DESTROY: drops a receive ring (R505). -/
def rqDestroyBody (c : Cmd) : Body := fun s _ =>
  let F := s.fn c.fn
  if !amHas c.arg0 F.rqs then answer s queueDone
  else (s.setFn c.fn { F with rqs := amErase c.arg0 F.rqs }, some Done.ok)

def execRqDestroy (c : Cmd) (s : State) : Host.Outcome State Fault Refusal := runPlain s Op.RQ_DESTROY c (rqDestroyBody c)

/-! ### Doorbells (R512, R513, R521) -/

/-- A doorbell discarded and counted (R512, R513). -/
def dbErr (s : State) (f : Nat) : State := s.cnt (Reg.HIF_FN_ERR_DB_ERR.ofFn f) 1

/-- The submission tail doorbell: accepted from 0 to the ring size ahead of the entries taken (R513). -/
def sqTailDoorbell (s : State) (f q v : Nat) : State :=
  let F := s.fn f
  match amGet q F.sqs with
  | none => dbErr s f
  | some w =>
    let d := (v + 2 ^ 32 - w.head % 2 ^ 32) % 2 ^ 32
    if v < 2 ^ 32 ∧ d ≤ 2 ^ w.log2 then s.setFn f { F with sqs := amSet q { w with tail := w.head + d, since := if w.head = w.tail then s.now else w.since } F.sqs }
    else dbErr s f

def execSqTailDoorbell (fn q v : Nat) (s : State) : Host.Outcome State Fault Refusal :=
  withUnit s (fn < 64) (ideGate s (sqTailDoorbell s fn q v))

/-- The completion head doorbell: accepted from the present head to the entries written, after which held completions are posted in order (R513, R517). -/
def cqHeadDoorbell (s : State) (f q v : Nat) : State :=
  let F := s.fn f
  match amGet q F.cqs with
  | none => dbErr s f
  | some c =>
    let d := (v + 2 ^ 32 - c.consumed % 2 ^ 32) % 2 ^ 32
    if v < 2 ^ 32 ∧ d ≤ c.written - c.consumed then
      cqDrain (s.setFn f { F with cqs := amSet q { c with consumed := c.consumed + d } F.cqs }) f q c.held.length
    else dbErr s f

def execCqHeadDoorbell (fn q v : Nat) (s : State) : Host.Outcome State Fault Refusal :=
  withUnit s (fn < 64) (ideGate s (cqHeadDoorbell s fn q v))

/-- The receive-ring doorbell: ring in [31:0], entries posted in [63:32], accepted from 0 to the ring size ahead of the entries taken (R512, R513). -/
def rqDoorbell (s : State) (f v : Nat) : State :=
  let F := s.fn f
  match amGet (bits v 0 32) F.rqs with
  | none => dbErr s f
  | some w =>
    let d := (bits v 32 32 + 2 ^ 32 - w.taken % 2 ^ 32) % 2 ^ 32
    if d ≤ 2 ^ w.log2 then s.setFn f { F with rqs := amSet (bits v 0 32) { w with posted := w.taken + d } F.rqs }
    else dbErr s f

def execRqDoorbell (fn v : Nat) (s : State) : Host.Outcome State Fault Refusal :=
  withUnit s (fn < 64) (ideGate s (rqDoorbell s fn v))

/-- The result-slot consume doorbell: frees a finished slot; a free or pending one stays (R521). -/
def resultConsume (s : State) (f v : Nat) : State :=
  let F := s.fn f
  match if v < 1024 then amGet v F.slots else none with
  | some (.done _) => s.setFn f { F with slots := amErase v F.slots }
  | _ => dbErr s f

def execResultConsume (fn v : Nat) (s : State) : Host.Outcome State Fault Refusal :=
  withUnit s (fn < 64) (ideGate s (resultConsume s fn v))

/-- The image a read of result slot `i` returns (R519, R520): PENDING and zeros for a free or named slot. -/
def slotRead (s : State) (f i : Nat) : List Byte :=
  match amGet i (s.fn f).slots with
  | some (.done img) => img
  | _ => leBytes 512 Status.pending.code

/-! ### Interrupts and function power (R499, R524, R525) -/

/-- COAL_US has passed since a CQ's first unsignalled entry: its interrupt signals every entry written (R524). -/
def cqCoalesce (s : State) (f q : Nat) : State :=
  match amGet q (s.fn f).cqs with
  | none => s
  | some c =>
    match c.firstUnsig with
    | some t => if c.coalUs ≠ 0 ∧ t + c.coalUs * 1000 ≤ s.now then cqSignal s f q c else s
    | none => s

def execCqCoalesceTimer (fn q : Nat) (s : State) : Host.Outcome State Fault Refusal :=
  withUnit s (fn < 64) (cqCoalesce s fn q)

/-- Unmasking a vector sends its message if its pending bit is set (R524). -/
def msixUnmask (s : State) (f vec : Nat) : State :=
  let F := s.fn f
  let F' := { F with unmasked := if F.unmasked.contains vec then F.unmasked else vec :: F.unmasked,
                     msixPending := F.msixPending.filter (· ≠ vec) }
  let s' := s.setFn f F'
  if F.msixPending.contains vec && !F.d3hot then s'.emit (.msix f vec)
  else if F.msixPending.contains vec then s.setFn f { F' with msixPending := F.msixPending } else s'

def execMsixUnmask (fn vec : Nat) (s : State) : Host.Outcome State Fault Refusal :=
  withUnit s (fn < 64 && vec < 32) (msixUnmask s fn vec)

/-- Posts what every CQ of a function holds, while it has room. -/
def drainAllCqs (s : State) (f : Nat) : State :=
  (s.fn f).cqs.foldl (fun s e => cqDrain s f e.1 e.2.held.length) s

/-- Sends every pending message whose vector is unmasked. -/
def sendPendingMsix (s : State) (f : Nat) : State :=
  let F := s.fn f
  let go := F.msixPending.filter F.unmasked.contains
  let s := s.setFn f { F with msixPending := F.msixPending.filter fun v => !F.unmasked.contains v }
  go.foldl (fun s v => s.emit (.msix f v)) s

/-- A function enters D3hot, where no commands are fetched and no interrupts sent, or leaves it, whereupon its held completions and pending messages go out (R499). -/
def d3hotChange (s : State) (f : Nat) (enter : Bool) : State :=
  let s := s.setFn f { s.fn f with d3hot := enter }
  if enter then s else sendPendingMsix (drainAllCqs s f) f

def execD3hotChange (fn : Nat) (enter : Bool) (s : State) : Host.Outcome State Fault Refusal :=
  withUnit s (fn < 64) (d3hotChange s fn enter)

/-- Whether some event bit of a cause is set (R525, HIF_EVT_STATUS.PENDING): for the management cause, an unconsumed fault record counts. -/
def causePending (s : State) (c : Nat) : Bool :=
  match c with
  | 0 => [Reg.SCH_CTX_EVENT_ORPHAN, Reg.SCH_CTX_EVENT_UNRESOLVED, Reg.SCH_CTX_EVENT_SUPERSEDED, Reg.SCH_CTX_EVENT_CTX_CRC,
          Reg.SCH_CTX_EVENT_SPILL_TAG].any fun f => s.r f == 1
  | 1 => [Reg.CWT_QP_EVENT_ERROR, Reg.CWT_QP_EVENT_GIVE_UP, Reg.CWT_QP_EVENT_AUTH, Reg.CWT_QP_EVENT_MISSQ_DROP,
          Reg.CWT_QP_EVENT_DRAINED, Reg.CWT_MEM_EVENT_INDETERMINATE, Reg.CWT_MEM_EVENT_CONFLICT, Reg.CWT_MEM_EVENT_SNAGGED,
          Reg.CWT_MEM_EVENT_HOT_FAULT].any fun f => s.r f == 1
  | 2 => s.r Reg.HIF_XW_EVENT_DOORBELL != 0
  | 3 => decide (s.r Reg.MGT_FLT_HEAD_HEAD < s.mgt.fltTail) || !s.mgt.fltHeld.isEmpty
         || [Reg.KEY_EVENT_SELFTEST, Reg.KEY_EVENT_IDE, Reg.KEY_EVENT_TAG, Reg.KEY_EVENT_TAMPER, Reg.SCB_EVENT_DISCARD,
             Reg.SCB_EVENT_FLUSH_DONE, Reg.SCB_EVENT_EOL_WARN].any fun f => s.r f == 1
  | _ => false

/-- The row of HIF_EVT_CFG in the register map. -/
def evtCfgRow : RegRow :=
  ⟨"HIF_EVT_CFG", 0x1000600, 32, [],
   [Reg.HIF_EVT_CFG_EN_MGT, Reg.HIF_EVT_CFG_VEC_MGT, Reg.HIF_EVT_CFG_EN_HIF, Reg.HIF_EVT_CFG_VEC_HIF, Reg.HIF_EVT_CFG_EN_CWT,
    Reg.HIF_EVT_CFG_VEC_CWT, Reg.HIF_EVT_CFG_EN_SCH, Reg.HIF_EVT_CFG_VEC_SCH]⟩

/-- A write to HIF_EVT_CFG: setting EN of a cause whose status reads 1 sends one message (R525). -/
def hifEvtCfgWrite (s : State) (v : Nat) : State :=
  let s' := { s with regs := rowWrite (s.r Reg.MGT_BOOT_STATUS_LOCKED == 1) s.regs evtCfgRow 0 v }
  [0, 1, 2, 3].foldl (fun t c =>
    let e := (eventCfg c).1
    if s.r e = 0 ∧ s'.r e = 1 ∧ causePending s' c then eventMessage t c else t) s'

def execHifEvtCfgWrite (v : Nat) (s : State) : Host.Outcome State Fault Refusal := nextOf s (hifEvtCfgWrite s v)

end Sys2Proof.Machine
end

