-- ==== Sys2Proof/Machine/Composition.lean ====
section
/-! DEFINITION. The fleet map and role changes (spec/17): MAP_INSTALL, ROLE_BEGIN, ROLE_ABORT, and how an arriving epoch is judged (R419). -/

namespace Sys2Proof.Machine

/-- MAP_INSTALL: the rows of R417 in their order. -/
def mapInstallBody (_ : Cmd) : Body := fun s d =>
  let epoch := leField d 0 2
  let node := leField d 2 2
  let role := leField d 4 1
  let fl := leField d 5 1
  let succ := leField d 6 2
  let tag := leField d 8 8
  let join := bit fl 0
  let leave := bit fl 1
  let n := s.r Reg.MGT_MAP_EPOCH_EPOCH
  let joined := s.r Reg.MGT_MAP_EPOCH_JOINED == 1
  let dist := (epoch + 65536 - n) % 65536
  let end_ (st : Status) (dt : Nat) : Option Done := some { Done.of st dt with result := tag }
  if node = 0 ∨ 4 < role ∨ 4 ≤ fl ∨ !allZero (d.drop 0x10) ∨ (join ∧ leave) then (s, end_ .fenced Detail.MAP_SEQ)
  else if join ∧ s.nodeId ≠ 0 then
    if epoch = n ∧ node = s.nodeId ∧ role = s.role ∧ succ = s.r Reg.MGT_MAP_SUCC_SUCC then (s, end_ .ok 0)
    else (s, end_ .conflict Detail.MAP_SEQ)
  else if !join ∧ (!joined ∨ node ≠ s.nodeId) then (s, end_ .conflict Detail.MAP_SEQ)
  else if role ≠ s.role then (s, end_ .conflict Detail.MAP_ROLE)
  else if join then
    (((((s.setR Reg.MGT_ROLE_NODE_ID node).setR Reg.MGT_MAP_EPOCH_EPOCH epoch).setR Reg.MGT_MAP_EPOCH_JOINED 1).setR
      Reg.MGT_MAP_EPOCH_ROLE_LIVE 1).setR Reg.MGT_MAP_SUCC_SUCC succ, end_ .ok 0)
  else if leave then
    if role = roleUnassigned then
      ((((s.setR Reg.MGT_ROLE_NODE_ID 0).setR Reg.MGT_MAP_EPOCH_EPOCH 0).setR Reg.MGT_MAP_EPOCH_JOINED 0).setR
        Reg.MGT_MAP_EPOCH_ROLE_LIVE 0, end_ .ok 0)
    else (s, end_ .conflict Detail.MAP_ROLE)
  else if dist = 0 then
    if succ = s.r Reg.MGT_MAP_SUCC_SUCC then (s, end_ .ok 0) else (s, end_ .conflict Detail.MAP_SEQ)
  else if dist = 1 then
    (((s.setR Reg.MGT_MAP_EPOCH_EPOCH epoch).setR Reg.MGT_MAP_SUCC_SUCC succ).setR Reg.MGT_MAP_EPOCH_ROLE_LIVE 1, end_ .ok 0)
  else if dist < 32768 then (s, end_ .conflict Detail.MAP_SEQ)
  else (s, end_ .stale 0)

def execMapInstall (c : Cmd) (s : State) : Host.Outcome State Fault Refusal := runPlain s Op.MAP_INSTALL c (mapInstallBody c)

/-- A node ID this node answers for: its own, or the alias it has taken (R386). -/
def ownNode (s : State) (n : Nat) : Bool :=
  n == s.nodeId || (s.r Reg.TIR_CP_ALIAS_VALID == 1 && n == s.r Reg.TIR_CP_ALIAS_NODE)

/-- Whether a roll or a firmware activation is in progress. -/
def rollOrActivation (s : State) : Bool := s.mgt.roll.isSome || s.mgt.activating.isSome

/-- Whether MGT_ROLE.CHANGING reads 1. -/
def State.changing (s : State) : Bool := s.r Reg.MGT_ROLE_CHANGING == 1

/-- ROLE_BEGIN (R423). A ROLE_NEXT value that R17's encoding reserves is refused as out of range (log 16). -/
def roleBeginBody (c : Cmd) : Body := fun s _ =>
  let nxt := bits c.arg0 0 3
  let q := bit c.arg0 8
  if 4 < nxt then (s, refusal .format 0)
  else if q ∧ s.role ≠ roleCache then fail s .fenced Detail.DRAIN_PENDING
  else if rollOrActivation s then fail s .conflict Detail.ROLE_BUSY
  else if s.changing then
    if nxt = s.r Reg.MGT_ROLE_ROLE_NEXT ∧ q = (s.r Reg.MGT_ROLE_DRAIN_QUIESCE == 1) then answer s Done.ok
    else fail s .conflict Detail.ROLE_BUSY
  else
    (((s.setR Reg.MGT_ROLE_ROLE_NEXT nxt).setR Reg.MGT_ROLE_CHANGING 1).setR Reg.MGT_ROLE_DRAIN_QUIESCE (b2n q), some Done.ok)

/-- ROLE_ABORT: accepted while CHANGING is 1 and QUIESCED is 0 (R427). -/
def roleAbortBody (_ : Cmd) : Body := fun s _ =>
  if s.changing ∧ s.r Reg.MGT_ROLE_DRAIN_QUIESCED = 0 then
    (((s.setR Reg.MGT_ROLE_ROLE_NEXT s.role).setR Reg.MGT_ROLE_CHANGING 0).setR Reg.MGT_ROLE_DRAIN_QUIESCE 0, some Done.ok)
  else fail s .conflict Detail.ROLE_BUSY

def execRoleAbort (c : Cmd) (s : State) : Host.Outcome State Fault Refusal := runPlain s Op.ROLE_ABORT c (roleAbortBody c)

/-- How the epoch rules judge an arriving packet's or message's epoch (R419). -/
inductive EpochView where
  | current | old | ahead
  deriving DecidableEq, Repr

/-- R419's view of epoch `e` at a node whose epoch is N. -/
def epochView (s : State) (e : Nat) : EpochView :=
  let b := (s.r Reg.MGT_MAP_EPOCH_EPOCH + 65536 - e % 65536) % 65536
  if b = 0 ∨ b = 1 ∨ b = 65535 then .current
  else if b < 32768 then .old else .ahead

/-- A message from node `src`: a mixed-role controller takes none from another node and counts it as a map reject (R16). -/
def fromNode (s : State) (src : Nat) (t : State) : State :=
  if s.role = roleMixed ∧ src ≠ s.nodeId then s.cnt Reg.CWT_DROP_MAP_REJECT 1 else t


end Sys2Proof.Machine
end

