-- ==== Sys2Proof/Machine/Parity.lean ====
section
/-! DEFINITION. The protected space of a cache-role node and the protected write path (R379 to R384, R388, R390, R396), and where accesses to memory cannot go (R445, R546). -/

namespace Sys2Proof.Machine

/-! ### The protected space (R379) -/

/-- Bytes of a stripe unit and of a page (R379). -/
def unitBytes : Nat := 65536
def pageBytes : Nat := 2097152

/-- The size S of the protected space. -/
def protSize (s : State) : Nat := (List.range 16).foldl (fun t n => t + areaSize s n) 0

/-- The extended address of a protected byte. -/
def protAddr (s : State) (o : Nat) : Nat :=
  ((List.range 16).foldl (fun (acc : Option Nat × Nat) n =>
    match acc with
    | (some a, t) => (some a, t)
    | (none, t) => if o < t + areaSize s n then (some (areaBase s n + (o - t)), t) else (none, t + areaSize s n)) (none, 0)).1.getD 0

/-- Whether `n` bytes from `a` lie wholly in one protected area. -/
def inProt (s : State) (a n : Nat) : Bool :=
  (List.range 16).any fun k => decide (areaBase s k ≤ a) && decide (a + n ≤ areaBase s k + areaSize s k)

/-- Whether this node is a data member (R380). -/
def dataMember (s : State) : Bool := s.r Reg.TIR_CP_GROUP_D_EN == 1

/-- The parts of `n` bytes from an address that lie in protected areas: protected offset, address, bytes (R379). -/
def protParts (s : State) (a n : Nat) : List (Nat × Nat × Nat) :=
  ((List.range 16).foldl (fun (p : List (Nat × Nat × Nat) × Nat) k =>
    let lo := max a (areaBase s k)
    let hi := min (a + n) (areaBase s k + areaSize s k)
    (if lo < hi then p.1 ++ [(p.2 + (lo - areaBase s k), lo, hi - lo)] else p.1, p.2 + areaSize s k)) ([], 0)).1

/-- The blocks of `z` bytes that `n` bytes from offset `o` touch. -/
def blocksOf (z o n : Nat) : List Nat := if n = 0 then [] else (List.range ((o + n - 1) / z - o / z + 1)).map (· + o / z)

/-- The stripe units that the protected ones of `n` bytes from an address touch. -/
def unitsOf (s : State) (a n : Nat) : List Nat := (protParts s a n).flatMap fun p => blocksOf unitBytes p.1 p.2.2

/-- Where unit u of the parity area lies. -/
def parAddr (s : State) (u : Nat) : Nat := s.r Reg.TIR_CP_PAR_BASE_BASE * 2 ^ 21 + u * unitBytes

/-- Bytes of the parity area: those of the region registered at its base (R381). -/
def parSize (s : State) : Nat := match s.rm.regions.find? fun e => e.2.base == parAddr s 0 && !e.2.closing with | some e => e.2.length | none => 0

/-- The parity units of this node that `n` bytes from an address touch. -/
def parUnitsOf (s : State) (a n : Nat) : List Nat :=
  let lo := max a (parAddr s 0)
  let hi := min (a + n) (parAddr s 0 + parSize s)
  if s.r Reg.TIR_CP_GROUP_P_EN = 1 ∧ lo < hi then blocksOf unitBytes (lo - parAddr s 0) (hi - lo) else []

/-! ### Units that hold an operation up (R385, R388) -/

/-- Whether a unit of this spare, or of its parity area, is not built yet (R387). -/
def unitUnbuilt (s : State) (parity : Bool) (u : Nat) : Bool := s.cp.unPar == parity && decide (u < s.cp.unTo) && !s.cp.built.contains u

/-- Whether an unbuilt unit of this spare will stay so, because its rebuild has ended (R389). -/
def unitGone (s : State) (parity : Bool) (u : Nat) : Bool := s.cp.rebuild.isNone && unitUnbuilt s parity u

/-- The same of a unit of the protected space. -/
def unitLost (s : State) (u : Nat) : Bool := unitGone s false u

/-- Whether a unit that an operation touches is lost for good (R389). -/
def doubleLost (s : State) (a n : Nat) : Bool := (unitsOf s a n).any (unitLost s) || (parUnitsOf s a n).any (unitGone s true)

/-- Moves an unbuilt unit to the front of the rebuild (R388). -/
def unitToFront (s : State) (u : Nat) : State :=
  if s.cp.front.contains u then s else { s with cp := { s.cp with front := s.cp.front ++ [u] } }

/-- Whether a reconstructor has this member's unit locked (R385). -/
def unitLocked (s : State) (u : Nat) : Bool := s.cp.locks.any fun l => l.2.unit == u && !l.2.released

/-- Whether a unit of this member is under repair (R446). -/
def unitRepaired (s : State) (u : Nat) : Bool := s.cp.jobs.any fun j => j.use == .repair && j.unit == u

/-- Units that make an operation wait: unbuilt ones of this spare, of its protected space or its parity area (R388), and for a write those a reconstructor has locked (R385) and those under repair (R446). -/
def blockedUnits (s : State) (a n : Nat) (write : Bool) : List Nat :=
  ((unitsOf s a n).filter fun u => unitUnbuilt s false u || (write && (unitLocked s u || unitRepaired s u)))
  ++ (parUnitsOf s a n).filter (unitUnbuilt s true)

/-- An operation that must wait for its units: unbuilt ones move to the front, and a write that a lock holds is counted, once (R385, R388). -/
def blockOn (s : State) (us : List Nat) : State :=
  let s := (us.filter fun u => !unitLocked s u).foldl unitToFront s
  if us.any (unitLocked s) then s.cnt Reg.TIR_CP_COUNT_LOCK_HELD 1 else s

/-- Holds work until its units are free; work held before is not counted again. -/
def holdWork (s : State) (us : List Nat) (w : HeldWork) : State :=
  if s.cp.held.contains w then us.foldl unitToFront s
  else
    let s := blockOn s us
    { s with cp := { s.cp with held := s.cp.held ++ [w] } }

/-- Work is held no longer. -/
def unhold (s : State) (w : HeldWork) : State :=
  if s.cp.held.contains w then { s with cp := { s.cp with held := s.cp.held.filter (· ≠ w) } } else s

/-- The deltas sent since a state that are still in flight. -/
def newDeltas (old s : State) : List Nat :=
  ((List.range (s.cp.nextDelta - old.cp.nextDelta)).map (· + old.cp.nextDelta)).filter fun d => amHas d s.cp.deltas

/-- Has something wait for deltas. -/
def waitDeltas (s : State) (ds : List Nat) (w : After) : State := { s with cp := { s.cp with waits := s.cp.waits ++ [(ds, w)] } }

/-! ### Bandwidth classes (R393, R394) -/

/-- Whether a bandwidth class of a cache-role node is at its cap in the current window (R394); a budget of 0 acts as 1. -/
def classCapped (s : State) (c : Nat) : Bool :=
  s.role == roleCache && s.cp.bwStart == s.now / 10000 &&
    decide (s.r (Reg.TIR_CP_BW_CLASS_CAP_PCT.at 4 c) * max 1 (s.r Reg.TIR_CP_BW_BUDGET_GBPS) * 10000 ≤ 100 * s.cp.bwBytes.getD c 0)

/-- Charges bytes that a cache-role node reads or writes to a bandwidth class (R393, R394); the window in which it reaches its cap is counted. -/
def chargeClass (s : State) (c n : Nat) : State :=
  if s.role ≠ roleCache then s
  else
    let w := s.now / 10000
    let b := if s.cp.bwStart = w then s.cp.bwBytes else [0, 0, 0, 0]
    let was := classCapped s c
    let s := { s with cp := { s.cp with bwStart := w, bwBytes := listMod c (· + n) b } }
    if !was && classCapped s c then s.wrap (Reg.TIR_CP_BW_CAPPED_WINDOWS.at 4 c) 1 else s

/-! ### The combining table (R352, R353) -/

/-- The hot lines among those that `n` bytes at an address touch. -/
def hotIn (s : State) (a n : Nat) : AMap HotLine :=
  if n = 0 then [] else s.rm.hot.filter fun e => decide (a / 64 ≤ e.1) && decide (e.1 ≤ (a + n - 1) / 64)

/-- `n` bytes at an address as an operation on a region sees them: a hot line's from the combining table, all others from memory. -/
def State.opRd (s : State) (a n : Nat) : List Byte :=
  (hotIn s a n).foldl (fun b e =>
    let lo := max a (64 * e.1)
    let hi := min (a + n) (64 * e.1 + 64)
    splice b (lo - a) ((e.2.bytes.drop (lo - 64 * e.1)).take (hi - lo))) (s.rd a n)

/-- A line is written back to its region and leaves the table. -/
def hotDrop (s : State) (line : Nat) : State :=
  match amGet line s.rm.hot with
  | none => s
  | some h =>
    let s := { s with rm := { s.rm with hot := amErase line s.rm.hot } }.wr (64 * line) h.bytes
    s.setR Reg.CWT_HOT_STATUS_LINES s.rm.hot.length

/-- A mover access of the home to hot lines writes them back first and takes them out of the table (R353). -/
def hotEvict (s : State) (a n : Nat) : State := (hotIn s a n).foldl (fun s e => hotDrop s e.1) s

/-! ### Protected writes (R383, R384) -/

/-- XOR of two byte lists. -/
def xorBytes (a b : List Byte) : List Byte := (a.zip b).map fun e => e.1 ^^^ e.2

/-- The runs of consecutive 64-byte lines whose delta is not zero, from protected line `x` on, each run's bytes at most 8,704 (R383). -/
def deltaRuns : Nat → List (List Byte) → List (Nat × List Byte)
  | _, [] => []
  | x, d :: ds =>
    if allZero d then deltaRuns (x + 1) ds
    else
      match deltaRuns (x + 1) ds with
      | (y, b) :: rest => if y = x + 1 ∧ b.length + 64 ≤ 8704 then (x, d ++ b) :: rest else (x, d) :: (y, b) :: rest
      | [] => [(x, d)]

/-- Sends one delta to the parity node and remembers it (R383). -/
def sendDelta (s : State) (x : Nat) (b : List Byte) : State × Nat :=
  let n := s.cp.nextDelta
  let us := [64 * x / unitBytes, (64 * x + b.length - 1) / unitBytes].eraseDups
  let s := { s with cp := { s.cp with deltas := amSet n ⟨us, s.now⟩ s.cp.deltas, nextDelta := n + 1 } }
  (s.emit (.msg (s.r (Reg.TIR_CP_MEMBER_NODE.at 4 8)) (.delta n (s.r Reg.TIR_CP_PKEY_KEY) (64 * x) b)), n)

/-- The 64-byte lines that a protected part of a write touches: the first one's number, its address, and their bytes. -/
def partLines (s : State) (p : Nat × Nat × Nat) : Nat × Nat × List Byte :=
  let base := p.2.1 - p.1 % 64
  (p.1 / 64, base, s.rd base (64 * ((p.1 + p.2.2 - 1) / 64 - p.1 / 64 + 1)))

/-- Stores bytes at an address by the protected write path (R383): the bytes, and outside a degraded node the deltas of every changed line, whose numbers it returns; the old lines it reads are charged to the ingest class (R393). A degraded member marks the units dirty and counts the write (R384). -/
def protWrite (s : State) (a : Nat) (b : List Byte) : State × List Nat :=
  let ps := protParts s a b.length
  if ps.isEmpty ∨ !dataMember s then (s.wr a b, [])
  else if s.r Reg.TIR_CP_GROUP_DEGRADED = 1 then
    let us := unitsOf s a b.length
    let s := (s.wr a b).cnt Reg.TIR_CP_COUNT_DEGRADED 1
    ({ s with cp := { s.cp with dirty := s.cp.dirty ++ us.filter (fun u => !s.cp.dirty.contains u), clean := s.cp.clean.filter fun u => !us.contains u } }, [])
  else
    let old := ps.map (partLines s)
    let s := (chargeClass s 1 b.length).wr a b
    (old.flatMap fun o => deltaRuns o.1 (chunks 64 (xorBytes o.2.2 (s.rd o.2.1 o.2.2.length)))).foldl (fun acc r =>
      let p := sendDelta acc.1 r.1 r.2
      (p.1, acc.2 ++ [p.2])) (s, [])

/-- An operation's bytes go to the region: those of hot lines to the combining table, the rest to memory by the protected write path (R352, R383). -/
def State.opWr (s : State) (a : Nat) (b : List Byte) : State × List Nat :=
  if (hotIn s a b.length).isEmpty then protWrite s a b
  else
    (blocksOf 64 a b.length).foldl (fun acc l =>
      let lo := max a (64 * l)
      let part := (b.drop (lo - a)).take (64 * l + 64 - lo)
      match amGet l acc.1.rm.hot with
      | some h => ({ acc.1 with rm := { acc.1.rm with hot := amSet l { h with bytes := splice h.bytes (lo - 64 * l) part } acc.1.rm.hot } }, acc.2)
      | none => let w := protWrite acc.1 lo part; (w.1, acc.2 ++ w.2)) (s, [])

/-- A store of the home's own by the protected write path, hot lines written back first (R353); what must wait for its deltas finds them by `newDeltas`. -/
def putBytes (s : State) (a : Nat) (b : List Byte) : State := (protWrite (hotEvict s a b.length) a b).1

/-- Clears a range as one protected write of zeros would, line by line where something is not zero already; memory outside the protected space reads as at reset. -/
def putZeros (s : State) (a n : Nat) : State :=
  let mine (k : Nat) : Bool := decide (a ≤ k) && decide (k < a + n)
  if dataMember s then
    (((s.mem.map (·.1)).filter mine).map (· / 64)).eraseDups.foldl (fun s l =>
      let lo := max a (64 * l)
      putBytes s lo (List.replicate (min (a + n) (64 * l + 64) - lo) 0)) s
  else { s with mem := amFilter (fun k _ => !mine k) s.mem }

/-! ### Page access counters (R390), and accesses by the node's own movers -/

/-- Where page p's counter stands in the table at TIR_CP_ACC_BASE, and its value. -/
def pageAt (s : State) (p : Nat) : Nat := s.r Reg.TIR_CP_ACC_BASE_BASE * 2 ^ 21 + 2 * p
def pageCount (s : State) (p : Nat) : Nat := leField (s.rd (pageAt s p) 2) 0 2

/-- Counts an access to the pages that the protected ones of some bytes touch, on a cache-role node; the counter is 16 bits and saturates. -/
def pageTouch (s : State) (a n : Nat) : State :=
  if s.role ≠ roleCache then s
  else
    ((protParts s a n).flatMap fun p => blocksOf pageBytes p.1 p.2.2).foldl (fun s p => s.wr (pageAt s p) (leBytes 2 (satAdd 16 (pageCount s p) 1))) s

/-- A mover's access to this node's memory: pages counted (R390), hot lines written back (R353). -/
def homeAccess (s : State) (a n : Nat) : State := hotEvict (pageTouch s a n) a n

/-- A tier manager's copy to or from this node's memory: as a mover's, and charged to the movement class on a cache-role node (R393). -/
def copyAccess (s : State) (a n : Nat) : State :=
  chargeClass (homeAccess s a n) 3 n

end Sys2Proof.Machine
end

