-- ==== Sys2Proof/Machine/Cuts.lean ====
section
/-! DEFINITION. Cuts and their homes (spec/03 R66 to R78, spec/08 R194 to R204): slot sizes, slice groups, cut-map entries, cut pools, and what a home does with RESERVE, MOVE_OUT, CONFIRM, FREE, HOLD and leases. -/

namespace Sys2Proof.Machine

/-! ### Geometry (R19, R66, R67, R74) -/

/-- The head dimension of an HDIM code (R67). -/
def hdimOf : Nat → Nat
  | 0 => 64 | 1 => 96 | 2 => 128 | 3 => 192 | 4 => 256 | _ => 0

/-- The size of a bolt slot in bytes (R66, R67): 64 + 64·d·w, and 4·d of scale entries where the format is MX. -/
def slotBytes (format hdim : Nat) : Nat :=
  let d := hdimOf hdim
  match format with
  | 1 => 64 + 128 * d
  | 2 => 64 + 64 * d + 4 * d
  | 3 => 64 + 32 * d + 4 * d
  | _ => 0

/-- How many cuts a model's heads are spread over (R19). -/
def spreadOf (kvHeads : Nat) : Nat := if 8 ≤ kvHeads then 1 else 8 / max 1 kvHeads

/-- The affinity index of KV head h in the k-th cut (R19). -/
def affinity (kvHeads h k : Nat) : Nat := if 8 ≤ kvHeads then h else h + kvHeads * (k % spreadOf kvHeads)

/-- The column and stack of an affinity index (R19). -/
def columnOf (a : Nat) : Nat := a % 8

/-- The slice group of cut k (R74, R76). -/
def sliceGroup (kvHeads k : Nat) : Nat := k % spreadOf kvHeads

/-- Bolts per layer that cut group g keeps on stack s (R74). -/
def boltsOn (kvHeads g s : Nat) : Nat :=
  ((List.range kvHeads).filter fun h => decide (columnOf (affinity kvHeads h g) = s)).length

/-- The rank of a head within its slice (R74). -/
def headRank (kvHeads h : Nat) : Nat := if 8 ≤ kvHeads then h / 8 else 0

/-- The size of the slice of group g on stack s (R74). -/
def sliceBytes (layers kvHeads format hdim g s : Nat) : Nat := layers * boltsOn kvHeads g s * slotBytes format hdim

/-- The largest slice any group keeps on stack s: the stride of a slice array (R75). -/
def sliceStride (layers kvHeads format hdim s : Nat) : Nat :=
  ((List.range (spreadOf kvHeads)).map fun g => sliceBytes layers kvHeads format hdim g s).foldl max 0

/-- The bytes of a whole cut. -/
def cutBytes (layers kvHeads format hdim : Nat) : Nat := layers * kvHeads * slotBytes format hdim

/-! ### Cut-map entries (R77) -/

def cutStateCode : CutState → Nat
  | .empty => 0 | .resident => 1 | .felling => 3 | .felled => 4 | .coppicing => 5 | .moving => 6

/-- Word 0 of a cut-map entry (R77). -/
def entryWord (e : CutEntry) : Nat :=
  e.node + e.pool * 2 ^ 16 + cutStateCode e.state * 2 ^ 24 + b2n e.shared * 2 ^ 28 + b2n e.coppiced * 2 ^ 29
  + b2n e.isLocal * 2 ^ 30 + e.slot * 2 ^ 32 + e.ring * 2 ^ 56

/-- The state of a code (R77). -/
def cutStateOf : Nat → CutState
  | 1 => .resident | 3 => .felling | 4 => .felled | 5 => .coppicing | 6 => .moving | _ => .empty

/-- The entry that word 0 holds (R77). -/
def entryOfWord (w : Nat) : CutEntry :=
  ⟨cutStateOf (bits w 24 4), bit w 28, bit w 29, bit w 30, bits w 0 16, bits w 16 8, bits w 32 24, bits w 56 8⟩

/-- An entry with nothing allocated. -/
def CutEntry.none : CutEntry := ⟨.empty, false, false, false, 0, 0, 0, 0⟩

/-- The entry with number k of a context's cut map. -/
def Ctx.cut (x : Ctx) (k : Nat) : CutEntry := x.cuts.getD k CutEntry.none

/-- Writes entry k. -/
def Ctx.setCut (x : Ctx) (k : Nat) (e : CutEntry) : Ctx := { x with cuts := listSet k e x.cuts }

/-- The model of a context, if registered. -/
def modelOf (s : State) (x : Ctx) : Option Model := amGet x.model s.sch.models

/-- KV heads of a context's model. -/
def kvHeadsOf (s : State) (x : Ctx) : Nat := match modelOf s x with | some m => m.kvHeads | none => 8

/-- How a FREE or HOLD names the slot of entry k (R76). -/
def slotName (s : State) (x : Ctx) (k : Nat) (e : CutEntry) : SlotName :=
  ⟨e.pool, sliceGroup (kvHeadsOf s x) k, e.slot, e.ring⟩

/-! ### Pools (R75) -/

/-- The pool a 96-byte descriptor declares (R75). -/
def poolOfDesc (d : List Byte) : Pool :=
  let kv := leField d 6 1
  { model := leField d 0 2, format := leField d 2 1, hdim := leField d 3 1, layers := leField d 4 2, kvHeads := kv,
    tier := leField d 7 1, slices := leField d 8 4, bases := (List.range 8).map fun i => leField d (0x20 + 8 * i) 8,
    groups := List.replicate (spreadOf kv) ⟨IdPool.reset, []⟩, spare := [] }

/-- Whether the model of a pool uses stack s in some group. -/
def poolUses (p : Pool) (s : Nat) : Bool := (List.range (spreadOf p.kvHeads)).any fun g => decide (boltsOn p.kvHeads g s ≠ 0)

/-- The descriptor faults of R75 that R508 step 8 refuses. TIER 0x00 is refused by R195 and not here. -/
def poolDescBad (_ : State) (d : List Byte) : Bool :=
  let p := poolOfDesc d
  p.model == 0 || !(1 ≤ p.format && p.format ≤ 3) || decide (4 < p.hdim) || !(1 ≤ p.layers && p.layers ≤ 256)
  || !(1 ≤ p.kvHeads && p.kvHeads ≤ 64) || decide (2 < p.tier) || !(1 ≤ p.slices && p.slices ≤ 16777216)
  || !allZero ((d.drop 0x0C).take 20)
  || (List.range 8).any fun i =>
      let b := p.bases.getD i 0
      b % 64 != 0 || (b == 0 && poolUses p i) || (b != 0 && p.tier != 0 && xaSpace b != (if p.tier == 1 then 0 else 1))


/-- Whether every base of an HBM pool that is not 0 lies in its own stack, and the slice array there too (R75, R254). -/
def poolFits (s : State) (p : Pool) : Bool :=
  p.tier != 1 || (List.range 8).all fun i =>
    (!poolUses p i && p.bases.getD i 0 == 0) ||
    (decide (i * stackBytes s ≤ p.bases.getD i 0)
     && decide (p.bases.getD i 0 + p.slices * sliceStride p.layers p.kvHeads p.format p.hdim i ≤ (i + 1) * stackBytes s))

/-- Whether two pools have the same descriptor. -/
def sameDesc (a b : Pool) : Bool :=
  a.model == b.model && a.format == b.format && a.hdim == b.hdim && a.layers == b.layers && a.kvHeads == b.kvHeads
  && a.tier == b.tier && a.slices == b.slices && a.bases == b.bases

/-- Whether no slot of a pool is allocated, reserved, moved out or in fallow (R75). -/
def poolIdle (s : State) (p : Pool) : Bool :=
  p.groups.all fun g => g.slots.isEmpty && g.ids.released.all fun r => decide (r.2 ≤ s.now)

/-! ### The slot table (R380) -/

/-- The place of a slot's entry in the slot table: by pool, slice group and slot. -/
def slotIndex (pools : AMap Pool) (n : SlotName) : Nat :=
  ((pools.filter fun e => decide (e.1 < n.pool)).map fun e => e.2.groups.length * e.2.slices).sum
  + (match amGet n.pool pools with | some p => n.group * p.slices | none => 0) + n.slot

/-- The address of a slot's entry: protected area 0 begins with the table. -/
def slotEntryAt (s : State) (n : SlotName) : Nat := areaBase s 0 + 16 * slotIndex s.tir.pools n

/-- Whether the table holds an entry at an address. -/
def slotEntryIn (s : State) (a : Nat) : Bool := decide (a + 16 ≤ areaBase s 0 + areaSize s 0)

/-- The 16 bytes of a slot's entry (log 70): flags (in use, reserved, moved out), ring count, hold count, zeros, and the end of its lease. -/
def slotEntry (g : CutGroup) (i : Nat) : List Byte :=
  match amGet i g.slots with
  | some c => leBytes 1 (1 + 2 * b2n c.reserved + 4 * b2n c.movedOut) ++ leBytes 1 (g.ids.ringOf i) ++ leBytes 2 c.holds ++ leBytes 4 0 ++ leBytes 8 c.lease
  | none => leBytes 1 0 ++ leBytes 1 (g.ids.ringOf i) ++ leBytes 14 0

/-- Writes the entry of a slot as State holds it, by the protected write path (R383). -/
def putSlotEntry (s : State) (n : SlotName) (g : CutGroup) : State :=
  let a := slotEntryAt s n
  if slotEntryIn s a then putBytes s a (slotEntry g n.slot) else s

/-- The slots that have ever been allocated, with their groups. -/
def slotsUsed (s : State) : List (SlotName × CutGroup) :=
  s.tir.pools.flatMap fun e => e.2.groups.zipIdx.flatMap fun g =>
    ((g.1.slots.map (·.1)) ++ (g.1.ids.ring.map (·.1))).eraseDups.map fun i => (⟨e.1, g.2, i, 0⟩, g.1)

/-- Declares or changes a pool; the entries of slots whose place in the table moves with it are written again. -/
def setPool (s : State) (k : Nat) (p : Pool) : State :=
  let t : State := { s with tir := { s.tir with pools := amSet k p s.tir.pools } }
  let moved := (slotsUsed s).filter fun e => decide (slotEntryAt t e.1 ≠ slotEntryAt s e.1) && slotEntryIn s (slotEntryAt s e.1)
  let t := moved.foldl (fun t e => putBytes t (slotEntryAt s e.1) (leBytes 16 0)) t
  if moved.isEmpty then t else (slotsUsed t).foldl (fun t e => putSlotEntry t e.1 e.2) t

/-- A command's ending with OK and a result, once the parity deltas sent since a state have been acknowledged (R383). -/
def okWhenAcked (old s : State) (o : Nat) (c : Cmd) (result : Nat) : State × Option Done :=
  let ds := newDeltas old s
  if ds.isEmpty then (s, some { Done.ok with result := result }) else (waitDeltas s ds (.command o c result), none)

/-- CUT_POOL (R75, R195, R380, R423): declares or redeclares a pool; a redeclared pool keeps the ring counts of its slots (R28). -/
def cutPoolBody (c : Cmd) : Body := fun s d =>
  let p := poolOfDesc d
  if !roleEnables s [roleCache, roleMixed] then redirect s
  else if s.changing then fail s .conflict Detail.ROLE_BUSY
  else if p.tier = 0 then fail s .fenced Detail.TIR_PLACE
  else if !poolFits s p then fail s .fenced 0
  else if (match amGet p.model s.sch.models with
      | some m => !(m.format == p.format && m.hdim == p.hdim && m.layers == p.layers && m.kvHeads == p.kvHeads)
      | none => false) then fail s .conflict Detail.SCH_MODEL
  else if s.r Reg.TIR_CP_GROUP_D_EN = 1 ∧ !((List.range 8).all fun i => !poolUses p i ||
      inProt s (p.bases.getD i 0) (p.slices * sliceStride p.layers p.kvHeads p.format p.hdim i)) then
    fail s .fenced Detail.CP_UNPROTECTED
  else
    match amGet c.arg0 s.tir.pools with
    | none => okWhenAcked s (setPool s c.arg0 p) Op.CUT_POOL c 0
    | some old =>
      if sameDesc old p then answer s Done.ok
      else if !poolIdle s old then fail s .conflict 0
      else
        let kept := old.groups.map (fun g => { g with slots := [] }) ++ old.spare
        let n := p.groups.length
        okWhenAcked s (setPool s c.arg0 { p with groups := kept.take n ++ p.groups.drop kept.length, spare := kept.drop n }) Op.CUT_POOL c 0

def execCutPool (c : Cmd) (s : State) : Host.Outcome State Fault Refusal :=
  runCommand s Op.CUT_POOL c poolDescBad (cutPoolBody c)

/-! ### What a home does with its slots (R76, R162, R202, R204) -/

/-- The slice group a slot name points at, with the pool. -/
def findGroup (s : State) (n : SlotName) : Option (Pool × CutGroup) :=
  match amGet n.pool s.tir.pools with
  | none => none
  | some p =>
    match p.groups[n.group]? with
    | none => none
    | some g => some (p, g)

/-- Writes a slice group back, with the slot table's entry of the slot named. -/
def setGroup (s : State) (n : SlotName) (p : Pool) (g : CutGroup) : State :=
  putSlotEntry { s with tir := { s.tir with pools := amSet n.pool { p with groups := listSet n.group g p.groups } s.tir.pools } } n g

/-- The slot a name points at, where it is in use and its ring count agrees. -/
def findSlot (s : State) (n : SlotName) : Option (Pool × CutGroup × CutSlot) :=
  match findGroup s n with
  | none => none
  | some (p, g) =>
    match amGet n.slot g.slots with
    | none => none
    | some c => if g.ids.ringOf n.slot = n.ring then some (p, g, c) else none

/-- Frees a slot: its ring count advances and it lies in fallow (R76). -/
def dropSlot (s : State) (n : SlotName) (p : Pool) (g : CutGroup) : State :=
  setGroup s n p { g with slots := amErase n.slot g.slots, ids := g.ids.release n.slot s.now (fallowUs s) }

/-- A FREE at a home (R76, R162): TIR_NO_POOL for a pool or group that is absent, STALE for a slot that is free or of another ring; else the count falls by one and at 0, or with FORCE, the slot is freed. -/
def homeFree (s : State) (n : SlotName) (force : Bool) : State × Status × Nat :=
  match findGroup s n with
  | none => (s, .fenced, Detail.TIR_NO_POOL)
  | some (p, g) =>
    match findSlot s n with
    | none => (s, .stale, 0)
    | some (_, _, c) =>
      if force ∨ c.holds ≤ 1 then (dropSlot s n p g, .ok, 0)
      else (setGroup s n p { g with slots := amSet n.slot { c with holds := c.holds - 1 } g.slots }, .ok, 0)

/-- A HOLD at a home (R162). -/
def homeHold (s : State) (n : SlotName) : State × Status × Nat :=
  match findGroup s n with
  | none => (s, .fenced, Detail.TIR_NO_POOL)
  | some (p, g) =>
    match findSlot s n with
    | none => (s, .stale, 0)
    | some (_, _, c) =>
      if 65535 ≤ c.holds then (s, .noCredit, Detail.TRL_HOLD_FULL)
      else (setGroup s n p { g with slots := amSet n.slot { c with holds := c.holds + 1 } g.slots }, .ok, 0)

/-- Lease of reserved and moved-out slots in ns: below 10 ms acts as 10 (TIR_MOVE_CFG). -/
def leaseNs (s : State) : Nat := max 10 (s.r Reg.TIR_MOVE_CFG_LEASE_MS) * 1000000

/-- Allocates a slot of a group with its next ring count; allocation sets its hold count to 1 (R76, R162). -/
def allocSlot (s : State) (pool group : Nat) (reserved : Bool) (rec : RecLoc) (cut gen : Nat) : Option (State × SlotName) :=
  match findGroup s ⟨pool, group, 0, 0⟩ with
  | none => none
  | some (p, g) =>
    match g.ids.alloc p.slices s.now with
    | none => none
    | some (i, ids) =>
      let n : SlotName := ⟨pool, group, i, ids.ringOf i⟩
      let c : CutSlot := { reserved := reserved, movedOut := false, holds := 1, lease := if reserved then s.now + leaseNs s else 0,
                           record := rec, cut := cut, claimGen := gen }
      some (setGroup s n p { ids := ids, slots := amSet i c g.slots }, n)

/-- What a home answers: status, detail, and the slot a RESERVE has taken. -/
structure HomeAns where
  status : Status
  detail : Nat
  slot : SlotName

/-- RESERVE (R202 step 1): TIR_NO_POOL for an undeclared pool, POOL_FULL for a full one and during a role change (R423); else a slot in the cut's slice group is reserved under a lease. -/
def homeReserve (s : State) (m : ReserveMsg) : State × HomeAns :=
  match amGet m.pool s.tir.pools with
  | none => (s, ⟨.fenced, Detail.TIR_NO_POOL, ⟨m.pool, 0, 0, 0⟩⟩)
  | some p =>
    if s.changing then (s, ⟨.noCredit, Detail.POOL_FULL, ⟨m.pool, 0, 0, 0⟩⟩)
    else
      match allocSlot s m.pool (sliceGroup p.kvHeads m.cut) true m.record m.cut m.claimGen with
      | none => (s, ⟨.noCredit, Detail.POOL_FULL, ⟨m.pool, 0, 0, 0⟩⟩)
      | some (s, n) => (s, ⟨.ok, 0, n⟩)

/-- MOVE_OUT (R202 step 2): the source home marks the slot moved-out under a lease; a name that no longer fits changes nothing. -/
def homeMoveOut (s : State) (n : SlotName) (rec : RecLoc) (cut gen : Nat) : State :=
  match findSlot s n with
  | none => s
  | some (p, g, c) =>
    setGroup s n p { g with slots := amSet n.slot { c with movedOut := true, lease := s.now + leaseNs s, record := rec, cut := cut, claimGen := gen } g.slots }

/-- CONFIRM (R202 step 5): the reserved slot becomes an ordinary allocated slot. -/
def homeConfirm (s : State) (n : SlotName) : State :=
  match findSlot s n with
  | none => s
  | some (p, g, c) => setGroup s n p { g with slots := amSet n.slot { c with reserved := false, lease := 0 } g.slots }

/-- The lease of a reserved or moved-out slot has run out (R204): the entry read at the record home settles the slot. -/
def homeLease (s : State) (n : SlotName) (e : CutEntry) : State :=
  match findSlot s n with
  | none => s
  | some (p, g, c) =>
    if s.now < c.lease ∨ !(c.reserved ∨ c.movedOut) then s
    else
      let names := ownNode s e.node && !e.isLocal && e.pool == n.pool && e.slot == n.slot && e.ring == n.ring
      let keep (c : CutSlot) : State := setGroup s n p { g with slots := amSet n.slot c g.slots }
      let freed := (dropSlot s n p g).cnt Reg.TIR_MOVE_COUNT_RECLAIMED 1
      if c.reserved then
        if names ∧ e.state = .resident then keep { c with reserved := false, lease := 0 }
        else if !names ∧ e.state = .moving then keep { c with lease := s.now + leaseNs s }
        else freed
      else
        if names ∧ e.state = .moving then keep { c with lease := s.now + leaseNs s }
        else if names ∧ e.state = .resident then keep { c with movedOut := false, lease := 0 }
        else freed

/-- A slot of this home that a node's request has left: what the home staged of it for that node goes (R208). -/
def unstage (s : State) (src : Option Nat) (n : SlotName) : State :=
  let gone (g : Staged) : Bool := g.entry.node == s.nodeId && g.entry.pool == n.pool && g.entry.slot == n.slot && g.entry.ring == n.ring
    && (match src with | some k => g.node == k | none => true)
  { s with xch := { s.xch with staged := s.xch.staged.filter fun g => !gone g } }

/-- What a home does with a request (R76, R162, R202, R204). -/
def homeAct (s : State) (m : HomeMsg) : State × HomeAns :=
  let of (r : State × Status × Nat) : State × HomeAns := (r.1, ⟨r.2.1, r.2.2, ⟨0, 0, 0, 0⟩⟩)
  match m with
  | .free src _ _ n => of (homeFree (unstage s (some src) n) n false)
  | .freeCmd c => of (homeFree (unstage s none ⟨bits c.arg0 0 8, bits c.arg0 8 8, c.arg1, c.arg2⟩) ⟨bits c.arg0 0 8, bits c.arg0 8 8, c.arg1, c.arg2⟩ (bit c.arg3 0))
  | .hold _ _ n => of (homeHold s n)
  | .reserve m => homeReserve s m
  | .moveOut _ n rec cut gen => of (homeMoveOut s n rec cut gen, .ok, 0)
  | .confirm _ n => of (homeConfirm s n, .ok, 0)
  | .lease n e => of (homeLease s n e, .ok, 0)

/-- The answer to a request of another node: its node and message. MOVE_OUT and CONFIRM have none but the REDIRECT of a node that is no home. -/
def homeReply (m : HomeMsg) (a : HomeAns) (home : Nat) : Option (Nat × Msg) :=
  match m with
  | .free src h k _ => some (src, .freeAck h k a.status.code a.detail home)
  | .hold src id _ => some (src, .holdAnswer id a.status.code a.detail home)
  | .reserve m => some (m.src, .reserveAnswer m.handle m.cut a.status.code a.detail a.slot home)
  | .moveOut src _ _ _ _ | .confirm src _ => if a.status = .redirect then some (src, .redirect home) else none
  | .freeCmd _ | .lease _ _ => none

/-- Ends a request: its answer goes out, or its command completes, once the parity deltas of what it wrote have been acknowledged (R383). -/
def homeEnd (old s : State) (m : HomeMsg) (a : HomeAns) (home : Nat) : State :=
  let ds := newDeltas old s
  match m with
  | .freeCmd c =>
    if ds.isEmpty then completeCmd s Op.FREE c { Done.of a.status a.detail with value := home } else waitDeltas s ds (.command Op.FREE c 0)
  | _ =>
    match homeReply m a home with
    | none => s
    | some (node, r) => if ds.isEmpty then s.emit (.msg node r) else waitDeltas s ds (.answer node r)

/-- The slot table bytes a request reads or writes: of a RESERVE those of all its slice group, where it looks for a free slot. -/
def homeRange (s : State) (m : HomeMsg) : Nat × Nat :=
  let of (n : SlotName) : Nat × Nat := if (findGroup s n).isSome && slotEntryIn s (slotEntryAt s n) then (slotEntryAt s n, 16) else (0, 0)
  match m with
  | .free _ _ _ n | .hold _ _ n | .moveOut _ n _ _ _ | .confirm _ n | .lease n _ => of n
  | .freeCmd c => of ⟨bits c.arg0 0 8, bits c.arg0 8 8, c.arg1, c.arg2⟩
  | .reserve m =>
    match amGet m.pool s.tir.pools with
    | none => (0, 0)
    | some p => (slotEntryAt s ⟨m.pool, sliceGroup p.kvHeads m.cut, 0, 0⟩, 16 * p.slices)

/-- The stripe units that hold a request up (R385, R388): its range unbuilt, and the entry it writes locked or under repair. -/
def homeBlocked (s : State) (m : HomeMsg) : List Nat :=
  let r := homeRange s m
  match m with
  | .reserve q =>
    blockedUnits s r.1 r.2 false ++
      (match (amGet q.pool s.tir.pools).bind fun p => (p.groups[sliceGroup p.kvHeads q.cut]?).bind fun g => g.ids.alloc p.slices s.now with
       | some (i, _) => blockedUnits s (r.1 + 16 * i) 16 true
       | none => [])
  | _ => blockedUnits s r.1 r.2 true

/-- Whether this node acts as a home: its role keeps cut pools (R15), and it has not quiesced (R425). Commands of its own host and its own leases go on after that. -/
def isHome (s : State) (m : HomeMsg) : Bool :=
  match m with
  | .lease _ _ => true
  | .freeCmd _ => roleEnables s [roleCache, roleMixed]
  | _ => roleEnables s [roleCache, roleMixed] && s.r Reg.MGT_ROLE_DRAIN_QUIESCED == 0

/-- A request at a home: REDIRECT from a node that is none (R15, R425); CP_DOUBLE or the memory's own detail where its slot table bytes are lost or out of reach (R389, R396, R445); it waits for units that are unbuilt or locked (R385, R388); else it is done and answered. -/
def homeRun (s : State) (m : HomeMsg) : State :=
  let no (st : Status) (dt home : Nat) : State := homeEnd s (unhold s (.home m)) m ⟨st, dt, ⟨0, 0, 0, 0⟩⟩ home
  let r := homeRange s m
  if !isHome s m then no .redirect 0 s.redirectNode
  else if doubleLost s r.1 r.2 then no .fenced Detail.CP_DOUBLE 0
  else
    match if r.2 = 0 then none else memTrouble s r.1 r.2 with
    | some dt => no .fenced dt 0
    | none =>
      let us := homeBlocked s m
      if !us.isEmpty then holdWork s us (.home m)
      else
        let w := homeAct (unhold s (.home m)) m
        homeEnd s w.1 m w.2 0

/-- FREE command (R76, R162, R509). -/
def freeBody (c : Cmd) : Body := fun s _ => (homeRun s (.freeCmd c), none)

def execFree (c : Cmd) (s : State) : Host.Outcome State Fault Refusal := runPlain s Op.FREE c (freeBody c)

/-- A FREE message arrives; its acknowledgement goes back (R76, R81). -/
def execFreeMsg (src handle cut : Nat) (n : SlotName) (s : State) : Host.Outcome State Fault Refusal :=
  nextOf s (fromNode s src (homeRun s (.free src handle cut n)))

/-- A HOLD message arrives and is answered (R162). -/
def execHold (src id : Nat) (n : SlotName) (s : State) : Host.Outcome State Fault Refusal :=
  nextOf s (fromNode s src (homeRun s (.hold src id n)))

/-- RESERVE (R202 step 1). -/
def execReserve (m : ReserveMsg) (s : State) : Host.Outcome State Fault Refusal := nextOf s (fromNode s m.src (homeRun s (.reserve m)))

/-- MOVE_OUT (R202 step 2). -/
def execMoveOut (n : SentSlot) (rec : RecLoc) (cut claimGen : Nat) (s : State) : Host.Outcome State Fault Refusal :=
  nextOf s (fromNode s n.src (homeRun s (.moveOut n.src n.slot rec cut claimGen)))

/-- CONFIRM (R202 step 5). -/
def execConfirm (n : SentSlot) (s : State) : Host.Outcome State Fault Refusal := nextOf s (fromNode s n.src (homeRun s (.confirm n.src n.slot)))

/-- MOVE_LEASE_EXPIRY (R204): the home reconciles a slot of its own under the entry read at the record home. -/
def moveLeaseExpiry (s : State) (n : SlotName) (e : CutEntry) : State := homeRun s (.lease n e)

/-! ### The local area (R197) -/

/-- The bytes of stack k's local area (R197). -/
def localRoom (s : State) (k : Nat) : Nat := s.r (Reg.TIR_LOCAL_SIZE_SIZE_2M.at 16 k) * 2 ^ 21

/-- What holds space of the local area: the local slots, those freed whose fallow has not ended, and the staging buffers (R76, R197). -/
def localHeld (s : State) : List LocalSlot :=
  s.tir.localSlots.map (·.2) ++ (s.tir.localFallow.filter fun e => decide (s.now < e.2)).map (·.1) ++ s.xch.staged.map (·.space)

/-- The bytes per stack of one cut of group g of a model. -/
def cutBytesPerStack (m : Model) (g : Nat) : List Nat :=
  (List.range 8).map fun k => sliceBytes m.layers m.kvHeads m.format m.hdim g k

/-- The lowest offset in stack k's local area, from `a` on, at which `n` bytes fit between the slots there (log 18). -/
def localFit (s : State) (k n a : Nat) : Nat → Nat
  | 0 => a
  | fuel + 1 =>
    match (localHeld s).find? fun e =>
        decide (0 < e.bytes.getD k 0) && decide (a < e.offs.getD k 0 + e.bytes.getD k 0) && decide (e.offs.getD k 0 < a + n) with
    | none => a
    | some e => localFit s k n (e.offs.getD k 0 + e.bytes.getD k 0) fuel

/-- The lowest offsets at which bytes fit in the local areas of the eight stacks; none where some stack has no room (R197, log 18). -/
def localPlace (s : State) (bytes : List Nat) : Option LocalSlot :=
  let offs := (List.range 8).map fun k => localFit s k (bytes.getD k 0) 0 ((localHeld s).length + 1)
  if (List.range 8).all fun k => bytes.getD k 0 == 0 || decide (offs.getD k 0 + bytes.getD k 0 ≤ localRoom s k) then some ⟨bytes, offs⟩ else none

/-- Space for a staging buffer: within STAGE_2M on each stack and beside what else the local area holds (R197, R207). -/
def stagePlace (s : State) (bytes : List Nat) : Option LocalSlot :=
  if (List.range 8).all fun k => bytes.getD k 0 == 0
      || decide ((s.xch.staged.map fun g => g.space.bytes.getD k 0).sum + bytes.getD k 0 ≤ s.r (Reg.TIR_LOCAL_STAGE_STAGE_2M.at 16 k) * 2 ^ 21) then
    localPlace s bytes
  else none

/-- Allocates a local slot where every stack has room between those it holds (R197, log 18); numbers and ring counts run as for cut slots. -/
def allocLocal (s : State) (bytes : List Nat) : Option (State × Nat × Nat) :=
  match localPlace s bytes with
  | none => none
  | some l =>
    match s.tir.localIds.alloc (2 ^ 24) s.now with
    | none => none
    | some (i, ids) =>
      some ({ s with tir := { s.tir with localIds := ids, localSlots := amSet i l s.tir.localSlots,
                                         localFallow := s.tir.localFallow.filter fun e => decide (s.now < e.2) } }, i, ids.ringOf i)

/-- Frees a local slot: it is held in fallow before its space or its number is used again (R76, R197). -/
def freeLocal (s : State) (i : Nat) : State :=
  match amGet i s.tir.localSlots with
  | some e =>
    { s with tir := { s.tir with localSlots := amErase i s.tir.localSlots, localOut := amErase i s.tir.localOut, localFallow := s.tir.localFallow ++ [(e, s.now + fallowUs s * 1000)],
                                 localIds := s.tir.localIds.release i s.now (fallowUs s) } }
  | none => s

end Sys2Proof.Machine
end

