-- ==== Sys2Proof/Machine/Work.lean ====
section
/-! DEFINITION. The work of a request in progress: stalls (R209 to R211), releases and withdrawals at exchange windows (R401 to R404), its frames and tasks on stands (R185, R260), its layer and merge slot (R126, R131), and how all of it is dropped. -/

namespace Sys2Proof.Machine

/-! ### Stalls (R210, R211) -/

namespace St
def boltCrc : Nat := 0
def boltIdentity : Nat := 1
def shardLost : Nat := 2
def stack : Nat := 3
def remoteLate : Nat := 4
def cxlLate : Nat := 5
def hostLate : Nat := 6
def stageFull : Nat := 7
def localFull : Nat := 8
def mergeSlot : Nat := 9
def moving : Nat := 0xA
def coppice : Nat := 0xB
def ctxSet : Nat := 0xC
def record : Nat := 0xD
def stream : Nat := 0xE
def exchange : Nat := 0xF
end St

/-- Whether a request stalls under a cause. -/
def stalled (s : State) (h cause : Nat) : Bool := s.tir.stalls.any fun t => t.handle == h && t.causes.contains cause

/-- A cause holds from now on: it begins a stall of the request, or joins those of the one that runs, which stays counted under the cause it began with (R210, R211). -/
def stallBegin (s : State) (h cause : Nat) : State :=
  if s.tir.stalls.any fun t => t.handle == h then
    { s with tir := { s.tir with stalls := s.tir.stalls.map fun t =>
        if t.handle == h && !t.causes.contains cause then { t with causes := t.causes ++ [cause] } else t } }
  else
    let s := s.cnt (Reg.TIR_STALL_COUNT_EVENTS.at 8 cause) 1
    { s with tir := { s.tir with stalls := s.tir.stalls ++ [⟨h, cause, s.now, false, [cause]⟩] } }

/-- Ends a request's stall: its length goes to the cause it began under and to STALL_US (R211), and to the histogram of stall lengths (R484). -/
def stallEnd (s : State) (h : Nat) : State :=
  match s.tir.stalls.find? fun t => t.handle == h with
  | none => s
  | some t =>
    let us := (s.now - t.since) / 1000
    let s := s.cnt (Reg.TIR_STALL_COUNT_US.at 8 t.cause) us
    let s := { s with tir := { s.tir with stalls := s.tir.stalls.filter fun t => t.handle != h },
                      scb := { s.scb with stallLens := amSet t.cause (amGetD t.cause [] s.scb.stallLens ++ [us]) s.scb.stallLens } }
    match s.ctx h with
    | none => s
    | some x => s.setCtx { x with counters := listMod 6 (fun v => satAdd 32 v us) x.counters }

/-- A cause holds no longer: with the last one gone the stall ends (R211). -/
def stallClear (s : State) (h cause : Nat) : State :=
  match s.tir.stalls.find? fun t => t.handle == h with
  | none => s
  | some t =>
    if t.causes.all fun c => c == cause then stallEnd s h
    else { s with tir := { s.tir with stalls := s.tir.stalls.map fun t =>
      if t.handle == h then { t with causes := t.causes.filter (· ≠ cause) } else t } }

/-- Changes a request's context where the handle still names one. -/
def modCtx (s : State) (h : Nat) (f : Ctx → Ctx) : State :=
  match s.ctx h with
  | none => s
  | some x => s.setCtx (f x)

/-! ### Windows (R398 to R404) -/

/-- A window of the exchange. -/
def State.win (s : State) (w : Nat) : XWin := (amGet w s.xch.wins).getD XWin.reset
/-- HIF_XW_BASE as an address. -/
def winBase (s : State) (w : Nat) : Nat := s.r (Reg.HIF_XW_BASE_BASE.at 0x40 w) * 65536
/-- Slots of a window: 2 to 64; other values act as 2 or 64. -/
def winSlots (s : State) (w : Nat) : Nat := min 64 (max 2 (s.r (Reg.HIF_XW_CFG_SLOTS.at 0x40 w)))
/-- Bytes of a slot: 0 acts as 1 unit. -/
def winSlotSize (s : State) (w : Nat) : Nat := max 1 (s.r (Reg.HIF_XW_CFG_SLOT_64K.at 0x40 w)) * 65536
/-- The bound path: 0x8 to 0xE act as 0xF. -/
def winPort (s : State) (w : Nat) : Nat :=
  let p := s.r (Reg.HIF_XW_CFG_PORT.at 0x40 w)
  if 8 ≤ p then 15 else p
/-- Whether a window is enabled. -/
def winOn (s : State) (w : Nat) : Bool := s.r (Reg.HIF_XW_CFG_ENABLE.at 0x40 w) == 1
/-- The records a window's release ring holds (R400, R402). -/
def winRing (s : State) (w : Nat) : Nat :=
  if s.r (Reg.HIF_XW_REL_REL_DEST.at 0x40 w) = 0 then 1792 else max 16 (s.r (Reg.HIF_XW_RELSZ_REL_SLOTS.at 0x40 w))

/-- The 32 bytes of the control page (R400). -/
def controlPage (s : State) (w : Nat) : List Byte :=
  let W := s.win w
  leBytes 2 (s.r (Reg.HIF_XW_CFG_MODEL.at 0x40 w)) ++ leBytes 1 (winSlots s w) ++ leBytes 1 (winPort s w)
  ++ leBytes 4 (winSlotSize s w) ++ leBytes 4 W.dcount ++ leBytes 4 W.rcount ++ leBytes 4 W.rhead
  ++ leBytes 4 (W.dcount / 2 ^ 32) ++ leBytes 4 (W.rcount / 2 ^ 32) ++ leBytes 4 0

/-- Writes a window back; its control page and HIF_XW_STATUS follow it. -/
def State.setWin (s : State) (w : Nat) (W : XWin) : State :=
  let s := { s with xch := { s.xch with wins := amSet w W s.xch.wins } }
  let s := s.setR (Reg.HIF_XW_STATUS_DSEQ.at 0x40 w) (W.dcount % 2 ^ 32)
  let s := s.setR (Reg.HIF_XW_STATUS_BOUND.at 0x40 w) (min 4095 W.bound.length)
  let s := s.setR (Reg.HIF_XW_STATUS_INFLIGHT.at 0x40 w) W.uses.length
  s.wr (winBase s w) (controlPage s w)

/-- The enabled window of a model with the fewest requests bound, the lowest on a tie (R401). -/
def windowFor (s : State) (model : Nat) : Option Nat :=
  (List.range 64).foldl (fun b w =>
    if winOn s w && s.r (Reg.HIF_XW_CFG_MODEL.at 0x40 w) == model then
      match b with
      | none => some w
      | some v => if (s.win w).bound.length < (s.win v).bound.length then some w else b
    else b) none

/-- The window a request is bound to. -/
def boundWin (s : State) (h : Nat) : Option Nat := amGet h s.xch.boundTo

/-- Queues a release behind those that wait at its window; binds the request on its first release (R401). From then on, with no enabled window or a full ring too, the step waits for its rows under ST_EXCHANGE (R210, R403). -/
def queueRelease (s : State) (h model : Nat) (r : Release) : State :=
  let s := stallBegin s h St.exchange
  match boundWin s h with
  | some w => s.setWin w { s.win w with waiting := (s.win w).waiting ++ [r] }
  | none =>
    match windowFor s model with
    | some w =>
      let W := s.win w
      ({ s with xch := { s.xch with boundTo := amSet h w s.xch.boundTo } }).setWin w
        { W with bound := W.bound ++ [h], waiting := W.waiting ++ [r] }
    | none => { s with xch := { s.xch with unbound := s.xch.unbound ++ [r] } }

/-- Releases a request from its window when it leaves the node or ends (R401). -/
def unbind (s : State) (h : Nat) : State :=
  match boundWin s h with
  | none => s
  | some w =>
    ({ s with xch := { s.xch with boundTo := amErase h s.xch.boundTo } }).setWin w
      { s.win w with bound := (s.win w).bound.filter (· ≠ h) }

/-- A bound request is named anew at its window: a parked one by its ticket, an unparked one by its new handle (R35, R401). -/
def rebind (s : State) (old new : Nat) : State :=
  match boundWin s old with
  | none => s
  | some w =>
    ({ s with xch := { s.xch with boundTo := amSet new w (amErase old s.xch.boundTo) } }).setWin w
      { s.win w with bound := (s.win w).bound.map fun h => if h = old then new else h }

/-- Takes back a released step or chunk (R404): one not yet written is dropped, one written is followed by a WITHDRAW record. -/
def withdrawRelease (s : State) (h pos0 : Nat) (written : Bool) : State :=
  let s := { s with xch := { s.xch with unbound := s.xch.unbound.filter fun r => r.handle != h } }
  match boundWin s h with
  | none => s
  | some w =>
    let W := s.win w
    let W := { W with waiting := W.waiting.filter fun r => r.handle != h || r.kind == 4 }
    let W := if written then { W with waiting := W.waiting ++ [⟨h, 4, pos0, 0, false, (match s.ctx h with | some x => x.lclass | none => 0), (match s.ctx h with | some x => x.userTag | none => 0)⟩] } else W
    s.setWin w W

/-- The bytes of a release record (R402). -/
def releaseBytes (rseq kind lclass model handle pos0 count tag : Nat) : List Byte :=
  leBytes 4 rseq ++ leBytes 1 kind ++ leBytes 1 lclass ++ leBytes 2 model ++ leBytes 4 handle ++ leBytes 4 pos0
  ++ leBytes 4 count ++ leBytes 4 0 ++ leBytes 8 tag

/-! ### Stands (R241, R260) -/

/-- A stand. -/
def State.stand (s : State) (i : Nat) : Stand := (amGet i s.xch.stands).getD Stand.reset
/-- The registers of a stand that follow its state (spec/10, spec/04). -/
def standRegs (s : State) (i : Nat) (S : Stand) : State :=
  let set (s : State) (f : Fld) (v : Nat) : State := s.setR (f.at 0x10000 i) v
  let s := set s Reg.STD_SEQ_STATUS_LIVE (bitSet (S.frames.map (·.1)))
  let s := set s Reg.STD_SEQ_STATUS_RUNNING (b2n S.running.isSome)
  let s := set s Reg.STD_SEQ_STATUS_RUN (S.running.getD 0)
  let s := set s Reg.STD_SEQ_STATUS_DEPTH S.depth
  let s := set s Reg.STD_CDC_STATUS_BUSY (b2n (S.cdc.any (·.started)))
  let s := set s Reg.STD_CDC_STATUS_QDEPTH (S.cdc.countP fun c => !c.started)
  let s := set s Reg.STD_ATT_STATUS_BUSY (b2n (S.att.any (·.started)))
  set s Reg.STD_ATT_STATUS_QDEPTH (S.att.countP fun c => !c.started)
/-- Writes a stand back, with the registers that follow it. -/
def State.setStand (s : State) (i : Nat) (S : Stand) : State :=
  standRegs { s with xch := { s.xch with stands := amSet i S s.xch.stands } } i S

/-- DEPTH as it acts: 0 as 1, above 4 as 4 (SCH_PLACE_CFG). -/
def placeDepth (s : State) : Nat := min 4 (max 1 (s.r Reg.SCH_PLACE_CFG_DEPTH))

/-- Ends a frame and drops its commands (R256, R260); a stand left empty takes the DEPTH that software set (R244). -/
def endFrame (s : State) (i f : Nat) : State :=
  let S := s.stand i
  let S := { S with frames := amErase f S.frames, running := if S.running = some f then none else S.running, last := if S.running = some f then f else S.last,
                    att := S.att.filter fun c => c.frame != f, cdc := S.cdc.filter fun c => c.frame != f,
                    mov := S.mov.filter fun c => c.frame != f }
  let S := if S.frames.isEmpty then { S with depth := placeDepth s } else S
  s.setStand i S

/-- Whether a command of a frame is in execution (R252): the engine has begun it. -/
def EngCmd.running (c : EngCmd) : Bool := c.started || c.tile != 0

/-- Stops a frame whose task is withdrawn or whose program has faulted (R257, R260): it issues no more, its queued commands are discarded, and those in execution stop at their next boundary; with none it ends at once. -/
def stopFrame (s : State) (i f : Nat) : State :=
  let S := s.stand i
  let keep (c : EngCmd) : Bool := c.frame != f || c.running
  let mine (c : EngCmd) : Bool := c.frame == f && c.running
  if S.att.any mine || S.cdc.any mine || S.mov.any mine then
    s.setStand i { S with att := S.att.filter keep, cdc := S.cdc.filter keep, mov := S.mov.filter keep,
                          frames := amMod f (fun (F : Frame) => { F with withdrawing := true }) S.frames,
                          running := if S.running = some f then none else S.running, last := if S.running = some f then f else S.last }
  else endFrame s i f

/-- The frame of a stand that runs task `t`. -/
def frameOf (S : Stand) (t : Nat) : Option Nat := (S.frames.find? fun e => e.2.task == t && !e.2.withdrawing).map (·.1)

/-- Withdraws a task: its frame stops, with no completion (R185, R260). -/
def withdrawTask (s : State) (t : Nat) : State :=
  match amGet t s.xch.tasks with
  | none => s
  | some T =>
    let s := { s with xch := { s.xch with tasks := amErase t s.xch.tasks } }
    match T.stand with
    | none => s
    | some i =>
      match frameOf (s.stand i) t with
      | none => s
      | some f => stopFrame s i f

/-- Withdraws every task of a request. -/
def withdrawTasks (s : State) (h : Nat) : State :=
  (s.xch.tasks.filter fun e => e.2.handle == h && e.2.attend.isNone && e.2.expand.isNone).foldl (fun s e => withdrawTask s e.1) s

/-! ### The layer in progress -/

/-- Frees a merge slot (R131, R185). -/
def freeMerge (s : State) (k : Nat) : State := { s with xch := { s.xch with merges := amErase k s.xch.merges } }

/-- A flag with every RESULT in that a fence holds is counted, once, and stalls the entries' requests from then on (R412). -/
def flagHeld (s : State) (w slot : Nat) : State :=
  let W := s.win w
  match amGet slot W.uses with
  | none => s
  | some u =>
    if u.counted ∨ u.fences.isEmpty ∨ u.entries.any fun e => e.result.isNone then s
    else
      let s := (s.cnt (Reg.HIF_XW_COUNT_FENCE_WAIT.at 0x40 w) 1).setWin w { W with uses := amSet slot { u with counted := true } W.uses }
      (u.entries.filter fun e => e.result == some (0, 0)).foldl (fun s e => if (s.ctx e.handle).isSome then stallBegin s e.handle St.stream else s) s

/-- Sets the RESULT of an entry of a slot use, in the slot's entry table too (R405). -/
def setResult (s : State) (w slot e status detail : Nat) : State :=
  let W := s.win w
  match amGet slot W.uses with
  | none => s
  | some u =>
    let u := { u with entries := listMod e (fun x => { x with result := some (status, detail) }) u.entries }
    let s := s.setWin w { W with uses := amSet slot u W.uses }
    flagHeld (s.wr (winBase s w + 0x10000 + winSlotSize s w * slot + 0x100 + 16 * e + 0xA) (leBytes 2 (status + 256 * detail))) w slot

/-- Abandons a request's layer in progress, and accepted layers that wait behind it (R185, R409): tasks withdrawn, merge slot freed, entries ended with CONFLICT, expected layer back to the abandoned one. -/
def abandonLayer (s : State) (h : Nat) : State :=
  let s := withdrawTasks s h
  let back := s.xch.queuedLayers.filter fun L => L.handle == h
  let s := { s with xch := { s.xch with queuedLayers := s.xch.queuedLayers.filter fun L => L.handle != h } }
  let s := back.foldl (fun s L => setResult s L.window L.slot L.entry Status.conflict.code Detail.XCH_PAUSED) s
  match amGet h s.xch.layers with
  | none => s
  | some L =>
    let s := { s with xch := { s.xch with layers := amErase h s.xch.layers } }
    let s := match L.merge with | some k => freeMerge s k | none => s
    let s := setResult s L.window L.slot L.entry Status.conflict.code Detail.XCH_PAUSED
    modCtx s h fun x => { x with layer := L.layer }

/-- Releases all that a request of this node has staged, and forgets the shards it computes and the homes it kept for the step (R133, R208). -/
def dropStaged (s : State) (h : Nat) : State :=
  { s with xch := { s.xch with staged := s.xch.staged.filter fun g => !(g.node == s.nodeId && g.handle == h),
                               stageHeld := s.xch.stageHeld.filter fun e => !(e.1 == s.nodeId && e.2.1 == h),
                               parts := amFilter (fun _ p => p.handle != h) s.xch.parts,
                               regroup := amErase h s.xch.regroup } }

/-- Drops a request's step or chunk: its layer is abandoned, its release withdrawn, its staged bolts released, and its stall, with no step left to wait, ends (R185, R208, R211, R404). -/
def dropStep (s : State) (h : Nat) : State :=
  let s := dropStaged (stallEnd (abandonLayer s h) h) h
  match s.ctx h with
  | none => s
  | some x =>
    if x.stepBusy then
      let s := withdrawRelease s h x.kvLen x.relWritten
      modCtx s h fun x => { x with stepBusy := false, relWritten := false }
    else s

/-- Drops all a request has in progress when it ends or leaves: its step and its place among cuts waiting for a target (R185, R404). -/
def dropWork (s : State) (h : Nat) : State :=
  let s := dropStep s h
  { s with tir := { s.tir with placeRetry := s.tir.placeRetry.filter fun t => t.1 != h } }

end Sys2Proof.Machine
end

