-- ==== Sys2Proof/Machine/Pins.lean ====
section
/-! DEFINITION. Codec tables and adapter slots as other blocks use them: which profile a model has (R234), the users of a table buffer (R65, R233), and adapter pins (R237, R238). -/

namespace Sys2Proof.Machine

/-- The codec table slot that holds a model's KV profile, if any (R232, R234). -/
def profileOf (s : State) (model : Nat) : Option (Nat × TblSlot) :=
  (s.cdc.tables.find? fun e => e.2.kind == 1 && e.2.model == model && decide (0 < e.2.curLen))

/-- Whether an ADMIT of the model is refused for want of a profile (R234). -/
def profileMissing (s : State) (m : Model) (id : Nat) : Bool := (m.format == 2 || m.format == 3) && (profileOf s id).isNone

/-- The registers that follow a table slot (CDC_TBL_STATE). -/
def tblRegs (s : State) (t : Nat) : State :=
  let set (s : State) (f : Fld) (v : Nat) : State := s.setR (f.at 8 t) v
  match amGet t s.cdc.tables with
  | none =>
    let s := set s Reg.CDC_TBL_STATE_OTHER_VER 0
    let s := set s Reg.CDC_TBL_STATE_CUR_VER 0
    let s := set s Reg.CDC_TBL_STATE_KIND 0
    let s := set s Reg.CDC_TBL_STATE_LOADING 0
    let s := set s Reg.CDC_TBL_STATE_CUR_BUF 0
    set s Reg.CDC_TBL_STATE_OTHER_USERS 0
  | some T =>
    let s := set s Reg.CDC_TBL_STATE_OTHER_VER T.otherVer
    let s := set s Reg.CDC_TBL_STATE_CUR_VER T.curVer
    let s := set s Reg.CDC_TBL_STATE_KIND (if T.curLen = 0 then 0 else T.kind)
    let s := set s Reg.CDC_TBL_STATE_LOADING (b2n T.loading)
    let s := set s Reg.CDC_TBL_STATE_CUR_BUF T.curBuf
    set s Reg.CDC_TBL_STATE_OTHER_USERS T.otherUsers

/-- Writes a table slot, with the register that follows it. -/
def setTbl (s : State) (t : Nat) (T : TblSlot) : State :=
  tblRegs { s with cdc := { s.cdc with tables := amSet t T s.cdc.tables } } t

/-- Adds `n` users to a buffer of a table slot, or takes them away (R233). -/
def tblUse (s : State) (t buf n : Nat) (add : Bool) : State :=
  match amGet t s.cdc.tables with
  | none => s
  | some T =>
    let f (a : Nat) : Nat := if add then a + n else a - n
    setTbl s t (if T.curBuf = buf then { T with curUsers := f T.curUsers } else { T with otherUsers := f T.otherUsers })

/-- The buffer that holds the current version of a table slot. -/
def tblCurBuf (s : State) (t : Nat) : Nat := match amGet t s.cdc.tables with | some T => T.curBuf | none => 0

/-- A bolt at an address names a profile version no longer (R65). -/
def boltUnuse (s : State) (a : Nat) : State :=
  match amGet a s.cdc.openBolts with
  | none => s
  | some (t, b) => tblUse { s with cdc := { s.cdc with openBolts := amErase a s.cdc.openBolts } } t b 1 false

/-- A bolt at an address names version `ver` of table slot t's profile (R65, R233), where one of its buffers holds that version. -/
def boltUse (s : State) (a t ver : Nat) : State :=
  if amHas a s.cdc.openBolts then s
  else
    match amGet t s.cdc.tables with
    | none => s
    | some T =>
      let use (b : Nat) : State := tblUse { s with cdc := { s.cdc with openBolts := amSet a (t, b) s.cdc.openBolts } } t b 1 true
      if T.kind ≠ 1 then s else if T.curLen ≠ 0 ∧ T.curVer = ver then use T.curBuf else if T.otherLen ≠ 0 ∧ T.otherVer = ver then use (1 - T.curBuf) else s

/-- The registers that follow the adapter slots (CDC_ADP_STATUS, CDC_ADP_SIZE). -/
def adpRegs (s : State) : State :=
  let used := s.cdc.adps.foldl (fun a e => a + e.2.size) 0
  (s.setR Reg.CDC_ADP_STATUS_SLOTS s.cdc.adps.length).setR Reg.CDC_ADP_SIZE_FREE_2M (s.r Reg.CDC_ADP_SIZE_SIZE_2M - used)

/-- The slot that holds an adapter version in any state but LOADING (R237). -/
def adpResident (s : State) (word : Nat) : Option (Nat × AdpSlot) :=
  s.cdc.adps.find? fun e => e.2.word == word && decide (e.2.state ≠ .loading)

/-- The CURRENT slot of an adapter ID (R235). -/
def adpCurrent (s : State) (id : Nat) : Option (Nat × AdpSlot) :=
  s.cdc.adps.find? fun e => e.2.word % 2 ^ 20 == id && decide (e.2.state = .current)

/-- Whether a version may be pinned: none is asked for, or it is resident. -/
def adpThere (s : State) (word : Nat) : Bool := word == 0 || (adpResident s word).isSome

/-- Pins an adapter version (R237). -/
def pinAdp (s : State) (word : Nat) : State :=
  if word = 0 then s
  else
    match adpResident s word with
    | none => s
    | some (k, a) => { s with cdc := { s.cdc with adps := amSet k { a with pins := a.pins + 1 } s.cdc.adps } }

/-- Frees a slot in HELD or DRAINING whose pin count is 0 (R238). -/
def adpSettle (s : State) (k : Nat) : State :=
  match amGet k s.cdc.adps with
  | none => s
  | some a =>
    if a.pins = 0 ∧ (a.state = .held ∨ a.state = .draining) then
      adpRegs { s with cdc := { s.cdc with adps := amErase k s.cdc.adps } }
    else s

/-- Releases a pin (R238). -/
def unpinAdp (s : State) (word : Nat) : State :=
  if word = 0 then s
  else
    match adpResident s word with
    | none => s
    | some (k, a) => adpSettle { s with cdc := { s.cdc with adps := amSet k { a with pins := a.pins - 1 } s.cdc.adps } } k

/-- How ADMIT resolves its adapter word (R237): the version to pin, or the refusal. -/
def admitAdapter (s : State) (word : Nat) : Except (Status × Nat) Nat :=
  if word = 0 then .ok 0
  else
    match adpCurrent s (word % 2 ^ 20) with
    | none => .error (.fenced, Detail.CDC_ADP_ABSENT)
    | some (_, a) =>
      if word / 2 ^ 20 = 0 ∨ word = a.word then .ok a.word else .error (.conflict, Detail.CDC_ADP_VERSION)

end Sys2Proof.Machine
end

