-- ==== Sys2Proof/Machine/Place.lean ====
section
/-! DEFINITION. Where the bolts of a cut lie: in a local slot or in a cut pool of this node (spec/03 R74, R75, spec/08 R197), and the bolt entries that name them (R245). -/

namespace Sys2Proof.Machine

/-- The byte offset within a slice of the bolt of a layer and head of cut group g. -/
def boltOffset (m : Model) (g s layer h : Nat) : Nat :=
  (layer * boltsOn m.kvHeads g s + headRank m.kvHeads h) * slotBytes m.format m.hdim

/-- The stack a head's bolt of cut k lies on (R19). -/
def boltStack (m : Model) (h k : Nat) : Nat := columnOf (affinity m.kvHeads h k)

/-- The address of stack s's local area (TIR_LOCAL_LO, TIR_LOCAL_HI). -/
def localBase (s : State) (k : Nat) : Nat :=
  s.r (Reg.TIR_LOCAL_LO_BASE_LO.at 16 k) * 4096 + s.r (Reg.TIR_LOCAL_HI_BASE_HI.at 16 k) * 2 ^ 32

/-- The extended address of a bolt in a local slot (R197). -/
def boltLocal (s : State) (m : Model) (i layer h k : Nat) : Nat :=
  let st := boltStack m h k
  match amGet i s.tir.localSlots with
  | none => 0
  | some sl => localBase s st + sl.offs.getD st 0 + boltOffset m (sliceGroup m.kvHeads k) st layer h

/-- Whether an address lies in a local slot. -/
def inLocal (s : State) (i a : Nat) : Bool :=
  match amGet i s.tir.localSlots with
  | none => false
  | some l => (List.range 8).any fun st =>
      let b := localBase s st + l.offs.getD st 0
      decide (b ≤ a) && decide (a < b + l.bytes.getD st 0)

/-- The open bolts of a local slot name their profile versions no longer (R65). -/
def closeCutUsers (s : State) (i : Nat) : State :=
  (s.cdc.openBolts.filter fun e => inLocal s i e.1).foldl (fun s e => boltUnuse s e.1) s

/-- Frees a local slot with what its bolts hold of the codec's tables. -/
def dropLocal (s : State) (i : Nat) : State := freeLocal (closeCutUsers s i) i

/-- The extended address of a bolt in a cut pool of this node (R75). -/
def boltPool (s : State) (m : Model) (pool slot layer h k : Nat) : Nat :=
  let st := boltStack m h k
  match amGet pool s.tir.pools with
  | none => 0
  | some p => p.bases.getD st 0 + slot * sliceStride p.layers p.kvHeads p.format p.hdim st + boltOffset m (sliceGroup m.kvHeads k) st layer h

/-- A bolt entry of a task (R245): slot address, first position, ring count, positions needed. -/
structure BoltRef where
  addr : Nat
  first : Nat
  ring : Nat
  need : Nat
  deriving DecidableEq, Repr

/-- The 16 bytes of a bolt entry (R245). -/
def BoltRef.bytes (b : BoltRef) : List Byte := leBytes 8 b.addr ++ leBytes 8 (b.first + b.ring * 2 ^ 32 + b.need * 2 ^ 40)

/-- The bolt entry of a full cut at this node: in the local area or one of its pools (R123, R197). -/
def cutRef (s : State) (m : Model) (e : CutEntry) (layer h k : Nat) : BoltRef :=
  ⟨if e.isLocal then boltLocal s m e.slot layer h k else boltPool s m e.pool e.slot layer h k, 32 * k, e.ring, 32⟩

/-- The layers and KV heads of a cut's bolts, layers first. -/
def boltNames (m : Model) : List (Nat × Nat) := (List.range m.layers).flatMap fun l => (List.range m.kvHeads).map fun h => (l, h)

/-- The model fields a pool's descriptor gives (R75): what places the bolts of its slots. -/
def Pool.model' (p : Pool) : Model :=
  { layers := p.layers, qHeads := 0, kvHeads := p.kvHeads, hdim := p.hdim, format := p.format, groups := 0, sinks := 0, window := 0,
    smScale := 0, end0 := 0, end1 := 0 }

end Sys2Proof.Machine
end

