-- ==== Sys2Proof/Machine/Shards.lean ====
section
/-! DEFINITION. Which nodes a step's cuts are grouped under (spec/05 R118, R119, R133), and whether a merge slot holds a step (R124 to R126). -/

namespace Sys2Proof.Machine

/-- Whether any position of cut k is visible to some query row of a step at positions from i on (R104, R118). -/
def cutVisible (m : Model) (i k : Nat) : Bool :=
  m.window == 0 || decide (i < 32 * k + 31 + m.window) || decide (32 * k < m.sinks)

/-- The home under which cut k of a request is grouped (R118): its entry's, but a shard that was read again keeps its old one until the step ends (R133). -/
def groupHome (s : State) (x : Ctx) (k : Nat) : Nat :=
  match ((amGet x.handle s.xch.regroup).getD []).find? fun e => e.1 == k with
  | some e => e.2
  | none => (x.cut k).node

/-- The remote groups of a request's cuts, in shard order: home and cut numbers (R118). -/
def remoteGroups (s : State) (x : Ctx) (m : Model) (pos0 : Nat) : List (Nat × List Nat) :=
  let ks := (List.range x.cuts.length).filter fun k => decide (groupHome s x k ≠ s.nodeId) && decide (32 * k < pos0)
  let homes := (ks.map (groupHome s x)).eraseDups
  (homes.map fun n => (n, ks.filter fun k => groupHome s x k == n)).filter fun g => g.2.any (cutVisible m pos0)

/-- Cut numbers grouped under this node, below a position. -/
def localCuts (s : State) (x : Ctx) (pos0 : Nat) : List Nat :=
  (List.range x.cuts.length).filter fun k => groupHome s x k == s.nodeId && decide (32 * k < pos0)

/-- The shards of a step-layer (R118, R119): at most 255 remote ones, and the local one. -/
def shardCount (s : State) (x : Ctx) (m : Model) (pos0 : Nat) : Nat := min 255 (remoteGroups s x m pos0).length + 1

/-- The address of the merge area. -/
def mergeBase (s : State) : Nat := s.r Reg.SCH_MERGE_BASE_LO_BASE_LO * 4096 + s.r Reg.SCH_MERGE_BASE_HI_BASE_HI * 2 ^ 32
/-- Ordinary slots, and the sizes of the two kinds. -/
def mergeOrd (s : State) : Nat := s.r Reg.SCH_MERGE_CFG_SLOTS
def mergeDet (s : State) : Nat := s.r Reg.SCH_MERGE_DET_SLOTS
def ordStride (s : State) : Nat := s.r Reg.SCH_MERGE_CFG_STRIDE_4K * 4096
def detStride (s : State) : Nat := s.r Reg.SCH_MERGE_DET_STRIDE_4K * 4096

/-- Whether a slot of its kind holds a step of `rows` rows and `expect` shards (R126). -/
def mergeFits (s : State) (det : Bool) (d rows expect : Nat) : Bool :=
  if det then decide (64 + rows * (4 * d + 8) * (1 + expect) ≤ detStride s) else decide (64 + rows * (4 * d + 8) ≤ ordStride s)

/-- Whether a merge slot holds a step of n positions of a request as its cuts stand (R126). -/
def stepFits (s : State) (x : Ctx) (n : Nat) : Bool :=
  match modelOf s x with
  | none => true
  | some m => mergeFits s x.deterministic (hdimOf m.hdim) (n * m.qHeads) (shardCount s x m x.kvLen)

/-- The merge area's slots of one kind: where they begin and how many bytes they take (R124). -/
def mergeArea (s : State) (det : Bool) : Nat × Nat :=
  if det then (mergeBase s + mergeOrd s * ordStride s, mergeDet s * detStride s) else (mergeBase s, mergeOrd s * ordStride s)

/-- Why a step of n positions cannot have a merge slot: its size (R126), or a merge area that cannot be reached (R445). -/
def stepTrouble (s : State) (x : Ctx) (n : Nat) : Option Nat :=
  if !stepFits s x n then some Detail.MERGE_SIZE
  else let a := mergeArea s x.deterministic; memTrouble s a.1 a.2

end Sys2Proof.Machine
end

