-- ==== Sys2Proof/Machine/Bolt.lean ====
section
/-! DEFINITION. Bolts as bytes (R60 to R73): their layout, header, CRC and encryption, quantization of new rows, the checks of a read, and the write of new rows. -/

namespace Sys2Proof.Machine

/-! ### Layout (R66 to R69) -/

/-- Bytes of a row of d elements in a bolt format. -/
def rowBytes (fmt d : Nat) : Nat := if fmt = 1 then 2 * d else if fmt = 2 then d else d / 2
/-- Where K row p, V row p, and their scale entries begin in a slot (R66). -/
def kRowAt (fmt d p : Nat) : Nat := 64 + p * rowBytes fmt d
def vRowAt (fmt d p : Nat) : Nat := 64 + (32 + p) * rowBytes fmt d
def kScaleAt (fmt d p : Nat) : Nat := 64 + 64 * rowBytes fmt d + 2 * (p * (d / 32))
def vScaleAt (fmt d p : Nat) : Nat := 64 + 64 * rowBytes fmt d + 2 * d + 2 * (p * (d / 32))

/-- The fields of a bolt header (R69). -/
structure BoltHdr where
  format : Nat
  hdim : Nat
  fill : Nat
  flags : Nat
  layer : Nat
  head : Nat
  profile : Nat
  profileVer : Nat
  model : Nat
  first : Nat
  tenant : Nat
  keySlot : Nat
  home : Nat
  ring : Nat
  deriving DecidableEq, Repr

/-- The header that 64 bytes hold. -/
def BoltHdr.ofBytes (l : List Byte) : BoltHdr :=
  { format := leField l 0 1, hdim := leField l 1 1, fill := bits (leField l 2 1) 0 6, flags := leField l 3 1, layer := leField l 4 2,
    head := leField l 6 1, profile := leField l 7 1, profileVer := leField l 8 2, model := leField l 0xA 2, first := leField l 0xC 4,
    tenant := bits (leField l 0x10 4) 0 20, keySlot := bits (leField l 0x14 4) 0 24, home := leField l 0x18 8, ring := leField l 0x20 1 }

/-- The first 56 bytes of a header (R69): all but the CRC. -/
def BoltHdr.bytes (h : BoltHdr) : List Byte :=
  leBytes 1 h.format ++ leBytes 1 h.hdim ++ leBytes 1 h.fill ++ leBytes 1 h.flags ++ leBytes 2 h.layer ++ leBytes 1 h.head ++ leBytes 1 h.profile
  ++ leBytes 2 h.profileVer ++ leBytes 2 h.model ++ leBytes 4 h.first ++ leBytes 4 h.tenant ++ leBytes 4 h.keySlot ++ leBytes 8 h.home
  ++ leBytes 1 h.ring ++ leBytes 23 0

/-- A slot of a header and a body, with its CRC over both (R70). -/
def boltSlot (h : BoltHdr) (body : List Byte) : List Byte := h.bytes ++ leBytes 8 (crc64 (h.bytes ++ body)) ++ body

/-- Whether a slot's CRC is right (R70). -/
def boltCrcOk (l : List Byte) : Bool := leField l 0x38 8 == crc64 (l.take 0x38 ++ l.drop 64)

/-- HOME_ADDR of a slot of this node (R69). -/
def homeAddr (s : State) (addr : Nat) : Nat := s.nodeId * 2 ^ 48 + addr % 2 ^ 48

/-- Whether a HOME_ADDR names an address of this node, by its own ID or the alias it has taken (R386). -/
def homeHere (s : State) (addr home : Nat) : Bool := home % 2 ^ 48 == addr % 2 ^ 48 && ownNode s (home / 2 ^ 48)

/-! ### Elements (R60 to R65) -/

/-- Element i of a row of a bolt or MX operand format: BF16, E4M3 or E2M1 (R61, R66). -/
def elemAt (fmt : Nat) (row : List Byte) (i : Nat) : Nat :=
  if fmt = 1 then leField row (2 * i) 2
  else if fmt = 2 then leField row i 1
  else bits (leField row (i / 2) 1) (4 * (i % 2)) 4

/-- The value of an element under its scale (R61). -/
def elemVal (fmt el scale : Nat) : FV := if fmt = 1 then FV.of16 el else mxVal (fmt == 3) scale el

/-- The d values of K or V row p of a slot. -/
def boltRow (fmt d : Nat) (slot : List Byte) (v : Bool) (p : Nat) : List FV :=
  let row := (slot.drop (if v then vRowAt fmt d p else kRowAt fmt d p)).take (rowBytes fmt d)
  let sc := if v then vScaleAt fmt d p else kScaleAt fmt d p
  (List.range d).map fun c => elemVal fmt (elemAt fmt row c) (leField slot (sc + 2 * (c / 32)) 1)

/-- The value of an input element in QIN format (R60). -/
def qinVal (qin : Nat) (row : List Byte) (i : Nat) : FV :=
  if qin = 0 then FV.of16 (leField row (2 * i) 2)
  else if qin = 1 then FV.ofE4 (leField row i 1) else FV.ofE5 (leField row i 1)

/-- Packs elements into bytes (R66). -/
def packElems (four : Bool) (es : List Nat) : List Byte :=
  if four then (chunks 2 es).map fun p => BitVec.ofNat 8 (p.headD 0 + 16 * p.getD 1 0) else es.map (BitVec.ofNat 8)

/-- One K or V row quantized into a bolt format under a shift: its bytes, its scale entries, and how many blocks hold NaN and how many saturated (R63, R64, R68). BF16 rows are written as delivered, FP8 ones widened. -/
def quantRow (fmt d qin : Nat) (shift : Int) (row : List Byte) : List Byte × List Byte × Nat × Nat :=
  if fmt = 1 then
    (if qin = 0 then row.take (2 * d) else (List.range d).flatMap fun i => leBytes 2 (qinVal qin row i).to16, [], 0, 0)
  else
    let bs := (chunks 32 ((List.range d).map (qinVal qin row))).map (mxQuant (fmt == 3) shift)
    (bs.flatMap fun b => packElems (fmt == 3) b.elems, bs.flatMap fun b => leBytes 2 b.entry,
     bs.countP fun b => bit b.entry 9, bs.countP fun b => bit b.entry 10)

/-- A shift of the KV profile (R65). -/
def shiftOf (b : Nat) : Int := if b = 0 then 0 else (b : Int) - 256

/-! ### Reading a stored bolt (R71, R73) -/

/-- What a task names a bolt by (R73): model format and dimension, layer, head, tenant, entry, whether HOME_ADDR goes unchecked (a bolt in a working buffer keeps its home's), and whether the cut-map entry it is read through is SHARED (R147). -/
structure BoltWant where
  format : Nat
  hdim : Nat
  layer : Nat
  head : Nat
  tenant : Nat
  ref : BoltRef
  fetched : Bool
  shared : Bool
  deriving DecidableEq, Repr

/-- Whether a header is the bolt a task names (R73). A bolt of TENANT 0 is read through an entry with SHARED only (R147; log 38). -/
def boltMatches (s : State) (w : BoltWant) (h : BoltHdr) : Bool :=
  h.format == w.format && h.hdim == w.hdim && h.layer == w.layer && h.head == w.head && h.first == w.ref.first
  && (h.tenant == w.tenant || (h.tenant == 0 && w.shared)) && (w.fetched || homeHere s w.ref.addr h.home) && h.ring == w.ref.ring && decide (w.ref.need ≤ h.fill)

/-- Reads a stored bolt for a task: the slot with its body in the clear, or the detail that stops the read (R71, R73). A key the task may not use stops it as a mismatch does (R455). -/
def readBolt (s : State) (w : BoltWant) : Except Nat (List Byte) :=
  let l := s.rd w.ref.addr (slotBytes w.format w.hdim)
  match memTrouble s w.ref.addr l.length with
  | some d => .error (if onQuiesced s w.ref.addr then Detail.FLT_STACK else d)
  | none =>
    if !boltCrcOk l then .error Detail.BOLT_CRC
    else
      let h := BoltHdr.ofBytes l
      if !boltMatches s w h then .error Detail.BOLT_IDENTITY
      else
        match keyUse s h.keySlot w.tenant (h.tenant == 0) with
        | .error _ => .error Detail.BOLT_IDENTITY
        | .ok e => .ok (l.take 64 ++ fit (l.length - 64) (xtsOpen e.xts h.home (l.drop 64)))

/-- Whether a detail says that a bolt's memory is out of reach rather than that the bolt is bad (R396, R445, R546). -/
def awayDetail (dt : Nat) : Bool := [Detail.FLT_STACK, Detail.FLT_LINK, Detail.CP_CXL_LOST].contains dt

/-- A request's own step waits for a bolt that could not be read, under the stall that the detail gives (R210): a repair that fails leaves a bolt that failed its CRC (R446). -/
def boltStall (s : State) (h dt : Nat) : State :=
  stallBegin s h (if dt = Detail.FLT_STACK then St.stack else if awayDetail dt then St.cxlLate else if dt = Detail.BOLT_IDENTITY then St.boltIdentity else St.boltCrc)

/-- A bolt that cannot be read has failed for good at its stack or port (R73, R438). -/
def boltFault (s : State) (h a dt : Nat) : State := if awayDetail dt then s else lastingAt s a dt h

/-- Both, of a bolt the controller reads itself. -/
def boltTrouble (s : State) (h a dt : Nat) : State := boltStall (boltFault s h a dt) h dt

/-! ### Writing rows (R72) -/

/-- The body of a bolt with position p's rows and scale entries taken from another body of the same layout; both as whole slots in the clear. -/
def copyRow (fmt d : Nat) (dst src : List Byte) (p q : Nat) : List Byte :=
  let part (a b n : Nat) (l : List Byte) : List Byte := splice l a ((src.drop b).take n)
  let rb := rowBytes fmt d
  let sb := if fmt = 1 then 0 else 2 * (d / 32)
  let l := part (kRowAt fmt d p) (kRowAt fmt d q) rb dst
  let l := part (vRowAt fmt d p) (vRowAt fmt d q) rb l
  let l := part (kScaleAt fmt d p) (kScaleAt fmt d q) sb l
  part (vScaleAt fmt d p) (vScaleAt fmt d q) sb l

/-- Whether the stored slot holds the same bolt as a staged one; any other slot counts as free (log 36). -/
def sameBolt (a b : BoltHdr) : Bool :=
  a.format == b.format && a.hdim == b.hdim && a.layer == b.layer && a.head == b.head && a.model == b.model && a.first == b.first
  && a.tenant == b.tenant && a.ring == b.ring

/-- Whether an address lies in the local slot of some verification's tentative tail (R137). -/
def inTail (s : State) (a : Nat) : Bool :=
  s.sch.ctxs.any fun e => match e.2.tentSlot with | some i => inLocal s i a | none => false

/-- A bolt with this header now lies at an address: an open one of an MX format is a user of the profile version it names, until it is full (R65, R233). -/
def boltStored (s : State) (a : Nat) (h : BoltHdr) : State :=
  if h.format = 1 ∨ 32 ≤ h.fill then boltUnuse s a else boltUse s a h.profile h.profileVer

/-- Writes the rows of a slot in the clear, from the stored FILL up to the staged FILL, to the slot at an address: rows and scale entries, FILL, CRC (R71, R72). The stored HOME_ADDR is the address written, and TENTATIVE is set in a slot of a verification's tail and clear elsewhere (R137; log 146). -/
def writeRows (s : State) (staged : List Byte) (addr tenant : Nat) : Except (Status × Nat) State :=
  let h := BoltHdr.ofBytes staged
  let size := slotBytes h.format h.hdim
  let d := hdimOf h.hdim
  match keyUse s h.keySlot tenant false with
  | .error e => .error e
  | .ok k =>
    let old := s.rd addr size
    let oh := BoltHdr.ofBytes old
    let same := sameBolt oh h && homeHere s addr oh.home
    let from_ := if same then oh.fill else 0
    let plain := if same then old.take 64 ++ fit (size - 64) (xtsOpen k.xts oh.home (old.drop 64)) else leBytes 64 0 ++ List.replicate (size - 64) 0
    if h.fill ≤ from_ then .ok s
    else
      let l := (List.range (h.fill - from_)).foldl (fun l i => copyRow h.format d l staged (from_ + i) (from_ + i)) plain
      let nh := { h with home := homeAddr s addr, flags := h.flags / 2 * 2 + b2n (inTail s addr) }
      .ok (boltStored (homeAccess (putBytes s addr (boltSlot nh (fit (size - 64) (xtsSeal k.xts nh.home (l.drop 64))))) addr size) addr nh)

/-! ### Bolts that move (R71, R203) -/

/-- A stored bolt written to another slot of this node (R71): its CRC checked, its body decrypted and encrypted again under the new tweak, HOME_ADDR, SLOT_RING and CRC rewritten; COPPICED is set in a bolt that a coppice node wrote (R84). A bolt whose CRC fails is never written, nor one whose key this node may not use. -/
def rehome (s : State) (slot : List Byte) (addr ring : Nat) (coppiced : Bool) : Except Nat State :=
  if !boltCrcOk slot then .error Detail.BOLT_CRC
  else
    let h := BoltHdr.ofBytes slot
    match keyUse s h.keySlot h.tenant false with
    | .error (_, d) => .error d
    | .ok k =>
      let nh := { h with home := homeAddr s addr, ring := ring, flags := if coppiced then 2 else h.flags }
      let body := fit (slot.length - 64) (xtsOpen k.xts h.home (slot.drop 64))
      .ok (boltStored (copyAccess (putBytes s addr (boltSlot nh (fit (slot.length - 64) (xtsSeal k.xts nh.home body)))) addr slot.length) addr nh)

/-- The stored bolts of a cut at this node, layers first. -/
def readCut (s : State) (m : Model) (addr : Nat → Nat → Nat) : List Byte :=
  (boltNames m).flatMap fun n => s.rd (addr n.1 n.2) (slotBytes m.format m.hdim)

/-- What reading the stored bolts of a cut for a copy does at this node (R353, R390, R393). -/
def cutAccess (s : State) (m : Model) (addr : Nat → Nat → Nat) : State :=
  (boltNames m).foldl (fun s n => copyAccess s (addr n.1 n.2) (slotBytes m.format m.hdim)) s

/-- The stripe units that hold up a copy from or to the bolts of a cut (R385, R388). -/
def cutBlocked (s : State) (m : Model) (addr : Nat → Nat → Nat) (write : Bool) : List Nat :=
  ((boltNames m).flatMap fun n => blockedUnits s (addr n.1 n.2) (slotBytes m.format m.hdim) write).eraseDups

/-- Why bolts of a cut at this node cannot be copied at all: units lost for good, or memory out of reach (R389, R396, R445). -/
def cutTrouble (s : State) (m : Model) (addr : Nat → Nat → Nat) : Option Nat :=
  let z := slotBytes m.format m.hdim
  (boltNames m).findSome? fun n => if doubleLost s (addr n.1 n.2) z then some Detail.CP_DOUBLE else memTrouble s (addr n.1 n.2) z

/-- The bolt of a cut at this node whose CRC is wrong, or its first where none is. -/
def badBolt (s : State) (m : Model) (addr : Nat → Nat → Nat) : Nat :=
  let l := (boltNames m).map fun n => addr n.1 n.2
  (l.find? fun a => !boltCrcOk (s.rd a (slotBytes m.format m.hdim))).getD (l.headD 0)

/-- Writes the stored bolts of a cut to their slots at this node; the first that cannot be written ends it with its detail. -/
def writeCut (s : State) (m : Model) (bolts : List Byte) (addr : Nat → Nat → Nat) (ring : Nat) (coppiced : Bool) : Except Nat State :=
  let z := slotBytes m.format m.hdim
  (boltNames m).zipIdx.foldl (fun r e =>
    match r with
    | .ok s => rehome s ((bolts.drop (e.2 * z)).take z) (addr e.1.1 e.1.2) ring coppiced
    | .error d => .error d) (.ok s)

/-- Writes a cut's stored bolts into a local slot (R50, R56). -/
def writeLocal (s : State) (m : Model) (bolts : List Byte) (i k : Nat) : Except Nat State :=
  writeCut s m bolts (fun l h => boltLocal s m i l h k) (s.tir.localIds.ringOf i) false

/-- Writes a cut's stored bolts into a cut slot of this node (R202, R84). -/
def writePool (s : State) (m : Model) (bolts : List Byte) (n : SlotName) (k : Nat) (coppiced : Bool) : Except Nat State :=
  writeCut s m bolts (fun l h => boltPool s m n.pool n.slot l h k) n.ring coppiced

/-- The bytes of codec table slot t's buffer b (R231). -/
def tblAddr (s : State) (t b : Nat) : Nat :=
  s.r Reg.CDC_TBL_BASE_LO_BASE_LO * 4096 + s.r Reg.CDC_TBL_BASE_HI_BASE_HI * 2 ^ 32
  + (2 * t + b) * (max 1 (s.r Reg.CDC_TBL_CFG_BUF_64K) * 65536)

/-- The body that a table slot holds in a buffer. -/
def tblBody (s : State) (t b : Nat) : List Byte :=
  match amGet t s.cdc.tables with
  | none => []
  | some T => s.rd (tblAddr s t b) (if T.curBuf = b then T.curLen else T.otherLen)

end Sys2Proof.Machine
end

