-- ==== Sys2Proof/Machine/Lifecycle.lean ====
section
/-! DEFINITION. The life of a request (spec/02): its context image, commits at the record home, how it ends, pausing and resuming, and what follows a commit's answer. -/

namespace Sys2Proof.Machine

/-! ### The context's image (R39, R40) -/

/-- The CONTROL word (R40). -/
def Ctx.control (x : Ctx) : Nat :=
  x.phase.code + b2n x.owner * 8 + b2n x.taken * 16 + b2n x.released * 32 + b2n x.resumeDecode * 64 + b2n x.recovered * 128
  + x.lclass * 2 ^ 8 + b2n x.deterministic * 2 ^ 11 + x.endReason * 2 ^ 12 + x.tenant * 2 ^ 16 + x.model * 2 ^ 36
  + b2n x.resumeAdmitted * 2 ^ 52

/-- Bytes 0x00 to 0xF7 of a context (R39). SCHED_STATE is opaque to software; the model gives it as zeros (log 17). -/
def Ctx.body (x : Ctx) : List Byte :=
  leBytes 4 x.handle ++ leBytes 2 x.homeNode ++ leBytes 2 x.mapEpoch ++ leBytes 8 x.control ++ leBytes 4 x.adapter
  ++ leBytes 2 x.peerNode ++ leBytes 2 0 ++ leBytes 4 x.peerHandle ++ leBytes 4 x.hseq ++ leBytes 2 x.recNode
  ++ leBytes 2 x.claimGen ++ leBytes 4 x.recKey ++ leBytes 8 x.recOffset ++ leBytes 4 x.tlogLen ++ leBytes 4 x.promptLen
  ++ leBytes 4 x.kvLen ++ leBytes 4 x.maxNew ++ leBytes 4 x.cutCount ++ leBytes 1 x.openFill ++ leBytes 1 x.tentCount
  ++ leBytes 2 0 ++ leBytes 8 x.tentRoot ++ leBytes 8 x.admitTime ++ leBytes 8 x.firstTime ++ leBytes 8 x.lastTime
  ++ leBytes 4 x.hostCq ++ leBytes 4 x.recoverId ++ leBytes 8 x.userTag ++ leBytes 8 0
  ++ ((List.range 12).flatMap fun i => leBytes 4 (x.counters.getD i 0)) ++ leBytes 72 0

/-- The 256-byte context with its CRC (R34, R39). -/
def Ctx.image (x : Ctx) : List Byte := x.body ++ leBytes 8 (crc64 x.body)

/-- Advances counter i of a context, saturating (R39). -/
def Ctx.bump (x : Ctx) (i n : Nat) : Ctx := { x with counters := listMod i (fun v => satAdd 32 v n) x.counters }

namespace Ctr
def steps : Nat := 0
def tokens : Nat := 1
def prefixHit : Nat := 2
def felled : Nat := 3
def coppiced : Nat := 4
def pauses : Nat := 5
def stallUs : Nat := 6
def retries : Nat := 7
def backups : Nat := 8
def specProposed : Nat := 9
def specAccepted : Nat := 10
def handoffs : Nat := 11
end Ctr

/-- END_REASON codes (R40). -/
def endToken : Nat := 1
def endLength : Nat := 2
def endCancelled : Nat := 3
def endHandedOff : Nat := 4
def endSuperseded : Nat := 5
def endFaultContext : Nat := 6
def endFaultRecord : Nat := 7

/-- A context with handle `h` and nothing else in it. -/
def Ctx.blank (h : Nat) : Ctx :=
  { handle := h, homeNode := 0, mapEpoch := 0, resumeAdmitted := false, model := 0, tenant := 0, endReason := 0,
    deterministic := false, lclass := 0, recovered := false, resumeDecode := false, released := false, taken := false,
    owner := false, phase := .admitted, adapter := 0, peerNode := 0, peerHandle := 0, hseq := 0, recNode := 0, claimGen := 0,
    recKey := 0, recOffset := 0, tlogLen := 0, promptLen := 0, kvLen := 0, maxNew := 0, cutCount := 0, openFill := 0,
    tentCount := 0, tentRoot := 0, admitTime := 0, firstTime := 0, lastTime := 0, hostCq := 0, recoverId := 0, userTag := 0,
    counters := List.replicate 12 0, hasRecord := false, committed := .admitted, committedLen := 0, log := [], cuts := [],
    stepBusy := false, relWritten := false, layer := 0, chunkLen := 0, lookupBusy := false, handoffNode := 0, pd := 0,
    trailInsert := false, noLookup := false, selfPaused := false, autoResume := false, pausedAt := 0, pausePending := none, cancelPending := none,
    handoffTries := 0, handoffSent := 0, needCoppice := [], coppiceNode := 0, coppiceTries := 0, coppiceSent := 0,
    coppiceCmd := none, openSlot := none, tentSlot := none, ahead := [], reportedUpTo := 0, resumeWait := none, migrateWait := none,
    chunkDone := false, fillWait := false, pulled := [], pdPosted := false, cop := false, openWait := false, coppicing := false, seq := 0, unresolved := false, verifyN := 0, verifyTree := [], verifyDone := false,
    verifyCmd := none }

/-- A context in hand with the STALL_US that the stored one has come to (R211). -/
def Ctx.stallUs (x y : Ctx) : Ctx := { x with counters := listMod Ctr.stallUs (fun _ => y.counters.getD Ctr.stallUs 0) x.counters }

/-- Where a context's record lies. -/
def Ctx.record (x : Ctx) : RecLoc := ⟨x.recNode, x.recKey, x.recOffset⟩

/-! ### Commits (R44, R45, R78) -/

/-- The offset of the segment index of a record in its region (R43; log 57). -/
def segIndexAt (r : RecLoc) : Nat := Config.recPart r.offset 0
/-- The offset of the cut map (R43; log 57). -/
def cutMapAt (r : RecLoc) : Nat := Config.recPart r.offset 1
/-- The offset of segment k of the token log (R42; log 57). -/
def segmentAt (r : RecLoc) (k : Nat) : Nat := Config.recPart r.offset (2 + k)

/-- The claim-checked writes that store tokens from position p on (R42): none crosses a segment of 16,384 tokens, and each carries at most 2,048 of them, within the 8,704 bytes of R341. -/
def tokenStores (r : RecLoc) : Nat → Nat → List Nat → List (Nat × List Byte)
  | 0, _, _ => []
  | fuel + 1, p, ts =>
    if ts.isEmpty then []
    else
      let n := 2048 - p % 2048
      (segmentAt r (p / 16384) + 4 * (p % 16384), (ts.take n).flatMap (leBytes 4)) :: tokenStores r fuel (p + n) (ts.drop n)

/-- The segment index: 256 entries of 8 bytes, each the offset of one segment (R42). -/
def segIndexBytes (r : RecLoc) : List Byte := (List.range 256).flatMap fun k => leBytes 8 (segmentAt r k)

/-- Bytes 0x08 to 0x3F of the record head (R43). -/
def Ctx.headBytes (x : Ctx) : List Byte :=
  leBytes 4 x.handle ++ leBytes 4 x.tenant ++ leBytes 4 x.promptLen ++ leBytes 4 x.adapter ++ leBytes 4 x.model ++ leBytes 4 x.cutCount
  ++ leBytes 8 (segIndexAt x.record) ++ leBytes 8 (cutMapAt x.record) ++ leBytes 8 x.userTag ++ leBytes 8 0

/-- The claim pair of R343. -/
def claimPair (node gen : Nat) : Nat := node * 2 ^ 16 + gen

/-- The ATOMIC a commit sends (R44, R78, R343): a `CAS` of the commit word, a `CLAIM_CAS` of a cut-map entry, or a `CLAIM_WRITE`. -/
def Commit.req (cm : Commit) (node : Nat) : RecReq :=
  match cm.kind.cut with
  | some k => ⟨0x11, cutMapAt cm.record + 16 * k, claimPair node cm.gen, cm.record.offset, leBytes 8 cm.expected ++ leBytes 8 cm.new⟩
  | none =>
    if cm.kind.isWrite then ⟨0x10, cm.off, claimPair node cm.gen, cm.record.offset, cm.bytes⟩
    else ⟨3, cm.record.offset, cm.expected, cm.new, []⟩

/-- A commit of kind k of a context, with nothing to store first. -/
def commitOf (x : Ctx) (k : CommitKind) (expected new : Nat) (cmd : Option (Nat × Cmd)) : Commit :=
  { kind := k, handle := x.handle, record := x.record, gen := x.claimGen, expected := expected, new := new, tokens := [], stores := [],
    bytes := [], off := 0, cmd := cmd, stage := .sent, tried := true, reread := false, slot := none }

/-- Records a commit under a new number. -/
def addCommit (s : State) (cm : Commit) : State × Nat :=
  ({ s with sch := { s.sch with nextCommit := s.sch.nextCommit + 1, commits := amSet s.sch.nextCommit cm s.sch.commits } }, s.sch.nextCommit)

/-- Sends the ATOMIC of commit `id`. -/
def sendReq (s : State) (id : Nat) (cm : Commit) : State :=
  { s with sch := { s.sch with commits := amSet id { cm with stage := .sent, tried := true, reread := false } s.sch.commits } }.emit
    (.msg cm.record.node (.atomic id cm.record.key (cm.req s.nodeId)))

/-- Records a commit in flight and sends its ATOMIC. -/
def sendCommit (s : State) (cm : Commit) : State :=
  let p := addCommit s cm
  sendReq p.1 p.2 cm

/-- Sends a claim-checked write of `bytes` at an offset of the record's region (R44). -/
def claimWrite (s : State) (x : Ctx) (k : CommitKind) (off : Nat) (bytes : List Byte) (cmd : Option (Nat × Cmd)) : State :=
  sendCommit s { commitOf x k 0 0 cmd with off := off, bytes := bytes }

/-- Writes the rest of the head of a record by a claim-checked write (R41, R43). -/
def writeHead (s : State) (x : Ctx) : State := claimWrite s x .head (x.recOffset + 8) x.headBytes none

/-- Starts a commit (R45): its claim-checked writes go out first, and without any its compare-and-set does. -/
def commitStart (s : State) (id : Nat) (cm : Commit) : State :=
  match s.ctx cm.handle with
  | none => s
  | some x =>
    let cm := { cm with expected := x.word s.nodeId }
    if cm.stores.isEmpty then sendReq s id cm
    else
      let s := { s with sch := { s.sch with commits := amSet id { cm with stage := .storing cm.stores.length } s.sch.commits } }
      cm.stores.foldl (fun s w => claimWrite s x (.store id) w.1 w.2 none) s

/-- Issues a commit of the word to (phase, length) after the writes listed (R45). A step that commits waits for the answer under ST_RECORD (R210). While an earlier commit of the request has no answer it waits, so that it expects the value the owner last committed. -/
def issueStored (s : State) (x : Ctx) (k : CommitKind) (ph : Phase) (len : Nat) (tokens : List Nat) (stores : List (Nat × List Byte)) (cmd : Option (Nat × Cmd)) : State :=
  let cm := { commitOf x k (x.word s.nodeId) (commitWord s.nodeId x.claimGen ph len) cmd with tokens := tokens, stores := stores, stage := .waiting, tried := false }
  let busy := commitBusy s x.handle
  let p := addCommit (if k.ofStep then stallBegin s x.handle St.record else s) cm
  if busy then p.1 else commitStart p.1 p.2 cm

/-- Issues a compare-and-set of the commit word to (phase, length), after the claim-checked writes of the tokens it commits (R45). -/
def issueCommit (s : State) (x : Ctx) (k : CommitKind) (ph : Phase) (len : Nat) (tokens : List Nat) (cmd : Option (Nat × Cmd)) : State :=
  issueStored s x k ph len tokens (tokenStores x.record tokens.length x.committedLen tokens) cmd

/-- Starts the next commit of a request that waits for the one just resolved. -/
def commitNext (s : State) (h : Nat) : State :=
  match s.sch.commits.find? fun e => e.2.handle == h && e.2.kind.isWord with
  | some (id, cm) => if cm.stage = .waiting then commitStart s id cm else s
  | none => s

/-- Drops the commits of the word and the claim-checked writes of a request that has ended; the commands that wait for them are STALE, as commands performed after the end are (R46). -/
def dropCommits (s : State) (h : Nat) : State :=
  let gone := s.sch.commits.filter fun e => e.2.handle == h && e.2.kind.cut.isNone
  let s := { s with sch := { s.sch with commits := s.sch.commits.filter fun e => !(e.2.handle == h && e.2.kind.cut.isNone) } }
  gone.foldl (fun s e => finish s e.2.cmd { Done.of .stale 0 with handle := h }) s

/-- Issues a claim-checked compare-and-set of a cut-map entry (R78). -/
def issueEntry (s : State) (x : Ctx) (k : CommitKind) (old new : CutEntry) (cmd : Option (Nat × Cmd)) : State :=
  sendCommit s (commitOf x k (entryWord old) (entryWord new) cmd)

/-- Whether a move of a request's cuts is still short of its flip (R206). -/
def moveBusy (s : State) (h : Nat) : Bool := s.tir.moves.any fun m => m.handle == h && decide (m.stage ≠ .grace)

/-! ### The end of a request (R49, R163) -/

/-- Sends a FREE for entry k to its home, or frees the local slot (R49, R81). -/
def sendFree (s : State) (x : Ctx) (k : Nat) (e : CutEntry) : State :=
  if e.isLocal then (if e.node = s.nodeId then dropLocal s e.slot else s)
  else s.emit (.msg e.node (.free x.handle k (slotName s x k e)))

/-- Releases entry k when its request ends: a shared one goes to EMPTY by compare-and-set first and is freed on the answer (R163); one that is moving waits for its flip (R206). -/
def releaseEntry (s : State) (x : Ctx) (k : Nat) : State :=
  let e := x.cut k
  match e.state with
  | .resident =>
    if e.shared then
      sendCommit s { commitOf x (.cutEmpty k) (entryWord e) (entryWord { e with state := .empty }) none with slot := some (e.node, slotName s x k e) }
    else sendFree s x k e
  | _ => s

/-- Frees the local objects of a context: its open cut, its tentative tail, pulled cuts, and full cuts still in the local area (R49); a cut being moved keeps its slot until the flip or the abort (R206). -/
def freeLocals (s : State) (x : Ctx) : State :=
  let s := match x.openSlot with | some i => dropLocal s i | none => s
  let s := match x.tentSlot with | some i => dropLocal s i | none => s
  let s := x.ahead.foldl dropLocal s
  let s := x.pulled.foldl (fun s p => dropLocal s p.2.1) s
  x.cuts.foldl (fun s e => if e.isLocal && e.node == s.nodeId && e.state == .resident then dropLocal s e.slot else s) s

/-- The detail an EV_END carries beside END_REASON (R59; log 20). -/
def endDetail (reason : Nat) : Nat :=
  if reason = endSuperseded then Detail.SUPERSEDED
  else if reason = endFaultContext then Detail.CTX_CRC
  else if reason = endFaultRecord then Detail.RECORD_FAULT
  else 0

/-- The event bit an end sets (SCH_CTX_EVENT). -/
def endEvent (s : State) (reason : Nat) : State :=
  if reason = endSuperseded then setEvent s Reg.SCH_CTX_EVENT_SUPERSEDED 0
  else if reason = endFaultContext then setEvent s Reg.SCH_CTX_EVENT_CTX_CRC 0
  else s

/-- Frees what an owning context holds at homes (R49, R163): its cuts and its record. -/
def freeHomes (s : State) (x : Ctx) : State :=
  let s := (List.range x.cuts.length).foldl (fun s k => if (x.cut k).isLocal then s else releaseEntry s x k) s
  s.emit (.msg x.recNode (.freeRecord x.record x.claimGen))

/-- Completes the commands of a request that wait when it ends: performed after the end, they are STALE (R46). -/
def failWaiting (s : State) (x : Ctx) : State :=
  let d : Done := { Done.of .stale 0 with handle := x.handle }
  let s := match x.pausePending with | some (some c) => completeCmd s Op.PAUSE c d | _ => s
  let s := match x.resumeWait with | some (_, some c) => completeCmd s Op.RESUME c d | _ => s
  let s := match x.migrateWait with | some (_, some c) => completeCmd s Op.MIGRATE c d | _ => s
  let s := finish s x.coppiceCmd d
  match x.verifyCmd with | some c => completeCmd s Op.VERIFY c d | none => s

/-- Ends a request in DONE or FAILED (R46, R49; a FAULT_CONTEXT that owns its request sends the frees of R49 too, though R34 has software recover it from its record: DEDUCED, log 127): work dropped, adapter pin released (R238), local objects freed; a request that leaves the node leaves its window (R401), one that ends here when its context is released; where the context still owns the request and has a record, frees go to the homes of its cuts and to its record; EV_END is posted (R516). -/
def endCtx (s : State) (x : Ctx) (ph : Phase) (reason : Nat) : State :=
  let s := dropWork s x.handle
  let x := match s.ctx x.handle with | some y => x.stallUs y | none => x
  let own := x.owner && decide (reason ≠ endSuperseded)
  let s := unpinAdp (if own && decide (reason ≠ endHandedOff) then s else unbind s x.handle) x.adapter
  let y := { x with phase := ph, endReason := reason, owner := own, stepBusy := false, relWritten := false, tentCount := 0, tentRoot := 0,
                    pausePending := none, resumeWait := none, migrateWait := none, cancelPending := none, verifyCmd := none,
                    lookupBusy := false, coppiceCmd := none, needCoppice := [], openSlot := none, tentSlot := none, ahead := [], pulled := [], fillWait := false, openWait := false, coppicing := false, autoResume := false }
  let s := dropCommits (s.setCtx y) x.handle
  let s := if own && x.hasRecord && decide (reason ≠ endHandedOff) then freeHomes s y else s
  let s := freeLocals s x
  let s := endEvent s reason
  let s := postEvent s y Ev.END .ok (endDetail reason) x.tlogLen reason
  failWaiting s x

/-- Commits DONE at the record (R46). -/
def commitDone (s : State) (x : Ctx) (reason : Nat) (cmd : Option (Nat × Cmd)) : State :=
  issueCommit s x (.endDone reason) .done x.committedLen [] cmd

/-- The two classes of refusal of R45: SUPERSEDED, or FAULT_RECORD. -/
def refuseCtx (s : State) (x : Ctx) (superseded : Bool) : State :=
  endCtx s x .failed (if superseded then endSuperseded else endFaultRecord)

/-- How a command whose own commit is refused completes (R45). -/
def refusedDone (superseded : Bool) (h : Nat) : Done :=
  { (if superseded then Done.of .stale Detail.SUPERSEDED else Done.of .fenced Detail.RECORD_FAULT) with handle := h }

/-! ### Steps and chunks -/

/-- Whether a step of a request waits for its token (R511): decoding, every written position's output delivered, no verification under way. -/
def awaitsToken (s : State) (x : Ctx) : Bool :=
  (x.phase == .decode || (x.phase == .paused && x.resumeDecode)) && x.kvLen == x.tlogLen && !x.stepBusy && x.tentCount == 0
  && !commitBusy s x.handle && decide (x.tlogLen < 4194304) && decide (x.tlogLen - x.promptLen < x.maxNew)

/-- Whether a completion of the request's HOST_CQ is held, which holds its next step (R517). -/
def cqHeld (s : State) (x : Ctx) : Bool :=
  match amGet (bits x.hostCq 0 16) (s.fn (bits x.hostCq 16 6)).cqs with
  | some c => !c.held.isEmpty
  | none => false

/-- The cuts of a context in FELLED, in ascending order. -/
def felledCuts (x : Ctx) : List Nat := (List.range x.cuts.length).filter fun k => decide ((x.cut k).state = .felled)

/-- Releases a step or chunk of `n` positions: its record is queued (R401, R402). -/
def releaseWork (s : State) (x : Ctx) (kind n : Nat) : State :=
  let s := s.setCtx { x with stepBusy := true, relWritten := false, chunkLen := n }
  queueRelease s x.handle x.model ⟨x.handle, kind, x.kvLen, n, false, x.lclass, x.userTag⟩

/-- Whether entries of a recovered request are still being settled, which its next step waits for (R78, R205). -/
def settling (s : State) (h : Nat) : Bool :=
  s.sch.commits.any fun e => e.2.handle == h && (match e.2.kind with | .cutSettle _ => true | _ => false)

/-- Whether the role decodes (R15, R426). -/
def decodes (s : State) : Bool := roleEnables s [roleGeneration, roleMixed]

/-- The pause itself: step dropped, PHASE and the resume flags set, PAUSES advanced; a CANCEL that waited for the step goes on in PAUSED (R213). The handoff of a prompt that waited for its moves begins again on resume (R46). -/
def pauseNow (s : State) (x : Ctx) (auto : Bool) : State :=
  let s := dropStep s x.handle
  match s.ctx x.handle with
  | none => s
  | some x =>
    let c := x.cancelPending
    let x := ({ x with phase := .paused, resumeAdmitted := decide (x.phase = .admitted), resumeDecode := decide (x.phase = .decode),
                       pausedAt := s.now, selfPaused := auto, pausePending := none, cancelPending := none,
                       migrateWait := x.migrateWait.filter fun w => w.2.isSome } : Ctx).bump Ctr.pauses 1
    match c with
    | some c => commitDone (s.setCtx x) x endCancelled (some (Op.CANCEL, c))
    | none => s.setCtx x

/-- A step that its merge slot cannot hold, or whose merge area cannot be reached (R445), is refused before it is issued (R126): the request enters PAUSED as by software, and an event EV_SCHED carries FENCED and the detail, since R516 names no event for it (DESIGN CHOICE, log 142). -/
def refuseStep (s : State) (x : Ctx) (dt : Nat) : State :=
  let s := pauseNow (s.setCtx x) x false
  match s.ctx x.handle with
  | some x => postEvent s x Ev.SCHED .fenced dt 0 0
  | none => s

/-- Begins the fill that a step of a context not in the cache waits for; with every entry of its set pinned the wait is a stall under ST_CTX_SET (R33, R210). -/
def stepFill (s : State) (h : Nat) : State :=
  let i := bits h 0 21
  let s := if setFull s i then stallBegin s h St.ctxSet else s
  beginFill s h

/-- Whether a verification step that a refusal withdrew is to be released again: its request decodes again (R404). -/
def verifyDue (s : State) (x : Ctx) : Bool :=
  decide (x.phase = .decode) && x.owner && !x.stepBusy && x.tentCount != 0 && !x.verifyDone && decodes s && !cqHeld s x

/-- Starts a request's next decode step where it has one: one position (R46), on a role that decodes (R15). A step whose layer was abandoned starts at that layer (R185). A step of a context that is not in the cache waits for its fill (R33). -/
def startDecode (s : State) (x : Ctx) : State :=
  if verifyDue s x then
    if needsFill s x.handle then stepFill (s.setCtx x) x.handle
    else match stepTrouble s x x.verifyN with
      | some dt => refuseStep s x dt
      | none => releaseWork s x 3 x.verifyN
  else
  if x.phase = .decode ∧ x.owner ∧ !x.stepBusy ∧ x.kvLen < x.tlogLen ∧ x.tentCount = 0 ∧ !cqHeld s x ∧ x.needCoppice = [] ∧ felledCuts x = [] ∧ !x.openWait ∧ decodes s ∧ !settling s x.handle then
    if needsFill s x.handle then stepFill (s.setCtx x) x.handle
    else
      match stepTrouble s x 1 with
      | some dt => refuseStep s x dt
      | none =>
        let y := { x with stepBusy := true, relWritten := false, chunkLen := 1 }
        queueRelease (s.setCtx y) x.handle x.model ⟨x.handle, 1, x.kvLen, 1, false, x.lclass, x.userTag⟩
  else s.setCtx x

/-- Prefill chunk limit of the role (R180, SCH_BUCK_CFG): rounded down to a multiple of 512, from 512 to 8,192. -/
def chunkLimit (s : State) : Nat :=
  let v := if s.role = rolePrompt then s.r Reg.SCH_BUCK_CFG_MAX_CHUNK else s.r Reg.SCH_BUCK_CFG_MIX_CHUNK
  min 8192 (max 512 (v / 512 * 512))

/-- Targets of a class in ns (SCH_CLASS_TGT): 0 acts as 1. -/
def ttftNs (s : State) (c : Nat) : Nat := max 1 (s.r (Reg.SCH_CLASS_TGT_TTFT_MS.at 8 c)) * 1000000
def tpotNs (s : State) (c : Nat) : Nat := max 1 (s.r (Reg.SCH_CLASS_TGT_TPOT_10US.at 8 c)) * 10000

/-- Bolts of one cut of a model: one per layer and KV head (R66). -/
def boltsPerCut (m : Model) : Nat := m.layers * m.kvHeads

/-- Gives a context a local slot for its open cut where it needs one and has none (R197). -/
def openCut (s : State) (x : Ctx) : State × Ctx :=
  if x.openSlot.isSome then (s, x)
  else if x.ahead ≠ [] then (s, { x with openSlot := x.ahead.head?, ahead := x.ahead.tail })
  else
    match modelOf s x with
    | none => (s, x)
    | some m =>
      match allocLocal s (cutBytesPerStack m (sliceGroup m.kvHeads x.cutCount)) with
      | none => (stallBegin s x.handle St.localFull, x)
      | some (s, i, _) => (s, { x with openSlot := some i })

/-- Writes word 1 of entry k, its CUT_NO, by a claim-checked write (R77). -/
def cutNumber (s : State) (x : Ctx) (k : Nat) : State := claimWrite s x .head (cutMapAt x.record + 16 * k + 8) (leBytes 8 k) none

/-- The open cut is full: it joins the cut map as a local cut, by a claim-checked change of its entry (R77, R78, R197). -/
def closeCut (s : State) (x : Ctx) : State × Ctx :=
  match x.openSlot with
  | none => (s, x)
  | some i =>
    let e : CutEntry := ⟨.resident, false, false, true, s.nodeId, 0, i, s.tir.localIds.ringOf i⟩
    let s := closeCutUsers s i
    let y := { x with cutCount := x.cutCount + 1, openSlot := none, cuts := x.cuts ++ [e] }
    (cutNumber (issueEntry s y (.cutAttach x.cutCount) CutEntry.none e none) y x.cutCount, y)

/-- Writes n further positions of key-value state: KV_LEN advances, the open cut fills, and each cut that fills closes (R39, R119, R197). -/
def advanceKv (s : State) (x : Ctx) : Nat → State × Ctx
  | 0 => (s, x)
  | n + 1 =>
    let p := openCut s x
    let y : Ctx := { p.2 with kvLen := p.2.kvLen + 1, openFill := (p.2.kvLen + 1) % 32 }
    let q := if y.openFill = 0 then closeCut p.1 y else (p.1, y)
    advanceKv q.1 q.2 n

/-! ### Handoff messages (R50 to R53) -/

/-- The OFFER of a context (R46): PHASE is PAUSED in its CONTROL where the request is handed over paused. -/
def offerOf (s : State) (x : Ctx) (paused : Bool) : OfferMsg :=
  { sender := s.nodeId, handle := x.handle, hseq := x.hseq, epoch := s.r Reg.MGT_MAP_EPOCH_EPOCH,
    control := x.control / 8 * 8 + (if paused then Phase.paused.code else x.phase.code), adapter := x.adapter,
    tlogLen := x.tlogLen, promptLen := x.promptLen, kvLen := x.kvLen, maxNew := x.maxNew, cutCount := x.cutCount,
    openFill := x.openFill, claimGen := x.claimGen, record := x.record, userTag := x.userTag,
    tail := match x.openSlot with | some i => [i] | none => [] }

/-- Sends an OFFER to a receiver: HSEQ advances by one (R52) and the wait for TAKEN begins (R53). -/
def sendOffer (s : State) (x : Ctx) (dst : Nat) : State :=
  let x := { x with hseq := (x.hseq + 1) % 2 ^ 32, peerNode := dst, peerHandle := 0, handoffTries := 0, handoffSent := s.now }
  let s := s.setCtx x
  s.emit (.msg dst (.offer (offerOf s x x.resumeDecode)))

/-- Posts an EV_HANDOFF with its detail (R53, R516). -/
def evHandoff (s : State) (x : Ctx) (detail : Nat) : State := postEvent s x Ev.HANDOFF .ok detail 0 0

/-- Commits HANDOFF (R46): at once, or when the last move of the request has flipped or aborted (R206), which a prompt's last chunk waits for under ST_MOVING (R210). A step in flight is withdrawn as at a pause: R46 lets MIGRATE act in DECODE and does not say what becomes of the step (DESIGN CHOICE, log 123). -/
def beginHandoff (s : State) (x : Ctx) (dst : Nat) (cmd : Option Cmd) : State :=
  if moveBusy s x.handle then
    let s := s.setCtx { x with migrateWait := some (dst, cmd) }
    if cmd.isNone then stallBegin s x.handle St.moving else s
  else
    let s := dropWork (s.setCtx { x with migrateWait := none }) x.handle
    match s.ctx x.handle with
    | none => s
    | some x =>
      let y := { x with phase := .handoff, peerNode := dst, resumeDecode := decide (x.phase = .paused), resumeAdmitted := false }
      issueCommit (s.setCtx y) y .handoff .handoff x.committedLen [] (cmd.map fun c => (Op.MIGRATE, c))

/-- What follows the last chunk of a prompt (R46): HANDOFF on the prompt role, DECODE on another. -/
def promptDone (s : State) (x : Ctx) : State :=
  if s.role = rolePrompt then beginHandoff s x x.handoffNode none
  else issueCommit (s.setCtx { x with phase := .decode }) { x with phase := .decode } .decode .decode x.committedLen [] none

/-- Whether a request stands at the end of its prompt in PREFILL. -/
def promptComplete (x : Ctx) : Bool := decide (x.phase = .prefill) && x.owner && !x.stepBusy && x.kvLen == x.promptLen && x.tlogLen == x.promptLen

/-! ### New contexts -/

/-- Allocates an index for a new context (R30); the context is resident in the cache where its set has room (R32). -/
def allocCtx (s : State) : Option (State × Nat) :=
  match s.sch.ids.alloc (ctxCap s) s.now with
  | none => none
  | some (i, ids) =>
    let h := mkHandle (ids.ringOf i) i
    let s := { s with sch := { s.sch with ids := ids } }
    some ((cacheInsert s i).getD s, h)

end Sys2Proof.Machine
end

