-- ==== Sys2Proof/Machine/Request.lean ====
section
/-! DEFINITION. Admission, models, pausing, parking, migration, recovery and consumption of requests: the commands of spec/02 and spec/07 that name a request, the admission scan and the risk evaluation. -/

namespace Sys2Proof.Machine

/-! ### Models (R169, R170) -/

/-- The model a 32-byte descriptor describes (R169). -/
def modelOfDesc (d : List Byte) : Model :=
  { layers := leField d 2 2, qHeads := leField d 4 2, kvHeads := leField d 6 1, hdim := leField d 7 1, format := leField d 8 1,
    groups := leField d 9 1, sinks := leField d 0xA 2, window := leField d 0xC 4, smScale := leField d 0x10 4,
    end0 := leField d 0x14 4, end1 := leField d 0x18 4 }

/-- Whether an FP32 pattern is positive, finite and normal. -/
def fp32PosNormal (x : Nat) : Bool := x < 2 ^ 31 && decide (1 ≤ bits x 23 8) && decide (bits x 23 8 ≤ 254)

/-- The ranges and zero fields of R169. -/
def modelOk (id : Nat) (m : Model) (d : List Byte) : Bool :=
  decide (1 ≤ id) && decide (1 ≤ m.layers) && decide (m.layers ≤ 256) && decide (1 ≤ m.qHeads) && decide (m.qHeads ≤ 512)
  && decide (1 ≤ m.kvHeads) && decide (m.kvHeads ≤ 64) && m.qHeads % m.kvHeads == 0 && decide (m.hdim ≤ 4)
  && decide (1 ≤ m.format) && decide (m.format ≤ 3) && decide (1 ≤ m.groups) && decide (m.groups ≤ 4)
  && decide (m.sinks ≤ 4096) && decide (m.window ≤ 4194304) && fp32PosNormal m.smScale && leField d 0x1C 4 == 0

/-- MODEL_REG (R169, R170). -/
def modelRegBody : Body := fun s d =>
  let id := leField d 0 2
  let m := modelOfDesc d
  let clash := s.tir.pools.any fun e => e.2.model == id && !(e.2.format == m.format && e.2.hdim == m.hdim && e.2.layers == m.layers && e.2.kvHeads == m.kvHeads)
  if !modelOk id m d then fail s .fenced Detail.SCH_MODEL
  else
    match amGet id s.sch.models with
    | some old => if old = m then answer s Done.ok else fail s .conflict (if clash then Detail.SCH_MODEL else 0)
    | none =>
      if 1024 ≤ s.sch.models.length then fail s .fenced Detail.SCH_MODEL
      else if clash then fail s .conflict Detail.SCH_MODEL
      else ({ s with sch := { s.sch with models := amSet id m s.sch.models } }, some Done.ok)

def execModelReg (c : Cmd) (s : State) : Host.Outcome State Fault Refusal := runPlain s Op.MODEL_REG c modelRegBody

/-- MODEL_DEREG (R170): refused while a context names the model or an enabled window is bound to it. -/
def modelDeregBody (c : Cmd) : Body := fun s _ =>
  if s.sch.ctxs.any fun e => e.2.model == c.arg0 then fail s .conflict 0
  else if (List.range 64).any fun w => winOn s w && s.r (Reg.HIF_XW_CFG_MODEL.at 0x40 w) == c.arg0 then fail s .conflict 0
  else ({ s with sch := { s.sch with models := amErase c.arg0 s.sch.models } }, some Done.ok)

def execModelDereg (c : Cmd) (s : State) : Host.Outcome State Fault Refusal := runPlain s Op.MODEL_DEREG c (modelDeregBody c)

/-! ### Admission (R41, R173, R174, R510) -/

/-- The queue of a class. -/
def admitQueue (s : State) (c : Nat) : List Admission := amGetD c [] s.sch.queues
/-- Admissions waiting in all queues (SCH_ADMIT_QUEUED). -/
def admitQueued (s : State) : Nat := s.sch.queues.foldl (fun a e => a + e.2.length) 0
/-- QMAX as it acts. -/
def admitMax (s : State) : Nat := min 65536 (max 1 (s.r Reg.SCH_ADMIT_CFG_QMAX))
/-- Active requests of a class (R174). -/
def classActive (s : State) (c : Nat) : Nat := amCount (fun _ x => x.lclass == c && x.phase.active && !x.cop) s.sch.ctxs
/-- Active requests of the node. -/
def nodeActive (s : State) : Nat := amCount (fun _ x => x.phase.active && !x.cop) s.sch.ctxs
/-- Latency class of an ADMIT descriptor (R510). -/
def descClass (d : List Byte) : Nat := bits (leField d 0xA 1) 0 3

/-- ADMIT (R15, R173, R234, R237, R423): checked and queued in its class; the completion comes when it is admitted. -/
def admitBody (c : Cmd) : Body := fun s d =>
  if !roleEnables s [rolePrompt, roleGeneration, roleMixed] || s.changing then redirect s
  else if admitMax s ≤ admitQueued s then fail s .noCredit Detail.SCH_ADMIT_FULL
  else
    match amGet (leField d 8 2) s.sch.models with
    | none => fail s .fenced Detail.SCH_MODEL
    | some m =>
      if profileMissing s m (leField d 8 2) then fail s .fenced Detail.CDC_NO_PROFILE
      else
        match admitAdapter s (leField d 0x10 4) with
        | .error (st, dt) => fail s st dt
        | .ok _ =>
          let k := descClass d
          ({ s with sch := { s.sch with queues := amSet k (admitQueue s k ++ [⟨c, d, s.now, false⟩]) s.sch.queues } }, none)

def execAdmitCmd (c : Cmd) (s : State) : Host.Outcome State Fault Refusal := runPlain s Op.ADMIT c (admitBody c)

/-- The context an ADMIT creates (R39 to R41, R46, R510). -/
def admitCtx (s : State) (h : Nat) (a : Admission) (adapter : Nat) : Ctx :=
  let d := a.desc
  let fl := leField d 0xB 1
  let plen := leField d 0 4
  { Ctx.blank h with
    homeNode := s.nodeId, mapEpoch := s.r Reg.MGT_MAP_EPOCH_EPOCH, model := leField d 8 2, tenant := bits (leField d 0xC 4) 0 20,
    deterministic := bit fl 0, lclass := descClass d, owner := true, phase := .admitted, adapter := adapter,
    recNode := leField d 0x14 2, claimGen := 1, recKey := leField d 0x18 4, recOffset := leField d 0x20 8, promptLen := plen,
    maxNew := min (leField d 4 4) (4194304 - plen), admitTime := a.time, hostCq := a.cmd.fn * 65536 + a.cmd.cq, userTag := a.cmd.userTag,
    handoffNode := leField d 0x1C 2, pd := leField d 0x16 2, trailInsert := bit fl 1, noLookup := bit fl 2 }

/-- The token IDs in host memory that an ADMIT names. -/
def promptTokens (s : State) (addr n : Nat) : List Nat := (List.range n).map fun i => memReadLE s.mem (hostXA (addr + 4 * i)) 4

/-- Admits one admission that has been taken from its queue, under handle h (R41, R174). A prompt length of 0 or above 4,194,303 gives a context in FAILED with no record. A token read that the host refuses ends the command (R502). -/
def admitOne (s s' : State) (h : Nat) (a : Admission) : State :=
  let plen := leField a.desc 0 4
  let tok := leField a.desc 0x28 8
  match admitAdapter s (leField a.desc 0x10 4) with
  | .error (st, dt) => completeCmd s Op.ADMIT a.cmd (Done.of st dt)
  | .ok ad =>
    if plen = 0 ∨ 4194304 ≤ plen then
      let x := { admitCtx s' h a 0 with phase := .failed, endReason := endLength, maxNew := leField a.desc 4 4 }
      let s := completeCmd (s'.setCtx x) Op.ADMIT a.cmd { Done.ok with handle := h }
      postEvent s x Ev.END .ok 0 0 endLength
    else if !s.dmaOk a.cmd.fn tok (4 * plen) then completeCmd s Op.ADMIT a.cmd { Done.of .fenced 0 with reason := .descRead }
    else
      let x := admitCtx s' h a ad
      let s := pinAdp (s'.setCtx x) ad
      sendCommit s { commitOf x .recordHead 0 (commitWord s.nodeId 1 .admitted 0) (some (Op.ADMIT, a.cmd)) with tokens := promptTokens s tok plen }

/-- Whether class c, at the latest evaluation, has a class with a lower number at risk. -/
def lowerAtRisk (s : State) (c : Nat) : Bool := decide (bits (s.r Reg.SCH_RISK_STATUS_AT_RISK) 0 c ≠ 0)

/-- The third gate of R174: the class is not pausable, or no class with a lower number is at risk. -/
def riskGate (s : State) (c : Nat) : Bool := s.r (Reg.SCH_CLASS_CTL_PAUSABLE.at 8 c) == 0 || !lowerAtRisk s c

/-- Every gate of R174 for class c. -/
def gates (s : State) (c : Nat) : Bool :=
  (s.r (Reg.SCH_CLASS_CTL_MAX_ACTIVE.at 8 c) == 0 || decide (classActive s c < s.r (Reg.SCH_CLASS_CTL_MAX_ACTIVE.at 8 c)))
  && (s.r Reg.SCH_ADMIT_LIMIT_MAX_ACTIVE == 0 || decide (nodeActive s < s.r Reg.SCH_ADMIT_LIMIT_MAX_ACTIVE))
  && riskGate s c

/-- ADMISSION_SCAN (R31, R174): from class 0 to 7, the head of the first queue that passes every gate is admitted; with no index out of fallow it waits and is counted once. HELD shows the heads that the third gate holds. -/
def admissionScan (s : State) : State :=
  let held := bitSet ((List.range 8).filter fun c => !(admitQueue s c).isEmpty && !riskGate s c)
  let s := s.setR Reg.SCH_RISK_STATUS_HELD held
  match (List.range 8).find? fun c => !(admitQueue s c).isEmpty && gates s c with
  | none => s
  | some c =>
    match admitQueue s c with
    | [] => s
    | a :: rest =>
      match allocCtx s with
      | none =>
        if a.counted then s
        else { s.cnt Reg.SCH_CTX_STALL_NO_INDEX 1 with sch := { s.sch with queues := amSet c ({ a with counted := true } :: rest) s.sch.queues } }
      | some (s', h) =>
        let drop (s : State) : State := { s with sch := { s.sch with queues := amSet c rest s.sch.queues } }
        admitOne (drop s) (drop s') h a

def execAdmissionScan (s : State) : Host.Outcome State Fault Refusal := nextOf s (admissionScan s)

/-- The length of a request's next chunk (R180): one that was chosen and withdrawn keeps the length it was cut to (R192). -/
def nextChunk (s : State) (x : Ctx) : Nat := if x.chunkLen ≠ 0 then x.chunkLen else min (chunkLimit s) (x.promptLen - x.kvLen)

/-- CHUNK_RELEASE (R46, R180, R181): the request's next chunk is cut and released; the first one commits PREFILL. It waits while a cut is FELLED (R82), and for the context to be filled where it is not in the cache (R33). -/
def chunkRelease (s : State) (h : Nat) : State :=
  match s.ctx h with
  | none => s
  | some x =>
    if x.owner ∧ (x.phase = .admitted ∨ x.phase = .prefill) ∧ x.hasRecord ∧ !x.stepBusy ∧ !x.lookupBusy ∧ x.kvLen < x.promptLen
        ∧ x.tlogLen = x.promptLen ∧ x.needCoppice = [] ∧ felledCuts x = [] ∧ !settling s h ∧ !commitBusy s h ∧ !cqHeld s x
        ∧ roleEnables s [rolePrompt, roleGeneration, roleMixed] then
      if needsFill s h then stepFill (s.setCtx { x with fillWait := true }) h else
      let first := x.phase == .admitted
      let x := { x with phase := .prefill }
      let s := if first then issueCommit (s.setCtx x) x .prefill .prefill x.committedLen [] none else s
      releaseWork s { x with fillWait := false } 2 (nextChunk s x)
    else s

def execChunkRelease (handle : Nat) (s : State) : Host.Outcome State Fault Refusal := nextOf s (chunkRelease s handle)

/-! ### Reading and consuming a context (R39, R46, R49, R522) -/

/-- CTX_READ (R14, R39): a snapshot of the context; no side effect, in every phase. -/
def ctxReadBody (c : Cmd) : Body := fun s _ =>
  match s.ctx c.handle with
  | none => fail s .stale 0
  | some x => answer s { Done.ok with handle := c.handle, record := x.image }

def execCtxRead (c : Cmd) (s : State) : Host.Outcome State Fault Refusal := runPlain s Op.CTX_READ c (ctxReadBody c)

/-- Whether CONSUME releases a context: in DONE or FAILED, or a released sender reported HANDOFF_UNRESOLVED (R53, R58; log 21). -/
def consumable (x : Ctx) : Bool := decide (x.phase = .done) || decide (x.phase = .failed) || (x.released && x.unresolved)

/-- Whether cut-map entries of a request are still being changed: a compare-and-set of one or a move is in flight. -/
def outstanding (s : State) (h : Nat) : Bool :=
  (s.sch.commits.any fun e => e.2.handle == h && e.2.kind.cut.isSome) || s.tir.moves.any fun m => m.handle == h

/-- Forgets a consumed context once none of its entries is being changed (R49). -/
def ghostGone (s : State) (h : Nat) : State :=
  if outstanding s h then s else { s with sch := { s.sch with ghosts := amErase h s.sch.ghosts } }

/-- CONSUME doorbell (R522): releases a context of the function that may be consumed; every other case is discarded and counted. What is still being released at the homes of its cuts goes on (R49, R163). -/
def consume (s : State) (fn v : Nat) : State :=
  let bad := s.cnt (Reg.HIF_FN_ERR_DB_ERR.ofFn fn) 1
  if 2 ^ 32 ≤ v then bad
  else
    match s.ctx v with
    | none => bad
    | some x =>
      if (fn = 0 ∨ bits x.hostCq 16 6 = fn) ∧ consumable x then
        let s := if x.phase = .handoff then freeLocals (unpinAdp (dropWork s v) x.adapter) x else s
        let s := if outstanding s v then { s with sch := { s.sch with ghosts := amSet v x s.sch.ghosts } } else s
        releaseCtx (unbind s x.handle) x
      else bad

def execConsume (fn v : Nat) (s : State) : Host.Outcome State Fault Refusal := withUnit s (fn < 64) (ideGate s (consume s fn v))

/-! ### TOKEN (R511) -/

/-- TOKEN: commits the step that waits for it with one token appended. -/
def tokenBody (c : Cmd) : Body := fun s _ => withCtx c s fun x =>
  if c.arg1 ≠ x.tlogLen ∨ !awaitsToken s x then (s, some { Done.of .conflict 0 with handle := c.handle })
  else (issueCommit s x .token x.committed (x.committedLen + 1) [c.arg0] (some (Op.TOKEN, c)), none)

def execToken (c : Cmd) (s : State) : Host.Outcome State Fault Refusal := runPlain s Op.TOKEN c (tokenBody c)

/-! ### Pausing (R46, R142, R185, R186) -/

/-- Whether a verification step is short of its last layer, which a pause waits for (R142). -/
def verifying (x : Ctx) : Bool := decide (x.tentCount ≠ 0) && !x.verifyDone

/-- PAUSE. -/
def pauseBody (c : Cmd) : Body := fun s _ => withCtx c s fun x =>
  let ok : Done := { Done.ok with handle := c.handle }
  match x.phase with
  | .paused => (s.setCtx { x with selfPaused := false }, some ok)
  | .handoff => (s, some { Done.of .conflict 0 with handle := c.handle })
  | _ =>
    if verifying x then (s.setCtx { x with pausePending := some (some c) }, none)
    else (pauseNow s x false, some ok)

def execPause (c : Cmd) (s : State) : Host.Outcome State Fault Refusal := runPlain s Op.PAUSE c (pauseBody c)

/-! ### Resuming and coppicing at the owner (R82 to R84, R186, R188) -/

/-- The coppice node (R83): the node named, else SCH_COPPICE_NODE, else this node where its role enables coppicing. -/
def coppiceNodeFor (s : State) (named : Nat) : Option Nat :=
  if named ≠ 0 then some named
  else if s.r Reg.SCH_COPPICE_NODE_NODE ≠ 0 then some (s.r Reg.SCH_COPPICE_NODE_NODE)
  else if roleEnables s [rolePrompt, roleMixed] then some s.nodeId
  else none

/-- The COPPICE message for the cuts a context still needs (R84). -/
def coppiceMsg (s : State) (x : Ctx) (openCut : Bool) : CoppiceMsg :=
  { src := s.nodeId, handle := x.handle, record := x.record, claimGen := x.claimGen, model := x.model, tenant := x.tenant,
    cuts := x.needCoppice.map fun k => (k, x.cut k), openCut := openCut }

/-- Sends the COPPICE of a request to its coppice node. Where its open cut is to be rebuilt it has a hot-tail slot first (R56, R84); with none free nothing goes out until the wait for COPPICE_DONE runs out (DEDUCED, log 134). -/
def askCoppice (s : State) (x : Ctx) : State :=
  let p := if x.openWait then openCut s x else (s, x)
  let s := p.1.setCtx p.2
  if x.openWait ∧ p.2.openSlot = none then s
  else (stallClear s x.handle St.localFull).emit (.msg x.coppiceNode (.coppice (coppiceMsg s x x.openWait)))

/-- Begins the coppicing of a request at a node and the wait for COPPICE_DONE (R84, R85); a step of it waits under ST_COPPICE. -/
def sendCoppice (s : State) (x : Ctx) (node : Nat) (cmd : Option (Nat × Cmd)) : State :=
  let x := { x with needCoppice := felledCuts x, coppiceNode := node, coppiceTries := 0, coppiceSent := s.now, coppiceCmd := cmd, coppicing := true }
  askCoppice (stallBegin (s.setCtx x) x.handle St.coppice) x

/-- Whether a context must be coppiced before its next step. -/
def mustCoppice (x : Ctx) : Bool := !(felledCuts x).isEmpty || x.openWait

/-- Whether the role runs the phase that a paused request resumes into (R15). -/
def mayResume (s : State) (x : Ctx) : Bool := !x.resumeDecode || x.resumeAdmitted || decodes s

/-- Leaves PAUSED for the phase the request was paused from (R46) and starts its next decode step; a prompt that was already complete ends its phase. -/
def resumeNow (s : State) (x : Ctx) : State :=
  let ph : Phase := if x.resumeAdmitted then .admitted else if x.resumeDecode then .decode else .prefill
  let y := { x with phase := ph, resumeAdmitted := false, resumeDecode := false, selfPaused := false, resumeWait := none }
  if promptComplete y then promptDone s y else startDecode s y

/-- Answers a resume: RESUME's completion, or the event of an automatic one; one that ends FENCED is not tried again (R188, R516). -/
def resumeAnswer (s : State) (h : Nat) (cmd : Option Cmd) (d : Done) : State :=
  match cmd with
  | some c => completeCmd s Op.RESUME c { d with handle := h }
  | none =>
    match s.ctx h with
    | none => s
    | some x =>
      let y := { x with autoResume := false, selfPaused := x.selfPaused && decide (d.status ≠ .fenced) }
      if d.status = .ok then postEvent (s.setCtx y) x Ev.SCHED .ok Detail.SCH_AUTO_RESUMED 0 0
      else postEvent (s.setCtx y) x Ev.SCHED d.status d.detail (if d.status = .redirect then d.value else 0) 0

/-- A resume of a paused request whose felling has ended (R82, R83); into DECODE on a role that does not decode it is answered with REDIRECT (R15). -/
def resumeGo (s : State) (x : Ctx) (named : Nat) (cmd : Option Cmd) : State :=
  let x := { x with resumeWait := none }
  if !mayResume s x then resumeAnswer (s.setCtx x) x.handle cmd { Done.of .redirect 0 with value := s.redirectNode }
  else if mustCoppice x then
    match coppiceNodeFor s named with
    | none => resumeAnswer (s.setCtx x) x.handle cmd (Done.of .fenced Detail.NO_COPPICE_NODE)
    | some n => sendCoppice s x n (cmd.map fun c => (Op.RESUME, c))
  else resumeAnswer (resumeNow s x) x.handle cmd Done.ok

/-- Whether a cut of the request is in FELLING or on its way there (R82). -/
def fellingNow (s : State) (x : Ctx) : Bool :=
  x.cuts.any (fun e => decide (e.state = .felling)) ||
  s.sch.commits.any fun e => e.2.handle == x.handle && (match e.2.kind with | .cutFelling _ | .cutFelled _ => true | _ => false)

/-- RESUME of a paused request: waits for felling, then goes on (R82). -/
def resumeReq (s : State) (x : Ctx) (named : Nat) (cmd : Option Cmd) : State :=
  let x := { x with selfPaused := x.selfPaused && cmd.isNone, autoResume := cmd.isNone }
  if fellingNow s x then s.setCtx { x with resumeWait := some (named, cmd) }
  else resumeGo (s.setCtx x) x named cmd

/-- Whether a request is on its way out of PAUSED (R82). -/
def resuming (x : Ctx) : Bool := x.resumeWait.isSome || x.coppicing

/-- RESUME (R46, R186); one that finds a resume of the scheduler's own under way waits for it, as for an earlier RESUME. -/
def resumeBody (c : Cmd) : Body := fun s _ => withCtx c s fun x =>
  match x.phase with
  | .paused => if resuming x then (unstartCmd (s.setCtx { x with selfPaused := false }) Op.RESUME c, none) else (resumeReq s x c.arg0 (some c), none)
  | .handoff => (s, some { Done.of .conflict 0 with handle := c.handle })
  | _ => (s, some { Done.ok with handle := c.handle })

def execResume (c : Cmd) (s : State) : Host.Outcome State Fault Refusal := runPlain s Op.RESUME c (resumeBody c)

/-! ### CANCEL (R46, R48, R53) -/

/-- Whether a step or chunk of a request is in flight (R48, R511): released and short of its last layer, or waiting for its token or COMMIT; a paused request has one only where its token is awaited. -/
def stepInFlight (s : State) (x : Ctx) : Bool := (x.stepBusy && decide (x.phase ≠ .paused)) || (decide (x.phase = .decode) && (awaitsToken s x || (x.tentCount != 0 && x.verifyDone)))

/-- CANCEL: a step or chunk in flight goes on to its commit first, stalled or not (R48, R213; log 29); a sender in HANDOFF that has not released sends ABORT (R53). -/
def cancelBody (c : Cmd) : Body := fun s _ => withCtx c s fun x =>
  if x.phase = .handoff then
    if x.released then (s, some { Done.of .conflict 0 with handle := c.handle })
    else
      let s := if x.peerNode ≠ 0 then s.emit (.msg x.peerNode (.abort ⟨s.nodeId, x.handle, x.hseq, x.peerHandle⟩)) else s
      let x := { x with peerNode := 0 }
      (commitDone (s.setCtx x) x endCancelled (some (Op.CANCEL, c)), none)
  else if stepInFlight s x then (s.setCtx { x with cancelPending := some c }, none)
  else (commitDone s x endCancelled (some (Op.CANCEL, c)), none)

def execCancel (c : Cmd) (s : State) : Host.Outcome State Fault Refusal := runPlain s Op.CANCEL c (cancelBody c)

/-! ### Parking (R35 to R38, R142) -/

/-- SCH_SPILL_SLOTS as it acts. -/
def spillSlots (s : State) : Nat := min 16777216 (s.r Reg.SCH_SPILL_SLOTS_SLOTS)
/-- The host address of a spill slot. -/
def spillAddr (s : State) (i : Nat) : Nat :=
  s.r Reg.SCH_SPILL_BASE_LO_BASE_LO * 4096 + s.r Reg.SCH_SPILL_BASE_HI_BASE_HI * 2 ^ 32 + 320 * i
/-- The 320-byte spill record of a context under a ticket and nonce (R36). -/
def spillImage (s : State) (x : Ctx) (ticket : Nat) (nonce : List Byte) : List Byte :=
  let aad := leBytes 4 ticket
  let ct := fit 256 (gcmSeal (spillKey s) nonce x.image)
  ct ++ fit 16 (gcmTag (spillKey s) nonce aad ct) ++ nonce ++ leBytes 4 ticket ++ leBytes 32 0

/-- How a parked request is named at its window, which it stays bound to since it has not left the node (R35, R401): by its ticket, above every handle. -/
def parkName (ticket : Nat) : Nat := 2 ^ 32 + ticket

/-- PARK: only from PAUSED with no tentative tail; the context is sealed into a spill slot and its handle released. One that finds a resume, a felling or a change of a cut-map entry of the request under way waits for its end, since each names the request by its handle (DESIGN CHOICE, log 156). With every free slot still in fallow it ends as with every slot in use: R38 does not speak of the fallow (DESIGN CHOICE, log 124). -/
def parkBody (c : Cmd) : Body := fun s _ => withCtx c s fun x =>
  let stay (st : Status) (d : Nat) : State × Option Done := (s, some { Done.of st d with handle := c.handle })
  if x.tentCount ≠ 0 then stay .conflict Detail.SPEC_BUSY
  else if x.phase ≠ .paused then stay .conflict 0
  else if resuming x ∨ fellingNow s x ∨ outstanding s c.handle then (unstartCmd (s.setCtx { x with selfPaused := false }) Op.PARK c, none)
  else if !keyUp s then stay .fenced Detail.KEY_STATE
  else if !s.dmaOk (bits x.hostCq 16 6) (spillAddr s 0) 320 then stay .fenced 0
  else
    match s.sch.spillIds.alloc (spillSlots s) s.now with
    | none => stay .fenced 0
    | some (i, ids) =>
      let ring := ids.ringOf i
      let ticket := ring * 2 ^ 24 + i
      let img := spillImage s x ticket (drbg s 12)
      let s := unpinAdp (rebind s.takeFree x.handle (parkName ticket)) x.adapter
      let s := s.wr (hostXA (spillAddr s i)) img
      let s := { s with sch := { s.sch with spillIds := ids, spill := amSet i ⟨ring, { x with selfPaused := false }, ticket, img, s.scb.mram.wrapEpoch, false⟩ s.sch.spill } }
      (releaseCtx s x, some { Done.ok with handle := c.handle, result := ticket })

def execPark (c : Cmd) (s : State) : Host.Outcome State Fault Refusal := runPlain s Op.PARK c (parkBody c)

/-- A ticket or tag that does not fit its spill record (R37, R59). -/
def spillTag (s : State) : State × Option Done := (setEvent s Reg.SCH_CTX_EVENT_SPILL_TAG 0, some (Done.of .stale Detail.SPILL_TAG))

/-- UNPARK (R35, R37, R237): STALE for a ticket that does not fit its slot; FENCED for an adapter that is absent, before anything is unsealed; STALE for a record that fails its ticket or tag; else a new handle in PAUSED, and the owner handle replaced in the record by a claim-checked write, after which the slot is released. A slot whose UNPARK is under way counts as free, and whether a Keyhouse that is not up comes before the tag check the spec leaves open (DEDUCED, log 125). -/
def unparkBody (c : Cmd) : Body := fun s _ =>
  let i := bits c.arg0 0 24
  match amGet i s.sch.spill with
  | none => fail s .stale 0
  | some sp =>
    let img := s.rd (hostXA (spillAddr s i)) 320
    if sp.busy ∨ sp.ring ≠ bits c.arg0 24 8 then fail s .stale 0
    else if !adpThere s sp.ctx.adapter then fail s .fenced Detail.CDC_ADP_ABSENT
    else if leField img 0x11C 4 ≠ c.arg0 then spillTag s
    else if img.take 0x11C ≠ sp.image.take 0x11C ∨ sp.epoch ≠ s.scb.mram.wrapEpoch then spillTag s
    else if !keyUp s then fail s .fenced Detail.KEY_STATE
    else
      match allocCtx s with
      | none => fail s .noCredit 0
      | some (s, h) =>
        let x := { sp.ctx with handle := h }
        let s := pinAdp ((rebind s (parkName c.arg0) h).setCtx x) x.adapter
        let s := { s with sch := { s.sch with spill := amSet i { sp with busy := true } s.sch.spill } }
        (sendCommit s { commitOf x .unpark 0 0 (some (Op.UNPARK, c)) with off := x.recOffset + 8, bytes := leBytes 4 h, tokens := [i] }, none)

def execUnpark (c : Cmd) (s : State) : Host.Outcome State Fault Refusal := runPlain s Op.UNPARK c (unparkBody c)

/-! ### MIGRATE (R46, R142, R206) -/

/-- MIGRATE: commits HANDOFF and sends an OFFER, or sends a new OFFER from HANDOFF with no receiver. A receiver of 0 or of this node names none (log 22). -/
def migrateBody (c : Cmd) : Body := fun s _ => withCtx c s fun x =>
  let stop (st : Status) (d : Nat) : State × Option Done := (s, some { Done.of st d with handle := c.handle })
  if x.tentCount ≠ 0 then stop .conflict Detail.SPEC_BUSY
  else if x.phase = .decode ∨ (x.phase = .paused ∧ x.resumeDecode) then
    if c.arg0 = 0 ∨ c.arg0 = s.nodeId then stop .fenced 0
    else if fellingNow s x then (s.setCtx { x with migrateWait := some (c.arg0, some c) }, none)
    else (beginHandoff s x c.arg0 (some c), none)
  else if x.phase = .handoff ∧ !x.released ∧ x.peerNode = 0 then
    if c.arg0 = 0 ∨ c.arg0 = s.nodeId then stop .fenced 0
    else (sendOffer s x c.arg0, some { Done.ok with handle := c.handle })
  else stop .conflict 0

def execMigrate (c : Cmd) (s : State) : Host.Outcome State Fault Refusal := runPlain s Op.MIGRATE c (migrateBody c)

/-! ### RECOVER and CLAIM (R54 to R57) -/

/-- Where a RECOVER or CLAIM says the record lies (R509). -/
def recoverLoc (c : Cmd) : RecLoc := ⟨bits c.arg0 0 16, bits c.arg0 32 32, c.arg1⟩
/-- RECOVER_ID. -/
def recoverId (c : Cmd) : Nat := bits c.arg3 0 32

/-- A live context of this node for a record. -/
def ctxOfRecord (s : State) (r : RecLoc) (p : Ctx → Bool) : Option Ctx :=
  (s.sch.ctxs.find? fun e => e.2.record == r && p e.2).map (·.2)

/-- Sends the read of the record that precedes a claim (R54, R237). -/
def sendRecordRead (s : State) (k : CommitKind) (c : Cmd) (op : Nat) (h : Nat) : State :=
  let exp := c.arg2
  let new := s.nodeId * 2 ^ 48 + genNext (bits exp 32 16) * 2 ^ 32 + bits exp 0 32
  let cm : Commit := { kind := k, handle := h, record := recoverLoc c, gen := bits exp 32 16, expected := exp, new := new, tokens := [], stores := [],
                       bytes := [], off := 0, cmd := some (op, c), stage := .sent, tried := false, reread := true, slot := none }
  (addCommit s cm).1.emit (.msg (recoverLoc c).node (.readWord (recoverLoc c) none))

/-- Whether a RECOVER or CLAIM for the same record and RECOVER_ID is under way (R55). -/
def recovering (s : State) (c : Cmd) : Bool :=
  s.sch.commits.any fun e => e.2.record == recoverLoc c && (match e.2.cmd with
    | some (_, d) => recoverId d == recoverId c && (e.2.kind == .recover || e.2.kind == .claim)
    | none => false)

/-- Whether the role runs the phase of the word that a RECOVER or CLAIM expects (R15, R58): DECODE and HANDOFF need one that decodes. -/
def mayRecover (s : State) (c : Cmd) : Bool :=
  roleEnables s [rolePrompt, roleGeneration, roleMixed] && !s.changing
  && (decodes s || !(bits c.arg2 23 3 == Phase.decode.code || bits c.arg2 23 3 == Phase.handoff.code))

/-- RECOVER: idempotent by record and RECOVER_ID; else the record is read and claimed. One for a record and RECOVER_ID that another is claiming waits for it, so that R55's answer is one handle. RECOVER_ID shall be non-zero. -/
def recoverBody (c : Cmd) : Body := fun s _ =>
  if recoverId c = 0 then answer s { Done.of .fenced 0 with reason := .format }
  else if !mayRecover s c then redirect s
  else
    match ctxOfRecord s (recoverLoc c) fun x => x.recoverId == recoverId c with
    | some x => answer s { Done.ok with handle := x.handle }
    | none => if recovering s c then (unstartCmd s Op.RECOVER c, none) else (sendRecordRead s .recover c Op.RECOVER 0, none)

def execRecover (c : Cmd) (s : State) : Host.Outcome State Fault Refusal := runPlain s Op.RECOVER c (recoverBody c)

/-- CLAIM: RECOVER on a receiver that holds a TAKEN context of the record, whose buffers serve as the rebuilt state; the word expected must name the sender in phase HANDOFF (R57). With no such context it completes with CONFLICT (log 23). -/
def claimBody (c : Cmd) : Body := fun s _ =>
  if recoverId c = 0 then answer s { Done.of .fenced 0 with reason := .format }
  else if !mayRecover s c then redirect s
  else
    match ctxOfRecord s (recoverLoc c) fun x => x.recoverId == recoverId c with
    | some x => answer s { Done.ok with handle := x.handle }
    | none =>
      if recovering s c then (unstartCmd s Op.CLAIM c, none) else
      match ctxOfRecord s (recoverLoc c) fun x => x.taken && !x.owner && decide (x.phase = .handoff) with
      | none => fail s .conflict 0
      | some x =>
        if bits c.arg2 23 3 ≠ Phase.handoff.code ∨ bits c.arg2 48 16 ≠ x.peerNode then (s, some { Done.of .stale 0 with handle := x.handle })
        else (sendRecordRead s .claim c Op.CLAIM x.handle, none)

def execClaim (c : Cmd) (s : State) : Host.Outcome State Fault Refusal := runPlain s Op.CLAIM c (claimBody c)

/-! ### The context cache and fallow (R30, R33, R34) -/

/-- What waited for a context to be filled goes on (R33): a chunk, or a decode step. -/
def fillGo (s : State) (x : Ctx) : State :=
  let s := stallClear s x.handle St.ctxSet
  match s.ctx x.handle with
  | none => s
  | some x =>
  if x.fillWait then chunkRelease (s.setCtx { x with fillWait := false }) x.handle
  else if x.phase = .decode then startDecode s x
  else s

/-- CTX_FILL_DONE (R33, R34, R39): the filled context becomes resident where its set has an entry unpinned, and else waits, which is counted; a CRC that fails twice, or a HANDLE that is not of its INDEX (R39 names the check and no outcome: DEDUCED, log 126), ends the request with FAULT_CONTEXT. -/
def ctxFillDone (s : State) (i : Nat) (crcOk retryOk : Bool) : State :=
  if !s.sch.filling.contains i then s
  else
    match cacheInsert s i with
    | none => setPinned s i
    | some s =>
      let s := { s with sch := { s.sch with filling := s.sch.filling.filter (· ≠ i), setWait := s.sch.setWait.filter (· ≠ i) } }
      match amGet i s.sch.ctxs with
      | none => s
      | some x =>
        -- the spec gives the context table no address: the stack that holds the entry is a free value
        let s := if crcOk then s else stackFailed s.takeFree (Config.freeNat s.free % 8) Detail.FLT_STACK 0 x.handle retryOk
        if decide (x.phase = .done) || decide (x.phase = .failed) then s
        else if (crcOk || retryOk) && bits x.handle 0 21 == i then fillGo s x
        else endCtx s x .failed endFaultContext

def execCtxFillDone (index : Nat) (crcOk retryOk : Bool) (s : State) : Host.Outcome State Fault Refusal :=
  nextOf s (ctxFillDone s index crcOk retryOk)

/-- FALLOW_EXPIRY (R30): an index whose fallow has run out becomes allocatable; its place in the order of release stays. -/
def fallowExpiry (s : State) (i : Nat) : State :=
  let rel := s.sch.ids.released.map fun p => if p.1 = i ∧ p.2 ≤ s.now then (p.1, 0) else p
  { s with sch := { s.sch with ids := { s.sch.ids with released := rel } } }

def execFallowExpiry (index : Nat) (s : State) : Host.Outcome State Fault Refusal := nextOf s (fallowExpiry s index)

/-! ### Risk (R171, R187, R188) -/

/-- TTFT_PCT and TPOT_PCT as they act: 10 to 100. -/
def riskPct (v : Nat) : Nat := min 100 (max 10 v)

/-- Whether a first token is overdue for risk at admission time t. -/
def ttftRisk (s : State) (c t : Nat) : Bool :=
  decide (ttftNs s c * riskPct (s.r Reg.SCH_RISK_CFG_TTFT_PCT) ≤ (s.now - t) * 100)

/-- Whether a context is considered and at risk (R171). -/
def ctxAtRisk (s : State) (x : Ctx) : Bool :=
  x.owner && (decide (x.phase = .admitted) || decide (x.phase = .prefill) || decide (x.phase = .decode))
  && ((x.firstTime == 0 && ttftRisk s x.lclass x.admitTime)
      || (decide (x.phase = .decode) && decide (tpotNs s x.lclass * riskPct (s.r Reg.SCH_RISK_CFG_TPOT_PCT) ≤ (s.now - x.lastTime) * 100)))

/-- Whether class c is at risk. -/
def classAtRisk (s : State) (c : Nat) : Bool :=
  s.sch.ctxs.any (fun e => e.2.lclass == c && ctxAtRisk s e.2) || (admitQueue s c).any fun a => ttftRisk s c a.time

/-- The requests an automatic pause may take from class k: most recent ADMIT_TIME first, then lower index; one with a tentative tail is passed over (R187). -/
def pauseOrder (s : State) (k : Nat) : List (Nat × Ctx) :=
  let l := s.sch.ctxs.filter fun e => e.2.lclass == k && e.2.owner && e.2.tentCount == 0
    && (decide (e.2.phase = .admitted) || decide (e.2.phase = .prefill) || decide (e.2.phase = .decode))
  isort (fun a b => decide (b.2.admitTime < a.2.admitTime) || (a.2.admitTime == b.2.admitTime && decide (a.1 ≤ b.1))) l

/-- Every candidate of an automatic pause above class c, in order (R187). -/
def pauseCandidates (s : State) (c : Nat) : List Nat :=
  ((List.range 8).reverse.filter fun k => decide (c < k) && s.r (Reg.SCH_CLASS_CTL_PAUSABLE.at 8 k) == 1).flatMap
    fun k => (pauseOrder s k).map fun e => e.2.handle

/-- One automatic pause (R187). -/
def autoPause (s : State) (h : Nat) : State :=
  match s.ctx h with
  | none => s
  | some x =>
    let s := (pauseNow s x true).wrap Reg.SCH_AUTO_PAUSE_COUNT_PAUSES 1
    match s.ctx h with
    | none => s
    | some x => postEvent s x Ev.SCHED .ok Detail.SCH_AUTO_PAUSED 0 0

/-- The requests the scheduler paused itself, in the order of R188. -/
def resumeCandidates (s : State) : List Nat :=
  let l := s.sch.ctxs.filter fun e => e.2.selfPaused && decide (e.2.phase = .paused) && !e.2.coppicing && e.2.resumeWait.isNone
  (isort (fun a b => decide (a.2.lclass < b.2.lclass) || (a.2.lclass == b.2.lclass &&
    (decide (a.2.pausedAt < b.2.pausedAt) || (a.2.pausedAt == b.2.pausedAt && decide (a.1 ≤ b.1))))) l).map fun e => e.2.handle

/-- RISK_EVALUATION (R171, R187, R188). -/
def riskEvaluation (s : State) : State :=
  let risky := (List.range 8).filter (classAtRisk s)
  let s := s.setR Reg.SCH_RISK_STATUS_AT_RISK (bitSet risky)
  let n := max 1 (s.r Reg.SCH_PAUSE_CTL_PAUSE_MAX)
  match risky with
  | c :: _ =>
    let s := { s with sch := { s.sch with clearRuns := 0 } }
    if s.r Reg.SCH_PAUSE_CTL_AUTO = 1 then ((pauseCandidates s c).take n).foldl autoPause s else s
  | [] =>
    let s := { s with sch := { s.sch with clearRuns := s.sch.clearRuns + 1 } }
    if s.r Reg.SCH_PAUSE_CTL_AUTO_RESUME = 1 ∧ max 1 (s.r Reg.SCH_PAUSE_CTL_RESUME_HOLD) ≤ s.sch.clearRuns then
      ((resumeCandidates s).take n).foldl (fun s h => match s.ctx h with | some x => resumeReq s x 0 none | none => s) s
    else s

def execRiskEvaluation (s : State) : Host.Outcome State Fault Refusal := nextOf s (riskEvaluation s)

end Sys2Proof.Machine
end

