-- ==== Sys2Proof/Machine/Handoff.lean ====
section
/-! DEFINITION. The two-step handoff (spec/02 R50 to R53): what a receiver does with OFFER, RELEASE and ABORT, what a sender does with TAKEN and RELEASE_ACK, and both sides' timeouts. -/

namespace Sys2Proof.Machine

/-- HANDOFF_TMO_US in ns; values below 4,000 act as 4,000. -/
def handoffTmo (s : State) : Nat := max 4000 (s.r Reg.SCH_CTX_CFG_HANDOFF_TMO_US) * 1000
/-- HANDOFF_RETRY. -/
def handoffRetry (s : State) : Nat := s.r Reg.SCH_CTX_CFG_HANDOFF_RETRY

/-- The HOST_CQ of a context accepted from an OFFER (R516): the admin CQ of the lowest-numbered enabled VF whose range holds the tenant, else the PF's. -/
def adminCqFor (s : State) (tenant : Nat) : Nat :=
  match (List.range 64).find? fun f => f != 0 && s.fr f Reg.HIF_ADMQ_CFG_ENABLE == 1 && tenantInRange s f tenant with
  | some f => f * 65536
  | none => 0

/-- The receiver's context for an OFFER: by the sender and its handle. -/
def receiverOf (s : State) (src handle : Nat) : Option Ctx :=
  (s.sch.ctxs.find? fun e => e.2.peerNode == src && e.2.peerHandle == handle && decide (e.2.phase = .handoff) && !e.2.released).map (·.2)

/-- The context an accepted OFFER creates (R46, R50). -/
def offerCtx (s : State) (h : Nat) (m : OfferMsg) : Ctx :=
  let c := m.control
  let tenant := bits c 16 20
  { Ctx.blank h with
    homeNode := s.nodeId, mapEpoch := s.r Reg.MGT_MAP_EPOCH_EPOCH, model := bits c 36 16, tenant := tenant,
    deterministic := bit c 11, lclass := bits c 8 3, recovered := bit c 7, resumeDecode := bits c 0 3 == Phase.paused.code,
    phase := .handoff, adapter := m.adapter, peerNode := m.sender, peerHandle := m.handle, hseq := m.hseq,
    recNode := m.record.node, recKey := m.record.key, recOffset := m.record.offset, claimGen := m.claimGen,
    tlogLen := m.tlogLen, promptLen := m.promptLen, kvLen := m.kvLen, maxNew := m.maxNew, cutCount := m.cutCount,
    openFill := m.openFill, hostCq := adminCqFor s tenant, userTag := m.userTag, hasRecord := true, committed := .handoff,
    committedLen := m.tlogLen, lastTime := s.now, admitTime := s.now }

/-- The HandMsg a receiver sends for its context. -/
def recvMsg (s : State) (x : Ctx) : HandMsg := ⟨s.nodeId, x.peerHandle, x.hseq, x.handle⟩

/-- OFFER (R46, R175, R237, R421, R423): accepted where the role decodes, no role change is under way, the epoch is current, an index is out of fallow and the adapter version is resident; an OFFER sent again makes no second context: its HSEQ becomes the context's, and TAKEN is sent again where it was sent (log 133). -/
def offerArrives (s : State) (m : OfferMsg) : State :=
  if epochView s m.epoch = .ahead then s.cnt Reg.MGT_MAP_COUNT_AHEAD 1
  else if !roleEnables s [roleGeneration, roleMixed] || s.changing || decide (epochView s m.epoch = .old) then s
  else
    match receiverOf s m.sender m.handle with
    | some x =>
      let x := { x with hseq := m.hseq }
      if x.taken then (s.setCtx x).emit (.msg m.sender (.taken (recvMsg s x))) else s.setCtx x
    | none =>
      if !adpThere s m.adapter then s.cnt Reg.CDC_ADP_STATUS_MISS 1
      else
        match allocCtx s with
        | none => s
        | some (s, h) =>
          let s := pinAdp (s.setCtx (offerCtx s h m)) m.adapter
          s.emit (.msg m.sender (.pullTail m.handle m.hseq))

def execOffer (m : OfferMsg) (s : State) : Host.Outcome State Fault Refusal := nextOf s (fromNode s m.sender (offerArrives s m))

/-- The full cuts of a context whose slots lie in another node's local area. -/
def tailCuts (s : State) (x : Ctx) : List Nat :=
  (List.range x.cuts.length).filter fun k => (x.cut k).isLocal && decide ((x.cut k).node ≠ s.nodeId) && decide ((x.cut k).state = .resident)

/-- Gives each pulled full cut that has none a local slot, its working buffer until its home is flipped (R50, R197); where no slot fits, the request stalls under ST_LOCAL_FULL. -/
def pullSlots (p : State × Ctx) : State × Ctx :=
  (tailCuts p.1 p.2).foldl (fun (p : State × Ctx) k =>
    if p.2.pulled.any fun e => e.1 == k then p
    else
      match (modelOf p.1 p.2).bind fun m => allocLocal p.1 (cutBytesPerStack m (sliceGroup m.kvHeads k)) with
      | none => (stallBegin p.1 p.2.handle St.localFull, p.2)
      | some (s, i, ring) => (s, { p.2 with pulled := p.2.pulled ++ [(k, i, ring)] })) p

/-- Writes the bolts pulled from the sender into the slots that wait for them: the open cut's, and those of the full cuts (R50, R71). -/
def storePulled (s : State) (x : Ctx) (bolts : List (Nat × List Byte)) : Except Nat State :=
  match modelOf s x with
  | none => .ok s
  | some m =>
    let places := (match x.openSlot with | some i => [(x.cutCount, i)] | none => []) ++ x.pulled.map fun p => (p.1, p.2.1)
    places.foldl (fun (r : Except Nat State) p =>
      match r with
      | .ok s => writeLocal s m (((bolts.find? fun b => b.1 == p.1).map (·.2)).getD []) p.2 p.1
      | .error d => .error d) (.ok s)

/-- PULL_COMPLETE (R50): the bolts of the hot tail, as pulled, are stored in slots of the receiver's own; it then holds all it needs to issue the next step, TAKEN goes out and the wait for RELEASE begins. A pull that failed, or a bolt that fails its CRC, leaves the OFFER to the sender's timeout. -/
def pullComplete (s : State) (h : Nat) (ok : Bool) (v : RecView) (bolts : List (Nat × List Byte)) : State :=
  match s.ctx h with
  | none => s
  | some x =>
    if !ok ∨ x.phase ≠ .handoff ∨ x.owner ∨ x.taken ∨ x.released then s
    else
      let x := { x with log := v.log, cuts := v.cuts }
      let p := pullSlots (if x.openFill = 0 then (s, x) else openCut s x)
      if (x.openFill ≠ 0 ∧ p.2.openSlot = none) ∨ p.2.pulled.length ≠ (tailCuts s x).length then p.1.setCtx p.2
      else
        match storePulled p.1 p.2 bolts with
        | .error _ => p.1.setCtx p.2
        | .ok s =>
          let y := { p.2 with taken := true, handoffTries := 0, handoffSent := s.now }
          (s.setCtx y).emit (.msg y.peerNode (.taken (recvMsg s y)))

def execPullComplete (handle : Nat) (ok : Bool) (view : Pulled) (s : State) : Host.Outcome State Fault Refusal :=
  nextOf s (pullComplete s handle ok view.record view.bolts)

/-- Flips the homes of the pulled full cuts from the sender's local area to the slots they were pulled into (R46, R50): each entry is changed by compare-and-set. -/
def flipTail (s : State) (x : Ctx) : State × Ctx :=
  x.pulled.foldl (fun (p : State × Ctx) q =>
    let e := p.2.cut q.1
    let n : CutEntry := { e with node := s.nodeId, slot := q.2.1, ring := q.2.2 }
    let y := p.2.setCut q.1 n
    (issueEntry p.1 y (.cutAttach q.1) e n none, y)) (s, { x with pulled := [] })

/-- The receiver takes ownership (R46): claim pair from the commit word, homes flipped, RELEASE_ACK sent, EV_ARRIVED posted, next step started unless the request came paused. -/
def takeOwnership (s : State) (x : Ctx) (word : Nat) : State :=
  let ack := recvMsg s x
  let x := { x with owner := true, claimGen := bits word 32 16, committed := .decode, committedLen := bits word 0 23, lastTime := s.now,
                    phase := if x.resumeDecode then .paused else .decode, pausedAt := s.now }
  let peer := x.peerNode
  let p := flipTail s (x.bump Ctr.handoffs 1)
  let s := writeHead (p.1.setCtx { p.2 with peerNode := 0, peerHandle := 0 }) p.2
  let s := s.emit (.msg peer (.releaseAck ack))
  let s := postEvent s x Ev.ARRIVED .ok 0 0 0
  match s.ctx x.handle with
  | none => s
  | some x => startDecode s x

/-- TAKEN (R46, R51, R52): with the current HSEQ the sender releases ownership by compare-and-set; a repeat after the release has RELEASE sent again; any other is answered with ABORT. -/
def takenArrives (s : State) (m : HandMsg) : State :=
  let abort (s : State) : State := s.emit (.msg m.src (.abort ⟨s.nodeId, m.handle, m.hseq, m.peerHandle⟩))
  match s.ctx m.handle with
  | none => abort s
  | some x =>
    if x.phase ≠ .handoff ∨ x.hseq ≠ m.hseq ∨ x.peerNode ≠ m.src ∨ (!x.owner ∧ !x.released) then abort s
    else if x.released then s.emit (.msg m.src (.release ⟨s.nodeId, x.handle, x.hseq, x.peerHandle⟩ (commitWord m.src (genNext x.claimGen) .decode x.committedLen)))
    else if commitBusy s x.handle then s
    else
      let x := { x with peerHandle := m.peerHandle }
      sendCommit (s.setCtx x) (commitOf x .ownerFlip (x.word s.nodeId) (commitWord m.src (genNext x.claimGen) .decode x.committedLen) none)

def execTaken (m : HandMsg) (s : State) : Host.Outcome State Fault Refusal := nextOf s (fromNode s m.src (takenArrives s m))

/-- The sender's compare-and-set has succeeded (R46): RELEASED, OWNER clear, RELEASE sent, the wait for RELEASE_ACK begins. -/
def ownerReleased (s : State) (x : Ctx) (word : Nat) : State :=
  let x := { x with released := true, owner := false, handoffTries := 0, handoffSent := s.now, lastTime := s.now }.bump Ctr.handoffs 1
  (s.setCtx x).emit (.msg x.peerNode (.release ⟨s.nodeId, x.handle, x.hseq, x.peerHandle⟩ word))

/-- RELEASE at the receiver (R46, R52). -/
def releaseArrives (s : State) (m : HandMsg) (word : Nat) : State :=
  match receiverOf s m.src m.handle with
  | some x =>
    if x.hseq ≠ m.hseq then s.emit (.msg m.src (.abort ⟨s.nodeId, m.handle, m.hseq, m.peerHandle⟩))
    else if x.taken ∧ !x.owner then takeOwnership s x word
    else s
  | none =>
    match s.ctx m.peerHandle with
    | some x =>
      if x.owner ∧ x.hseq = m.hseq then s.emit (.msg m.src (.releaseAck ⟨s.nodeId, m.handle, m.hseq, x.handle⟩))
      else s.emit (.msg m.src (.abort ⟨s.nodeId, m.handle, m.hseq, m.peerHandle⟩))
    | none => s

def execRelease (m : HandMsg) (word : Nat) (s : State) : Host.Outcome State Fault Refusal := nextOf s (fromNode s m.src (releaseArrives s m word))

/-- RELEASE_ACK at the sender (R46, R52): local objects freed, DONE with HANDED_OFF. -/
def releaseAckArrives (s : State) (m : HandMsg) : State :=
  match s.ctx m.handle with
  | none => s
  | some x =>
    if x.hseq ≠ m.hseq then s.emit (.msg m.src (.abort ⟨s.nodeId, m.handle, m.hseq, m.peerHandle⟩))
    else if x.phase ≠ .handoff ∨ !x.released then s
    else endCtx s x .done endHandedOff

def execReleaseAck (m : HandMsg) (s : State) : Host.Outcome State Fault Refusal := nextOf s (fromNode s m.src (releaseAckArrives s m))

/-- ABORT at the receiver (R52, R53): buffers discarded, pin released, handle released. -/
def abortArrives (s : State) (m : HandMsg) : State :=
  match receiverOf s m.src m.handle with
  | none => s
  | some x =>
    if x.hseq ≠ m.hseq ∨ x.owner then s
    else
      let s := unpinAdp (dropWork s x.handle) x.adapter
      let s := x.pulled.foldl (fun s p => dropLocal s p.2.1) s
      releaseCtx (match x.openSlot with | some i => dropLocal s i | none => s) x

def execAbort (m : HandMsg) (s : State) : Host.Outcome State Fault Refusal := nextOf s (fromNode s m.src (abortArrives s m))

/-- Whether a handoff wait of a context has run its timeout. -/
def waited (s : State) (x : Ctx) : Bool := decide (x.handoffSent + handoffTmo s ≤ s.now)

/-- HANDOFF_OFFER_TIMEOUT (R53): a further OFFER is sent up to HANDOFF_RETRY times, each with the next HSEQ (R52); then ABORT goes out, PEER_NODE is cleared and HANDOFF_TIMEOUT is reported. -/
def offerTimeout (s : State) (h : Nat) : State :=
  match s.ctx h with
  | none => s
  | some x =>
    if x.phase ≠ .handoff ∨ x.released ∨ !x.owner ∨ x.peerNode = 0 ∨ commitBusy s h ∨ !waited s x then s
    else if x.handoffTries < handoffRetry s then
      let x := { x with hseq := (x.hseq + 1) % 2 ^ 32, handoffTries := x.handoffTries + 1, handoffSent := s.now }
      (s.setCtx x).emit (.msg x.peerNode (.offer (offerOf s x x.resumeDecode)))
    else
      let s := s.emit (.msg x.peerNode (.abort ⟨s.nodeId, x.handle, x.hseq, x.peerHandle⟩))
      let x := { x with peerNode := 0, peerHandle := 0 }
      evHandoff (s.setCtx x) x Detail.HANDOFF_TIMEOUT

def execHandoffOfferTimeout (handle : Nat) (s : State) : Host.Outcome State Fault Refusal := nextOf s (offerTimeout s handle)

/-- HANDOFF_RELEASE_TIMEOUT (R53): RELEASE is sent again; after HANDOFF_RETRY resends HANDOFF_UNRESOLVED is reported once. -/
def releaseTimeout (s : State) (h : Nat) : State :=
  match s.ctx h with
  | none => s
  | some x =>
    if x.phase ≠ .handoff ∨ !x.released ∨ x.unresolved ∨ !waited s x then s
    else if x.handoffTries < handoffRetry s then
      let x := { x with handoffTries := x.handoffTries + 1, handoffSent := s.now }
      (s.setCtx x).emit (.msg x.peerNode (.release ⟨s.nodeId, x.handle, x.hseq, x.peerHandle⟩
        (commitWord x.peerNode (genNext x.claimGen) .decode x.committedLen)))
    else
      let x := { x with unresolved := true }
      evHandoff (setEvent (s.setCtx x) Reg.SCH_CTX_EVENT_UNRESOLVED 0) x Detail.HANDOFF_UNRESOLVED

def execHandoffReleaseTimeout (handle : Nat) (s : State) : Host.Outcome State Fault Refusal := nextOf s (releaseTimeout s handle)

/-- HANDOFF_TAKEN_TIMEOUT (R53): the receiver reads the commit word; one that names it is taken as a RELEASE, else TAKEN is sent again (also where it names a third node, or the sender in another phase, of which R53 does not speak: DEDUCED, log 128), and after HANDOFF_RETRY resends HANDOFF_ORPHAN is reported once. -/
def takenTimeout (s : State) (h word : Nat) : State :=
  match s.ctx h with
  | none => s
  | some x =>
    if x.phase ≠ .handoff ∨ !x.taken ∨ x.owner ∨ x.unresolved ∨ !waited s x then s
    else if bits word 48 16 = s.nodeId then takeOwnership s x word
    else if x.handoffTries < handoffRetry s then
      let x := { x with handoffTries := x.handoffTries + 1, handoffSent := s.now }
      (s.setCtx x).emit (.msg x.peerNode (.taken (recvMsg s x)))
    else
      let x := { x with unresolved := true }
      evHandoff (setEvent (s.setCtx x) Reg.SCH_CTX_EVENT_ORPHAN 0) x Detail.HANDOFF_ORPHAN

def execHandoffTakenTimeout (handle word : Nat) (s : State) : Host.Outcome State Fault Refusal := nextOf s (takenTimeout s handle word)

end Sys2Proof.Machine
end

