-- ==== Sys2Proof/Machine/Tier.lean ====
section
/-! DEFINITION. The tier manager at the owner and at a coppice node (spec/03 R79 to R86, spec/08 R198 to R216): placement, moves, felling, coppicing and stall reports. -/

namespace Sys2Proof.Machine

/-! ### Placement descriptors (R198 to R200) -/

/-- The number of placement descriptors as it acts. -/
def pdCount (s : State) : Nat := min 4096 (s.r Reg.TIR_PD_COUNT_COUNT)
/-- The HBM address of the descriptor table. -/
def pdBase (s : State) : Nat := s.r Reg.TIR_PD_BASE_LO_BASE_LO * 4096 + s.r Reg.TIR_PD_BASE_HI_BASE_HI * 2 ^ 32

/-- Reads descriptor i, or none where it is not VALID, breaks a range of R198, or on a mixed-role node names another node (R200). -/
def readPd (s : State) (i : Nat) : Option Pd :=
  if pdCount s ≤ i then none
  else
    let d := s.rd (pdBase s + 128 * i) 128
    let fl := leField d 0 1
    let n := leField d 1 1
    let t := (List.range 16).map fun k => leField d (0x10 + 4 * k) 4
    let ok := bit fl 0 && decide (fl < 4) && decide (1 ≤ n) && decide (n ≤ 16) && decide (leField d 2 1 < n) && leField d 3 1 == 0
      && decide (1 ≤ leField d 4 2) && leField d 9 7 == 0 && allZero (d.drop 0x50) && (t.drop n).all (· == 0)
      && (t.take n).all fun v => v % 256 == 0
    let own := decide (s.role ≠ roleMixed) || ((t.take n).all (fun v => v / 65536 == s.nodeId) && (!bit fl 1 || leField d 6 2 == s.nodeId))
    if ok && own then
      some { lowerEn := bit fl 1, targets := n, start := leField d 2 1, run := leField d 4 2, lowerNode := leField d 6 2,
             lowerPool := leField d 8 1, target := (t.take n).map fun v => (v / 65536, bits v 8 8) }
    else none

/-! ### Moves at the owner (R199 to R203, R206) -/

/-- Whether a move has its cut: its entry is being marked or is MOVING. Before that other moves of the cut may be asking for slots, and after its flip new ones may begin while it lasts out its grace period. -/
def Move.live (m : Move) : Bool := decide (m.stage ≠ .reserving) && decide (m.stage ≠ .grace)

/-- The move that has a request's cut. -/
def findMove (s : State) (h k : Nat) : Option Move := s.tir.moves.find? fun m => m.handle == h && m.cut == k && m.live

/-- Writes a move back as another. -/
def setMove (s : State) (m n : Move) : State := { s with tir := { s.tir with moves := s.tir.moves.replace m n } }

/-- Drops a move. -/
def dropMove (s : State) (m : Move) : State := { s with tir := { s.tir with moves := s.tir.moves.erase m } }

/-- Step 1 of R202: RESERVE to the destination. -/
def startMove (s : State) (x : Ctx) (k node pool tries : Nat) (pd : Option Pd) (fell job : Bool) : State :=
  let m : Move := { handle := x.handle, cut := k, node := node, pool := pool, tries := tries, pd := pd, group := sliceGroup (kvHeadsOf s x) k, slot := 0, ring := 0, old := x.cut k,
                    stage := .reserving, deadline := 0, fell := fell, job := job }
  let s := { s with tir := { s.tir with moves := s.tir.moves ++ [m] } }
  s.emit (.msg node (.reserve ⟨s.nodeId, x.handle, pool, x.record, k, x.claimGen⟩))

/-- The entry a move's cut takes when it flips. -/
def Move.entry (m : Move) : CutEntry := { m.old with state := .resident, isLocal := false, node := m.node, pool := m.pool, slot := m.slot, ring := m.ring }

/-- Sends FREE for the slot a move reserved (R202, R203, R206). -/
def freeReserved (s : State) (m : Move) : State :=
  s.emit (.msg m.node (.free m.handle m.cut ⟨m.pool, m.group, m.slot, m.ring⟩))

/-- GRACE_US in ns; below 50 acts as 50. -/
def graceNs (s : State) : Nat := max 50 (s.r Reg.TIR_MOVE_CFG_GRACE_US) * 1000
/-- INFLIGHT as it acts: 1 to 16. -/
def moveInflight (s : State) : Nat := min 16 (max 1 (s.r Reg.TIR_MOVE_CFG_INFLIGHT))

/-- Moves of a request that belong to a MOVE command and have not ended. -/
def jobMoves (s : State) (h : Nat) : Nat := s.tir.moves.countP fun m => m.handle == h && m.job && decide (m.stage ≠ .grace)

/-- Whether a cut's slot has more holders than its request (R162, R164): its hold count where this node is its home. The count of another home's slot is 1 without SHARED, and with it a value this node cannot see (log 135). -/
def heldByOthers (s : State) (x : Ctx) (k : Nat) : Bool :=
  let e := x.cut k
  let n := slotName s x k e
  if e.isLocal then false
  else if e.node = s.nodeId then (match findSlot s n with | some (_, _, c) => decide (1 < c.holds) | none => e.shared)
  else e.shared && Config.slotHeld e.node [n.pool, n.group, n.slot, n.ring] s.now

/-- Whether a cut's home is a node and pool already. -/
def homedAt (e : CutEntry) (node pool : Nat) : Bool := !e.isLocal && e.node == node && e.pool == pool

/-- Starts further cuts of a MOVE up to INFLIGHT, skipping those not RESIDENT, moving, or home already (R201); a cut with other holders stops it (R164). -/
def moveJobStart (s : State) (j : MoveJob) : Nat → State × MoveJob
  | 0 => (s, j)
  | fuel + 1 =>
    match j.todo, s.ctx j.handle with
    | k :: rest, some x =>
      if j.stopped.isSome then (s, { j with todo := [] })
      else if moveInflight s ≤ jobMoves s j.handle then (s, j)
      else
        let e := x.cut k
        let j' := { j with todo := rest }
        if decide (e.state ≠ .resident) || (findMove s j.handle k).isSome || homedAt e j.node j.pool then
          moveJobStart s j' fuel
        else if heldByOthers s x k then (s, { j' with todo := [], stopped := some (Status.conflict.code, Detail.TRL_SHARED) })
        else moveJobStart (startMove s x k j.node j.pool 0 none false true) j' fuel
    | _, _ => (s, { j with todo := [] })

/-- A status by its code. -/
def statusOf (c : Nat) : Status := (Status.ofCode c).getD .fenced

/-- Advances the MOVE command of a request: starts more cuts, and completes it when none is left (R201). -/
def moveJobAdvance (s : State) (h : Nat) : State :=
  match s.tir.moveJobs.find? fun j => j.handle == h with
  | none => s
  | some j =>
    let p := moveJobStart s j (j.todo.length + 1)
    let s := p.1
    let j := p.2
    let rest := s.tir.moveJobs.filter fun i => i.handle != h
    if j.todo.isEmpty ∧ jobMoves s h = 0 then
      let s := { s with tir := { s.tir with moveJobs := rest } }
      let d : Done := match j.stopped with
        | some (st, dt) => Done.of (statusOf st) dt
        | none => Done.ok
      completeCmd s Op.MOVE j.cmd { d with handle := h, value := j.moved }
    else { s with tir := { s.tir with moveJobs := rest ++ [j] } }

/-- Changes the MOVE command of a request. -/
def modJob (s : State) (h : Nat) (f : MoveJob → MoveJob) : State :=
  { s with tir := { s.tir with moveJobs := s.tir.moveJobs.map fun j => if j.handle == h then f j else j } }

/-- MOVE (R201): accepted by the owner outside HANDOFF; a count outside 1 to 4,096 is out of range. -/
def moveBody (c : Cmd) : Body := fun s _ =>
  if c.arg1 = 0 ∨ 4096 < c.arg1 then answer s { Done.of .fenced 0 with reason := .format }
  else withCtx c s fun x =>
    if x.phase = .handoff then (s, some { Done.of .conflict 0 with handle := c.handle })
    else
      let todo := (List.range c.arg1).map (c.arg0 + ·)
      let j : MoveJob := { cmd := c, handle := c.handle, todo := todo.filter (· < x.cuts.length), node := bits c.arg2 0 16, pool := bits c.arg2 16 8, moved := 0, stopped := none }
      (moveJobAdvance { s with tir := { s.tir with moveJobs := s.tir.moveJobs ++ [j] } } c.handle, none)

def execMove (c : Cmd) (s : State) : Host.Outcome State Fault Refusal := runPlain s Op.MOVE c (moveBody c)

/-! ### Felling passes (R214 to R216) -/

/-- Starts a felling pass of a target in bytes unless one runs or felling is off (R214). -/
def startPass (s : State) (target : Nat) : State :=
  if s.r Reg.TIR_FELL_CFG_ENABLE = 0 ∨ s.tir.pass.isSome then s
  else
    let s := { s with tir := { s.tir with pass := some ⟨target, 0, 0, 0, 0, [], []⟩ } }
    (s.setR Reg.TIR_FELL_STATUS_RUNNING 1).wrap Reg.TIR_FELL_STATUS_PASSES 1

/-- Ends the felling pass. -/
def endPass (s : State) : State := { s with tir := { s.tir with pass := none } }.setR Reg.TIR_FELL_STATUS_RUNNING 0

/-- A cut of the running pass's pick is done: freed or moved, with its bytes, or given up with none (R214, R215). A cut that a command fells is no part of it. -/
def passCut (s : State) (h k n : Nat) : State :=
  { s with tir := { s.tir with pass := s.tir.pass.map fun p =>
      if p.handle = h ∧ p.out.contains k then { p with freed := p.freed + n, out := p.out.filter (· ≠ k) } else p } }

/-- Whether a cut of a pick is still being felled or moved. -/
def pickAlive (s : State) (h k : Nat) : Bool :=
  (s.tir.moves.any fun m => m.handle == h && m.cut == k && m.fell) || (s.sch.commits.any fun e => e.2.handle == h && e.2.kind.cut == some k) ||
  (match s.req h with | some x => decide ((x.cut k).state = .felling) | none => false)

/-- Whether the pick of a pass still goes on: picks are whole (R215). -/
def pickBusy (s : State) (p : FellPass) : Bool := !p.todo.isEmpty || p.out.any (pickAlive s p.handle)

/-- Begins the moves of a pick to the lower pool, at most INFLIGHT at once (R216, TIR_MOVE_CFG). -/
def passMoves (s : State) : Nat → State
  | 0 => s
  | fuel + 1 =>
    match s.tir.pass with
    | none => s
    | some p =>
      match p.todo with
      | [] => s
      | k :: rest =>
        if moveInflight s ≤ s.tir.moves.countP (fun m => m.fell && decide (m.stage ≠ .grace)) then s
        else
          let s := { s with tir := { s.tir with pass := some { p with todo := rest } } }
          match s.ctx p.handle with
          | some x =>
            if (x.cut k).state = .resident ∧ (findMove s p.handle k).isNone then passMoves (startMove s x k p.node p.pool 0 none true false) fuel
            else passMoves (passCut s p.handle k 0) fuel
          | none => passMoves (passCut s p.handle k 0) fuel

/-- Goes on with the moves of the running pick. -/
def passGo (s : State) : State := passMoves s (match s.tir.pass with | some p => p.todo.length | none => 0)

/-- TIR_FELL_KICK write (R214): a non-zero value starts a pass with that target in MiB. -/
def execTirFellKick (v : Nat) (s : State) : Host.Outcome State Fault Refusal :=
  nextOf s (if bits v 0 20 = 0 then s else startPass s (bits v 0 20 * 2 ^ 20))

/-- A pass that a POOL_FULL refusal starts: TARGET_MIB in units of 16 MiB, 0 as 1. -/
def poolFullPass (s : State) : State := startPass s (max 1 (s.r Reg.TIR_FELL_CFG_TARGET_MIB) * 2 ^ 24)

/-- The bytes of a request's cut. -/
def cutSize (s : State) (x : Ctx) : Nat := match modelOf s x with | some m => cutBytes m.layers m.kvHeads m.format m.hdim | none => 0

/-- Begins to fell the cuts of a list (R81 step 1): each entry goes from RESIDENT to FELLING. -/
def fellCuts (s : State) (x : Ctx) (ks : List Nat) (cmd : Option (Nat × Cmd)) : State :=
  let s := { s with tir := { s.tir with fellJobs := s.tir.fellJobs ++ [⟨x.handle, ks, 0, cmd⟩] } }
  ks.foldl (fun s k => issueEntry s x (.cutFelling k) (x.cut k) { x.cut k with state := .felling } none) s

/-- The unshared RESIDENT cuts of a request that satisfy `p`, highest number first, up to n, none of them in MOVING or being marked so (R80, R206). -/
def fellable (s : State) (x : Ctx) (n : Nat) (p : CutEntry → Bool) : List Nat :=
  ((List.range x.cuts.length).reverse.filter fun k =>
    decide ((x.cut k).state = .resident) && !(x.cut k).shared && p (x.cut k) && (findMove s x.handle k).isNone).take n

/-- FELL (R79, R80). One on a paused request whose RESUME has been accepted starts no felling (R82); it completes as in any phase but PAUSED (DEDUCED, log 136). -/
def fellBody (c : Cmd) : Body := fun s _ => withCtx c s fun x =>
  if x.phase ≠ .paused ∨ resuming x then (s, some { Done.of .conflict 0 with handle := c.handle })
  else
    match fellable s x c.arg0 fun _ => true with
    | [] => (s, some { Done.ok with handle := c.handle })
    | ks => (fellCuts s x ks (some (Op.FELL, c)), none)

def execFell (c : Cmd) (s : State) : Host.Outcome State Fault Refusal := runPlain s Op.FELL c (fellBody c)

/-- FELL_CUT (R447): one named RESIDENT entry to FELLED, then one FREE. -/
def fellCutBody (c : Cmd) : Body := fun s _ => withCtx c s fun x =>
  let e := x.cut c.arg0
  if x.phase ≠ .paused ∨ resuming x ∨ e.state ≠ .resident ∨ (findMove s x.handle c.arg0).isSome then
    (s, some { Done.of .conflict 0 with handle := c.handle })
  else (issueEntry s x (.cutFelled c.arg0) e { e with state := .felled, shared := false } (some (Op.FELL_CUT, c)), none)

def execFellCut (c : Cmd) (s : State) : Host.Outcome State Fault Refusal := runPlain s Op.FELL_CUT c (fellCutBody c)

/-- Whether a cut is outside the lower pool of a descriptor, and so may be picked (R215). -/
def notLower (pd : Option Pd) (e : CutEntry) : Bool :=
  match pd with
  | some p => !(p.lowerEn && !e.isLocal && e.node == p.lowerNode && e.pool == p.lowerPool)
  | none => true

/-- Whether a felling pass may pick a request (R189, R215). -/
def pickable (s : State) (x : Ctx) : Bool :=
  x.owner && decide (x.phase = .paused) && !resuming x && x.tentCount == 0
  && decide (x.pausedAt + s.r Reg.SCH_PAUSE_DWELL_DWELL_MS * 1000000 ≤ s.now)
  && !bit (s.r Reg.TIR_FELL_CFG_EXEMPT) x.lclass && !(fellable s x 1 (notLower (readPd s x.pd))).isEmpty

/-- The request a pass picks: oldest LAST_TIME, then lower index (R215). -/
def passPick (s : State) : Option Ctx :=
  s.sch.ctxs.foldl (fun b e =>
    if pickable s e.2 then
      match b with
      | none => some e.2
      | some y => if e.2.lastTime < y.lastTime then some e.2 else b
    else b) none

/-- FELL_PICK (R214 to R216): with its last pick done, a pass that has reached its target or finds no request ends; else up to PER_PICK cuts of the next request are felled, or moved to the lower pool. -/
def fellPick (s : State) : State :=
  match s.tir.pass with
  | none => s
  | some p =>
    if pickBusy s p then s
    else if p.target ≤ p.freed then endPass s
    else
      match passPick s with
      | none => endPass s
      | some x =>
        let pd := readPd s x.pd
        let ks := fellable s x (max 1 (s.r Reg.TIR_FELL_CFG_PER_PICK)) (notLower pd)
        let s := s.cnt Reg.TIR_FELL_STATUS_PICKS 1
        let s := postEvent s x Ev.TIER .ok Detail.TIR_FELL_PICK ks.length 0
        let pick (s : State) (node pool : Nat) (todo : List Nat) : State :=
          { s with tir := { s.tir with pass := some { p with handle := x.handle, node := node, pool := pool, todo := todo, out := ks } } }
        match pd with
        | some d =>
          if s.r Reg.TIR_FELL_CFG_MODE = 1 ∧ d.lowerEn then passGo (pick s d.lowerNode d.lowerPool ks)
          else fellCuts (pick s 0 0 []) x ks none
        | none => fellCuts (pick s 0 0 []) x ks none

def execFellPick (s : State) : Host.Outcome State Fault Refusal := nextOf s (fellPick s)

/-- The FREE of a cut in FELLING is acknowledged (R81 step 3). -/
def freeAck (s : State) (h k : Nat) : State :=
  match s.ctx h with
  | none => s
  | some x =>
    let e := x.cut k
    if e.state = .felling then issueEntry s x (.cutFelled k) e { e with state := .felled } none else s

def execFreeAck (handle cut _status _detail : Nat) (s : State) : Host.Outcome State Fault Refusal := nextOf s (freeAck s handle cut)

/-- Goes on with what waited for felling to end: RESUME (R82), MIGRATE (R46). -/
def afterFelling (s : State) (h : Nat) : State :=
  match s.ctx h with
  | none => s
  | some x =>
    if fellingNow s x then s
    else
      match x.resumeWait, x.migrateWait with
      | some (n, c), _ => resumeGo s x n c
      | none, some (dst, c) => beginHandoff s { x with migrateWait := none } dst c
      | none, none => s

/-- One cut of a felling job has ended, felled or not; the job completes when none is left (R80). -/
def fellJobDone (s : State) (h k : Nat) (felled : Bool) : State :=
  match s.tir.fellJobs.find? fun j => j.handle == h && j.todo.contains k with
  | none => s
  | some j =>
    let j' := { j with todo := j.todo.filter (· ≠ k), felled := j.felled + b2n felled }
    let rest := s.tir.fellJobs.filter (· ≠ j)
    if j'.todo.isEmpty then
      finish { s with tir := { s.tir with fellJobs := rest } } j.cmd { Done.ok with handle := h, value := j'.felled }
    else { s with tir := { s.tir with fellJobs := rest ++ [j'] } }

/-! ### Placement of full cuts (R199, R200) -/

/-- Tries target (t + tries) mod n for cut k. -/
def tryTarget (s : State) (x : Ctx) (k : Nat) (pd : Pd) (tries : Nat) : State :=
  match pd.target[((pd.start + k / max 1 pd.run) + tries) % max 1 pd.targets]? with
  | some (n, p) => startMove s x k n p tries (some pd) false false
  | none => s

/-- Places cut k: reads the descriptor, and with an invalid one leaves the cut local and posts TIR_PD once (R200). -/
def placeCut (s : State) (x : Ctx) (k : Nat) : State :=
  match readPd s x.pd with
  | none =>
    if x.pdPosted then s
    else postEvent (s.setCtx { x with pdPosted := true }) x Ev.TIER .fenced Detail.TIR_PD 0 0
  | some pd => tryTarget (s.setCtx { x with pdPosted := false }) x k pd 0

/-- Whether cut k of a request lies in the local area with no move of it under way and none due. -/
def cutToPlace (s : State) (x : Ctx) (k : Nat) : Bool :=
  let e := x.cut k
  e.isLocal && e.node == s.nodeId && decide (e.state = .resident)
  && !(s.tir.moves.any fun m => m.handle == x.handle && m.cut == k && decide (m.stage ≠ .grace))
  && !(s.tir.placeRetry.any fun t => t.1 == x.handle && t.2.1 == k)

/-- CUT_FILLED (R119, R199): the owner starts to move the request's lowest cut still local; on generation and mixed role only between steps. -/
def cutFilled (s : State) (h : Nat) : State :=
  match s.ctx h with
  | none => s
  | some x =>
    if !x.owner ∨ x.phase = .done ∨ x.phase = .failed ∨ x.phase = .handoff ∨ (s.role ≠ rolePrompt ∧ x.stepBusy) then s
    else
      match (List.range x.cuts.length).find? (cutToPlace s x) with
      | none => s
      | some k => placeCut s x k

def execCutFilled (handle : Nat) (s : State) : Host.Outcome State Fault Refusal := nextOf s (cutFilled s handle)

/-- HOLD_US in ns. -/
def splitHoldNs (s : State) : Nat := s.r Reg.SCH_SPLIT_HOLD_HOLD_US * 1000

/-- PLACE_RETRY (R199): after HOLD_US a cut left local tries its targets again. -/
def placeRetry (s : State) (h k : Nat) : State :=
  match s.tir.placeRetry.find? fun t => t.1 == h && t.2.1 == k with
  | none => s
  | some t =>
    if s.now < t.2.2 then s
    else
      let s := { s with tir := { s.tir with placeRetry := s.tir.placeRetry.filter (· ≠ t) } }
      match s.ctx h with
      | none => s
      | some x => if cutToPlace s x k then placeCut s x k else s

def execPlaceRetry (handle cut : Nat) (s : State) : Host.Outcome State Fault Refusal := nextOf s (placeRetry s handle cut)

/-! ### The answers a move meets (R202, R203, R216) -/

/-- A move ends without a flip; a pick gives the cut up. -/
def moveAborted (s : State) (m : Move) : State :=
  let s := (dropMove s m).cnt Reg.TIR_MOVE_COUNT_ABORTED 1
  if m.fell then passCut s m.handle m.cut 0 else s

/-- The MOVE command that a move belongs to stops with an ending, which waits for its other moves (R201). -/
def moveJobStop (s : State) (m : Move) (d : Done) : State :=
  if m.job then
    moveJobAdvance (modJob s m.handle fun j => { j with todo := [], stopped := some (j.stopped.getD (d.status.code, d.detail)) }) m.handle
  else s

/-- What waits for a move to end goes on: a MOVE command, a pick, and HANDOFF once no move of the request is short of its flip (R201, R206, R216). -/
def afterMove (s : State) (h : Nat) : State :=
  let s := passGo (moveJobAdvance s h)
  match s.ctx h with
  | none => s
  | some x =>
    match x.migrateWait with
    | some (dst, c) => if moveBusy s h ∨ fellingNow s x then s else beginHandoff s { x with migrateWait := none } dst c
    | none => s

/-- A reservation refused (R199, R202, R214, R216): a placement tries the next target or waits HOLD_US, a MOVE stops, a pick falls back to felling, where the request is still paused and not resuming (R79, R82), or leaves the cut. A cut's targets are those of the descriptor as read when it was placed (R200). -/
def reserveRefused (s : State) (m : Move) (status detail : Nat) : State :=
  let felled := m.fell && s.r Reg.TIR_FELL_CFG_FALLBACK == 1 && (match s.ctx m.handle with | some x => decide (x.phase = .paused) && !resuming x | none => false)
  let s := if felled then (dropMove s m).cnt Reg.TIR_MOVE_COUNT_ABORTED 1 else moveAborted s m
  let s := if detail = Detail.POOL_FULL then poolFullPass s else s
  match s.ctx m.handle with
  | none => s
  | some x =>
    if m.job then afterMove (modJob s m.handle fun j => { j with todo := [], stopped := some (j.stopped.getD (status, detail)) }) m.handle
    else if m.fell then passGo (if felled then fellCuts s x [m.cut] none else s)
    else
      match m.pd with
      | some pd =>
        if m.tries + 1 < pd.targets then tryTarget s x m.cut pd (m.tries + 1)
        else afterMove { s with tir := { s.tir with placeRetry := s.tir.placeRetry ++ [(m.handle, m.cut, s.now + splitHoldNs s)] } } m.handle
      | none => s

/-- A reservation that its move no longer needs: the slot is freed and the move ends, a MOVE with the ending given (R164, R201). -/
def reserveUnused (s : State) (m : Move) (n : SlotName) (stop : Option Done) : State :=
  let s := moveAborted (freeReserved s { m with slot := n.slot, ring := n.ring }) m
  afterMove (match stop with | some d => moveJobStop s m d | none => s) m.handle

/-- RESERVE_ANSWER at an owner (R202 steps 1 and 2). The cut is marked where it is RESIDENT still, not at the destination already, not taken by another move, and not held by others (R164, R201). -/
def reserveAnswerOwner (s : State) (m : Move) (status detail : Nat) (n : SlotName) : State :=
  if status ≠ 0 then reserveRefused s m status detail
  else
    match s.ctx m.handle with
    | some x =>
      let e := x.cut m.cut
      if x.owner ∧ x.phase ≠ .done ∧ x.phase ≠ .failed ∧ e.state = .resident ∧ (findMove s m.handle m.cut).isNone ∧ !homedAt e m.node m.pool then
        if heldByOthers s x m.cut then reserveUnused s m n (some (Done.of .conflict Detail.TRL_SHARED))
        else
          issueEntry (setMove s m { m with slot := n.slot, ring := n.ring, stage := .marking, old := e }) x (.cutMark m.cut) e { e with state := .moving } none
      else reserveUnused s m n none
    | none => reserveUnused s m n none

/-- What the copy of a moving cut comes to: it waits for units or for the movement class, it is done, or it fails with a detail. -/
inductive MoveCopy where
  | waits (s : State)
  | done (s : State)
  | failed (dt : Nat)

/-- The bytes of a moving cut's bolts at its source, where that is this node. -/
def moveSrc (s : State) (mo : Model) (m : Move) (l h : Nat) : Nat := (cutRef s mo m.old l h m.cut).addr

/-- The slices of a moving cut written to their new slot, where that is at this node (R202 step 3): read here where the source is this node too, else as pulled from it. Units lost for good and memory out of reach end it (R389, R396, R445), units unbuilt or locked and a movement class at its cap make it wait (R385, R388, R394), and so does a bolt that fails its CRC end it (R203). -/
def copyMove (s : State) (x : Ctx) (m : Move) (bolts : List Byte) : MoveCopy :=
  match modelOf s x with
  | none => .done s
  | some mo =>
    let src := moveSrc s mo m
    let dst (l h : Nat) : Nat := boltPool s mo m.pool m.slot l h m.cut
    let here := decide (m.old.node = s.nodeId)
    let there := decide (m.node = s.nodeId)
    match (if here then cutTrouble s mo src else none) <|> (if there then cutTrouble s mo dst else none) with
    | some dt => .failed dt
    | none =>
      if !there then .done s
      else
        let us := (if here then cutBlocked s mo src false else []) ++ cutBlocked s mo dst true
        if !us.isEmpty then .waits (holdWork s us (.copy m.handle m.cut))
        else if classCapped s 3 then .waits s
        else
          let b := if here then readCut s mo src else bolts
          match writePool (if here then cutAccess s mo src else s) mo b ⟨m.pool, m.group, m.slot, m.ring⟩ m.cut false with
          | .ok t => .done (unhold t (.copy m.handle m.cut))
          | .error dt => .failed dt

/-- A bolt of a moving cut has failed its CRC (R203): a transient or a lasting failure of the stack that holds it (R434, R436, R438), named by the bolt where the source is this node; of another node's stack a lasting one is recorded with that node (R449). -/
def moveFault (s : State) (m : Move) (mo : Model) (retryOk : Bool) : State :=
  if m.old.node = s.nodeId then (failedAt s (badBolt s mo (moveSrc s mo m)) Detail.BOLT_CRC m.handle retryOk).1
  else if retryOk then s
  else postFault s { faultRec Src.stack Act.recorded 4 (boltStack mo 0 m.cut) Status.fenced.code Detail.BOLT_CRC with handle := m.handle, node := m.old.node }

/-- The copy of a moving cut has ended well: the owner flips the entry (R202 step 4). -/
def moveFlip (s : State) (x : Ctx) (m : Move) : State :=
  issueEntry (setMove s m { m with stage := .flipping }) x (.cutFlip m.cut) { m.old with state := .moving } m.entry none

/-- It has failed: the entry goes back, and a MOVE stops with the detail (R203). -/
def copyFailed (s : State) (x : Ctx) (m : Move) (dt : Nat) : State :=
  let s := if m.job then modJob s m.handle fun j => { j with todo := [], stopped := some (j.stopped.getD (Status.fenced.code, dt)) } else s
  issueEntry (setMove s m { m with stage := .flipping }) x (.cutBack m.cut) { m.old with state := .moving } m.old none

/-- The copy of a moving cut ends at its owner (R202, R203), and is flipped once its parity deltas are acknowledged (R383); or a bolt failed its CRC twice, or could not be reached or decrypted, and the entry goes back with that detail (log 137). -/
def copyEnded (s : State) (x : Ctx) (m : Move) (crcOk retryOk : Bool) (bolts : List Byte) : State :=
  let fault (s : State) : State := match modelOf s x with | some mo => moveFault s m mo (retryOk && !crcOk) | none => s
  match if crcOk || retryOk then copyMove s x m bolts else .failed Detail.BOLT_CRC with
  | .waits s => s
  | .done t =>
    let ds := newDeltas s t
    let t := if crcOk then t else fault t
    if ds.isEmpty then moveFlip t x m else waitDeltas (setMove t m { m with stage := .writing }) ds (.copied m.handle m.cut ⟨m.pool, m.group, m.slot, m.ring⟩)
  | .failed dt => copyFailed (if dt = Detail.BOLT_CRC then fault s else s) x m dt

/-- The slices of a cut that another node's move or coppicing reserved a slot for here, written as pulled (R202 step 3). While stripe units of the slot are unbuilt or locked (R385, R388), or the movement class is at its cap (R394), the copy has not ended, and its segments wait; to a slot out of reach or lost nothing is written (R389, R396, R445). -/
def copyHere (s : State) (h k : Nat) (n : SlotName) (bolts : List Byte) : State :=
  match findSlot s n with
  | some (p, _, c) =>
    let at_ (l h : Nat) : Nat := boltPool s p.model' n.pool n.slot l h k
    if !c.reserved ∨ c.cut ≠ k ∨ (cutTrouble s p.model' at_).isSome then s
    else
      let us := cutBlocked s p.model' at_ true
      if !us.isEmpty then holdWork s us (.copy h k)
      else if classCapped s 3 then s
      else match writePool s p.model' bolts n k false with | .ok s => unhold s (.copy h k) | .error _ => s
  | none => s

/-- MOVE_GRACE_EXPIRY (R202 step 6): GRACE_US after the flip the old slot is freed. -/
def moveGraceExpiry (s : State) (h k : Nat) : State :=
  match s.tir.moves.find? fun m => m.handle == h && m.cut == k && decide (m.stage = .grace) && decide (m.deadline ≤ s.now) with
  | none => s
  | some m =>
      let s := dropMove s m
      let s := if m.old.isLocal then (if m.old.node = s.nodeId then dropLocal s m.old.slot else s)
        else s.emit (.msg m.old.node (.free h k ⟨m.old.pool, m.group, m.old.slot, m.old.ring⟩))
      ghostGone (if m.fell then passCut s h k (match s.req h with | some x => cutSize s x | none => 0) else s) h

def execMoveGraceExpiry (handle cut : Nat) (s : State) : Host.Outcome State Fault Refusal := nextOf s (moveGraceExpiry s handle cut)

/-- The number under which MOVE_LEASE_EXPIRY names the local area in place of a pool; pools are 0 to 255. -/
def localPool : Nat := 256

/-- The lease of a moved-out slot of the local area has run out (R204): the owner of a local slot is its home, and settles it by what the entry names. -/
def localLeaseExpiry (s : State) (i : Nat) (e : CutEntry) : State :=
  match amGet i s.tir.localOut with
  | none => s
  | some t =>
    if s.now < t then s
    else
      let names := e.node == s.nodeId && e.isLocal && e.slot == i && e.ring == s.tir.localIds.ringOf i
      if names ∧ e.state = .moving then { s with tir := { s.tir with localOut := amSet i (s.now + leaseNs s) s.tir.localOut } }
      else if names ∧ e.state = .resident then { s with tir := { s.tir with localOut := amErase i s.tir.localOut } }
      else (dropLocal s i).cnt Reg.TIR_MOVE_COUNT_RECLAIMED 1

def execMoveLeaseExpiry (n : SlotName) (entry : CutEntry) (s : State) : Host.Outcome State Fault Refusal :=
  nextOf s (if n.pool = localPool then localLeaseExpiry s n.slot entry else moveLeaseExpiry s n entry)

/-! ### Coppicing at the coppice node (R84, R85) -/

/-- The coppice job for a record. -/
def findCop (s : State) (r : RecLoc) : Option CopJob := s.tir.copJobs.find? fun j => j.msg.record == r
/-- Writes a job back. -/
def setCop (s : State) (j : CopJob) : State :=
  { s with tir := { s.tir with copJobs := s.tir.copJobs.map fun i => if i.msg.record == j.msg.record then j else i } }
/-- Drops a job. -/
def dropCop (s : State) (j : CopJob) : State := { s with tir := { s.tir with copJobs := s.tir.copJobs.filter fun i => i.msg.record != j.msg.record } }

/-- The entry of a cut as a coppice job knows it. -/
def CopJob.entry (j : CopJob) (k : Nat) : CutEntry := j.entries.getD k CutEntry.none

/-- Where the result of a cut goes, as COPPICE names it (R84). -/
def CopJob.target (j : CopJob) (k : Nat) : CutEntry := match j.msg.cuts.find? fun c => c.1 == k with | some c => c.2 | none => j.entry k

/-- A change of an entry under the owner's delegated claim pair (R78); a coppice node's commits name no context. -/
def copEntry (s : State) (j : CopJob) (kind : CommitKind) (old new : CutEntry) : State :=
  sendCommit s { kind := kind, handle := 0, record := j.msg.record, gen := j.msg.claimGen, expected := entryWord old, new := entryWord new,
                 tokens := [], stores := [], bytes := [], off := 0, cmd := none, stage := .sent, tried := true, reread := false, slot := none }

/-- Releases the working context of a coppice job with its buffers. -/
def copRelease (s : State) (j : CopJob) : State :=
  match s.ctx j.ctx with
  | some x => if x.cop then releaseCtx (freeLocals (unbind (dropWork s x.handle) x.handle) { x with cuts := [] }) x else s
  | none => s

/-- Ends a coppice job with COPPICE_DONE (R84, R85): the cuts that met a full pool, and the open cut's bolts where it was asked for. -/
def copFinish (s : State) (j : CopJob) (bolts : List Byte) : State :=
  (copRelease (dropCop s j) j).emit (.msg j.msg.src (.coppiceDone j.msg.handle j.full (if j.full.isEmpty then 0 else Status.noCredit.code) 0 bolts))

/-- Ends a coppice job that can go no further, with no message: the slots it holds are freed, but for those whose flip is under way, and the owner's wait runs out (R86; DEDUCED, log 138). -/
def copDrop (s : State) (j : CopJob) : State :=
  let flying (k : Nat) : Bool := s.sch.commits.any fun e => e.2.handle == 0 && e.2.record == j.msg.record && e.2.kind == .cutCoppiced k
  let s := (j.run.filter fun p => !flying p.1).foldl (fun s p => s.emit (.msg (j.target p.1).node (.free 0 p.1 p.2))) s
  copRelease (dropCop s j) j

/-- Releases n positions of a coppice job from the first of cut k on, as a prefill chunk under its working context (R84 step 3, R180): every earlier position is in the cuts below k. -/
def copRelWork (s : State) (j : CopJob) (k n : Nat) : State :=
  match s.ctx j.ctx with
  | none => copDrop s j
  | some x =>
    let x := { x with phase := .prefill, cuts := j.entries.take k, cutCount := k, kvLen := 32 * k, layer := 0, openFill := 0 }
    releaseWork (setCop s { j with stage := .running }) x 2 n

/-- Runs the chunk of the cuts that have a slot. -/
def copRun (s : State) (j : CopJob) : State :=
  match j.run with
  | [] => copFinish s j []
  | (k, _) :: _ => copRelWork s j k (32 * j.run.length)

/-- Takes cut k into the chunk: FELLED to COPPICING (R84 step 1). -/
def copMark (s : State) (j : CopJob) (k : Nat) : State :=
  let o := { j.entry k with state := .felled }
  copEntry (setCop s { j with stage := .gathering }) j (.cutCoppicing k) o { o with state := .coppicing }

/-- The cuts that follow one another at the head of a list. -/
def runLength : List Nat → Nat
  | [] => 0
  | [_] => 1
  | a :: b :: l => if b = a + 1 then runLength (b :: l) + 1 else 1

/-- The positions of the open cut that COPPICE asks for (R56): CUT_COUNT × 32 to TLOG_LEN − 2. -/
def copTail (x : Ctx) (j : CopJob) : Nat := x.tlogLen - 1 - 32 * j.entries.length

/-- Takes the next chunk of a coppice job: the next run of consecutive felled cuts up to the chunk limit (R180), then the open cut; COPPICE_DONE where nothing is left. -/
def copNext (s : State) (j : CopJob) : State :=
  match j.todo with
  | k :: _ =>
    let j := { j with want := min (runLength j.todo) (chunkLimit s / 32), run := [] }
    copMark (setCop s j) j k
  | [] =>
    match s.ctx j.ctx with
    | none => copDrop s j
    | some x =>
      if j.msg.openCut ∧ j.full.isEmpty ∧ !j.tail ∧ copTail x j ≠ 0 then
        let j := { j with tail := true, run := [] }
        copRelWork (setCop s j) j j.entries.length (copTail x j)
      else copFinish s j []

/-- COPPICE (R83, R84, R423): a node whose role does not coppice, or that changes its role, answers REDIRECT; a repeat of a job under way changes nothing. The job first reads the record. -/
def coppiceArrives (s : State) (m : CoppiceMsg) : State :=
  if !roleEnables s [rolePrompt, roleMixed] || s.changing then
    s.emit (.msg m.src (.coppiceDone m.handle [] Status.redirect.code s.redirectNode []))
  else if (findCop s m.record).isSome then s
  else
    let j : CopJob := ⟨m, .reading, 0, [], isort (fun a b => decide (a ≤ b)) (m.cuts.map (·.1)), 0, [], [], false⟩
    let cm : Commit := { kind := .copRead, handle := 0, record := m.record, gen := m.claimGen, expected := 0, new := 0, tokens := [], stores := [],
                         bytes := [], off := 0, cmd := none, stage := .sent, tried := false, reread := true, slot := none }
    (addCommit { s with tir := { s.tir with copJobs := s.tir.copJobs ++ [j] } } cm).1.emit (.msg m.record.node (.readWord m.record none))

def execCoppice (m : CoppiceMsg) (s : State) : Host.Outcome State Fault Refusal := nextOf s (fromNode s m.src (coppiceArrives s m))

/-- The working context of a coppice job: the request as its record shows it, under a handle of this node's own, since the owner's handle names nothing here (DESIGN CHOICE, log 139). -/
def copCtx (s : State) (h : Nat) (j : CopJob) (word : Nat) (v : RecView) : Ctx :=
  { Ctx.blank h with
    homeNode := s.nodeId, mapEpoch := s.r Reg.MGT_MAP_EPOCH_EPOCH, model := v.model, tenant := v.tenant, phase := .prefill, adapter := v.adapter,
    recNode := j.msg.record.node, recKey := j.msg.record.key, recOffset := j.msg.record.offset, claimGen := j.msg.claimGen, cop := true,
    tlogLen := bits word 0 23, promptLen := v.promptLen, userTag := v.userTag, log := v.log, cuts := [], admitTime := s.now, lastTime := s.now }

/-- The record has been read for a coppice job: under the owner's claim pair, and with an index free for the working context, the first chunk begins. -/
def copBegin (s : State) (r : RecLoc) (word : Nat) (v : Option RecView) : State :=
  match findCop s r with
  | none => s
  | some j =>
    match v, allocCtx s with
    | some v, some (s', h) =>
      if bits word 32 32 ≠ claimPair j.msg.src j.msg.claimGen then dropCop s j
      else
        let j := { j with ctx := h, entries := v.cuts }
        copNext (setCop (s'.setCtx (copCtx s' h j word v)) j) j
    | _, _ => dropCop s j

/-- The new entry of a coppiced cut (R84 step 5). -/
def copNew (j : CopJob) (k : Nat) (n : SlotName) : CutEntry :=
  { j.entry k with state := .resident, coppiced := true, shared := false, isLocal := false, node := (j.target k).node, slot := n.slot, ring := n.ring, pool := n.pool }

/-- RESERVE_ANSWER at a coppice node (R84 step 2, R85): with a slot the next cut of the chunk is taken, or the chunk runs; with none the entry goes back to FELLED and the chunk takes no more. A refusal with another status than POOL_FULL's, of which R85 does not speak, is treated and reported as POOL_FULL (DEDUCED, log 140). -/
def reserveAnswerCop (s : State) (j : CopJob) (k status : Nat) (n : SlotName) : State :=
  if status = 0 then
    let j := { j with run := j.run ++ [(k, n)] }
    if j.want ≤ j.run.length then copRun (setCop s j) j else copMark (setCop s j) j (k + 1)
  else
    let o := { j.entry k with state := .coppicing }
    copEntry (setCop s { j with full := j.full ++ [k], todo := j.run.map (·.1) }) j (.cutRefell k) o { o with state := .felled }

/-- The cut that a coppice job waits for a slot for. -/
def CopJob.asking (j : CopJob) : Option Nat := if j.stage = .gathering then j.todo[j.run.length]? else none

/-- Flips a coppiced cut (R84 step 5). -/
def copFlip (s : State) (j : CopJob) (k : Nat) (n : SlotName) : State :=
  copEntry s j (.cutCoppiced k) { j.entry k with state := .coppicing } (copNew j k n)

/-- The working buffer that holds cut k of a coppice job's chunk: the chunk's cuts follow one another from the working context's CUT_COUNT. -/
def copBuffer (x : Ctx) (k : Nat) : Option Nat := (x.openSlot.toList ++ x.ahead)[k - x.cutCount]?

/-- Writes cut k of a coppice job's chunk to its new slot with COPPICED set, and flips it (R84 steps 4 and 5): here, waiting for units that hold it up and for its parity deltas (R383, R385, R388), where the slot is this node's; else COPPICED is set in the working buffer, which the home pulls. A slot out of reach or a bolt that cannot be written ends the job. -/
def copPut (s : State) (j : CopJob) (k : Nat) (n : SlotName) : State :=
  match (s.ctx j.ctx).bind fun x => (modelOf s x).bind fun m => (copBuffer x k).map fun i => (m, i) with
  | none => copDrop s j
  | some (m, i) =>
    let src (l h : Nat) : Nat := boltLocal s m i l h k
    let dst (l h : Nat) : Nat := boltPool s m n.pool n.slot l h k
    let home := (j.target k).node
    if (cutTrouble s m src).isSome then copDrop s j
    else if home ≠ s.nodeId then
      match writeCut s m (readCut s m src) src (s.tir.localIds.ringOf i) true with
      | .ok s => s.emit (.msg home (.pullCut j.msg.handle k ⟨.resident, false, true, true, s.nodeId, 0, i, s.tir.localIds.ringOf i⟩ (copNew j k n)))
      | .error _ => copDrop s j
    else if (cutTrouble s m dst).isSome then copDrop s j
    else
      let us := cutBlocked s m dst true
      if !us.isEmpty then holdWork s us (.copy j.msg.handle k)
      else
        match writePool (cutAccess s m src) m (readCut s m src) n k true with
        | .error _ => copDrop s j
        | .ok t =>
          let ds := newDeltas s t
          let t := unhold t (.copy j.msg.handle k)
          if ds.isEmpty then copFlip t j k n else waitDeltas t ds (.copied j.msg.handle k n)

/-- The chunk of a coppice job has run (R84 steps 4 and 5, R87): its cuts are written and flipped; the open cut's bolts go to the owner. The working buffers are freed with the context. -/
def copChunkDone (s : State) (x : Ctx) : State :=
  match s.tir.copJobs.find? (fun j => j.ctx == x.handle), modelOf s x with
  | some j, some m =>
    if j.tail then
      copFinish s j (match x.openSlot.toList ++ x.ahead with | i :: _ => readCut s m (fun l h => boltLocal s m i l h j.entries.length) | [] => [])
    else
      let j := { j with stage := .writing }
      j.run.foldl (fun s p => if (findCop s j.msg.record).isSome then copPut s j p.1 p.2 else s) (setCop s j)
  | _, _ => s

/-- The coppice job that writes a cut, under an owner's handle, and the slot it goes to. -/
def copWriting (s : State) (h k : Nat) : Option (CopJob × SlotName) :=
  (s.tir.copJobs.find? fun j => j.msg.handle == h && decide (j.stage = .writing) && j.run.any fun p => p.1 == k).bind fun j =>
    (j.run.find? fun p => p.1 == k).map fun p => (j, p.2)

/-- A cut of a coppice job that units held up is written after all. -/
def copPutAgain (s : State) (h k : Nat) : State :=
  match copWriting s h k with
  | some (j, n) => if (j.target k).node = s.nodeId then copPut s j k n else s
  | none => s

/-- A cut copied to a slot of this node has had its parity deltas acknowledged, and flips (R383). -/
def copyWritten (s : State) (h k : Nat) (n : SlotName) : State :=
  match findMove s h k, s.req h with
  | some m, some x => if m.stage = .writing ∧ n = ⟨m.pool, m.group, m.slot, m.ring⟩ then moveFlip s x m else s
  | _, _ => match copWriting s h k with | some (j, n') => if n = n' then copFlip s j k n else s | none => s

/-- MOVE_COPY_DONE (R71, R84, R202, R203): the copy of a moving cut has ended at the owner of the move, which may be the owner of the request or a coppice node, whose job a cut that cannot be copied ends; at another node's destination the slices pulled are written to the slot reserved. -/
def moveCopyDone (s : State) (h k : Nat) (crcOk retryOk : Bool) (n : SlotName) (bolts : List Byte) : State :=
  match findMove s h k, s.req h with
  | some m, some x => if m.stage = .copying then copyEnded s x m crcOk retryOk bolts else s
  | _, _ =>
    match copWriting s h k with
    | some (j, n') => if (j.target k).node = s.nodeId then s else if crcOk || retryOk then copFlip s j k n' else copDrop s j
    | none => if crcOk || retryOk then copyHere s h k n bolts else s

def execMoveCopyDone (handle : Nat) (cut : CutCopy) (crcOk retryOk : Bool) (s : State) : Host.Outcome State Fault Refusal :=
  nextOf s (moveCopyDone s handle cut.cut crcOk retryOk cut.slot cut.bolts)

/-- RESERVE_ANSWER (R199, R202): to the move that waits for it, of several the one that asked for the slot's pool, else to the coppice job of this node that does. -/
def reserveAnswer (s : State) (h k status detail : Nat) (n : SlotName) : State :=
  let asks (m : Move) : Bool := m.handle == h && m.cut == k && decide (m.stage = .reserving)
  match (s.tir.moves.find? fun m => asks m && m.pool == n.pool) <|> s.tir.moves.find? asks with
  | some m => reserveAnswerOwner s m status detail n
  | none =>
    match s.tir.copJobs.find? fun j => j.msg.handle == h && j.asking == some k with
    | some j => reserveAnswerCop s j k status n
    | none => s

def execReserveAnswer (handle cut status detail : Nat) (n : SlotName) (s : State) : Host.Outcome State Fault Refusal :=
  nextOf s (reserveAnswer s handle cut status detail n)

/-! ### Coppicing at the owner (R56, R84 to R86) -/

/-- Reports every committed generated token after a RECOVER or CLAIM (R58, R516). -/
def reportTokens (s : State) (x : Ctx) : State :=
  (x.log.drop x.promptLen).zipIdx.foldl (fun s e =>
    postEvent s x Ev.TOKEN .ok 0 0 ((x.promptLen + e.2) * 2 ^ 32 + e.1)) s

/-- Completes the command that waits for a coppicing or a recovery; after a RECOVER the committed tokens are reported (R58, R516). -/
def waitDone (s : State) (x : Ctx) (d : Done) : State :=
  match x.coppiceCmd with
  | some (o, c) =>
    let s := completeCmd (s.setCtx { x with coppiceCmd := none }) o c { d with handle := x.handle }
    if o = Op.RECOVER then reportTokens s x else s
  | none => s

/-- The request's coppicing has ended with a status (R83, R85, R86): its stall ends and the command that waits completes, a RECOVER too. -/
def coppiceEnd (s : State) (x : Ctx) (d : Done) : State :=
  let s := stallEnd s x.handle
  match s.ctx x.handle with
  | none => s
  | some x =>
    let x := { x with needCoppice := [], coppicing := false }
    if x.coppiceCmd.isSome then waitDone (s.setCtx x) x d
    else if x.autoResume then resumeAnswer (s.setCtx x) x.handle none d
    else s.setCtx x

/-- What follows a coppicing that rebuilt every cut asked for (R56, R84): a paused request resumes, one that HANDOFF left enters DECODE, another takes its next step. -/
def coppiceGo (s : State) (x : Ctx) : State :=
  if x.phase = .paused then
    let s := stallEnd s x.handle
    match s.ctx x.handle with
    | none => s
    | some x =>
      let auto := x.autoResume
      let cmd := x.coppiceCmd
      let s := resumeNow s { x with coppiceCmd := none, needCoppice := [], coppicing := false }
      match cmd with
      | some (o, c) => completeCmd s o c { Done.ok with handle := x.handle }
      | none => if auto then resumeAnswer s x.handle none Done.ok else s
  else
    let s := coppiceEnd s x Done.ok
    match s.ctx x.handle with
    | none => s
    | some x => if x.phase = .handoff then issueCommit s x .decode .decode x.committedLen [] none else startDecode s x

/-- Writes the rebuilt open cut into the slot the owner gave it (R56, R84). -/
def openRebuilt (s : State) (x : Ctx) (bolts : List Byte) : State × Ctx :=
  match x.openSlot, modelOf s x with
  | some i, some m =>
    match writeLocal s m bolts i x.cutCount with
    | .ok s => (s, { x with openWait := false })
    | .error _ => (s, x)
  | _, _ => (s, x)

/-- COPPICE_DONE at the owner (R84, R85): the entries as the owner reads them are taken, and the open cut's bolts; with every cut RESIDENT, of which each that now is counts, the request goes on. While one is not, or the open cut's bolts cannot be written, the wait goes on (log 138). -/
def coppiceDone (s : State) (h : Nat) (full : List Nat) (status node : Nat) (entries : List (Nat × CutEntry)) (bolts : List Byte) : State :=
  match s.ctx h with
  | none => s
  | some x =>
    if !x.coppicing then s
    else if status = Status.redirect.code then coppiceEnd s x { Done.of .redirect 0 with value := node }
    else
      let x := entries.foldl (fun x e => if x.needCoppice.contains e.1 then x.setCut e.1 e.2 else x) x
      let left := x.needCoppice.filter fun k => decide ((x.cut k).state ≠ .resident)
      let n := x.needCoppice.length - left.length
      let p := if full.isEmpty ∧ x.openWait then openRebuilt s x bolts else (s, x)
      let x := p.2.bump Ctr.coppiced n
      let s := (p.1.setCtx x).wrap Reg.SCH_COPPICE_COUNT_COPPICED n
      if !full.isEmpty then coppiceEnd s x (Done.of .noCredit Detail.POOL_FULL)
      else if !left.isEmpty ∨ x.openWait then s.setCtx { x with needCoppice := left }
      else coppiceGo s x

/-- COPPICE_TIMEOUT (R85, R86): COPPICE is sent again up to HANDOFF_RETRY times; then the job's entries go back from COPPICING to FELLED and the command completes with COPPICE_TIMEOUT. -/
def coppiceTimeout (s : State) (h : Nat) : State :=
  match s.ctx h with
  | none => s
  | some x =>
    if !x.coppicing ∨ s.now < x.coppiceSent + handoffTmo s then s
    else if x.coppiceTries < handoffRetry s then
      askCoppice s { x with coppiceTries := x.coppiceTries + 1, coppiceSent := s.now }
    else
      let s := x.needCoppice.foldl (fun s k =>
        let o := { x.cut k with state := .coppicing }
        issueEntry s x (.cutRefell k) o { o with state := .felled } none) s
      coppiceEnd s x (Done.of .fenced Detail.COPPICE_TIMEOUT)

def execCoppiceTimeout (handle : Nat) (s : State) : Host.Outcome State Fault Refusal := nextOf s (coppiceTimeout s handle)

/-! ### Stall reports (R212) -/

/-- The cause of a stall that counts at a moment: of those that hold, the one with the lowest code (R210). -/
def Stall.now (t : Stall) : Nat := t.causes.foldl min 0xF

/-- STALL_REPORT: a stall that has lasted REPORT_MS posts one PENDING event with the cause that holds now, and a scale-book record at severity 3. A report under a cause that is not the one that counts reports nothing. -/
def stallReport (s : State) (h cause : Nat) : State :=
  match s.tir.stalls.find? fun t => t.handle == h with
  | none => s
  | some t =>
    if t.reported ∨ t.now ≠ cause ∨ s.now < t.since + max 1 (s.r Reg.TIR_STALL_CFG_REPORT_MS) * 1000000 then s
    else
      let s := { s with tir := { s.tir with stalls := s.tir.stalls.map fun u => if u.handle == h then { u with reported := true } else u } }
      match s.ctx h with
      | none => s
      | some x =>
        let d := 0x70 + t.now
        let s := postEvent s x Ev.STALL .pending d 0 0
        scbEvent s Src.tier 0 Status.pending.code d 3 ({ faultRec Src.tier Act.recorded 3 0 Status.pending.code d with handle := h }.image 0 s.now)

def execStallReport (handle cause : Nat) (s : State) : Host.Outcome State Fault Refusal := nextOf s (stallReport s handle cause)

end Sys2Proof.Machine
end

