-- ==== Sys2Proof/Machine/Trail.lean ====
section
/-! DEFINITION. The trail index (spec/06): SipHash-2-4 block hashes, the blaze table and its records, the trail trees, lookups, holds, publication, insertion, retirement and removal. -/

namespace Sys2Proof.Machine

/-! ### SipHash-2-4 (R144) -/

/-- The state of SipHash. -/
structure Sip where
  v0 : Word64
  v1 : Word64
  v2 : Word64
  v3 : Word64
  deriving DecidableEq, Repr

/-- One SipRound. -/
def Sip.round (s : Sip) : Sip :=
  let v0 := s.v0 + s.v1
  let v1 := s.v1.rotateLeft 13 ^^^ v0
  let v0 := v0.rotateLeft 32
  let v2 := s.v2 + s.v3
  let v3 := s.v3.rotateLeft 16 ^^^ v2
  let v0 := v0 + v3
  let v3 := v3.rotateLeft 21 ^^^ v0
  let v2 := v2 + v1
  let v1 := v1.rotateLeft 17 ^^^ v2
  let v2 := v2.rotateLeft 32
  ⟨v0, v1, v2, v3⟩

/-- Takes one 8-byte word with two rounds. -/
def Sip.word (s : Sip) (m : Word64) : Sip :=
  let s := ({ s with v3 := s.v3 ^^^ m } : Sip).round.round
  { s with v0 := s.v0 ^^^ m }

/-- The words of a message: whole 8-byte words, then the rest with the length in the last byte. -/
def sipWords (l : List Byte) : List Word64 :=
  let n := l.length
  ((List.range (n / 8)).map fun i => BitVec.ofNat 64 (leField l (8 * i) 8))
  ++ [BitVec.ofNat 64 (leNat (l.drop (n / 8 * 8)) + n % 256 * 2 ^ 56)]

/-- SipHash-2-4 of a message under a 16-byte key, as a number (R144). -/
def siphash24 (k l : List Byte) : Nat :=
  let k0 : Word64 := BitVec.ofNat 64 (leField k 0 8)
  let k1 : Word64 := BitVec.ofNat 64 (leField k 8 8)
  let s : Sip := ⟨k0 ^^^ 0x736f6d6570736575#64, k1 ^^^ 0x646f72616e646f6d#64, k0 ^^^ 0x6c7967656e657261#64, k1 ^^^ 0x7465646279746573#64⟩
  let s := (sipWords l).foldl Sip.word s
  let s := { s with v2 := s.v2 ^^^ 0xff#64 }
  let s := s.round.round.round.round
  (s.v0 ^^^ s.v1 ^^^ s.v2 ^^^ s.v3).toNat

/-- What a prefix is searched for under (R144): model, format, adapter, tenant and its tokens. -/
structure Prefix where
  model : Nat
  format : Nat
  adapter : Nat
  tenant : Nat
  tokens : List Nat
  deriving DecidableEq, Repr

/-- The seed of class 1 (blaze) or 2 (trail). -/
def seedBytes (cls : Nat) (p : Prefix) : List Byte :=
  leBytes 1 cls ++ leBytes 1 p.format ++ leBytes 2 p.model ++ leBytes 4 p.adapter ++ leBytes 4 (if cls = 1 then 0 else p.tenant) ++ leBytes 4 0

/-- The tokens of block i. -/
def blockTokens (p : Prefix) (i : Nat) : List Nat := (p.tokens.drop (32 * i)).take 32
/-- Their 128 bytes. -/
def tokenBytes (l : List Nat) : List Byte := l.flatMap (leBytes 4)

/-- The chain h[0] to h[n − 1] from a hash h[−1]. -/
def hashChain (k : List Byte) (p : Prefix) (h i : Nat) : Nat → List Nat
  | 0 => []
  | n + 1 =>
    let g := siphash24 k (leBytes 8 h ++ tokenBytes (blockTokens p i))
    g :: hashChain k p g (i + 1) n

/-- The hashes of the first n blocks in a class. -/
def blockHashes (k : List Byte) (cls : Nat) (p : Prefix) (n : Nat) : List Nat := hashChain k p (siphash24 k (seedBytes cls p)) 0 n

/-! ### The blaze table and its records (R149 to R151) -/

/-- The compare key of a block in a set of the operator's. -/
def blazeKey (set h : Nat) : Nat := set % 256 * 2 ^ 56 + h % 2 ^ 56
/-- The associative set an entry lies in. -/
def blazeSet (key : Nat) : Nat := key % 16384
/-- The valid entry with a key, with its place. -/
def blazeFind (s : State) (key : Nat) : Option (Nat × BlazeEntry) := s.trl.blaze.find? fun e => e.2.key == key
/-- A free way of a set. -/
def blazeWay (s : State) (set : Nat) : Option Nat := amFree s.trl.blaze (16 * set) 16
/-- Record slots as they act. -/
def blazeRecs (s : State) : Nat := min 262144 (s.r Reg.TRL_BLAZE_RECS_RECS)
/-- The HBM address of a blaze record. -/
def recAddr (s : State) (i : Nat) : Nat := s.r Reg.TRL_BLAZE_REC_LO_BASE_LO * 4096 + s.r Reg.TRL_BLAZE_REC_HI_BASE_HI * 2 ^ 32 + 256 * i

/-- Appends the CRC-64 of R70 to 248 bytes. -/
def withCrc (l : List Byte) : List Byte := fit 248 l ++ leBytes 8 (crc64 (fit 248 l))
/-- Whether the CRC of a 256-byte structure holds. -/
def crcGood (l : List Byte) : Bool := leField l 0xF8 8 == crc64 (l.take 248)

/-- The two words of a cut-map entry; CUT_NO is the second (R77). -/
def entryBytes (e : CutEntry) (k : Nat) : List Byte := leBytes 8 (entryWord e) ++ leBytes 8 k

/-- The cut-map entry that a record or node holds. -/
def entryOf (l : List Byte) : CutEntry :=
  let w := leField l 0 8
  { state := (match bits w 24 4 with | 1 => .resident | 3 => .felling | 4 => .felled | 5 => .coppicing | 6 => .moving | _ => .empty),
    shared := bit w 28, coppiced := bit w 29, isLocal := bit w 30, node := bits w 0 16, pool := bits w 16 8, slot := bits w 32 24, ring := bits w 56 8 }

/-- The 256 bytes of a LIVE blaze record (R150). -/
def blazeRecord (key : Nat) (p : Prefix) (i parent ring : Nat) (cut : CutEntry) : List Byte :=
  withCrc (leBytes 8 key ++ leBytes 2 p.model ++ leBytes 1 p.format ++ leBytes 1 1 ++ leBytes 4 p.adapter ++ leBytes 4 i ++ leBytes 4 parent
    ++ leBytes 1 ring ++ leBytes 7 0 ++ entryBytes { cut with shared := true } i ++ leBytes 16 0 ++ tokenBytes (blockTokens p i))

/-- The PARENT_REC of block 0. -/
def noParent : Nat := 0x00FFFFFF

/-- Whether a record's fields confirm block i of a prefix under the record of block i − 1 (R160). -/
def recConfirms (l : List Byte) (e : BlazeEntry) (p : Prefix) (i parent : Nat) : Bool :=
  leField l 0 8 == e.key && leField l 8 2 == p.model && leField l 0xA 1 == p.format && leField l 0xB 1 == 1 && leField l 0xC 4 == p.adapter
  && leField l 0x10 4 == i && leField l 0x14 4 == parent && leField l 0x18 1 == e.ring
  && (l.drop 0x40).take 128 == tokenBytes (blockTokens p i)

/-- What a match of one class found: the cuts, how many candidates their record refused, and the address of a record whose CRC failed twice. -/
structure Match where
  cuts : List CutEntry
  collide : Nat
  crc : Option Nat
  deriving DecidableEq, Repr

/-- The blaze match of a prefix from block i on (R160). -/
def blazeMatch (s : State) (set : Nat) (p : Prefix) (i parent : Nat) : List Nat → Match
  | [] => ⟨[], 0, none⟩
  | h :: hs =>
    match blazeFind s (blazeKey set h) with
    | none => ⟨[], 0, none⟩
    | some (_, e) =>
      let l := s.rd (recAddr s e.record) 256
      if !crcGood l || onQuiesced s (recAddr s e.record) then ⟨[], 0, some (recAddr s e.record)⟩
      else if !recConfirms l e p i parent then ⟨[], 1, none⟩
      else
        let m := blazeMatch s set p (i + 1) (e.ring * 2 ^ 24 + e.record) hs
        { m with cuts := entryOf (l.drop 0x20) :: m.cuts }

/-! ### The trail trees (R156, R157, R159) -/

/-- The tree area's base in HBM. -/
def treeBase (s : State) : Nat := s.r Reg.TRL_TREE_BASE_LO_BASE_LO * 4096 + s.r Reg.TRL_TREE_BASE_HI_BASE_HI * 2 ^ 32
/-- Node slots as they act. -/
def treeNodes (s : State) : Nat := min 16777216 (s.r Reg.TRL_TREE_NODES_NODES)
/-- Where a tenant's entry of the root table lies. -/
def rootAt (s : State) (tenant : Nat) : Nat := treeBase s + 8 * tenant
/-- The area offset of a node slot: the root table comes first. -/
def nodeOff (slot : Nat) : Nat := 8 * 1048576 + 256 * slot
/-- The node slot at an area offset. -/
def offSlot (off : Nat) : Nat := (off - 8 * 1048576) / 256
/-- The 256 bytes at an area offset. -/
def nodeAt (s : State) (off : Nat) : List Byte := s.rd (treeBase s + off) 256
/-- Writes a node or extension with its CRC. -/
def setNode (s : State) (off : Nat) (l : List Byte) : State := s.wr (treeBase s + off) (withCrc (l.take 248))
/-- A tenant's root, 0 for none. -/
def rootOf (s : State) (tenant : Nat) : Nat := memReadLE s.mem (rootAt s tenant) 8
/-- Bytes with a field written. -/
def patch (l : List Byte) (o n v : Nat) : List Byte := l.take o ++ leBytes n v ++ l.drop (o + n)

/-- Where the CHILD entries of a node or extension lie: first entry's offset, their number, and EXT's offset. -/
def childPlan (ext : Bool) : Nat × Nat × Nat := if ext then (0, 30, 0xF0) else (0xA0, 7, 0xD8)

/-- The places of the CHILD entries of a node, its own and those of its extensions in chain order: (area offset of the entry, value). -/
def childSlots (s : State) (off : Nat) (ext : Bool) : Nat → List (Nat × Nat)
  | 0 => []
  | fuel + 1 =>
    let l := nodeAt s off
    let pl := childPlan ext
    let own := (List.range pl.2.1).map fun i => (off + pl.1 + 8 * i, leField l (pl.1 + 8 * i) 8)
    let nx := leField l pl.2.2 8
    if nx = 0 then own else own ++ childSlots s nx true fuel

/-- The node slots there can be (R156): no chain of extensions is longer. -/
def treeFuel : Nat := 16777216

/-- The extensions chained to a node. -/
def extChain (s : State) (off : Nat) (ext : Bool) : Nat → List Nat
  | 0 => []
  | fuel + 1 =>
    let nx := leField (nodeAt s off) (childPlan ext).2.2 8
    if nx = 0 then [] else nx :: extChain s nx true fuel

/-- Whether a node or extension cannot be used: its CRC is wrong on both reads, or its stack is quiesced (R157, R434, R445). -/
def nodeBad (s : State) (off : Nat) : Bool := !crcGood (nodeAt s off) || onQuiesced s (treeBase s + off)

/-- The first of a node and its extensions that cannot be used. -/
def chainBad (s : State) (off : Nat) : Option Nat := if nodeBad s off then some off else (extChain s off false treeFuel).find? (nodeBad s)

/-- Whether a node is block i of a prefix (R157). -/
def nodeConfirms (l : List Byte) (p : Prefix) (i : Nat) : Bool :=
  leField l 0xEC 1 == 1 && leField l 0 4 % 2 ^ 20 == p.tenant && leField l 4 4 == i && (l.drop 0x20).take 128 == tokenBytes (blockTokens p i)

/-- The outcome of one block of a walk: a child, none, or a CRC failure. -/
inductive Step1 where
  | child (off : Nat) | miss | crc (off : Nat)
  deriving DecidableEq, Repr

/-- The first candidate child that passes R157. -/
def pickChild (s : State) (p : Prefix) (i tag : Nat) : List (Nat × Nat) → Step1
  | [] => .miss
  | (_, v) :: cs =>
    if v ≠ 0 ∧ v / 2 ^ 48 = tag then
      let l := nodeAt s (v % 2 ^ 48)
      if nodeBad s (v % 2 ^ 48) then .crc (v % 2 ^ 48)
      else if nodeConfirms l p i then .child (v % 2 ^ 48)
      else pickChild s p i tag cs
    else pickChild s p i tag cs

/-- Marks a node hit: HIT set, LAST_HIT the time (R157). -/
def hitNode (s : State) (off : Nat) : State :=
  let l := nodeAt s off
  setNode s off (patch (patch l 0xE0 8 s.now) 0xED 1 1)

/-- The walk of a prefix from a node at block i: the state with hits marked, the cuts matched, the offset of the last node, and that of a node whose CRC failed. -/
def treeWalk (s : State) (p : Prefix) (off i : Nat) : List Nat → State × List CutEntry × Nat × Option Nat
  | [] => (s, [], off, none)
  | h :: hs =>
    match (match chainBad s off with | some o => Step1.crc o | none => pickChild s p i (h / 2 ^ 48) (childSlots s off false treeFuel)) with
    | .miss => (s, [], off, none)
    | .crc c => (s, [], off, some c)
    | .child c =>
      let e := entryOf ((nodeAt s c).drop 0x10)
      let r := treeWalk (hitNode s c) p c (i + 1) hs
      (r.1, e :: r.2.1, r.2.2.1, r.2.2.2)

/-! ### Lookups (R160, R165, R166) -/

/-- S of R160: the blocks a lookup may match. -/
def searchable (promptLen : Nat) : Nat := (promptLen - 1) / 32

/-- A record or node that failed its CRC twice is a lasting fault of the stack that holds it (R157, R434). -/
def trailFault (s : State) (a : Nat) : State := lastingAt s a Detail.TRL_REC_CRC 0

/-- The detail of an operation that met such a record, or one on a quiesced stack (R445). -/
def trailDetail (s : State) (a : Nat) : Nat := if onQuiesced s a then Detail.FLT_STACK else Detail.TRL_REC_CRC

/-- Runs the lookup of R160 for a prefix under the blaze set of a function: the class that wins, its cuts, and a detail. -/
def runLookup (s : State) (fn : Nat) (p : Prefix) (n : Nat) : State × Nat × List CutEntry × Nat :=
  match s.trl.key with
  | none => (s, 0, [], Detail.TRL_NO_KEY)
  | some k =>
    let blaze : Match :=
      if s.r Reg.TRL_BLAZE_CFG_ENABLE = 1 ∧ s.r (Reg.TRL_FN_BLAZE_EN.at 4 fn) = 1 then
        blazeMatch s (s.r (Reg.TRL_FN_BLAZE_SET.at 4 fn)) p 0 noParent (blockHashes k 1 p n)
      else ⟨[], 0, none⟩
    let tree : State × List CutEntry × Nat × Option Nat :=
      if s.r Reg.TRL_TREE_CFG_ENABLE = 1 ∧ onQuiesced s (rootAt s p.tenant) then (s, [], 0, some (8 * p.tenant))
      else if s.r Reg.TRL_TREE_CFG_ENABLE = 1 ∧ rootOf s p.tenant ≠ 0 then treeWalk s p (rootOf s p.tenant) 0 (blockHashes k 2 p n)
      else (s, [], 0, none)
    let s := tree.1.cnt Reg.TRL_MISC_COLLIDE blaze.collide
    let d := match blaze.crc, tree.2.2.2 with
      | some a, _ => trailDetail s a
      | none, some o => trailDetail s (treeBase s + o)
      | none, none => 0
    let s := match blaze.crc with | some a => trailFault s a | none => s
    let s := match tree.2.2.2 with | some o => trailFault s (treeBase s + o) | none => s
    if blaze.cuts.isEmpty ∧ tree.2.1.isEmpty then (s, 0, [], d)
    else if blaze.cuts.length ≤ tree.2.1.length then (s, 2, tree.2.1, d)
    else (s, 1, blaze.cuts, d)

/-- Puts a lookup in flight (R160). -/
def startLookup (s : State) (purpose : LookupFor) (fn : Nat) (p : Prefix) : State :=
  let n := searchable p.tokens.length
  let s := if s.trl.key.isSome then keyServed s false else s
  let r := runLookup s fn p n
  let s := r.1
  let l : Lookup := { purpose := purpose, cls := r.2.1, cuts := r.2.2.1, searchable := n, detail := r.2.2.2, issued := s.now }
  { s with trl := { s.trl with lookups := amSet s.trl.nextLookup l s.trl.lookups, nextLookup := s.trl.nextLookup + 1 } }

/-- The prefix of a request. -/
def prefixOf (s : State) (x : Ctx) : Prefix :=
  ⟨x.model, (match modelOf s x with | some m => m.format | none => 0), x.adapter, x.tenant, x.log.take x.promptLen⟩

/-- The lookup that follows an admission (R174), or nothing where the request asked for none. -/
def admitLookup (s : State) (x : Ctx) : State :=
  if x.noLookup then s.setCtx x
  else startLookup (s.setCtx { x with lookupBusy := true }) (.request x.handle) (bits x.hostCq 16 6) (prefixOf s x)

/-- Whether the index runs in the current role (R15). -/
def trailRole (s : State) : Bool := roleEnables s [rolePrompt, roleGeneration, roleMixed]

/-- LOOKUP (R165): a probe; its record comes at release. -/
def lookupBody (c : Cmd) : Body := fun s d =>
  if !trailRole s then fail s .fenced 0
  else
    let toks := (List.range c.arg3).map fun i => leField d (4 * i) 4
    (startLookup s (.probe c) c.fn ⟨bits c.arg0 0 16, bits c.arg0 16 8, c.arg1, c.arg2, toks⟩, none)

def execLookup (c : Cmd) (s : State) : Host.Outcome State Fault Refusal := runPlain s Op.LOOKUP c (lookupBody c)

/-- The 32-byte record of a probe (R165). -/
def lookupRecord (s : State) (l : Lookup) (tag : Nat) : List Byte :=
  leBytes 1 0 ++ leBytes 1 l.detail ++ leBytes 1 l.cls ++ leBytes 1 0 ++ leBytes 4 l.cuts.length ++ leBytes 4 (32 * l.cuts.length)
  ++ leBytes 4 l.searchable ++ leBytes 4 (s.now - l.issued) ++ leBytes 4 0 ++ leBytes 8 tag

/-- The padding of R166 in ns. -/
def eqPadding (s : State) (n : Nat) : Nat := 8 * s.r Reg.TRL_EQ_CFG_BASE + s.r Reg.TRL_EQ_CFG_BLOCK_NS * n

/-- The number of a HOLD: its job and the block within it. -/
def holdId (job i : Nat) : Nat := job * 2 ^ 20 + i

/-- Sends HOLD for a cut (R162). -/
def sendHold (s : State) (id kv k : Nat) (e : CutEntry) : State := s.emit (.msg e.node (.hold id ⟨e.pool, sliceGroup kv k, e.slot, e.ring⟩))
/-- Sends one FREE for a held cut. -/
def freeHeld (s : State) (kv k : Nat) (e : CutEntry) : State := s.emit (.msg e.node (.free 0 k ⟨e.pool, sliceGroup kv k, e.slot, e.ring⟩))

/-- Adds a hold job and answers its number. -/
def addJob (s : State) (j : HoldJob) : State × Nat :=
  ({ s with trl := { s.trl with jobs := amSet s.trl.nextJob j s.trl.jobs, nextJob := s.trl.nextJob + 1 } }, s.trl.nextJob)
/-- Writes a hold job back. -/
def setJob (s : State) (n : Nat) (j : HoldJob) : State := { s with trl := { s.trl with jobs := amSet n j s.trl.jobs } }
/-- Drops a hold job. -/
def dropJob (s : State) (n : Nat) : State := { s with trl := { s.trl with jobs := amErase n s.trl.jobs } }

/-- LOOKUP_RELEASE (R161, R165, R166): a lookup's result is released at its padded time; a request's HOLDs go out, a probe's record is written. -/
def lookupRelease (s : State) (id : Nat) (late : Bool) : State :=
  match amGet id s.trl.lookups with
  | none => s
  | some l =>
    let eq := s.r Reg.TRL_EQ_CFG_ENABLE == 1
    if eq ∧ s.now < l.issued + eqPadding s l.searchable then s
    else
      let s := { s with trl := { s.trl with lookups := amErase id s.trl.lookups } }
      let s := s.wrap Reg.TRL_LOOKUPS_LOOKUPS 1
      let s := if eq && late then s.cnt Reg.TRL_MISC_EQ_OVERRUN 1 else s
      match l.purpose with
      | .probe c => completeCmd s Op.LOOKUP c { Done.of .ok l.detail with record := lookupRecord s l c.userTag }
      | .request h =>
        match s.ctx h with
        | none => s
        | some x =>
          if l.cuts.isEmpty ∨ x.phase ≠ .admitted ∨ !x.owner then s.setCtx { x with lookupBusy := false }
          else
            let kv := kvHeadsOf s x
            let j : HoldJob := { use := .attach, handle := h, cmd := none, cuts := l.cuts, answers := l.cuts.map fun _ => none, block := 0,
                                 count := l.cuts.length, node := 0, set := 0, refused := (0, 0) }
            let p := addJob s j
            l.cuts.zipIdx.foldl (fun s e => sendHold s (holdId p.2 e.2) kv e.2 e.1) p.1

def execLookupRelease (id : Nat) (late : Bool) (s : State) : Host.Outcome State Fault Refusal := nextOf s (lookupRelease s id late)

/-- The claim-checked writes that store the entries of cuts k, k + 1, … (R77, R161): word 0 and CUT_NO of each, at most 512 entries to a write of R341. -/
def entryStores (r : RecLoc) (k : Nat) (es : List CutEntry) : List (Nat × List Byte) :=
  (chunks 512 es).zipIdx.map fun c =>
    (cutMapAt r + 16 * (k + 512 * c.2), c.1.zipIdx.flatMap fun e => leBytes 8 (entryWord e.1) ++ leBytes 8 (k + 512 * c.2 + e.2))

/-- All HOLDs of a hit are answered (R161): held blocks from the first refused one on are freed, the entries below it are written, and the request enters PREFILL after them. -/
def attachHit (s : State) (j : HoldJob) : State :=
  let kv := match s.ctx j.handle with | some x => kvHeadsOf s x | none => 8
  let live : Bool := match s.ctx j.handle with | some x => x.owner && decide (x.phase = .admitted) | none => false
  let b := if live then (j.answers.takeWhile fun a => a == some true).length else 0
  let held := (j.cuts.zipIdx.zip j.answers).filter fun e => e.2 == some true && decide (b ≤ e.1.2)
  let s := held.foldl (fun s e => freeHeld s kv e.1.2 e.1.1) s
  match s.ctx j.handle with
  | none => s
  | some x =>
    if b = 0 then s.setCtx { x with lookupBusy := false }
    else
      let es := (j.cuts.take b).map fun e => { e with shared := true }
      let x := ({ x with lookupBusy := false, cuts := es, cutCount := b, kvLen := 32 * b, phase := .prefill } : Ctx).bump Ctr.prefixHit (32 * b)
      let s := (s.setCtx x).wrap Reg.TRL_HIT_BLOCKS_BLOCKS b
      issueStored s x .prefill .prefill x.committedLen [] (entryStores x.record 0 es ++ [(x.recOffset + 8, x.headBytes)]) none

/-! ### Publication (R146, R154) -/

/-- Ends a publication or insertion with its status. -/
def jobEnd (s : State) (n : Nat) (j : HoldJob) (st : Status) (dt value : Nat) : State :=
  finish (dropJob s n) j.cmd { Done.of st dt with handle := j.handle, value := value }

/-- The record that names block i − 1 of a prefix in a set, for PARENT_REC. -/
def parentRec (s : State) (k : List Byte) (set : Nat) (p : Prefix) (i : Nat) : Nat :=
  if i = 0 then noParent
  else
    match (blockHashes k 1 p i).getLast? with
    | none => noParent
    | some h => match blazeFind s (blazeKey set h) with | some (_, e) => e.ring * 2 ^ 24 + e.record | none => noParent

/-- The hash of block i of a prefix in a class. -/
def blockHash (k : List Byte) (cls : Nat) (p : Prefix) (i : Nat) : Nat := ((blockHashes k cls p (i + 1)).getLast?).getD 0

/-- Goes through the blocks of a publication from the one reached on (R154): blocks already published pass, the first new one has SHARED set in its entry and is held; a refused block ends the command, and so does a record that cannot be read or written, with FENCED (R434, R445; what a record whose CRC fails does to a publication R154 does not say: DESIGN CHOICE, log 159). -/
def publishGo (s : State) (n : Nat) (j : HoldJob) : Nat → State
  | 0 => s
  | fuel + 1 =>
    match s.ctx j.handle, s.trl.key with
    | some x, some k =>
      let i := j.block
      if j.count ≤ i ∨ x.cutCount ≤ i ∨ (x.cut i).state ≠ .resident ∨ (x.cut i).isLocal then jobEnd s n j .ok 0 i
      else
        let p := { prefixOf s x with tokens := x.log }
        let key := blazeKey j.set (blockHash k 1 p i)
        let parent := parentRec s k j.set p i
        match blazeFind s key with
        | some (_, e) =>
          let a := recAddr s e.record
          if !crcGood (s.rd a 256) || onQuiesced s a then jobEnd (trailFault s a) n j .fenced (trailDetail s a) i
          else if recConfirms (s.rd a 256) e p i parent then publishGo s n { j with block := i + 1 } fuel
          else jobEnd s n j .conflict Detail.TRL_COLLIDE i
        | none =>
          if (blazeWay s (blazeSet key)).isNone then jobEnd s n j .noCredit Detail.TRL_SET_FULL i
          else
            match s.trl.recIds.alloc (blazeRecs s) s.now with
            | none => jobEnd s n j .noCredit 0 i
            | some (r, _) =>
              if onQuiesced s (recAddr s r) then jobEnd s n j .fenced Detail.FLT_STACK i
              else
                let s := setJob s n j
                if (x.cut i).shared then sendHold s (holdId n i) (kvHeadsOf s x) i (x.cut i)
                else issueEntry s x (.cutShare i) (x.cut i) { x.cut i with shared := true } none
    | _, _ => jobEnd s n j .stale 0 j.block

/-- A publication's HOLD was answered OK: the record and then the entry are written (R154). Where they cannot be any more the hold is freed. -/
def publishWrite (s : State) (n : Nat) (j : HoldJob) : State :=
  match s.ctx j.handle, s.trl.key with
  | some x, some k =>
    let i := j.block
    let p := { prefixOf s x with tokens := x.log }
    let key := blazeKey j.set (blockHash k 1 p i)
    let back : State := freeHeld s (kvHeadsOf s x) i (x.cut i)
    match s.trl.recIds.alloc (blazeRecs s) s.now, blazeWay s (blazeSet key) with
    | some (r, ids), some w =>
      if onQuiesced s (recAddr s r) then jobEnd back n j .fenced Detail.FLT_STACK i else
      let ring := ids.ringOf r
      let s := s.wr (recAddr s r) (blazeRecord key p i (parentRec s k j.set p i) ring (x.cut i))
      let s := { s with trl := { s.trl with recIds := ids, blaze := amSet w ⟨key, ring, r⟩ s.trl.blaze } }
      publishGo s n { j with block := i + 1 } (j.count + 1)
    | _, _ => jobEnd back n j .noCredit Detail.TRL_SET_FULL i
  | _, _ => jobEnd s n j .stale 0 j.block

/-- BLAZE_PUBLISH (R145, R146, R154). -/
def blazePublishBody (c : Cmd) : Body := fun s _ =>
  if !trailRole s then fail s .fenced 0
  else withCtx c s fun x =>
    if c.fn ≠ 0 ∨ x.tenant ≠ 0 ∨ bits x.hostCq 16 6 ≠ 0 then (s, some { Done.of .fenced Detail.TRL_CLASS with handle := c.handle })
    else if s.trl.key = none then (s, some { Done.of .fenced Detail.TRL_NO_KEY with handle := c.handle })
    else if s.r Reg.TRL_BLAZE_CFG_ENABLE = 0 then (s, some { Done.of .fenced 0 with handle := c.handle })
    else
      let j : HoldJob := { use := .publish, handle := c.handle, cmd := some (Op.BLAZE_PUBLISH, c), cuts := [], answers := [], block := 0,
                           count := c.arg1, node := 0, set := c.arg0, refused := (0, 0) }
      let p := addJob s j
      (publishGo (keyServed p.1 false) p.2 j (c.arg1 + 1), none)

def execBlazePublish (c : Cmd) (s : State) : Host.Outcome State Fault Refusal := runPlain s Op.BLAZE_PUBLISH c (blazePublishBody c)

/-- Removes one blaze entry (R155): VALID cleared, record to RETIRING, one FREE, record freed with its ring count advanced. -/
def retireEntry (s : State) (w : Nat) (e : BlazeEntry) : State :=
  let a := recAddr s e.record
  let l := s.rd a 256
  let cut := entryOf (l.drop 0x20)
  let kv := match amGet (leField l 8 2) s.sch.models with | some m => m.kvHeads | none => 8
  let s := { s with trl := { s.trl with blaze := amErase w s.trl.blaze } }
  let s := if leField l 0xB 1 = 1 then freeHeld s kv (leField l 0x10 4) cut else s
  let s := s.wr a (withCrc (patch (patch (l.take 248) 0xB 1 0) 0x18 1 (ringNext e.ring)))
  { s with trl := { s.trl with recIds := { s.trl.recIds.release e.record s.now 0 with ring := amSet e.record (ringNext e.ring) s.trl.recIds.ring } } }

/-- BLAZE_RETIRE (R151, R155): sweeps the table and removes every masked match. One whose record cannot be read names no cut to free: it stays, and the command ends FENCED with what its record met (R434, R445; DESIGN CHOICE, log 159). -/
def blazeRetireBody (c : Cmd) : Body := fun s _ =>
  if !trailRole s then fail s .fenced 0
  else
    let hit := s.trl.blaze.filter fun e => (e.2.key &&& c.arg1) == (c.arg0 &&& c.arg1)
    let bad (e : Nat × BlazeEntry) : Bool := let a := recAddr s e.2.record; !crcGood (s.rd a 256) || onQuiesced s a
    let t := (hit.filter fun e => !bad e).foldl (fun s e => retireEntry s e.1 e.2) s
    match hit.find? bad with
    | none => (t, some Done.ok)
    | some e => fail ((hit.filter bad).foldl (fun t e => trailFault t (recAddr s e.2.record)) t) .fenced (trailDetail s (recAddr s e.2.record))

def execBlazeRetire (c : Cmd) (s : State) : Host.Outcome State Fault Refusal := runPlain s Op.BLAZE_RETIRE c (blazeRetireBody c)

/-! ### Insertion and removal (R158, R159) -/

/-- The places of a parent's CHILD entries that name a child. -/
def childRefs (s : State) (parent child : Nat) : List (Nat × Nat) :=
  (childSlots s parent false treeFuel).filter fun e => decide (e.2 ≠ 0) && e.2 % 2 ^ 48 == child

/-- Rewrites the CRC of the 256-byte slot that holds an area offset. -/
def fixCrc (s : State) (off : Nat) : State :=
  let b := off - (off - nodeOff 0) % 256
  setNode s b (nodeAt s b)

/-- Writes one CHILD entry at its place. -/
def writeChild (s : State) (place v : Nat) : State := fixCrc (s.wr (treeBase s + place) (leBytes 8 v)) place

/-- Frees a tree slot. -/
def freeTreeSlot (s : State) (off : Nat) : State :=
  { s with trl := { s.trl with treeUse := amErase (offSlot off) s.trl.treeUse, treeGroup := amErase (offSlot off) s.trl.treeGroup } }

/-- Removes a leaf (R159): REMOVING, the parent's CHILD entry cleared, one FREE, which names the cut's slice group (R76), the slot freed. -/
def removeLeaf (s : State) (off : Nat) : State :=
  let l := nodeAt s off
  let parent := leField l 8 8
  let tenant := leField l 0 4 % 2 ^ 20
  let s := setNode s off (patch l 0xEC 1 2)
  let s := (childRefs s parent off).foldl (fun s e => writeChild s e.1 0) s
  let pl := nodeAt s parent
  let s := setNode s parent (patch pl 0xE8 4 (leField pl 0xE8 4 - 1))
  let e := entryOf (l.drop 0x10)
  let s := s.emit (.msg e.node (.free 0 (leField l 4 4) ⟨e.pool, amGetD (offSlot off) 0 s.trl.treeGroup, e.slot, e.ring⟩))
  let s := (extChain s off false treeFuel).foldl freeTreeSlot s
  let s := freeTreeSlot (setNode s off (patch l 0xEC 1 0)) off
  { s with trl := { s.trl with treeCount := amSet tenant (amGetD tenant 0 s.trl.treeCount - 1) s.trl.treeCount } }

/-- Whether a slot holds a LIVE leaf that is no root, and can be removed: neither it nor its parent has bytes that cannot be used. -/
def isLeaf (s : State) (slot : Nat) : Bool :=
  amGet slot s.trl.treeUse == some 1 && (chainBad s (nodeOff slot)).isNone && (chainBad s (leField (nodeAt s (nodeOff slot)) 8 8)).isNone && leField (nodeAt s (nodeOff slot)) 0xEC 1 == 1 && leField (nodeAt s (nodeOff slot)) 0xE8 4 == 0

/-- Whether an insertion of the tenant is under way: the tree engine serializes them (R158). -/
def insertBusy (s : State) (tenant : Nat) : Bool :=
  s.trl.jobs.any fun e => decide (e.2.use = .insert) && (match s.ctx e.2.handle with | some x => x.tenant == tenant | none => false)

/-- Whether the hand must pass over a leaf because of the serialization of R158 (log 150): another tenant's insertion is under way in its tree, or an insertion stands on it. -/
def treeHeld (s : State) (tenant slot : Nat) : Bool :=
  let t := leField (nodeAt s (nodeOff slot)) 0 4 % 2 ^ 20
  (t != tenant && insertBusy s t) || s.trl.jobs.any fun e => decide (e.2.use = .insert) && e.2.node == nodeOff slot

/-- The clock hand (R159): passes over the slots, clearing HIT on each leaf, until it finds a leaf whose HIT is 0. -/
def evictFrom (s : State) (tenant hand : Nat) : Nat → Option State
  | 0 => none
  | fuel + 1 =>
    let n := treeNodes s
    let slot := hand % max 1 n
    let nxt := (slot + 1) % max 1 n
    if isLeaf s slot && !treeHeld s tenant slot then
      let l := nodeAt s (nodeOff slot)
      if bit (leField l 0xED 1) 0 then evictFrom (setNode s (nodeOff slot) (patch l 0xED 1 0)) tenant nxt fuel
      else some { (removeLeaf s (nodeOff slot)).cnt Reg.TRL_EVICT_EVICTED 1 with trl := { (removeLeaf s (nodeOff slot)).trl with hand := nxt } }
    else evictFrom s tenant nxt fuel

/-- A free tree slot, the lowest (log 24), evicting where none is free. -/
def takeTreeSlot (s : State) (tenant kind : Nat) : Option (State × Nat) :=
  let grab (s : State) : Option (State × Nat) :=
    match amFree s.trl.treeUse 0 (treeNodes s) with
    | none => none
    | some k => some ({ s with trl := { s.trl with treeUse := amSet k kind s.trl.treeUse } }, k)
  match grab s with
  | some r => some r
  | none => match evictFrom s tenant s.trl.hand (2 * treeNodes s) with | some s => grab s | none => none

/-- What ends an insertion that meets no slot, or one on a quiesced stack (R159, R445; log 159). -/
abbrev TreeEnd := Status × Nat

/-- The tenant's root node, made where there is none (R156). -/
def ensureRoot (s : State) (tenant : Nat) : Except TreeEnd (State × Nat) :=
  if onQuiesced s (rootAt s tenant) then .error (.fenced, Detail.FLT_STACK)
  else if rootOf s tenant ≠ 0 then .ok (s, rootOf s tenant)
  else
    match takeTreeSlot s tenant 3 with
    | none => .error (.noCredit, 0)
    | some (s, k) =>
      if onQuiesced s (treeBase s + nodeOff k) then .error (.fenced, Detail.FLT_STACK) else
      let l := leBytes 4 tenant ++ leBytes 4 0xFFFFFFFF ++ leBytes 8 0 ++ leBytes 16 0 ++ leBytes 128 0 ++ leBytes 56 0 ++ leBytes 8 0
        ++ leBytes 8 s.now ++ leBytes 4 0 ++ leBytes 1 1 ++ leBytes 11 0
      let s := setNode s (nodeOff k) l
      .ok (s.wr (rootAt s tenant) (leBytes 8 (nodeOff k)), nodeOff k)

/-- Links a child into a free CHILD entry of a node, with an extension where none is free (R158). -/
def linkChild (s : State) (tenant parent v : Nat) : Except TreeEnd State :=
  match (childSlots s parent false treeFuel).find? fun e => e.2 == 0 with
  | some e =>
    let s := writeChild s e.1 v
    let l := nodeAt s parent
    .ok (setNode s parent (patch l 0xE8 4 (leField l 0xE8 4 + 1)))
  | none =>
    match takeTreeSlot s tenant 2 with
    | none => .error (.noCredit, 0)
    | some (s, k) =>
      if onQuiesced s (treeBase s + nodeOff k) then .error (.fenced, Detail.FLT_STACK) else
      let last := ((extChain s parent false treeFuel).getLast?).getD parent
      let s := setNode s (nodeOff k) (leBytes 8 v ++ leBytes 240 0)
      let s := setNode s last (patch (nodeAt s last) (childPlan (last ≠ parent)).2.2 8 (nodeOff k))
      let l := nodeAt s parent
      .ok (setNode s parent (patch l 0xE8 4 (leField l 0xE8 4 + 1)))

/-- The nodes a tenant may hold. -/
def tenantCap (s : State) : Nat := 64 * s.r Reg.TRL_TREE_CFG_TENANT_CAP

/-- Goes through the blocks of an insertion from the one reached on (R158): a matching child is descended to; each match counts as a hit (R157); the first block with none has SHARED set in its entry and is held. It stops at an entry that is not RESIDENT at a home, and at the tenant's cap. -/
def insertGo (s : State) (n : Nat) (j : HoldJob) : Nat → State
  | 0 => s
  | fuel + 1 =>
    match s.ctx j.handle, s.trl.key with
    | some x, some k =>
      let i := j.block
      let e := x.cut i
      if x.cutCount ≤ i ∨ e.state ≠ .resident ∨ e.isLocal then jobEnd s n j .ok 0 0
      else
        let p : Prefix := { prefixOf s x with tokens := x.log }
        match (match chainBad s j.node with | some o => Step1.crc o | none => pickChild s p i (blockHash k 2 p i / 2 ^ 48) (childSlots s j.node false treeFuel)) with
        | .crc o => jobEnd (trailFault s (treeBase s + o)) n j .fenced (trailDetail s (treeBase s + o)) 0
        | .child c => insertGo (hitNode s c) n { j with block := i + 1, node := c } fuel
        | .miss =>
          if tenantCap s ≤ amGetD x.tenant 0 s.trl.treeCount then jobEnd (s.cnt Reg.TRL_EVICT_CAP_REFUSED 1) n j .noCredit Detail.TRL_TENANT_CAP 0
          else
            let s := setJob s n j
            if e.shared then sendHold s (holdId n i) (kvHeadsOf s x) i e
            else issueEntry s x (.cutShare i) e { e with shared := true } none
    | _, _ => jobEnd s n j .stale 0 0

/-- An insertion's HOLD was answered OK: the node is written and linked (R158), its LAST_HIT the time (R156 gives none before a hit: DESIGN CHOICE, log 160). With no slot for it the hold is freed and the insertion ends NO_CREDIT (R159 does not say how: DESIGN CHOICE, log 161). -/
def insertWrite (s : State) (n : Nat) (j : HoldJob) : State :=
  match s.ctx j.handle, s.trl.key with
  | some x, some k =>
    let i := j.block
    let p : Prefix := { prefixOf s x with tokens := x.log }
    let back (s : State) (e : TreeEnd) : State := jobEnd (freeHeld s (kvHeadsOf s x) i (x.cut i)) n j e.1 e.2 0
    match chainBad s j.node with
    | some o => back (trailFault s (treeBase s + o)) (.fenced, trailDetail s (treeBase s + o))
    | none =>
    match takeTreeSlot s x.tenant 4 with
    | none => back s (.noCredit, 0)
    | some (s, sl) =>
      if onQuiesced s (treeBase s + nodeOff sl) then back (freeTreeSlot s (nodeOff sl)) (.fenced, Detail.FLT_STACK) else
      let l := leBytes 4 x.tenant ++ leBytes 4 i ++ leBytes 8 j.node ++ entryBytes { x.cut i with shared := true } i ++ tokenBytes (blockTokens p i)
        ++ leBytes 56 0 ++ leBytes 8 0 ++ leBytes 8 s.now ++ leBytes 4 0 ++ leBytes 1 1 ++ leBytes 11 0
      let s := setNode s (nodeOff sl) l
      match linkChild s x.tenant j.node (blockHash k 2 p i / 2 ^ 48 * 2 ^ 48 + nodeOff sl) with
      | .error e => back (freeTreeSlot s (nodeOff sl)) e
      | .ok s =>
        let s := { s with trl := { s.trl with treeUse := amSet sl 1 s.trl.treeUse, treeGroup := amSet sl (sliceGroup (kvHeadsOf s x) i) s.trl.treeGroup,
                                              treeCount := amSet x.tenant (amGetD x.tenant 0 s.trl.treeCount + 1) s.trl.treeCount } }
        insertGo s n { j with block := i + 1, node := nodeOff sl } (x.cutCount + 1)
  | _, _ => jobEnd s n j .stale 0 0

/-- Starts an insertion of a request's cuts (R158). -/
def startInsert (s : State) (x : Ctx) (cmd : Option (Nat × Cmd)) : State :=
  match ensureRoot s x.tenant with
  | .error e => finish s cmd { Done.of e.1 e.2 with handle := x.handle }
  | .ok (s, root) =>
    let j : HoldJob := { use := .insert, handle := x.handle, cmd := cmd, cuts := [], answers := [], block := 0, count := x.cutCount,
                         node := root, set := 0, refused := (0, 0) }
    let p := addJob s j
    insertGo (keyServed p.1 false) p.2 j (x.cutCount + 1)

/-- The nodes of a subtree, leaves first; one that cannot be used shows none below it. -/
def postOrder (s : State) (off : Nat) : Nat → List Nat
  | 0 => []
  | fuel + 1 =>
    if (chainBad s off).isSome then [off] else
    ((childSlots s off false treeFuel).filter fun e => decide (e.2 ≠ 0)).flatMap (fun e => postOrder s (e.2 % 2 ^ 48) fuel) ++ [off]

/-- Clears a tenant's tree, leaves first, then its root (R159), with the operation's ending. A tree with a node that cannot be used stays as it is, since what hangs below cannot be found (R434, R445; DESIGN CHOICE, log 159). -/
def clearTree (s : State) (tenant : Nat) : State × Done :=
  if onQuiesced s (rootAt s tenant) then (s, Done.of .fenced Detail.FLT_STACK)
  else
    let root := rootOf s tenant
    if root = 0 then (s, Done.ok)
    else
      let all := postOrder s root 131073
      match all.findSome? (chainBad s) with
      | some o => (trailFault s (treeBase s + o), Done.of .fenced (trailDetail s (treeBase s + o)))
      | none =>
        let s := (all.filter (· ≠ root)).foldl removeLeaf s
        let s := (extChain s root false treeFuel).foldl freeTreeSlot s
        ((freeTreeSlot s root).wr (rootAt s tenant) (leBytes 8 0), Done.ok)

/-- Whether a tree operation of a tenant must wait for another (R158). -/
def treeBusy (s : State) (tenant : Nat) : Bool := insertBusy s tenant || s.trl.waiting.any fun w => w.tenant == tenant

/-- Puts a tree operation behind those of its tenant (R158). -/
def treeQueue (s : State) (w : TreeWait) : State := { s with trl := { s.trl with waiting := s.trl.waiting ++ [w] } }

/-- Starts a tree operation that has waited. -/
def treeStart (s : State) (w : TreeWait) : State :=
  if w.remove then (let p := clearTree s w.tenant; finish p.1 w.cmd p.2)
  else
    match s.ctx w.handle with
    | some x => startInsert s x w.cmd
    | none => finish s w.cmd { Done.of .stale 0 with handle := w.handle }

/-- Starts the tree operations whose tenant is free again, those of one tenant in their order (R158). -/
def treeGo (s : State) : State :=
  s.trl.waiting.foldl (fun s w =>
    if !insertBusy s w.tenant && ((s.trl.waiting.find? fun v => v.tenant == w.tenant) == some w) then
      treeStart { s with trl := { s.trl with waiting := s.trl.waiting.erase w } } w
    else s) s

/-- TRAIL_INSERT (R145, R158, R167). One of a tenant whose tree is busy waits for it. -/
def trailInsertBody (c : Cmd) : Body := fun s _ =>
  if !trailRole s then fail s .fenced 0
  else withCtx c s fun x =>
    if s.trl.key = none then (s, some { Done.of .fenced Detail.TRL_NO_KEY with handle := c.handle })
    else if s.r Reg.TRL_TREE_CFG_ENABLE = 0 then (s, some { Done.of .fenced 0 with handle := c.handle })
    else if treeBusy s x.tenant then (treeQueue s ⟨x.tenant, x.handle, some (Op.TRAIL_INSERT, c), false⟩, none)
    else (startInsert s x (some (Op.TRAIL_INSERT, c)), none)

def execTrailInsert (c : Cmd) (s : State) : Host.Outcome State Fault Refusal := runPlain s Op.TRAIL_INSERT c (trailInsertBody c)

/-- A cut has become RESIDENT at its home: a request admitted with TRAIL_INSERT inserts it (R158), behind what runs in its tenant's tree. -/
def insertMoved (s : State) (h : Nat) : State :=
  match s.ctx h with
  | none => s
  | some x =>
    if x.trailInsert ∧ x.owner ∧ (x.cuts.any fun e => decide (e.state = .resident) && !e.isLocal) ∧ s.trl.key ≠ none ∧ s.r Reg.TRL_TREE_CFG_ENABLE = 1 ∧ trailRole s then
      let w : TreeWait := ⟨x.tenant, x.handle, none, false⟩
      if !treeBusy s x.tenant then startInsert s x none else if s.trl.waiting.contains w then s else treeQueue s w
    else s

/-- COPPICE_DONE (R84, R85); cuts rebuilt at their homes are inserted as moved ones are (R158). -/
def execCoppiceDone (handle : Nat) (full : List Nat) (status node : Nat) (entries : Rebuilt) (s : State) :
    Host.Outcome State Fault Refusal := nextOf s (insertMoved (coppiceDone s handle full status node entries.cuts entries.tail) handle)

/-- TRAIL_REMOVE (R158, R159), behind what runs in the tenant's tree. -/
def trailRemoveBody (c : Cmd) : Body := fun s _ =>
  if !trailRole s then fail s .fenced 0
  else if treeBusy s c.arg0 then (treeQueue s ⟨c.arg0, 0, some (Op.TRAIL_REMOVE, c), true⟩, none)
  else (let p := clearTree s c.arg0; (p.1, some p.2))

def execTrailRemove (c : Cmd) (s : State) : Host.Outcome State Fault Refusal := runPlain s Op.TRAIL_REMOVE c (trailRemoveBody c)

/-! ### HOLD_ANSWER -/

/-- HOLD_ANSWER (R154, R158, R161): an attach waits for every answer; a publication or insertion goes on, or stops at a refusal. -/
def holdAnswer (s : State) (id status detail : Nat) : State :=
  let n := id / 2 ^ 20
  let i := id % 2 ^ 20
  match amGet n s.trl.jobs with
  | none => s
  | some j =>
    match j.use with
    | .attach =>
      let j := { j with answers := listSet i (some (status == 0)) j.answers }
      if j.answers.all (·.isSome) then attachHit (dropJob s n) j else setJob s n j
    | .publish => if status = 0 then publishWrite s n j else jobEnd s n j (statusOf status) detail j.block
    | .insert => treeGo (if status = 0 then insertWrite s n j else jobEnd s n j (statusOf status) detail 0)

def execHoldAnswer (id status detail : Nat) (s : State) : Host.Outcome State Fault Refusal := nextOf s (holdAnswer s id status detail)

/-- An entry has been marked SHARED for a publication or insertion: its HOLD goes out. -/
def shareDone (s : State) (x : Ctx) (k : Nat) : State :=
  match s.trl.jobs.find? fun e => e.2.handle == x.handle && e.2.block == k && decide (e.2.use ≠ .attach) with
  | none => s
  | some (n, _) => sendHold s (holdId n k) (kvHeadsOf s x) k (x.cut k)

/-- The change to SHARED was refused because the entry is in another state: the publication or insertion stops there. -/
def shareStopped (s : State) (x : Ctx) (k : Nat) : State :=
  match s.trl.jobs.find? fun e => e.2.handle == x.handle && e.2.block == k && decide (e.2.use ≠ .attach) with
  | none => s
  | some (n, j) => treeGo (jobEnd s n j .ok 0 (if j.use = .publish then k else 0))

end Sys2Proof.Machine
end

