-- ==== Sys2Proof/Machine/Commits.lean ====
section
/-! DEFINITION. What the answer of a record home does (R45, R46, R54 to R57, R78, R81, R84, R163, R202): a commit, a claim or a change of a cut-map entry succeeds, is refused in one of the two classes of R45, or has to be read again. -/

namespace Sys2Proof.Machine

/-! ### Classes of answers -/

/-- How an answer to the controller's own atomic is classed (R45). -/
inductive Verdict where
  | success | superseded | faultRecord | otherState | unknown | resend
  deriving DecidableEq, Repr

/-- Whether a commit is a change of a cut-map entry and not of the commit word. -/
def CommitKind.isEntry (k : CommitKind) : Bool := k.cut.isSome

/-- Whether a word names the owner and claim of another. -/
def otherClaim (found expected : Nat) : Bool := found / 2 ^ 32 != expected / 2 ^ 32

/-- The class of an answer (R45). A compare-and-set returns the word found; after the controller has sent it, a word that reads as the new value is its own; a write whose claim pair still stands is sent again. INDETERMINATE, transport failures and PENDING settle nothing. -/
def verdict (node : Nat) (cm : Commit) (a : AtomicResp) : Verdict :=
  if a.status = Status.stale.code then (if a.detail = Detail.MEM_CLAIM then .superseded else .faultRecord)
  else if a.status = Status.indeterminate.code ∨ a.status = Status.errorFlushed.code ∨ a.status = Status.pending.code then .unknown
  else if a.status ≠ Status.ok.code then .faultRecord
  else if cm.kind.isWrite then
    if !cm.reread then .success else if bits a.result 32 32 = claimPair node cm.gen then .resend else .superseded
  else if cm.reread then
    if cm.tried ∧ a.result = cm.new ∧ cm.new ≠ cm.expected then .success
    else if a.result = cm.expected then .resend
    else if cm.kind.isEntry then .otherState
    else if otherClaim a.result cm.expected then .superseded
    else .faultRecord
  else if a.result = cm.expected then .success
  else if cm.kind.isEntry then .otherState
  else if otherClaim a.result cm.expected then .superseded
  else .faultRecord

/-- Drops a commit in flight. -/
def dropCommit (s : State) (id : Nat) : State := { s with sch := { s.sch with commits := amErase id s.sch.commits } }

/-! ### After a token (R46, R511) -/

/-- Counts a first token later than its target, or a token interval longer than its target, since the commit at last (R172). -/
def countMiss (s : State) (x : Ctx) (last : Nat) : State :=
  if x.firstTime = 0 then
    if ttftNs s x.lclass < s.now - x.admitTime then s.cnt (Reg.SCH_CLASS_MISS_TTFT_MISS.at 4 x.lclass) 1 else s
  else if tpotNs s x.lclass < s.now - last then s.cnt (Reg.SCH_CLASS_MISS_TPOT_MISS.at 4 x.lclass) 1
  else s

/-- Whether a token is an end token of the request's model (R169; 0xFFFF_FFFF for none). -/
def isEndToken (s : State) (x : Ctx) (t : Nat) : Bool :=
  match modelOf s x with
  | some m => (m.end0 == t || m.end1 == t) && t != 0xFFFFFFFF
  | none => false

/-- Why a request whose tokens have just been committed ends, if it does: an end token, the limit, or a CANCEL that waited (R46, R48). -/
def endsAfter (s : State) (x : Ctx) : Option Nat :=
  if x.cancelPending.isSome then some endCancelled
  else if (x.log.getLast?).any (isEndToken s x) then some endToken
  else if x.maxNew ≤ x.tlogLen - x.promptLen ∨ 4194304 ≤ x.tlogLen then some endLength
  else none

/-- Goes on after a commit of tokens: DONE is committed, or the next step starts. A token that ends its request in PAUSED ends it at once, which R46 leaves open (DEDUCED, log 130). -/
def afterTokens (s : State) (x : Ctx) : State :=
  match endsAfter s x with
  | some r =>
    let c := x.cancelPending
    let x := { x with cancelPending := none }
    commitDone (s.setCtx x) x r (c.map fun c => (Op.CANCEL, c))
  | none => startDecode s x

/-- The context after n tokens of it have been committed; last is the time of its commit before. -/
def tokensCommitted (s : State) (x : Ctx) (last : Nat) (cm : Commit) : State × Ctx :=
  let s := countMiss s x last
  let len := bits cm.new 0 23
  (s, ({ x with log := x.log ++ cm.tokens, tlogLen := len, committedLen := len, lastTime := s.now,
                firstTime := if x.firstTime = 0 then s.now else x.firstTime } : Ctx).bump Ctr.tokens cm.tokens.length)

/-! ### Admission and recovery -/

/-- The ADMIT whose record cannot be made leaves no context (R41). -/
def admitRefused (s : State) (x : Ctx) (cm : Commit) (d : Done) : State :=
  finish (releaseCtx (unpinAdp (dropWork s x.handle) x.adapter) x) cm.cmd d

/-- The context that RECOVER creates (R54, R56): the committed phase, with positions covered by full cuts, and for a request past its prompt every position but the last, or all where a full cut holds that one too (log 158). The open cut holds those no full cut does. LCLASS, DETERMINISTIC, MAX_NEW and, past the prompt, FIRST_TIME stand in no record: they are free values, MAX_NEW within the log (log 131). -/
def recoverCtx (s : State) (h : Nat) (c : Cmd) (cm : Commit) (v : RecView) : Ctx :=
  let ph := Phase.ofCode (bits cm.new 23 3)
  let len := bits cm.new 0 23
  let decoding := decide (ph = .decode ∨ ph = .handoff)
  let full := 32 * v.cuts.length
  { Ctx.blank h with
    homeNode := s.nodeId, mapEpoch := s.r Reg.MGT_MAP_EPOCH_EPOCH, model := v.model, tenant := v.tenant, recovered := true,
    lclass := Config.freeNat s.free % 8, deterministic := Config.freeNat (s.free + 1) % 2 == 1,
    firstTime := if v.promptLen < len then Config.freeNat (s.free + 3) else 0, owner := true,
    phase := ph, adapter := v.adapter, recNode := cm.record.node, claimGen := bits cm.new 32 16, recKey := cm.record.key,
    recOffset := cm.record.offset, tlogLen := len, promptLen := v.promptLen,
    kvLen := if decoding then max (len - 1) full else full, maxNew := min (Config.freeNat (s.free + 2)) (4194304 - v.promptLen), cutCount := v.cuts.length,
    openFill := if decoding then len - 1 - full else 0, openWait := decoding && decide (full < len - 1), admitTime := s.now, lastTime := s.now,
    hostCq := c.fn * 65536 + c.cq, recoverId := recoverId c, userTag := v.userTag, hasRecord := true, committed := ph,
    committedLen := len, log := v.log.take len, cuts := v.cuts }

/-- Flips entries found in MOVING back to RESIDENT (R205), and treats those in FELLING and COPPICING as FELLED after a FREE of their old slots (R78). -/
def settleEntries (s : State) (x : Ctx) (v : RecView) : State :=
  v.cuts.zipIdx.foldl (fun s e =>
    match e.1.state with
    | .moving => issueEntry s x (.cutSettle e.2) e.1 { e.1 with state := .resident } none
    | .felling | .coppicing => issueEntry (sendFree s x e.2 e.1) x (.cutSettle e.2) e.1 { e.1 with state := .felled } none
    | _ => s) s

/-- A recovered request whose entries are settled goes on (R56, R83): it is coppiced where it must be, and RECOVER completes with what comes of that; else RECOVER completes and the request decodes or prefills. One in HANDOFF enters DECODE, and one in PREFILL whose full cuts cover its whole prompt leaves it as after its last chunk (DESIGN CHOICE, log 157). -/
def recoverGo (s : State) (x : Ctx) : State :=
  if x.phase = .done ∨ x.phase = .failed then waitDone s x Done.ok
  else if mustCoppice x then
    match coppiceNodeFor s x.coppiceNode with
    | none => waitDone s x (Done.of .fenced Detail.NO_COPPICE_NODE)
    | some n => sendCoppice s x n x.coppiceCmd
  else
    let s := waitDone s x Done.ok
    match s.ctx x.handle with
    | none => s
    | some x =>
      if x.phase = .handoff then issueCommit s x .decode .decode x.committedLen [] none
      else if promptComplete x then promptDone s x else startDecode s x

/-- The record has been claimed by RECOVER (R54): a context is made, its adapter pinned, and its local state rebuilt. With no index free the claim stands and the command completes with NO_CREDIT (log 28). -/
def recovered (s : State) (cm : Commit) (c : Cmd) (v : RecView) : State :=
  match allocCtx s with
  | none => completeCmd s Op.RECOVER c (Done.of .noCredit 0)
  | some (s, h) =>
    let x := { recoverCtx s h c cm v with coppiceCmd := some (Op.RECOVER, c), coppiceNode := bits c.arg3 32 16 }
    let s := writeHead (pinAdp ({ s with free := s.free + 4 }.setCtx x) x.adapter) x
    let s := settleEntries s x v
    if settling s h then s else recoverGo s x

/-- The record has been claimed by CLAIM (R39, R57): the TAKEN context owns the request and its buffers are the rebuilt state. -/
def claimed (s : State) (x : Ctx) (cm : Commit) (c : Cmd) (log : List Nat) : State :=
  let y := { x with owner := true, recovered := true, mapEpoch := s.r Reg.MGT_MAP_EPOCH_EPOCH, recoverId := recoverId c, claimGen := bits cm.new 32 16, committed := .handoff,
                    committedLen := bits cm.new 0 23, lastTime := s.now, hostCq := c.fn * 65536 + c.cq, peerNode := 0, peerHandle := 0,
                    log := log, unresolved := false }
  let p := flipTail s y
  let s := p.1.setCtx p.2
  let s := completeCmd (writeHead s y) Op.CLAIM c { Done.ok with handle := y.handle }
  let s := reportTokens s p.2
  match s.ctx y.handle with
  | none => s
  | some x => issueCommit s x .decode .decode x.committedLen [] none

/-! ### Success -/

/-- A context's phase and length as a commit has left them at its record. -/
def Ctx.commit (x : Ctx) (s : State) (cm : Commit) : Ctx :=
  { x with committed := Phase.ofCode (bits cm.new 23 3), committedLen := bits cm.new 0 23, lastTime := s.now }

/-- Writes what was found at an entry when a change of it succeeded. -/
def entryDone (s : State) (x : Ctx) (k : Nat) (f : CutEntry → CutEntry) : State × Ctx :=
  let y := x.setCut k (f (x.cut k))
  (s.setReq y, y)

/-- What a successful change of entry k does at the owner. A LOCAL entry is felled with no FREE message: the owner is its home, drops the slot and goes on as if acknowledged (DESIGN CHOICE, log 167). -/
def entrySuccess (s : State) (x : Ctx) (cm : Commit) : State :=
  match cm.kind with
  | .cutFelling k =>
    let p := entryDone s x k fun e => { e with state := .felling }
    let e := x.cut k
    if e.isLocal then
      let s := if e.node = s.nodeId then dropLocal p.1 e.slot else p.1
      freeAck s x.handle k
    else p.1.emit (.msg e.node (.free x.handle k (slotName s x k e)))
  | .cutFelled k =>
    let p := entryDone s x k fun e => { e with state := .felled, shared := e.shared && cm.cmd.isNone }
    match cm.cmd with
    | some (o, c) =>
      let e := x.cut k
      let s := sendFree p.1 x k e
      afterFelling (completeCmd s o c { Done.ok with handle := x.handle }) x.handle
    | none =>
      let y := p.2.bump Ctr.felled 1
      let s := (p.1.setReq y).wrap Reg.SCH_FELL_COUNT_FELLED 1
      let s := passCut s x.handle k (cutSize s y)
      afterFelling (fellJobDone s x.handle k true) x.handle
  | .cutMark k =>
    match findMove s x.handle k with
    | none => s
    | some m =>
      let p := entryDone (setMove s m { m with stage := .copying }) x k fun e => { e with state := .moving }
      let src := m.old
      let s := if src.isLocal then (if src.node = s.nodeId then { p.1 with tir := { p.1.tir with localOut := amSet src.slot (s.now + leaseNs s) p.1.tir.localOut } } else p.1)
        else p.1.emit (.msg src.node (.moveOut (slotName s x k src) x.record k x.claimGen))
      s.emit (.msg m.node (.pullCut x.handle k src m.entry))
  | .cutFlip k =>
    match findMove s x.handle k with
    | none => s
    | some m =>
      let p := entryDone (setMove s m { m with stage := .grace, deadline := s.now + graceNs s }) x k fun _ => m.entry
      let s := p.1.emit (.msg m.node (.confirm ⟨m.pool, m.group, m.slot, m.ring⟩))
      let s := s.wrap Reg.TIR_MOVE_DONE_FLIPPED 1
      let s := if m.job then modJob s x.handle fun j => { j with moved := j.moved + 1 } else s
      let s := if x.phase = .done ∨ x.phase = .failed then releaseEntry s p.2 k else s
      insertMoved (afterMove s x.handle) x.handle
  | .cutBack k =>
    match findMove s x.handle k with
    | none => s
    | some m =>
      let p := entryDone s x k fun _ => m.old
      let s := freeReserved (moveAborted p.1 m) m
      let s := if x.phase = .done ∨ x.phase = .failed then releaseEntry s p.2 k else s
      afterMove s x.handle
  | .cutAttach _ => writeHead s x
  | .cutSettle k =>
    let p := entryDone s x k fun _ => entryOfWord cm.new
    if settling p.1 x.handle then p.1 else recoverGo p.1 p.2
  | .cutRefell k => (entryDone s x k fun e => { e with state := .felled }).1
  | .cutEmpty k =>
    let p := entryDone s x k fun e => { e with state := .empty }
    (match cm.slot with
     | some (node, n) => p.1.emit (.msg node (.free x.handle k n))
     | none => p.1)
  | .cutShare k =>
    let p := entryDone s x k fun e => { e with shared := true }
    shareDone p.1 p.2 k
  | _ => s

/-- A cut of a coppice job is no longer its concern: with the chunk's last one the next chunk begins. -/
def copCutDone (s : State) (j : CopJob) (k : Nat) : State :=
  let j := { j with todo := j.todo.filter (· ≠ k), run := j.run.filter fun p => p.1 ≠ k }
  let s := setCop s j
  if j.run.isEmpty then
    let s := modCtx s j.ctx fun x => { x with openSlot := none, ahead := [] }
    copNext s j
  else s

/-- Frees the working buffers of a coppice job's chunk. -/
def copBuffers (s : State) (j : CopJob) : State :=
  match s.ctx j.ctx with
  | some x => (x.openSlot.toList ++ x.ahead).foldl dropLocal s
  | none => s

/-- What a successful change of an entry does at a coppice node (R84, R85). A slot for a cut whose entry is LOCAL is reserved in pool 0 of its HOME_NODE, the spec naming none (DESIGN CHOICE, log 166). -/
def copSuccess (s : State) (cm : Commit) : State :=
  match findCop s cm.record with
  | none => s
  | some j =>
    match cm.kind with
    | .cutCoppicing k =>
      let o := j.target k
      s.emit (.msg o.node (.reserve ⟨s.nodeId, j.msg.handle, o.pool, j.msg.record, k, j.msg.claimGen⟩))
    | .cutCoppiced k =>
      let n := (j.run.find? fun p => p.1 == k).map (·.2)
      let s := match n with
        | some n => s.emit (.msg (j.target k).node (.confirm n))
        | none => s
      let s := if j.run.length = 1 then copBuffers s j else s
      copCutDone s { j with entries := listSet k (entryOfWord cm.new) j.entries } k
    | .cutRefell _ => copRun s j
    | _ => s

/-- A coppice node finds an entry in another state than its step expects (R86): a cut that is no longer FELLED is passed over, and what its entry says is kept; a late flip frees its new slot. -/
def copOther (s : State) (cm : Commit) (found : Nat) : State :=
  match findCop s cm.record with
  | none => s
  | some j =>
    match cm.kind with
    | .cutCoppicing k =>
      let j := { j with todo := j.todo.filter (· ≠ k), entries := listSet k (entryOfWord found) j.entries }
      if j.run.isEmpty then copNext (setCop s j) j else copRun (setCop s j) j
    | .cutCoppiced k =>
      let n := (j.run.find? fun p => p.1 == k).map (·.2)
      let s := match n with | some n => s.emit (.msg (j.target k).node (.free 0 k n)) | none => s
      let s := if j.run.length = 1 then copBuffers s j else s
      copCutDone s j k
    | .cutRefell _ => copRun s j
    | _ => s

/-- A coppice node's change of an entry is refused, or its read of the record: the job ends. -/
def copRefused (s : State) (cm : Commit) : State :=
  match findCop s cm.record with
  | some j => copDrop s j
  | none => s

/-- What a successful commit of a request's word does (R46). The first word of a record has TLOG_LEN 0, and a second compare-and-set sets it to PROMPT_LEN once the head and the prompt are stored (R41, R45; DEDUCED, log 129). -/
def wordSuccess (s : State) (x : Ctx) (cm : Commit) (a : AtomicResp) : State :=
  let last := x.lastTime
  let x := x.commit s cm
  match cm.kind with
  | .recordHead =>
    let x := { x with hasRecord := true }
    issueStored (s.setCtx x) x .prompt .admitted x.promptLen cm.tokens
      ((x.recOffset + 8, x.headBytes) :: (segIndexAt x.record, segIndexBytes x.record) :: tokenStores x.record cm.tokens.length 0 cm.tokens) cm.cmd
  | .prompt =>
    let x := { x with tlogLen := x.promptLen, log := cm.tokens }
    let s := finish (s.setCtx x) cm.cmd { Done.ok with handle := x.handle }
    admitLookup s x
  | .prefill => insertMoved (s.setCtx x) x.handle
  | .handoff =>
    let s := finish (s.setCtx x) cm.cmd { Done.ok with handle := x.handle }
    if x.peerNode = 0 then evHandoff s x Detail.HANDOFF_WAIT else sendOffer s x x.peerNode
  | .decode =>
    let x := { x with phase := if x.phase = .paused then .paused else .decode }
    match endsAfter s x with
    | some r => if x.maxNew = 0 ∨ x.cancelPending.isSome then
        let c := x.cancelPending
        let x := { x with cancelPending := none }
        commitDone (s.setCtx x) x r (c.map fun c => (Op.CANCEL, c)) else startDecode s x
    | none => startDecode s x
  | .token =>
    let p := tokensCommitted s x last cm
    let s := p.1.setCtx p.2
    let tok := cm.tokens.getLastD 0
    let s := finish s cm.cmd { Done.ok with handle := x.handle, value := p.2.tlogLen, result := (p.2.tlogLen - 1) * 2 ^ 32 + tok }
    afterTokens s p.2
  | .commitSpec =>
    let p := tokensCommitted s x last cm
    let n := cm.tokens.length
    let tail := p.2.tentSlot
    let q := advanceKv p.1 p.2 n
    let y := ({ q.2 with tentCount := 0, tentRoot := 0, tentSlot := none, verifyN := 0, verifyTree := [], verifyDone := false, stepBusy := false } : Ctx)
    let y := (y.bump Ctr.specProposed (x.verifyN - 1)).bump Ctr.specAccepted (n - 1)
    let s := match tail with | some i => dropLocal q.1 i | none => q.1
    let s := finish (s.setCtx y) cm.cmd { Done.ok with handle := y.handle, value := y.tlogLen, result := (y.tlogLen - 1) * 2 ^ 32 + cm.tokens.getLastD 0 }
    afterTokens s y
  | .endDone reason =>
    let s := endCtx s x .done reason
    finish s cm.cmd { Done.ok with handle := x.handle, value := x.tlogLen }
  | .ownerFlip => ownerReleased s { x with committed := .handoff, committedLen := x.committedLen } cm.new
  | .claim =>
    match cm.cmd with
    | some (_, c) => claimed s x cm c (match a.view with | some v => v.log | none => x.log)
    | none => s
  | _ => s

/-- Releases the spill slot of an UNPARK whose write has its answer (R35). -/
def dropSpill (s : State) (cm : Commit) : State :=
  let i := cm.tokens.headD 0
  { s with sch := { s.sch with spill := amErase i s.sch.spill, spillIds := s.sch.spillIds.release i s.now (fallowUs s) } }

/-- A claim-checked write has been performed (R45): the commit it stands before goes on once all its writes have been; the record's owner handle is replaced (R35). -/
def writeSuccess (s : State) (cm : Commit) : State :=
  match cm.kind with
  | .store id =>
    (match amGet id s.sch.commits with
     | some c =>
       (match c.stage with
        | .storing n =>
          if n ≤ 1 then sendReq s id c
          else { s with sch := { s.sch with commits := amSet id { c with stage := .storing (n - 1) } s.sch.commits } }
        | _ => s)
     | none => s)
  | .unpark => finish (dropSpill s cm) cm.cmd { Done.ok with handle := cm.handle }
  | _ => s

/-! ### Refusals -/

/-- The commit that a refused claim-checked write stands for, with the writes before it dropped; another commit stands for itself. -/
def standsFor (s : State) (cm : Commit) : State × Commit :=
  match cm.kind with
  | .store id =>
    let rest := s.sch.commits.filter fun e => e.1 != id && !(e.2.kind == .store id)
    ({ s with sch := { s.sch with commits := rest } }, (amGet id s.sch.commits).getD cm)
  | _ => (s, cm)

/-- What a refused commit or change does to its request (R45). Its command completes first and EV_END follows. A request that has ended stays as it is (R46). -/
def refused (s0 : State) (cm0 : Commit) (sup : Bool) (a : AtomicResp) : State :=
  let p := standsFor s0 cm0
  let s := p.1
  let cm := p.2
  match cm.kind with
  | .recordHead =>
    match s.ctx cm.handle with
    | none => s
    | some x =>
      if a.status = Status.ok.code then admitRefused s x cm { Done.of .conflict 0 with result := a.result }
      else admitRefused s x cm (Done.of (statusOf a.status) a.detail)
  | .recover | .claim =>
    let h := if cm.kind = .claim then cm.handle else 0
    if a.status = Status.ok.code ∨ a.status = Status.stale.code then
      let s := if a.status = Status.ok.code then setEvent s Reg.SCH_CTX_EVENT_SUPERSEDED 0 else s
      finish s cm.cmd { Done.of .stale (if a.status = Status.ok.code then Detail.SUPERSEDED else a.detail) with result := a.result, handle := h }
    else finish s cm.cmd { Done.of (statusOf a.status) a.detail with handle := h }
  | k =>
    let s := match k with
      | .cutMark c | .cutFlip c | .cutBack c =>
        (match findMove s cm.handle c with | some m => moveJobStop (moveAborted (freeReserved s m) m) m (refusedDone sup cm.handle) | none => s)
      | .unpark => dropSpill s cm
      | _ => s
    match s.ctx cm.handle with
    | none => finish s cm.cmd (refusedDone sup cm.handle)
    | some x =>
      let s := match k with
        | .prompt => finish s cm.cmd { Done.ok with handle := x.handle }
        | .cutSettle _ => finish s x.coppiceCmd (refusedDone sup x.handle)
        | _ => finish s cm.cmd (refusedDone sup x.handle)
      let s := finish s (x.cancelPending.map fun c => (Op.CANCEL, c)) (refusedDone sup x.handle)
      if x.phase = .done ∨ x.phase = .failed then s
      else refuseCtx s { x with cancelPending := none, coppiceCmd := (match k with | .cutSettle _ => none | _ => x.coppiceCmd) } sup

/-- The claim is current but the entry is in another state than expected: the rule that issued the change says what follows (R45, R86, R161, R202, R206). -/
def entryOther (s : State) (cm : Commit) (found : Nat) : State :=
  match cm.kind with
  | .cutSettle k =>
    (match s.ctx cm.handle with
     | some x =>
       let p := entryDone s x k fun _ => entryOfWord found
       if settling p.1 x.handle then p.1 else recoverGo p.1 p.2
     | none => s)
  | .cutMark k | .cutFlip k =>
    (match findMove s cm.handle k with | some m => afterMove (moveAborted (freeReserved s m) m) cm.handle | none => s)
  | .cutFelling k => afterFelling (fellJobDone (passCut s cm.handle k 0) cm.handle k false) cm.handle
  | .cutFelled k => afterFelling (fellJobDone (passCut (finish s cm.cmd { Done.of .conflict 0 with handle := cm.handle }) cm.handle k 0) cm.handle k false) cm.handle
  | .cutShare k => (match s.ctx cm.handle with | some x => shareStopped s x k | none => s)
  | _ => s

/-! ### The answer -/

/-- Reads the word or entry again (R45): the wait is a stall of cause ST_RECORD. -/
def rereadCommit (s : State) (id : Nat) (cm : Commit) : State :=
  let s := { s with sch := { s.sch with commits := amSet id { cm with reread := true } s.sch.commits } }
  let s := if cm.handle = 0 then s else stallBegin s cm.handle St.record
  s.emit (.msg cm.record.node (.readWord cm.record cm.kind.cut))

/-- Sends the compare-and-set or write again after a re-read found what it expects; for a RECOVER or CLAIM this is its claim itself (R54). RETRIES counts it (log 141). -/
def resendCommit (s : State) (id : Nat) (cm : Commit) : State :=
  sendReq (if cm.tried then (match s.req cm.handle with | some x => s.setReq (x.bump Ctr.retries 1) | none => s) else s) id cm

/-- The read that precedes a RECOVER's claim has shown a record whose adapter is absent (R237). -/
def adapterAbsent (s : State) (cm : Commit) (a : AtomicResp) : Bool :=
  decide (cm.kind = .recover) && (match a.view with | some v => !adpThere s v.adapter | none => false)

/-- Whether a change of an entry is a coppice node's, which names no context. -/
def copCommit (cm : Commit) : Bool := cm.kind.isEntry && cm.handle == 0

/-- ATOMIC_RESP for a commit of the controller's own. -/
def commitResp (s : State) (id : Nat) (a : AtomicResp) : State :=
  match amGet id s.sch.commits with
  | none => s
  | some cm =>
    if cm.kind = .copRead then copBegin (dropCommit s id) cm.record a.result (if a.status = Status.ok.code then a.view else none) else
    match verdict s.nodeId cm a with
    | .unknown => rereadCommit s id cm
    | .resend =>
      if adapterAbsent s cm a then finish (dropCommit s id) cm.cmd (Done.of .fenced Detail.CDC_ADP_ABSENT)
      else resendCommit s id cm
    | .superseded => if copCommit cm then copRefused (dropCommit s id) cm else ghostGone (refused (stallOff (dropCommit s id) cm) cm true a) cm.handle
    | .faultRecord => if copCommit cm then copRefused (dropCommit s id) cm else ghostGone (refused (stallOff (dropCommit s id) cm) cm false a) cm.handle
    | .otherState => if copCommit cm then copOther (dropCommit s id) cm a.result else ghostGone (entryOther (stallOff (dropCommit s id) cm) cm a.result) cm.handle
    | .success =>
      if cm.kind = .recover ∧ a.view.isNone then rereadCommit s id cm else
      let s := stallOff (dropCommit s id) cm
      match cm.kind with
      | .recover =>
        (match cm.cmd, a.view with
         | some (_, c), some v => recovered s cm c v
         | _, _ => s)
      | k =>
        if k.isWrite then writeSuccess s cm
        else if k.isEntry then
          if copCommit cm then copSuccess s cm
          else
            match s.req cm.handle with
            | some x => if x.record = cm.record then ghostGone (entrySuccess s x cm) cm.handle else s
            | none => s
        else
          match s.ctx cm.handle with
          | some x =>
            if x.phase = .done ∨ x.phase = .failed then finish s cm.cmd { Done.of .stale 0 with handle := cm.handle }
            else commitNext (wordSuccess s x cm a) cm.handle
          | none => s
where
  /-- The wait for the record has ended (R45, R211). -/
  stallOff (s : State) (cm : Commit) : State :=
    if s.sch.commits.any fun e => e.2.handle == cm.handle && (e.2.kind.ofStep || e.2.reread) then s else stallClear s cm.handle St.record

end Sys2Proof.Machine
end

