-- ==== Sys2Proof/Machine/Split.lean ====
section
/-! DEFINITION. Split attention (spec/05): shards, merge slots, the LSEM merge, ATTEND at the home, and what happens when a shard does not answer; and the tasks of a layer (R176, R245). -/

namespace Sys2Proof.Machine

/-- Working buffers of a task in the landing: query rows, key and value rows, bolt entries and fetched bolts (log 30). -/
def taskBase (t : Nat) : Nat := landXA (t * 2 ^ 26)
def taskQ (t : Nat) : Nat := taskBase t
def taskKv (t : Nat) : Nat := taskBase t + 0x400000
def taskList (t : Nat) : Nat := taskBase t + 0x800000
/-- The working buffer in the landing of the bolts that a read brings, by the read (log 30). -/
def fetchBase (n : Nat) : Nat := landXA (2 ^ 50 + n * 2 ^ 34)

/-! ### Tasks (R123, R176, R245, R251) -/

/-- The bits of an element in QIN format (R60, R92). -/
def qinBytes (qin : Nat) : Nat := if qin = 0 then 2 else 1

/-- The width class of a format code: 2 for BF16, 1 for the 8-bit formats, 0 for MXFP4 (R89). -/
def clsBolt (f : Nat) : Nat := if f = 1 then 2 else if f = 2 then 1 else 0
def clsQ (qin qconv : Nat) : Nat := if qconv = 1 then 1 else if qconv = 2 then 0 else if qin = 0 then 2 else 1
def clsP (pfmt boltFmt : Nat) : Nat :=
  match pfmt with
  | 0 => if boltFmt = 1 then 2 else 1
  | 1 => 2
  | 2 => 1
  | _ => 0

/-- The SCLK cycles of one pass over a key tile: n query rows at head dimension d in a width class (R89, R90). -/
def passCycles (cls n d : Nat) : Nat :=
  let rows := if cls = 0 then 2 else 1
  let ch := if cls = 2 then 32 else 64
  ((n + rows - 1) / rows) * ((d + ch - 1) / ch)

/-- c_tile of a forward command (R90). -/
def cTile (qin qconv pfmt boltFmt n d : Nat) : Nat :=
  passCycles (max (clsQ qin qconv) (clsBolt boltFmt)) n d + passCycles (max (clsP pfmt boltFmt) (clsBolt boltFmt)) n d

/-- The largest divisor g of G for which a row group of `nodes` positions meets the limits of R93 (R123). -/
def rowGroup (G nodes d qin qconv pfmt fmt : Nat) : Nat :=
  ((List.range (G + 1)).filter fun g => decide (1 ≤ g) && G % max 1 g == 0 && decide (nodes * g * d ≤ 65536)
    && decide (cTile qin qconv pfmt fmt (nodes * g) d ≤ 4096)).foldl max 1

/-- KV heads packed into tasks: heads whose affinity shares a column, in ascending affinity index, at most GROUPS to a task (R176). The column is that of cut k (log 31). -/
def headPacks (m : Model) (k : Nat) : List (Nat × List Nat) :=
  (List.range 8).flatMap fun c =>
    let hs := (List.range m.kvHeads).filter fun h => boltStack m h k == c
    (chunks (max 1 m.groups) hs).map fun p => (c, p)

/-- What a layer's attention is told: formats, positions, window, sinks, scale, parent table (R92, R121). -/
structure AttInfo where
  formats : Nat
  qPos0 : Nat
  nodes : Nat
  window : Nat
  sinks : Nat
  smScale : Nat
  tree : List Nat
  deriving DecidableEq, Repr

/-- ATT_TMPL of a KVWRITE task (R245; log 155): what its quantizing needs, HDIM and FORMATS, and zero elsewhere. -/
def kvTmpl (m : Model) (formats : Nat) : List Byte := leBytes 2 0 ++ leBytes 1 m.hdim ++ leBytes 1 formats ++ leBytes 60 0

/-- ATT_TMPL of R245: FLAGS, BOLTS and every address zero, JOB_TAG filled in at dispatch. -/
def attTmpl (m : Model) (a : AttInfo) (g : Nat) : List Byte :=
  leBytes 1 1 ++ leBytes 1 0 ++ leBytes 1 m.hdim ++ leBytes 1 a.formats ++ leBytes 2 g ++ leBytes 2 (a.nodes * g) ++ leBytes 4 a.qPos0
  ++ leBytes 4 a.window ++ leBytes 2 a.sinks ++ leBytes 2 0 ++ leBytes 4 a.smScale ++ leBytes 44 0

/-- A task record with JOB_TAG and FRAME zero (R245). -/
def taskRecord (kind groups layer handle model head0 tenant nbolts blist q kv aux key slot use : Nat) (tmpl : List Byte)
    (node shard rows : Nat) (tree : List Nat) : List Byte :=
  leBytes 4 0 ++ leBytes 1 kind ++ leBytes 1 groups ++ leBytes 2 layer ++ leBytes 4 handle ++ leBytes 2 model ++ leBytes 1 head0
  ++ leBytes 1 0 ++ leBytes 4 tenant ++ leBytes 4 nbolts ++ leBytes 8 blist ++ leBytes 8 q ++ leBytes 8 kv ++ leBytes 8 aux
  ++ leBytes 4 key ++ leBytes 2 slot ++ leBytes 2 use ++ fit 64 tmpl ++ leBytes 2 node ++ leBytes 1 shard ++ leBytes 1 0
  ++ leBytes 4 rows ++ fit 64 (tree.map (BitVec.ofNat 8)) ++ leBytes 56 0

/-- Adds a task (R176) with what it reads staged in the landing; bolts that lie in T2 make it late (R210). -/
def addTask (s : State) (mk : Nat → Task) (q kv : List Byte) (bolts : List BoltRef) : State × Nat :=
  let t := s.xch.nextTask
  let mk (t : Nat) : Task := { mk t with late := bolts.any fun b => xaSpace b.addr == 1 }
  let s := s.wr (taskQ t) q
  let s := s.wr (taskKv t) kv
  let s := s.wr (taskList t) (bolts.flatMap BoltRef.bytes)
  ({ s with xch := { s.xch with tasks := amSet t (mk t) s.xch.tasks, nextTask := t + 1 } }, t)

/-- The query rows of a shard that a task takes: KV head h, heads h·G + j0 to h·G + j0 + g − 1, at every position; as row numbers of the shard (node-major, query heads ascending). -/
def taskRows (m : Model) (nodes g j0 : Nat) (heads : List Nat) : List Nat :=
  let G := m.qHeads / max 1 m.kvHeads
  heads.flatMap fun h => (List.range nodes).flatMap fun n => (List.range g).map fun j => n * m.qHeads + h * G + j0 + j

/-- The rows of a byte area by row numbers, each of w bytes. -/
def pickRows (l : List Byte) (w : Nat) (rows : List Nat) : List Byte := rows.flatMap fun r => (l.drop (r * w)).take w

/-- The key rows, then the value rows, of each of some heads for n positions from an offset of an entry on; rows are w bytes (R245, R263). -/
def headRows (kv : List Byte × List Byte) (m : Model) (w off n : Nat) (heads : List Nat) : List Byte :=
  let rows (area : List Byte) (h : Nat) : List Byte := (List.range n).flatMap fun q => (area.drop (((off + q) * m.kvHeads + h) * w)).take w
  heads.flatMap fun h => rows kv.1 h ++ rows kv.2 h

/-- What a set of attention tasks is for. -/
structure TaskFor where
  kind : Nat
  handle : Nat
  tenant : Nat
  model : Nat
  layer : Nat
  lclass : Nat
  flowKey : Nat
  flow : Nat
  shard : Nat
  attend : Option Nat
  part : Option Nat
  mergeKey : Nat
  mergeSlot : Nat
  mergeUse : Nat
  mergeNode : Nat
  deriving DecidableEq, Repr

/-- Issues the attention tasks of a shard (R123, R176): one for each pack of heads and row group. `bolts h` lists a head's bolts. The cost counts the tiles, the fill of each command, and in a prefill task, whose rows are normalized at its end, that normalization (R90, R91). -/
def issueTasks (s : State) (m : Model) (f : TaskFor) (a : AttInfo) (k0 : Nat) (q : List Byte) (kv : List Nat → List Byte) (bolts : Nat → List BoltRef) : State × List Nat :=
  let d := hdimOf m.hdim
  let qin := bits a.formats 0 2
  let qconv := bits a.formats 2 2
  let pf := bits a.formats 4 2
  let G := m.qHeads / max 1 m.kvHeads
  let g := rowGroup G a.nodes d qin qconv pf m.format
  (headPacks m k0).foldl (fun p pack =>
    (List.range (G / max 1 g)).foldl (fun (p : State × List Nat) i =>
      let rows := taskRows m a.nodes g (i * g) pack.2
      let refs := pack.2.flatMap bolts
      let nb := (bolts (pack.2.headD 0)).length
      let norm := if f.kind = 2 then pack.2.length * (a.nodes * g) * ((d + 63) / 64) else 0
      let cost := pack.2.length * ((nb + 1) / 2) * cTile qin qconv pf m.format (a.nodes * g) d + 96 * pack.2.length * ((nb + 63) / 64) + norm
      let mk (t : Nat) : Task :=
        { kind := f.kind, handle := f.handle, layer := f.layer, col := pack.1, cost := cost, lclass := f.lclass, flowKey := f.flowKey,
          since := p.1.now, front := false,
          record := taskRecord f.kind pack.2.length f.layer f.handle f.model (pack.2.headD 0) f.tenant nb (taskList t) (taskQ t) (if f.kind = 2 then taskKv t else 0) 0
            f.mergeKey f.mergeSlot f.mergeUse (attTmpl m a g) f.mergeNode f.shard rows.length a.tree,
          rowIdx := rows, heads := pack.2, shard := f.shard, attend := f.attend, expand := none, flow := f.flow, stand := none, counted := false,
          part := f.part, late := false, held := false, erred := false }
      let r := addTask p.1 mk (pickRows q (d * qinBytes qin) rows) (if f.kind = 2 then kv pack.2 else []) refs
      (r.1, p.2 ++ [r.2])) p) (s, [])

/-! ### Merge slots (R124 to R131) -/

/-- The address of merge slot k. -/
def mergeAddr (s : State) (k : Nat) : Nat :=
  if k < mergeOrd s then mergeBase s + k * ordStride s
  else mergeBase s + mergeOrd s * ordStride s + (k - mergeOrd s) * detStride s

/-- The key of the region registered over the merge area. -/
def mergeKey (s : State) : Nat :=
  match s.rm.regions.find? fun e => e.2.kind == 1 && e.2.base == mergeBase s && !e.2.closing with
  | some (_, r) => r.key
  | none => 0

/-- The header of a merge slot (R125). -/
def mergeHeader (M : MSlot) (step hdim : Nat) (done : Bool) : List Byte :=
  leBytes 2 M.use ++ leBytes 2 M.layer ++ leBytes 4 M.handle ++ leBytes 4 step ++ leBytes 2 M.rows ++ leBytes 1 hdim
  ++ leBytes 1 (b2n M.det + 2 * b2n done) ++ leBytes 2 M.expect ++ leBytes 2 M.arrived.length ++ leBytes 12 0 ++ leBytes 32 (bitSet M.arrived)

/-- Writes a merge slot's state and the header that follows it. -/
def setMerge (s : State) (k : Nat) (M : MSlot) (done : Bool) : State :=
  let a := mergeAddr s k
  let step := leField (s.rd a 64) 8 4
  let hd := leField (s.rd a 64) 0xE 1
  ({ s with xch := { s.xch with merges := amSet k M s.xch.merges } }).wr a (mergeHeader M step hd done)

/-- Row r of a merge slot. -/
def mergeRow (s : State) (k d r : Nat) : List Byte := s.rd (mergeAddr s k + 64 + r * (4 * d + 8)) (4 * d + 8)

/-- Merges row bytes into the rows of a slot (R128). -/
def mergeRows (s : State) (k d : Nat) (rows : List (List Byte)) : State :=
  rows.zipIdx.foldl (fun s e => s.wr (mergeAddr s k + 64 + e.2 * (4 * d + 8)) (lsemMerge d (mergeRow s k d e.2) (fit (4 * d + 8) e.1))) s

/-- The buffer block of shard i of a deterministic slot (R125, R130). -/
def detBlock (s : State) (k d rows i : Nat) : Nat := mergeAddr s k + 64 + rows * (4 * d + 8) * (i + 1)

/-- The free slot of a kind with the lowest number (R126). -/
def freeSlot (s : State) (det : Bool) : Option Nat :=
  let r := if det then (List.range (mergeDet s)).map (mergeOrd s + ·) else List.range (mergeOrd s)
  r.find? fun k => !amHas k s.xch.merges

/-- Allocates a merge slot: its use count advances, its header is written and its rows are empty (R125, R126, R128). -/
def allocMerge (s : State) (x : Ctx) (L : StepLayer) (d hdim rows expect : Nat) : Option (State × Nat) :=
  match freeSlot s L.det with
  | none => none
  | some k =>
    let u := amGetD k 0 s.xch.uses
    let u := if u = 65535 then 1 else u + 1
    let M : MSlot := { use := u, layer := L.layer, handle := x.handle, rows := rows, d := d, det := L.det, expect := expect, arrived := [] }
    let s := { s with xch := { s.xch with merges := amSet k M s.xch.merges, uses := amSet k u s.xch.uses } }
    let s := s.wr (mergeAddr s k) (mergeHeader M x.tlogLen hdim false)
    some (s.wr (mergeAddr s k + 64) ((List.replicate rows (PRow.empty d).bytes).flatten), k)

/-! ### The requester's layer -/

/-- A request's layer in progress. -/
def State.layer (s : State) (h : Nat) : Option StepLayer := amGet h s.xch.layers
/-- Writes it back. -/
def State.setLayer (s : State) (L : StepLayer) : State := { s with xch := { s.xch with layers := amSet L.handle L s.xch.layers } }
/-- Changes shard i of a layer. -/
def modShard (L : StepLayer) (i : Nat) (f : Shard → Shard) : StepLayer :=
  { L with shards := L.shards.map fun sh => if sh.index == i then f sh else sh }

/-- The 16 KiB-aligned slot bytes an entry came in: header, query rows. -/
def slotAddr (s : State) (w slot : Nat) : Nat := winBase s w + 0x10000 + winSlotSize s w * slot

/-- The header of the slot use an entry came in, as the controller read it at acceptance (R407, R413). -/
def useHeader (s : State) (L : StepLayer) : List Byte :=
  match amGet L.slot (s.win L.window).uses with
  | some u => u.hdr
  | none => []

/-- The Q, K and V rows of an entry (R405). -/
def entryRows (s : State) (L : StepLayer) (m : Model) : List Byte × List Byte × List Byte :=
  let a := slotAddr s L.window L.slot
  let h := useHeader s L
  let w := hdimOf m.hdim * qinBytes (bits L.formats 0 2)
  let q := s.rd (a + leField h 0x30 4 + L.row0 * m.qHeads * w) (L.count * m.qHeads * w)
  let k := s.rd (a + leField h 0x34 4 + L.row0 * m.kvHeads * w) (L.count * m.kvHeads * w)
  let v := s.rd (a + leField h 0x38 4 + L.row0 * m.kvHeads * w) (L.count * m.kvHeads * w)
  (q, k, v)

/-- The attention of a layer. -/
def layerInfo (m : Model) (L : StepLayer) (nodes : Nat) : AttInfo :=
  { formats := L.formats, qPos0 := L.pos0, nodes := nodes, window := m.window, sinks := m.sinks, smScale := m.smScale, tree := L.tree }

/-- Depths of a parent table (R105). -/
def treeDepths (n : Nat) (tree : List Nat) : List Nat :=
  (List.range n).foldl (fun ds i => ds ++ [if tree.getD i 0xFF = 0xFF then 0 else ds.getD (tree.getD i 0) 0 + 1]) []

/-- The ATTEND for a shard (R121). -/
def attendFor (s : State) (x : Ctx) (m : Model) (L : StepLayer) (sh : Shard) (backup : Bool) : AttendMsg :=
  { src := s.nodeId, epoch := s.r Reg.MGT_MAP_EPOCH_EPOCH, handle := x.handle, tenant := x.tenant, model := x.model, layer := L.layer,
    mergeKey := mergeKey s, mergeSlot := L.merge.getD 0,
    mergeUse := (match L.merge with | some k => (match amGet k s.xch.merges with | some M => M.use | none => 0) | none => 0),
    qPos0 := L.pos0, window := m.window, sinks := m.sinks, shard := sh.index, nodes := L.count, formats := bits L.formats 0 6,
    backup := backup, backupFor := if backup then sh.home else 0, smScale := m.smScale,
    cuts := sh.cuts.map fun k => ⟨k, (x.cut k).pool, (x.cut k).slot, (x.cut k).ring⟩,
    depth := if L.count = 1 then [] else treeDepths L.count L.tree, q := (entryRows s L m).1 }

/-- The body of an ATTEND as it is sent (R121). -/
def attendBody (a : AttendMsg) : List Byte :=
  leBytes 2 a.src ++ leBytes 2 a.epoch ++ leBytes 4 a.handle ++ leBytes 4 a.tenant ++ leBytes 2 a.model ++ leBytes 2 a.layer
  ++ leBytes 4 a.mergeKey ++ leBytes 2 a.mergeSlot ++ leBytes 2 a.mergeUse ++ leBytes 4 a.qPos0 ++ leBytes 4 a.window ++ leBytes 2 a.sinks
  ++ leBytes 1 a.shard ++ leBytes 1 a.nodes ++ leBytes 1 a.formats ++ leBytes 1 (b2n a.backup) ++ leBytes 2 a.backupFor
  ++ leBytes 4 a.smScale ++ leBytes 4 a.cuts.length ++ leBytes 16 0
  ++ (if a.nodes = 1 then [] else fit 64 (a.depth.map (BitVec.ofNat 8)))
  ++ (a.cuts.flatMap fun c => leBytes 8 (c.cut + c.pool * 2 ^ 24 + c.slot * 2 ^ 32 + c.ring * 2 ^ 56)) ++ a.q

/-- Credit of the backup bucket in 1/10,000 (R135), never above BURST; CREDIT shows whole credits. -/
def setCredit (s : State) (c : Nat) : State :=
  let c := min (s.r Reg.SCH_SPLIT_BACKUP_BURST * 10000) c
  ({ s with xch := { s.xch with credit := c } }).setR Reg.SCH_SPLIT_BACKUP_CREDIT (c / 10000)

/-- Sends a shard's ATTEND to its home; the bucket gains (R121, R135). -/
def sendAttend (s : State) (x : Ctx) (m : Model) (L : StepLayer) (sh : Shard) : State :=
  let s := s.emit (.msg sh.home (.attend (attendBody (attendFor s x m L sh false))))
  let s := s.wrap Reg.SCH_SPLIT_SHARDS_SENT 1
  setCredit s (s.xch.credit + min 10000 (s.r Reg.SCH_SPLIT_BACKUP_BUDGET_BP))

/-! ### Bolts from other tiers (R132, R207, R208) -/

/-- The staged bolts of a layer of a cut, for a request of a node. -/
def stagedOf (s : State) (node h layer k : Nat) : Option Staged :=
  s.xch.staged.find? fun g => g.node == node && g.handle == h && g.layer == layer && g.cut == k

/-- The layers read ahead of layer l, in order: PREFETCH_LAYERS of them, 1 to 8, going on at layer 0 (R207). -/
def nextLayers (s : State) (m : Model) (l : Nat) : List Nat :=
  (((List.range (min 8 (max 1 (s.r Reg.SCH_SPLIT_CFG_PREFETCH_LAYERS)))).map fun i => (l + 1 + i) % max 1 m.layers).eraseDups).filter (· ≠ l)

/-- The bytes that one layer of cut k takes on each stack. -/
def layerBytes (m : Model) (k : Nat) : List Nat :=
  (List.range 8).map fun st => boltsOn m.kvHeads (sliceGroup m.kvHeads k) st * slotBytes m.format m.hdim

/-- Where head h's bolt of cut k lies in a staging buffer: in its own stack's staging (R207). -/
def stageAddr (s : State) (m : Model) (k h : Nat) (l : LocalSlot) : Nat :=
  let st := boltStack m h k
  localBase s st + l.offs.getD st 0 + headRank m.kvHeads h * slotBytes m.format m.hdim

/-- Staging buffers for a layer of some cuts, cut by cut, as far as the staging has room (R207). -/
def stageSome (s : State) (m : Model) : List Nat → List (Nat × LocalSlot)
  | [] => []
  | k :: ks =>
    match stagePlace s (layerBytes m k) with
    | none => []
    | some p => (k, p) :: stageSome { s with xch := { s.xch with staged := s.xch.staged ++ [⟨0, 0, 0, k, CutEntry.none, [], p, none⟩] } } m ks

/-- Full staging holds a prefetch back from its first cut without room on: counted once until it goes on (R207). -/
def stageHold (s : State) (key : Nat × Nat × Nat) (full : Bool) : State :=
  if !full then { s with xch := { s.xch with stageHeld := s.xch.stageHeld.filter (· ≠ key) } }
  else if s.xch.stageHeld.contains key then s
  else ({ s with xch := { s.xch with stageHeld := s.xch.stageHeld ++ [key] } }).cnt Reg.TIR_PREFETCH_MISC_HELD 1

/-- Reads a layer of some cuts from the homes their entries name, one read to a home, into staging buffers or, without one, into the landing (R132, R207). -/
def fetchBolts (s : State) (x : Ctx) (m : Model) (layer : Nat) (cuts : List (Nat × Option LocalSlot)) : State :=
  let size := slotBytes m.format m.hdim
  ((cuts.map fun c => (x.cut c.1).node).eraseDups).foldl (fun s n =>
    let r := s.xch.nextRead
    let mine := cuts.filter fun c => (x.cut c.1).node == n
    let new := mine.zipIdx.map fun e =>
      ({ node := s.nodeId, handle := x.handle, layer := layer, cut := e.1.1, entry := x.cut e.1.1,
         addrs := (List.range m.kvHeads).map fun h => (match e.1.2 with
           | some l => stageAddr s m e.1.1 h l
           | none => fetchBase r + (e.2 * m.kvHeads + h) * size),
         space := e.1.2.getD ⟨[], []⟩, read := some r } : Staged)
    let s := { s with xch := { s.xch with staged := s.xch.staged ++ new, nextRead := r + 1,
                                          reads := amSet r ⟨.staged x.handle layer, 0, mine.length * m.kvHeads * size⟩ s.xch.reads } }
    s.emit (.msg n (.fetch r x.model layer (mine.map fun c => (c.1, slotName s x c.1 (x.cut c.1)))))) s

/-- Layer-order prefetch of some cuts after layer l of a request here (R207): layer by layer, cuts ascending; the first cut that staging has no room for holds back those after it. -/
def prefetch (s : State) (x : Ctx) (m : Model) (l : Nat) (cuts : List Nat) : State :=
  ((nextLayers s m l).foldl (fun (p : State × Bool) l' =>
    let s := p.1
    let want := (isort (fun a b => decide (a ≤ b)) cuts).filter fun k => (stagedOf s s.nodeId x.handle l' k).isNone
    if p.2 ∨ want.isEmpty then p
    else
      let ps := stageSome s m want
      let full := decide (ps.length < want.length)
      (fetchBolts (stageHold s (s.nodeId, x.handle, l') full) x m l' (ps.map fun e => (e.1, some e.2)), full)) (s, false)).1

/-- The cuts of a shard whose bolts must come from elsewhere. -/
def farCuts (s : State) (x : Ctx) (sh : Shard) : List Nat := sh.cuts.filter fun k => decide ((x.cut k).node ≠ s.nodeId)

/-- The entry value of a home's own cut, as an ATTEND names it. -/
def attEntry (s : State) (c : AttCut) : CutEntry := ⟨.resident, false, false, false, s.nodeId, c.pool, c.slot, c.ring⟩

/-- A layer of one cut of an ATTEND copied from T2 to its staging: the pages of its bolts count (R390, R395), their reads and the staging's writes go to the serve class (R393). -/
def stageHome (s : State) (m : Model) (a : AttendMsg) (l : Nat) (c : AttCut) (p : LocalSlot) : State :=
  let size := slotBytes m.format m.hdim
  let addrs := (List.range m.kvHeads).map fun h => stageAddr s m c.cut h p
  let s := addrs.zipIdx.foldl (fun s b =>
    let from_ := boltPool s m c.pool c.slot l b.2 c.cut
    chargeClass ((pageTouch s from_ size).wr b.1 (s.rd from_ size)) 0 (2 * size)) s
  { s with xch := { s.xch with staged := s.xch.staged ++ [⟨a.src, a.handle, l, c.cut, attEntry s c, addrs, p, none⟩] } }

/-- Layer-order prefetch at a home (R207): bolts of an ATTEND's cuts that lie in T2, copied to the staging of this node's HBM. A layer of a cut whose bolts are not built yet (R388) or cannot be reached (R396, R546) is left to the tasks that will read it. -/
def prefetchHome (s : State) (m : Model) (a : AttendMsg) : State :=
  let at_ (l : Nat) (c : AttCut) (h : Nat) : Nat := boltPool s m c.pool c.slot l h c.cut
  let open_ (s : State) (l : Nat) (c : AttCut) : Bool := (List.range m.kvHeads).all fun h =>
    (blockedUnits s (at_ l c h) (slotBytes m.format m.hdim) false).isEmpty && (memTrouble s (at_ l c h) (slotBytes m.format m.hdim)).isNone
  let far := (isort (fun a b => decide (a.cut ≤ b.cut)) a.cuts).filter fun c => xaSpace (at_ 0 c 0) == 1
  ((nextLayers s m a.layer).foldl (fun (p : State × Bool) l' =>
    let s := p.1
    let want := far.filter fun c => (stagedOf s a.src a.handle l' c.cut).isNone && open_ s l' c
    if p.2 ∨ want.isEmpty then p
    else
      let ps := stageSome s m (want.map (·.cut))
      let full := decide (ps.length < want.length)
      ((want.zip ps).foldl (fun s e => stageHome s m a l' e.1 e.2.2) (stageHold s (a.src, a.handle, l') full), full)) (s, false)).1

/-- Space in staging has come free: the prefetches held back are tried again (R207). -/
def stageRetry (s : State) : State :=
  if s.xch.stageHeld.isEmpty then s
  else
    let s := s.xch.layers.foldl (fun s e =>
      match s.ctx e.1 with
      | none => s
      | some x =>
        match modelOf s x with
        | none => s
        | some m => prefetch s x m e.2.layer (((e.2.shards.filter fun sh => decide (sh.serve = .fetch) || decide (sh.serve = .here)).flatMap (farCuts s x)))) s
    s.xch.serving.foldl (fun s e => match amGet e.2.msg.model s.sch.models with | some m => prefetchHome s m e.2.msg | none => s) s

/-- Releases the staged bolts of a layer of a request once no task of it needs them (R208). -/
def releaseStaged (s : State) (node h layer : Nat) : State :=
  if s.xch.staged.any fun g => g.node == node && g.handle == h && g.layer == layer then
    stageRetry { s with xch := { s.xch with staged := s.xch.staged.filter fun g => !(g.node == node && g.handle == h && g.layer == layer) } }
  else s

/-- The same of a request of this node, unless its layer is still in progress or a part of it computes (R208). -/
def releaseLayer (s : State) (h layer : Nat) : State :=
  if s.xch.parts.any (fun e => e.2.handle == h && e.2.layer == layer) || (match s.layer h with | some L => L.layer == layer | none => false) then s
  else releaseStaged s s.nodeId h layer

/-- The bolt entry of a cut in a working buffer. -/
def stagedRef (g : Staged) (h : Nat) : BoltRef := ⟨g.addrs.getD h 0, 32 * g.cut, g.entry.ring, 32⟩

/-- The bolt entry of a full cut for a task of this node's own: in place, or in its working buffer. -/
def fullRef (s : State) (x : Ctx) (m : Model) (layer h k : Nat) : BoltRef :=
  match stagedOf s s.nodeId x.handle layer k with
  | some g => if (x.cut k).node = s.nodeId then cutRef s m (x.cut k) layer h k else stagedRef g h
  | none => cutRef s m (x.cut k) layer h k

/-- Bolt entries of the open cut and, in a verification step, of the tentative tail (R118, R137). -/
def hotRefs (s : State) (x : Ctx) (m : Model) (L : StepLayer) (h : Nat) : List BoltRef :=
  let last := L.pos0 + L.count
  let open1 : List BoltRef := match x.openSlot with
    | some i =>
      let k := x.cutCount
      let need := if L.kind = 3 then L.pos0 - 32 * k else min 32 (last - 32 * k)
      if need = 0 then [] else [⟨boltLocal s m i L.layer h k, 32 * k, s.tir.localIds.ringOf i, need⟩]
    | none => []
  let more := x.ahead.zipIdx.flatMap fun e =>
    let k := x.cutCount + 1 + e.2
    if L.kind ≠ 3 ∧ 32 * k < last then [(⟨boltLocal s m e.1 L.layer h k, 32 * k, s.tir.localIds.ringOf e.1, min 32 (last - 32 * k)⟩ : BoltRef)] else []
  let tent : List BoltRef := match x.tentSlot with
    | some i => if L.kind = 3 then (List.range ((L.count + 31) / 32)).map fun j =>
        ⟨boltLocal s m i L.layer h x.cutCount + j * slotBytes m.format m.hdim * (m.layers * boltsOn m.kvHeads (sliceGroup m.kvHeads x.cutCount) (boltStack m h x.cutCount)),
         L.pos0 / 32 * 32, s.tir.localIds.ringOf i, min 32 (L.count - 32 * j)⟩ else []
    | none => []
  open1 ++ more ++ tent

/-- The task identity of a layer's own tasks (R251); one with no merge slot names none (R245). -/
def layerFor (s : State) (x : Ctx) (L : StepLayer) (kind shard : Nat) (part : Option Nat) : TaskFor :=
  { kind := kind, handle := x.handle, tenant := x.tenant, model := x.model, layer := L.layer, lclass := x.lclass, flowKey := x.handle,
    flow := bits x.handle 0 21, shard := shard, attend := none, part := part,
    mergeKey := if L.merge.isSome then mergeKey s else 0, mergeSlot := L.merge.getD 0,
    mergeUse := (match L.merge with | some k => (match amGet k s.xch.merges with | some M => M.use | none => 0) | none => 0),
    mergeNode := if L.merge.isSome then s.nodeId else 0 }

/-- Issues the tasks of a shard of a step computed here (R118, R123, R132): the open cut and the tentative tail are the local shard's. -/
def issueStep (s : State) (x : Ctx) (m : Model) (L : StepLayer) (sh : Shard) (part : Nat) : State × List Nat :=
  let ks := isort (fun a b => decide (a ≤ b)) sh.cuts
  let refs (h : Nat) : List BoltRef := ks.map (fullRef s x m L.layer h) ++ (if sh.serve = .here then hotRefs s x m L h else [])
  issueTasks s m (layerFor s x L 1 sh.index (some part)) (layerInfo m L L.count) (ks.headD x.cutCount) (entryRows s L m).1 (fun _ => []) refs

/-- Query blocks of 64 positions of a prefill chunk-layer (R176): each is a task set over the keys up to its own end. -/
def issuePrefill (s : State) (x : Ctx) (m : Model) (L : StepLayer) (sh : Shard) (part : Nat) : State × List Nat :=
  let d := hdimOf m.hdim
  let w := d * qinBytes (bits L.formats 0 2)
  let q := (entryRows s L m).1
  (List.range ((L.count + 63) / 64)).foldl (fun (p : State × List Nat) b =>
    let n := min 64 (L.count - 64 * b)
    let LB := { L with pos0 := L.pos0 + 64 * b, count := n }
    let ks := (isort (fun a b => decide (a ≤ b)) sh.cuts).filter fun k => decide (32 * k < LB.pos0 + n)
    let refs (h : Nat) : List BoltRef := ks.map (fullRef s x m L.layer h) ++ hotRefs p.1 x m LB h
    let r := issueTasks p.1 m (layerFor p.1 x L 2 sh.index (some part)) (layerInfo m LB n) (ks.headD x.cutCount) ((q.drop (64 * b * m.qHeads * w)).take (n * m.qHeads * w)) (headRows (entryRows s L m).2 m w (64 * b) n) refs
    let shift := 64 * b * m.qHeads
    let s := r.2.foldl (fun s t => { s with xch := { s.xch with tasks := amMod t (fun T => { T with rowIdx := T.rowIdx.map (· + shift) }) s.xch.tasks } }) r.1
    (s, p.2 ++ r.2)) (s, [])

/-- Whether a shard of a layer still waits for bolts from elsewhere (R210). -/
def waitsBolts (sh : Shard) : Bool := (decide (sh.serve = .fetch) || decide (sh.serve = .here) || decide (sh.serve = .reading)) && sh.part.isNone && !sh.arrived

/-- Takes up the computing of a shard here: its bolts that lie elsewhere are read, and those of the coming layers ahead of use (R132, R207). With all of them in, its tasks are issued; until then the step waits under ST_REMOTE_LATE (R209, R210), as its tasks do under ST_CXL_LATE for bolts of this node's T2. The one shard of a prefill chunk takes in every full cut that a row of it may see. -/
def tryShard (s : State) (x : Ctx) (m : Model) (L : StepLayer) (i : Nat) : State :=
  match L.shards.find? fun sh => sh.index == i with
  | none => s
  | some sh =>
    if sh.part.isSome ∨ sh.arrived ∨ (sh.serve ≠ .here ∧ sh.serve ≠ .fetch) then s
    else
      let far := farCuts s x sh
      let missing := far.filter fun k => (stagedOf s s.nodeId x.handle L.layer k).isNone
      let s := fetchBolts s x m L.layer (missing.map fun k => (k, none))
      let s := if L.kind = 2 then s else prefetch s x m L.layer far
      if far.any fun k => (match stagedOf s s.nodeId x.handle L.layer k with | some g => g.read.isSome | none => true) then
        stallBegin s x.handle St.remoteLate
      else
        let n := s.xch.nextPart
        let s := { s with xch := { s.xch with nextPart := n + 1 } }
        let r := if L.kind = 2 then issuePrefill s x m L sh n else issueStep s x m L sh n
        let slot := match L.merge with
          | some k => (amGet k s.xch.merges).map fun M => (k, M.use)
          | none => none
        let P : Part := ⟨x.handle, L.layer, i, slot, L.count * m.qHeads, r.2, [], false⟩
        let L := modShard L i fun sh => { sh with part := some n }
        let s := { r.1 with xch := { r.1.xch with parts := amSet n P r.1.xch.parts } }.setLayer L
        let s := if r.2.any fun t => (match amGet t s.xch.tasks with | some T => T.late | none => false) then stallBegin s x.handle St.cxlLate else s
        if L.shards.any waitsBolts then s else stallClear s x.handle St.remoteLate

/-! ### Writing keys and values (R72, R120, R138, R409) -/

/-- The local slot that holds position p of a layer, its cut number, and the row: the open cut, a cut of the chunk ahead of it, or the tentative tail. -/
def kvTargets (x : Ctx) (L : StepLayer) : List (Nat × Nat × Nat × Nat) :=
  let ks := (List.range ((L.pos0 + L.count + 31) / 32)).filter fun k => decide (L.pos0 < 32 * (k + 1))
  ks.filterMap fun k =>
    let a := max L.pos0 (32 * k)
    let b := min (L.pos0 + L.count) (32 * (k + 1))
    let slot := if k = x.cutCount then x.openSlot else if x.cutCount < k then x.ahead[k - x.cutCount - 1]? else none
    match slot with
    | some i => if a < b then some (i, k, a - L.pos0, b - a) else none
    | none => none

/-- Issues the KVWRITE tasks of a layer (R263): for each bolt range and pack of heads, K rows then V rows of each head. -/
def issueKv (s : State) (x : Ctx) (m : Model) (L : StepLayer) : State × List Nat :=
  let w := hdimOf m.hdim * qinBytes (bits L.formats 0 2)
  let kv := entryRows s L m
  let ranges : List (Nat × Nat × Nat × Nat × Nat) :=
    if L.kind = 3 then match x.tentSlot with
      | some i => (List.range ((L.count + 31) / 32)).map fun j => (i, x.cutCount, 32 * j, min 32 (L.count - 32 * j), j)
      | none => []
    else (kvTargets x L).map fun t => (t.1, t.2.1, t.2.2.1, t.2.2.2, 0)
  ranges.foldl (fun p r =>
    let (i, k, off, n, j) := r
    (headPacks m k).foldl (fun (p : State × List Nat) pack =>
      let stride := slotBytes m.format m.hdim * (m.layers * boltsOn m.kvHeads (sliceGroup m.kvHeads k) pack.1)
      let first := if L.kind = 3 then L.pos0 / 32 * 32 else 32 * k
      let need := if L.kind = 3 then n else L.pos0 + off + n - 32 * k
      let refs := pack.2.map fun h => (⟨boltLocal s m i L.layer h k + j * stride, first, s.tir.localIds.ringOf i, need⟩ : BoltRef)
      let bytes := headRows kv.2 m w off n pack.2
      let mk (t : Nat) : Task :=
        { kind := 5, handle := x.handle, layer := L.layer, col := pack.1, cost := 96, lclass := x.lclass, flowKey := x.handle, since := s.now, front := false,
          record := taskRecord 5 pack.2.length L.layer x.handle x.model (pack.2.headD 0) x.tenant 1 (taskList t) 0 (taskKv t) 0 0 0 0 (kvTmpl m L.formats) 0 0 0 [],
          rowIdx := [], heads := pack.2, shard := 0, attend := none, expand := none, flow := bits x.handle 0 21, stand := none, counted := false,
          part := none, late := false, held := false, erred := false }
      let r := addTask p.1 mk [] bytes refs
      (r.1, p.2 ++ [r.2])) p) (s, [])

/-- Gives a request every local slot a chunk needs beyond its open cut (R197); none where the local area is full. -/
def slotsAhead (s : State) (x : Ctx) (m : Model) : Nat → Nat → Option (State × Ctx)
  | _, 0 => some (s, x)
  | n, fuel + 1 =>
    if n ≤ x.ahead.length then some (s, x)
    else
      match allocLocal s (cutBytesPerStack m (sliceGroup m.kvHeads (x.cutCount + 1 + x.ahead.length))) with
      | none => none
      | some (s, i, _) => slotsAhead s { x with ahead := x.ahead ++ [i] } m n fuel

/-- The local slot of a verification's tentative tail (R137): two bolts for every layer and head, on the stacks of the open cut. -/
def tentAlloc (s : State) (x : Ctx) (m : Model) : Option (State × Ctx) :=
  if x.tentSlot.isSome then some (s, x)
  else
    let k := x.cutCount
    match allocLocal s ((cutBytesPerStack m (sliceGroup m.kvHeads k)).map (2 * ·)) with
    | none => none
    | some (s, i, _) => some (s, { x with tentSlot := some i, tentRoot := boltLocal s m i 0 0 k })

/-- An accepted entry's layer begins (R409): local slots, then the tasks that write its keys and values. With no local slot free it waits under ST_LOCAL_FULL (R197). -/
def beginLayer (s : State) (x : Ctx) (m : Model) (L : StepLayer) : State :=
  let p := openCut s x
  let s := p.1
  let x := p.2
  match x.openSlot with
  | none => (s.setCtx x).setLayer L
  | some _ =>
    let last := L.pos0 + L.count
    let want := if L.kind = 3 then 0 else (last - 1) / 32 - x.cutCount
    match (slotsAhead s x m want (want + 1)).bind fun p => if L.kind = 3 then tentAlloc p.1 p.2 m else some p with
    | none => stallBegin ((s.setCtx x).setLayer L) x.handle St.localFull
    | some (s, x) =>
      let s := stallClear s x.handle St.localFull
      let s := match s.ctx x.handle with | some y => s.setCtx (x.stallUs y) | none => s
      let r := issueKv s x m L
      r.1.setLayer { L with kvTasks := r.2 }

/-- Begins the layers that wait for a local slot. -/
def retryLayers (s : State) : State :=
  (s.xch.layers.filter fun e => decide (e.2.stage = .writing) && e.2.kvTasks.isEmpty).foldl (fun s e =>
    match s.ctx e.1 with
    | none => s
    | some x => match modelOf s x with | some m => beginLayer s x m e.2 | none => s) s

/-! ### Bolts that could not be read (R202, R209) -/

/-- The cuts whose full bolts a request's own attention task lists. -/
def taskCuts (s : State) (x : Ctx) (t : Nat) (T : Task) : List Nat :=
  if T.kind ≠ 1 ∧ T.kind ≠ 2 then []
  else (((chunks 16 (s.rd (taskList t) (16 * leField T.record 0x14 4))).map fun b => leField b 8 4 / 32).filter fun k => decide (k < x.cuts.length)).eraseDups

/-- The bolt list of such a task as the cut map stands now (R202): a reader that comes late reads the entry again. -/
def taskRelist (s : State) (x : Ctx) (m : Model) (t : Nat) (T : Task) : List Byte :=
  let nb := leField T.record 0x14 4
  ((chunks 16 (s.rd (taskList t) (16 * nb * T.heads.length))).zipIdx).flatMap fun b =>
    let k := leField b.1 8 4 / 32
    if (T.kind = 1 ∨ T.kind = 2) ∧ k < x.cuts.length then (fullRef s x m T.layer (T.heads.getD (b.2 / max 1 nb) 0) k).bytes else b.1

/-- Places a held task of a request again, its list brought up to date; one whose bolts have gone to another node waits until they are read from there. -/
def taskAgain (s : State) (x : Ctx) (m : Model) (t : Nat) (T : Task) : State :=
  let far := (taskCuts s x t T).filter fun k => decide ((x.cut k).node ≠ s.nodeId)
  let s := fetchBolts s x m T.layer ((far.filter fun k => (stagedOf s s.nodeId x.handle T.layer k).isNone).map fun k => (k, none))
  if far.any fun k => (match stagedOf s s.nodeId x.handle T.layer k with | some g => g.read.isSome | none => true) then stallBegin s x.handle St.remoteLate
  else { s.wr (taskList t) (taskRelist s x m t T) with xch := { s.xch with tasks := amSet t { T with held := false } s.xch.tasks } }

/-- The tasks that unreadable bolts held back in a request's step are placed again, and the step no longer waits for those bolts (R209). -/
def boltsRetry (s : State) (h : Nat) : State :=
  let mine (T : Task) : Bool := T.handle == h && T.attend.isNone && T.expand.isNone && T.held
  match s.ctx h, (s.ctx h).bind (modelOf s) with
  | some x, some m =>
    if s.xch.tasks.any fun e => mine e.2 then
      let s := (s.xch.tasks.filter fun e => mine e.2).foldl (fun s e => taskAgain s x m e.1 e.2) s
      let s := [St.boltCrc, St.boltIdentity, St.stack].foldl (fun s c => stallClear s h c) s
      let s := if s.xch.tasks.any fun e => e.2.late && e.2.handle == h && e.2.attend.isNone then s else stallClear s h St.cxlLate
      if (s.xch.tasks.any fun e => mine e.2) || (match s.layer h with | some L => L.shards.any waitsBolts | none => false) then s
      else stallClear s h St.remoteLate
    else s
  | _, _ => s

/-- The same of every request: a link or a unit has come back (R388, R546). -/
def boltsRetryAll (s : State) : State :=
  (((s.xch.tasks.filter fun e => e.2.held).map fun e => e.2.handle).eraseDups).foldl boltsRetry s

/-- A task of a request's own step has met a bolt it cannot read. Where the cut map has changed since its list was made, it reads the new bolts (R202); else it is held and the step waits (R73, R209). -/
def taskHeld (s : State) (t : Nat) (T : Task) (dt : Nat) : State :=
  let T := { T with stand := none, front := true, held := true }
  let s := { s with xch := { s.xch with tasks := amSet t T s.xch.tasks } }
  match s.ctx T.handle, (s.ctx T.handle).bind (modelOf s) with
  | some x, some m =>
    if taskRelist s x m t T = s.rd (taskList t) (16 * leField T.record 0x14 4 * T.heads.length) then boltStall s T.handle dt else taskAgain s x m t T
  | _, _ => boltStall s T.handle dt

/-! ### Finishing a layer (R131, R409) -/

/-- The outputs of a layer: normalized rows in OUT_FMT, written to O_DEST on the window's path or to the slot's O area at ROW0 (R405, R409, R411). The rows are counted in the column of the first KV head in cut 0 (R131; DEDUCED, log 31). -/
def writeOutputs (s : State) (L : StepLayer) (m : Model) (rows : List PRow) : State :=
  let a := slotAddr s L.window L.slot
  let h := useHeader s L
  let bf := bits L.formats 6 2 == 1
  let w := hdimOf m.hdim * (if bf then 2 else 4)
  let out := rows.flatMap fun r => r.normalize bf
  let off := L.row0 * m.qHeads * w
  let s := if bit (leField h 0xA 2) 0 then s.wr (a + leField h 0x3C 4 + off) out
    else accelWrite s (winPort s L.window) (leField h 0x10 8 + off) out
  let st := 8 * boltStack m 0 0
  let s := s.cnt (Reg.STD_ATT_EMPTY_ROWS.at 0x10000 st) (rows.countP fun r => r.isEmpty)
  s.cnt (Reg.STD_ATT_NAN_ROWS.at 0x10000 st) (rows.countP fun r => r.poisoned)

/-- Starts the moves of every full cut still local, which a handoff then waits for (R199, R206). -/
def placeFilled (s : State) (x : Ctx) : State :=
  ((List.range x.cuts.length).filter (cutToPlace s x)).foldl (fun s k =>
    match s.ctx x.handle with
    | some x => placeCut s x k
    | none => s) s

/-- The last layer of a step or chunk is done (R46, R48, R142, R180): key-value state advances; a verification waits for COMMIT and a decode step for its TOKEN, also where a CANCEL waits for them; the last chunk of the prompt ends the phase, on a prompt node once the moves of its full cuts have begun (R199). What waited for it goes on. -/
def stepDone (s : State) (x : Ctx) (L : StepLayer) : State :=
  let x := { x with layer := 0, stepBusy := false, relWritten := false, chunkLen := 0 }.bump Ctr.steps 1
  if x.cop then copChunkDone (s.setCtx x) x else
  let pause (s : State) (x : Ctx) : State :=
    match x.pausePending with
    | some c =>
      let s := pauseNow (s.setCtx { x with pausePending := none }) { x with pausePending := none } c.isNone
      (match c with | some c => completeCmd s Op.PAUSE c { Done.ok with handle := x.handle } | none => s)
    | none => s
  if L.kind = 3 then
    let x := { x with verifyDone := true }
    let vc := x.verifyCmd
    let s := s.setCtx { x with verifyCmd := none }
    let s := match vc with | some c => completeCmd s Op.VERIFY c { Done.ok with handle := x.handle } | none => s
    match s.ctx x.handle with
    | some y => if y.pausePending.isSome then pause s y else s
    | none => s
  else
    let p := advanceKv s x L.count
    let s := p.1.setCtx p.2
    let x := p.2
    if L.kind ≠ 2 then s
    else
    match x.cancelPending with
    | some c => commitDone (s.setCtx { x with cancelPending := none }) { x with cancelPending := none } endCancelled (some (Op.CANCEL, c))
    | none =>
      if x.kvLen = x.promptLen then
        if s.role = rolePrompt then
          let s := placeFilled s x
          match s.ctx x.handle with
          | some x => promptDone s x
          | none => s
        else promptDone s x
      else s

/-- A layer's rows are all there: outputs written, merge slot done and freed, RESULT OK, the next layer expected (R131, R409), whose rows the step waits for where they are not in (R210); after the last layer the shards are formed anew (R133). -/
def layerDone (s : State) (m : Model) (L : StepLayer) (rows : List PRow) : State :=
  let s := writeOutputs s L m rows
  let s := match L.merge with
    | some k => (match amGet k s.xch.merges with | some M => freeMerge (setMerge s k M true) k | none => s)
    | none => s
  let s := releaseLayer { s with xch := { s.xch with layers := amErase L.handle s.xch.layers } } L.handle L.layer
  let s := setResult (stallEnd s L.handle) L.window L.slot L.entry 0 0
  match s.ctx L.handle with
  | none => s
  | some x =>
    if m.layers ≤ L.layer + 1 then stepDone { s with xch := { s.xch with regroup := amErase L.handle s.xch.regroup } } x L
    else
      match s.xch.queuedLayers.find? fun q => q.handle == L.handle with
      | none => stallBegin s L.handle St.exchange
      | some q =>
        let s := { s with xch := { s.xch with queuedLayers := s.xch.queuedLayers.filter fun r => r.handle != q.handle || r.layer != q.layer } }
        beginLayer s x m q

/-- ARRIVED has reached EXPECT (R130, R131). -/
def mergeDone (s : State) (k : Nat) (M : MSlot) : State :=
  match s.ctx M.handle, s.layer M.handle with
  | some x, some L =>
    (match modelOf s x with
     | none => s
     | some m =>
       let rb := 4 * M.d + 8
       let s := if M.det then
           (List.range M.expect).foldl (fun s i => mergeRows s k M.d (chunks rb (s.rd (detBlock s k M.d M.rows i) (M.rows * rb)))) s
         else s
       layerDone s m L ((List.range M.rows).map fun r => PRow.ofBytes M.d (mergeRow s k M.d r)))
  | _, _ => s

/-- A contribution to a merge slot (R127, R128, R130). -/
def contribute (s : State) (k use layer shard : Nat) (rows : List (List Byte)) : State :=
  match amGet k s.xch.merges with
  | none => s.cnt Reg.SCH_SPLIT_DISCARD_STALE 1
  | some M =>
    if M.use ≠ use ∨ M.layer ≠ layer then s.cnt Reg.SCH_SPLIT_DISCARD_STALE 1
    else if M.arrived.contains shard then s.cnt Reg.SCH_SPLIT_DISCARD_LATE 1
    else
      let M := { M with arrived := M.arrived ++ [shard] }
      let s := if M.det then s.wr (detBlock s k M.d M.rows shard) rows.flatten else mergeRows s k M.d rows
      let s := setMerge s k M false
      let s := match s.layer M.handle with
        | some L => s.setLayer (modShard L shard fun sh => { sh with arrived := true })
        | none => s
      if M.arrived.length = M.expect then mergeDone s k M else s

/-! ### Starting the attention of a layer (R118, R126, R409) -/

/-- Whether a home is marked fetched now (R132). -/
def markedFetched (s : State) (home : Nat) : Bool := match amGet home s.xch.fetched with | some t => decide (s.now < t) | none => false
/-- Marks a home fetched for HOLD_US (R132). -/
def markFetched (s : State) (home : Nat) : State :=
  { s with xch := { s.xch with fetched := amSet home (s.now + splitHoldNs s) s.xch.fetched } }

/-- A shard that nothing has been done for. -/
def freshShard (s : State) (i home : Nat) (cuts : List Nat) (serve : Serve) : Shard :=
  { index := i, home := home, cuts := cuts, sent := s.now, serve := serve, backedUp := false, denied := false, arrived := false, retryAt := 0, part := none }

/-- The shards of a step-layer (R118, R119): remote groups numbered from 0, the local shard last; groups beyond the 255th join the local shard as fetched ones under its index. A group is fetched where its home is marked (R132), or where it was read again earlier in the step (R133). -/
def stepShards (s : State) (x : Ctx) (m : Model) (pos0 : Nat) : List Shard :=
  let gs := remoteGroups s x m pos0
  let again := (amGet x.handle s.xch.regroup).getD []
  let near := (gs.take 255).zipIdx.map fun e =>
    freshShard s e.2 e.1.1 e.1.2 (if markedFetched s e.1.1 || e.1.2.any (fun k => again.any fun a => a.1 == k) then .fetch else .home)
  near ++ [freshShard s near.length s.nodeId (localCuts s x pos0 ++ (gs.drop 255).flatMap (·.2)) .here]

/-- Counts a shard that is fetched and computed here (R132). -/
def countFetched (s : State) : State := s.wrap Reg.SCH_SPLIT_FALLBACK_FETCHED 1

/-- Issues shard i of a layer as its `serve` says. -/
def issueShard (s : State) (x : Ctx) (m : Model) (L : StepLayer) (sh : Shard) : State :=
  match sh.serve with
  | .home => sendAttend s x m L sh
  | .fetch => tryShard (countFetched s) x m L sh.index
  | .here => tryShard (if (farCuts s x sh).isEmpty then s else countFetched s) x m L sh.index
  | _ => s

/-- Refuses a step whose shards have come to need more than the merge slot holds since it was issued (R126, log 142): the entry ends with MERGE_SIZE and the request enters PAUSED as a software pause. -/
def mergeRefused (s : State) (x : Ctx) (L : StepLayer) : State :=
  let s := { s with xch := { s.xch with layers := amErase L.handle s.xch.layers } }
  let x := { x with layer := L.layer }
  let s := setResult s L.window L.slot L.entry Status.fenced.code Detail.MERGE_SIZE
  let vc := x.verifyCmd
  let x := { x with verifyCmd := none }
  let s := match vc with | some c => completeCmd s Op.VERIFY c { Done.of .fenced Detail.MERGE_SIZE with handle := x.handle } | none => s
  pauseNow (s.setCtx x) x false

/-- Begins the attention of a layer whose keys and values are written: shards formed, merge slot taken, queries sent, local tasks issued. With no slot free the layer waits (R126). -/
def beginAttend (s : State) (x : Ctx) (m : Model) (L : StepLayer) : State :=
  if L.kind = 2 then
    let cuts := localCuts s x (L.pos0 + L.count) ++ (remoteGroups s x m L.pos0).flatMap (·.2)
    let L := { L with stage := .attending, shards := [freshShard s 0 s.nodeId cuts .here] }
    tryShard (s.setLayer L) x m L 0
  else
    let d := hdimOf m.hdim
    let shards := stepShards s x m L.pos0
    let rows := L.count * m.qHeads
    if !mergeFits s L.det d rows shards.length then mergeRefused s x L
    else
      match allocMerge s x L d m.hdim rows shards.length with
      | none =>
        if L.stage = .waitSlot then s
        else stallBegin ((s.setLayer { L with stage := .waitSlot }).cnt Reg.SCH_SPLIT_STALL_NO_SLOT 1) x.handle St.mergeSlot
      | some (s, k) =>
        let s := if L.stage = .waitSlot then stallClear s x.handle St.mergeSlot else s
        let L := { L with stage := .attending, merge := some k, shards := shards }
        shards.foldl (fun s sh => match s.layer x.handle with | some L => issueShard s x m L sh | none => s) (s.setLayer L)

/-- Starts the layers that wait for a merge slot, lowest handle first, while one is free. -/
def retryMerges (s : State) : State :=
  (s.xch.layers.filter fun e => decide (e.2.stage = .waitSlot)).foldl (fun s e =>
    match s.ctx e.1 with
    | none => s
    | some x => match modelOf s x with | some m => if (freeSlot s e.2.det).isSome then beginAttend s x m e.2 else s | none => s) s

/-! ### Tasks that end (R256) -/

/-- The rows a shard or a layer has gathered, if all of n are there. -/
def allRows (n : Nat) (got : AMap (List Byte)) : Option (List (List Byte)) :=
  if (List.range n).all fun i => amHas i got then some ((List.range n).map fun i => amGetD i [] got) else none

/-- Rows that a task's mv.reduce adds to those its shard has: the task's own rows in their order, each once. -/
def addRows (T : Task) (got : AMap (List Byte)) (rows : List (List Byte)) : AMap (List Byte) :=
  ((T.rowIdx.filter fun i => !amHas i got).zip rows).foldl (fun g e => amSet e.1 e.2 g) got

/-- A part's rows are all there: those of a step are one contribution to the merge slot they were computed for (R123, R127), whether or not that slot still waits for them. -/
def partSend (s : State) (n : Nat) : State :=
  match amGet n s.xch.parts with
  | none => s
  | some P =>
    match (if P.sent then none else allRows P.rows P.got), P.merge with
    | some rows, some (k, u) => contribute { s with xch := { s.xch with parts := amSet n { P with sent := true } s.xch.parts } } k u P.layer P.shard rows
    | _, _ => s

/-- The partial of an ATTEND goes back as soon as its rows are all there (R123, R253). -/
def serveSend (s : State) (n : Nat) : State :=
  match amGet n s.xch.serving with
  | none => s
  | some S =>
    match (if S.sent then none else amGet S.msg.model s.sch.models).bind fun m => allRows (S.msg.nodes * m.qHeads) S.got with
    | some rows =>
      ({ s with xch := { s.xch with serving := amSet n { S with sent := true } s.xch.serving } }).emit
        (.msg S.msg.src (.lsem S.msg.mergeKey S.msg.mergeSlot S.msg.mergeUse S.msg.layer S.msg.shard rows))
    | none => s

/-- Partial rows a task sends by mv.reduce (R253): they join the rows of its shard, whose contribution goes out with the last of them (R123; log 32). -/
def taskReduce (s : State) (T : Task) (rows : List (List Byte)) : State :=
  match T.attend, T.part with
  | some n, _ => serveSend { s with xch := { s.xch with serving := amMod n (fun S => { S with got := addRows T S.got rows }) s.xch.serving } } n
  | none, some n => partSend { s with xch := { s.xch with parts := amMod n (fun P => { P with got := addRows T P.got rows }) s.xch.parts } } n
  | none, none => s

/-- A task of a part has ended OK. With the last one the rows of a prefill chunk are normalized and written (R409), and the layer's bolts are released. -/
def partTaskDone (s : State) (n t : Nat) : State :=
  match amGet n s.xch.parts with
  | none => s
  | some P =>
    let P := { P with tasks := P.tasks.filter (· ≠ t) }
    if !P.tasks.isEmpty then { s with xch := { s.xch with parts := amSet n P s.xch.parts } }
    else
      let s := { s with xch := { s.xch with parts := amErase n s.xch.parts } }
      let s := match allRows P.rows P.got, P.merge with
        | some rows, none =>
          (match s.layer P.handle, (s.ctx P.handle).bind (modelOf s) with
           | some L, some m => if L.layer = P.layer then layerDone s m L (rows.map (PRow.ofBytes (hdimOf m.hdim))) else s
           | _, _ => s)
        | _, _ => s
      releaseLayer s P.handle P.layer

/-- A task of a request's layer has ended OK: one of a part, or a KVWRITE, with the last of which the layer's attention begins (R120). -/
def layerTaskDone (s : State) (T : Task) (t : Nat) : State :=
  match T.part with
  | some n => partTaskDone s n t
  | none =>
    match s.ctx T.handle, s.layer T.handle with
    | some x, some L =>
      (match modelOf s x with
       | none => s
       | some m =>
         if L.kvTasks.contains t then
           let L := { L with kvTasks := L.kvTasks.filter (· ≠ t) }
           if L.kvTasks.isEmpty then beginAttend (s.setLayer L) x m L else s.setLayer L
         else s)
    | _, _ => s

/-- A SHARD_STATUS for an ATTEND this node stops (R122). -/
def statusFor (s : State) (m : AttendMsg) (st : Status) (dt home : Nat) : State :=
  s.emit (.msg m.src (.shardStatus ⟨s.nodeId, m.mergeSlot, m.mergeUse, m.layer, m.shard, st.code, dt, home⟩))

/-- Ends the stall of an ATTEND for bolts in T2: its length goes to ST_CXL_LATE (R210, R211). The request is another node's, so no context of this one counts it. -/
def lateServed (s : State) (S : Serving) : State :=
  match S.late with
  | some t => s.cnt (Reg.TIR_STALL_COUNT_US.at 8 St.cxlLate) ((s.now - t) / 1000)
  | none => s

/-- A task has staged its bolts out of T2: with the last such task of its step or ATTEND the stall under ST_CXL_LATE ends (R210, R211). -/
def lateDone (s : State) (t : Nat) : State :=
  match amGet t s.xch.tasks with
  | none => s
  | some T =>
    if !T.late then s
    else
      let s := { s with xch := { s.xch with tasks := amSet t { T with late := false } s.xch.tasks } }
      if s.xch.tasks.any fun e => e.2.late && e.2.handle == T.handle && e.2.attend == T.attend then s
      else
        match T.attend with
        | none => stallClear s T.handle St.cxlLate
        | some n =>
          match amGet n s.xch.serving with
          | some S => lateServed { s with xch := { s.xch with serving := amSet n { S with late := none } s.xch.serving } } S
          | none => s

/-- A task of an ATTEND has ended, well or not: with the last one its bolts are released, and a SHARD_STATUS goes back where a task failed or rows are missing (R256, R257). -/
def serveTaskDone (s : State) (n t : Nat) (fail : Option (Nat × Nat)) : State :=
  match amGet n s.xch.serving with
  | none => s
  | some S =>
    let S := { S with tasks := S.tasks.filter (· ≠ t), failed := S.failed <|> fail }
    if !S.tasks.isEmpty then { s with xch := { s.xch with serving := amSet n S s.xch.serving } }
    else
      let s := lateServed { s with xch := { s.xch with serving := amErase n s.xch.serving } } S
      let s := releaseStaged s S.msg.src S.msg.handle S.msg.layer
      match S.failed with
      | some (st, dt) => statusFor s S.msg (statusOf st) dt 0
      | none => if S.sent then s else statusFor s S.msg .fenced Detail.STD_HALT 0

/-! ### ATTEND at a home (R122, R123) -/

/-- The parent table a cache node builds from DEPTH (R123): none where some node has no parent. -/
def depthTree (ds : List Nat) : Option (List Nat) :=
  if ds.getD 0 0 ≠ 0 then none
  else
    ds.zipIdx.foldl (fun (acc : Option (List Nat)) e =>
      match acc with
      | none => none
      | some l =>
        if e.2 = 0 then some [0xFF]
        else match ((List.range e.2).filter fun j => decide (ds.getD j 0 + 1 = e.1)).getLast? with
          | some j => some (l ++ [j])
          | none => none) (some [])

/-- The slots of an ATTEND's cuts that are not what their entries name (R122 step 3), by the slice groups of the pool. -/
def attendStale (s : State) (a : AttendMsg) : Bool :=
  a.cuts.any fun c => match amGet c.pool s.tir.pools with
    | some p => (findSlot s ⟨c.pool, sliceGroup p.kvHeads c.cut, c.slot, c.ring⟩).isNone
    | none => true

/-- The epoch rule for the body of an ATTEND (R421): an old one is answered with REDIRECT and counted, one two or more epochs ahead is dropped; once quiesced the node takes every one as old (R425). -/
def attendEpoch (s : State) (a : AttendMsg) (k : State) : State :=
  match (if s.r Reg.MGT_ROLE_DRAIN_QUIESCED = 1 then .old else epochView s a.epoch) with
  | .current => k
  | .old => (statusFor s a .redirect 0 s.redirectNode).cnt Reg.MGT_MAP_COUNT_REDIRECTS 1
  | .ahead => s.cnt Reg.MGT_MAP_COUNT_AHEAD 1

/-- The tasks of an ATTEND this node computes over the bolts listed (R123, R251), and its entry among those served. Bolts that lie in T2 stall it under ST_CXL_LATE until they are staged (R207). -/
def serveTasks (s : State) (a : AttendMsg) (m : Model) (tree : List Nat) (refs : Nat → List BoltRef) : State :=
  let n := s.xch.nextServe
  let info : AttInfo := { formats := a.formats, qPos0 := a.qPos0, nodes := a.nodes, window := a.window, sinks := a.sinks, smScale := a.smScale, tree := tree }
  let f : TaskFor := { kind := 3, handle := a.handle, tenant := a.tenant, model := a.model, layer := a.layer, lclass := 0, flowKey := 2 ^ 40 + n,
                       flow := bits a.layer 0 8 * 2 ^ 18 + a.src, shard := a.shard, attend := some n, part := none, mergeKey := a.mergeKey,
                       mergeSlot := a.mergeSlot, mergeUse := a.mergeUse, mergeNode := a.src }
  let r := issueTasks s m f info ((a.cuts.map (·.cut)).headD 0) a.q (fun _ => []) refs
  let s := r.1
  let late := r.2.any fun t => match amGet t s.xch.tasks with | some T => T.late | none => false
  let s := if late then s.cnt (Reg.TIR_STALL_COUNT_EVENTS.at 8 St.cxlLate) 1 else s
  { s with xch := { s.xch with serving := amSet n ⟨a, r.2, [], false, none, if late then some s.now else none⟩ s.xch.serving, nextServe := n + 1 } }

/-- A staged bolt of an ATTEND's cut is used while its entry is still the one the ATTEND names; else it is discarded and its bolts, which the tasks then read in place, are counted (R208). -/
def homeStaged (s : State) (a : AttendMsg) : State :=
  let old (g : Staged) : Bool := g.node == a.src && g.handle == a.handle && g.layer == a.layer
    && a.cuts.any fun c => c.cut == g.cut && decide (attEntry s c ≠ g.entry)
  let n : Nat := ((s.xch.staged.filter old).map fun g => g.addrs.length).sum
  if n = 0 then s
  else ({ s with xch := { s.xch with staged := s.xch.staged.filter fun g => !old g } }).cnt Reg.TIR_PREFETCH_MISC_REFETCH n

/-- An ATTEND that has passed every check is computed (R123): one set of tasks over the listed cuts, staged or in place, with the coming layers of those in T2 read ahead (R207). -/
def attendRun (s : State) (a : AttendMsg) (m : Model) : State :=
  match (if a.nodes = 1 then some [] else depthTree a.depth) with
  | none => statusFor s a .fenced Detail.ATT_TREE 0
  | some tree =>
    let s := homeStaged s a
    let refs (h : Nat) : List BoltRef := a.cuts.map fun c =>
      match stagedOf s a.src a.handle a.layer c.cut with
      | some g => stagedRef g h
      | none => ⟨boltPool s m c.pool c.slot a.layer h c.cut, 32 * c.cut, c.ring, 32⟩
    let s := serveTasks (chargeClass s 0 (a.cuts.length * m.kvHeads * slotBytes m.format m.hdim)) a m tree refs
    prefetchHome s m a

/-- The checks of an ATTEND in their order (R122): epoch, role, slots, serve class; then its model (R123; DEDUCED, log 145). -/
def attendArrives (s : State) (a : AttendMsg) (go : Model → State) : State :=
  attendEpoch s a <|
  if !roleEnables s [roleCache, roleMixed] then statusFor s a .redirect 0 s.redirectNode
  else if attendStale s a then statusFor s a .stale Detail.SHARD_STALE 0
  else if classCapped s 0 then statusFor s a .noCredit Detail.SERVE_OVER 0
  else
    match amGet a.model s.sch.models with
    | none => statusFor s a .fenced Detail.SCH_MODEL 0
    | some m => go m

/-! ### When a shard does not answer (R132 to R136) -/

/-- The shard of a merge slot's step-layer. -/
def shardOf (s : State) (k shard : Nat) : Option (Ctx × Model × StepLayer × Shard) :=
  match amGet k s.xch.merges with
  | none => none
  | some M =>
    match s.ctx M.handle, s.layer M.handle with
    | some x, some L =>
      (match modelOf s x, L.shards.find? fun sh => sh.index == shard with
       | some m, some sh => some (x, m, L, sh)
       | _, _ => none)
    | _, _ => none

/-- Sends a backup ATTEND to the parity node of the shard's home (R134, R136). -/
def sendBackup (s : State) (x : Ctx) (m : Model) (L : StepLayer) (sh : Shard) : State :=
  let s := s.emit (.msg (Config.parityNode sh.home) (.attend (attendBody (attendFor s x m L sh true))))
  modCtx (s.wrap Reg.SCH_SPLIT_BACKUP_ISSUED_ISSUED 1) x.handle fun x => x.bump Ctr.backups 1

/-- Whether a backup of a shard may be sent: not to a node marked fetched, which is sent no ATTEND (R132). -/
def backupOpen (s : State) (sh : Shard) : Bool := !markedFetched s (Config.parityNode sh.home)

/-- Fetches a shard and computes it here under its old index (R132, R133). -/
def fetchShard (s : State) (x : Ctx) (m : Model) (L : StepLayer) (i : Nat) : State :=
  let L := modShard L i fun sh => { sh with serve := if sh.home = s.nodeId then .here else .fetch }
  tryShard (countFetched (s.setLayer L)) x m L i

/-- Reads the cut-map entries of a shard again at the record home (R133, R136). -/
def rereadShard (s : State) (x : Ctx) (L : StepLayer) (i : Nat) : State :=
  let s := s.setLayer (modShard L i fun sh => { sh with serve := .reading })
  let p := addCommit s { commitOf x (.shardRead i) 0 0 none with reread := true }
  p.1.emit (.msg x.recNode (.readWord x.record none))

/-- The stall causes of a request's shards that no shard of its layer holds any more end (R210, R211). -/
def shardStalls (s : State) (h : Nat) : State :=
  let shards := match s.layer h with | some L => L.shards | none => []
  let s := if shards.any fun sh => decide (sh.serve = .lost) then s else stallClear s h St.shardLost
  if shards.any waitsBolts then s else stallClear s h St.remoteLate

/-- A shard can be served by no route (R136). -/
def shardLost (s : State) (x : Ctx) (L : StepLayer) (sh : Shard) : State :=
  let s := s.setLayer (modShard L sh.index fun sh => { sh with serve := .lost, retryAt := s.now + splitHoldNs s })
  let s := postFault s { faultRec Src.scheduler Act.recorded 5 sh.index Status.fenced.code Detail.SHARD_LOST with handle := x.handle, node := sh.home }
  shardStalls (stallBegin (s.cnt Reg.SCH_SPLIT_STALL_SHARD_LOST 1) x.handle St.shardLost) x.handle

/-- The fetch of a shard has failed (R136): a backup is sent at once, without credit. The local shard, whose open cut no parity group holds, and a shard whose parity node is marked fetched have no backup and are lost (DEDUCED, log 143). -/
def fetchFailed (s : State) (x : Ctx) (m : Model) (L : StepLayer) (sh : Shard) : State :=
  if sh.serve = .here ∨ !backupOpen s sh then shardLost s x L sh
  else
    let L := modShard L sh.index fun sh => { sh with serve := .backup, backedUp := true }
    shardStalls (sendBackup (s.setLayer L) x m L sh) x.handle

/-- Whether a status names an entry that has changed, after which the entries are read again (R133). -/
def entriesOld (status : Nat) : Bool := status == Status.stale.code || status == Status.redirect.code

/-- SHARD_STATUS at the requester (R127, R132, R133, R136): STALE and REDIRECT have the shard's entries read again and its bolts fetched from the homes they name; any other status, a flushed ATTEND too, marks the home fetched and fetches the shard; a backup's refusal loses the shard. -/
def shardStatus (s : State) (m : ShardMsg) : State :=
  match amGet m.slot s.xch.merges with
  | none => s.cnt Reg.SCH_SPLIT_DISCARD_STALE 1
  | some M =>
    if M.use ≠ m.use ∨ M.layer ≠ m.layer then s.cnt Reg.SCH_SPLIT_DISCARD_STALE 1
    else if M.arrived.contains m.shard then s.cnt Reg.SCH_SPLIT_DISCARD_LATE 1
    else
      match shardOf s m.slot m.shard with
      | none => s
      | some (x, mo, L, sh) =>
        if sh.serve = .backup then (if m.src = Config.parityNode sh.home then shardLost s x L sh else s)
        else if sh.serve ≠ .home ∨ m.src ≠ sh.home then s
        else if entriesOld m.status then rereadShard s x L sh.index
        else fetchShard (markFetched s sh.home) x mo L sh.index

def execShardStatus (m : ShardMsg) (s : State) : Host.Outcome State Fault Refusal := nextOf s (fromNode s m.src (shardStatus s m))

/-- The entries of a shard as the record home gives them (R133): taken over, with the grouping of the step kept, and the shard is fetched from the homes they name. -/
def shardEntries (s : State) (h i : Nat) (cuts : List CutEntry) : State :=
  match s.ctx h, s.layer h with
  | some x, some L =>
    (match modelOf s x, L.shards.find? fun sh => sh.index == i with
     | some m, some sh =>
       if sh.serve ≠ .reading then s
       else
         let keep := (sh.cuts.filter fun k => decide (groupHome s x k ≠ s.nodeId)).map fun k => (k, groupHome s x k)
         let old := ((amGet h s.xch.regroup).getD []).filter fun e => !sh.cuts.contains e.1
         let x := sh.cuts.foldl (fun x k => match cuts[k]? with | some e => x.setCut k e | none => x) x
         let s := { s with xch := { s.xch with regroup := amSet h (old ++ keep) s.xch.regroup } }.setCtx x
         shardStalls (fetchShard s x m L i) h
     | _, _ => s)
  | _, _ => s

/-- STRAGGLER_US in ns: below 5 acts as 5. -/
def stragglerNs (s : State) : Nat := max 5 (s.r Reg.SCH_SPLIT_CFG_STRAGGLER_US) * 1000

/-- STRAGGLER_TIMEOUT (R134, R135): a shard past the threshold with half of the remote shards in gets a backup for one credit, or is counted as denied. -/
def stragglerTimeout (s : State) (h i : Nat) : State :=
  match s.ctx h, s.layer h with
  | some x, some L =>
    (match modelOf s x, L.shards.find? fun sh => sh.index == i with
     | some m, some sh =>
       let remote := L.shards.filter fun sh => decide (sh.serve ≠ .here)
       let inN := remote.countP fun sh => sh.arrived
       if L.merge.isNone ∨ sh.serve ≠ .home ∨ sh.arrived ∨ sh.backedUp ∨ sh.denied ∨ s.now < sh.sent + stragglerNs s ∨ 2 * inN < remote.length
         ∨ !backupOpen s sh then s
       else if s.xch.credit < 10000 then
         (s.setLayer (modShard L i fun sh => { sh with denied := true })).wrap Reg.SCH_SPLIT_BACKUP_DENIED_DENIED 1
       else
         let s := setCredit s (s.xch.credit - 10000)
         let L := modShard L i fun sh => { sh with backedUp := true }
         sendBackup (s.setLayer L) x m L sh
     | _, _ => s)
  | _, _ => s

def execStragglerTimeout (handle shard : Nat) (s : State) : Host.Outcome State Fault Refusal := nextOf s (stragglerTimeout s handle shard)

/-- A lost shard is tried again by R133 (R136). -/
def shardRetry (s : State) (h i : Nat) : State :=
  match s.ctx h, s.layer h with
  | some x, some L => if L.shards.any fun sh => sh.index == i && decide (sh.serve = .lost) then rereadShard s x L i else s
  | _, _ => s

/-- Entry k of a request has changed: a lost shard that holds it is tried again (R136), and tasks that a bad bolt held back are placed again. -/
def entryChanged (s : State) (h k : Nat) : State :=
  let s := boltsRetry s h
  match s.layer h with
  | none => s
  | some L => ((L.shards.filter fun sh => decide (sh.serve = .lost) && sh.cuts.contains k).map (·.index)).foldl (fun s i => shardRetry s h i) s

/-- The record home's answer to a shard's read of its entries (R133): with none settled the read is sent again; a record that cannot be read loses the shard (DEDUCED, log 143). -/
def shardAnswer (s : State) (id i : Nat) (cm : Commit) (a : AtomicResp) : State :=
  let drop : State := { s with sch := { s.sch with commits := amErase id s.sch.commits } }
  if a.status = Status.indeterminate.code ∨ a.status = Status.errorFlushed.code ∨ a.status = Status.pending.code then
    s.emit (.msg cm.record.node (.readWord cm.record none))
  else
    match (if a.status = Status.ok.code then a.view else none) with
    | some v => shardEntries drop cm.handle i v.cuts
    | none =>
      match drop.ctx cm.handle, drop.layer cm.handle with
      | some x, some L =>
        (match L.shards.find? fun sh => sh.index == i && decide (sh.serve = .reading) with
         | some sh => shardLost drop x L sh
         | none => drop)
      | _, _ => drop

/-- An answer from a record home: to a shard's read, or to a commit (R45), with which an entry may have changed (R136). -/
def recordAnswer (s : State) (id : Nat) (a : AtomicResp) : State :=
  match amGet id s.sch.commits with
  | none => s
  | some cm =>
    match cm.kind with
    | .shardRead i => shardAnswer s id i cm a
    | k =>
      let s := commitResp s id a
      match k.cut with
      | some c => if cm.handle = 0 ∨ amHas id s.sch.commits then s else entryChanged s cm.handle c
      | none => s

/-- SHARD_HOLD_EXPIRY (R132, R136): a fetched mark ends; a lost shard of the layer is tried again after HOLD_US. -/
def shardHoldExpiry (s : State) (home h layer i : Nat) : State :=
  let s := match amGet home s.xch.fetched with
    | some t => if t ≤ s.now then { s with xch := { s.xch with fetched := amErase home s.xch.fetched } } else s
    | none => s
  match s.layer h with
  | some L => if L.layer == layer && L.shards.any fun sh => sh.index == i && decide (sh.retryAt ≤ s.now) then shardRetry s h i else s
  | none => s

def execShardHoldExpiry (home handle layer shard : Nat) (s : State) : Host.Outcome State Fault Refusal :=
  nextOf s (shardHoldExpiry s home handle layer shard)

/-! ### Answers to the controller's own reads of bolts (R132, R136, R207, R208) -/

/-- Reads a layer of a cut again into the buffer that holds it, under the entry's value now (R208); a cut that has come home is copied. -/
def restage (s : State) (x : Ctx) (m : Model) (g : Staged) : State :=
  let e := x.cut g.cut
  let put (s : State) (r : Option Nat) : State := { s with xch := { s.xch with staged := s.xch.staged.map fun q =>
    if q.node == g.node && q.handle == g.handle && q.layer == g.layer && q.cut == g.cut then { q with entry := e, read := r } else q } }
  let size := slotBytes m.format m.hdim
  if e.node = s.nodeId then
    put (g.addrs.zipIdx.foldl (fun s a => s.wr a.1 (s.rd (cutRef s m e g.layer a.2 g.cut).addr size)) s) none
  else
    let r := s.xch.nextRead
    let s := put { s with xch := { s.xch with nextRead := r + 1, reads := amSet r ⟨.staged g.handle g.layer, 0, m.kvHeads * size⟩ s.xch.reads } } (some r)
    s.emit (.msg e.node (.fetch r x.model g.layer [(g.cut, slotName s x g.cut e)]))

/-- Goes on with the shards of a request's layer that wait for bolts. -/
def tryShards (s : State) (h : Nat) : State :=
  match s.layer h with
  | none => s
  | some L => L.shards.foldl (fun s sh =>
      match s.ctx h, s.layer h with
      | some x, some L => (match modelOf s x with | some m => tryShard s x m L sh.index | none => s)
      | _, _ => s) s

/-- Bolts that a read brought: each goes to its place in the buffer of its cut. -/
def stagedIn (s : State) (r : Nat) (m : Model) (bytes : List Byte) : State :=
  let size := slotBytes m.format m.hdim
  let mine := s.xch.staged.filter fun g => g.read == some r
  let s := mine.zipIdx.foldl (fun s e => e.1.addrs.zipIdx.foldl (fun s a =>
    s.wr a.1 ((bytes.drop ((e.2 * m.kvHeads + a.2) * size)).take size)) s) s
  { s with xch := { s.xch with staged := s.xch.staged.map fun g => if g.read == some r then { g with read := none } else g } }

/-- A read of bolts was refused: buffers that tasks name are filled again, the others are given up. Of the shards of the layer in progress that waited for them, FENCED or a queue pair's error is a failed fetch (R136), STALE and REDIRECT have the entries read again (R133), and any other answer has the bolts read again (DEDUCED, log 143). -/
def stagedRefused (s : State) (h layer r status : Nat) : State :=
  let mine := s.xch.staged.filter fun g => g.read == some r
  match s.ctx h with
  | none => s
  | some x =>
    match modelOf s x with
    | none => s
    | some m =>
      if s.xch.parts.any fun e => e.2.handle == h && e.2.layer == layer && mine.any fun g =>
          (match s.layer h with | some L => L.shards.any fun sh => sh.part == some e.1 && sh.cuts.contains g.cut | none => false) then
        mine.foldl (fun s g => restage s x m g) s
      else
        let s := { s with xch := { s.xch with staged := s.xch.staged.filter fun g => g.read != some r } }
        match s.layer h with
        | none => s
        | some L =>
          if L.layer ≠ layer then s
          else
            ((L.shards.filter fun sh => waitsBolts sh && sh.cuts.any fun k => mine.any fun g => g.cut == k).map (·.index)).foldl (fun s i =>
              match s.layer h with
              | none => s
              | some L =>
                match L.shards.find? fun sh => sh.index == i with
                | none => s
                | some sh =>
                  if L.kind = 2 then tryShard s x m L i
                  else if status = Status.fenced.code ∨ status = Status.errorFlushed.code then fetchFailed s x m L sh
                  else if entriesOld status then rereadShard s x L i
                  else tryShard s x m L i) s

/-- The answer to a read of staged bolts. -/
def stagedAnswer (s : State) (h layer r status : Nat) (whole : Bool) (bytes : List Byte) : State :=
  if status = Status.ok.code ∧ whole then
    match (s.ctx h).bind (modelOf s) with
    | some m => boltsRetry (tryShards (stagedIn s r m bytes) h) h
    | none => s
  else stagedRefused s h layer r status

/-- A contribution from another node reaches its merge slot (R127, R134): one that a backup won is counted. -/
def remoteContribution (s : State) (src k use layer shard : Nat) (rows : List (List Byte)) : State :=
  let won := match shardOf s k shard with
    | some (_, _, _, sh) => sh.backedUp && !sh.arrived && decide (src ≠ sh.home)
    | none => false
  let s := if won && (match amGet k s.xch.merges with | some M => M.use == use && M.layer == layer | none => false)
    then s.wrap Reg.SCH_SPLIT_BACKUP_WON_WON 1 else s
  contribute s k use layer shard rows

end Sys2Proof.Machine
end

