-- ==== Sys2Proof/Machine/Exchange.lean ====
section
/-! DEFINITION. Exchange windows (spec/16): what an accelerator writes, releases, doorbells and their checks, entries, and completion flags. -/

namespace Sys2Proof.Machine

/-- Counts a write or doorbell discarded at a window (HIF_XW_COUNT.MISUSE). -/
def xwMisuse (s : State) (w : Nat) : State := s.cnt (Reg.HIF_XW_COUNT_MISUSE.at 0x40 w) 1

/-- A doorbell or doorbell-page write discarded under R403 or R406: counted, and bit w of HIF_XW_EVENT set. -/
def xwBad (s : State) (w : Nat) : State :=
  let s := xwMisuse s w
  let v := s.r Reg.HIF_XW_EVENT_DOORBELL
  if bit v w then s else eventMessage (s.setR Reg.HIF_XW_EVENT_DOORBELL (v + 2 ^ w)) 2

/-- Whether a write on a path reaches window w (R398). -/
def xwReached (s : State) (w path : Nat) : Bool := winOn s w && path == winPort s w

/-! ### Enabling (R398) -/

/-- Whether the slots of a window fit in it (R400). -/
def slotsFit (slots size : Nat) : Bool := decide (0x10000 + slots * size ≤ 0x10000000)

/-- Binds the releases that found no window of this model (R401). -/
def bindUnbound (s : State) (model : Nat) : State :=
  let mine (r : Release) : Bool := match s.ctx r.handle with | some x => x.model == model | none => false
  let go := s.xch.unbound.filter mine
  let s := { s with xch := { s.xch with unbound := s.xch.unbound.filter fun r => !mine r } }
  go.foldl (fun s r => queueRelease s r.handle model r) s

/-- A write of HIF_XW_CFG of window w (R398, R400, R471, R542). -/
def xwEnableWrite (s : State) (w v : Nat) : State :=
  if winOn s w then
    if bit v 63 then s
    else
      let s := s.setR (Reg.HIF_XW_CFG_ENABLE.at 0x40 w) 0
      ((s.win w).waiting.filter fun r => r.kind != 4).foldl (fun s r => stallBegin s r.handle St.exchange) s
  else
    let size := max 1 (bits v 32 16) * 65536
    let slots := min 64 (max 2 (bits v 48 8))
    if !slotsFit slots size then s
    else
      let model := bits v 0 16
      let s := s.setR (Reg.HIF_XW_CFG_PORT.at 0x40 w) (bits v 56 4)
      let s := s.setR (Reg.HIF_XW_CFG_SLOTS.at 0x40 w) (bits v 48 8)
      let s := s.setR (Reg.HIF_XW_CFG_SLOT_64K.at 0x40 w) (bits v 32 16)
      let s := s.setR (Reg.HIF_XW_CFG_MODEL.at 0x40 w) model
      let closed := s.r Reg.KEY_POLICY_REQUIRE_IDE == 1 && decide (winPort s w < 8) && !portSecure s (winPort s w)
      if !bit v 63 || model == 0 || !amHas model s.sch.models || closed
        || (decide (winPort s w < 8) && s.r (Reg.HIF_FLEX_CFG_MODE.at 0x20 (winPort s w)) == 2) then s
      else
        let s := s.setR (Reg.HIF_XW_CFG_ENABLE.at 0x40 w) 1
        bindUnbound (s.setWin w { s.win w with rcount := 0, rhead := 0, dcount := 0 }) model

def execXwEnableWrite (w v : Nat) (s : State) : Host.Outcome State Fault Refusal := withUnit s (w < 64) (xwEnableWrite s w v)

/-! ### Releases (R402 to R404) -/

/-- RHEAD: the accelerator reports what it has consumed (R403). -/
def xwRhead (s : State) (w path v : Nat) : State :=
  if !xwReached s w path then xwMisuse s w
  else
    let W := s.win w
    let d := (v + 2 ^ 32 - W.rhead % 2 ^ 32) % 2 ^ 32
    if 2 ^ 32 ≤ v ∨ W.rcount - W.rhead < d then xwBad s w
    else s.setWin w { W with rhead := W.rhead + d }

def execRhead (w path v : Nat) (s : State) : Host.Outcome State Fault Refusal := withUnit s (w < 64) (xwRhead s w path v)

/-- The extended or accelerator address of record number n from 1, and whether it is the inline ring. -/
def relSlot (s : State) (w n : Nat) : Nat × Bool :=
  let dst := s.r (Reg.HIF_XW_REL_REL_DEST.at 0x40 w)
  if dst = 0 then (winBase s w + 0x2000 + 32 * ((n - 1) % winRing s w), true)
  else (dst * 32 + 32 * ((n - 1) % winRing s w), false)

/-- Releases that find the ring full are counted once each; their requests stall under ST_EXCHANGE (R403), as they have since the release (R210). -/
def relWaits (s : State) (w : Nat) : State :=
  let W := s.win w
  let new := W.waiting.filter fun r => !r.counted && r.kind != 4
  let s := s.cnt (Reg.HIF_XW_COUNT_REL_WAIT.at 0x40 w) new.length
  let s := s.setWin w { W with waiting := W.waiting.map fun r => { r with counted := true } }
  new.foldl (fun s r => stallBegin s r.handle St.exchange) s

/-- RELEASE_RECORD_WRITE: the oldest waiting release of an enabled window is written once its ring has space (R402, R403). -/
def releaseRecordWrite (s : State) (w : Nat) : State :=
  let W := s.win w
  match W.waiting with
  | [] => s
  | r :: rest =>
    if !winOn s w then s
    else if winRing s w ≤ W.rcount - W.rhead then relWaits s w
    else
      let n := W.rcount + 1
      let img := releaseBytes (n % 2 ^ 32) r.kind r.lclass (s.r (Reg.HIF_XW_CFG_MODEL.at 0x40 w)) r.handle r.pos0 r.count r.tag
      let at_ := relSlot s w n
      let s := if at_.2 then s.wr at_.1 img else accelWrite s (winPort s w) at_.1 img
      let s := s.setWin w { W with rcount := n, waiting := rest }
      if r.kind = 4 then s
      else
        modCtx s r.handle fun x => { x with relWritten := true }

def execReleaseRecordWrite (w : Nat) (s : State) : Host.Outcome State Fault Refusal := withUnit s (w < 64) (releaseRecordWrite s w)

/-! ### Doorbells, headers and entries (R405 to R409) -/

/-- The entries of a slot's entry table as the controller reads them at acceptance. -/
def slotEntries (s : State) (a n : Nat) : List SlotEntry :=
  (List.range n).map fun i =>
    let e := s.rd (a + 0x100 + 16 * i) 16
    { handle := leField e 0 4, pos0 := leField e 4 4, count := leField e 8 2, row0 := leField e 0xC 4, result := none }

/-- Whether two position ranges of a slot meet. -/
def rowsMeet (a b : SlotEntry) : Bool := decide (a.row0 < b.row0 + b.count) && decide (b.row0 < a.row0 + a.count)

/-- Whether no two entries overlap. -/
def rowsApart : List SlotEntry → Bool
  | [] => true
  | e :: l => l.all (fun f => !rowsMeet e f) && rowsApart l

/-- The header checks of R407: SEQ, ranges, zero fields, COUNT and overlap, areas within the slot, and no fence on the host port. -/
def headerOk (s : State) (w : Nat) (m : Model) (seq : Nat) (h : List Byte) (es : List SlotEntry) : Bool :=
  let f := leField h 7 1
  let kind := leField h 6 1
  let n := leField h 8 2
  let oLocal := bit (leField h 0xA 2) 0
  let q := leField h 0x30 4
  let k := leField h 0x34 4
  let v := leField h 0x38 4
  let o := leField h 0x3C 4
  let d := hdimOf m.hdim
  let wi := d * qinBytes (bits f 0 2)
  let wo := d * (if bits f 6 2 = 1 then 2 else 4)
  let rows := es.foldl (fun a e => max a (e.row0 + e.count)) 0
  let size := winSlotSize s w
  leField h 0 4 == seq && decide (leField h 4 2 < m.layers) && decide (1 ≤ kind) && decide (kind ≤ 3)
  && bits f 0 2 != 3 && bits f 2 2 != 3 && decide (bits f 6 2 < 2)
  && decide (1 ≤ n) && decide (n ≤ 4096) && (kind != 2 || n == 1) && decide (leField h 0xA 2 < 2) && leField h 0xC 4 == 0
  && (!oLocal || leField h 0x10 8 == 0) && leField h 0x18 8 % 16 == 0
  && q % 64 == 0 && k % 64 == 0 && v % 64 == 0 && o % 64 == 0 && (oLocal || o == 0) && allZero (h.drop 0x50)
  && es.all (fun e => decide (1 ≤ e.count) && decide (e.count ≤ 8192)) && rowsApart es
  && decide (q + rows * m.qHeads * wi ≤ size) && decide (k + rows * m.kvHeads * wi ≤ size) && decide (v + rows * m.kvHeads * wi ≤ size)
  && (!oLocal || decide (o + rows * m.qHeads * wo ≤ size))
  && (winPort s w != 15 || allZero ((h.drop 0x20).take 16))

/-- What a request's current step is: a verification, a prefill chunk or a decode step. -/
def stepKind (x : Ctx) : Nat :=
  if x.verifyN ≠ 0 ∧ !x.verifyDone then 3
  else if x.phase = .prefill ∨ (x.phase = .paused ∧ !x.resumeDecode) then 2 else 1

/-- Whether an entry matches a released step that is not withdrawn (R408 step 4): its record is written and no WITHDRAW has followed (log 33). -/
def entryReleased (s : State) (w : Nat) (x : Ctx) (kind layer : Nat) (e : SlotEntry) : Bool :=
  ((x.stepBusy && x.relWritten) || (x.phase == .paused && (s.win w).waiting.any fun r => r.handle == x.handle && r.kind == 4 && r.pos0 == x.kvLen))
  && kind == stepKind x && e.pos0 == x.kvLen && e.count == x.chunkLen && layer == x.layer

/-- The checks of an entry in order (R408): its context and model, or the RESULT that ends it. The working context of a coppice job takes rows as an owner's does (R84). -/
def entryCheck (s : State) (w kind layer : Nat) (e : SlotEntry) (repeated : Bool) : Except (Nat × Nat) (Ctx × Model) :=
  match s.ctx e.handle with
  | none => .error (Status.stale.code, Detail.XCH_ORDER)
  | some x =>
    if !x.owner && !x.cop then .error (Status.redirect.code, 0)
    else if boundWin s e.handle ≠ some w ∨ x.model ≠ s.r (Reg.HIF_XW_CFG_MODEL.at 0x40 w) then .error (Status.fenced.code, Detail.XCH_WINDOW)
    else if repeated || !entryReleased s w x kind layer e then .error (Status.stale.code, Detail.XCH_ORDER)
    else if x.phase = .paused then .error (Status.conflict.code, Detail.XCH_PAUSED)
    else
      match modelOf s x with
      | some m => .ok (x, m)
      | none => .error (Status.fenced.code, Detail.XCH_WINDOW)

/-- Takes entry i of an accepted header (R408, R409): the expected layer advances at once; a layer accepted while the one before it runs waits for it. -/
def takeEntry (s : State) (w slot kind layer formats : Nat) (i : Nat) (e : SlotEntry) (repeated : Bool) : State :=
  match entryCheck s w kind layer e repeated with
  | .error r => setResult s w slot i r.1 r.2
  | .ok (x, m) =>
    let s := stallClear (s.setCtx { x with layer := x.layer + 1 }) x.handle St.exchange
    let x := (s.ctx x.handle).getD x
    let L : StepLayer :=
      { handle := x.handle, layer := layer, kind := kind, window := w, slot := slot, entry := i, row0 := e.row0, pos0 := e.pos0, count := e.count,
        formats := formats, tree := if kind = 3 then x.verifyTree else [], stage := .writing, merge := none, det := x.deterministic, shards := [], kvTasks := [] }
    if (s.layer x.handle).isSome then { s with xch := { s.xch with queuedLayers := s.xch.queuedLayers ++ [L] } }
    else beginLayer s x m L

/-- The EXPANDs in progress that a slot's WAIT_TAGs name (R412): JOB_TAG and PORT of their descriptors match. -/
def slotFences (s : State) (w : Nat) (h : List Byte) : List Nat :=
  let tags := ((List.range 4).map fun i => leField h (0x20 + 4 * i) 4).filter (· ≠ 0)
  (s.cdc.jobs.filter fun j => j.2.use == .expand && tags.contains (leField j.2.desc 0x2C 4) && leField j.2.desc 0x1D 1 == winPort s w).map (·.1)

/-- Accepts a doorbell (R406, R407): header and entry table read once and checked. -/
def acceptSlot (s : State) (w slot seq : Nat) : State :=
  let W := s.win w
  let a := slotAddr s w slot
  let h := s.rd a 256
  let n := leField h 8 2
  let counted := decide (1 ≤ n) && decide (n ≤ 4096)
  let es := if counted then slotEntries s a n else []
  let ok := match amGet (s.r (Reg.HIF_XW_CFG_MODEL.at 0x40 w)) s.sch.models with
    | some m => headerOk s w m seq h es
    | none => false
  let u : SlotUse := { slot := slot, seq := seq, hdr := h, bad := !ok, entries := es, fences := if ok then slotFences s w h else [],
                       weightFail := false, counted := false }
  let s := s.setWin w { W with dcount := W.dcount + 1, uses := amSet slot u W.uses }
  if ok then
    es.zipIdx.foldl (fun s e => takeEntry s w slot (leField h 6 1) (leField h 4 2) (leField h 7 1) e.2 e.1
      ((es.take e.2).any fun f => f.handle == e.1.handle)) s
  else (List.range es.length).foldl (fun s i => setResult s w slot i Status.fenced.code Detail.XCH_SLOT) s

/-- XW_DOORBELL (R406). -/
def xwDoorbell (s : State) (w path v : Nat) : State :=
  if !xwReached s w path then xwMisuse s w
  else
    let W := s.win w
    let seq := bits v 32 32
    let slot := bits v 0 8
    let dseq := W.dcount % 2 ^ 32
    if v < 2 ^ 64 ∧ bits v 8 24 = 0 ∧ seq = (dseq + 1) % 2 ^ 32 ∧ slot = (W.dcount + 1) % winSlots s w ∧ !amHas slot W.uses then
      acceptSlot s w slot seq
    else if (dseq + 2 ^ 32 - seq) % 2 ^ 32 < 2 ^ 31 then s.cnt (Reg.HIF_XW_COUNT_DUP.at 0x40 w) 1
    else xwBad s w

def execXwDoorbell (w path v : Nat) (s : State) : Host.Outcome State Fault Refusal := withUnit s (w < 64) (xwDoorbell s w path v)

/-! ### Accelerator writes and reads (R398 to R400) -/

/-- WINDOW_WRITE: a write on a path at an offset of window w. -/
def windowWrite (s : State) (w off path : Nat) (bytes : List Byte) : State :=
  if !xwReached s w path then xwMisuse s w
  else if off < 0x1000 then xwMisuse s w
  else if off < 0x2000 then
    if off = 0x1000 ∧ bytes.length = 8 then xwDoorbell s w path (leNat bytes)
    else if off = 0x1008 ∧ bytes.length = 8 then xwRhead s w path (leNat bytes)
    else xwBad s w
  else if off < 0x10000 ∨ 0x10000 + winSlots s w * winSlotSize s w < off + bytes.length then xwMisuse s w
  else s.wr (winBase s w + off) bytes

def execWindowWrite (w off path : Nat) (bytes : List Byte) (s : State) : Host.Outcome State Fault Refusal :=
  withUnit s (w < 64) (windowWrite s w off path bytes)

/-- What a read of n bytes on a path at an offset of window w returns (R398 to R400): no side effect. -/
def windowRead (s : State) (w off path n : Nat) : List Byte :=
  if !xwReached s w path then List.replicate n 0
  else (List.range n).map fun i =>
    let a := off + i
    if (0x20 ≤ a ∧ a < 0x2000) ∨ 0x10000 + winSlots s w * winSlotSize s w ≤ a then 0 else memRead s.mem (winBase s w + a)

/-! ### Completion flags (R410 to R412) -/

/-- The 16 bytes of a slot's completion flag (R410). -/
def flagBytes (u : SlotUse) : List Byte :=
  let bad := u.entries.zipIdx.filter fun e => e.1.result != some (0, 0)
  let first := match bad with
    | e :: _ => (e.1.result.getD (0, 0), e.2)
    | [] => ((0, 0), 0xFFFF)
  let st := if u.bad then (Status.fenced.code, Detail.XCH_SLOT) else first.1
  leBytes 4 u.seq ++ leBytes 1 st.1 ++ leBytes 1 st.2 ++ leBytes 2 bad.length ++ leBytes 2 first.2
  ++ leBytes 1 (1 + 2 * b2n u.weightFail) ++ leBytes 1 0 ++ (u.hdr.drop 4).take 2 ++ leBytes 2 0

/-- SLOT_FLAG_WRITE: with every RESULT and every fence met the flag is written and the slot is the accelerator's again (R410 to R412). -/
def slotFlagWrite (s : State) (w slot : Nat) : State :=
  let W := s.win w
  match amGet slot W.uses with
  | none => s
  | some u =>
    let ok := u.entries.filter fun e => e.result == some (0, 0)
    if u.entries.any fun e => e.result.isNone then s
    else if !u.fences.isEmpty then flagHeld s w slot
    else
      let img := flagBytes u
      let s := s.wr (slotAddr s w slot + 0x40) img
      let dst := leField u.hdr 0x18 8
      let s := if dst ≠ 0 ∧ !u.bad then accelWrite s (winPort s w) dst img else s
      let s := ok.foldl (fun s e => if u.counted then stallClear s e.handle St.stream else s) s
      s.setWin w { s.win w with uses := amErase slot (s.win w).uses }

def execSlotFlagWrite (w slot : Nat) (s : State) : Host.Outcome State Fault Refusal := withUnit s (w < 64) (slotFlagWrite s w slot)

/-- An EXPAND has ended: flags no longer wait for it, and one that did not end OK sets WEIGHT_FAIL (R412). -/
def fenceEnd (s : State) (job : Nat) (ok : Bool) : State :=
  { s with xch := { s.xch with wins := amMap (fun _ W => { W with uses := amMap (fun _ u =>
      if u.fences.contains job then { u with fences := u.fences.filter (· ≠ job), weightFail := u.weightFail || !ok } else u) W.uses }) s.xch.wins } }

end Sys2Proof.Machine
end

