-- ==== Sys2Proof/Machine/Keyhouse.lean ====
section
/-! DEFINITION. The Keyhouse's own commands and events (spec/19): import, destruction, information, salts, zeroization, self-test, entropy and tamper; SPDM and IDE_KM. -/

namespace Sys2Proof.Machine

/-! ### The key table (R455 to R463) -/

/-- The fingerprint of a secret (R461). -/
def fingerprint (secret : List Byte) : List Byte :=
  fit 8 (hmac384 (kdf 256 secret (label "EY fp") []) (label "EY fp 1"))

/-- Ends a Keyhouse command that ran (R475). -/
def keyDone (s : State) (d : Done) : State × Option Done := (keyServed s true, some d)
/-- A Keyhouse command while the Keyhouse is not OPERATIONAL (R476, R478). -/
def keyGate (s : State) (k : State × Option Done) : State × Option Done := if keyUp s then k else fail s .fenced Detail.KEY_STATE

/-- Whether the fields of an import blob are in range (R459). -/
def blobOk (d : List Byte) : Bool :=
  let kind := leField d 1 1
  let tenant := leField d 8 4
  leField d 0 1 == 1 && decide (1 ≤ kind) && decide (kind ≤ 3) && leField d 2 2 == 0 && decide (leField d 4 4 < 2 ^ 24)
  && decide (tenant < 2 ^ 20) && (kind == 1) == (tenant != 0) && (kind != 3 || leField d 4 4 == 0) && (kind == 3 || leField d 4 4 != 0)
  && allZero ((d.drop 0x1C).take 36)

/-- The secret of a blob that passes its signature, decapsulation and tag (R459). -/
def blobSecret (s : State) (d : List Byte) : Option (List Byte) :=
  let head := d.take 0x40
  if !blobOk d || !Config.mldsaOk Config.importAuthority (d.take 0x690) ((d.drop 0x690).take 4627) then none
  else
    let k := kdf 256 (Config.kemDecap s.kh.kemGen ((d.drop 0x40).take 1568)) (label "EY import") head
    let nonce := (d.drop 0x10).take 12
    let w := (d.drop 0x660).take 32
    if fit 16 (gcmTag k nonce head w) ≠ (d.drop 0x680).take 16 then none
    else some (fit 32 (gcmOpen k nonce w))

/-- KEY_IMPORT (R145, R459, R460). -/
def keyImportBody : Body := fun s d => keyGate s <|
  match blobSecret s d with
  | none => keyDone s (Done.of .fenced Detail.KEY_IMPORT)
  | some secret =>
    let i := leField d 4 4
    let kind := leField d 1 1
    let serial := leField d 0xC 4
    let tenant := leField d 8 4
    if kind = 3 then
      if s.trl.key.isSome then keyDone s (Done.of .conflict 0)
      else keyDone (({ s with trl := { s.trl with key := some (secret.take 16) } }).setR Reg.KEY_STATUS_PREFIX_LOADED 1) Done.ok
    else if keyCount s ≤ i then keyDone s (Done.of .fenced Detail.KEY_TABLE_FULL)
    else
      match keyLive s i with
      | some e =>
        if e.serial = serial ∧ e.tenant = tenant ∧ e.kind = kind ∧ e.print = fingerprint secret then keyDone s Done.ok
        else keyDone s (Done.of .conflict Detail.KEY_IMPORT)
      | none =>
        let last := match amGet i s.kh.keys with | some e => e.serial | none => 0
        if serial ≤ last then keyDone s (Done.of .stale Detail.KEY_IMPORT)
        else keyDone (setKey s i ⟨true, kind, tenant, serial, secret, fingerprint secret, wrapEpoch s, [], false⟩) Done.ok

def execKeyImport (c : Cmd) (s : State) : Host.Outcome State Fault Refusal := runPlain s Op.KEY_IMPORT c keyImportBody

/-- KEY_DESTROY (R462): the entry is DESTROYED, its slot and secret zeroized; an index that is not live is KEY_ABSENT. -/
def keyDestroyBody (c : Cmd) : Body := fun s _ => keyGate s <|
  let i := c.arg0
  if keyCount s ≤ i then keyDone s (Done.of .fenced Detail.KEY_TABLE_FULL)
  else
    match keyLive s i with
    | none => keyDone s (Done.of .fenced Detail.KEY_ABSENT)
    | some e =>
      let s := { s with kh := { s.kh with resident := s.kh.resident.filter (· ≠ i), filling := s.kh.filling.filter (· ≠ i), pins := amErase i s.kh.pins } }
      keyDone (setKey (keyRegs s) i { e with live := false, secret := [] }) Done.ok

def execKeyDestroy (c : Cmd) (s : State) : Host.Outcome State Fault Refusal := runPlain s Op.KEY_DESTROY c (keyDestroyBody c)

/-- The KEY_INFO record: the first 24 bytes of R456 (R461, R519). -/
def keyInfo (i : Nat) (e : Option KeyEnt) : List Byte :=
  match e with
  | none => leBytes 4 i ++ leBytes 20 0
  | some e => leBytes 4 i ++ leBytes 1 (if e.live then 1 else 2) ++ leBytes 1 e.kind ++ leBytes 2 0 ++ leBytes 4 e.tenant ++ leBytes 4 e.serial ++ fit 8 e.print

/-- KEY_INFO (R461). -/
def keyInfoBody (c : Cmd) : Body := fun s _ => keyGate s <|
  if keyCount s ≤ c.arg0 then keyDone s (Done.of .fenced Detail.KEY_TABLE_FULL)
  else keyDone s { Done.ok with record := keyInfo c.arg0 (amGet c.arg0 s.kh.keys) }

def execKeyInfo (c : Cmd) (s : State) : Host.Outcome State Fault Refusal := runPlain s Op.KEY_INFO c (keyInfoBody c)

/-- KEY_GET_KEM (R459): the import public key goes to the buffer; a write the host refuses is handled as R502 gives. -/
def keyGetKemBody (c : Cmd) : Body := fun s _ => keyGate s <|
  if !s.dmaOk c.fn c.descAddr 1568 then (dmaWriteFail s c.fn c.descAddr, some (Done.of .fenced 0))
  else keyDone (s.wr (hostXA c.descAddr) (fit 1568 (Config.kemPublic s.kh.kemGen))) Done.ok

def execKeyGetKem (c : Cmd) (s : State) : Host.Outcome State Fault Refusal := runPlain s Op.KEY_GET_KEM c (keyGetKemBody c)

/-- KEY_SALT (R466): 16 fresh bytes of the DRBG. -/
def keySaltBody : Body := fun s _ => keyGate s <| keyDone s.takeFree { Done.ok with record := drbg s 16 }

def execKeySalt (c : Cmd) (s : State) : Host.Outcome State Fault Refusal := runPlain s Op.KEY_SALT c keySaltBody

/-- KEY_ZEROIZE (R479): WRAP_EPOCH advances, every on-die secret goes, and the device pairs are generated anew at the next start-up. -/
def keyZeroizeBody : Body := fun s _ =>
  if s.r Reg.KEY_STATUS_STATE = 0 then fail s .fenced Detail.KEY_STATE
  else
    let e := (wrapEpoch s + 1) % 2 ^ 32
    let s := { s with scb := { s.scb with mram := { s.scb.mram with wrapEpoch := e } }, kh := { s.kh with kemGen := s.kh.kemGen + 1 } }
    keyDone (zeroize (s.setR Reg.KEY_EPOCH_WRAP_EPOCH e) 3) Done.ok

def execKeyZeroize (c : Cmd) (s : State) : Host.Outcome State Fault Refusal := runPlain s Op.KEY_ZEROIZE c keyZeroizeBody

/-- KEY_SELFTEST (R476, R478): whether the tests pass is the part's own, a free value. -/
def keySelftestBody : Body := fun s _ =>
  if s.r Reg.KEY_STATUS_STATE = 2 ∨ s.r Reg.KEY_STATUS_STATE = 3 then fail s .fenced Detail.KEY_STATE
  else if Config.freeNat s.free = 0 then (selfTestFail s.takeFree, some (Done.of .fenced Detail.KEY_SELFTEST))
  else keyDone s.takeFree Done.ok

def execKeySelftest (c : Cmd) (s : State) : Host.Outcome State Fault Refusal := runPlain s Op.KEY_SELFTEST c keySelftestBody

/-- TAMPER (R480): zeroized as by a self-test failure. -/
def tamper (s : State) : State := setEvent (zeroize s 2) Reg.KEY_EVENT_TAMPER 3

def execTamper (s : State) : Host.Outcome State Fault Refusal := nextOf s (tamper s)

/-- ENTROPY_HEALTH_FAIL (R477): counted; a failure at start-up, or a second one within a second, is a self-test failure. -/
def entropyFail (s : State) (apt : Bool) : State :=
  let s := s.cnt (if apt then Reg.KEY_HEALTH_APT_FAIL else Reg.KEY_HEALTH_RCT_FAIL) 1
  let again := match s.kh.healthAt with | some t => decide (s.now ≤ t + 1000000000) | none => false
  let s := { s with kh := { s.kh with healthAt := some s.now } }
  if again || s.r Reg.KEY_STATUS_STATE == 0 then selfTestFail s else s

def execEntropyHealthFail (apt : Bool) (s : State) : Host.Outcome State Fault Refusal := nextOf s (entropyFail s apt)

/-! ### SPDM (R469, R470) -/

/-- The kinds of request of R469 and R471, and the error answer. -/
inductive SpdmKind where
  | version | capabilities | algorithms | digests | certificate | challenge | measurements | keyExchange | finish | keyUpdate | endSession | ideKm | error
  deriving DecidableEq, Repr

def SpdmKind.code : SpdmKind → Nat
  | .version => 0 | .capabilities => 1 | .algorithms => 2 | .digests => 3 | .certificate => 4 | .challenge => 5 | .measurements => 6
  | .keyExchange => 7 | .finish => 8 | .keyUpdate => 9 | .endSession => 10 | .ideKm => 11 | .error => 12

/-- Sends an answer on a way, in a session or (0) outside one, with a body that the SPDM standard lays down. -/
def spdmAnswer (s : State) (way session : Nat) (k : SpdmKind) : State :=
  (s.emit (.spdm way session k.code (Config.answerBody k.code s.free))).takeFree

/-- An SPDM request on a way that exists; the sideband is silent while the management core does not run (R526). -/
def spdmOn (way : Nat) (s k : State) : Host.Outcome State Fault Refusal :=
  withUnit s (way < 2) (if way == 1 && !s.mgt.coreUp then s else k)

/-- The stage an SPDM way has reached. -/
def spdmStage (s : State) (way : Nat) : SpdmStage := (amGet way s.kh.spdm).getD .start
def setSpdm (s : State) (way : Nat) (g : SpdmStage) : State := { s with kh := { s.kh with spdm := amSet way g s.kh.spdm } }

/-- A request that needs the Keyhouse and an agreed set of algorithms; any other is answered with an error (log 35). -/
def spdmReady (s : State) (way : Nat) (k : State) : State :=
  if keyUp s && spdmStage s way == .ready then k else spdmAnswer s way 0 .error

def spdmGetVersion (s : State) (way : Nat) : State := spdmAnswer (setSpdm s way .version) way 0 .version
def execSpdmGetVersion (way : Nat) (s : State) : Host.Outcome State Fault Refusal := spdmOn way s (spdmGetVersion s way)

def spdmGetCapabilities (s : State) (way : Nat) : State :=
  if spdmStage s way = .version then spdmAnswer (setSpdm s way .capabilities) way 0 .capabilities else spdmAnswer s way 0 .error
def execSpdmGetCapabilities (way : Nat) (s : State) : Host.Outcome State Fault Refusal := spdmOn way s (spdmGetCapabilities s way)

def spdmNegotiate (s : State) (way : Nat) : State :=
  if spdmStage s way = .capabilities then spdmAnswer (setSpdm s way .ready) way 0 .algorithms else spdmAnswer s way 0 .error
def execSpdmNegotiateAlgorithms (way : Nat) (s : State) : Host.Outcome State Fault Refusal := spdmOn way s (spdmNegotiate s way)

def execSpdmGetDigests (way : Nat) (s : State) : Host.Outcome State Fault Refusal :=
  spdmOn way s (spdmReady s way (spdmAnswer s way 0 .digests))

/-- GET_CERTIFICATE: slot 0 alone holds a chain (R469). -/
def execSpdmGetCertificate (way slot : Nat) (s : State) : Host.Outcome State Fault Refusal :=
  spdmOn way s (spdmReady s way (spdmAnswer s way 0 (if slot = 0 then .certificate else .error)))

def execSpdmChallenge (way slot : Nat) (s : State) : Host.Outcome State Fault Refusal :=
  spdmOn way s (spdmReady s way (spdmAnswer s way 0 (if slot = 0 then .challenge else .error)))

/-- What measurement block i covers, as numbers (R470). -/
def measured (s : State) (i : Nat) : List Nat :=
  if i = 2 then
    (match s.mgt.banks[s.r Reg.MGT_FW_STATUS_ACTIVE_BANK]? with
     | some b => (b.bytes.getD []).map (·.toNat) ++ [b.version]
     | none => []) ++ [s.r Reg.MGT_FW_STATUS_ACTIVE_BANK]
  else if i = 3 then [s.r Reg.KEY_POLICY_REQUIRE_IDE, s.r Reg.KEY_POLICY_APPROVED, wrapEpoch s] ++ (sha384 Config.importAuthority).map (·.toNat)
  else if 4 ≤ i ∧ i ≤ 11 then
    match (s.stand (8 * (i - 4))).image with
    | some m => [m.id, m.version] ++ m.code
    | none => []
  else if i = 12 then [s.role, s.nodeId, s.r Reg.MGT_ROLE_CHANGING, s.r Reg.MGT_ROLE_ROLE_NEXT, s.r Reg.MGT_MAP_EPOCH_EPOCH,
    s.r Reg.MGT_MAP_EPOCH_JOINED, s.r Reg.MGT_MAP_EPOCH_ROLE_LIVE, s.r Reg.MGT_BOOT_STATUS_LOCKED]
  else if i = 13 then (List.range 4).flatMap (fun k => (Config.fusedMldsa k ++ Config.fusedEcdsa k).map (·.toNat) ++ [b2n (Config.revokedMldsa k), b2n (Config.revokedEcdsa k)]) ++ [s.mgt.minSvn]
  else []

/-- The digest of measurement block i. -/
def measurement (s : State) (i : Nat) : List Byte := fit 48 (Config.measure i (measured s i))

/-- GET_MEASUREMENTS (R470): blocks 1 to 13 and the signed manifest 0xF0. -/
def spdmMeasurements (s : State) (way i : Nat) : State :=
  if 1 ≤ i ∧ i ≤ 13 then s.emit (.spdm way 0 SpdmKind.measurements.code (measurement s i))
  else if i = 0xF0 then
    let m := (List.range 13).flatMap fun k => measurement s (k + 1)
    (s.emit (.spdm way 0 SpdmKind.measurements.code (m ++ Config.answerBody SpdmKind.measurements.code s.free))).takeFree
  else spdmAnswer s way 0 .error
def execSpdmGetMeasurements (way index : Nat) (s : State) : Host.Outcome State Fault Refusal :=
  spdmOn way s (spdmReady s way (spdmMeasurements s way index))

/-- KEY_EXCHANGE opens a session whose handshake FINISH completes (R469). A session number that is in use, or 0, is an error. -/
def spdmKeyExchange (s : State) (way session : Nat) : State :=
  if session = 0 ∨ amHas session s.kh.sessions then spdmAnswer s way 0 .error
  else spdmAnswer { s with kh := { s.kh with sessions := amSet session ⟨false, 0⟩ s.kh.sessions } } way session .keyExchange
def execSpdmKeyExchange (way session : Nat) (s : State) : Host.Outcome State Fault Refusal :=
  spdmOn way s (spdmReady s way (spdmKeyExchange s way session))

/-- Changes a session in the state the request needs, or answers with an error. -/
def withSession (s : State) (way session : Nat) (finished : Bool) (k : SpdmKind) (f : SpdmSession → Option SpdmSession) : State :=
  match amGet session s.kh.sessions with
  | none => spdmAnswer s way session .error
  | some x =>
    if x.finished ≠ finished then spdmAnswer s way session .error
    else
      let m := match f x with | some y => amSet session y s.kh.sessions | none => amErase session s.kh.sessions
      spdmAnswer { s with kh := { s.kh with sessions := m } } way session k

/-- FINISH: `good` says whether the requester's verify data is right; a wrong one ends the session. -/
def spdmFinish (s : State) (way session : Nat) (good : Bool) : State :=
  if good then withSession s way session false .finish fun x => some { x with finished := true }
  else withSession s way session false .error fun _ => none
def execSpdmFinish (way session : Nat) (good : Bool) (s : State) : Host.Outcome State Fault Refusal :=
  spdmOn way s (spdmReady s way (spdmFinish s way session good))

def execSpdmKeyUpdate (way session : Nat) (s : State) : Host.Outcome State Fault Refusal :=
  spdmOn way s (spdmReady s way (withSession s way session true .keyUpdate fun x => some { x with keyGen := x.keyGen + 1 }))

def execSpdmEndSession (way session : Nat) (s : State) : Host.Outcome State Fault Refusal :=
  spdmOn way s (spdmReady s way (withSession s way session true .endSession fun _ => none))

/-! ### IDE (R471) -/

/-- The streams a port supports: one link and four selective ones at the host port, two selective ones at a flexible port. -/
def ideStreams (port : Nat) : Nat := if port = 15 then 5 else 2

/-- IDE_KM inside a finished session: keys programmed, then activated, or stopped (R471). -/
def ideKm (s : State) (way session port stream op : Nat) : State :=
  match amGet session s.kh.sessions with
  | none => spdmAnswer s way session .error
  | some x =>
    let k := 16 * port + stream
    let cur := (amGet k s.kh.ide).getD ⟨false, false⟩
    if !x.finished ∨ !keyUp s ∨ ideStreams port ≤ stream then spdmAnswer s way session .error
    else
      let put (i : IdeStream) : State := spdmAnswer { s with kh := { s.kh with ide := amSet k i s.kh.ide } } way session .ideKm
      if op = 0 then put ⟨true, cur.secure⟩
      else if op = 1 then if cur.keyed then put ⟨true, true⟩ else spdmAnswer s way session .error
      else put ⟨false, false⟩
def execIdeKm (way session port stream op : Nat) (s : State) : Host.Outcome State Fault Refusal :=
  withUnit s (way < 2 && (port < 8 || port == 15)) (if way == 1 && !s.mgt.coreUp then s else ideKm s way session port stream op)

end Sys2Proof.Machine
end

