-- ==== Sys2Proof/Machine/Codec.lean ====
section
/-! DEFINITION. Compressed weight streams, codec tables and adapters (spec/09): reading a stored stream, expanding its blocks, loading tables and adapters. -/

namespace Sys2Proof.Machine

/-! ### Headers and segments (R219 to R222) -/

/-- The fields of a stored stream's header (R219). -/
structure StreamHdr where
  kind : Nat
  tableKind : Nat
  model : Nat
  tenant : Nat
  id : Nat
  version : Nat
  keySlot : Nat
  nonce : List Byte
  plainLen : Nat
  segs : Nat
  blocks : Nat
  rows : Nat
  cols : Nat
  adapter : Nat
  layer : Nat
  deriving DecidableEq, Repr

def StreamHdr.ofBytes (l : List Byte) : StreamHdr :=
  { kind := leField l 0 1, tableKind := leField l 1 1, model := leField l 2 2, tenant := leField l 4 4, id := leField l 8 8,
    version := leField l 0x10 4, keySlot := leField l 0x14 4, nonce := (l.drop 0x18).take 8, plainLen := leField l 0x20 8,
    segs := leField l 0x28 4, blocks := leField l 0x2C 4, rows := leField l 0x30 4, cols := leField l 0x34 4,
    adapter := leField l 0x38 4, layer := leField l 0x3C 2 }

/-- Whether a matrix extent is in range (R219). -/
def extentOk (n : Nat) : Bool := n % 32 == 0 && decide (32 ≤ n) && decide (n ≤ 1048576)

/-- Whether a header's fields are in range (R219); `sealed` asks for the derived fields and the zero area too. -/
def streamHdrOk (h : StreamHdr) (l : List Byte) : Bool :=
  decide (1 ≤ h.kind) && decide (h.kind ≤ 3) && (if h.kind = 3 then decide (1 ≤ h.tableKind) && decide (h.tableKind ≤ 3) else h.tableKind == 0)
  && decide (h.tenant < 2 ^ 20) && decide (h.keySlot < 2 ^ 24) && (h.kind != 3 || decide (h.version < 2 ^ 16))
  && decide (1 ≤ h.plainLen) && decide (h.plainLen ≤ 2 ^ 36) && h.segs == (h.plainLen + 65535) / 65536 && (h.kind != 3 || h.blocks == 0)
  && (if h.kind = 1 then extentOk h.rows && extentOk h.cols else h.rows == 0 && h.cols == 0)
  && (if h.kind = 2 then decide (1 ≤ h.adapter / 2 ^ 20) && decide (1 ≤ h.adapter % 2 ^ 20) && decide (h.layer < 256) else h.adapter == 0 && h.layer == 0)
  && allZero ((l.drop 0x40).take 188)

/-- Ciphertext bytes of segment k (R220). -/
def segLen (h : StreamHdr) (k : Nat) : Nat := if k + 1 < h.segs then 65536 else h.plainLen - 65536 * k
/-- Where segment k is stored, and its stored bytes (R220). -/
def segOff (k : Nat) : Nat := 256 + 65664 * k
def segStored (h : StreamHdr) (k : Nat) : Nat := 128 + roundUp (segLen h k) 4096
/-- The stored bytes of a whole stream. -/
def streamStored (h : StreamHdr) : Nat := segOff (h.segs - 1) + segStored h (h.segs - 1)

/-- Which parts of a segment fail their CRC (R220, R223): its pages, and its record as part 16. -/
def segBad (l : List Byte) : List Nat :=
  (((chunks 4096 (l.drop 128)).zipIdx.filter fun p => leField l (4 * p.2) 4 != crc32c p.1).map fun p => p.2)
  ++ (if leField l 0x7C 4 != crc32c (l.take 0x7C) then [16] else [])

/-- The nonce and additional data of segment k (R222). -/
def segNonce (h : StreamHdr) (k : Nat) : List Byte := h.nonce ++ leBytes 4 k
def segAad (h : StreamHdr) (k : Nat) (prev : List Byte) : List Byte := leBytes 8 h.id ++ leBytes 4 h.version ++ leBytes 4 k ++ fit 16 prev

/-! ### Jobs -/

def setStream (s : State) (n : Nat) (j : StreamJob) : State := { s with cdc := { s.cdc with jobs := amSet n j s.cdc.jobs } }

/-- A new job for a command; `layer` is the slot of a TABLE_LOAD, else 0. -/
def newStream (s : State) (op : Nat) (c : Cmd) (use : StreamUse) (desc : List Byte) (adp : Option Nat) (layer : Nat) : State × Nat :=
  let j : StreamJob :=
    { op := op, cmd := c, use := use, desc := desc, layer := layer, heads := [], copied := [], hdr := [], seg := 0,
      prevTag := [], retried := [], plain := [], stored := [], held := none, scanned := 0, blocks := [], seen := [], users := [], adp := adp, same := none }
  let n := s.cdc.nextJob
  (setStream { s with cdc := { s.cdc with nextJob := n + 1 } } n j, n)

/-- How many blocks an EXPAND has written. -/
def StreamJob.written (j : StreamJob) : Nat := j.blocks.countP (·.written)

/-- Ends a job (R223, R229, R236): table users and adapter pins released, block tasks withdrawn, a slot in LOADING freed, slot flags told, the command completed. -/
def streamEnd (s : State) (n : Nat) (j : StreamJob) (st : Status) (dt : Nat) : State :=
  let ok := decide (st = .ok)
  let s := { s with cdc := { s.cdc with jobs := amErase n s.cdc.jobs } }
  let s := { s with xch := { s.xch with reads := amFilter (fun _ r => r.use != .stream n) s.xch.reads } }
  let s := j.users.foldl (fun s u => tblUse s u.1 u.2 1 false) s
  let s := (s.xch.tasks.filter fun e => match e.2.expand with | some (k, _) => k == n | none => false).foldl (fun s e => withdrawTask s e.1) s
  let s := match j.use with
    | .expand =>
      let s := match j.adp with
        | some k => adpSettle { s with cdc := { s.cdc with adps := amMod k (fun a => { a with pins := a.pins - 1 }) s.cdc.adps } } k
        | none => s
      fenceEnd s n ok
    | .adapter => (match j.adp with
        | some k => if ok then s else adpRegs { s with cdc := { s.cdc with adps := amErase k s.cdc.adps } }
        | none => s)
    | .table => (match amGet j.layer s.cdc.tables with
        | some T => if j.adp.isSome ∧ !ok then
            (if T.curLen = 0 then tblRegs { s with cdc := { s.cdc with tables := amErase j.layer s.cdc.tables } } j.layer else setTbl s j.layer { T with loading := false })
            else s
        | none => s)
  let v := if j.use = .expand ∧ !ok then j.written else 0
  completeCmd s j.op j.cmd { Done.of st dt with value := v }

/-- Ends a job whose segment failed its tag (R223): counted, and recorded at severity 6. -/
def streamTagFail (s : State) (n : Nat) (j : StreamJob) : State :=
  let s := s.cnt Reg.CDC_EXP_ERR_TAG 1
  let s := scbNote s (faultRec Src.codec Act.recorded 6 0 Status.fenced.code Detail.CDC_TAG)
  streamEnd s n j .fenced Detail.CDC_TAG

/-! ### Where a stream is (R228, R232, R236) -/

/-- A node, region key and offset, or an address in the adapter area. -/
inductive StreamAt where
  | region (node key off : Nat)
  | area (addr : Nat)
  deriving DecidableEq, Repr

/-- The adapter area. -/
def adpBase (s : State) : Nat := s.r Reg.CDC_ADP_BASE_LO_BASE_LO * 2 ^ 21 + s.r Reg.CDC_ADP_BASE_HI_BASE_HI * 2 ^ 32

/-- Locator i of an ADAPTER_LOAD (R509). -/
def locator (d : List Byte) (i : Nat) : StreamAt :=
  .region (leField d (16 * i + 6) 2) (leField d (16 * i + 8) 4) (leField d (16 * i) 6)

/-- Where the stream a job reads now lies. -/
def streamAt (s : State) (j : StreamJob) : StreamAt :=
  match j.use with
  | .table => .region (bits j.cmd.arg2 48 16) j.cmd.arg3 (bits j.cmd.arg2 0 48)
  | .adapter => locator j.desc (if j.heads.length * 16 < j.desc.length then j.heads.length else j.layer)
  | .expand =>
    if leField j.desc 0x34 4 = 0 then .region (leField j.desc 6 2) (leField j.desc 8 4) (leField j.desc 0 6)
    else
      match j.adp with
      | some k =>
        (match amGet k s.cdc.adps with
         | some a => .area (adpBase s + a.base * 2 ^ 21 + (a.layers.getD (leField j.desc 0x38 2) (0, 0)).1)
         | none => .area 0)
      | none => .area 0

/-- The address of a piece of a region of this node, or why it cannot be read. -/
def regionAddr (s : State) (key off len : Nat) : Except Nat Nat :=
  match s.rm.regions.find? fun e => e.2.key == key && !e.2.closing with
  | none => .error Detail.MEM_KEY
  | some (_, r) => if off + len ≤ r.length then .ok (r.base + off) else .error Detail.MEM_BOUNDS

/-- What a read of a piece gives: its bytes at once, an error, or nothing yet. -/
inductive Piece where
  | data (b : List Byte)
  | failed (detail : Nat)
  | later

/-- Reads a piece of the stream in hand: from HBM where it is this node's, else by a read of its home (R223). -/
def readPiece (s : State) (n : Nat) (j : StreamJob) (off len : Nat) : State × Piece :=
  match streamAt s j with
  | .area a => match memTrouble s (a + off) len with | some d => (s, .failed d) | none => (s, .data (s.rd (a + off) len))
  | .region node key base =>
    if node = s.nodeId then
      match regionAddr s key (base + off) len with
      | .ok a => match memTrouble s a len with | some d => (s, .failed d) | none => (s, .data (s.rd a len))
      | .error d => (s, .failed d)
    else
      let r := s.xch.nextRead
      let s := { s with xch := { s.xch with reads := amSet r ⟨.stream n, 0, len⟩ s.xch.reads, nextRead := r + 1 } }
      (s.emit (.msg node (.readRegion r key (base + off) len)), .later)

/-- The next piece of the stream a job needs: offset and bytes; none where everything has been read. -/
def nextPiece (j : StreamJob) : Option (Nat × Nat) :=
  if j.use = .adapter ∧ j.heads.length * 16 < j.desc.length then some (0, 256)
  else if j.hdr.isEmpty then some (0, 256)
  else
    let h := StreamHdr.ofBytes j.hdr
    if j.seg < h.segs then some (segOff j.seg, segStored h j.seg) else none

/-- The address of the piece in hand, where it lies at this node. -/
def pieceAddr (s : State) (j : StreamJob) : Option Nat :=
  match nextPiece j with
  | none => none
  | some (off, len) =>
    match streamAt s j with
    | .area a => some (a + off)
    | .region node key base =>
      if node ≠ s.nodeId then none
      else match regionAddr s key (base + off) len with | .ok a => some a | .error _ => none

/-- A piece failed its check twice: a lasting failure of the stack that holds the stream (R223, R434). -/
def pieceLasting (s : State) (j : StreamJob) (dt : Nat) : State :=
  match pieceAddr s j with | some a => lastingAt s a dt 0 | none => s

/-- A piece that passed on its second read: a transient failure of that stack (R436). -/
def pieceRetried (s : State) (j : StreamJob) : State :=
  match (pieceAddr s j).bind (stackAt s) with | some k => if !j.retried.isEmpty then stackFailed s k Detail.CDC_CRC 0 0 true else s | none => s

/-! ### Expansion (R224 to R227) -/

/-- The fields of a block header (R224). -/
structure BlkHdr where
  mode : Nat
  ffmt : Nat
  flags : Nat
  basis : Nat
  rank : Nat
  gainSlot : Nat
  row0 : Nat
  col0 : Nat
  nrows : Nat
  ncols : Nat
  gainIndex : Nat
  dataLen : Nat
  deriving DecidableEq, Repr

def BlkHdr.ofBytes (l : List Byte) : BlkHdr :=
  { mode := leField l 0 1, ffmt := leField l 1 1, flags := leField l 2 1, basis := leField l 3 1, rank := leField l 4 2, gainSlot := leField l 6 1,
    row0 := leField l 8 4, col0 := leField l 0xC 4, nrows := leField l 0x10 2, ncols := leField l 0x12 2, gainIndex := leField l 0x14 4,
    dataLen := leField l 0x18 4 }

def BlkHdr.corr (b : BlkHdr) : Bool := bit b.flags 0
def BlkHdr.hasBasis (b : BlkHdr) : Bool := bit b.flags 1
def BlkHdr.gain (b : BlkHdr) : Bool := bit b.flags 2

/-- Bytes of n rows of factors at rank r (R225). -/
def factorBytes (ffmt n r : Nat) : Nat := (if ffmt = 2 then n * r else n * r / 2) + n * r / 32
/-- DATA_LEN as R225 gives it. -/
def BlkHdr.wantLen (b : BlkHdr) : Nat :=
  (if b.rank = 0 then 0 else factorBytes b.ffmt b.nrows b.rank + (if b.hasBasis then 0 else factorBytes b.ffmt b.ncols b.rank))
  + (if b.corr then factorBytes 3 b.nrows b.ncols else 0)

/-- Whether a count is a multiple of 32 from `lo` to 1,024. -/
def blkDim (lo n : Nat) : Bool := n % 32 == 0 && decide (lo ≤ n) && decide (n ≤ 1024)

/-- Whether a block header's own fields are in range (R224). -/
def blkHdrOk (b : BlkHdr) (l : List Byte) : Bool :=
  (b.mode == 1 || b.mode == 2) && (b.ffmt == 2 || b.ffmt == 3) && decide (b.flags < 8) && blkDim 0 b.rank && leField l 7 1 == 0
  && b.row0 % 32 == 0 && b.col0 % 32 == 0 && blkDim 32 b.nrows && blkDim 32 b.ncols && allZero ((l.drop 0x1C).take 36)

/-- Whether a block meets R224 and R225, for a stream of a kind and matrix, beside the blocks before it. -/
def blockOk (h : StreamHdr) (l : List Byte) (seen : List (Nat × Nat × Nat × Nat)) : Bool :=
  let b := BlkHdr.ofBytes l
  blkHdrOk b l && b.dataLen == b.wantLen
  && (if h.kind = 1 then b.mode == 1 && decide (b.row0 + b.nrows ≤ h.rows) && decide (b.col0 + b.ncols ≤ h.cols)
        && (b.rank != 0 || b.corr)
        && seen.all (fun r => !(decide (r.1 < b.row0 + b.nrows) && decide (b.row0 < r.1 + r.2.2.1) && decide (r.2.1 < b.col0 + b.ncols) && decide (b.col0 < r.2.1 + r.2.2.2)))
      else b.mode == 2 && b.flags == 0)

/-- The values of MX factor rows packed as R225 gives: n rows of r elements, then their scales. -/
def factorRows (ffmt n r : Nat) (l : List Byte) : List (List FV) :=
  let rb := if ffmt = 2 then r else r / 2
  (List.range n).map fun i => (List.range r).map fun c =>
    mxVal (ffmt == 3) (leField l (n * rb + i * (r / 32) + c / 32) 1) (elemAt ffmt (l.drop (i * rb)) c)

/-- Adds to an accumulator the products of two rows, in blocks of 32 each summed exactly and rounded once, in ascending order (R102, R226). -/
def dotAcc (acc : FV) (a b : List FV) : FV :=
  (chunks 32 (a.zip b)).foldl (fun acc c => acc.addR (FV.sum (c.map fun p => p.1.mul p.2)).r32) acc

/-- The output rows of a PRODUCT block before conversion (R226): vt and g come from codec tables where FLAGS says so. -/
def productRows (b : BlkHdr) (data vtTable : List Byte) (g : FV) : List (List FV) :=
  let ub := factorBytes b.ffmt b.nrows b.rank
  let vb := if b.hasBasis then 0 else factorBytes b.ffmt b.ncols b.rank
  let u := if b.rank = 0 then [] else factorRows b.ffmt b.nrows b.rank data
  let vt := if b.rank = 0 then [] else factorRows b.ffmt b.ncols b.rank (if b.hasBasis then vtTable else data.drop ub)
  let cs := if b.corr then factorRows 3 b.nrows b.ncols (data.drop (if b.rank = 0 then 0 else ub + vb)) else []
  (List.range b.nrows).map fun i => (List.range b.ncols).map fun j =>
    let x := dotAcc FV.zero (u.getD i []) (vt.getD j [])
    let x := if b.corr then x.addR ((cs.getD i []).getD j FV.zero) else x
    if b.gain then x.mulR g else x

/-- One row converted to OUT_FMT (1 BF16, 2 MXFP8): its elements and its scales. -/
def outRow (fmt : Nat) (row : List FV) : List Byte × List Byte :=
  if fmt = 1 then (row.flatMap fun x => leBytes 2 x.to16, [])
  else
    let bs := (chunks 32 row).map (mxQuant false 0)
    (bs.flatMap fun b => packElems false b.elems, bs.flatMap fun b => leBytes 1 (bits b.entry 0 8))

/-- A factor row delivered in OUT_FMT (R227): MXFP8 copied, MXFP4 elements widened under their own scales, or BF16. -/
def factorOut (ffmt fmt r : Nat) (l : List Byte) (n i : Nat) : List Byte :=
  let rb := if ffmt = 2 then r else r / 2
  let row := l.drop (i * rb)
  let scales := (l.drop (n * rb + i * (r / 32))).take (r / 32)
  if fmt = 1 then (List.range r).flatMap fun c => leBytes 2 (mxVal (ffmt == 3) (leField scales (c / 32) 1) (elemAt ffmt row c)).to16
  else (if ffmt = 2 then row.take r else (List.range r).map fun c => BitVec.ofNat 8 ((mxElem false (FV.ofE2 (elemAt 3 row c))).1)) ++ scales

/-- Bytes a FACTORS block writes (R228). -/
def factorsSize (b : BlkHdr) (fmt : Nat) : Nat := 64 + (b.nrows + b.ncols) * (if fmt = 1 then 2 * b.rank else b.rank + b.rank / 32)

/-- The table body an EXPAND resolved for a slot (R233). -/
def jobTable (s : State) (j : StreamJob) (t : Nat) : List Byte :=
  match j.users.find? fun u => u.1 == t with
  | some u => tblBody s t u.2
  | none => []

/-- What block i of an EXPAND writes: (address, bytes) pairs, and whether the output holds a NaN or infinity (R226 to R228). -/
def blockOutput (s : State) (j : StreamJob) (i : Nat) : List (Nat × List Byte) × Bool :=
  match j.blocks[i]? with
  | none => ([], false)
  | some x =>
    let l := (j.plain.drop x.start).take x.len
    let b := BlkHdr.ofBytes l
    let data := l.drop 64
    let fmt := leField j.desc 0x1C 1
    let dest := leField j.desc 0x20 8
    let pitch := leField j.desc 0x28 4
    let h := StreamHdr.ofBytes j.hdr
    if b.mode = 1 then
      let rows := productRows b data ((jobTable s j b.basis).drop 64) (FV.of32 (leField (jobTable s j b.gainSlot) (4 * b.gainIndex) 4))
      let bad := rows.any fun r => r.any fun v => v.special || (fmt == 1 && (FV.of16 v.to16).special)
      (rows.zipIdx.flatMap fun r =>
        let o := outRow fmt r.1
        let a := dest + (b.row0 + r.2) * pitch
        if fmt = 1 then [(a + 2 * b.col0, o.1)] else [(a + b.col0, o.1), (a + h.cols + b.col0 / 32, o.2)], bad)
    else
      let off := (j.blocks.take i).foldl (fun n y => n + factorsSize (BlkHdr.ofBytes (j.plain.drop y.start)) fmt) 0
      let ub := factorBytes b.ffmt b.nrows b.rank
      let us := (List.range b.nrows).flatMap (factorOut b.ffmt fmt b.rank data b.nrows)
      let vs := (List.range b.ncols).flatMap (factorOut b.ffmt fmt b.rank (data.drop ub) b.ncols)
      let vals := factorRows b.ffmt b.nrows b.rank data ++ factorRows b.ffmt b.ncols b.rank (data.drop ub)
      ([(dest + off, l.take 64 ++ us ++ vs)], vals.any fun r => r.any fun v => v.special || (fmt == 1 && (FV.of16 v.to16).special))

/-- The +0 that rectangles no block covers expand to (R224), in tiles of 32 × 32. -/
def zeroFill (j : StreamJob) : List (Nat × List Byte) :=
  let h := StreamHdr.ofBytes j.hdr
  let fmt := leField j.desc 0x1C 1
  let dest := leField j.desc 0x20 8
  let pitch := leField j.desc 0x28 4
  (List.range (h.rows / 32)).flatMap fun r => (List.range (h.cols / 32)).flatMap fun c =>
    if j.seen.any fun k => decide (k.1 ≤ 32 * r) && decide (32 * r < k.1 + k.2.2.1) && decide (k.2.1 ≤ 32 * c) && decide (32 * c < k.2.1 + k.2.2.2) then []
    else (List.range 32).flatMap fun i =>
      let a := dest + (32 * r + i) * pitch
      if fmt = 1 then [(a + 64 * c, leBytes 64 0)] else [(a + 32 * c, leBytes 32 0), (a + h.cols + c, leBytes 1 0x7F)]

/-- Writes to an attach port, counting bytes (R228, CDC_EXP_BYTES). -/
def portWrites (s : State) (port : Nat) (ws : List (Nat × List Byte)) : State :=
  let s := ws.foldl (fun s w => accelWrite s port w.1 w.2) s
  let n := s.cdc.expBytes + ws.foldl (fun n w => n + w.2.length) 0
  ({ s with cdc := { s.cdc with expBytes := n } }).setR Reg.CDC_EXP_BYTES_KIB (n / 1024 % 2 ^ 32)

/-- Completes an EXPAND whose blocks are all written and whose last tag has passed (R229). -/
def expandCheck (s : State) (n : Nat) : State :=
  match amGet n s.cdc.jobs with
  | none => s
  | some j =>
    let h := StreamHdr.ofBytes j.hdr
    if j.use ≠ .expand ∨ j.hdr.isEmpty ∨ j.seg < h.segs ∨ j.blocks.any (fun b => !b.written) then s
    else if j.blocks.length ≠ h.blocks ∨ j.scanned ≠ h.plainLen then streamEnd s n j .fenced Detail.CDC_FORMAT
    else
      let s := if h.kind = 1 then portWrites s (leField j.desc 0x1D 1) (zeroFill j) else s
      streamEnd s n j .ok 0

/-- A codec block has ended well: its output goes to DEST (R228, R229; log 37), or the EXPAND ends where its port is down (R546). -/
def expandBlockDone (s : State) (n i : Nat) : State :=
  match amGet n s.cdc.jobs with
  | none => s
  | some j =>
    let o := blockOutput s j i
    if !portLive s (leField j.desc 0x1D 1) then streamEnd s n j .fenced Detail.FLT_LINK
    else
    let s := portWrites s (leField j.desc 0x1D 1) o.1
    let s := s.wrap Reg.CDC_EXP_BLOCKS_BLOCKS 1
    let s := if o.2 then s.cnt Reg.CDC_EXP_NAN_BLOCKS 1 else s
    expandCheck (setStream s n { j with blocks := listMod i (fun b => { b with written := true }) j.blocks }) n

/-- A codec block has ended badly: its EXPAND ends with that status (R256, R257). -/
def expandBlockFailed (s : State) (n : Nat) (st : Status) (dt : Nat) : State :=
  match amGet n s.cdc.jobs with
  | none => s
  | some j => streamEnd s n j st dt

/-! ### Blocks to tasks (R229, R233, R234) -/

/-- Resolves the table a block names (R233): the buffer the EXPAND already uses, or the current one, counted from now on. -/
def resolveTable (s : State) (j : StreamJob) (t kind : Nat) : Option (State × StreamJob) :=
  match amGet t s.cdc.tables with
  | none => none
  | some T =>
    if T.curLen = 0 ∨ T.kind ≠ kind then none
    else if j.users.any fun u => u.1 == t then some (s, j)
    else some (tblUse s t T.curBuf 1 true, { j with users := j.users ++ [(t, T.curBuf)] })

/-- Why the table bytes that a block names cannot be reached, where they cannot (R445). -/
def tableTrouble (s : State) (j : StreamJob) (b : BlkHdr) : Option Nat :=
  let of (t : Nat) : Option Nat := (j.users.find? fun u => u.1 == t).bind fun u => memTrouble s (tblAddr s t u.2) (tblBody s t u.2).length
  ((if b.hasBasis then of b.basis else none)).or (if b.gain then of b.gainSlot else none)

/-- Resolves both tables of a block and checks that they serve it (R234). -/
def blockTables (s : State) (j : StreamJob) (b : BlkHdr) : Option (State × StreamJob) :=
  let p := if b.hasBasis then
      (match resolveTable s j b.basis 3 with
       | none => none
       | some (s, j) =>
         let t := BlkHdr.ofBytes (jobTable s j b.basis)
         if t.ffmt = b.ffmt ∧ t.rank = b.rank ∧ t.ncols = b.ncols then some (s, j) else none)
    else some (s, j)
  match p with
  | none => none
  | some (s, j) =>
    if b.gain then
      (match resolveTable s j b.gainSlot 2 with
       | none => none
       | some (s, j) => if 4 * b.gainIndex + 4 ≤ (jobTable s j b.gainSlot).length then some (s, j) else none)
    else some (s, j)

/-- The cost of a block's task (R229). -/
def blockCost (b : BlkHdr) : Nat :=
  if b.mode = 1 then 64 + ((b.nrows + 63) / 64) * ((b.ncols + 63) / 64) * max (4 * b.rank) 4
  else 64 + ((b.nrows + b.ncols) * b.rank + 2047) / 2048

/-- Issues the codec task of a block (R229, R245). -/
def issueBlock (s : State) (n i : Nat) (j : StreamJob) (b : BlkHdr) (bytes : List Byte) : State :=
  let h := StreamHdr.ofBytes j.hdr
  let mk (t : Nat) : Task :=
    { kind := 4, handle := 0, layer := 0, col := i % 8, cost := blockCost b, lclass := leField j.desc 0x1E 1, flowKey := 2 ^ 32 + n, since := s.now,
      front := false, record := taskRecord 4 0 0 0 h.model 0 h.tenant 0 0 0 0 (taskKv t) 0 0 0 [] 0 0 0 [],
      rowIdx := [], heads := [], shard := 0, attend := none, expand := some (n, i), flow := leField j.desc 0x2C 4 % 2 ^ 26, stand := none, counted := false,
      part := none, late := false, held := false, erred := false }
  (addTask s mk [] bytes []).1

/-- Hands on every block of which all bytes are authenticated (R223, R229). -/
def scanBlocks (s : State) (n : Nat) (j : StreamJob) : Nat → State
  | 0 => s
  | fuel + 1 =>
    let h := StreamHdr.ofBytes j.hdr
    let l := j.plain.drop j.scanned
    if l.length < 64 then setStream s n j
    else
      let b := BlkHdr.ofBytes l
      if !blockOk h l j.seen ∨ h.blocks ≤ j.blocks.length then streamEnd s n j .fenced Detail.CDC_FORMAT
      else if l.length < 64 + b.dataLen then setStream s n j
      else
        match blockTables s j b with
        | none => streamEnd s n j .fenced Detail.CDC_TBL_MISMATCH
        | some (s, j) =>
          match tableTrouble s j b with
          | some dt => streamEnd s n j .fenced dt
          | none =>
          let i := j.blocks.length
          let j := { j with blocks := j.blocks ++ [⟨j.scanned, 64 + b.dataLen, false⟩], scanned := j.scanned + 64 + b.dataLen,
                            seen := j.seen ++ [(b.row0, b.col0, b.nrows, b.ncols)] }
          scanBlocks (issueBlock (setStream s n j) n i j b (l.take (64 + b.dataLen))) n j fuel

/-! ### Tables (R231, R232) -/

/-- Bytes of a table buffer (CDC_TBL_CFG). -/
def tblBufBytes (s : State) : Nat := max 1 (s.r Reg.CDC_TBL_CFG_BUF_64K) * 65536

/-- Whether a table body is valid (R231). -/
def tableOk (kind : Nat) (l : List Byte) : Bool :=
  if kind = 1 then l.length == 512 && l.all fun b => b == 0 || b == 0xFF || b == 0xFE || b == 0xFD
  else if kind = 2 then l.length % 4 == 0 && decide (4 ≤ l.length) && decide (l.length ≤ 262144)
    && (List.range (l.length / 4)).all fun i => !(FV.of32 (leField l (4 * i) 4)).special
  else
    let b := BlkHdr.ofBytes l
    decide (64 ≤ l.length) && b.mode == 2 && blkHdrOk b l && decide (32 ≤ b.rank) && !b.hasBasis && !b.corr
    && b.dataLen == factorBytes b.ffmt b.ncols b.rank && l.length == 64 + b.dataLen

/-- How a TABLE_LOAD resolves against its slot once its header is known (R232): the ending, or that the body is to be compared (false) or loaded (true). -/
def tableResolve (s : State) (t v : Nat) (h : StreamHdr) : Except (Status × Nat) Bool :=
  let T := amGet t s.cdc.tables
  let held := match T with | some T => decide (T.curLen ≠ 0) | none => false
  if held && (match T with | some T => T.kind != h.tableKind | none => false) then .error (.conflict, Detail.CDC_TBL_KIND)
  else if (match T with | some T => T.loading | none => false) then .error (.noCredit, Detail.CDC_TBL_BUSY)
  else if held && (match T with | some T => T.curVer == v | none => false) then .ok false
  else if held && (match T with | some T => decide (32768 ≤ (v + 65536 - T.curVer) % 65536) | none => false) then .error (.stale, 0)
  else if (match T with | some T => T.otherUsers != 0 | none => false) then .error (.noCredit, Detail.CDC_TBL_BUSY)
  else if tblBufBytes s < h.plainLen then .error (.fenced, Detail.CDC_TBL_INVALID)
  else if h.tableKind == 1 && (match profileOf s h.model with | some (k, _) => k != t | none => false) then .error (.conflict, Detail.CDC_TBL_KIND)
  else .ok true

/-- Marks a slot as loading. -/
def tableLoading (s : State) (t : Nat) (h : StreamHdr) : State :=
  match amGet t s.cdc.tables with
  | some T => setTbl s t { T with loading := true }
  | none => setTbl s t { kind := h.tableKind, model := h.model, curBuf := 1, curVer := 0, curLen := 0, curCrc := 0, curUsers := 0, otherVer := 0, otherLen := 0, otherUsers := 0, loading := true }

/-- The body has been read and authenticated (R231, R232): compared with the version that was current when its header resolved, or loaded into the other buffer, which becomes current. -/
def tableFinish (s : State) (n : Nat) (j : StreamJob) : State :=
  let h := StreamHdr.ofBytes j.hdr
  let t := j.layer
  match amGet t s.cdc.tables with
  | none => streamEnd s n j .ok 0
  | some T =>
    match j.same with
    | some c => if crc32c j.plain = c then streamEnd s n j .ok 0 else streamEnd s n j .conflict Detail.CDC_TBL_KIND
    | none =>
    if !tableOk h.tableKind j.plain then streamEnd s n j .fenced Detail.CDC_TBL_INVALID
    else
      let b := 1 - T.curBuf
      match memTrouble s (tblAddr s t b) j.plain.length with
      | some dt => streamEnd s n j .fenced dt
      | none =>
      let s := putBytes s (tblAddr s t b) j.plain
      let s := setTbl s t { kind := h.tableKind, model := h.model, curBuf := b, curVer := h.version, curLen := j.plain.length, curCrc := crc32c j.plain,
                            curUsers := 0, otherVer := T.curVer, otherLen := T.curLen, otherUsers := T.curUsers, loading := false }
      streamEnd s n j .ok 0

/-! ### Adapters (R235, R236) -/

/-- Units of 2 MiB in the adapter area. -/
def adpArea (s : State) : Nat := s.r Reg.CDC_ADP_SIZE_SIZE_2M

/-- The lowest contiguous extent of n units that no slot holds. -/
def adpExtent (s : State) (n : Nat) : Option Nat :=
  let clash (a : Nat) : Bool := s.cdc.adps.any fun e => decide (a < e.2.base + e.2.size) && decide (e.2.base < a + n)
  ((0 :: s.cdc.adps.map fun e => e.2.base + e.2.size).filter fun a => decide (a + n ≤ adpArea s) && !clash a).foldl
    (fun b a => match b with | none => some a | some x => some (min x a)) none

/-! ### Reading (R223) -/

/-- Whether a header's fields match its command (R223, R228, R232, R236). -/
def headerMatches (j : StreamJob) (h : StreamHdr) : Bool :=
  match j.use with
  | .expand =>
    let ad := leField j.desc 0x34 4
    h.id == leField j.desc 0x10 8 && h.version == leField j.desc 0x18 4 && h.tenant == leField j.desc 0x30 4
    && (if ad = 0 then h.kind == 1 || h.kind == 2 else h.kind == 2 && h.adapter == ad && h.layer == leField j.desc 0x38 2)
  | .table => h.kind == 3 && h.tenant == 0 && h.version == j.cmd.arg1
  | .adapter => h.kind == 2 && h.adapter == j.cmd.arg0 && h.layer == j.layer

/-- Whether DEST_PITCH holds a row (R228). -/
def pitchOk (j : StreamJob) (h : StreamHdr) : Bool :=
  j.use != .expand || h.kind != 1 ||
    decide ((if leField j.desc 0x1C 1 = 1 then 2 * h.cols else 33 * h.cols / 32) ≤ leField j.desc 0x28 4)

/-- How a refused use of a stream's key ends the command (R222, R239, R478). -/
def streamKeyDetail (dt : Nat) : Nat := if dt = Detail.KEY_STATE then dt else Detail.CDC_KEY

/-- Why a header ends its command: its form, its fields against the command, the tenant and the key (R222, R223). -/
def headerRefused (s : State) (j : StreamJob) (b : List Byte) : Option (Status × Nat) :=
  let h := StreamHdr.ofBytes b
  if !streamHdrOk h b ∨ !headerMatches j h ∨ !pitchOk j h then some (.fenced, Detail.CDC_FORMAT)
  else if !(h.tenant == 0 || tenantInRange s j.cmd.fn h.tenant) then some (.fenced, Detail.CDC_KEY)
  else
    match keyUse s h.keySlot h.tenant false with
    | .error e => some (e.1, streamKeyDetail e.2)
    | .ok _ => none

/-- A layer of an ADAPTER_LOAD in LOADING begins: its header is checked against the adapter word and the layer (R236). -/
def adapterHead (s : State) (n : Nat) (j : StreamJob) : State :=
  match headerRefused s j j.hdr with
  | some e => streamEnd s n j e.1 e.2
  | none => setStream s n j

/-- Every header of an ADAPTER_LOAD is known, and with them the sizes of its streams: a slot and extent are taken and the slot enters LOADING, or the command ends (R236). -/
def adapterPlace (s : State) (n : Nat) (j : StreamJob) : State :=
  let sizes := j.heads.map fun l => streamStored (StreamHdr.ofBytes l)
  let layers := sizes.foldl (fun (p : List (Nat × Nat) × Nat) z => (p.1 ++ [(p.2, z)], p.2 + z)) ([], 0)
  let units := (layers.2 + 2 ^ 21 - 1) / 2 ^ 21
  match amFree s.cdc.adps 0 4096, adpExtent s units with
  | some k, some a =>
    let s := { s with cdc := { s.cdc with adps := amSet k { word := j.cmd.arg0, state := .loading, base := a, size := units, layers := layers.1, pins := 0 } s.cdc.adps } }
    adapterHead (adpRegs s) n { j with adp := some k, layer := 0, hdr := j.heads.headD [] }
  | _, _ => streamEnd s n j .noCredit Detail.CDC_ADP_SLOTS

/-- A layer's stream has passed every check: it is copied, and after the last one the slot becomes CURRENT or HELD (R236). -/
def adapterLayer (s : State) (n : Nat) (j : StreamJob) : State :=
  match j.adp with
  | none => s
  | some k =>
    match amGet k s.cdc.adps with
    | none => s
    | some a =>
      let place := adpBase s + a.base * 2 ^ 21 + (a.layers.getD j.layer (0, 0)).1
      match memTrouble s place (j.hdr ++ j.stored).length with
      | some dt => streamEnd s n j .fenced dt
      | none =>
      let s := putBytes s place (j.hdr ++ j.stored)
      let i := j.layer + 1
      if i < j.heads.length then
        adapterHead s n { j with layer := i, hdr := j.heads.getD i [], seg := 0, prevTag := [], stored := [], plain := [] }
      else
        let pin := bit j.cmd.arg1 0
        let old := adpCurrent s (a.word % 2 ^ 20)
        let s := { s with cdc := { s.cdc with adps := amSet k { a with state := if pin then .held else .current } s.cdc.adps } }
        let s := if pin then s else
          match old with
          | some (o, x) => adpSettle { s with cdc := { s.cdc with adps := amSet o { x with state := .draining } s.cdc.adps } } o
          | none => s
        streamEnd s n j .ok 0

/-- A header has been read, CRC first: checked against the command, and the command goes on from it (R223). Those of an ADAPTER_LOAD are gathered first, since they give the size of the extent (R236). -/
def takeHeader (s : State) (n : Nat) (j : StreamJob) (b : List Byte) : State :=
  let h := StreamHdr.ofBytes b
  if leField b 0xFC 4 ≠ crc32c (b.take 0xFC) then
    if !j.retried.isEmpty then streamEnd (pieceLasting s j Detail.CDC_CRC) n j .fenced Detail.CDC_FORMAT
    else setStream (s.cnt Reg.CDC_EXP_ERR_CRC_RETRY 1) n { j with retried := [16] }
  else if j.use = .adapter then
    let s := pieceRetried s j
    let j := { j with retried := [], heads := j.heads ++ [b] }
    if j.heads.length * 16 < j.desc.length then setStream s n j else adapterPlace s n j
  else
    match headerRefused s j b with
    | some e => streamEnd s n j e.1 e.2
    | none =>
      let s := pieceRetried s j
      let j := { j with retried := [] }
      match j.use with
      | .adapter => s
      | .expand => setStream s n { j with hdr := b }
      | .table =>
        match tableResolve s j.layer j.cmd.arg1 h with
        | .error e => streamEnd s n j e.1 e.2
        | .ok load => setStream (if load then tableLoading s j.layer h else s) n
          { j with hdr := b, adp := if load then some 0 else none, same := if load then none else (amGet j.layer s.cdc.tables).map (·.curCrc) }

/-- A segment has been read: CRCs, a part that fails twice being lasting, then its tag in ascending order, then its plaintext goes on (R223). A segment whose key is not resident waits (R457). -/
def takeSegment (s : State) (n : Nat) (j : StreamJob) (b : List Byte) : State :=
  let h := StreamHdr.ofBytes j.hdr
  let bad := segBad b
  if bad ≠ [] then
    if bad.any j.retried.contains then streamEnd (pieceLasting s j Detail.CDC_CRC) n j .fenced Detail.CDC_CRC
    else setStream (s.cnt Reg.CDC_EXP_ERR_CRC_RETRY bad.length) n { j with retried := j.retried ++ bad }
  else if leField b 0x50 4 ≠ j.seg ∨ leField b 0x54 4 ≠ segLen h j.seg then streamEnd s n j .fenced Detail.CDC_FORMAT
  else if !keyReady s h.keySlot then keyFill (setStream s n { j with held := some b }) h.keySlot
  else
    match keyUse s h.keySlot h.tenant false with
    | .error e => streamEnd s n j e.1 (streamKeyDetail e.2)
    | .ok k =>
      let s := keyTouch s h.keySlot
      let ct := (b.drop 128).take (segLen h j.seg)
      let nonce := segNonce h j.seg
      let aad := segAad h j.seg j.prevTag
      let tag := (b.drop 0x40).take 16
      if fit 16 (gcmTag k.stream nonce aad ct) ≠ tag then streamTagFail s n j
      else
        let pt := fit ct.length (gcmOpen k.stream nonce ct)
        let s := pieceRetried s j
        let j := { j with retried := [], held := none, seg := j.seg + 1, prevTag := tag, plain := j.plain ++ pt, stored := j.stored ++ b }
        let last := decide (h.segs ≤ j.seg)
        match j.use with
        | .expand => expandCheck (scanBlocks s n j (pt.length / 64 + j.plain.length / 64 + 2)) n
        | .table => if last then tableFinish s n j else setStream s n j
        | .adapter => if last then adapterLayer s n j else setStream s n j

/-- A piece of a stream has arrived. -/
def takePiece (s : State) (n : Nat) (b : List Byte) : State :=
  match amGet n s.cdc.jobs with
  | none => s
  | some j =>
    if j.hdr.isEmpty || (j.use == .adapter && decide (j.heads.length * 16 < j.desc.length)) then takeHeader s n j b else takeSegment s n j b

/-- Reads on while pieces come at once; stops where a piece is on its way, waits for a key, or nothing is left (R223). -/
def streamRun : Nat → State → Nat → State
  | 0, s, _ => s
  | fuel + 1, s, n =>
    match amGet n s.cdc.jobs with
    | none => s
    | some j =>
      if j.held.isSome then s
      else
        match nextPiece j with
        | none => s
        | some (off, len) =>
          match readPiece s n j off len with
          | (s, .data b) => streamRun fuel (takePiece s n b) n
          | (s, .failed d) => streamEnd s n j .fenced d
          | (s, .later) => s

/-- More than the pieces of the longest stream, each part read twice, for every layer of an adapter. -/
def streamFuel : Nat := 2 ^ 30

/-- A read of the controller's own for a stream has been answered (R223): its bytes, or the status and detail that end the command. -/
def streamAnswer (s : State) (n : Nat) (st : Status) (dt : Nat) (b : List Byte) : State :=
  match amGet n s.cdc.jobs with
  | none => s
  | some j => if st = .ok then streamRun streamFuel (takePiece s n b) n else streamEnd s n j st dt

/-- KEY_SLOT_FILL_DONE (R457): the fill ends and the segments that waited for it go on. -/
def keyFillDone (s : State) (i : Nat) : State :=
  let s := keySlotFillDone s i
  (s.cdc.jobs.filter fun e => e.2.held.isSome && keyReady s (StreamHdr.ofBytes e.2.hdr).keySlot).foldl (fun s e =>
    match e.2.held with
    | some b => streamRun streamFuel (takeSegment s e.1 { e.2 with held := none } b) e.1
    | none => s) s

def execKeySlotFillDone (index : Nat) (s : State) : Host.Outcome State Fault Refusal := nextOf s (keyFillDone s index)

/-! ### Commands -/

/-- Whether the role expands streams (R15, R230). -/
def expandRole (s : State) : Bool := roleEnables s [rolePrompt, roleGeneration, roleMixed]

/-- Whether an EXPAND descriptor is in range (R228). -/
def expandDescOk (d : List Byte) : Bool :=
  let fmt := leField d 0x1C 1
  leField d 0xC 4 == 0 && (fmt == 1 || fmt == 2) && decide (leField d 0x1D 1 < 8) && decide (leField d 0x1E 1 < 8) && leField d 0x1F 1 == 0
  && decide (leField d 0x30 4 < 2 ^ 20) && allZero (d.drop 0x3A) && (leField d 0x34 4 == 0 || leField d 0 8 == 0)

/-- EXPAND (R228 to R230, R238, R239, R542, R546). -/
def expandBody (c : Cmd) : Body := fun s d =>
  if !expandRole s then fail s .fenced 0
  else if !expandDescOk d then fail s .fenced Detail.CDC_FORMAT
  else if [0, 2].contains (s.r (Reg.HIF_FLEX_CFG_MODE.at 0x20 (leField d 0x1D 1))) then fail s .fenced Detail.CDC_FORMAT
  else if leField d 0x30 4 ≠ 0 ∧ !tenantInRange s c.fn (leField d 0x30 4) then fail s .fenced Detail.CDC_KEY
  else if !portLive s (leField d 0x1D 1) then fail s .fenced Detail.FLT_LINK
  else
    let ad := leField d 0x34 4
    if ad = 0 then
      let p := newStream s Op.EXPAND c .expand d none 0
      (streamRun streamFuel p.1 p.2, none)
    else
      match adpResident s ad with
      | none => fail s .fenced Detail.CDC_ADP_ABSENT
      | some (k, a) =>
        if a.layers.length ≤ leField d 0x38 2 then fail s .fenced Detail.CDC_FORMAT
        else
          let s := { s with cdc := { s.cdc with adps := amSet k { a with pins := a.pins + 1 } s.cdc.adps } }
          let p := newStream s Op.EXPAND c .expand d (some k) 0
          (streamRun streamFuel p.1 p.2, none)

def execExpand (c : Cmd) (s : State) : Host.Outcome State Fault Refusal := runPlain s Op.EXPAND c (expandBody c)

/-- TABLE_LOAD (R232). -/
def tableLoadBody (c : Cmd) : Body := fun s _ =>
  if s.changing then fail s .conflict Detail.ROLE_BUSY
  else
    let p := newStream s Op.TABLE_LOAD c .table [] none c.arg0
    (streamRun streamFuel p.1 p.2, none)

def execTableLoad (c : Cmd) (s : State) : Host.Outcome State Fault Refusal := runPlain s Op.TABLE_LOAD c (tableLoadBody c)

/-- TABLE_FREE (R234). -/
def tableFreeBody (c : Cmd) : Body := fun s _ =>
  match amGet c.arg0 s.cdc.tables with
  | none => answer s Done.ok
  | some T =>
    let named := T.kind == 1 && s.sch.ctxs.any fun e => e.2.model == T.model
    if T.curUsers ≠ 0 ∨ T.otherUsers ≠ 0 ∨ T.loading ∨ named then fail s .conflict 0
    else answer (tblRegs { s with cdc := { s.cdc with tables := amErase c.arg0 s.cdc.tables } } c.arg0) Done.ok

def execTableFree (c : Cmd) (s : State) : Host.Outcome State Fault Refusal := runPlain s Op.TABLE_FREE c (tableFreeBody c)

/-- Whether adapter version v is older than w in 12-bit serial order (R236). -/
def adpOlder (v w : Nat) : Bool := decide (1 ≤ (w + 4096 - v) % 4096) && decide ((w + 4096 - v) % 4096 < 2048)

/-- ADAPTER_LOAD (R236, R239). -/
def adapterLoadBody (c : Cmd) : Body := fun s d =>
  let v := c.arg0 / 2 ^ 20
  let id := c.arg0 % 2 ^ 20
  if s.changing then fail s .conflict Detail.ROLE_BUSY
  else if v = 0 ∨ id = 0 then fail s .fenced Detail.CDC_FORMAT
  else if (adpResident s c.arg0).isSome then answer s Done.ok
  else if !bit c.arg1 0 && (match adpCurrent s id with | some (_, a) => adpOlder v (a.word / 2 ^ 20) | none => false) then fail s .stale 0
  else if (amFree s.cdc.adps 0 4096).isNone then fail s .noCredit Detail.CDC_ADP_SLOTS
  else
    let p := newStream s Op.ADAPTER_LOAD c .adapter d none 0
    (streamRun streamFuel p.1 p.2, none)

def execAdapterLoad (c : Cmd) (s : State) : Host.Outcome State Fault Refusal := runPlain s Op.ADAPTER_LOAD c (adapterLoadBody c)

/-- ADAPTER_RETIRE (R238). -/
def adapterRetireBody (c : Cmd) : Body := fun s _ =>
  match adpCurrent s c.arg0 with
  | none => fail s .fenced Detail.CDC_ADP_ABSENT
  | some (k, a) => answer (adpSettle { s with cdc := { s.cdc with adps := amSet k { a with state := .draining } s.cdc.adps } } k) Done.ok

def execAdapterRetire (c : Cmd) (s : State) : Host.Outcome State Fault Refusal := runPlain s Op.ADAPTER_RETIRE c (adapterRetireBody c)

end Sys2Proof.Machine
end

