-- ==== Sys2Proof/Machine/Reconstruct.lean ====
section
/-! DEFINITION. Reconstruction of stripe units from a parity group (R385, R387, R389), for rebuilds, resynchronisation, backups and the repair of bolts (R446). -/

namespace Sys2Proof.Machine

/-- The node of member i of the group this node is a data member of, or of the one it keeps parity for (R381). -/
def memberNode (s : State) (par : Bool) (i : Nat) : Nat := s.r (Reg.TIR_CP_MEMBER_NODE.at 4 (i + if par then 9 else 0))

/-- This member's bytes of a unit. -/
def unitRead (s : State) (u : Nat) : List Byte := s.rd (protAddr s (u * unitBytes)) unitBytes

/-- Whether two jobs are the same. -/
def sameUnit (a b : UnitJob) : Bool := a.unit == b.unit && a.par == b.par && a.lost == b.lost && a.use == b.use

/-- Changes a job. -/
def modUnit (s : State) (j : UnitJob) (f : UnitJob → UnitJob) : State :=
  { s with cp := { s.cp with jobs := s.cp.jobs.map fun (i : UnitJob) => if sameUnit i j then f i else i } }

/-- Drops a job. -/
def dropUnit (s : State) (j : UnitJob) : State := { s with cp := { s.cp with jobs := s.cp.jobs.filter fun i => !sameUnit i j } }

/-- The unbuilt and the running bits of TIR_CP_REB_STATUS. -/
def rebRegs (s : State) : State :=
  (s.setR Reg.TIR_CP_REB_STATUS_UNBUILT (s.cp.unTo - s.cp.built.length)).setR Reg.TIR_CP_REB_STATUS_RUNNING (b2n s.cp.rebuild.isSome)

/-- Asks every survivor for its lock (R385 step 1). -/
def askLocks (s : State) (j : UnitJob) : State := j.asked.foldl (fun s n => s.emit (.msg n (.unitLock j.unit))) s

/-- Releases the locks held, with each survivor's generation (R385 step 5). -/
def giveLocks (s : State) (j : UnitJob) : State := j.answers.foldl (fun s a => s.emit (.msg a.1 (.unitUnlock j.unit a.2.1))) s

/-- Adds a unit to those to reconstruct. -/
def wantUnit (s : State) (par : Bool) (lost : Nat) (use : UnitFor) (u : Nat) : State :=
  let j : UnitJob := { unit := u, par := par, lost := lost, use := use, asked := ((List.range 8).filter (· ≠ lost)).map (memberNode s par),
                       answers := [], tries := 0, begun := false, result := none }
  if s.cp.jobs.any (sameUnit j) then s else { s with cp := { s.cp with jobs := s.cp.jobs ++ [j] } }

/-- Whether a job reads a parity unit of this node itself (R385 step 3). -/
def readsParity (j : UnitJob) : Bool := j.par && j.lost != 8

/-- Whether a job may ask for its locks: no other job holds those of the unit, a repair has no delta of its own in flight for it, and a parity unit of this node that it reads is built (R388). -/
def unitMayBegin (s : State) (j : UnitJob) : Bool :=
  !j.begun && !(s.cp.jobs.any fun i => i.begun && i.unit == j.unit && i.par == j.par)
  && (j.use != .repair || !(s.cp.deltas.any fun d => d.2.units.contains j.unit))
  && !(readsParity j && unitUnbuilt s true j.unit)

/-- Begins every job that may. -/
def unitsBegin (s : State) : State :=
  s.cp.jobs.foldl (fun s j =>
    if unitMayBegin s j then modUnit (askLocks s j) j fun i => { i with begun := true } else s) s

/-- The next unit of the rebuild or resynchronisation: one moved to the front, else in ascending order (R387, R388). -/
def nextUnit (s : State) (r : Rebuild) : Option Nat :=
  let busy (u : Nat) : Bool := s.cp.jobs.any fun j => (j.use == .rebuild || j.use == .resync) && j.unit == u
  if r.op = Op.RESYNC then r.todo.find? fun u => !busy u
  else
    let due (u : Nat) : Bool := decide (u < s.cp.unTo) && !s.cp.built.contains u && !busy u
    match s.cp.front.find? due with
    | some u => some u
    | none => (List.range s.cp.unTo).find? due

/-- Takes up units while fewer than INFLIGHT are in reconstruction and the rebuild class is below its cap (R387, R393). -/
def rebuildFill (s : State) : Nat → State
  | 0 => s
  | n + 1 =>
    match s.cp.rebuild with
    | none => s
    | some r =>
      if classCapped s 2 ∨ min 128 (max 1 (s.r Reg.TIR_CP_CFG_INFLIGHT)) ≤ s.cp.jobs.countP (fun j => j.use == .rebuild || j.use == .resync) then s
      else
        match nextUnit s r with
        | none => s
        | some u =>
          let s := if r.op = Op.REBUILD then wantUnit s false (s.r Reg.TIR_CP_GROUP_D_IDX) .rebuild u
            else wantUnit s true 8 (if r.op = Op.RESYNC then .resync else .rebuild) u
          rebuildFill (chargeClass s 2 unitBytes) n

/-- Goes on with the rebuild and with every job that may begin. -/
def rebuildGo (s : State) : State := unitsBegin (rebuildFill s 128)

/-- A rebuild ends: its command, and the units in reconstruction for it. -/
def rebuildEnd (s : State) (d : Done) : State :=
  match s.cp.rebuild with
  | none => s
  | some r =>
    let mine := s.cp.jobs.filter fun j => j.use == .rebuild || j.use == .resync
    let s := mine.foldl (fun s j => dropUnit (giveLocks s j) j) s
    let s := { s with cp := { s.cp with rebuild := none, front := [] } }
    let s := if d.status = .ok ∧ r.op ≠ Op.RESYNC then s.setR Reg.TIR_CP_REB_STATUS_DONE 1 else s
    completeCmd (rebRegs s) r.op r.cmd d

/-- The backups that need a unit fail (R385, R389). -/
def demandFail (s : State) (j : UnitJob) (dt : Nat) : State :=
  let s := dropUnit (giveLocks s j) j
  let hit := s.cp.backups.filter fun e => e.2.lost == j.lost && e.2.need.contains j.unit
  hit.foldl (fun s e => statusFor { s with cp := { s.cp with backups := amErase e.1 s.cp.backups } } e.2.msg .fenced dt 0) s

/-- A unit cannot be reconstructed (R385, R389): whoever asked for it is told. With a rebuild of the parity area go the backups that its unbuilt units hold up. -/
def unitFail (s : State) (j : UnitJob) (dt : Nat) : State :=
  match j.use with
  | .rebuild | .resync =>
    let s := rebuildEnd (dropUnit (giveLocks s j) j) (Done.of .fenced dt)
    let gone := s.cp.jobs.filter fun i => i.use == .demand && readsParity i && unitGone s true i.unit
    unitsBegin (gone.foldl (fun s i => demandFail s i Detail.CP_DOUBLE) s)
  | .demand => unitsBegin (demandFail s j dt)
  | .repair =>
    let s := dropUnit (giveLocks s j) j
    unitsBegin { s with cp := { s.cp with repairs := amMap (fun _ (r : Repair) => if r.need.contains j.unit then { r with failed := some dt } else r) s.cp.repairs } }

/-- A unit's result is formed from its survivors' data and, for a data unit, the parity unit; the locks are released (R385 steps 3 to 5). -/
def unitForm (s : State) (j : UnitJob) (parts : List (List Byte)) : State :=
  let r := parts.foldl xorBytes (List.replicate unitBytes (0 : Byte))
  modUnit (giveLocks s j) j fun i => { i with result := some r }

/-- Every survivor of a job has answered: the parity unit is read, here or at the group's parity node (R385 step 3). One of this node that a rebuild has come to hold unbuilt meanwhile is waited for without the locks (R388). -/
def unitLocksIn (s : State) (j : UnitJob) : State :=
  let data := j.answers.map (·.2.2)
  if j.lost = 8 then unitForm s j data
  else if j.par then
    if unitUnbuilt s true j.unit then modUnit (unitToFront (giveLocks s j) j.unit) j fun i => { i with begun := false, answers := [] }
    else unitForm (chargeClass s 2 unitBytes) j (data ++ [s.rd (parAddr s j.unit) unitBytes])
  else
    let n := s.xch.nextRead
    let s := { s with xch := { s.xch with reads := amSet n ⟨.unit j.unit j.lost, 0, unitBytes⟩ s.xch.reads, nextRead := n + 1 } }
    s.emit (.msg (memberNode s false 8) (.readRegion n (s.r Reg.TIR_CP_PKEY_KEY) (j.unit * unitBytes) unitBytes))

/-- The parity unit read from the parity node arrives, or the read fails: two members are lost (R389). -/
def unitParity (s : State) (u lost : Nat) (b : Option (List Byte)) : State :=
  match s.cp.jobs.find? fun j => j.unit == u && j.lost == lost && !j.par && j.result.isNone && decide (j.asked.length = j.answers.length) with
  | none => s
  | some j =>
    match b with
    | some b => unitForm s j (j.answers.map (·.2.2) ++ [b])
    | none => unitFail s j Detail.CP_DOUBLE

/-! ### Repair of a bolt (R446) -/

/-- What a repair of the bolt at an address says to a reader that has found its CRC wrong: wait for the repair, or end with a detail. -/
inductive RepairView where
  | wait (s : State)
  | ended (s : State) (dt : Nat)

/-- A bolt's CRC has failed for good on a data member: its units are reconstructed once before the failure is reported (R446). -/
def repairBolt (s : State) (a n : Nat) : RepairView :=
  if s.role ≠ roleCache ∨ !dataMember s ∨ !inProt s a n then .ended s Detail.BOLT_CRC
  else
    match amGet a s.cp.repairs with
    | none =>
      let us := unitsOf s a n
      let s := { s with cp := { s.cp with repairs := amSet a ⟨us, none⟩ s.cp.repairs } }
      .wait (unitsBegin (us.foldl (wantUnit · false (s.r Reg.TIR_CP_GROUP_D_IDX) .repair) s))
    | some r =>
      let drop : State := { s with cp := { s.cp with repairs := amErase a s.cp.repairs } }
      match r.failed with
      | some dt => .ended drop dt
      | none => if r.need.isEmpty then .ended drop Detail.BOLT_CRC else .wait s

/-- A bolt has passed R73 after its repair: a record with action REPAIRED at severity 3 (R446). -/
def boltRepaired (s : State) (a handle : Nat) : State :=
  if amHas a s.cp.repairs then
    let s := { s with cp := { s.cp with repairs := amErase a s.cp.repairs } }
    postFault s { faultRec Src.stack Act.repaired 3 ((stackAt s a).getD 0) 0 Detail.BOLT_CRC with address := a, handle := handle }
  else s

end Sys2Proof.Machine
end

