-- ==== Sys2Proof/Machine/Spec.lean ====
section
/-! DEFINITION. Speculative verification (R137 to R142): VERIFY, COMMIT and ROLLBACK. -/

namespace Sys2Proof.Machine

/-- Whether the role verifies (R15). -/
def verifyRole (s : State) : Bool := roleEnables s [roleGeneration, roleMixed]

/-- Whether a parent table of N nodes has node 0 as its only root and every other parent below its node (R105, R138). -/
def treeOk (n : Nat) (tree : List Nat) : Bool :=
  tree.getD 0 0 == 0xFF && (List.range n).all fun i => i == 0 || decide (tree.getD i 0xFF < i)

/-- VERIFY (R137, R138): refused as its merge slot cannot hold it or its merge area cannot be reached (R445), the request enters PAUSED as by software (R126). Else the tail is allocated and the step released; a decode step of the same position that the scheduler has released gives way to it (log 39). The command completes with the step's last layer, which R138 does not say (DESIGN CHOICE, log 168), and a role that does not verify answers before the handle is looked at (DESIGN CHOICE, log 165). -/
def verifyBody (c : Cmd) : Body := fun s d =>
  if !verifyRole s then redirect s
  else withCtx c s fun x =>
    let bad (st : Status) (dt : Nat) : State × Option Done := (s, some { Done.of st dt with handle := c.handle })
    let tree := (d.take c.arg0).map (·.toNat)
    if x.tentCount ≠ 0 then bad .conflict Detail.SPEC_BUSY
    else if x.phase ≠ .decode ∨ x.tlogLen ≤ x.kvLen then bad .conflict 0
    else if !treeOk c.arg0 tree then bad .fenced Detail.ATT_TREE
    else
      match stepTrouble s x c.arg0 with
      | some dt => (pauseNow s x false, some { Done.of .fenced dt with handle := c.handle })
      | none =>
      let s := dropStep s x.handle
      match s.ctx x.handle with
      | none => (s, some { Done.of .stale 0 with handle := c.handle })
      | some x =>
        let x := { x with tentCount := c.arg0, verifyN := c.arg0, verifyTree := tree, verifyDone := false, verifyCmd := some c, layer := 0 }
        let p := match modelOf s x with | some m => (tentAlloc s x m).getD (s, x) | none => (s, x)
        (releaseWork p.1 p.2 3 c.arg0, none)

def execVerify (c : Cmd) (s : State) : Host.Outcome State Fault Refusal := runPlain s Op.VERIFY c (verifyBody c)

/-- Whether a path begins at node 0 and follows parents (R139). -/
def pathOk (tree path : List Nat) : Bool :=
  path.headD 1 == 0 && (List.range (path.length - 1)).all fun i => tree.getD (path.getD (i + 1) 0) 0xFF == path.getD i 0

/-- How many of the path's tokens are committed (R140): up to an end token or the limit of R41. -/
def keptTokens (s : State) (x : Ctx) (toks : List Nat) : Nat :=
  match (List.range toks.length).find? fun i =>
      isEndToken s x (toks.getD i 0) || decide (x.maxNew ≤ x.tlogLen + i + 1 - x.promptLen) || decide (4194304 ≤ x.tlogLen + i + 1) with
  | some i => i + 1
  | none => toks.length

/-- What a copy of tentative rows meets: it goes on, or a bolt at an address cannot be read, or a key is refused. -/
inductive CopyEnd where
  | ok (s : State)
  | unreadable (addr detail : Nat)
  | refused (st : Status) (dt : Nat)

/-- The staged image of destination cut k of a layer and head: the path's rows that fall into it, from the tentative slots (R140). -/
def stageRows (s : State) (x : Ctx) (m : Model) (tents : List (List Byte)) (slot k addr : Nat) (path : List Nat) : List Byte :=
  let d := hdimOf m.hdim
  let size := slotBytes m.format m.hdim
  let th := BoltHdr.ofBytes (tents.headD [])
  let last := min 32 (x.kvLen + path.length - 32 * k)
  let h : BoltHdr := { th with flags := 0, fill := last, first := 32 * k, home := homeAddr s addr, ring := s.tir.localIds.ringOf slot }
  let oh := BoltHdr.ofBytes (s.rd addr size)
  let h := if sameBolt oh h then { h with profile := oh.profile, profileVer := oh.profileVer } else h
  let body := List.replicate (size - 64) (0 : Byte)
  path.zipIdx.foldl (fun l e =>
    let p := x.kvLen + e.2
    if p / 32 = k then copyRow m.format d l (tents.getD (e.1 / 32) []) (p % 32) (e.1 % 32) else l) (h.bytes ++ leBytes 8 0 ++ body)

/-- Copies the path's rows of one layer and head into the open cut and those after it (R140). -/
def copyPath (s : State) (x : Ctx) (m : Model) (slots path : List Nat) (layer h : Nat) : CopyEnd :=
  let k0 := x.cutCount
  let t := x.tentSlot.getD 0
  let stride := slotBytes m.format m.hdim * (m.layers * boltsOn m.kvHeads (sliceGroup m.kvHeads k0) (boltStack m h k0))
  let wants := (List.range ((x.verifyN + 31) / 32)).map fun j =>
    ({ format := m.format, hdim := m.hdim, layer := layer, head := h, tenant := x.tenant, fetched := false, shared := false,
       ref := ⟨boltLocal s m t layer h k0 + j * stride, x.kvLen / 32 * 32, s.tir.localIds.ringOf t, min 32 (x.verifyN - 32 * j)⟩ } : BoltWant)
  let reads := wants.map fun w => (w.ref.addr, readBolt s w)
  match reads.find? fun r => match r.2 with | .error _ => true | .ok _ => false with
  | some (a, .error dt) => .unreadable a dt
  | _ =>
    let tents := reads.map fun r => match r.2 with | .ok l => l | .error _ => []
    let ks := (List.range slots.length).filter fun i => decide (32 * (k0 + i) < x.kvLen + path.length)
    ks.foldl (fun (r : CopyEnd) i =>
      match r with
      | .ok s =>
        let slot := slots.getD i 0
        let addr := boltLocal s m slot layer h (k0 + i)
        (match writeRows s (stageRows s x m tents slot (k0 + i) addr path) addr x.tenant with
         | .ok s => .ok s
         | .error e => .refused e.1 e.2)
      | e => e) (.ok s)

/-- Copies the path's rows of every layer and head. -/
def copyAll (s : State) (x : Ctx) (m : Model) (slots path : List Nat) : CopyEnd :=
  (List.range m.layers).foldl (fun r layer =>
    (List.range m.kvHeads).foldl (fun (r : CopyEnd) h =>
      match r with
      | .ok s => copyPath s x m slots path layer h
      | e => e) r) (.ok s)

/-- COMMIT (R139, R140, R142): the path's rows are copied and the step is committed. With no local slot for the rows it waits under ST_LOCAL_FULL, with an unreadable tentative bolt under that bolt's stall; it starts again later (log 40). -/
def commitBody (c : Cmd) : Body := fun s d =>
  if !verifyRole s then redirect s
  else withCtx c s fun x =>
    let bad (dt : Nat) : State × Option Done := (s, some { Done.of .conflict dt with handle := c.handle })
    let path := (d.take (min 64 c.arg0)).map (·.toNat)
    let toks := (List.range c.arg0).map fun i => leField d (64 + 4 * i) 4
    if x.tentCount = 0 then bad Detail.SPEC_BUSY
    else if x.phase ≠ .decode ∧ x.phase ≠ .paused then bad 0
    else if c.arg0 = 0 ∨ x.verifyN < c.arg0 ∨ !pathOk x.verifyTree path ∨ path.any (fun n => decide (x.verifyN ≤ n)) then bad Detail.SPEC_PATH
    else if !x.verifyDone then bad Detail.SPEC_BUSY
    else
      match modelOf s x with
      | none => bad 0
      | some m =>
        let n := keptTokens s x toks
        let path := path.take n
        let p := openCut s x
        let want := (x.kvLen + n - 1) / 32 - x.cutCount
        match p.2.openSlot, slotsAhead p.1 p.2 m want (want + 1) with
        | some i, some (s', x') =>
          let s' := s'.setCtx x'
          (match copyAll s' x' m (i :: x'.ahead) path with
           | .ok s'' => (issueCommit ([St.localFull, St.boltCrc, St.boltIdentity, St.stack, St.cxlLate].foldl (fun s c => stallClear s x'.handle c) s'') x' .commitSpec x'.committed (x'.committedLen + n) (toks.take n) (some (Op.COMMIT, c)), none)
           | .unreadable a dt => (unstartCmd (boltTrouble s' x'.handle a dt) Op.COMMIT c, none)
           | .refused st dt => (s', some { Done.of st dt with handle := c.handle }))
        | _, _ => (unstartCmd (stallBegin (p.1.setCtx p.2) x.handle St.localFull) Op.COMMIT c, none)

def execCommit (c : Cmd) (s : State) : Host.Outcome State Fault Refusal := runPlain s Op.COMMIT c (commitBody c)

/-- ROLLBACK (R141, R142): the tail is freed and nothing else changes; the next step computes position KV_LEN again. A CANCEL that waited for the step to commit goes on, since none will (R48). A VERIFY still pending ends CONFLICT (R141 does not say how: DESIGN CHOICE, log 169). -/
def rollbackBody (c : Cmd) : Body := fun s _ =>
  if !verifyRole s then redirect s
  else withCtx c s fun x =>
    if x.tentCount = 0 then (s, some { Done.of .conflict Detail.SPEC_BUSY with handle := c.handle })
    else
      let s := dropStep s x.handle
      match s.ctx x.handle with
      | none => (s, some { Done.of .stale 0 with handle := c.handle })
      | some x =>
        let s := match x.verifyCmd with | some v => completeCmd s Op.VERIFY v { Done.of .conflict 0 with handle := x.handle } | none => s
        let s := match x.tentSlot with | some i => dropLocal s i | none => s
        let x := { x with tentCount := 0, tentRoot := 0, tentSlot := none, verifyN := 0, verifyTree := [], verifyDone := false, verifyCmd := none, layer := 0 }
        (retryLayers (match x.cancelPending with
          | some v => commitDone (s.setCtx { x with cancelPending := none }) { x with cancelPending := none } endCancelled (some (Op.CANCEL, v))
          | none => startDecode s x), some { Done.ok with handle := c.handle })

def execRollback (c : Cmd) (s : State) : Host.Outcome State Fault Refusal := runPlain s Op.ROLLBACK c (rollbackBody c)

end Sys2Proof.Machine
end

