-- ==== Sys2Proof/Machine/Stand.lean ====
section
/-! DEFINITION. Stands (spec/10): windows and the deck, placing tasks and starting frames, how a task ends, frame switches, and loading programs. -/

namespace Sys2Proof.Machine

/-! ### Windows (R241 to R244) -/

/-- The bytes of a frame's window under a DEPTH. -/
def winBytes (depth : Nat) : Nat := if depth ≤ 1 then 0x400000 else if depth = 2 then 0x200000 else 0x100000
/-- The deck address of frame f's window. -/
def winAt (depth f : Nat) : Nat := f * winBytes depth

/-- How a range of a window may be used (R243): freely, not at all because it touches a reserved range, or it runs past the window. -/
inductive Range where
  | usable | reserved | past
  deriving DecidableEq, Repr

/-- Whether [a, a + n) meets [lo, hi). -/
def meets (a n lo hi : Nat) : Bool := decide (a < hi) && decide (lo < a + n)

/-- The use of a range of n bytes at window offset a (R242, R243): the save area may be addressed, the two reserved ranges may not. -/
def rangeOf (depth a n : Nat) : Range :=
  if winBytes depth < a + n ∨ winBytes depth ≤ a then .past
  else if meets a n 0x100 0x400 || meets a n 0x2800 0x4000 then .reserved else .usable

/-- Bytes of a stand's deck. -/
def Stand.rd (S : Stand) (f a n : Nat) : List Byte := memReadN S.deck (winAt S.depth f + a) n
/-- Stores bytes in a stand's deck, at an offset of frame f's window. -/
def Stand.wr (S : Stand) (f a : Nat) (l : List Byte) : Stand := { S with deck := memWriteN S.deck (winAt S.depth f + a) l }

/-- Deck bytes as a command of frame f reads those that later stores of its frame do not reach: as they stood before them (R250). -/
def Stand.rdKept (S : Stand) (f : Nat) (kept : AMap Byte) (a n : Nat) : List Byte := (S.rd f a n).zipIdx.map fun b => amGetD (a + b.2) b.1 kept

/-- Keeps, for the commands of frame f that have not finished, the bytes that a store of n bytes at an offset of its window is about to replace (R250). -/
def Stand.keep (S : Stand) (f a n : Nat) : Stand :=
  let old := (S.rd f a n).zipIdx
  let keep (c : EngCmd) : EngCmd :=
    if c.frame == f then { c with kept := old.foldl (fun m b => if amHas (a + b.2) m then m else amSet (a + b.2) b.1 m) c.kept } else c
  { S with att := S.att.map keep, cdc := S.cdc.map keep, mov := S.mov.map keep }

/-- The register files at a frame's start (R246). -/
def Files.start (jobTag : Nat) : Files := ⟨amSet 1 (BitVec.ofNat 64 jobTag) [], [], amSet 0 true [], []⟩

/-! ### How a task ends (R256, R257, R179) -/

/-- A layer of a request cannot go on (R126, R179, R257): its entry ends with FENCED and a detail and the request enters PAUSED as by software. -/
def failLayer (s : State) (h dt : Nat) : State :=
  let s := withdrawTasks s h
  match s.layer h, s.ctx h with
  | some L, some x =>
    let s := { s with xch := { s.xch with layers := amErase h s.xch.layers } }
    let s := match L.merge with | some k => freeMerge s k | none => s
    let s := setResult s L.window L.slot L.entry Status.fenced.code dt
    let vc := x.verifyCmd
    let x := { x with layer := L.layer, verifyCmd := none }
    let s := match vc with | some c => completeCmd (s.setCtx x) Op.VERIFY c { Done.of .fenced dt with handle := h } | none => s.setCtx x
    pauseNow s x false
  | _, _ => s

/-- A task ends with FENCED and a detail: at the ATTEND, the EXPAND or the request it serves (R179, R256, R257). -/
def taskFailed (s : State) (t dt : Nat) : State :=
  match amGet t s.xch.tasks with
  | none => s
  | some T =>
    let s := { s with xch := { s.xch with tasks := amErase t s.xch.tasks } }
    match T.attend, T.expand with
    | some n, _ => serveTaskDone s n t (some (Status.fenced.code, dt))
    | none, some (n, _) => expandBlockFailed s n .fenced dt
    | none, none => failLayer s T.handle dt

/-- Puts a task back at the head of its home column's ready list, to start again (R179). -/
def replaceTask (s : State) (t : Nat) : State :=
  { s with xch := { s.xch with tasks := amMod t (fun T => { T with stand := none, front := true, since := s.now }) s.xch.tasks } }

/-- A program fault (R257): recorded, the frame ended, its task ended with FENCED and the detail. -/
def progFault (s : State) (st f dt pc : Nat) : State :=
  match amGet f (s.stand st).frames with
  | none => s
  | some F =>
    let at_ (x : Fld) : Fld := x.at 0x10000 st
    let s := ((s.setR (at_ Reg.STD_SEQ_FAULT_VALID) 1).setR (at_ Reg.STD_SEQ_FAULT_DETAIL) dt).setR (at_ Reg.STD_SEQ_FAULT_FRAME) f
    let s := (s.setR (at_ Reg.STD_SEQ_FAULT_PC) (pc % 2 ^ 14)).cnt (at_ Reg.STD_SEQ_COUNT_FAULTS) 1
    let s := scbNote s { faultRec Src.stand Act.recorded 4 st Status.fenced.code dt with jobTag := F.jobTag }
    taskFailed (stopFrame s st f) F.task dt

/-- Whether a detail is one of the codec's (R239: 0x80 to 0x8F). -/
def codecDetail (dt : Nat) : Bool := dt / 16 == Detail.CDC_FORMAT / 16

/-- A task's outcome as its program halted with it (R256). -/
def taskHalted (s : State) (st f t : Nat) (code dt pc : Nat) : State :=
  match amGet t s.xch.tasks with
  | none => endFrame s st f
  | some T =>
    if code = Status.ok.code then
      let s := endFrame s st f
      let s := { s with xch := { s.xch with tasks := amErase t s.xch.tasks } }
      match T.attend, T.expand with
      | some n, _ => serveTaskDone s n t none
      | none, some (n, i) => expandBlockDone s n i
      | none, none => layerTaskDone s T t
    else if (code = Status.fenced.code ∧ dt = Detail.ATT_PARITY) ∨ code = Status.errorFlushed.code then replaceTask (endFrame s st f) t
    else if code = Status.fenced.code ∧ (dt = Detail.BOLT_CRC ∨ dt = Detail.BOLT_IDENTITY ∨ dt = Detail.FLT_STACK ∨ dt = Detail.FLT_LINK ∨ dt = Detail.CP_CXL_LOST ∨ dt = Detail.CP_DOUBLE ∨ dt = Detail.CP_LOCK_LOST) then
      let s := endFrame s st f
      match T.attend, T.expand with
      | some n, _ => serveTaskDone { s with xch := { s.xch with tasks := amErase t s.xch.tasks } } n t (some (code, dt))
      | none, some _ => taskFailed s t dt
      | none, none => taskHeld s t T dt
    else if code = Status.fenced.code ∧ codecDetail dt then taskFailed (endFrame s st f) t dt
    else progFault s st f Detail.STD_HALT pc

/-- Whether a frame has a command that is not finished. -/
def Stand.busy (S : Stand) (f : Nat) : Bool := S.att.any (fun c => c.frame == f) || S.cdc.any (fun c => c.frame == f) || S.mov.any (fun c => c.frame == f)

/-- Ends a frame that has halted once its bundle's other slots have acted (R247) and its last command has completed (R256), or that is withdrawn once its last command has stopped (R260). -/
def settleFrame (s : State) (st f : Nat) : State :=
  match amGet f (s.stand st).frames with
  | none => s
  | some F =>
    if F.withdrawing then (if (s.stand st).busy f then s else endFrame s st f)
    else
    match F.halted with
    | some (code, dt) => if (s.stand st).busy f || !F.slotsRun.isEmpty then s else taskHalted s st f F.task code dt F.pc
    | none => s

/-! ### Placing tasks (R176 to R179, R182, R190, R192, R241 to R246) -/

/-- Whether every stand is fenced. -/
def noStand (s : State) : Bool := (List.range 64).all (standFenced s)

/-- The DEPTH in force at a stand (R244): the one software set where it holds no frame. -/
def depthAt (s : State) (S : Stand) : Nat := if S.frames.isEmpty then placeDepth s else S.depth

/-- MIX_STANDS as it acts. -/
def mixStands (s : State) : Nat := min 8 (max 1 (s.r Reg.SCH_PLACE_CFG_MIX_STANDS))

/-- Whether a stand holds a prefill task. -/
def holdsPrefill (s : State) (st : Nat) : Bool := s.xch.tasks.any fun e => e.2.stand == some st && e.2.kind == 2

/-- The stands of column c in row order (R4). -/
def colStands (c : Nat) : List Nat := (List.range 8).map fun r => 8 * c + r

/-- Whether a stand is free for a task (R177); one placed again waits for queues that take commands (R256). -/
def standFree (s : State) (T : Task) (st : Nat) : Bool :=
  let S := s.stand st
  !standFenced s st && !colClosed s (st / 8) && decide (S.frames.length < depthAt s S)
  && (T.kind != 2 || !(s.role == roleGeneration || s.role == roleMixed) || holdsPrefill s st
      || decide ((colStands (st / 8)).countP (holdsPrefill s) < mixStands s))
  && (!T.front || (!S.attErr && !S.cdcErr))

/-- The stand a task takes (R178), and whether it lies outside the home column. -/
def standFor (s : State) (T : Task) : Option (Nat × Bool) :=
  match (colStands T.col).find? (standFree s T) with
  | some st => some (st, false)
  | none => if s.r Reg.SCH_PLACE_CFG_OVERFLOW = 1 then ((List.range 64).find? (standFree s T)).map fun st => (st, true) else none

/-- The tasks that are ready, each with its number: those held back by a bad bolt are not (R209). -/
def readyTasks (s : State) : List (Nat × Task) := s.xch.tasks.filter fun e => e.2.stand.isNone && !e.2.held

/-- The input of the chip arbiter a task comes under: its class, or its tenant on a cache-role node. -/
def chipInput (s : State) (T : Task) : Nat := if s.role = roleCache then leField T.record 0x10 4 else T.lclass

/-- Whether task a is served before task b of the same flow: one placed again first, then the older. -/
def taskBefore (a b : Nat × Task) : Bool := (a.2.front && !b.2.front) || (a.2.front == b.2.front && decide (a.1 ≤ b.1))

/-- What a flow or an input offers. -/
def offerOfTask (i w : Nat) (t : Nat × Task) : Offer := ⟨i, w, t.2.cost, t.2.since⟩

/-- The offers of a list of heads grouped by a key: one per key, weight 1. -/
def flowOffers (ts : List (Nat × Task)) : List (Offer × (Nat × Task)) :=
  let flows := (ts.map fun t => t.2.flowKey).eraseDups
  flows.filterMap fun k =>
    match isort taskBefore (ts.filter fun t => t.2.flowKey == k) with
    | t :: _ => some (offerOfTask k 1 t, t)
    | [] => none

/-- The chip quantum in SCLK cycles (SCH_ARB_Q). -/
def chipQ (s : State) : Nat := max 1 (s.r Reg.SCH_ARB_Q_CHIP_Q) * 4096

/-- The weight of an input of the chip arbiter whose tasks make n flows: on a cache-role node a tenant's ATTENDs in progress (R190). -/
def chipWeight (s : State) (i n : Nat) : Nat :=
  if s.role = roleCache then max n (s.xch.serving.countP fun e => e.2.msg.tenant == i) else n

/-- The choice of the chip arbiter (R190) among the ready tasks, of which those in `ts` have a free stand: the task, and the arbiters after it. A flow whose tasks find no stand keeps its place and counts among the flows of its input. -/
def chipChoose (s : State) (all ts : List (Nat × Task)) : Option ((Nat × Task) × State) :=
  let q := chipQ s
  let age := arbAge s
  let ins := (all.map fun t => chipInput s t.2).eraseDups
  let head (i : Nat) (l : List (Nat × Task)) : List (Offer × (Nat × Task)) := flowOffers (l.filter fun t => chipInput s t.2 == i)
  let weight (i : Nat) : Nat := chipWeight s i (head i all).length
  let subs := ins.filterMap fun i =>
    let fs := head i ts
    match (amGetD i Arb.empty s.xch.subArbs).pick ((head i all).map (·.1)) (fs.map (·.1)) q age s.now with
    | some (o, a, _) => (fs.find? fun f => f.1.input == o.input).map fun f => (i, offerOfTask i (weight i) f.2, f.2, a)
    | none => none
  let waiting := ins.filterMap fun i => (head i all)[0]?.map fun f => offerOfTask i (weight i) f.2
  match s.xch.arb.pick waiting (subs.map (·.2.1)) q age s.now with
  | none => none
  | some (o, a, aged) =>
    match subs.find? fun b => b.1 == o.input with
    | none => none
    | some b =>
      let rest := all.filter fun t => t.1 != b.2.2.1.1
      let arb := a.settle (rest.map fun t => chipInput s t.2)
      let sub := b.2.2.2.settle ((rest.filter fun t => chipInput s t.2 == b.1).map fun t => t.2.flowKey)
      let s := { s with xch := { s.xch with arb := arb, subArbs := amSet b.1 sub s.xch.subArbs } }
      some (b.2.2.1, if aged then s.wrap (Reg.SCH_ARB_AGED_ITEMS.at 4 2) 1 else s)

/-- Counts the tasks that find no free stand, once each (R178). -/
def countWaits (s : State) : State :=
  (readyTasks s).foldl (fun s e =>
    if e.2.counted || (standFor s e.2).isSome then s
    else ({ s with xch := { s.xch with tasks := amSet e.1 { e.2 with counted := true } s.xch.tasks } }).wrap Reg.SCH_PLACE_WAIT_TASKS 1) s

/-- The job tag of a task in a frame (R251). -/
def jobTagOf (T : Task) (f : Nat) : Nat := T.kind % 16 * 2 ^ 28 + f % 4 * 2 ^ 26 + T.flow % 2 ^ 26

/-- Starts a task's frame on a stand (R241, R242, R245, R246). A KIND with no entry is a program fault (R263). -/
def dispatchTask (s : State) (t : Nat) (T : Task) (st : Nat) : State :=
  let S := s.stand st
  let S := { S with depth := depthAt s S }
  match (List.range 4).find? fun f => !amHas f S.frames with
  | none => s
  | some f =>
    let tag := jobTagOf T f
    let rec0 := splice (splice (fit 256 T.record) 0 (leBytes 4 tag)) 0xF (leBytes 1 f)
    let rec0 := if T.kind = 4 ∨ T.kind = 5 then rec0 else splice rec0 0x58 (leBytes 4 tag)
    let s := { s with xch := { s.xch with tasks := amSet t { T with stand := some st, front := false } s.xch.tasks } }
    let e := match S.image with | some im => im.entries.getD T.kind 0 | none => 0
    let F : Frame := { task := t, jobTag := tag, files := Files.start tag, next := Files.start tag, stores := [], pc := e % 2 ^ 14, target := none,
                       slotsRun := [], issued := (0, 0, 0), before := (0, 0, 0), done := [], halted := none, withdrawing := false, saved := false }
    let S := (S.wr f 0 rec0)
    let S := { S with frames := amSet f F S.frames, running := if S.running.isNone then some f else S.running, since := if S.running.isNone then s.now else S.since,
                      last := if S.running.isNone then f else S.last }
    let s := s.setStand st S
    if bit e 31 then s else progFault s st f Detail.STD_NO_ENTRY (e % 2 ^ 14)

/-- TASK_PLACE (R178, R179): with every stand fenced each ready task's step ends with SCH_NO_STAND; else the chip arbiter's choice goes to the first free stand of its home column, or overflows. -/
def taskPlace (s : State) : State :=
  let s := retryMerges (retryLayers s)
  if noStand s then (readyTasks s).foldl (fun s e => taskFailed s e.1 Detail.SCH_NO_STAND) s
  else
    let s := countWaits s
    match chipChoose s (readyTasks s) ((readyTasks s).filter fun e => (standFor s e.2).isSome) with
    | none => s
    | some ((t, T), s) =>
      match standFor s T with
      | none => s
      | some (st, far) =>
        let s := if far then s.wrap Reg.SCH_PLACE_OVERFLOW_TASKS 1 else s
        dispatchTask s t T st

def execTaskPlace (s : State) : Host.Outcome State Fault Refusal := nextOf s (taskPlace s)

/-! ### Loading programs (R262, R264) -/

/-- The bundles of an image body. -/
def bundlesOf (l : List Byte) : List Nat := (chunks 16 l).map fun b => leField b 0 16

/-- Whether an image header meets R262. -/
def imageHdrOk (h : List Byte) : Bool :=
  leField h 4 1 < 16 && leField h 5 1 == 0 && decide (1 ≤ leField h 6 2) && decide (leField h 6 2 ≤ 16384) && leField h 0xC 4 == 0
  && (List.range 16).all (fun i => bits (leField h (0x10 + 4 * i) 4) 14 17 == 0) && allZero ((h.drop 0x50).take 44)
  && leField h 0x7C 4 == crc32c (h.take 0x7C)

/-- The image an extended address holds, if R262 holds of it. -/
def imageAt (s : State) (a : Nat) : Option (Image × List Byte) :=
  let h := s.rd a 128
  if !imageHdrOk h then none
  else
    let body := s.rd (a + 128) (16 * leField h 6 2)
    if leField h 8 4 ≠ crc32c body then none
    else some (⟨leField h 0 2, leField h 2 2, leField h 4 1, bundlesOf body, (List.range 16).map fun i => leField h (0x10 + 4 * i) 4⟩, body)

/-- Whether an image's ROLES has the role being loaded (R264). -/
def imageRole (s : State) (im : Image) : Bool :=
  let r := s.r Reg.MGT_ROLE_ROLE_NEXT
  r != roleUnassigned && decide (r ≤ 4) && bit im.roles (r - 1)

/-- The bytes of the controller's HBM (R254). -/
def hbmBytes (s : State) : Nat := s.r Reg.MGT_FAMILY_PARAM_STACKS * stackBytes s
/-- Whether an extended address may be read by PROG_LOAD or a mover for n bytes (R254, R264). -/
def spaceOk (s : State) (a n : Nat) : Bool :=
  xaSpace a == 1 || xaSpace a == 2 || xaSpace a == 3 || (xaSpace a == 0 && decide (xaAddr a + n ≤ hbmBytes s))

/-- Whether n bytes at an extended address lie in a space of PROG_LOAD and inside it (R264): HBM, what flexible ports present, or host memory. -/
def imageSpaceOk (s : State) (a n : Nat) : Bool :=
  (xaSpace a == 0 && decide (xaAddr a + n ≤ hbmBytes s)) || (xaSpace a == 3 && decide (xaAddr a + n ≤ 2 ^ 60))
  || (xaSpace a == 1 && decide (xaAddr a + n ≤ 2 ^ 60) && (List.range ((a + n - 1) / 4096 - a / 4096 + 1)).all fun i => (cxlPort s (if i = 0 then a else (a / 4096 + i) * 4096)).isSome)

/-- The image store. -/
def imageBase (s : State) : Nat := s.r Reg.STD_IMAGE_BASE_LO_BASE_LO * 2 ^ 21 + s.r Reg.STD_IMAGE_BASE_HI_BASE_HI * 2 ^ 32

/-- Loads an image into a column: the store, the sequencers and STD_PROG_ID. -/
def loadColumn (s : State) (im : Image) (body : List Byte) (c : Nat) : State :=
  let s := s.wr (imageBase s + 0x40000 * c) body
  (colStands c).foldl (fun s st =>
    let s := s.setStand st { s.stand st with image := some im, badLines := [] }
    (s.setR (Reg.STD_PROG_ID_IMAGE_ID.at 0x10000 st) im.id).setR (Reg.STD_PROG_ID_VERSION.at 0x10000 st) im.version) s

/-- PROG_LOAD (R264, R502). -/
def progLoadBody (c : Cmd) : Body := fun s _ =>
  let cols := (List.range 8).filter fun i => bit c.arg1 i
  let h := s.rd c.arg0 128
  let n := 128 + (if imageHdrOk h then 16 * leField h 6 2 else 0)
  let unread (n : Nat) : Bool := xaSpace c.arg0 == 3 && !s.dmaOk c.fn (xaAddr c.arg0) n
  if !imageSpaceOk s c.arg0 128 then fail s .fenced Detail.STD_IMAGE
  else if unread 128 then (s, some { Done.of .fenced 0 with reason := .descRead })
  else if !imageSpaceOk s c.arg0 n then fail s .fenced Detail.STD_IMAGE
  else if unread n then (s, some { Done.of .fenced 0 with reason := .descRead })
  else if cols.any fun k => (colStands k).any fun st => !standFenced s st then fail s .conflict 0
  else
    match (if xaSpace c.arg0 = 3 then none else memTrouble s c.arg0 n).orElse fun _ => memTrouble s (imageBase s) 0x200000 with
    | some dt => fail s .fenced dt
    | none =>
    match imageAt s c.arg0 with
    | none => fail s .fenced Detail.STD_IMAGE
    | some (im, body) =>
      if !imageRole s im then fail s .fenced Detail.STD_IMAGE
      else answer (cols.foldl (fun s k => loadColumn s im body k) s) Done.ok

end Sys2Proof.Machine
end

