-- ==== Sys2Proof/Machine/Bundle.lean ====
section
/-! DEFINITION. Bundles (spec/11): the four slots and their fields (R266 to R270, R277, R278, R281), which bundles are legal (R284), and how a slot of the running frame's bundle acts (R247, R252, R275, R283). -/

namespace Sys2Proof.Machine

/-! ### Slots and fields -/

/-- The slots, in the order C, M, A, V. -/
abbrev slotC : Nat := 0
abbrev slotM : Nat := 1
abbrev slotA : Nat := 2
abbrev slotV : Nat := 3

/-- The bits of a slot of a bundle (R266). -/
def slotBits (b k : Nat) : Nat :=
  match k with
  | 0 => bits b 88 40
  | 1 => bits b 56 32
  | 2 => bits b 24 32
  | _ => bits b 0 24

/-- PRED of a slot (R267). -/
def slotPred (b k : Nat) : Nat :=
  match k with
  | 0 => bits (slotBits b 0) 37 3
  | 1 => bits (slotBits b 1) 29 3
  | 2 => bits (slotBits b 2) 29 3
  | _ => bits (slotBits b 3) 21 3

/-- OP of a slot (R267). -/
def slotOp (b k : Nat) : Nat :=
  match k with
  | 0 => bits (slotBits b 0) 30 7
  | 1 => bits (slotBits b 1) 26 3
  | 2 => bits (slotBits b 2) 24 5
  | _ => bits (slotBits b 3) 16 5

/-- The formats of the C slot (R269, R271), told apart by what the opcode's fields hold. -/
inductive CFmt where
  | cn | cr | crMova | crMovs | cri | criShift | criA | ci | ciA | cmLoad | cmStore | csi | csiB | cd | cbr | cb | cwHalt | cw | cwTime | cp | cpi | cpp
  deriving DecidableEq, Repr

/-- The format of a C opcode; none where it is reserved (R271). -/
def cFmt (o : Nat) : Option CFmt :=
  if o = 0 then some .cn
  else if 0x01 ≤ o ∧ o ≤ 0x0D then some .cr
  else if o = 0x11 ∨ (0x13 ≤ o ∧ o ≤ 0x15) then some .cri
  else if 0x16 ≤ o ∧ o ≤ 0x18 then some .criShift
  else if o = 0x20 ∨ o = 0x22 then some .ci
  else if o = 0x21 then some .ciA
  else if o = 0x24 then some .criA
  else if o = 0x25 then some .crMova
  else if o = 0x26 then some .crMovs
  else if 0x30 ≤ o ∧ o ≤ 0x35 then some .cp
  else if 0x38 ≤ o ∧ o ≤ 0x3B then some .cpi
  else if 0x3C ≤ o ∧ o ≤ 0x3F then some .cpp
  else if 0x40 ≤ o ∧ o ≤ 0x44 then some .cmLoad
  else if 0x48 ≤ o ∧ o ≤ 0x4B then some .cmStore
  else if o = 0x4C then some .csiB
  else if o = 0x4D ∨ o = 0x4E then some .csi
  else if o = 0x50 then some .cd
  else if o = 0x60 then some .cbr
  else if o = 0x61 ∨ o = 0x62 then some .cb
  else if o = 0x64 then some .cwHalt
  else if 0x68 ≤ o ∧ o ≤ 0x6A then some .cw
  else if o = 0x6C then some .cwTime
  else none

/-- D, S1 and S2 of CR and the formats like it, S of CB, and PD of CP (R269). -/
def fD (w : Nat) : Nat := bits w 24 6
def fS1 (w : Nat) : Nat := bits w 18 6
def fS2 (w : Nat) : Nat := bits w 12 6
def fPD (w : Nat) : Nat := bits w 27 3

/-- Whether the fields a C format marks zero are zero (R268, R269, R284). -/
def cZero (f : CFmt) (w : Nat) : Bool :=
  match f with
  | .cn => bits w 0 30 == 0
  | .cr => bits w 0 12 == 0
  | .crMova => bits w 28 2 == 0 && bits w 0 18 == 0
  | .crMovs => bits w 22 2 == 0 && bits w 0 18 == 0
  | .cri => bits w 16 2 == 0
  | .criShift => bits w 6 12 == 0
  | .criA => bits w 28 2 == 0 && bits w 22 2 == 0 && bits w 16 2 == 0
  | .ci => true
  | .ciA => bits w 28 2 == 0
  | .cmLoad | .cmStore => bits w 16 4 == 0
  | .csi => true
  | .csiB => bits w 8 8 == 0
  | .cd => true
  | .cbr => bits w 14 16 == 0
  | .cb => bits w 14 10 == 0
  | .cwHalt => bits w 24 6 == 0 && bits w 0 18 == 0
  | .cw => bits w 0 18 == 0
  | .cwTime => bits w 0 24 == 0
  | .cp => bits w 24 3 == 0 && bits w 0 12 == 0
  | .cpi => bits w 24 3 == 0 && bits w 16 2 == 0
  | .cpp => bits w 0 21 == 0

/-- The register a C slot names as a destination: file (0 scalar, 1 address, 2 predicate, 3 vector) and number (R284). -/
def cDest (f : CFmt) (w : Nat) : Option (Nat × Nat) :=
  match f with
  | .cr | .crMovs | .cri | .criShift | .ci | .cmLoad | .cw | .cwTime => some (0, fD w)
  | .crMova | .criA | .ciA => some (1, fD w)
  | .cp | .cpi | .cpp => some (2, fPD w)
  | _ => none

/-- Fields of the M slot (R277). -/
def mT (w : Nat) : Nat := bits w 20 6
def mA1 (w : Nat) : Nat := bits w 16 4
def mA2 (w : Nat) : Nat := bits w 12 4
def mS1 (w : Nat) : Nat := bits w 6 6
def mS2 (w : Nat) : Nat := bits w 0 6

/-- Whether an M slot is legal by itself (R277, R284). -/
def mOk (o w : Nat) : Bool :=
  if o = 0 then bits w 0 26 == 0
  else if o = 1 ∨ o = 2 then mA2 w == 0
  else if o = 3 then true
  else if o = 4 then mA2 w == 0 && mS2 w == 0
  else if o = 5 then mA2 w == 0 && mS1 w == 0
  else false

/-- Fields of the A slot (R278). -/
def aT (w : Nat) : Nat := bits w 18 6
def aA (w : Nat) : Nat := bits w 14 4
def aTD (w : Nat) : Nat := bits w 13 5
def aAA (w : Nat) : Nat := bits w 9 4
def aAB (w : Nat) : Nat := bits w 5 4
def aKC (w : Nat) : Nat := bits w 0 5

/-- Whether an A slot is legal by itself (R278, R284). -/
def aOk (o w : Nat) : Bool :=
  if o = 0 then bits w 0 24 == 0
  else if o = 1 ∨ o = 2 then bits w 0 14 == 0
  else if o = 4 then bits w 0 13 == 0
  else if 8 ≤ o ∧ o ≤ 0xC then true
  else if o = 0x10 then bits w 0 9 == 0
  else false

/-- Fields of the V slot (R281). -/
def vD (w : Nat) : Nat := bits w 11 5
def vS1 (w : Nat) : Nat := bits w 6 5
def vS2 (w : Nat) : Nat := bits w 1 5
def vA (w : Nat) : Nat := bits w 7 4
def vOff (w : Nat) : Nat := bits w 0 7
def vS (w : Nat) : Nat := bits w 5 6

/-- Whether a V slot is legal by itself (R281, R284). -/
def vOk (o w : Nat) : Bool :=
  if o = 0 then bits w 0 16 == 0
  else if 1 ≤ o ∧ o ≤ 7 then bit w 0 == false
  else if 8 ≤ o ∧ o ≤ 0xB then bits w 0 6 == 0
  else if o = 0xC then bits w 0 5 == 0
  else if o = 0xD then bits w 0 11 == 0
  else decide (0x10 ≤ o) && decide (o ≤ 0x13)

/-- The registers that a bundle's slots name as destinations, s0, a0 and p0 apart (R284). -/
def destsOf (b : Nat) : List (Nat × Nat) :=
  let c := (cFmt (slotOp b 0)).bind fun f => cDest f (slotBits b 0)
  let m := if slotOp b 1 = 0 then none else some (0, mT (slotBits b 1))
  let a := if slotOp b 2 = 0 then none else some (0, aT (slotBits b 2))
  let v := if slotOp b 3 = 0 ∨ slotOp b 3 = 0x11 ∨ slotOp b 3 = 0x13 then none else some (3, vD (slotBits b 3))
  ([c, m, a, v].filterMap id).filter fun d => d.1 == 3 || d.2 != 0

/-- Whether every element of a list differs from those after it. -/
def noRepeat : List (Nat × Nat) → Bool
  | [] => true
  | x :: l => !l.contains x && noRepeat l

/-- Whether a bundle is legal (R284). -/
def legalBundle (b : Nat) : Bool :=
  (match cFmt (slotOp b 0) with | some f => cZero f (slotBits b 0) | none => false)
  && mOk (slotOp b 1) (slotBits b 1) && aOk (slotOp b 2) (slotBits b 2) && vOk (slotOp b 3) (slotBits b 3) && noRepeat (destsOf b)

/-! ### Registers (R248) -/

/-- Sources of a bundle. -/
def Frame.s (F : Frame) (n : Nat) : Word64 := amGetD n 0 F.files.sc
def Frame.a (F : Frame) (n : Nat) : Word32 := amGetD n 0 F.files.ad
def Frame.p (F : Frame) (n : Nat) : Bool := amGetD n false F.files.pr
def Frame.v (F : Frame) (n i : Nat) : Word32 := amGetD (64 * n + i) 0 F.files.ve

/-- Results of a bundle; writes to s0, a0 and p0 are ignored. -/
def Frame.setS (F : Frame) (n : Nat) (x : Word64) : Frame := if n = 0 then F else { F with next := { F.next with sc := amSet n x F.next.sc } }
def Frame.setA (F : Frame) (n : Nat) (x : Word32) : Frame := if n = 0 then F else { F with next := { F.next with ad := amSet n x F.next.ad } }
def Frame.setP (F : Frame) (n : Nat) (x : Bool) : Frame := if n = 0 then F else { F with next := { F.next with pr := amSet n x F.next.pr } }
def Frame.setV (F : Frame) (n : Nat) (x : Nat → Word32) : Frame :=
  { F with next := { F.next with ve := (List.range 64).foldl (fun m i => amSet (64 * n + i) (x i) m) F.next.ve } }

/-! ### Tickets and waits (R249, R252, R286) -/

/-- How many commands a frame has issued to an engine. -/
def Frame.count (F : Frame) (e : Engine) : Nat :=
  match e with
  | .att => F.issued.1
  | .cdc => F.issued.2.1
  | .mov => F.issued.2.2

/-- The ticket of the n-th command of an engine (R286); 0 before the first. -/
def ticketOf (n : Nat) : Nat := if n = 0 then 0 else (n - 1) % 65535 + 1

/-- Where the outcome of a ticket is kept. -/
def doneKey (e : Engine) (t : Nat) : Nat := (match e with | .att => 0 | .cdc => 1 | .mov => 2) * 65536 + t

/-- Takes the next ticket of an engine. -/
def Frame.issue (F : Frame) (e : Engine) : Frame × Nat :=
  let n := F.count e + 1
  let i := match e with
    | .att => (n, F.issued.2.1, F.issued.2.2)
    | .cdc => (F.issued.1, n, F.issued.2.2)
    | .mov => (F.issued.1, F.issued.2.1, n)
  ({ F with issued := i, done := amErase (doneKey e (ticketOf n)) F.done }, ticketOf n)

/-- What a wait finds. -/
inductive WaitEnd where
  | pass (v : Nat) | held | unissued
  deriving DecidableEq, Repr

/-- A wait for ticket t of an engine (R252, R286). -/
def waitFor (F : Frame) (e : Engine) (t : Nat) : WaitEnd :=
  let n := F.count e
  if t = 0 then .pass 0
  else if n < 65535 ∧ n < t then .unissued
  else
    let age := (ticketOf n + 65535 - t) % 65535
    if 64 < age then .pass Status.stale.code
    else match amGet (doneKey e t) F.done with
      | some (c, d) => .pass (c + 256 * d)
      | none => .held

/-- The engine that a wait opcode names. -/
def waitEngine (o : Nat) : Engine := if o = 0x68 then .att else if o = 0x69 then .cdc else .mov

/-! ### When a bundle is held (R249, R252, R258) -/

/-- Commands of a queue that have not started. -/
def queued (l : List EngCmd) : Nat := l.countP fun c => !c.started

/-- Whether the predicate of slot k reads 1. -/
def predOf (F : Frame) (b k : Nat) : Bool := F.p (slotPred b k)

/-- Whether a bundle is held by a wait or a full queue. -/
def bundleHeld (S : Stand) (F : Frame) (b : Nat) : Bool :=
  (decide (0x68 ≤ slotOp b 0) && decide (slotOp b 0 ≤ 0x6A) && predOf F b 0
    && waitFor F (waitEngine (slotOp b 0)) (bits (F.s (fS1 (slotBits b 0))).toNat 0 16) == .held)
  || (slotOp b 1 != 0 && predOf F b 1 && decide (32 ≤ queued S.mov))
  || (slotOp b 2 == 2 && predOf F b 2 && decide (16 ≤ queued S.cdc))
  || (slotOp b 2 != 0 && slotOp b 2 != 2 && predOf F b 2 && decide (16 ≤ queued S.att))

/-- The bundle at a frame's bundle address. -/
def bundleAt (S : Stand) (F : Frame) : Option Nat := match S.image with | some im => im.code[F.pc]? | none => none

/-- Whether a frame's next bundle would be held (R258): a halted or withdrawn frame issues none. -/
def frameHeld (S : Stand) (F : Frame) : Bool :=
  F.halted.isSome || F.withdrawing || (match bundleAt S F with | some b => legalBundle b && F.slotsRun.isEmpty && bundleHeld S F b | none => false)

/-! ### A slot acts (R247, R275, R283, R285) -/

/-- What a slot does: a new state and frame, or a program fault. -/
inductive SlotEnd where
  | ok (s : State) (F : Frame)
  | fault (dt : Nat)

/-- Writes a frame back. -/
def setFrame (s : State) (st f : Nat) (F : Frame) : State :=
  let S := s.stand st
  s.setStand st { S with frames := amSet f F S.frames }

/-- The slots of a bundle that hold an operation. -/
def activeSlots (b : Nat) : List Nat := [slotC, slotM, slotA, slotV].filter fun k => slotOp b k != 0

/-- Ends a bundle whose slots have all acted: deck stores are made, the C slot's first; registers take their new values; the next bundle is the branch target or the one after (R247, R275, R283). -/
def endBundle (s : State) (st f : Nat) (F : Frame) (n : Nat) : State :=
  let S := s.stand st
  let S := (isort (fun x y => decide (x.1 ≤ y.1)) F.stores).foldl (fun S w => (S.keep f w.2.1 w.2.2.length).wr f w.2.1 w.2.2) S
  let pc := F.target.getD (F.pc + 1)
  let G := { F with files := F.next, stores := [], target := none, slotsRun := [] }
  let s := s.setStand st S
  if F.halted.isSome then settleFrame (setFrame s st f G) st f
  else if n ≤ pc then progFault (setFrame s st f G) st f Detail.STD_ILLEGAL F.pc
  else setFrame s st f { G with pc := pc }

/-- The slot k with opcode o of the bundle that the running frame of a stand issues acts. Nothing happens where no frame runs, where the bundle is held or not legal, or where its slot k holds another opcode or has acted. -/
def runSlot (s : State) (st k o : Nat) (act : State → Nat → Frame → Nat → SlotEnd) : State :=
  let S := s.stand st
  match S.running.bind fun f => (amGet f S.frames).map fun F => (f, F) with
  | none => s
  | some (f, F) =>
    match bundleAt S F with
    | none => s
    | some b =>
      if standFenced s st || (F.halted.isSome && F.slotsRun.isEmpty) || F.withdrawing || !legalBundle b || slotOp b k != o || F.slotsRun.contains k
          || (F.slotsRun.isEmpty && bundleHeld S F b) then s
      else
        let F := { F with slotsRun := k :: F.slotsRun, before := if F.slotsRun.isEmpty then F.issued else F.before }
        match (if predOf F b k then act s f F (slotBits b k) else .ok s F) with
        | .fault dt => progFault s st f dt F.pc
        | .ok s F =>
          if (activeSlots b).all fun j => F.slotsRun.contains j then endBundle s st f F (match S.image with | some im => im.code.length | none => 0)
          else setFrame s st f F

/-- A slot whose operation is one on registers alone. -/
def runRegs (st k o : Nat) (s : State) (g : Frame → Nat → Frame) : Host.Outcome State Fault Refusal :=
  withUnit s (st < 64) (runSlot s st k o fun s _ F w => .ok s (g F w))

/-- A slot whose operation may fault or touch the stand. -/
def runAct (st k o : Nat) (s : State) (act : State → Nat → Frame → Nat → SlotEnd) : Host.Outcome State Fault Refusal :=
  withUnit s (st < 64) (runSlot s st k o act)

/-- NOP (R267, R275): a no-op slot does nothing; a bundle of no-ops alone takes its cycle. -/
def nopBundle (s : State) (st : Nat) : State :=
  let S := s.stand st
  match S.running.bind fun f => (amGet f S.frames).map fun F => (f, F) with
  | none => s
  | some (f, F) =>
    match bundleAt S F with
    | none => s
    | some b =>
      if standFenced s st || F.halted.isSome || F.withdrawing || !legalBundle b || !(activeSlots b).isEmpty then s
      else endBundle s st f F (match S.image with | some im => im.code.length | none => 0)

def execNop (st : Nat) (s : State) : Host.Outcome State Fault Refusal := withUnit s (st < 64) (nopBundle s st)

/-- ILLEGAL_BUNDLE (R285): the frame faults with STD_ILLEGAL; no slot takes effect. -/
def illegalBundle (s : State) (st : Nat) : State :=
  let S := s.stand st
  match S.running.bind fun f => (amGet f S.frames).map fun F => (f, F) with
  | none => s
  | some (f, F) =>
    let bad := match bundleAt S F with | some b => !legalBundle b | none => true
    if standFenced s st || F.halted.isSome || F.withdrawing || !bad then s else progFault s st f Detail.STD_ILLEGAL F.pc

def execIllegalBundle (st : Nat) (s : State) : Host.Outcome State Fault Refusal := withUnit s (st < 64) (illegalBundle s st)

/-! ### Frame switches (R258, R259) -/

/-- The save-area image of a frame's registers (R259). How the outstanding tickets are laid out the spec leaves open: a free value. -/
def saveImage (s : State) (F : Frame) : List Byte :=
  ((List.range 64).flatMap fun i => leBytes 8 (F.s i).toNat) ++ ((List.range 16).flatMap fun i => leBytes 4 (F.a i).toNat)
  ++ leBytes 8 (bitSet ((List.range 8).filter fun i => F.p i)) ++ leBytes 8 (F.pc % 2 ^ 14 + 2 ^ 14 * Config.freeNat s.free)
  ++ leBytes 432 0 ++ ((List.range 32).flatMap fun n => (List.range 64).flatMap fun i => leBytes 4 (F.v n i).toNat)

/-- The register files a save area holds (R259). -/
def filesOf (l : List Byte) : Files :=
  let m (n : Nat) (g : Nat → Nat) (w : Nat) : AMap (BitVec w) := (List.range n).foldl (fun m i => amSet i (BitVec.ofNat w (g i)) m) []
  ⟨m 64 (fun i => if i = 0 then 0 else leField l (8 * i) 8) 64, m 16 (fun i => if i = 0 then 0 else leField l (0x200 + 4 * i) 4) 32,
   (List.range 8).foldl (fun m i => amSet i (i == 0 || bit (leField l 0x240 1) i) m) [],
   m 2048 (fun i => leField l (0x400 + 4 * i) 4) 32⟩

/-- The ns a frame may issue before its next boundary is a preemption point (R258: 4,096 SCLK cycles at 2.0 GHz). -/
def kerfNs : Nat := 2048

/-- FRAME_SWITCH (R258): at a preemption point with another frame ready, the running frame is saved and the next ready frame in frame-number order restored. -/
def frameSwitch (s : State) (st : Nat) : State :=
  let S := s.stand st
  let cur := S.running.bind fun f => (amGet f S.frames).map fun F => (f, F)
  let point := match cur with
    | none => true
    | some (_, F) => F.slotsRun.isEmpty && (frameHeld S F || decide (S.since + kerfNs ≤ s.now))
  let after := match cur with | some (f, _) => f | none => S.last
  let order := (List.range 4).map fun i => (after + 1 + i) % 4
  let next := order.find? fun f => (match amGet f S.frames with | some F => !frameHeld S F | none => false) && decide (S.running ≠ some f)
  match (if point then next else none) with
  | none => s
  | some g =>
    match amGet g S.frames with
    | none => s
    | some G =>
      let S := match cur with
        | some (f, F) =>
          let S := S.wr f 0x400 (saveImage s F)
          { S with frames := amSet f { F with saved := true } S.frames }
        | none => S
      let img := S.rd g 0x400 9216
      let G := if G.saved then { G with files := filesOf img, next := filesOf img, pc := leField img 0x248 2 % 2 ^ 14 } else G
      let S := { S with frames := amSet g G S.frames, running := some g, since := s.now, last := g }
      (s.takeFree.setStand st S).wrap (Reg.STD_SEQ_COUNT_SWITCHES.at 0x10000 st) 1

def execFrameSwitch (st : Nat) (s : State) : Host.Outcome State Fault Refusal := withUnit s (st < 64) (frameSwitch s st)

end Sys2Proof.Machine
end

