-- ==== Sys2Proof/Machine/Scalar.lean ====
section
/-! DEFINITION. The control slot (R270 to R276): scalar, address and predicate operations, deck loads and stores, branches, waits and halt. -/

namespace Sys2Proof.Machine

/-! ### Operands -/

/-- IMM16 sign-extended and zero-extended, and IMM24 sign-extended (R270). -/
def immS (w : Nat) : Word64 := (BitVec.ofNat 16 (bits w 0 16)).signExtend 64
def immZ (w : Nat) : Word64 := BitVec.ofNat 64 (bits w 0 16)
def imm24 (w : Nat) : Word64 := (BitVec.ofNat 24 (bits w 0 24)).signExtend 64

/-- sD := f sS1 sS2. -/
def alu (f : Word64 → Word64 → Word64) (F : Frame) (w : Nat) : Frame := F.setS (fD w) (f (F.s (fS1 w)) (F.s (fS2 w)))
/-- sD := f sS1 imm. -/
def aluI (imm : Nat → Word64) (f : Word64 → Word64 → Word64) (F : Frame) (w : Nat) : Frame := F.setS (fD w) (f (F.s (fS1 w)) (imm w))
/-- pD := f sS1 sS2, and with a sign-extended immediate. -/
def cmp (f : Word64 → Word64 → Bool) (F : Frame) (w : Nat) : Frame := F.setP (fPD w) (f (F.s (fS1 w)) (F.s (fS2 w)))
def cmpI (f : Word64 → Word64 → Bool) (F : Frame) (w : Nat) : Frame := F.setP (fPD w) (f (F.s (fS1 w)) (immS w))
/-- pD := f pS1 pS2. -/
def pop (f : Bool → Bool → Bool) (F : Frame) (w : Nat) : Frame := F.setP (fPD w) (f (F.p (bits w 24 3)) (F.p (bits w 21 3)))
/-- The low six bits of a shift amount. -/
def sh6 (x : Word64) : Nat := x.toNat % 64

/-! ### Scalar operations (R271, R272) -/

/-- ADD (R271, R272): sD := sS1 + sS2 modulo 2^64. -/
def execAdd (st : Nat) (s : State) : Host.Outcome State Fault Refusal := runRegs st slotC 0x01 s (alu (fun a b => a + b))

/-- SUB (R271): sD := sS1 − sS2 modulo 2^64. -/
def execSub (st : Nat) (s : State) : Host.Outcome State Fault Refusal := runRegs st slotC 0x02 s (alu (fun a b => a - b))

/-- AND (R271). -/
def execAnd (st : Nat) (s : State) : Host.Outcome State Fault Refusal := runRegs st slotC 0x03 s (alu (fun a b => a &&& b))

/-- OR (R271). -/
def execOr (st : Nat) (s : State) : Host.Outcome State Fault Refusal := runRegs st slotC 0x04 s (alu (fun a b => a ||| b))

/-- XOR (R271). -/
def execXor (st : Nat) (s : State) : Host.Outcome State Fault Refusal := runRegs st slotC 0x05 s (alu (fun a b => a ^^^ b))

/-- SHL (R271): sD := sS1 << sS2[5:0]. -/
def execShl (st : Nat) (s : State) : Host.Outcome State Fault Refusal := runRegs st slotC 0x06 s (alu (fun a b => a <<< sh6 b))

/-- SHR (R271): logical right shift by sS2[5:0]. -/
def execShr (st : Nat) (s : State) : Host.Outcome State Fault Refusal := runRegs st slotC 0x07 s (alu (fun a b => a >>> sh6 b))

/-- SAR (R271): arithmetic right shift by sS2[5:0]. -/
def execSar (st : Nat) (s : State) : Host.Outcome State Fault Refusal := runRegs st slotC 0x08 s (alu (fun a b => a.sshiftRight (sh6 b)))

/-- MUL (R271): the low 64 bits of the product. -/
def execMul (st : Nat) (s : State) : Host.Outcome State Fault Refusal := runRegs st slotC 0x09 s (alu (fun a b => a * b))

/-- MIN (R271): signed minimum. -/
def execMin (st : Nat) (s : State) : Host.Outcome State Fault Refusal := runRegs st slotC 0x0A s (alu (fun a b => if BitVec.slt b a then b else a))

/-- MAX (R271): signed maximum. -/
def execMax (st : Nat) (s : State) : Host.Outcome State Fault Refusal := runRegs st slotC 0x0B s (alu (fun a b => if BitVec.slt a b then b else a))

/-- MINU (R271): unsigned minimum. -/
def execMinu (st : Nat) (s : State) : Host.Outcome State Fault Refusal := runRegs st slotC 0x0C s (alu (fun a b => if BitVec.ult b a then b else a))

/-- MAXU (R271): unsigned maximum. -/
def execMaxu (st : Nat) (s : State) : Host.Outcome State Fault Refusal := runRegs st slotC 0x0D s (alu (fun a b => if BitVec.ult a b then b else a))

/-- ADDI (R270, R271): sD := sS1 + sext(IMM16). -/
def execAddi (st : Nat) (s : State) : Host.Outcome State Fault Refusal := runRegs st slotC 0x11 s (aluI immS (fun a b => a + b))

/-- ANDI (R270, R271): the immediate is zero-extended. -/
def execAndi (st : Nat) (s : State) : Host.Outcome State Fault Refusal := runRegs st slotC 0x13 s (aluI immZ (fun a b => a &&& b))

/-- ORI (R270, R271). -/
def execOri (st : Nat) (s : State) : Host.Outcome State Fault Refusal := runRegs st slotC 0x14 s (aluI immZ (fun a b => a ||| b))

/-- XORI (R270, R271). -/
def execXori (st : Nat) (s : State) : Host.Outcome State Fault Refusal := runRegs st slotC 0x15 s (aluI immZ (fun a b => a ^^^ b))

/-- SHLI (R271): left shift by IMM16[5:0]. -/
def execShli (st : Nat) (s : State) : Host.Outcome State Fault Refusal := runRegs st slotC 0x16 s (aluI immZ (fun a b => a <<< sh6 b))

/-- SHRI (R271): logical right shift by IMM16[5:0]. -/
def execShri (st : Nat) (s : State) : Host.Outcome State Fault Refusal := runRegs st slotC 0x17 s (aluI immZ (fun a b => a >>> sh6 b))

/-- SARI (R271): arithmetic right shift by IMM16[5:0]. -/
def execSari (st : Nat) (s : State) : Host.Outcome State Fault Refusal := runRegs st slotC 0x18 s (aluI immZ (fun a b => a.sshiftRight (sh6 b)))

/-- LI (R271): sD := sext(IMM24). -/
def execLi (st : Nat) (s : State) : Host.Outcome State Fault Refusal := runRegs st slotC 0x20 s (fun F w => F.setS (fD w) (imm24 w))

/-- LI_A (R271): aD := sext(IMM24)[31:0]. -/
def execLiA (st : Nat) (s : State) : Host.Outcome State Fault Refusal := runRegs st slotC 0x21 s (fun F w => F.setA (fD w) ((imm24 w).setWidth 32))

/-- LSH (R271): sD := (sD << 24) OR zext(IMM24). -/
def execLsh (st : Nat) (s : State) : Host.Outcome State Fault Refusal := runRegs st slotC 0x22 s (fun F w => F.setS (fD w) ((F.s (fD w)) <<< 24 ||| BitVec.ofNat 64 (bits w 0 24)))

/-- ADDA (R271, R272): aD := (aS1 + sext(IMM16)) mod 2^32. -/
def execAdda (st : Nat) (s : State) : Host.Outcome State Fault Refusal := runRegs st slotC 0x24 s (fun F w => F.setA (fD w) (F.a (fS1 w) + (immS w).setWidth 32))

/-- MOVA (R271): aD := sS1[31:0]. -/
def execMova (st : Nat) (s : State) : Host.Outcome State Fault Refusal := runRegs st slotC 0x25 s (fun F w => F.setA (fD w) ((F.s (fS1 w)).setWidth 32))

/-- MOVS (R271): sD := zext(aS1). -/
def execMovs (st : Nat) (s : State) : Host.Outcome State Fault Refusal := runRegs st slotC 0x26 s (fun F w => F.setS (fD w) ((F.a (fS1 w)).setWidth 64))

/-! ### Compares and predicates (R271) -/

/-- CMP_EQ (R271). -/
def execCmpEq (st : Nat) (s : State) : Host.Outcome State Fault Refusal := runRegs st slotC 0x30 s (cmp (fun a b => a == b))

/-- CMP_NE (R271). -/
def execCmpNe (st : Nat) (s : State) : Host.Outcome State Fault Refusal := runRegs st slotC 0x31 s (cmp (fun a b => a != b))

/-- CMP_LT (R271): signed less than. -/
def execCmpLt (st : Nat) (s : State) : Host.Outcome State Fault Refusal := runRegs st slotC 0x32 s (cmp (fun a b => BitVec.slt a b))

/-- CMP_GE (R271): signed greater or equal. -/
def execCmpGe (st : Nat) (s : State) : Host.Outcome State Fault Refusal := runRegs st slotC 0x33 s (cmp (fun a b => !BitVec.slt a b))

/-- CMP_LTU (R271): unsigned less than. -/
def execCmpLtu (st : Nat) (s : State) : Host.Outcome State Fault Refusal := runRegs st slotC 0x34 s (cmp (fun a b => BitVec.ult a b))

/-- CMP_GEU (R271): unsigned greater or equal. -/
def execCmpGeu (st : Nat) (s : State) : Host.Outcome State Fault Refusal := runRegs st slotC 0x35 s (cmp (fun a b => !BitVec.ult a b))

/-- CMPI_EQ (R271): against sext(IMM16). -/
def execCmpiEq (st : Nat) (s : State) : Host.Outcome State Fault Refusal := runRegs st slotC 0x38 s (cmpI (fun a b => a == b))

/-- CMPI_NE (R271). -/
def execCmpiNe (st : Nat) (s : State) : Host.Outcome State Fault Refusal := runRegs st slotC 0x39 s (cmpI (fun a b => a != b))

/-- CMPI_LT (R271): signed. -/
def execCmpiLt (st : Nat) (s : State) : Host.Outcome State Fault Refusal := runRegs st slotC 0x3A s (cmpI (fun a b => BitVec.slt a b))

/-- CMPI_GE (R271): signed. -/
def execCmpiGe (st : Nat) (s : State) : Host.Outcome State Fault Refusal := runRegs st slotC 0x3B s (cmpI (fun a b => !BitVec.slt a b))

/-- PAND (R271). -/
def execPand (st : Nat) (s : State) : Host.Outcome State Fault Refusal := runRegs st slotC 0x3C s (pop (fun a b => a && b))

/-- POR (R271). -/
def execPor (st : Nat) (s : State) : Host.Outcome State Fault Refusal := runRegs st slotC 0x3D s (pop (fun a b => a || b))

/-- PANDN (R271): pS1 AND NOT pS2. -/
def execPandn (st : Nat) (s : State) : Host.Outcome State Fault Refusal := runRegs st slotC 0x3E s (pop (fun a b => a && !b))

/-- PXOR (R271). -/
def execPxor (st : Nat) (s : State) : Host.Outcome State Fault Refusal := runRegs st slotC 0x3F s (pop (fun a b => a != b))

/-! ### The deck (R272 to R274) -/

/-- The address of a load or store: aB plus the signed OFF16, modulo 2^32 (R270, R272). -/
def memAddr (F : Frame) (w : Nat) : Nat := (F.a (bits w 20 4) + (immS w).setWidth 32).toNat
/-- The address of a store-immediate: aB plus the unsigned OFF10. -/
def stiAddr (F : Frame) (w : Nat) : Nat := (F.a (bits w 26 4) + BitVec.ofNat 32 (bits w 16 10)).toNat

/-- Whether a deck access of n bytes at a is within the usable window (R243, R273). -/
def deckOk (s : State) (st a n : Nat) : Bool := rangeOf (s.stand st).depth a n == .usable

/-- A deck load of n bytes, extended by `ext` (R271, R273). -/
def loadAct (st n : Nat) (ext : Nat → Word64) : State → Nat → Frame → Nat → SlotEnd := fun s f F w =>
  let a := memAddr F w
  if deckOk s st a n then .ok s (F.setS (fD w) (ext (leNat ((s.stand st).rd f a n)))) else .fault Detail.STD_WINDOW

/-- Records a store of slot k to be made at the end of the bundle, or faults (R273, R283). -/
def storeAt (s : State) (st k : Nat) (F : Frame) (a : Nat) (l : List Byte) : SlotEnd :=
  if deckOk s st a l.length then .ok s { F with stores := F.stores ++ [(k, a, l)] } else .fault Detail.STD_WINDOW

/-- A deck store of the low n bytes of sS. -/
def storeAct (st n : Nat) : State → Nat → Frame → Nat → SlotEnd := fun s _ F w => storeAt s st slotC F (memAddr F w) (leBytes n (F.s (fD w)).toNat)
/-- A store-immediate of n bytes (R270: zero-extended). -/
def stiAct (st n : Nat) : State → Nat → Frame → Nat → SlotEnd := fun s _ F w => storeAt s st slotC F (stiAddr F w) (leBytes n (bits w 0 16))

/-- DCPY (R274): all source bytes are read before any is written; both ranges are checked first. -/
def dcpyAct (st : Nat) : State → Nat → Frame → Nat → SlotEnd := fun s f F w =>
  let n := 8 * (bits w 0 8 + 1)
  let src := (F.a (bits w 22 4) + BitVec.ofNat 32 (bits w 8 14)).toNat
  if deckOk s st src n then storeAt s st slotC F (F.a (bits w 26 4)).toNat ((s.stand st).rd f src n) else .fault Detail.STD_WINDOW

/-- LD_B (R271, R273): a byte, zero-extended. -/
def execLdB (st : Nat) (s : State) : Host.Outcome State Fault Refusal := runAct st slotC 0x40 s (loadAct st 1 (BitVec.ofNat 64))

/-- LD_H (R271): 16 bits, zero-extended. -/
def execLdH (st : Nat) (s : State) : Host.Outcome State Fault Refusal := runAct st slotC 0x41 s (loadAct st 2 (BitVec.ofNat 64))

/-- LD_W (R271): 32 bits, zero-extended. -/
def execLdW (st : Nat) (s : State) : Host.Outcome State Fault Refusal := runAct st slotC 0x42 s (loadAct st 4 (BitVec.ofNat 64))

/-- LD_D (R271): 64 bits. -/
def execLdD (st : Nat) (s : State) : Host.Outcome State Fault Refusal := runAct st slotC 0x43 s (loadAct st 8 (BitVec.ofNat 64))

/-- LD_WS (R271): 32 bits, sign-extended. -/
def execLdWs (st : Nat) (s : State) : Host.Outcome State Fault Refusal := runAct st slotC 0x44 s (loadAct st 4 (fun x => (BitVec.ofNat 32 x).signExtend 64))

/-- ST_B (R271, R273): sS[7:0]. -/
def execStB (st : Nat) (s : State) : Host.Outcome State Fault Refusal := runAct st slotC 0x48 s (storeAct st 1)

/-- ST_H (R271): sS[15:0]. -/
def execStH (st : Nat) (s : State) : Host.Outcome State Fault Refusal := runAct st slotC 0x49 s (storeAct st 2)

/-- ST_W (R271): sS[31:0]. -/
def execStW (st : Nat) (s : State) : Host.Outcome State Fault Refusal := runAct st slotC 0x4A s (storeAct st 4)

/-- ST_D (R271): sS. -/
def execStD (st : Nat) (s : State) : Host.Outcome State Fault Refusal := runAct st slotC 0x4B s (storeAct st 8)

/-- STI_B (R270, R271): IMM16[7:0]. -/
def execStiB (st : Nat) (s : State) : Host.Outcome State Fault Refusal := runAct st slotC 0x4C s (stiAct st 1)

/-- STI_H (R271): IMM16. -/
def execStiH (st : Nat) (s : State) : Host.Outcome State Fault Refusal := runAct st slotC 0x4D s (stiAct st 2)

/-- STI_W (R271): zext(IMM16). -/
def execStiW (st : Nat) (s : State) : Host.Outcome State Fault Refusal := runAct st slotC 0x4E s (stiAct st 4)

/-- DCPY (R271, R274). -/
def execDcpy (st : Nat) (s : State) : Host.Outcome State Fault Refusal := runAct st slotC 0x50 s (dcpyAct st)

/-! ### Branches, halt, waits and time (R252, R256, R271, R275) -/

/-- A branch where `taken` holds of sS. -/
def branch (taken : Word64 → Bool) (F : Frame) (w : Nat) : Frame := if taken (F.s (fD w)) then { F with target := some (bits w 0 14) } else F

/-- A wait on an engine (R252): the outcome goes to sD; a ticket not yet issued is a program fault. One that is not over has held the bundle. -/
def waitAct (e : Engine) : State → Nat → Frame → Nat → SlotEnd := fun s _ F w =>
  match waitFor { F with issued := F.before } e (bits (F.s (fS1 w)).toNat 0 16) with
  | .pass v => .ok s (F.setS (fD w) (BitVec.ofNat 64 v))
  | .held => .ok s F
  | .unissued => .fault Detail.STD_TICKET

/-- BR (R271, R275). -/
def execBr (st : Nat) (s : State) : Host.Outcome State Fault Refusal := runRegs st slotC 0x60 s (branch fun _ => true)

/-- BZ (R271, R275): taken if sS = 0. -/
def execBz (st : Nat) (s : State) : Host.Outcome State Fault Refusal := runRegs st slotC 0x61 s (branch fun x => x == 0)

/-- BNZ (R271, R275): taken if sS ≠ 0. -/
def execBnz (st : Nat) (s : State) : Host.Outcome State Fault Refusal := runRegs st slotC 0x62 s (branch fun x => x != 0)

/-- HALT (R256): the frame ends, with the outcome in sX, once its commands have completed. -/
def execHalt (st : Nat) (s : State) : Host.Outcome State Fault Refusal := runRegs st slotC 0x64 s (fun F w => { F with halted := some (bits (F.s (fS1 w)).toNat 0 8, bits (F.s (fS1 w)).toNat 8 8) })

/-- WAIT_A (R252, R271). -/
def execWaitA (st : Nat) (s : State) : Host.Outcome State Fault Refusal := runAct st slotC 0x68 s (waitAct .att)

/-- WAIT_C (R252, R271). -/
def execWaitC (st : Nat) (s : State) : Host.Outcome State Fault Refusal := runAct st slotC 0x69 s (waitAct .cdc)

/-- WAIT_M (R252, R271). -/
def execWaitM (st : Nat) (s : State) : Host.Outcome State Fault Refusal := runAct st slotC 0x6A s (waitAct .mov)

/-- RDTIME (R271): device time in ns. -/
def execRdtime (st : Nat) (s : State) : Host.Outcome State Fault Refusal := runAct st slotC 0x6C s (fun s _ F w => .ok s (F.setS (fD w) (BitVec.ofNat 64 s.now)))

end Sys2Proof.Machine
end

