-- ==== Sys2Proof/Machine/Vector.lean ====
section
/-! DEFINITION. The vector slot (R281, R282): 64 lanes of FP32. Copies, broadcasts, loads and stores of FP32 keep their bits (log 41). -/

namespace Sys2Proof.Machine

/-- Lane i of vector n as a value. -/
def Frame.fv (F : Frame) (n i : Nat) : FV := FV.of32 (F.v n i).toNat
/-- Writes a vector of values. -/
def Frame.setFv (F : Frame) (n : Nat) (x : Nat → FV) : Frame := F.setV n fun i => BitVec.ofNat 32 (x i).to32
/-- All lanes of a vector. -/
def Frame.lanes (F : Frame) (n : Nat) : List FV := (List.range 64).map (F.fv n)

/-- vD := f vS1 vS2 in each lane. -/
def vec2 (f : FV → FV → FV) (F : Frame) (w : Nat) : Frame := F.setFv (vD w) fun i => f (F.fv (vS1 w) i) (F.fv (vS2 w) i)
/-- Every lane := one value of the lanes of vS1. -/
def vecAll (f : List FV → FV) (F : Frame) (w : Nat) : Frame :=
  let x := f (F.lanes (vS1 w))
  F.setFv (vD w) fun _ => x

/-- VADD (R281, R282). -/
def execVadd (st : Nat) (s : State) : Host.Outcome State Fault Refusal := runRegs st slotV 0x01 s (vec2 FV.addR)

/-- VSUB (R281, R282). -/
def execVsub (st : Nat) (s : State) : Host.Outcome State Fault Refusal := runRegs st slotV 0x02 s (vec2 FV.subR)

/-- VMUL (R281, R282). -/
def execVmul (st : Nat) (s : State) : Host.Outcome State Fault Refusal := runRegs st slotV 0x03 s (vec2 FV.mulR)

/-- VFMA (R281): vD + vS1 × vS2 with one rounding. -/
def execVfma (st : Nat) (s : State) : Host.Outcome State Fault Refusal := runRegs st slotV 0x04 s (fun F w => F.setFv (vD w) fun i => ((F.fv (vD w) i).add ((F.fv (vS1 w) i).mul (F.fv (vS2 w) i))).r32)

/-- VMAX (R281, R282): NaN if either input is, −0 below +0. -/
def execVmax (st : Nat) (s : State) : Host.Outcome State Fault Refusal := runRegs st slotV 0x05 s (vec2 FV.maxZ)

/-- VMIN (R281, R282). -/
def execVmin (st : Nat) (s : State) : Host.Outcome State Fault Refusal := runRegs st slotV 0x06 s (vec2 FV.minZ)

/-- VDIV (R281, R282): correctly rounded; x / ±0 is ±infinity for x not zero, 0 / 0 is NaN. -/
def execVdiv (st : Nat) (s : State) : Host.Outcome State Fault Refusal := runRegs st slotV 0x07 s (vec2 FV.divR)

/-- VEXP2 (R110, R282): NaN for a NaN or positive argument. -/
def execVexp2 (st : Nat) (s : State) : Host.Outcome State Fault Refusal := runRegs st slotV 0x08 s (fun F w => F.setFv (vD w) fun i => exp2 (F.fv (vS1 w) i))

/-- VRMAX (R281, R282): NaN if any lane is NaN, −inf if every lane is. -/
def execVrmax (st : Nat) (s : State) : Host.Outcome State Fault Refusal := runRegs st slotV 0x09 s (vecAll fun l => l.foldl FV.maxZ FV.ninf)

/-- VRSUM (R281, R282): the fixed pairwise tree. -/
def execVrsum (st : Nat) (s : State) : Host.Outcome State Fault Refusal := runRegs st slotV 0x0A s (vecAll FV.treeSum)

/-- VMOV (R281): copy. -/
def execVmov (st : Nat) (s : State) : Host.Outcome State Fault Refusal := runRegs st slotV 0x0B s (fun F w => F.setV (vD w) (F.v (vS1 w)))

/-- VBCAST (R281): every lane := sS[31:0]. -/
def execVbcast (st : Nat) (s : State) : Host.Outcome State Fault Refusal := runRegs st slotV 0x0C s (fun F w => F.setV (vD w) fun _ => (F.s (vS w)).setWidth 32)

/-- VZERO (R281): +0 in every lane. -/
def execVzero (st : Nat) (s : State) : Host.Outcome State Fault Refusal := runRegs st slotV 0x0D s (fun F w => F.setV (vD w) fun _ => 0)

/-- The address of a vector access: aB plus `unit` × OFF7, modulo 2^32 (R272, R281). -/
def vecAddr (F : Frame) (w unit : Nat) : Nat := (F.a (vA w) + BitVec.ofNat 32 (unit * vOff w)).toNat

/-- A vector load of n bytes to a lane (R273, R281): FP32 lanes as they are, BF16 lanes widened exactly. -/
def vldAct (st n : Nat) : State → Nat → Frame → Nat → SlotEnd := fun s f F w =>
  let a := vecAddr F w (64 * n)
  if deckOk s st a (64 * n) then
    let l := (s.stand st).rd f a (64 * n)
    .ok s (F.setV (vD w) fun i => BitVec.ofNat 32 (leField l (n * i) n * (if n = 2 then 2 ^ 16 else 1)))
  else .fault Detail.STD_WINDOW

/-- A vector store (R273, R281): FP32 lanes as they are, or rounded to BF16 with overflow to infinity. -/
def vstAct (st n : Nat) : State → Nat → Frame → Nat → SlotEnd := fun s _ F w =>
  storeAt s st slotV F (vecAddr F w (64 * n)) ((List.range 64).flatMap fun i => if n = 2 then leBytes 2 (F.fv (vD w) i).to16 else leBytes 4 (F.v (vD w) i).toNat)

/-- VLD (R281). -/
def execVld (st : Nat) (s : State) : Host.Outcome State Fault Refusal := runAct st slotV 0x10 s (vldAct st 4)

/-- VST (R281). -/
def execVst (st : Nat) (s : State) : Host.Outcome State Fault Refusal := runAct st slotV 0x11 s (vstAct st 4)

/-- VLD_BF16 (R281). -/
def execVldBf16 (st : Nat) (s : State) : Host.Outcome State Fault Refusal := runAct st slotV 0x12 s (vldAct st 2)

/-- VST_BF16 (R281). -/
def execVstBf16 (st : Nat) (s : State) : Host.Outcome State Fault Refusal := runAct st slotV 0x13 s (vstAct st 2)

end Sys2Proof.Machine
end

