-- ==== Sys2Proof/Machine/Mover.lean ====
section
/-! DEFINITION. The mover slot and the mover engine (R249, R253, R254, R277). -/

namespace Sys2Proof.Machine

/-! ### Queues and completions (R249, R252) -/

/-- The commands of a queue after a frame's command with a ticket is taken out. -/
def dropCmd (l : List EngCmd) (f t : Nat) : List EngCmd := l.filter fun c => !(c.frame == f && c.ticket == t)

/-- The command that a frame's next becomes once it heads the frame's commands at an engine: its wait for the arbiter begins (R190). -/
def headSince (l : List EngCmd) (f now : Nat) : List EngCmd :=
  match l.find? fun c => c.frame == f with
  | some c => l.map fun q => if q == c && !q.running then { q with since := now } else q
  | none => l

/-- Completes a command: it leaves its queue and its outcome is kept for a wait; a frame that has halted may end (R252, R256). -/
def finishCmd (s : State) (st f : Nat) (e : Engine) (t code dt : Nat) : State :=
  let S := s.stand st
  match amGet f S.frames with
  | none => s
  | some F =>
    let S := match e with
      | .att => { S with att := headSince (dropCmd S.att f t) f s.now }
      | .cdc => { S with cdc := headSince (dropCmd S.cdc f t) f s.now }
      | .mov => { S with mov := headSince (dropCmd S.mov f t) f s.now }
    let F := { F with done := amSet (doneKey e t) (code, dt) F.done }
    settleFrame (s.setStand st { S with frames := amSet f F S.frames }) st f

/-- A command as it is issued. -/
def newCmd (s : State) (f t tag : Nat) (b : CmdBody) : EngCmd :=
  { frame := f, ticket := t, jobTag := tag, body := b, since := s.now, started := false, tile := 0, rows := [], preNan := 0, kept := [], retried := false }

/-! ### Issue (R243, R253, R277) -/

/-- The task a frame runs. -/
def frameTask (s : State) (F : Frame) : Option Task := amGet F.task s.xch.tasks

/-- Head dimension code of the task's attention template. -/
def taskHdim (T : Task) : Nat := leField T.record 0x42 1
/-- The bolt format of the task's model (R123, R169). -/
def taskFormat (s : State) (T : Task) : Nat := match amGet (leField T.record 0xC 2) s.sch.models with | some m => m.format | none => 0

/-- The deck ranges a mover command uses, where its count is one that R253 and R277 allow; none where it is not. -/
def moverRanges (s : State) (S : Stand) (f : Nat) (T : Task) (code d q n : Nat) : Option (List (Nat × Nat)) :=
  let copy := n % 64 == 0 && decide (1 ≤ n) && decide (n ≤ 0x400000)
  if code = 1 then if copy then some [(d, n)] else none
  else if code = 2 then if copy then some [(q, n)] else none
  else if code = 3 then
    if 1 ≤ n ∧ n ≤ 1024 then some [(d, n * slotBytes (taskFormat s T) (taskHdim T)), (q, 4 * n)] else none
  else if code = 4 then
    let h := BoltHdr.ofBytes (S.rd f q 64)
    some [(q, slotBytes h.format h.hdim)]
  else if 1 ≤ n then some [(q, n * (4 * hdimOf (taskHdim T) + 8))] else none

/-- Issues a mover command (R249, R253): a deck range outside the usable window is a program fault; a count that no operation takes completes with FENCED when the command's turn comes. -/
def moverIssue (st code : Nat) (d q : Frame → Nat → Nat) (ext n : Frame → Nat → Nat) : State → Nat → Frame → Nat → SlotEnd := fun s f F w =>
  let S := s.stand st
  match frameTask s F with
  | none => .ok s F
  | some T =>
    let bad : Bool := match moverRanges s S f T code (d F w) (q F w) (n F w) with
      | some l => l.any fun r => rangeOf S.depth r.1 r.2 != .usable
      | none => false
    if bad then .fault Detail.STD_WINDOW
    else
      let p := F.issue .mov
      let c := newCmd s f p.2 F.jobTag (.mover code (d F w) (q F w) (ext F w) (n F w))
      .ok (s.setStand st { S with mov := S.mov ++ [c] }) (p.1.setS (mT w) (BitVec.ofNat 64 p.2))

/-- Operands of the M slot. -/
def mAddr1 (F : Frame) (w : Nat) : Nat := (F.a (mA1 w)).toNat
def mAddr2 (F : Frame) (w : Nat) : Nat := (F.a (mA2 w)).toNat
def mExt (F : Frame) (w : Nat) : Nat := (F.s (mS1 w)).toNat
def mNum (F : Frame) (w : Nat) : Nat := (F.s (mS2 w)).toNat
def mZero (_ : Frame) (_ : Nat) : Nat := 0

/-- MV_LD (R253): deck aD from extended address sS, sN bytes. -/
def execMvLd (st : Nat) (s : State) : Host.Outcome State Fault Refusal := runAct st slotM 1 s (moverIssue st 1 mAddr1 mZero mExt mNum)
/-- MV_ST (R253): extended address sD from deck aS. -/
def execMvSt (st : Nat) (s : State) : Host.Outcome State Fault Refusal := runAct st slotM 2 s (moverIssue st 2 mZero mAddr1 mExt mNum)
/-- MV_GATHER (R253): slots at aD, list at aL, entries at sS. -/
def execMvGather (st : Nat) (s : State) : Host.Outcome State Fault Refusal := runAct st slotM 3 s (moverIssue st 3 mAddr1 mAddr2 mExt mNum)
/-- MV_BWRITE (R253): the staged slot at aS to sD. -/
def execMvBwrite (st : Nat) (s : State) : Host.Outcome State Fault Refusal := runAct st slotM 4 s (moverIssue st 4 mZero mAddr1 mExt mZero)
/-- MV_REDUCE (R253): sN partial rows at aS. -/
def execMvReduce (st : Nat) (s : State) : Host.Outcome State Fault Refusal := runAct st slotM 5 s (moverIssue st 5 mZero mAddr1 mZero mNum)

/-! ### Running a mover command -/

/-- What running a command gives: its outcome, or that it waits for a key slot to be filled (R457). -/
inductive RunEnd where
  | done (s : State) (S : Stand) (code dt : Nat)
  | wait (s : State)

/-- What keeps an extended range from being moved now: FENCED with STD_WINDOW, FLT_STACK, FLT_LINK or CP_CXL_LOST (R254, R445, R546), or CP_DOUBLE (R389); or stripe units that are unbuilt (R388), or locked or under repair for a write (R385, R446), which it waits for. -/
def extStop (s : State) (S : Stand) (w : HeldWork) (a n : Nat) (write : Bool) : Option RunEnd :=
  if !spaceOk s a n then some (.done s S Status.fenced.code Detail.STD_WINDOW)
  else
    match memTrouble s a n with
    | some e => some (.done s S Status.fenced.code e)
    | none =>
      if doubleLost s a n then some (.done s S Status.fenced.code Detail.CP_DOUBLE)
      else
        let us := blockedUnits s a n write
        if us.isEmpty then none else some (.wait (holdWork s us w))

/-- The bolt entry at an extended address (R245). -/
def boltEntry (s : State) (a : Nat) : BoltRef :=
  let w := leField (s.rd (a + 8) 8) 0 8
  ⟨leField (s.rd a 8) 0 8, bits w 0 32, bits w 32 8, bits w 40 6⟩

/-- The head a bolt entry belongs to: entries are head-major from BOLT_LIST (R245). -/
def entryHead (T : Task) (a : Nat) : Nat :=
  let nb := max 1 (leField T.record 0x14 4)
  T.heads.getD ((a - leField T.record 0x18 8) / 16 / nb) (leField T.record 0xE 1)

/-- The staged bolt that lies at an address. -/
def stagedAt (s : State) (a : Nat) : Option Staged := s.xch.staged.find? fun g => g.addrs.contains a

/-- What a gather asks of the bolt at an entry (R73, R253). A cut of a request of this node is SHARED as its entry says; of a cut that an ATTEND lists this node's copy has no entry to say so, and it may be (log 38). -/
def gatherWant (s : State) (T : Task) (a : Nat) : BoltWant :=
  let r := boltEntry s a
  let g := stagedAt s r.addr
  { format := taskFormat s T, hdim := taskHdim T, layer := T.layer, head := entryHead T a, tenant := leField T.record 0x10 4,
    ref := (match g with | some g => { r with ring := g.entry.ring } | none => r), fetched := g.isSome || xaSpace r.addr == 2,
    shared := T.attend.isSome || (match s.ctx T.handle with | some x => (x.cut (r.first / 32)).shared | none => false) }

/-- What a gather of a request's own step finds of the staged bolts it names (R208): an entry that has changed since has its bolt discarded, read again and counted; a bolt on its way is waited for. None of a gather that may go on. -/
def stagedOld (s : State) (T : Task) (ws : List BoltWant) : Option State :=
  match s.ctx T.handle, T.attend with
  | some x, none =>
    (match modelOf s x with
     | none => none
     | some m =>
       let gs := (ws.filterMap fun w => stagedAt s w.ref.addr).eraseDups
       let old := gs.filter fun g => decide (x.cut g.cut ≠ g.entry) && g.read.isNone
       if old.isEmpty then (if gs.any fun g => g.read.isSome then some s else none)
       else some ((old.foldl (fun s g => restage s x m g) s).cnt Reg.TIR_PREFETCH_MISC_REFETCH (old.length * m.kvHeads)))
  | _, _ => none

/-- The bolt that ends a gather, after it has been found bad: a fault of its stack or port (R73, R438), and no repair of it is kept. -/
def gatherFault (s : State) (T : Task) (w : BoltWant) (dt : Nat) : State :=
  boltFault { s with cp := { s.cp with repairs := amErase w.ref.addr s.cp.repairs } } T.handle w.ref.addr dt

/-- A gather (R253): bolts are checked, decrypted and staged in order with their addresses listed; the first that fails ends it, after a repair where R446 gives one. A bolt read from where a home had staged it counts on its own page (R390, R395). -/
def gatherRun (s : State) (S : Stand) (f : Nat) (T : Task) (h : HeldWork) (d l ext n : Nat) : RunEnd :=
  let size := slotBytes (taskFormat s T) (taskHdim T)
  let s := homeAccess s ext (16 * n)
  let ws := (List.range n).map fun i => gatherWant s T (ext + 16 * i)
  let keys := ws.map fun w => (BoltHdr.ofBytes (s.rd w.ref.addr 64)).keySlot
  if ws.any fun w => !spaceOk s w.ref.addr size then .done s S Status.fenced.code Detail.STD_WINDOW
  else
  match stagedOld s T ws with
  | some s => .wait s
  | none =>
  match keys.find? fun k => !keyReady s k with
  | some k => .wait (keyFill s k)
  | none =>
    let s := keys.foldl keyTouch s
    if ws.any fun w => doubleLost s w.ref.addr size then .done s S Status.fenced.code Detail.CP_DOUBLE
    else
    match (ws.flatMap fun w => blockedUnits s w.ref.addr size false).eraseDups with
    | u :: us => .wait (holdWork s (u :: us) h)
    | [] =>
    let s := ws.foldl (fun s w => homeAccess s w.ref.addr size) s
    let bad := ws.zipIdx.findSome? fun w => (match readBolt s w.1 with | .error e => some (w.1, w.2, e) | .ok _ => none)
    match bad.bind fun b => if b.2.2 = Detail.BOLT_CRC then some (b.1, b.2.1, repairBolt s b.1.ref.addr size) else none with
    | some (_, _, .wait s) => .wait s
    | some (w, _, .ended s dt) => .done (gatherFault s T w dt) S Status.fenced.code dt
    | none =>
      let good := ws.take (match bad with | some b => b.2.1 | none => n)
      let s := good.foldl (fun s w => boltRepaired s w.ref.addr T.handle) s
      let S := good.zipIdx.foldl (fun (S : Stand) w =>
        match readBolt s w.1 with
        | .error _ => S
        | .ok b => (S.wr f (d + w.2 * size) b).wr f (l + 4 * w.2) (leBytes 4 (d + w.2 * size))) S
      match bad with
      | some (w, _, e) => .done (gatherFault s T w e) S Status.fenced.code e
      | none => .done s S 0 0

/-- Runs a mover command to its end (R253, R254, R277); `kept` is what its frame's later stores have replaced (R250). -/
def moverRun (s : State) (S : Stand) (f : Nat) (T : Task) (h : HeldWork) (kept : AMap Byte) (code d q ext n : Nat) : RunEnd :=
  match moverRanges s S f T code d q n with
  | none => .done s S Status.fenced.code Detail.STD_WINDOW
  | some _ =>
    if code = 1 then
      match extStop s S h ext n false with
      | some r => r
      | none => let s := homeAccess s ext n; .done s (S.wr f d (s.rd ext n)) 0 0
    else if code = 2 then
      match extStop s S h ext n true with
      | some r => r
      | none => .done (putBytes (homeAccess s ext n) ext (S.rdKept f kept q n)) S 0 0
    else if code = 3 then
      match extStop s S h ext (16 * n) false with
      | some r => r
      | none => gatherRun s S f T h d q ext n
    else if code = 4 then
      let b := BoltHdr.ofBytes (S.rd f q 64)
      let size := slotBytes b.format b.hdim
      match extStop s S h ext size true with
      | some r => r
      | none =>
        if !keyReady s b.keySlot then .wait (keyFill s b.keySlot)
        else
          match writeRows (keyTouch s b.keySlot) (S.rd f q size) ext (leField T.record 0x10 4) with
          | .ok s => .done s S 0 0
          | .error e => .done s S e.1.code e.2
    else
      let rb := 4 * hdimOf (taskHdim T) + 8
      .done (taskReduce s T (chunks rb (S.rd f q (n * rb)))) S 0 0

/-! ### The column arbiters (R22, R182, R190 to R192, R253) -/

/-- The segments of at most 64 KiB that a transfer of n bytes at an extended address runs in, each with the HBM stack it goes to, if it goes to one. -/
def segments (s : State) (a n : Nat) : List (Option Nat × Nat) :=
  (List.range ((n + 65535) / 65536)).map fun i => (stackAt s (a + 65536 * i), min 65536 (n - 65536 * i))

/-- The segments of a mover command. -/
def moverSegs (s : State) (S : Stand) (f : Nat) (T : Task) (c : EngCmd) : List (Option Nat × Nat) :=
  match c.body with
  | .mover code d q ext n =>
    if (moverRanges s S f T code d q n).isNone then []
    else if code = 1 ∨ code = 2 then segments s ext n
    else if code = 3 then (List.range n).flatMap fun i => segments s (boltEntry s (ext + 16 * i)).addr (slotBytes (taskFormat s T) (taskHdim T))
    else if code = 4 then
      let h := BoltHdr.ofBytes (S.rd f q 64)
      segments s ext (slotBytes h.format h.hdim)
    else []
  | _ => []

/-- The segments that the oldest mover command of a frame has left. -/
def moverLeft (s : State) (st f : Nat) : List (Option Nat × Nat) :=
  let S := s.stand st
  match S.mov.find? (fun c => c.frame == f), (amGet f S.frames).bind (frameTask s) with
  | some c, some T => (moverSegs s S f T c).drop c.tile
  | _, _ => []

/-- A segment that waits at an HBM stack: the input and leaf flow of the column arbiter it comes under, the frame it is of, its bytes, and since when it waits. -/
structure ColItem where
  input : Nat
  flow : Nat
  st : Nat
  frame : Nat
  bytes : Nat
  since : Nat
  deriving DecidableEq, Repr

/-- The segments that wait at HBM stack k, one for each frame: a stand of the column is an input of its own with its job tags for flows, every other stand comes through the haul-road port, input 8, with pairs of stand and job tag. -/
def colItems (s : State) (k : Nat) : List ColItem :=
  s.xch.stands.flatMap fun e => (List.range 4).filterMap fun f =>
    match (s.stand e.1).mov.find? (fun c => c.frame == f), moverLeft s e.1 f with
    | some c, (some j, n) :: _ =>
      if j = k then some (if e.1 / 8 = k then ⟨e.1 % 8, f, e.1, f, n, c.since⟩ else ⟨8, 4 * e.1 + f, e.1, f, n, c.since⟩) else none
    | _, _ => none

/-- An arbiter of a column: of stack k's input i, or with i = 15 the stack's own. -/
def colArb (s : State) (k i : Nat) : Arb := amGetD (16 * k + i) Arb.empty s.xch.colArbs
def setColArb (s : State) (k i : Nat) (a : Arb) : State := { s with xch := { s.xch with colArbs := amSet (16 * k + i) a s.xch.colArbs } }

/-- The oldest mover command of a frame has moved its next segment. -/
def segmentDone (s : State) (st f : Nat) : State :=
  let S := s.stand st
  match S.mov.find? fun c => c.frame == f with
  | none => s
  | some c => s.setStand st { S with mov := S.mov.map fun q => if q.frame == f && q.ticket == c.ticket then { q with tile := q.tile + 1, since := s.now } else q }

/-- The column arbiter of stack k grants one segment (R190): each input offers what its own arbiter chose, weighted by its flows. -/
def colGrant (s : State) (k : Nat) : State :=
  let q := max 1 (s.r Reg.SCH_ARB_Q_COL_Q) * 1024
  let its := colItems s k
  let subs := ((its.map (·.input)).eraseDups).filterMap fun i =>
    let mine := its.filter fun x => x.input == i
    match (colArb s k i).select (mine.map fun x => ⟨x.flow, 1, x.bytes, x.since⟩) q (arbAge s) s.now with
    | some (o, a, _) => (mine.find? fun x => x.flow == o.input).map fun x => ((⟨i, mine.length, x.bytes, x.since⟩ : Offer), x, a)
    | none => none
  match (colArb s k 15).select (subs.map (·.1)) q (arbAge s) s.now with
  | none => s
  | some (o, a, aged) =>
    match subs.find? fun b => b.1.input == o.input with
    | none => s
    | some b =>
      let s := segmentDone s b.2.1.st b.2.1.frame
      let s := if aged then s.wrap (Reg.SCH_ARB_AGED_ITEMS.at 4 1) 1 else s
      let left := colItems s k
      let s := setColArb s k 15 (a.settle (left.map (·.input)))
      setColArb s k o.input (b.2.2.settle ((left.filter fun x => x.input == o.input).map (·.flow)))

/-- Moves the segments that a frame's oldest mover command has left: each HBM stack grants segments, this command's and others', as its arbiter chooses, until they have passed. -/
def passSegments (s : State) (st f : Nat) : Nat → State
  | 0 => s
  | fuel + 1 =>
    match moverLeft s st f with
    | [] => s
    | (none, _) :: _ => passSegments (segmentDone s st f) st f fuel
    | (some k, _) :: _ => passSegments (colGrant s k) st f fuel

/-- The segments that every frame's oldest mover command has left. -/
def segmentsLeft (s : State) : Nat := (s.xch.stands.flatMap fun e => (List.range 4).map fun f => (moverLeft s e.1 f).length).sum

/-- A mover command ends (R252). -/
def moverEnd (s : State) (st f t code dt : Nat) : State :=
  let S := s.stand st
  match S.mov.find? fun c => c.frame == f && c.ticket == t with
  | none => s
  | some c =>
    let gather : Bool := match c.body with | .mover 3 .. => true | _ => false
    let task := (amGet f S.frames).map (·.task)
    let s := finishCmd s st f .mov t code dt
    match task with
    | some k => if gather && code == 0 then lateDone s k else s
    | none => s

/-- MOVER_COMMAND_DONE (R252, R253): the oldest mover command of a frame runs to its end, once the column arbiters have passed its segments (log 92), and completes once the parity deltas of what it stored have been acknowledged (R383). One of a withdrawn frame stops here (R260). -/
def moverDone (s : State) (st f : Nat) : State :=
  let s := passSegments s st f (segmentsLeft s)
  let S := s.stand st
  match S.mov.find? (fun c => c.frame == f), amGet f S.frames with
  | some c, some F =>
    if c.started then s
    else if F.withdrawing then settleFrame (s.setStand st { S with mov := dropCmd S.mov f c.ticket }) st f
    else
    (match frameTask s F, c.body with
     | some T, .mover code d q ext n =>
       let h := HeldWork.mover st f c.ticket
       match moverRun s S f T h c.kept code d q ext n with
       | .wait s => s
       | .done t S c' dt =>
         let ds := newDeltas s t
         let t := unhold t h
         if ds.isEmpty then moverEnd (t.setStand st S) st f c.ticket c' dt
         else
           waitDeltas (t.setStand st { S with mov := S.mov.map fun q => if q == c then { q with started := true } else q }) ds (.mover st f c.ticket c' dt)
     | _, _ => s)
  | _, _ => s

def execMoverCommandDone (st frame : Nat) (s : State) : Host.Outcome State Fault Refusal := withUnit s (st < 64) (moverDone s st frame)

end Sys2Proof.Machine
end

