-- ==== Sys2Proof/Machine/Budget.lean ====
section
/-! DEFINITION. The array budget (R561, R562): charges, refills and what issue is withheld. -/

namespace Sys2Proof.Machine

/-- WATTS and DEPTH_US as they act. -/
def budgetWatts (s : State) : Nat := min 310 (max 40 (s.r Reg.PWR_ARRAY_BUDGET_WATTS))
def budgetDepth (s : State) : Nat := min 1000 (max 10 (s.r Reg.PWR_ARRAY_BUDGET_DEPTH_US))
/-- The bucket's depth in units of 0.01 nJ. -/
def bucketFull (s : State) : Int := budgetWatts s * budgetDepth s * 100000

/-- The level the bucket withholds at (R562). -/
def budgetLevel (s : State) : Nat :=
  let d := bucketFull s
  if s.mgt.bucket < 0 then 3 else if 4 * s.mgt.bucket < d then 2 else if 2 * s.mgt.bucket < d then 1 else 0

/-- Whether the budget applies: PS0 and PS1 (R561). -/
def budgetOn (s : State) : Bool := decide (s.r Reg.PWR_STATE_STATE ≤ 1)

/-- Whether a tile of a task kind is withheld (R562). -/
def withheld (s : State) (kind : Nat) : Bool :=
  budgetOn s && (match budgetLevel s with
    | 0 => false
    | 1 => kind == 2 || kind == 6
    | 2 => kind == 2 || kind == 6 || kind == 4
    | _ => true)

/-- Sets the bucket, with PWR_ARRAY_STATUS. -/
def setBucket (s : State) (b : Int) : State :=
  let s := { s with mgt := { s.mgt with bucket := b } }
  (s.setR Reg.PWR_ARRAY_STATUS_TOKENS ((b / 100000) % 2 ^ 32).toNat).setR Reg.PWR_ARRAY_STATUS_LEVEL (budgetLevel s)

/-- Charges energy in units of 0.01 nJ (R561). -/
def chargeArray (s : State) (e : Nat) : State :=
  setBucket { s with mgt := { s.mgt with spent := s.mgt.spent + e } } (s.mgt.bucket - e)

/-- The coefficient of a width class (R561). -/
def coefOf (s : State) (cls : Nat) : Nat :=
  if cls = 2 then s.r Reg.PWR_ARRAY_COEF_C16 else if cls = 1 then s.r Reg.PWR_ARRAY_COEF_C8 else s.r Reg.PWR_ARRAY_COEF_C4

/-- Energy of passes given as (width class, cycles). -/
def passEnergy (s : State) (ps : List (Nat × Nat)) : Nat := ps.foldl (fun e p => e + p.2 * coefOf s p.1) 0

/-- The task kind of a frame's task. -/
def frameKind (s : State) (F : Frame) : Nat := match frameTask s F with | some T => T.kind | none => 0

/-- Counts cycles withheld at a stand for one microsecond (STD_ATT_HELD): a frame's command is ready and its kind is withheld (log 43). -/
def countHeld (s : State) (st : Nat) : State :=
  let S := s.stand st
  let held := (S.att ++ S.cdc).any fun c => match amGet c.frame S.frames with | some F => withheld s (frameKind s F) | none => false
  if held then
    let n := S.heldCycles + 2000
    (s.setStand st { S with heldCycles := n }).setR (Reg.STD_ATT_HELD_KCYCLES.at 0x10000 st) (n / 1024 % 2 ^ 32)
  else s

/-- ARRAY_BUDGET_REFILL (R561): one microsecond's worth is added, up to the depth; AVG_W follows each millisecond. -/
def budgetRefill (s : State) : State :=
  let s := (s.xch.stands.map (·.1)).foldl countHeld s
  let s := if budgetOn s then setBucket s (min (bucketFull s) (s.mgt.bucket + budgetWatts s * 100000)) else s
  if s.mgt.spentAt + 1000000 ≤ s.now then
    let w := s.mgt.spent / 100000000
    ({ s with mgt := { s.mgt with spent := 0, spentAt := s.now } }).setR Reg.PWR_ARRAY_STATUS_AVG_W (min 65535 w)
  else s

def execArrayBudgetRefill (s : State) : Host.Outcome State Fault Refusal := nextOf s (budgetRefill s)

end Sys2Proof.Machine
end

