-- ==== Sys2Proof/Machine/CdcEngine.lean ====
section
/-! DEFINITION. The codec engine of a stand (R255, R63 to R68, R226, R227): its descriptor, QUANT and EXPAND; and engine queues in their error state (R94). -/

namespace Sys2Proof.Machine

/-! ### Error state (R94, R255) -/

/-- Records a refusal and puts the queue into its error state. -/
def queueError (s : State) (st : Nat) (e : Engine) (dt tag : Nat) : State :=
  let S := s.stand st
  match e with
  | .att =>
    let s := s.setStand st { S with attErr := true }
    ((s.setR (Reg.STD_ATT_STATUS_ERROR.at 0x10000 st) 1).setR (Reg.STD_ATT_STATUS_DETAIL.at 0x10000 st) dt).setR (Reg.STD_ATT_FAULT_TAG_JOB_TAG.at 0x10000 st) tag
  | _ =>
    let s := s.setStand st { S with cdcErr := true }
    (s.setR (Reg.STD_CDC_STATUS_ERROR.at 0x10000 st) 1).setR (Reg.STD_CDC_STATUS_DETAIL.at 0x10000 st) dt

/-- The commands of a queue from one on, in queue order. -/
def queueFrom (l : List EngCmd) (f t : Nat) : List EngCmd :=
  match l with
  | [] => []
  | c :: l => if c.frame = f ∧ c.ticket = t then c :: l else queueFrom l f t

/-- A command refused when its turn comes: it and every command queued after it complete with ERROR_FLUSHED (R94), its own completion with the detail (R117). -/
def refuseRun (s : State) (st : Nat) (e : Engine) (c : EngCmd) (dt : Nat) : State :=
  let s := queueError s st e dt c.jobTag
  let S := s.stand st
  (queueFrom (match e with | .att => S.att | _ => S.cdc) c.frame c.ticket).foldl (fun s q =>
    finishCmd s st q.frame e q.ticket Status.errorFlushed.code (if q.frame = c.frame ∧ q.ticket = c.ticket then dt else 0)) s

/-- What the check of a descriptor gives: accepted, refused with a detail, a program fault (R93, R243, R255), or an end at once with a status of its own (R15). -/
inductive DescEnd where
  | accept | refuse (dt : Nat) | fault (dt : Nat) | ended (code : Nat)
  deriving DecidableEq, Repr

/-- A command's turn has come and its lists and ranges are found wrong: it is refused, or faults its program (R93, R243). -/
def wrongRun (s : State) (st : Nat) (e : Engine) (c : EngCmd) (d : DescEnd) : State :=
  match d with
  | .refuse dt => refuseRun s st e c dt
  | .fault dt => progFault s st c.frame dt (match amGet c.frame (s.stand st).frames with | some F => F.pc | none => 0)
  | _ => s

/-- How the ranges of a descriptor stand: a reserved range is a program fault, one past the window is refused with `past`. -/
def rangesEnd (depth past : Nat) (rs : List (Nat × Nat)) : DescEnd :=
  if rs.any fun r => rangeOf depth r.1 r.2 == .reserved then .fault Detail.STD_WINDOW
  else if rs.any fun r => rangeOf depth r.1 r.2 == .past then .refuse past else .accept

/-- Issues a command of the attention or codec queue (R94, R249): flushed in the error state, refused, faulted, or queued. -/
def engIssue (s : State) (st f : Nat) (F : Frame) (e : Engine) (reg : Nat) (check : DescEnd) (b : CmdBody) : SlotEnd :=
  let S := s.stand st
  let p := F.issue e
  let G := p.1.setS reg (BitVec.ofNat 64 p.2)
  let ended (code dt : Nat) : Frame := { G with done := amSet (doneKey e p.2) (code, dt) G.done }
  let flushed := ended Status.errorFlushed.code 0
  match check with
  | .fault dt => .fault dt
  | .ended code => .ok s (ended code 0)
  | .refuse dt =>
    if (if e = .att then S.attErr else S.cdcErr) then .ok s flushed
    else .ok (queueError s st e dt F.jobTag) (ended Status.errorFlushed.code dt)
  | .accept =>
    if (if e = .att then S.attErr else S.cdcErr) then .ok s flushed
    else
      let c := newCmd s f p.2 F.jobTag b
      .ok (s.setStand st (if e = .att then { S with att := S.att ++ [c] } else { S with cdc := S.cdc ++ [c] })) G

/-! ### The codec descriptor (R255) -/

/-- Bytes of the output of a block in the deck, its rows `pitch` apart (R226, R227, R255). -/
def expandSpan (b : BlkHdr) (fmt pitch : Nat) : Nat :=
  if b.mode = 1 then (b.nrows - 1) * pitch + (if fmt = 1 then 2 * b.ncols else b.ncols + b.ncols / 32) else factorsSize b fmt

/-- The check of a codec descriptor as it is issued (R251, R255). -/
def cdcCheck (S : Stand) (f tag : Nat) (d : List Byte) : DescEnd :=
  let op := leField d 0 1
  let fmt := leField d 1 1
  let src := leField d 0xC 4
  let dst := leField d 0x10 4
  if leField d 8 4 ≠ tag ∨ !allZero (d.drop 0x19) then .refuse Detail.CDC_FORMAT
  else if op = 1 then
    if !(fmt == 1 || fmt == 2) ∨ leField d 2 1 ≠ 0 ∨ leField d 6 2 ≠ 0 then .refuse Detail.CDC_FORMAT
    else
      let b := BlkHdr.ofBytes (S.rd f src 64)
      rangesEnd S.depth Detail.CDC_FORMAT [(src, 64 + b.dataLen), (dst, expandSpan b fmt (leField d 0x14 4))]
  else if op = 2 then
    let rows := leField d 6 2
    if fmt = 0 ∨ 3 < fmt ∨ 4 < leField d 2 1 ∨ 255 < leField d 4 2 ∨ rows = 0 ∨ 32 < rows ∨ 2 < leField d 0x18 1 then .refuse Detail.CDC_FORMAT
    else rangesEnd S.depth Detail.CDC_FORMAT [(src, 2 * rows * hdimOf (leField d 2 1) * qinBytes (leField d 0x18 1)), (dst, slotBytes fmt (leField d 2 1))]
  else .refuse Detail.CDC_FORMAT

/-- CDC_ISSUE (R249, R250, R255): the 64-byte descriptor at aD is copied as it stands before this bundle writes. -/
def cdcIssueAct (st : Nat) : State → Nat → Frame → Nat → SlotEnd := fun s f F w =>
  let a := (F.a (aA w)).toNat
  let S := s.stand st
  if !deckOk s st a 64 then .fault Detail.STD_WINDOW
  else
    let d := S.rd f a 64
    engIssue s st f F .cdc (aT w) (cdcCheck S f F.jobTag d) (.codec d)

def execCdcIssue (st : Nat) (s : State) : Host.Outcome State Fault Refusal := runAct st slotA 2 s (cdcIssueAct st)

/-! ### QUANT (R63 to R68, R255) -/

/-- The profile body under which the next rows of a bolt are quantized, with the slot and version its header names (R65): the current version for a bolt's first rows, the named one after; none where it is not there. -/
def quantProfile (s : State) (h : BoltHdr) (slot : Nat) : Option (Nat × Nat × List Byte) :=
  let t := if h.fill = 0 then slot else h.profile
  match amGet t s.cdc.tables with
  | none => none
  | some T =>
    if T.kind ≠ 1 ∨ T.curLen = 0 then none
    else if h.fill = 0 ∨ h.profileVer = T.curVer then some (t, T.curVer, tblBody s t T.curBuf)
    else if h.profileVer = T.otherVer ∧ T.otherLen ≠ 0 then some (t, T.otherVer, tblBody s t (1 - T.curBuf)) else none

/-- A staged slot with K and V rows for position p put in: from the rows as delivered, under two shifts; and the blocks that held NaN and that saturated. -/
def quantPos (fmt d qin : Nat) (ks vs : Int) (slot krow vrow : List Byte) (p : Nat) : List Byte × Nat × Nat :=
  let k := quantRow fmt d qin ks krow
  let v := quantRow fmt d qin vs vrow
  let l := splice (splice slot (kRowAt fmt d p) k.1) (vRowAt fmt d p) v.1
  (splice (splice l (kScaleAt fmt d p) k.2.1) (vScaleAt fmt d p) v.2.1, k.2.2.1 + v.2.2.1, k.2.2.2 + v.2.2.2)

/-- Runs QUANT: rows FILL to FILL + ROWS − 1 of the staged slot (R255). A ROWS that passes 32 is a refusal; a profile that is not there ends it with CDC_TBL_MISMATCH, one that cannot be reached with FLT_STACK (R445). -/
def quantRun (s : State) (S : Stand) (f : Nat) (kept : AMap Byte) (d : List Byte) : Option (State × Stand × Nat × Nat) :=
  let fmt := leField d 1 1
  let hd := hdimOf (leField d 2 1)
  let rows := leField d 6 2
  let qin := leField d 0x18 1
  let dst := leField d 0x10 4
  let slot := S.rd f dst (slotBytes fmt (leField d 2 1))
  let h := BoltHdr.ofBytes slot
  if 32 < h.fill + rows then none
  else
    match (if fmt = 1 then some (h.profile, h.profileVer, []) else quantProfile s h (leField d 3 1)) with
    | none => some (s, S, Status.fenced.code, Detail.CDC_TBL_MISMATCH)
    | some (t, ver, body) =>
      match (amGet t s.cdc.tables).bind fun T => memTrouble s (tblAddr s t (if T.curVer = ver then T.curBuf else 1 - T.curBuf)) body.length with
      | some dt => some (s, S, Status.fenced.code, dt)
      | none =>
      let w := hd * qinBytes qin
      let src := S.rdKept f kept (leField d 0xC 4) (2 * rows * w)
      let ks := shiftOf (leField body (2 * leField d 4 2) 1)
      let vs := shiftOf (leField body (2 * leField d 4 2 + 1) 1)
      let r := (List.range rows).foldl (fun (a : List Byte × Nat × Nat) i =>
        let q := quantPos fmt hd qin ks vs a.1 ((src.drop (i * w)).take w) ((src.drop ((rows + i) * w)).take w) (h.fill + i)
        (q.1, a.2.1 + q.2.1, a.2.2 + q.2.2)) (slot, 0, 0)
      let l := splice (splice (splice r.1 2 (leBytes 1 (h.fill + rows))) 7 (leBytes 1 t)) 8 (leBytes 2 ver)
      let s := (s.cnt Reg.CDC_KVQ_NAN_BLOCKS r.2.1).cnt Reg.CDC_KVQ_SAT_BLOCKS r.2.2
      some (s, S.wr f dst l, 0, 0)

/-! ### EXPAND (R226, R227, R255) -/

/-- Runs EXPAND of one block in the deck, with the tables its EXPAND command has resolved (R233). -/
def expandRun (s : State) (S : Stand) (f : Nat) (T : Task) (kept : AMap Byte) (d : List Byte) : Stand :=
  let fmt := leField d 1 1
  let dst := leField d 0x10 4
  let src := leField d 0xC 4
  let hd := S.rdKept f kept src 64
  let b := BlkHdr.ofBytes hd
  let data := S.rdKept f kept (src + 64) b.dataLen
  let tbl (t : Nat) : List Byte := match T.expand with
    | some (n, _) => (match amGet n s.cdc.jobs with | some j => jobTable s j t | none => [])
    | none => []
  if b.mode = 1 then
    (productRows b data ((tbl b.basis).drop 64) (FV.of32 (leField (tbl b.gainSlot) (4 * b.gainIndex) 4))).zipIdx.foldl (fun S r =>
      let o := outRow fmt r.1
      S.wr f (dst + r.2 * leField d 0x14 4) (o.1 ++ o.2)) S
  else
    let ub := factorBytes b.ffmt b.nrows b.rank
    let us := (List.range b.nrows).flatMap (factorOut b.ffmt fmt b.rank data b.nrows)
    let vs := (List.range b.ncols).flatMap (factorOut b.ffmt fmt b.rank (data.drop ub) b.ncols)
    S.wr f dst (hd ++ us ++ vs)

/-- The issue cycles of a codec command's tiles in order (R229): a block's first carries the 64 cycles of its start. What a QUANT takes the spec does not state (DESIGN CHOICE, log 149). -/
def cdcTiles (S : Stand) (f : Nat) (kept : AMap Byte) (d : List Byte) : List Nat :=
  if leField d 0 1 = 1 then
    let b := BlkHdr.ofBytes (S.rdKept f kept (leField d 0xC 4) 64)
    if b.mode = 1 then (List.range (((b.nrows + 63) / 64) * ((b.ncols + 63) / 64))).map fun i => max (4 * b.rank) 4 + (if i = 0 then 64 else 0)
    else [64 + ((b.nrows + b.ncols) * b.rank + 2047) / 2048]
  else [Config.quantCycles (leField d 6 2) (hdimOf (leField d 2 1))]

/-- The tiles that the oldest codec command of a frame has left, with its task's kind; none of a withdrawn frame. -/
def cdcLeft (s : State) (st f : Nat) : Option (EngCmd × Nat × List Nat) :=
  let S := s.stand st
  match S.cdc.find? (fun c => c.frame == f), amGet f S.frames with
  | some c, some F =>
    (match frameTask s F, c.body with
     | some T, .codec d => if F.withdrawing then none else some (c, T.kind, (cdcTiles S f c.kept d).drop c.tile)
     | _, _ => none)
  | _, _ => none

/-- What the codec engine's arbiter may choose from: each frame's oldest command with a tile left and not withheld by the array budget (R229, R562). -/
def cdcOffers (s : State) (st : Nat) : List Offer :=
  (List.range 4).filterMap fun f =>
    match cdcLeft s st f with
    | some (c, kind, n :: _) => if withheld s kind then none else some ⟨f, 1, n, c.since⟩
    | _ => none

/-- The codec engine at a preemption point issues the tile that its arbiter chooses (R183, R190, R229), charged its whole energy (R561). -/
def cdcGrant (s : State) (st : Nat) : State :=
  match (s.stand st).cdcArb.select (cdcOffers s st) (max 1 (s.r Reg.SCH_ARB_Q_ENG_Q) * 256) (arbAge s) s.now with
  | none => s
  | some (o, arb, aged) =>
    let S := s.stand st
    let S := { S with cdcArb := arb, cdc := S.cdc.map fun q =>
      if q.frame == o.input && (S.cdc.find? fun c => c.frame == o.input) == some q then { q with started := true, tile := q.tile + 1, since := s.now } else q }
    let s := chargeArray (s.setStand st S) (o.cost * s.r Reg.PWR_ARRAY_COEF_CDC)
    let s := if aged then s.wrap (Reg.SCH_ARB_AGED_ITEMS.at 4 0) 1 else s
    let S := s.stand st
    s.setStand st { S with cdcArb := S.cdcArb.settle ((cdcOffers s st).map (·.input)) }

/-- Issues tiles until those of a frame's oldest codec command have all been issued, other frames' between them as the arbiter chooses, or until the array budget withholds them. -/
def cdcPass (s : State) (st f : Nat) : Nat → State
  | 0 => s
  | fuel + 1 =>
    match cdcLeft s st f with
    | some (_, kind, _ :: _) => if withheld s kind then s else cdcPass (cdcGrant s st) st f fuel
    | _ => s

/-- The tiles that every frame's oldest codec command has left. -/
def cdcTilesLeft (s : State) (st : Nat) : Nat :=
  ((List.range 4).map fun f => match cdcLeft s st f with | some (_, _, l) => l.length | none => 0).sum

/-- A codec or mover command of a withdrawn frame has come to its next boundary: it stops, and with the last one the frame ends (R260). -/
def stopAtBoundary (s : State) (st f : Nat) : State :=
  let S := s.stand st
  settleFrame (s.setStand st { S with cdc := S.cdc.filter fun c => c.frame != f, mov := S.mov.filter fun c => c.frame != f || c.started }) st f

/-- CDC_COMMAND_DONE (R229, R252, R255): the tiles that the oldest codec command of a frame has left are issued, a preemption point after each, and with the last of them it runs to its end; a tile that the budget withholds waits. A command of a withdrawn frame stops (R260). -/
def cdcDone (s : State) (st f : Nat) : State :=
  let s := cdcPass s st f (cdcTilesLeft s st)
  let S := s.stand st
  match S.cdc.find? (fun c => c.frame == f), amGet f S.frames with
  | some c, some F =>
    (match frameTask s F, c.body, cdcLeft s st f with
     | some T, .codec d, some (_, _, []) =>
       if leField d 0 1 = 1 then finishCmd (s.setStand st (expandRun s S f T c.kept d)) st f .cdc c.ticket 0 0
       else
         (match quantRun s S f c.kept d with
          | none => refuseRun s st .cdc c Detail.CDC_FORMAT
          | some (s, S, code, dt) => finishCmd (s.setStand st S) st f .cdc c.ticket code dt)
     | _, _, _ => if F.withdrawing then stopAtBoundary s st f else s)
  | _, _ => s

def execCdcCommandDone (st frame : Nat) (s : State) : Host.Outcome State Fault Refusal := withUnit s (st < 64) (cdcDone s st frame)

/-- CDC_ERROR_CLEAR (R255): writing 1 to STD_CDC_STATUS.ERROR clears it and reopens the queue. -/
def cdcErrorClear (s : State) (st v : Nat) : State :=
  if bit v 31 then
    ((s.setStand st { s.stand st with cdcErr := false }).setR (Reg.STD_CDC_STATUS_ERROR.at 0x10000 st) 0).setR (Reg.STD_CDC_STATUS_DETAIL.at 0x10000 st) 0
  else s

def execCdcErrorClear (stand v : Nat) (s : State) : Host.Outcome State Fault Refusal := withUnit s (stand < 64) (cdcErrorClear s stand v)

end Sys2Proof.Machine
end

