-- ==== Sys2Proof/Machine/Attention.lean ====
section
/-! DEFINITION. The attention engine's commands (R89 to R116, R279, R280): descriptors, the bolt list, visibility, one key tile of a forward command, outputs, the backward mode, and tile commands. -/

namespace Sys2Proof.Machine

/-! ### The descriptor (R92, R93) -/

/-- The fields of an attention descriptor (R92). -/
structure AttDesc where
  mode : Nat
  flags : Nat
  hdim : Nat
  formats : Nat
  rpp : Nat
  rows : Nat
  pos0 : Nat
  window : Nat
  sinks : Nat
  bolts : Nat
  scale : Nat
  tag : Nat
  qAddr : Nat
  list : Nat
  out : Nat
  stat : Nat
  tree : Nat
  dO : Nat
  dq : Nat
  dkv : Nat
  deriving DecidableEq, Repr

def AttDesc.ofBytes (l : List Byte) : AttDesc :=
  { mode := leField l 0 1, flags := leField l 1 1, hdim := leField l 2 1, formats := leField l 3 1, rpp := leField l 4 2, rows := leField l 6 2,
    pos0 := leField l 8 4, window := leField l 0xC 4, sinks := leField l 0x10 2, bolts := leField l 0x12 2, scale := leField l 0x14 4,
    tag := leField l 0x18 4, qAddr := leField l 0x20 4, list := leField l 0x24 4, out := leField l 0x28 4, stat := leField l 0x2C 4,
    tree := leField l 0x30 4, dO := leField l 0x34 4, dq := leField l 0x38 4, dkv := leField l 0x3C 4 }

namespace AttDesc
def normalize (a : AttDesc) : Bool := bit a.flags 0
def saveStats (a : AttDesc) : Bool := bit a.flags 1
def treeOn (a : AttDesc) : Bool := bit a.flags 2
def continue_ (a : AttDesc) : Bool := bit a.flags 3
def dkvInit (a : AttDesc) : Bool := bit a.flags 4
def fwd (a : AttDesc) : Bool := a.mode == 1
def qin (a : AttDesc) : Nat := bits a.formats 0 2
def qconv (a : AttDesc) : Nat := bits a.formats 2 2
def pfmt (a : AttDesc) : Nat := bits a.formats 4 2
def bf16Out (a : AttDesc) : Bool := bits a.formats 6 2 == 1
def d (a : AttDesc) : Nat := hdimOf a.hdim
/-- Positions or tree nodes of the command (R100, R105). -/
def nodes (a : AttDesc) : Nat := a.rows / max 1 a.rpp
/-- Bytes of a normalized row (R112) and of a partial row (R111). -/
def normRow (a : AttDesc) : Nat := a.d * (if a.bf16Out then 2 else 4)
def partRow (a : AttDesc) : Nat := 4 * a.d + 8

/-- Whether every field is in range (R92, R93), c_tile apart. -/
def fieldsOk (a : AttDesc) (l : List Byte) : Bool :=
  (a.mode == 1 || a.mode == 2) && decide (a.flags < 32) && decide (a.hdim ≤ 4) && decide (a.qin ≤ 2) && decide (a.qconv ≤ 2)
  && decide (bits a.formats 6 2 ≤ 1) && decide (1 ≤ a.rpp) && decide (a.rpp ≤ 1024) && a.rows % max 1 a.rpp == 0 && decide (a.pos0 ≤ 4194303)
  && decide (a.window ≤ 4194304) && decide (a.sinks ≤ 4096) && decide (1 ≤ a.bolts) && decide (a.bolts ≤ 1024) && fp32PosNormal a.scale
  && leField l 0x1C 4 == 0 && decide (a.rows * a.d ≤ 65536) && (a.fwd || !(a.normalize || a.saveStats || a.treeOn))
  && (!a.treeOn || decide (a.nodes ≤ 64))

/-- The deck ranges that a command uses, its list's bolts apart (R92, R93). -/
def ranges (a : AttDesc) : List (Nat × Nat) :=
  [(a.qAddr, a.rows * a.d * qinBytes a.qin), (a.list, 4 * a.bolts)]
  ++ (if a.fwd then [(a.out, a.rows * (if a.normalize then a.normRow else a.partRow))]
        ++ (if a.continue_ then [(a.out, a.rows * a.partRow)] else [])
        ++ (if a.saveStats then [(a.stat, 8 * a.rows)] else []) ++ (if a.treeOn then [(a.tree, 64)] else [])
      else [(a.out, a.rows * a.normRow), (a.stat, 8 * a.rows), (a.dO, a.rows * a.d * qinBytes a.qin), (a.dq, 4 * a.rows * a.d),
            (a.dkv, a.bolts * 64 * a.d * 4)])
end AttDesc

/-- The check of an attention descriptor as it is issued (R93, R94, R251). Output ranges of commands with different job tags lie in different windows and never overlap (R241, R251). -/
def attCheck (S : Stand) (tag : Nat) (l : List Byte) : DescEnd :=
  let a := AttDesc.ofBytes l
  if a.tag ≠ tag ∨ !a.fieldsOk l then .refuse Detail.ATT_DESC
  else rangesEnd S.depth Detail.ATT_ADDR (a.ranges.filter fun r => r.2 != 0)

/-- ATT_ISSUE (R94, R249, R250): the descriptor at aD is copied as it stands before this bundle writes. A role without the backward mode ends it with FENCED (R15). -/
def attIssueAct (st : Nat) : State → Nat → Frame → Nat → SlotEnd := fun s f F w =>
  let a := (F.a (aA w)).toNat
  let S := s.stand st
  if !deckOk s st a 64 then .fault Detail.STD_WINDOW
  else
    let l := S.rd f a 64
    let check := if (AttDesc.ofBytes l).mode = 2 ∧ !roleEnables s [rolePrompt, roleGeneration, roleMixed] then .ended Status.fenced.code else attCheck S F.jobTag l
    engIssue s st f F .att (aT w) check (.attention l)

def execAttIssue (st : Nat) (s : State) : Host.Outcome State Fault Refusal := runAct st slotA 1 s (attIssueAct st)

/-! ### The bolt list (R96, R97, R105) -/

/-- An entry of a bolt list as the engine reads it: the slot's bytes and header. -/
structure LBolt where
  slot : List Byte
  hdr : BoltHdr
  deriving DecidableEq, Repr

def LBolt.tentative (b : LBolt) : Bool := bit b.hdr.flags 0

/-- Reads an entry of a command's list (R92, R93, R96, R243): its slot's range is checked before what lies there, a reserved range is a program fault, and FILL is 1 to 32 (R69). -/
def readEntry (S : Stand) (f : Nat) (a : AttDesc) (addr : Nat) : Except DescEnd LBolt :=
  let h := BoltHdr.ofBytes (S.rd f addr 64)
  let size := slotBytes h.format h.hdim
  if addr % 64 ≠ 0 then .error (.refuse Detail.ATT_LIST)
  else
    match rangesEnd S.depth Detail.ATT_ADDR [(addr, 64)] with
    | .accept =>
      if h.format = 0 ∨ 3 < h.format ∨ h.hdim ≠ a.hdim ∨ h.fill = 0 ∨ 32 < h.fill then .error (.refuse Detail.ATT_LIST)
      else
        (match rangesEnd S.depth Detail.ATT_ADDR [(addr, size)] with
         | .accept => .ok ⟨S.rd f addr size, h⟩
         | e => .error e)
    | e => .error e

/-- Reads the list of a command; the first entry that is wrong ends it. -/
def readList (S : Stand) (f : Nat) (a : AttDesc) : Except DescEnd (List LBolt) :=
  (List.range a.bolts).foldl (fun r i =>
    match r with
    | .error e => .error e
    | .ok l =>
      match readEntry S f a (leNat (S.rd f (a.list + 4 * i) 4)) with
      | .error e => .error e
      | .ok b => .ok (l ++ [b])) (.ok [])

/-- Whether numbers strictly rise. -/
def rising : List Nat → Bool
  | a :: b :: l => decide (a < b) && rising (b :: l)
  | _ => true

/-- Whether a list keeps the order, format and tentative rules (R96, R105). -/
def listOk (a : AttDesc) (l : List LBolt) : Bool :=
  let plain := l.filter fun b => !b.tentative
  let tent := l.filter (·.tentative)
  rising (plain.map (·.hdr.first)) && (l.drop plain.length).all (·.tentative) && decide (tent.length ≤ 2) && (tent.isEmpty || a.treeOn)
  && (!a.treeOn || plain.all fun b => decide (b.hdr.first + b.hdr.fill ≤ a.pos0))

/-- The parent table of a command, as it stood at the issue (R250). -/
def treeOf (S : Stand) (c : EngCmd) (a : AttDesc) : List Nat := if a.treeOn then (S.rdKept c.frame c.kept a.tree 64).map (·.toNat) else []
/-- Whether every parent is below its node (R105). -/
def treeParents (n : Nat) (t : List Nat) : Bool := (List.range n).all fun i => t.getD i 0 == 0xFF || decide (t.getD i 0 < i)

/-! ### Passes (R89, R90, R115) -/

/-- The width classes and cycles of the passes of a key tile whose bolts are of format `fmt`. -/
def tilePasses (a : AttDesc) (fmt : Nat) : List (Nat × Nat) :=
  let q := clsQ a.qin a.qconv
  let dOc := if a.qin = 0 then 2 else 1
  let p := clsP a.pfmt fmt
  let k := clsBolt fmt
  let classes := if a.fwd then [max q k, max p k] else [max q k, max dOc k, max p dOc, max p k, max p q]
  classes.map fun c => (c, passCycles c a.rows a.d)

/-- c_tile of a command's tile. -/
def tileCost (a : AttDesc) (fmt : Nat) : Nat := (tilePasses a fmt).foldl (fun n p => n + p.2) 0

/-- The bolts of key tile i (R97). -/
def tileBolts (l : List LBolt) (i : Nat) : List LBolt := (l.drop (2 * i)).take 2
/-- The widest format of a tile's bolts, by width class. -/
def tileFmt (bs : List LBolt) : Nat := bs.foldl (fun f b => if clsBolt f < clsBolt b.hdr.format then b.hdr.format else f) 3
/-- Key tiles of a list. -/
def tileCount (n : Nat) : Nat := (n + 1) / 2

/-! ### Visibility (R96, R100, R104, R105) -/

/-- Ancestors of node n in a parent table, n among them. -/
def ancestors (t : List Nat) : Nat → Nat → List Nat
  | 0, _ => []
  | fuel + 1, n => n :: (if t.getD n 0xFF = 0xFF then [] else ancestors t fuel (t.getD n 0xFF))

/-- The window and sink rule of R104 for key position j at query position i. -/
def inReach (a : AttDesc) (i j : Nat) : Bool := a.window == 0 || decide (i < j + a.window) || decide (j < a.sinks)

/-- The nodes' positions of a tree command. -/
def nodePos (a : AttDesc) (t : List Nat) : List Nat := (treeDepths a.nodes t).map (a.pos0 + ·)

/-- Whether row r of a command sees row p of a bolt, where `k0` is the first node of a tentative bolt. -/
def visible (a : AttDesc) (t : List Nat) (pos : List Nat) (r : Nat) (b : LBolt) (k0 p : Nat) : Bool :=
  let n := r / max 1 a.rpp
  if b.hdr.fill ≤ p then false
  else if !a.treeOn then
    let i := a.pos0 + n
    let j := b.hdr.first + p
    decide (j ≤ i) && inReach a i j
  else
    let i := pos.getD n 0
    if b.tentative then
      let k := k0 + p
      decide (k < a.nodes) && (ancestors t 65 n).contains k && inReach a i (pos.getD k 0)
    else
      let j := b.hdr.first + p
      decide (j < a.pos0) && inReach a i j

/-- The first node of each bolt of a list: 0 for the first tentative bolt, 32 for the second. -/
def nodeBase (l : List LBolt) (i : Nat) : Nat := 32 * ((l.take i).countP (·.tentative))

/-- The visible rows of a bolt of the list for a query row. -/
def visRows (a : AttDesc) (t pos : List Nat) (l : List LBolt) (i r : Nat) : List Bool :=
  match l[i]? with
  | some b => (List.range 32).map fun p => visible a t pos r b (nodeBase l i) p
  | none => List.replicate 32 false

/-- Whether a tile has a key slot visible to some row (R99). -/
def tileSeen (a : AttDesc) (t pos : List Nat) (l : List LBolt) (i : Nat) : Bool :=
  (List.range a.rows).any fun r => (visRows a t pos l (2 * i) r).any id || (visRows a t pos l (2 * i + 1) r).any id

/-! ### Scores (R101 to R103) -/

/-- A row of QIN elements as values. -/
def qinRow (qin d : Nat) (l : List Byte) : List FV := (List.range d).map (qinVal qin l)

/-- A query row as the score pass takes it (R101). -/
def queryRow (a : AttDesc) (l : List Byte) : List FV :=
  let v := qinRow a.qin a.d l
  if a.qconv = 0 then v
  else
    let four := a.qconv == 2
    (chunks 32 v).flatMap fun c =>
      let b := mxQuant four 0 c
      b.elems.map (mxVal four (bits b.entry 0 8))

/-- The scale of scores, c = RNE(σ × log2 e) (R103). -/
def scoreScale (a : AttDesc) : FV := (FV.of32 a.scale).mulR (FV.of32 0x3FB8AA3B)

/-- Values converted to the P operand format over the 32 key slots of one bolt (R107). -/
def pConvert (a : AttDesc) (fmt : Nat) (p : List FV) : List FV :=
  let f := if a.pfmt = 0 then (if fmt = 1 then 1 else 2) else a.pfmt
  if f = 1 then p.map fun x => FV.of16 x.to16
  else
    let b := mxQuant (f == 3) 0 p
    b.elems.map (mxVal (f == 3) (bits b.entry 0 8))

/-- The scaled scores of a query row against a bolt (R102, R103); +0 at rows that are not visible. -/
def scores (a : AttDesc) (q : List FV) (b : LBolt) (vis : List Bool) : List FV :=
  let c := scoreScale a
  vis.zipIdx.map fun v => if v.1 then (dotAcc FV.zero q (boltRow b.hdr.format a.d b.slot false v.2)).mulR c else FV.zero

/-! ### One key tile of a forward command (R106 to R108) -/

/-- The exact sum of weights times values of a channel, rounded once; a weight of +0 contributes +0 (R108). -/
def weightedSum (w v : List FV) : FV := (FV.sum ((w.zip v).map fun p => if p.1.isZero then FV.zero else p.1.mul p.2)).r32

/-- A row's state as values. -/
def SRow.fv (r : SRow) : FV × FV × List FV := (FV.of32 r.m.toNat, FV.of32 r.l.toNat, r.o.map fun x => FV.of32 x.toNat)
/-- A row's state from values. -/
def SRow.of (m l : FV) (o : List FV) : SRow := ⟨BitVec.ofNat 32 m.to32, BitVec.ofNat 32 l.to32, o.map fun x => BitVec.ofNat 32 x.to32, false⟩
/-- A poisoned row. -/
def SRow.poison (d : Nat) : SRow := ⟨0x7FC00000, 0x7FC00000, List.replicate d 0x7FC00000, true⟩
/-- A row's start without CONTINUE (R98). -/
def SRow.start (d : Nat) : SRow := ⟨BitVec.ofNat 32 FV.ninf.to32, 0, List.replicate d 0, false⟩
/-- A row's start from a partial (R98, R111). -/
def SRow.ofPartial (d : Nat) (l : List Byte) : SRow :=
  let m := BitVec.ofNat 32 (leField l (4 * d) 4)
  ⟨m, BitVec.ofNat 32 (leField l (4 * d + 4) 4), (List.range d).map fun i => BitVec.ofNat 32 (leField l (4 * i) 4), (FV.of32 m.toNat).isNan⟩

/-- One row through one tile of up to two bolts, each with its visible rows (R106). Of zero scores of both signs the maximum is +0 (DEDUCED, log 144). -/
def rowTile (a : AttDesc) (q : List FV) (bs : List (LBolt × List Bool)) (r : SRow) : SRow :=
  if r.poisoned then r
  else
    let ts := bs.map fun b => (b.1, b.2, scores a q b.1 b.2)
    let seen := ts.flatMap fun t => ((t.2.2.zip t.2.1).filter (·.2)).map (·.1)
    if seen.any fun t => t.isNan || t == FV.inf false then SRow.poison a.d
    else
      let st := r.fv
      let mNew := seen.foldl FV.maxZ st.1
      let alpha := if mNew = FV.ninf then FV.one else exp2 (st.1.subR mNew)
      let ws := ts.map fun t =>
        (t.1, pConvert a t.1.hdr.format ((t.2.2.zip t.2.1).map fun e => if e.2 && e.1 != FV.ninf then exp2 (e.1.subR mNew) else FV.zero))
      let two (f : (LBolt × List FV) → FV) : List FV := (List.range 2).map fun i => match ws[i]? with | some w => f w | none => FV.zero
      let acc (x : FV) (sums : List FV) : FV := sums.foldl FV.addR (x.mulR alpha)
      let l := acc st.2.1 (two fun w => (FV.sum w.2).r32)
      let vals := ws.map fun w => (List.range 32).map fun p => boltRow w.1.hdr.format a.d w.1.slot true p
      let o := st.2.2.zipIdx.map fun x =>
        acc x.1 ((List.range 2).map fun i => match ws[i]?, vals[i]? with
          | some w, some v => weightedSum w.2 (v.map fun row => row.getD x.2 FV.zero)
          | _, _ => FV.zero)
      SRow.of mNew l o

/-! ### Running a command's tiles -/

/-- A started command: its rows at their start, or the detail that refuses it (R93, R96, R98, R105). -/
def attStart (S : Stand) (c : EngCmd) (a : AttDesc) : Except DescEnd EngCmd :=
  match readList S c.frame a with
  | .error e => .error e
  | .ok l =>
    if !listOk a l then .error (.refuse Detail.ATT_LIST)
    else if a.treeOn && !treeParents a.nodes (treeOf S c a) then .error (.refuse Detail.ATT_TREE)
    else if l.any fun b => decide (4096 < tileCost a b.hdr.format) then .error (.refuse Detail.ATT_DESC)
    else
      let rows := if a.fwd then (List.range a.rows).map fun r =>
          if a.continue_ then SRow.ofPartial a.d (S.rd c.frame (a.out + r * a.partRow) a.partRow) else SRow.start a.d
        else []
      .ok { c with started := true, tile := 0, rows := rows, preNan := rows.countP (·.poisoned) }

/-- The tile from c's next on that some row sees, and how many are skipped before it (R99). -/
def nextTile (a : AttDesc) (t pos : List Nat) (l : List LBolt) : Nat → Nat → Nat × Option Nat
  | _, 0 => (0, none)
  | i, fuel + 1 =>
    if tileCount l.length ≤ i then (0, none)
    else if tileSeen a t pos l i then (0, some i)
    else
      let r := nextTile a t pos l (i + 1) fuel
      (r.1 + 1, r.2)

/-- Counts array issue cycles (STD_ATT_CYCLES) and charges their energy. -/
def issueCycles (s : State) (st : Nat) (ps : List (Nat × Nat)) : State :=
  let S := s.stand st
  let n := S.attCycles + ps.foldl (fun n p => n + p.2) 0
  let s := (s.setStand st { S with attCycles := n }).setR (Reg.STD_ATT_CYCLES_KCYCLES.at 0x10000 st) (n / 1024 % 2 ^ 32)
  chargeArray s (passEnergy s ps)

/-- Replaces a command in the attention queue. -/
def setAtt (s : State) (st : Nat) (c : EngCmd) : State :=
  let S := s.stand st
  s.setStand st { S with att := S.att.map fun q => if q.frame == c.frame && q.ticket == c.ticket then c else q }

/-- Passes and cycles of a tile command (R279, R280). -/
def tilePass (code n : Nat) : Nat × Nat :=
  if code = 8 then (2, 64 * (n / 32))
  else if code = 0xC then (0, 32 * ((n + 63) / 64))
  else if code = 4 then (2, 16) else if code = 0x10 then (2, 64) else (1, 64 * ((n + 63) / 64))

/-- An attention command, started, with its list, the tiles skipped next and the tile it would run then, if one is left that a row sees (R99). -/
def attHead (S : Stand) (c : EngCmd) (a : AttDesc) : Except DescEnd (EngCmd × List LBolt × Nat × Option Nat) :=
  match (if c.started then .ok c else attStart S c a) with
  | .error e => .error e
  | .ok c =>
    match readList S c.frame a with
    | .error e => .error e
    | .ok l =>
      let t := treeOf S c a
      .ok (c, l, nextTile a t (nodePos a t) l c.tile (tileCount l.length + 1))

/-- Whether a command has no tile left to run: the tiles that no row sees take no turn (R99). -/
def tilesDone (S : Stand) (c : EngCmd) : Bool :=
  match c.body with
  | .attention l => (match attHead S c (AttDesc.ofBytes l) with | .ok h => h.2.2.2.isNone | .error _ => false)
  | .tile .. => c.started
  | _ => false

/-- Cost of the next tile a command offers to the engine arbiter (R190): c_tile of the first that a row sees, and 96 at a command's first tile. -/
def headCost (S : Stand) (c : EngCmd) : Nat :=
  (if c.started then 0 else 96) + (match c.body with
    | .attention l =>
      let a := AttDesc.ofBytes l
      (match attHead S c a with | .ok (_, bs, _, some i) => tileCost a (tileFmt (tileBolts bs i)) | _ => 0)
    | .tile code _ _ _ n => (tilePass code n).2
    | _ => 0)

/-- The commands the engine may choose from: the oldest of each frame, with tiles left, of a kind that is not withheld (R183, R252, R562). -/
def attReady (s : State) (S : Stand) : List EngCmd :=
  (List.range 4).filterMap fun f =>
    match S.att.find? (fun c => c.frame == f), amGet f S.frames with
    | some c, some F => if F.withdrawing || tilesDone S c || withheld s (frameKind s F) then none else some c
    | _, _ => none

/-- Counts the tiles a command skips (R99). -/
def countSkipped (s : State) (st n : Nat) : State := s.wrap (Reg.STD_ATT_SKIPPED_TILES.at 0x10000 st) n

/-- Runs the next tile of an attention command (R97, R99). -/
def runTile (s : State) (st : Nat) (c : EngCmd) (a : AttDesc) : State :=
  let S := s.stand st
  match attHead S c a with
  | .error e => wrongRun s st .att c e
  | .ok (c, l, n, next) =>
      let t := treeOf S c a
      let pos := nodePos a t
      match next with
      | none => s
      | some i =>
        let s := countSkipped s st n
        let bs := tileBolts l i
        let rows := if a.fwd then c.rows.zipIdx.map fun r =>
            rowTile a (queryRow a (S.rd c.frame (a.qAddr + r.2 * a.d * qinBytes a.qin) (a.d * qinBytes a.qin)))
              (bs.zipIdx.map fun b => (b.1, visRows a t pos l (2 * i + b.2) r.2)) r.1
          else c.rows
        setAtt (issueCycles s st (tilePasses a (tileFmt bs))) st { c with tile := i + 1, rows := rows, since := s.now }

/-- The attention commands of withdrawn frames stop at a key-tile boundary, and those frames end whose last command that was (R260). -/
def stopAtTile (s : State) (st : Nat) : State :=
  let S := s.stand st
  let fs := (S.frames.filter fun e => e.2.withdrawing).map (·.1)
  fs.foldl (fun s f => settleFrame s st f) (s.setStand st { S with att := S.att.filter fun c => !fs.contains c.frame })

/-- KERF_POINT (R183, R190): the engine arbiter chooses the next tile among the frames' commands, and it runs; commands of withdrawn frames stop here (R260). -/
def kerfPoint (s : State) (st : Nat) : State :=
  let s := if (s.stand st).frames.any fun e => e.2.withdrawing then stopAtTile s st else s
  let S := s.stand st
  if standFenced s st then s
  else
    let cs := attReady s S
    let os := cs.map fun c => (⟨c.frame, 1, headCost S c, c.since⟩ : Offer)
    match S.arb.select os (max 1 (s.r Reg.SCH_ARB_Q_ENG_Q) * 256) (arbAge s) s.now with
    | none => s
    | some (o, arb, aged) =>
      match cs.find? fun c => c.frame == o.input with
      | none => s
      | some c =>
        let s := s.setStand st { S with arb := arb }
        let s := if aged then s.wrap (Reg.SCH_ARB_AGED_ITEMS.at 4 0) 1 else s
        let s := match c.body with
          | .attention l => runTile s st c (AttDesc.ofBytes l)
          | .tile code _ _ _ n => setAtt (issueCycles s st [tilePass code n]) st { c with started := true, since := s.now }
          | _ => s
        let S := s.stand st
        s.setStand st { S with arb := S.arb.settle ((attReady s S).map (·.frame)) }

def execKerfPoint (st : Nat) (s : State) : Host.Outcome State Fault Refusal := withUnit s (st < 64) (kerfPoint s st)

/-! ### Outputs of a forward command (R111 to R113) -/

/-- The partial bytes of a row (R111). -/
def SRow.partial_ (r : SRow) : List Byte := (r.o.flatMap fun x => leBytes 4 x.toNat) ++ leBytes 4 r.m.toNat ++ leBytes 4 r.l.toNat

/-- The normalized bytes of a row (R112). -/
def SRow.norm (r : SRow) (bf16 : Bool) : List Byte := (PRow.mk r.fv.1 r.fv.2.1 r.fv.2.2).normalize bf16

/-- Whether a row saw no key (R109). -/
def SRow.isEmpty (r : SRow) : Bool := !r.poisoned && r.fv.1 == FV.ninf

/-- Writes a forward command's outputs and counts its rows (R111 to R113). -/
def fwdDone (s : State) (st : Nat) (c : EngCmd) (a : AttDesc) : State :=
  let S := s.stand st
  let w := if a.normalize then a.normRow else a.partRow
  let S := c.rows.zipIdx.foldl (fun S r => S.wr c.frame (a.out + r.2 * w) (if a.normalize then r.1.norm a.bf16Out else r.1.partial_)) S
  let S := if a.saveStats then c.rows.zipIdx.foldl (fun S r => S.wr c.frame (a.stat + 8 * r.2) (leBytes 4 r.1.m.toNat ++ leBytes 4 r.1.l.toNat)) S else S
  let s := s.setStand st S
  let s := s.wrap (Reg.STD_ATT_ROWS_ROWS.at 0x10000 st) a.rows
  let s := if a.normalize then s.cnt (Reg.STD_ATT_EMPTY_ROWS.at 0x10000 st) (c.rows.countP SRow.isEmpty) else s
  s.cnt (Reg.STD_ATT_NAN_ROWS.at 0x10000 st) (c.rows.countP (·.poisoned) - c.preNan)

/-! ### The backward mode (R114, R115) -/

/-- What a row brings to the backward mode: q, dO, m, r = 1/l, D, and whether it is empty or poisons what it touches. -/
structure BRow where
  q : List FV
  dO : List FV
  m : FV
  r : FV
  dd : FV
  empty : Bool
  bad : Bool
  deriving DecidableEq, Repr

/-- D of R114: products rounded, each group of 64 channels summed by the pairwise tree with absent lanes +0, groups added in ascending order. -/
def rowD (dO o : List FV) : FV :=
  let gs := (chunks 64 ((dO.zip o).map fun p => p.1.mulR p.2)).map fun g => FV.treeSum (g ++ List.replicate (64 - g.length) FV.zero)
  match gs with
  | [] => FV.zero
  | g :: l => l.foldl FV.addR g

/-- Row r of a backward command (R114). An empty row contributes nothing whatever its D (DEDUCED, log 44). -/
def backRow (S : Stand) (f : Nat) (kept : AMap Byte) (a : AttDesc) (r : Nat) : BRow :=
  let w := a.d * qinBytes a.qin
  let o := S.rdKept f kept (a.out + r * a.normRow) a.normRow
  let ov := (List.range a.d).map fun i => if a.bf16Out then FV.of16 (leField o (2 * i) 2) else FV.of32 (leField o (4 * i) 4)
  let dO := qinRow a.qin a.d (S.rdKept f kept (a.dO + r * w) w)
  let sm := S.rdKept f kept (a.stat + 8 * r) 8
  let m := FV.of32 (leField sm 0 4)
  let l := FV.of32 (leField sm 4 4)
  let dd := rowD dO ov
  let empty := m == FV.ninf && l.isZero
  ⟨queryRow a (S.rd f (a.qAddr + r * w) w), dO, m, FV.one.divR l, dd, empty, m.isNan || l.isNan || (dd.isNan && !empty)⟩

/-- p and ds of a row over one bolt, in the P operand format: NaN at every visible slot of a row that poisons, +0 throughout for an empty one and at slots that are not visible (R114; log 44). R114 names PFMT for the dq and dv updates; ds enters the dk update in that format too (DESIGN CHOICE, log 147). -/
def backBolt (a : AttDesc) (B : BRow) (b : LBolt) (vis : List Bool) : List FV × List FV :=
  if B.bad then (vis.map fun v => if v then .nan else FV.zero, vis.map fun v => if v then .nan else FV.zero)
  else if B.empty then (vis.map fun _ => FV.zero, vis.map fun _ => FV.zero)
  else
    let t := scores a B.q b vis
    let ps := (t.zip vis).zipIdx.map fun e =>
      if e.1.2 && e.1.1 != FV.ninf then
        let p := (exp2 (e.1.1.subR B.m)).mulR B.r
        let dp := dotAcc FV.zero B.dO (boltRow b.hdr.format a.d b.slot true e.2)
        (p, (FV.of32 a.scale).mulR (p.mulR (dp.subR B.dd)))
      else (FV.zero, FV.zero)
    (pConvert a b.hdr.format (ps.map (·.1)), pConvert a b.hdr.format (ps.map (·.2)))

/-- d FP32 accumulators in the deck. -/
def accAt (S : Stand) (f addr d : Nat) : List FV := (List.range d).map fun i => FV.of32 (leNat (S.rd f (addr + 4 * i) 4))
/-- Their bytes. -/
def accBytes (l : List FV) : List Byte := l.flatMap fun x => leBytes 4 x.to32

/-- Runs a backward command (R114, R115): dq over keys by bolts in list order; dk and dv over rows in blocks of 32. A weight of zero contributes +0 to these sums, against NaN and infinity too, as R108 says of the value pass (DESIGN CHOICE, log 148). -/
def bwdDone (s : State) (st : Nat) (c : EngCmd) (a : AttDesc) (l : List LBolt) : State :=
  let S := s.stand st
  let f := c.frame
  let rows := (List.range a.rows).map (backRow S f c.kept a)
  let pd := rows.zipIdx.map fun r => l.zipIdx.map fun b => backBolt a r.1 b.1 (visRows a [] [] l b.2 r.2)
  let ks := l.map fun b => (List.range 32).map fun p => boltRow b.hdr.format a.d b.slot false p
  let S := (rows.zip pd).zipIdx.foldl (fun S r =>
    let addr := a.dq + 4 * a.d * r.2
    let start := if a.continue_ then accAt S f addr a.d else List.replicate a.d FV.zero
    let out := if r.1.1.bad then List.replicate a.d FV.nan
      else start.zipIdx.map fun x => (r.1.2.zip ks).foldl (fun acc b => acc.addR (weightedSum b.1.2 (b.2.map fun k => k.getD x.2 FV.zero))) x.1
    S.wr f addr (accBytes out)) S
  let S := (List.range l.length).foldl (fun S i =>
    (List.range 32).foldl (fun S p =>
      let ka := a.dkv + i * 64 * a.d * 4 + p * a.d * 4
      let va := ka + 32 * a.d * 4
      let pr := pd.map fun r => (r.getD i ([], []))
      let sum (start : List FV) (wt : List FV × List FV → List FV) (row : BRow → List FV) : List FV :=
        start.zipIdx.map fun x =>
          (chunks 32 (rows.zip pr)).foldl (fun acc blk => acc.addR (weightedSum (blk.map fun e => (wt e.2).getD p FV.zero) (blk.map fun e => (row e.1).getD x.2 FV.zero))) x.1
      let init (addr : Nat) : List FV := if a.dkvInit then List.replicate a.d FV.zero else accAt S f addr a.d
      (S.wr f ka (accBytes (sum (init ka) (·.2) (·.q)))).wr f va (accBytes (sum (init va) (·.1) (·.dO)))) S) S
  (s.setStand st S).wrap (Reg.STD_ATT_ROWS_ROWS.at 0x10000 st) a.rows

/-! ### Tile commands (R242, R279, R280) -/

/-- The window offset of tile tn. -/
def tileAt (depth n : Nat) : Nat := winBytes depth - 0x80000 + 0x4000 * n

/-- The element format of a tmma opcode: 1 BF16, 2 MXFP8, 3 MXFP4 of R61, 4 plain E4M3, 5 plain E5M2. -/
def tmmaFmt (code : Nat) : Nat := if code = 8 then 1 else if code = 9 then 4 else if code = 0xA then 5 else if code = 0xB then 2 else 3

/-- Bytes of a row of k elements, and of a whole operand with its scales. -/
def tmmaRow (fmt k : Nat) : Nat := if fmt = 1 then 2 * k else if fmt = 3 then k / 2 else k
def tmmaBytes (fmt k : Nat) : Nat := 64 * tmmaRow fmt k + (if fmt = 2 ∨ fmt = 3 then 64 * (k / 32) else 0)

/-- Row i of a tmma operand as values. -/
def tmmaVals (fmt k : Nat) (l : List Byte) (i : Nat) : List FV :=
  let row := (l.drop (i * tmmaRow fmt k)).take (tmmaRow fmt k)
  (List.range k).map fun c =>
    if fmt = 1 then FV.of16 (leField row (2 * c) 2)
    else if fmt = 4 then FV.ofE4 (leField row c 1)
    else if fmt = 5 then FV.ofE5 (leField row c 1)
    else mxVal (fmt == 3) (leField l (64 * tmmaRow fmt k + i * (k / 32) + c / 32) 1) (elemAt fmt row c)

/-- The deck ranges of a tile command (R280). -/
def tileRanges (depth code td a b k : Nat) : List (Nat × Nat) :=
  if code = 4 then [(tileAt depth td, 0x4000)]
  else if code = 0x10 then [(tileAt depth td, 0x4000), (a, 8192)]
  else [(tileAt depth td, 0x4000), (a, tmmaBytes (tmmaFmt code) k), (b, tmmaBytes (tmmaFmt code) k)]

/-- Performs a tile command (R279, R280); a tmma's operands are read as they stood at its issue (R250). -/
def tileDone (S : Stand) (f : Nat) (kept : AMap Byte) (code td a b k : Nat) : Stand :=
  let ta := tileAt S.depth td
  if code = 4 then S.wr f ta (leBytes 0x4000 0)
  else if code = 0x10 then
    let t := S.rd f ta 0x4000
    S.wr f a ((List.range 4096).flatMap fun i => leBytes 2 (FV.of32 (leField t (4 * i) 4)).to16)
  else
    let fmt := tmmaFmt code
    let la := S.rdKept f kept a (tmmaBytes fmt k)
    let lb := S.rdKept f kept b (tmmaBytes fmt k)
    let t := S.rd f ta 0x4000
    let bs := (List.range 64).map (tmmaVals fmt k lb)
    S.wr f ta ((List.range 64).flatMap fun i =>
      let ai := tmmaVals fmt k la i
      bs.zipIdx.flatMap fun bj => leBytes 4 (dotAcc (FV.of32 (leField t (4 * (64 * i + bj.2)) 4)) ai bj.1).to32)

/-- Issues a tile command (R243, R278, R280): a range past the window is refused with ATT_ADDR, one in a reserved range faults the program. -/
def tileIssue (st code : Nat) (td a b k : Frame → Nat → Nat) : State → Nat → Frame → Nat → SlotEnd := fun s f F w =>
  let S := s.stand st
  engIssue s st f F .att (aT w) (rangesEnd S.depth Detail.ATT_ADDR (tileRanges S.depth code (td F w) (a F w) (b F w) (k F w))) (.tile code (td F w) (a F w) (b F w) (k F w))

def opTD (_ : Frame) (w : Nat) : Nat := aTD w
def opAA (F : Frame) (w : Nat) : Nat := (F.a (aAA w)).toNat
def opAB (F : Frame) (w : Nat) : Nat := (F.a (aAB w)).toNat
/-- The depth of a tmma (R279). -/
def opK (_ : Frame) (w : Nat) : Nat := 32 * (aKC w + 1)
def opZ (_ : Frame) (_ : Nat) : Nat := 0

/-- TZERO (R280). -/
def execTzero (st : Nat) (s : State) : Host.Outcome State Fault Refusal := runAct st slotA 4 s (tileIssue st 4 opTD opZ opZ opZ)
/-- TMMA_BF16 (R279). -/
def execTmmaBf16 (st : Nat) (s : State) : Host.Outcome State Fault Refusal := runAct st slotA 8 s (tileIssue st 8 opTD opAA opAB opK)
/-- TMMA_E4M3 (R279). -/
def execTmmaE4m3 (st : Nat) (s : State) : Host.Outcome State Fault Refusal := runAct st slotA 9 s (tileIssue st 9 opTD opAA opAB opK)
/-- TMMA_E5M2 (R279). -/
def execTmmaE5m2 (st : Nat) (s : State) : Host.Outcome State Fault Refusal := runAct st slotA 0xA s (tileIssue st 0xA opTD opAA opAB opK)
/-- TMMA_MX8 (R279). -/
def execTmmaMx8 (st : Nat) (s : State) : Host.Outcome State Fault Refusal := runAct st slotA 0xB s (tileIssue st 0xB opTD opAA opAB opK)
/-- TMMA_MX4 (R279). -/
def execTmmaMx4 (st : Nat) (s : State) : Host.Outcome State Fault Refusal := runAct st slotA 0xC s (tileIssue st 0xC opTD opAA opAB opK)
/-- TPACK_BF16 (R280): the tile is the AP format's TS, the address its AD. -/
def execTpackBf16 (st : Nat) (s : State) : Host.Outcome State Fault Refusal := runAct st slotA 0x10 s (tileIssue st 0x10 opTD opAA opZ opZ)

/-! ### Completion -/

/-- ATT_COMMAND_DONE (R94, R111, R252): the oldest attention or tile command of a frame, all its tiles run, writes its outputs and completes. -/
def attDone (s : State) (st f : Nat) : State :=
  let S := s.stand st
  match S.att.find? fun c => c.frame == f with
  | none => s
  | some c =>
    match c.body with
    | .attention l =>
      let a := AttDesc.ofBytes l
      (match attHead S c a with
       | .ok (c, bs, n, none) =>
         let s := countSkipped s st n
         finishCmd (if a.fwd then fwdDone s st c a else bwdDone s st c a bs) st f .att c.ticket 0 0
       | _ => s)
    | .tile code td ta tb n => if c.started then finishCmd (s.setStand st (tileDone S f c.kept code td ta tb n)) st f .att c.ticket 0 0 else s
    | _ => s

def execAttCommandDone (st frame : Nat) (s : State) : Host.Outcome State Fault Refusal := withUnit s (st < 64) (attDone s st frame)

/-- ATT_ERROR_CLEAR (R94): writing 1 to STD_ATT_STATUS.ERROR clears it and reopens the queue. -/
def attErrorClear (s : State) (st v : Nat) : State :=
  if bit v 31 then
    ((s.setStand st { s.stand st with attErr := false }).setR (Reg.STD_ATT_STATUS_ERROR.at 0x10000 st) 0).setR (Reg.STD_ATT_STATUS_DETAIL.at 0x10000 st) 0
  else s

def execAttErrorClear (stand v : Nat) (s : State) : Host.Outcome State Fault Refusal := withUnit s (stand < 64) (attErrorClear s stand v)

end Sys2Proof.Machine
end

