-- ==== Sys2Proof/Machine/Frame.lean ====
section
/-! DEFINITION. Celwald packets and the frames that carry them (R288 to R296, R311, R527 to R530, R536, R537). -/

namespace Sys2Proof.Machine

/-! ### Opcodes and the header -/

/-! The opcodes of R292. -/
namespace Cw
def send : Nat := 0x01
def write : Nat := 0x02
def readReq : Nat := 0x03
def readResp : Nat := 0x04
def atomic : Nat := 0x05
def atomicResp : Nat := 0x06
def reduce : Nat := 0x07
def mcast : Nat := 0x08
def ack : Nat := 0x10
def nak : Nat := 0x11
def creditReq : Nat := 0x12
end Cw

/-- Whether an opcode consumes credit (R292). -/
def cwCredited (op : Nat) : Bool := op == 1 || op == 2 || op == 3 || op == 5 || op == 7 || op == 8

/-- Credit units of a packet (R294). -/
def cwUnits (op len : Nat) : Nat := if cwCredited op then 1 + (len + 511) / 512 else 0

/-- The largest payload (R288). -/
def cwMax : Nat := 8704

/-- The 32-byte header of R292. -/
def pkHeader (p : Packet) (op : Nat) : List Byte :=
  leBytes 1 1 ++ leBytes 1 op ++ leBytes 1 p.flags ++ leBytes 1 (p.ext.length / 8) ++ leBytes 2 p.srcNode ++ leBytes 2 p.dstNode
  ++ leBytes 4 p.dstQp ++ leBytes 4 p.srcQp ++ leBytes 4 p.psn ++ leBytes 4 p.ackPsn ++ leBytes 2 p.epoch ++ leBytes 2 p.payload.length
  ++ leBytes 4 p.msg

def pkFirst (p : Packet) : Bool := bit p.flags 0
def pkLast (p : Packet) : Bool := bit p.flags 1
def pkAckReq (p : Packet) : Bool := bit p.flags 2
def pkAckv (p : Packet) : Bool := bit p.flags 4
def pkSealed (p : Packet) : Bool := bit p.flags 5
def pkAttempt (p : Packet) : Nat := p.msg % 256
/-- The message sequence number of MSG. -/
def pkMseq (p : Packet) : Nat := p.msg / 256

/-- The additional data of a sealed packet: header and extension (R293). -/
def pkAad (p : Packet) (op : Nat) : List Byte := pkHeader p op ++ p.ext

/-- The 12-byte nonce of R467. -/
def cwNonce (srcNode srcQp psn attempt op : Nat) : List Byte :=
  leBytes 2 srcNode ++ leBytes 4 srcQp ++ leBytes 4 psn ++ leBytes 1 attempt
  ++ leBytes 1 (if op = Cw.readResp ∨ op = Cw.atomicResp then 1 else 0)

/-- The Celwald part of a packet: header, extension, payload, tag when sealed, and the CRC-32C trailer (R288, R295). -/
def pkBody (p : Packet) (op : Nat) : List Byte :=
  let b := pkHeader p op ++ p.ext ++ p.payload ++ (if pkSealed p then fit 16 p.tag else [])
  b ++ leBytes 4 (crc32c b)

/-! ### The node table (R296) -/

/-- A node-table entry. -/
structure NodeEnt where
  ip : List Byte
  mac : List Byte
  mask : Nat
  flags : Nat
  tci : Nat
  deriving DecidableEq, Repr

def NodeEnt.valid (e : NodeEnt) : Bool := bit e.flags 0
def NodeEnt.v4 (e : NodeEnt) : Bool := bit e.flags 1
def NodeEnt.vlan (e : NodeEnt) : Bool := bit e.flags 2

/-- The entry of a node. -/
def nodeEnt (s : State) (n : Nat) : NodeEnt :=
  let l := s.rd (s.r Reg.CWT_NODE_TBL_BASE_BASE * 4096 + 32 * n) 32
  { ip := l.take 16, mac := (l.drop 16).take 6, mask := leField l 0x16 1, flags := leField l 0x17 1, tci := leField l 0x18 2 }

/-! ### Ports and paths (R311, R527 to R530) -/

/-- The sub-ports of a port under its breakout (R527). -/
def subPorts (s : State) (p : Nat) : Nat := 2 ^ s.r (Reg.CWT_PORT_CFG_BREAKOUT.at 0x100 p)

/-- The enabled sub-ports of a port that are up (R529), in ascending order. -/
def subsUp (s : State) (p : Nat) : List Nat :=
  (List.range (subPorts s p)).filter fun k =>
    bit (s.r (Reg.CWT_PORT_STATUS_UP.at 0x100 p)) k && bit (s.r (Reg.CWT_PORT_CFG_SUB_EN.at 0x100 p)) k

/-- Whether a port is up (R529): in use, not taken down under R443, and with a sub-port up. -/
def portUp (s : State) (p : Nat) : Bool :=
  s.r (Reg.CWT_PORT_CFG_ENABLE.at 0x100 p) == 1 && s.r (Reg.MGT_LANE_STATE_DOWN.at 4 p) == 0 && !(subsUp s p).isEmpty

/-- The ports of a mask that are up, in ascending order (R311). -/
def portsUp (s : State) (mask : Nat) : List Nat := (List.range 8).filter fun p => bit mask p && portUp s p

/-- The port and sub-port of a path to a node (R311, R530), or none where no port of the mask is up. -/
def pathPort (s : State) (e : NodeEnt) (path : Nat) : Option (Nat × Nat) :=
  let l := portsUp s e.mask
  match l[path % l.length]? with
  | none => none
  | some p =>
    let u := subsUp s p
    some (p, u.getD (path / l.length % u.length) 0)

/-- Whether a path index to a node is held (R311). -/
def pathHeld (s : State) (n path : Nat) : Bool :=
  match amGet (32 * n + path) s.cwt.holds with
  | some t => decide (s.now < t)
  | none => false

/-- The first path index from `p` on, modulo 32, that is not held; `p` itself where all are (R311). -/
def freePath (s : State) (n p : Nat) : Nat :=
  ((List.range 32).map fun i => (p + i) % 32).find? (fun q => !pathHeld s n q) |>.getD (p % 32)

/-- If all 32 paths to a node are held, every hold is cleared (R311). -/
def clearHolds (s : State) (n : Nat) : State :=
  if (List.range 32).all (pathHeld s n) then
    { s with cwt := { s.cwt with holds := amFilter (fun k _ => k / 32 != n) s.cwt.holds } }
  else s

/-- The path that node n's next new packet takes (R311). -/
def rotorPath (s : State) (n : Nat) : Nat := freePath s n (amGetD n 0 s.cwt.rotor)

/-! ### Frames (R288, R289) -/

/-- A big-endian field of network headers (R6). -/
def beBytes (n x : Nat) : List Byte := (leBytes n x).reverse

/-- The value of a big-endian field. -/
def beField (l : List Byte) (o n : Nat) : Nat := leNat ((l.drop o).take n).reverse

/-- The Ethernet FCS: CRC-32 of IEEE 802.3, sent least significant byte first. -/
def fcs32 (l : List Byte) : Nat := ((l.foldl (crcByte 0xEDB88320#32) 0xFFFFFFFF#32) ^^^ 0xFFFFFFFF#32).toNat

/-- The sum of a list's 16-bit big-endian words, an odd last byte padded with zero. -/
def sum16 : List Byte → Nat
  | [] => 0
  | [b] => 256 * b.toNat
  | b :: c :: l => 256 * b.toNat + c.toNat + sum16 l

/-- The one's complement checksum of IP and UDP headers. -/
def inetSum (l : List Byte) : Nat :=
  let fold (x : Nat) : Nat := x % 65536 + x / 65536
  65535 - fold (fold (fold (sum16 l)))

/-- The pseudo-header of a UDP or ICMPv6 checksum. -/
def pseudo (v4 : Bool) (src dst : List Byte) (proto len : Nat) : List Byte :=
  if v4 then src.drop 12 ++ dst.drop 12 ++ [0] ++ beBytes 1 proto ++ beBytes 2 len
  else src ++ dst ++ beBytes 4 len ++ beBytes 3 0 ++ beBytes 1 proto

/-- A UDP datagram with its checksum computed; a sum of zero is sent as all ones. -/
def udpBytes (v4 : Bool) (src dst : List Byte) (sport dport : Nat) (b : List Byte) : List Byte :=
  let len := 8 + b.length
  let h := beBytes 2 sport ++ beBytes 2 dport ++ beBytes 2 len
  let c := inetSum (pseudo v4 src dst 17 len ++ h ++ beBytes 2 0 ++ b)
  h ++ beBytes 2 (if c = 0 then 65535 else c) ++ b

/-- The IP packet around an upper-layer packet (R289): traffic class DSCP and ECT(0), flow label 0, hop limit 64, DF set, no options. -/
def ipBytes (v4 : Bool) (src dst : List Byte) (dscp proto : Nat) (b : List Byte) : List Byte :=
  let tc := 4 * dscp + 2
  if v4 then
    let h := beBytes 1 0x45 ++ beBytes 1 tc ++ beBytes 2 (20 + b.length) ++ beBytes 2 0 ++ beBytes 2 0x4000 ++ beBytes 1 64 ++ beBytes 1 proto
    let addrs := src.drop 12 ++ dst.drop 12
    h ++ beBytes 2 (inetSum (h ++ beBytes 2 0 ++ addrs)) ++ addrs ++ b
  else
    beBytes 4 (6 * 2 ^ 28 + tc * 2 ^ 20) ++ beBytes 2 b.length ++ beBytes 1 proto ++ beBytes 1 64 ++ src ++ dst ++ b

/-- The MAC address of a sub-port (R528): CWT_PORT_MAC plus its number. -/
def subMac (s : State) (p k : Nat) : List Byte := beBytes 6 (s.r (Reg.CWT_PORT_MAC_MAC.at 0x100 p) + k)

/-- An SA slot of a port (R537). -/
def saSlot (s : State) (p n : Nat) : SaSlot := (amGet (2 * p + n) s.cwt.sas).getD SaSlot.empty
def setSa (s : State) (p n : Nat) (a : SaSlot) : State := { s with cwt := { s.cwt with sas := amSet (2 * p + n) a s.cwt.sas } }

/-- The GCM-AES-XPN-256 nonce: SSCI and 64-bit PN under the salt. -/
def xpnNonce (a : SaSlot) (ssci : List Byte) (pn : Nat) : List Byte :=
  let x := ssci ++ beBytes 8 pn
  ((a.bytes.drop 32).take 12).zip x |>.map fun e => e.1 ^^^ e.2

/-- A frame from its addresses to the byte before its FCS, with MACsec where the port has it (R536): SecTAG of AN, PN and SCI, everything after it encrypted, ICV behind; the transmit PN advances. -/
def macsecOut (s : State) (p k : Nat) (dst src rest : List Byte) : List Byte × State :=
  if s.r (Reg.CWT_PORT_CFG_MACSEC.at 0x100 p) = 0 then (dst ++ src ++ rest, s)
  else
    let an := s.r (Reg.CWT_PORT_MACSEC_TX_AN.at 0x100 p)
    let a := saSlot s p an
    let tci := beBytes 1 (0x2C + an) ++ beBytes 1 (if rest.length < 48 then rest.length else 0) ++ beBytes 4 (a.txPn % 2 ^ 32)
    let sec := beBytes 2 0x88E5 ++ tci ++ subMac s p k ++ beBytes 2 1
    let nonce := xpnNonce a ((a.bytes.drop 44).take 4) a.txPn
    let aad := dst ++ src ++ sec
    let ct := fit rest.length (gcmSeal (a.bytes.take 32) nonce rest)
    (aad ++ ct ++ fit 16 (gcmTag (a.bytes.take 32) nonce aad ct), setSa s p an { a with txPn := a.txPn + 1 })

/-- Sends a frame on a sub-port, with its FCS. -/
def sendFrame (s : State) (p k : Nat) (dst rest : List Byte) : State :=
  let r := macsecOut s p k dst (subMac s p k) rest
  r.2.emit (.frame p k (r.1 ++ leBytes 4 (fcs32 r.1)))

/-- Bytes of the Ethernet frame of a Celwald packet, FCS included and MACsec not (R369): header with its tag, IP, UDP, Celwald and trailer. -/
def frameLen (e : NodeEnt) (ext payload : Nat) (sealed_ : Bool) : Nat :=
  14 + (if e.vlan then 4 else 0) + (if e.v4 then 20 else 40) + 8 + 32 + ext + payload + (if sealed_ then 16 else 0) + 4 + 4

/-- Sends a Celwald packet to a node on a path (R289, R311, R530); it leaves only where a port of the node is up. -/
def sendPacket (s : State) (op dscp path : Nat) (p : Packet) : State :=
  let e := nodeEnt s p.dstNode
  let me := nodeEnt s p.srcNode
  match pathPort s e path with
  | none => s
  | some (port, k) =>
    let udp := udpBytes e.v4 me.ip e.ip (s.r Reg.CWT_CFG_SPORT_BASE * 32 + path) (s.r Reg.CWT_CFG_UDP_PORT) (pkBody p op)
    let ip := ipBytes e.v4 me.ip e.ip dscp 17 udp
    let tag := if e.vlan then beBytes 2 0x8100 ++ beBytes 2 e.tci else []
    sendFrame s port k e.mac (tag ++ beBytes 2 (if e.v4 then 0x0800 else 0x86DD) ++ ip)

end Sys2Proof.Machine
end

