-- ==== Sys2Proof/Machine/Region.lean ====
section
/-! DEFINITION. Registered regions (spec/13): REGION_REG and REGION_DEREG (R330 to R333), the checks of R334, snags (R359), write leases (R355 to R358), publication (R361 to R363), hot lines (R352 to R354), and the arithmetic of atomics and reductions (R339, R347). -/

namespace Sys2Proof.Machine

/-! ### Regions (R330 to R333) -/

/-- CWT_REGION_COUNT: larger values act as 1,048,576. -/
def regionCount (s : State) : Nat := min 1048576 (s.r Reg.CWT_REGION_COUNT_COUNT)

/-- CWT_FALLOW.FALLOW_US: below 4,000 acts as 4,000. -/
def cwtFallowUs (s : State) : Nat := max 4000 (s.r Reg.CWT_FALLOW_FALLOW_US)

/-- CWT_TIMER2.GIVEUP_US in ns: below 1,000 µs acts as 1,000 µs. -/
def giveUpNs (s : State) : Nat := max 1000 (s.r Reg.CWT_TIMER2_GIVEUP_US) * 1000

/-- The 128-byte table entry of a region in a state: 0 FREE, 1 LIVE, 2 CLOSING (R331). -/
def regionImage (r : Region) (st : Nat) : List Byte :=
  let b := leBytes 4 r.key ++ leBytes 1 st ++ leBytes 1 r.access ++ leBytes 1 r.kind ++ leBytes 1 0
    ++ leBytes 8 r.base ++ leBytes 8 r.length ++ leBytes 4 r.tenant ++ leBytes 2 r.fn ++ leBytes 2 0 ++ leBytes 8 r.snagAddr
    ++ leBytes 4 r.dirKey ++ leBytes 4 r.dirIndex ++ leBytes 8 r.userTag ++ leBytes 64 0
  b ++ leBytes 8 (crc64 b)

def regionTblAddr (s : State) (i : Nat) : Nat := s.r Reg.CWT_REGION_BASE_BASE * 4096 + 128 * i

/-- Writes a region and its table entry. -/
def setRegion (s : State) (i : Nat) (r : Region) : State :=
  putBytes { s with rm := { s.rm with regions := amSet i r s.rm.regions } } (regionTblAddr s i) (regionImage r (if r.closing then 2 else 1))

/-- The region that a table entry's bytes hold, with its index; none in a free one. -/
def regionOfImage (b : List Byte) : Option (Nat × Region) :=
  let key := leField b 0 4
  if key = 0 ∨ leField b 4 1 = 0 then none
  else
    some (key % 2 ^ 24,
      { key := key, closing := leField b 4 1 == 2, closedAt := 0, access := leField b 5 1, kind := leField b 6 1, base := leField b 8 8,
        length := leField b 0x10 8, tenant := leField b 0x18 4, fn := leField b 0x1C 2, snagAddr := leField b 0x20 8,
        dirKey := leField b 0x28 4, dirIndex := leField b 0x2C 4, userTag := leField b 0x30 8, openWrs := [], dereg := [] })

/-- A command that unbuilt, locked or repaired units hold up starts again later (R385, R388). -/
def holdCmd (s : State) (us : List Nat) (o : Nat) (c : Cmd) : State × Option Done := (unstartCmd (holdWork s us (.command o c)) o c, none)

/-- Why a write of `n` bytes by this node itself cannot be made: its units are lost (R389), or its memory is out of reach (R396, R445). -/
def writeStop (s : State) (a n : Nat) : Option Nat := if n = 0 then none else if doubleLost s a n then some Detail.CP_DOUBLE else memTrouble s a n

/-- Bits of ACCESS (R331). -/
def Region.can (r : Region) (n : Nat) : Bool := bit r.access n

/-- The entry that a REGION_REG descriptor gives, as function `fn` registers it under a key. -/
def regionOf (d : List Byte) (key fn : Nat) : Region :=
  { key := key, closing := false, closedAt := 0, access := leField d 5 1, kind := leField d 6 1, base := leField d 8 8,
    length := leField d 0x10 8, tenant := leField d 0x18 4 % 2 ^ 20, fn := fn, snagAddr := leField d 0x20 8,
    dirKey := leField d 0x28 4, dirIndex := leField d 0x2C 4, userTag := leField d 0x30 8, openWrs := [], dereg := [] }

/-- The conditions that refuse a REGION_REG descriptor at step 8 of R508 (R331). -/
def regionBad (_ : State) (d : List Byte) : Bool :=
  let base := leField d 8 8
  let len := leField d 0x10 8
  leField d 0 4 != 0 || leField d 4 1 != 0 || leField d 0x78 8 != 0 || leField d 7 1 != 0 || decide (2 ^ 20 ≤ leField d 0x18 4)
  || leField d 0x1E 2 != 0 || !allZero ((d.drop 0x38).take 64) || decide (2 < leField d 6 1)
  || decide (base % 64 ≠ 0) || !(xaSpace base == 0 || xaSpace base == 1 || xaSpace base == 3)
  || decide (len % 64 ≠ 0) || decide (len < 64) || decide (2 ^ 48 < len)
  || (bit (leField d 5 1) 5 != (leField d 0x20 8 != 0))
  || (leField d 0x28 4 == 0 && leField d 0x2C 4 != 0)

/-- Whether a region would put something outside the protected space that R380 wants in it (R380; log 45): its snag map, its table entry, or the request records that CLAIM_ONLY marks. -/
def regionUnprotected (s : State) (i : Nat) (r : Region) : Bool :=
  dataMember s && (!inProt s (regionTblAddr s i) 128 || (r.can 5 && !inProt s r.snagAddr ((r.length / 64 + 7) / 8)) || (r.can 6 && !inProt s r.base r.length))

/-- REGION_REG (R331, R332, R380, R423). -/
def regionRegBody (c : Cmd) : Body := fun s d =>
  let r := regionOf d 0 c.fn
  if s.changing then fail s .conflict Detail.ROLE_BUSY
  else if c.fn ≠ 0 ∧ (r.kind ≠ 0 ∨ xaSpace r.base ≠ 3 ∨ r.can 5) then fail s .fenced Detail.MEM_ACCESS
  else
    match s.rm.ids.alloc (regionCount s) s.now with
    | none => fail s .noCredit 0
    | some (i, p) =>
      let map := if r.can 5 then (r.length / 64 + 7) / 8 else 0
      if regionUnprotected s i r then fail s .fenced Detail.CP_UNPROTECTED
      else
        match (writeStop s (regionTblAddr s i) 128).orElse fun _ => writeStop s r.snagAddr map with
        | some dt => fail s .fenced dt
        | none =>
          let us := blockedUnits s (regionTblAddr s i) 128 true ++ (if map = 0 then [] else blockedUnits s r.snagAddr map true)
          if !us.isEmpty then holdCmd s us Op.REGION_REG c
          else
            let key := p.ringOf i * 2 ^ 24 + i
            let s := unhold s (.command Op.REGION_REG c)
            let t := setRegion { s with rm := { s.rm with ids := p } } i { r with key := key }
            okWhenAcked s (if r.can 5 then putZeros t r.snagAddr map else t) Op.REGION_REG c key

def execRegionReg (c : Cmd) (s : State) : Host.Outcome State Fault Refusal := runCommand s Op.REGION_REG c regionBad (regionRegBody c)

/-- The region that a key names: live or closing, with its index (R330). -/
def regionAt (s : State) (key : Nat) : Option (Nat × Region) :=
  let i := key % 2 ^ 24
  if regionCount s ≤ i then none
  else
    match amGet i s.rm.regions with
    | some r => if r.key = key then some (i, r) else none
    | none => none

/-- A closing region becomes free (R333): its ring count advances, its index goes into fallow, its leases end, and every REGION_DEREG that waits for it completes once the deltas of its table entry have been acknowledged (R383). -/
def freeRegion (s : State) (i : Nat) (r : Region) : State :=
  let ls := s.rm.leases.filter fun e => e.2.region == i
  let ids := ls.foldl (fun p e => p.release e.1 s.now (cwtFallowUs s)) s.rm.leaseIds
  let old := s
  let s := { s with rm := { s.rm with
      regions := amErase i s.rm.regions, ids := s.rm.ids.release i s.now (cwtFallowUs s),
      leases := amFilter (fun _ l => l.region != i) s.rm.leases, leaseIds := ids, hotBad := s.rm.hotBad.filter (· ≠ i) } }
  let s := putBytes s (regionTblAddr s i) (regionImage r 0)
  let ds := newDeltas old s
  r.dereg.foldl (fun s c => if ds.isEmpty then completeCmd s Op.REGION_DEREG c Done.ok else waitDeltas s ds (.command Op.REGION_DEREG c 0)) s

/-- Whether a closing region may become free (R333). -/
def regionDone (s : State) (r : Region) : Bool := r.closing && (r.openWrs.isEmpty || decide (r.closedAt + giveUpNs s ≤ s.now))

/-- REGION_FREED (R333): the last work request begun in the region has ended, or the give-up time has passed; its table entry waits for units that hold it up. -/
def regionFreed (s : State) (i : Nat) : State :=
  match amGet i s.rm.regions with
  | some r =>
    if !regionDone s r then s
    else
      let us := blockedUnits s (regionTblAddr s i) 128 true
      if us.isEmpty ∨ (writeStop s (regionTblAddr s i) 128).isSome then freeRegion (unhold s (.regionFree i)) i r else holdWork s us (.regionFree i)
  | none => unhold s (.regionFree i)

def execRegionFreed (index : Nat) (s : State) : Host.Outcome State Fault Refusal := nextOf s (regionFreed s index)

/-- REGION_DEREG (R333). -/
def regionDeregBody (c : Cmd) : Body := fun s _ =>
  match regionAt s c.arg0 with
  | none => fail s .stale Detail.MEM_KEY
  | some (i, r) =>
    if c.fn ≠ 0 ∧ r.fn ≠ c.fn then fail s .fenced Detail.MEM_ACCESS
    else if r.closing then ({ s with rm := { s.rm with regions := amSet i { r with dereg := r.dereg ++ [c] } s.rm.regions } }, none)
    else
      match writeStop s (regionTblAddr s i) 128 with
      | some dt => fail s .fenced dt
      | none =>
        let us := blockedUnits s (regionTblAddr s i) 128 true
        if !us.isEmpty then holdCmd s us Op.REGION_DEREG c
        else
          let r := { r with closing := true, closedAt := s.now, dereg := [c] }
          (regionFreed (setRegion (unhold s (.command Op.REGION_DEREG c)) i r) i, none)

def execRegionDereg (c : Cmd) (s : State) : Host.Outcome State Fault Refusal := runPlain s Op.REGION_DEREG c (regionDeregBody c)

/-! ### Snags (R358 to R360) -/

/-- Whether a line of a region is a snag. -/
def snagged (s : State) (r : Region) (line : Nat) : Bool :=
  r.snagAddr != 0 && bit (memRead s.mem (r.snagAddr + line / 8)).toNat (line % 8)

/-- Sets or clears a line's snag bit; the map is written like any protected bytes (R383). -/
def setSnag (s : State) (r : Region) (line : Nat) (on : Bool) : State × List Nat :=
  let b := (memRead s.mem (r.snagAddr + line / 8)).toNat
  let m := 2 ^ (line % 8)
  let v := if on then b ||| m else if bit b (line % 8) then b - m else b
  protWrite s (r.snagAddr + line / 8) (leBytes 1 v)

/-- The lines that `n` bytes from offset `o` touch. -/
def linesOf (o n : Nat) : List Nat := if n = 0 then [] else (List.range ((o + n - 1) / 64 - o / 64 + 1)).map (· + o / 64)

/-- Whether `n` bytes from offset `o` cover all 64 bytes of a line. -/
def coversLine (o n line : Nat) : Bool := decide (o ≤ 64 * line) && decide (64 * line + 64 ≤ o + n)

/-! ### Leases (R355 to R358) -/

/-- The lease that an ID names, if it is live. -/
def leaseAt (s : State) (id : Nat) : Option (Nat × Lease) :=
  match amGet (id % 2 ^ 24) s.rm.leases with
  | some l => if l.id = id then some (id % 2 ^ 24, l) else none
  | none => none

/-- The live lease that covers a line of a region. -/
def leaseOn (s : State) (reg line : Nat) : Option Lease :=
  (s.rm.leases.find? fun e => e.2.region == reg && decide (e.2.line ≤ line) && decide (line < e.2.line + e.2.count)).map (·.2)

/-- The lease check of R356 for an operation other than READ_REQ on some lines: `lease` is the LEASE field of a WRITE. -/
def leaseCheck (s : State) (reg src : Nat) (lease : Option Nat) (lines : List Nat) : Option (Status × Nat) :=
  let named := match lease with
    | some id => id != 0 && (leaseAt s id).isNone
    | none => false
  if named then some (.stale, Detail.MEM_LEASE)
  else if lines.any (fun x => match leaseOn s reg x with
      | some l => l.lessee != src || (match lease with | some id => id != l.id | none => false)
      | none => false) then some (.conflict, Detail.MEM_LEASED)
  else none

/-- Ends a lease without snags (R357). -/
def dropLease (s : State) (i : Nat) : State :=
  { s with rm := { s.rm with leases := amErase i s.rm.leases, leaseIds := s.rm.leaseIds.release i s.now (cwtFallowUs s) } }

/-- The bytes of the snag map that hold a lease's lines. -/
def leaseSnags (s : State) (l : Lease) : Nat × Nat :=
  match amGet l.region s.rm.regions with
  | some r => (r.snagAddr + l.line / 8, (l.line + l.count - 1) / 8 - l.line / 8 + 1)
  | none => (0, 0)

/-- The units that hold up the snags of a lease (R385, R388). -/
def leaseBlocked (s : State) (l : Lease) : List Nat := let e := leaseSnags s l; if e.2 = 0 then [] else blockedUnits s e.1 e.2 true

/-- Ends a lease and snags every line it covered (R358). -/
def snagLease (s : State) (i : Nat) (l : Lease) : State :=
  match amGet l.region s.rm.regions with
  | none => dropLease s i
  | some r =>
    let s := (List.range l.count).foldl (fun s k => (setSnag s r (l.line + k) true).1) s
    setEvent (dropLease s i) Reg.CWT_MEM_EVENT_SNAGGED 1

/-- CWT_LEASE_CFG.TERM_MS in ns: below 10 ms acts as 10 ms. -/
def leaseTermNs (s : State) : Nat := max 10 (s.r Reg.CWT_LEASE_CFG_TERM_MS) * 1000000

/-- LEASE_TERM_EXPIRY (R358): a lease not renewed within its term ends, and its lines are snagged; units that hold its snag bits up are waited for (R385, R388). -/
def leaseTermExpiry (s : State) (i : Nat) : State :=
  match amGet i s.rm.leases with
  | some l =>
    if s.now < l.since + leaseTermNs s then s
    else
      let us := leaseBlocked s l
      if us.isEmpty then snagLease (unhold s (.snag i)) i l else holdWork s us (.snag i)
  | none => unhold s (.snag i)

def execLeaseTermExpiry (index : Nat) (s : State) : Host.Outcome State Fault Refusal := nextOf s (leaseTermExpiry s index)

/-- LEASE_BREAK (R358): every lease of a node ends at once and its lines are snagged. -/
def leaseBreakBody (c : Cmd) : Body := fun s _ =>
  let ls := s.rm.leases.filter fun e => e.2.lessee == c.arg0
  let us := ls.flatMap fun e => leaseBlocked s e.2
  if !us.isEmpty then holdCmd s us Op.LEASE_BREAK c
  else
    let s := unhold s (.command Op.LEASE_BREAK c)
    okWhenAcked s (ls.foldl (fun s e => snagLease s e.1 e.2) s) Op.LEASE_BREAK c 0

def execLeaseBreak (c : Cmd) (s : State) : Host.Outcome State Fault Refusal := runPlain s Op.LEASE_BREAK c (leaseBreakBody c)

/-! ### Hot lines (R352 to R354) -/

/-- An operation on a line of the table: it stays hot. -/
def hotKeep (s : State) (line : Nat) : State := { s with rm := { s.rm with hot := amMod line (fun h => { h with at_ := s.now }) s.rm.hot } }

/-- Counts an operation on a line (by its extended address / 64); at THRESH within a window of 1 µs the line becomes hot and is loaded, or, with the table full, is counted. Lines of the protected space never do (R383). The counter a line falls on is a hash the spec leaves open. -/
def hotTouch (s : State) (line : Nat) : State :=
  if amHas line s.rm.hot then hotKeep s line
  else if s.r Reg.CWT_HOT_CFG_ENABLE = 0 ∨ (protOff s (64 * line)).isSome then s
  else
    let w := s.now / 1000
    let counts := if s.rm.hotWindow = w then s.rm.hotCount else []
    let k := Config.hotHash line % 1024
    let n := amGetD k 0 counts + 1
    let t := max 1 (s.r Reg.CWT_HOT_CFG_THRESH)
    let s := { s with rm := { s.rm with hotWindow := w, hotCount := amSet k n counts } }
    if n < t then s
    else if 4096 ≤ s.rm.hot.length then (if n = t then s.cnt Reg.CWT_HOT_STATUS_FULL 1 else s)
    else
      let s := { s with rm := { s.rm with hot := amSet line ⟨s.now, s.rd (64 * line) 64⟩ s.rm.hot } }
      s.setR Reg.CWT_HOT_STATUS_LINES s.rm.hot.length

/-- HOT_LINE_COOL (R352): a line with no operation for COOL_US leaves the table. -/
def hotLineCool (s : State) (line : Nat) : State :=
  match amGet line s.rm.hot with
  | some h => if h.at_ + max 1 (s.r Reg.CWT_HOT_CFG_COOL_US) * 1000 ≤ s.now then hotDrop s line else s
  | none => s

def execHotLineCool (line : Nat) (s : State) : Host.Outcome State Fault Refusal := nextOf s (hotLineCool s line)

/-- Operations that are not counted, reads among them, are performed in the table and keep hot lines hot (R352). -/
def hotReads (s : State) (a n : Nat) : State := (hotIn s a n).foldl (fun s e => hotKeep s e.1) s

/-- The operation touches the lines of an address range (R352). -/
def hotOps (s : State) (a n : Nat) : State := (linesOf a n).foldl hotTouch s

/-! ### The checks of R334 -/

/-- What an operation asks of its region: who sent it (source node, tenant and index of the queue pair), opcode, message number and whether it would begin, offset and length, whether it is LSEM, and the LEASE of a WRITE. -/
structure Ask where
  src : Nat
  tenant : Nat
  qp : Nat
  op : Nat
  mseq : Nat
  begins : Bool
  off : Nat
  len : Nat
  lsem : Bool
  lease : Option Nat
  slot : Bool := false
  deriving DecidableEq, Repr

/-- Steps 1 and 2 of R334. -/
def checkKey (s : State) (key : Nat) (a : Ask) : Except (Status × Nat) (Nat × Region) :=
  match regionAt s key with
  | none => .error (.stale, Detail.MEM_KEY)
  | some (i, r) =>
    if r.closing && (a.begins || !r.openWrs.contains (a.qp, a.mseq)) then .error (.stale, Detail.MEM_KEY)
    else if r.tenant == a.tenant || (a.tenant == 0 && r.can 7) then .ok (i, r)
    else .error (.fenced, Detail.MEM_TENANT)

/-- Step 3 of R334 but for the claim, lease and publication operations, whose own conditions follow it. -/
def checkAccess (a : Ask) (r : Region) : Bool :=
  if a.op = 1 then false
  else if a.op = 2 then r.can 1 && !r.can 6 && r.kind != 2
  else if a.op = 3 then r.can 0 && (!a.slot || r.kind == 0)
  else if a.op = 5 then r.can 2 && r.kind != 2
  else if a.op = 7 then r.can 3 && (if a.lsem then r.kind == 1 else r.kind != 2)
  else r.can 4 && r.kind != 2

/-- Steps 1 to 4 of R334. -/
def checkRange (s : State) (key : Nat) (a : Ask) : Except (Status × Nat) (Nat × Region) :=
  match checkKey s key a with
  | .error e => .error e
  | .ok (i, r) =>
    if !checkAccess a r then .error (.fenced, Detail.MEM_ACCESS)
    else if r.length < a.off + a.len then .error (.fenced, Detail.MEM_BOUNDS)
    else .ok (i, r)

/-- Steps 7 and 8 of R334 for a range, and then whether its memory can be reached (R445, R396). `whole` says that a line covered in full may be a snag (a WRITE or MCAST packet). -/
def checkLines (s : State) (i : Nat) (r : Region) (a : Ask) (off len : Nat) (whole : Bool) : Option (Status × Nat) :=
  let lines := linesOf off len
  match if a.op = 3 then none else leaseCheck s i a.src a.lease lines with
  | some e => some e
  | none =>
    if lines.any (fun x => snagged s r x && !(whole && coversLine off len x)) then some (.poison, Detail.MEM_SNAG)
    else if s.rm.hotBad.contains i then some (.fenced, Detail.FLT_MESH)
    else (memTrouble s (r.base + off) len).map fun d => (Status.fenced, d)

/-- Counts a refusal (CWT_MEM_COUNT2). -/
def countRefusal (s : State) (e : Status × Nat) : State :=
  let s := if e.2 = Detail.MEM_KEY then s.cnt Reg.CWT_MEM_COUNT2_STALE_KEY 1 else s
  if e.1 = .poison then s.cnt Reg.CWT_MEM_COUNT2_POISON 1 else s

/-- Writes bytes into a region (R337, R359, R383): snag bits of lines covered in full are cleared in the same step. Returns the deltas the write waits for. -/
def regionStore (s : State) (r : Region) (off : Nat) (b : List Byte) (clearSnags : Bool) : State × List Nat :=
  let p := s.opWr (r.base + off) b
  let lines := if clearSnags then (linesOf off b.length).filter fun x => snagged p.1 r x && coversLine off b.length x else []
  lines.foldl (fun acc x => let q := setSnag acc.1 r x false; (q.1, acc.2 ++ q.2)) p

/-- The charges and counts of an operation that touches a region's bytes: page counters and, on a cache-role node, `bytes` to a bandwidth class (R390, R393). -/
def regionTouch (s : State) (r : Region) (off len cls bytes : Nat) : State :=
  chargeClass (pageTouch s (r.base + off) len) cls bytes

/-- Bytes that an operation reads and writes where it writes `n` bytes over ones it has read: the old lines of a protected write are charged with it (R383, R393). -/
def modifyBytes (s : State) (a n : Nat) : Nat :=
  if dataMember s && s.r Reg.TIR_CP_GROUP_DEGRADED == 0 && !(protParts s a n).isEmpty then n else 2 * n

/-- The bytes of the snag map that hold the lines of a range. -/
def snagRange (r : Region) (off n : Nat) : Nat × Nat :=
  if r.snagAddr = 0 ∨ n = 0 then (0, 0) else (r.snagAddr + off / 64 / 8, (off + n - 1) / 64 / 8 - off / 64 / 8 + 1)

/-- The stripe units that hold up an operation on a range of a region, those of its snag bits among them: a write changes bits where the range holds a snag (R385, R388). -/
def regionBlocked (s : State) (r : Region) (off n : Nat) (write : Bool) : List Nat :=
  let m := snagRange r off n
  blockedUnits s (r.base + off) n write
  ++ (if m.2 = 0 then [] else blockedUnits s m.1 m.2 (write && (linesOf off n).any (snagged s r)))

/-- Whether an operation on a range of a region meets units that are lost for good (R389). -/
def regionLost (s : State) (r : Region) (off n : Nat) : Bool :=
  let m := snagRange r off n
  doubleLost s (r.base + off) n || (m.2 != 0 && doubleLost s m.1 m.2)

/-! ### Integers and floating point of atomics and reductions (R339, R347) -/

/-- The signed value of the low `w` bits. -/
def sgn (w x : Nat) : Int := if bit x (w - 1) then (x : Int) - 2 ^ w else x

/-- The bits of WIDTH: 0 to 3 integers of 8 to 64 bits, 4 FP32 (R339). -/
def aopBits (width : Nat) : Nat := if width = 4 then 32 else 8 * 2 ^ width

/-- Whether an AOP is defined and allows a WIDTH (R339). -/
def aopAllowed (aop width : Nat) : Bool :=
  if 1 ≤ aop ∧ aop ≤ 3 then decide (width ≤ 4)
  else if 4 ≤ aop ∧ aop ≤ 6 then decide (width ≤ 3)
  else if aop = 7 ∨ aop = 8 then decide (width ≤ 4)
  else if aop = 9 ∨ aop = 10 then decide (width ≤ 3)
  else (aop == 0x10 || aop == 0x11 || aop == 0x18 || aop == 0x19 || aop == 0x1A || aop == 0x20) && width == 3

/-- The new value of the target of an arithmetic atomic (R339); old value and operands are bit patterns of the width. -/
def aopValue (aop width old x y : Nat) : Nat :=
  let w := aopBits width
  let f := width == 4
  if aop = 1 then (if f then ((FV.of32 old).addR (FV.of32 x)).to32 else (old + x) % 2 ^ w)
  else if aop = 2 then x
  else if aop = 3 then (if old = x then y else old)
  else if aop = 4 then old &&& x
  else if aop = 5 then old ||| x
  else if aop = 6 then old ^^^ x
  else if aop = 7 then
    (if f then ((FV.of32 old).minZ (FV.of32 x)).to32 else if sgn w x < sgn w old then x else old)
  else if aop = 8 then
    (if f then ((FV.of32 old).maxZ (FV.of32 x)).to32 else if sgn w old < sgn w x then x else old)
  else if aop = 9 then min old x
  else max old x

/-- The bytes of a DTYPE (R347). -/
def dtypeBytes (dt : Nat) : Nat := if dt = 1 then 4 else if dt = 2 then 8 else if dt = 3 then 4 else 2

/-- Whether a ROP other than LSEM takes a DTYPE (R347). -/
def ropAllowed (rop dt : Nat) : Bool :=
  if 1 ≤ rop ∧ rop ≤ 3 then decide (1 ≤ dt) && decide (dt ≤ 4)
  else rop == 4 && (dt == 1 || dt == 2)

/-- One element of a reduction (R347): the target's new bit pattern. -/
def ropValue (rop dt a b : Nat) : Nat :=
  let w := 8 * dtypeBytes dt
  let fl (f : FV → FV → FV) : Nat := if dt = 3 then (f (FV.of32 a) (FV.of32 b)).to32 else (f (FV.of16 a) (FV.of16 b)).to16
  if rop = 1 then (if dt ≤ 2 then (a + b) % 2 ^ w else if dt = 3 then fl FV.addR else fl FV.add)
  else if rop = 2 then (if dt ≤ 2 then (if sgn w b < sgn w a then b else a) else fl FV.minZ)
  else if rop = 3 then (if dt ≤ 2 then (if sgn w a < sgn w b then b else a) else fl FV.maxZ)
  else a ^^^ b

/-- A reduction over packed elements (R347). -/
def reduceBytes (rop dt : Nat) (tgt ops : List Byte) : List Byte :=
  let n := dtypeBytes dt
  ((chunks n tgt).zip (chunks n ops)).flatMap fun e => leBytes n (ropValue rop dt (leNat e.1) (leNat e.2))

/-! ### Publication (R361 to R363) -/

/-- The address of the publication entry of a region, where the conditions of R334 on PUBLISH hold. -/
def pubEntry (s : State) (r : Region) : Option Nat :=
  if r.kind = 2 ∨ r.dirKey = 0 ∨ !r.can 2 then none
  else
    match regionAt s r.dirKey with
    | some (_, dir) =>
      if dir.kind = 2 ∧ !dir.closing ∧ 64 * r.dirIndex + 64 ≤ dir.length then some (dir.base + 64 * r.dirIndex) else none
    | none => none

/-- The outcome of a PUBLISH of version V over an entry at version C (R362): status, detail, and whether the entry is written. -/
def pubOutcome (published : Bool) (c v : Nat) (same : Bool) : Status × Nat × Bool :=
  let d := (v + 65536 - c) % 65536
  if !published then (.ok, 0, true)
  else if d = 0 then (if same then (.ok, 0, false) else (.conflict, Detail.MEM_PUB, false))
  else if d < 32768 then (.ok, 0, true)
  else (.stale, Detail.MEM_PUB, false)

/-- Whether any line of a region is a snag (R363). -/
def anySnag (s : State) (r : Region) : Bool :=
  r.snagAddr != 0 && s.mem.any fun e => decide (r.snagAddr ≤ e.1) && decide (e.1 < r.snagAddr + (r.length / 64 + 7) / 8) && decide (e.2 ≠ 0)

end Sys2Proof.Machine
end

