-- ==== Sys2Proof/Machine/Bucket.lean ====
section
/-! DEFINITION. Token buckets (spec/14): the entries of the shaper table (R365, R368), refills (R371), the time a shaper holds packets back, and the counts of the wheels (R373). -/

namespace Sys2Proof.Machine

/-- A shaper entry (R368). -/
structure Shp where
  enable : Bool
  pending : Bool
  overhead : Int
  rate : Nat
  burst : Nat
  refill : Nat
  staged : List Byte
  tokens : Int
  last : Nat
  charged : Nat
  blocked : Nat
  deriving DecidableEq, Repr

def shpAddr (s : State) (i : Nat) : Nat := s.r Reg.CWT_SHP_BASE_BASE * 4096 + 64 * i

/-- The entries of the table (CWT_SHP_CFG.COUNT: larger values act as 65,536). -/
def shpCount (s : State) : Nat := min 65536 (s.r Reg.CWT_SHP_CFG_COUNT)

/-- A signed field of `w` bits, and its pattern. -/
def toSigned (w x : Nat) : Int := sgn w x
def ofSigned (w : Nat) (x : Int) : Nat := (x % (2 ^ w : Nat)).toNat

/-- Reads an entry. -/
def shpGet (s : State) (i : Nat) : Shp :=
  let l := s.rd (shpAddr s i) 64
  let f := leField l 0 1
  { enable := bit f 0, pending := bit f 1, overhead := toSigned 16 (leField l 2 2), rate := leField l 4 4, burst := leField l 8 4,
    refill := leField l 0xC 2, staged := (l.drop 0x10).take 16, tokens := toSigned 64 (leField l 0x20 8), last := leField l 0x28 8,
    charged := leField l 0x30 8, blocked := leField l 0x38 8 }

/-- Writes an entry. -/
def shpPut (s : State) (i : Nat) (x : Shp) : State :=
  s.wr (shpAddr s i)
    (leBytes 1 (b2n x.enable + 2 * b2n x.pending) ++ leBytes 1 0 ++ leBytes 2 (ofSigned 16 x.overhead) ++ leBytes 4 x.rate ++ leBytes 4 x.burst
      ++ leBytes 2 x.refill ++ leBytes 2 0 ++ fit 16 x.staged ++ leBytes 8 (ofSigned 64 x.tokens) ++ leBytes 8 x.last
      ++ leBytes 8 x.charged ++ leBytes 8 x.blocked)

/-- A refill interval in ns; an entry never set refills each slot. -/
def Shp.interval (x : Shp) : Nat := 64 * max 1 x.refill

/-- The refill of R371 at device time `now`. -/
def Shp.refilled (x : Shp) (now : Nat) : Shp :=
  let n := (now - x.last) / x.interval
  if n = 0 then x
  else
    let x := { x with tokens := min (x.tokens + n * x.rate * x.refill) (125 * x.burst), last := x.last + n * x.interval }
    if !x.pending then x
    else
      let on := bit (leField x.staged 0 1) 0
      let y := { x with enable := on, overhead := toSigned 16 (leField x.staged 2 2), rate := leField x.staged 4 4,
                        burst := leField x.staged 8 4, refill := leField x.staged 0xC 2, pending := false }
      if !x.enable && on then { y with tokens := 125 * y.burst, last := now / 64 * 64, charged := 0 }
      else { y with tokens := min y.tokens (125 * y.burst) }

/-- A shaper is held to TOKENS alone: at or above 0 it lets a packet go (R370). -/
def Shp.passes (x : Shp) : Bool := decide (0 ≤ x.tokens)

/-- The boundary at which a shaper will be at or above 0 (R373). -/
def Shp.readyAt (x : Shp) : Nat :=
  if x.passes then x.last
  else
    let step := max 1 (x.rate * x.refill)
    x.last + ((-x.tokens).toNat + step - 1) / step * x.interval

/-- The time a shaper has held packets back since it was last charged with it (R368: BLOCKED_NS saturates), up to the boundary that brings it to 0. -/
def shpBlocked (s : State) (i : Nat) : State :=
  match amGet i s.cwt.blocked with
  | none => s
  | some t =>
    let x := shpGet s i
    let e := if x.passes then t else min s.now x.readyAt
    let s := shpPut s i { x with blocked := satAdd 64 x.blocked (e - t) }
    { s with cwt := { s.cwt with blocked := if x.passes then amErase i s.cwt.blocked else amSet i s.now s.cwt.blocked } }

/-- Consults a shaper: it is refilled if a boundary has passed (R371). -/
def shpConsult (s : State) (i : Nat) : State :=
  let s := shpBlocked s i
  let x := (shpGet s i).refilled s.now
  let s := shpPut s i x
  if x.passes then { s with cwt := { s.cwt with blocked := amErase i s.cwt.blocked } } else s

/-- The shapers a queue pair is bound to (R365 to R367): none where it is unshaped. -/
def qpShapers (s : State) (q : Qp) : List Nat :=
  if s.r Reg.CWT_SHP_CFG_ENABLE = 0 then []
  else
    match q.shaper with
    | some b => [b, b + 1 + q.cls]
    | none => []

/-- The shapers below 0 hold back the packet of a queue pair from now on, where they do not already hold another's (R368). -/
def shpHold (s : State) (q : Qp) : State :=
  (qpShapers s q).foldl (fun s k =>
    if (shpGet s k).passes || amHas k s.cwt.blocked then s else { s with cwt := { s.cwt with blocked := amSet k s.now s.cwt.blocked } }) s

/-- CWT_SHP_STATUS counts the queue pairs on each wheel. -/
def wheelRegs (s : State) : State :=
  let c := s.cwt.wheel.countP fun e => e.2.coarse
  (s.setR Reg.CWT_SHP_STATUS_COARSE (min 65535 c)).setR Reg.CWT_SHP_STATUS_FINE (min 65535 (s.cwt.wheel.length - c))

/-- A shaper that holds no packet back any more is charged with no more time (R368). -/
def shpUnhold (s : State) : State :=
  s.cwt.blocked.foldl (fun s e =>
    let held := s.cwt.wheel.any fun w => match amGet w.1 s.cwt.qps with | some q => (qpShapers s q).contains e.1 | none => false
    if held then s
    else
      let s := shpBlocked s e.1
      { s with cwt := { s.cwt with blocked := amErase e.1 s.cwt.blocked } }) s

/-- A queue pair leaves the wheels, and its shapers hold its packet back no longer. -/
def leaveWheel (s : State) (i : Nat) : State :=
  if amHas i s.cwt.wheel then shpUnhold (wheelRegs { s with cwt := { s.cwt with wheel := amErase i s.cwt.wheel } }) else s

end Sys2Proof.Machine
end

