-- ==== Sys2Proof/Machine/Qp.lean ====
section
/-! DEFINITION. Queue pairs (spec/12): identifiers, contexts on die and in their tables (R298 to R301, R324), work requests and their completions (R303, R305), chokers and trigger counters (R321 to R323), credit granted (R308, R309), the error state (R327), and the commands QP_CREATE, QP_MODIFY, QP_DESTROY, CHOKER_CANCEL, TRIG_ADD and TRIG_SET. -/

namespace Sys2Proof.Machine

/-! ### Names and contexts (R298 to R301) -/

/-- QP indices available: CWT_QP_HOST_COUNT, from 262,144 to 4,194,304. -/
def qpCount (s : State) : Nat := min 4194304 (max 262144 (s.r Reg.CWT_QP_HOST_COUNT_COUNT))

/-- Contexts held on die (R300). -/
def qpDie (s : State) : Nat := 2 ^ s.r Reg.MGT_FAMILY_CAP_QP_DIE_LOG2

/-- The queue pair at an index. -/
def State.qpAt (s : State) (i : Nat) : Option Qp := amGet i s.cwt.qps
/-- The queue pair that a name names, with its index (R298). -/
def State.qp (s : State) (qpn : Nat) : Option (Nat × Qp) :=
  match s.qpAt (qpn % 2 ^ 24) with
  | some q => if q.qpn = qpn then some (qpn % 2 ^ 24, q) else none
  | none => none
/-- Writes a queue pair. -/
def State.setQp (s : State) (i : Nat) (q : Qp) : State := { s with cwt := { s.cwt with qps := amSet i q s.cwt.qps } }
/-- Changes a queue pair. -/
def State.modQp (s : State) (i : Nat) (f : Qp → Qp) : State := { s with cwt := { s.cwt with qps := amMod i f s.cwt.qps } }

/-- `a` lies at or after `b` in 32-bit serial order (R306). -/
def serGe (a b : Nat) : Bool := decide ((a + 2 ^ 32 - b % 2 ^ 32) % 2 ^ 32 < 2 ^ 31)
/-- The serial distance from `b` up to `a`. -/
def serDist (a b : Nat) : Nat := (a + 2 ^ 32 - b % 2 ^ 32) % 2 ^ 32

/-- CWT_QP_LIVE and CWT_QP_RESIDENT follow the queue pairs. -/
def qpRegs (s : State) : State :=
  (s.setR Reg.CWT_QP_LIVE_LIVE s.cwt.qps.length).setR Reg.CWT_QP_RESIDENT_RESIDENT s.cwt.resident.length

/-- Advances one of the four counters of a context (R301): packets sent, received, retransmissions, CE marks. -/
def Qp.count (q : Qp) (i : Nat) : Qp := { q with counters := listMod i (fun n => satAdd 32 n 1) q.counters }

/-- Bits 0 to 255 of the receive map (R318). -/
def rcvMap (q : Qp) : Nat :=
  bitSet ((q.rx.flatMap fun e => (List.range e.n).map fun k => serDist (e.psn + k) (q.rcvNxt + 1)).filter (· < 256))

/-- The 512-byte image of a context (R301). TX_STATE is the controller's own: its bytes are free values. -/
def qpImage (q : Qp) (free : Nat) : List Byte :=
  let b := leBytes 4 q.qpn ++ leBytes 1 q.state.code ++ leBytes 1 q.mode ++ leBytes 1 q.domain ++ leBytes 1 q.dscp ++ leBytes 2 q.peerNode
    ++ leBytes 1 q.maxRd ++ leBytes 1 q.sqLog2 ++ leBytes 4 q.peerQp ++ leBytes 4 q.tenant ++ leBytes 4 q.keySlot ++ leBytes 2 q.fn
    ++ leBytes 2 q.cq ++ leBytes 4 q.rq ++ leBytes 8 q.sqAddr ++ leBytes 4 q.sqHead ++ leBytes 4 q.sqTail ++ leBytes 4 q.sndNxt
    ++ leBytes 4 q.sndUna ++ leBytes 4 q.sndUsed ++ leBytes 4 q.sndLimit ++ leBytes 4 q.rcvNxt ++ leBytes 4 q.rcvUnits
    ++ leBytes 4 q.rcvWindow ++ leBytes 4 q.rcvLimit ++ leBytes 32 (rcvMap q) ++ leBytes 4 q.srtt ++ leBytes 4 q.rttvar
    ++ leBytes 8 q.unaTime ++ (q.counters.flatMap (leBytes 4)) ++ leBytes 8 q.userTag ++ leBytes 1 q.errStatus ++ leBytes 1 q.errDetail
    ++ leBytes 6 0 ++ (List.range 344).map (Config.random free)
  b ++ leBytes 8 (crc64 b)

/-- Where a context's table entry lies (R300). -/
def qpHome (s : State) (i : Nat) : Nat :=
  if i < 262144 then s.r Reg.CWT_QP_HBM_BASE_BASE * 4096 + 512 * i
  else hostXA (s.r Reg.CWT_QP_HOST_BASE_BASE * 4096 + 512 * (i - 262144))

/-- Credit granted and not spent (R308). -/
def Qp.unspent (q : Qp) : Nat := serDist q.rcvLimit q.rcvUnits

/-- Entries posted and not taken. -/
def Qp.posted (q : Qp) : Nat := serDist q.sqTail q.sqHead

/-- Whether a context may be evicted (R324). A response still to be sent keeps it on die too, as the context image holds none (DEDUCED, log 65). -/
def qpIdle (s : State) (i : Nat) : Bool :=
  match s.qpAt i with
  | none => true
  | some q =>
    q.unspent == 0 && q.unacked.isEmpty && q.stream.isEmpty && q.posted == 0 && q.resp.isEmpty && q.lateReads.isEmpty && q.rx.all fun x => x.stage == .done

/-- Writes a context to its table entry, its home (R300). -/
def qpStore (s : State) (i : Nat) : State :=
  match s.qpAt i with
  | some q => (s.wr (qpHome s i) (qpImage q s.free)).takeFree
  | none => s

/-- A change of a context that is not on die goes to its home (R300). -/
def qpSave (s : State) (i : Nat) : State := if s.cwt.resident.contains i then s else qpStore s i

/-- Evicts a context to its table (R324). -/
def qpEvict (s : State) (i : Nat) : State :=
  let s := qpStore s i
  qpRegs { s with cwt := { s.cwt with resident := s.cwt.resident.filter (· ≠ i) } }

/-- Makes an index the most recently used of those on die. -/
def qpTouch (s : State) (i : Nat) : State :=
  if s.cwt.resident.contains i then { s with cwt := { s.cwt with resident := s.cwt.resident.filter (· ≠ i) ++ [i] } } else s

/-- Places a context on die, evicting the least recently used one that may go (R324); none where none may. -/
def qpPlace (s : State) (i : Nat) : Option State :=
  if s.cwt.resident.contains i then some (qpTouch s i)
  else
    let put (s : State) : State := qpRegs { s with cwt := { s.cwt with resident := s.cwt.resident ++ [i] } }
    if s.cwt.resident.length < qpDie s then some (put s)
    else
      match s.cwt.resident.find? (qpIdle s) with
      | some j => some (put (qpEvict s j))
      | none => none

/-- Begins the fetch of a context (R325). -/
def qpFetch (s : State) (i : Nat) : State :=
  if s.cwt.resident.contains i || s.cwt.fetching.contains i then s
  else { s with cwt := { s.cwt with fetching := s.cwt.fetching ++ [i] } }

/-! ### Work requests (R303) and completions (R305) -/

def wrOp (w : List Byte) : Nat := leField w 0 1
def wrFlag (w : List Byte) (n : Nat) : Bool := bit (leField w 1 1) n
def wrFence (w : List Byte) : Bool := wrFlag w 0
def wrSignal (w : List Byte) : Bool := wrFlag w 1
def wrChoker (w : List Byte) : Bool := wrFlag w 2
def wrInc (w : List Byte) : Bool := wrFlag w 3
def wrLocal (w : List Byte) : Nat := leField w 8 8
def wrLen (w : List Byte) : Nat := leField w 0x10 4
def wrKey (w : List Byte) : Nat := leField w 0x14 4
def wrRemote (w : List Byte) : Nat := leField w 0x18 8
def wrOperands (w : List Byte) : List Byte := (w.drop 0x20).take 16
def wrId (w : List Byte) : Nat := leField w 0x38 8
/-- For ATOMIC, LENGTH holds AOP, WIDTH and the payload length (R335). -/
def wrAop (w : List Byte) : Nat := bits (wrLen w) 24 8
def wrWidth (w : List Byte) : Nat := bits (wrLen w) 21 3
/-- Payload bytes of a work request: those a READ asks for are not among them. -/
def wrPayload (w : List Byte) : Nat :=
  if wrOp w = Cw.atomic then bits (wrLen w) 0 14 else if wrOp w = Cw.readReq then 0 else wrLen w

/-- Whether a work request keeps the ranges and permissions of R303: a virtual function's buffer lies in host memory (log 46). READ_RESP and ATOMIC_RESP are no requests. -/
def wrOk (q : Qp) (w : List Byte) : Bool :=
  let o := wrOp w
  (o == 1 || o == 2 || o == 3 || o == 5 || o == 7 || o == 8)
  && decide (leField w 1 1 < 16) && decide (leField w 2 2 < 4096) && leField w 4 4 == q.qpn && leField w 0x32 2 == 0
  && decide (leField w 0x30 2 < 4096)
  && (if o == 5 then bits (wrLen w) 14 7 == 0 && decide (wrPayload w ≤ cwMax) else decide (wrLen w ≤ 2 ^ 31))
  && (o != 7 || (allZero ((wrOperands w).drop 10) && (((wrOperands w).getD 0 0).toNat == 5 || allZero ((wrOperands w).drop 2))))
  && (o == 5 || o == 7 || (if o == 8 then allZero ((wrOperands w).drop 2) && wrKey w == 0 else allZero (wrOperands w)))
  && (o != 3 || decide (1 ≤ wrLen w))
  && (q.fn == 0 || xaSpace (wrLocal w) == 3) && (xaSpace (wrLocal w) == 0 || xaSpace (wrLocal w) == 1 || xaSpace (wrLocal w) == 3)

/-- The 32-byte completion of R305 with PHASE 0. -/
def wcImage (id qpn bytes status detail op result : Nat) : List Byte :=
  leBytes 8 id ++ leBytes 4 qpn ++ leBytes 4 bytes ++ leBytes 1 status ++ leBytes 1 detail ++ leBytes 1 op ++ leBytes 1 0 ++ leBytes 4 0
  ++ leBytes 8 result

/-- Posts a Celwald completion to a queue pair's CQ. -/
def postWc (s : State) (q : Qp) (id bytes status detail op result : Nat) : State :=
  cqPost s q.fn q.cq (wcImage id q.qpn bytes status detail op result)

/-- A work request as it enters a send stream. -/
def SendWr.posted (ord now : Nat) (w : List Byte) : SendWr :=
  { ord := ord, time := now, wr := w, fwd := none, fwdOf := none, fwdFlags := 0, fwdExt := [], data := [], started := false, next := 0, allSent := false,
    sentAny := false, bytes := 0, failed := none, result := 0, msg := 0 }

/-- The next number in posting order. -/
def takeOrd (s : State) : State × Nat := ({ s with cwt := { s.cwt with nextOrd := s.cwt.nextOrd + 1 } }, s.cwt.nextOrd)

/-- Inserts a work request into a stream at its place in posting order. -/
def streamInsert (w : SendWr) : List SendWr → List SendWr
  | [] => [w]
  | x :: l => if w.ord < x.ord then w :: x :: l else x :: streamInsert w l

/-- Puts a work request into its queue pair's send stream, with its place in posting order and the time at which it became ready. -/
def putWr (s : State) (i ord time : Nat) (w : List Byte) : State :=
  s.modQp i fun q => { q with stream := streamInsert (SendWr.posted ord time w) q.stream }

/-- Appends a work request to its queue pair's send stream: behind all that has been posted on it, taken or not (R322). -/
def appendWr (s : State) (i : Nat) (w : List Byte) : State :=
  let p := takeOrd s
  putWr p.1 i p.2 s.now w

/-! ### Triggers and chokers (R321, R322) -/

def trigCount (s : State) (t : Nat) : Nat := amGetD t 0 s.cwt.trig

/-- Whether a counter value pulls a threshold (R322). -/
def pulls (value threshold : Nat) : Bool := decide ((value + 2 ^ 32 - threshold % 2 ^ 32) % 2 ^ 32 < 2 ^ 31)

/-- The order in which one advance pulls chokers: ascending THRESHOLD, then posting order (R322). -/
def chokerLe (a b : Nat × Choker) : Bool :=
  decide (a.2.threshold < b.2.threshold) || (a.2.threshold == b.2.threshold && decide (a.2.ord ≤ b.2.ord))

/-- Pulls every waiting choker of a counter that its value reaches (R322): behind the work already posted on their queue pairs. -/
def pullChokers (s : State) (t : Nat) : State :=
  let v := trigCount s t
  let go := isort chokerLe (s.cwt.chokers.filter fun e => e.2.trig == t && pulls v e.2.threshold)
  go.foldl (fun s e =>
    let s := { s with cwt := { s.cwt with chokers := amErase e.1 s.cwt.chokers } }
    match s.qp e.2.qpn with
    | some (i, _) => appendWr s i e.2.wr
    | none => s) s

/-- Sets a counter. -/
def setTrig (s : State) (t v : Nat) : State := { s with cwt := { s.cwt with trig := amSet t (v % 2 ^ 32) s.cwt.trig } }

/-- A counter advances by n and pulls the chokers it reaches. -/
def trigAdvance (s : State) (t n : Nat) : State := pullChokers (setTrig s t (trigCount s t + n)) t

/-- TRIG_ADD (R321). -/
def trigAddBody (c : Cmd) : Body := fun s _ => (trigAdvance s c.arg0 c.arg1, some Done.ok)
def execTrigAdd (c : Cmd) (s : State) : Host.Outcome State Fault Refusal := runPlain s Op.TRIG_ADD c (trigAddBody c)

/-- TRIG_SET (R321, R322): a counter moved backwards pulls nothing. -/
def trigSetBody (c : Cmd) : Body := fun s _ =>
  let fwd := decide ((c.arg1 + 2 ^ 32 - trigCount s c.arg0) % 2 ^ 32 < 2 ^ 31)
  let s := setTrig s c.arg0 c.arg1
  ((if fwd then pullChokers s c.arg0 else s), some Done.ok)
def execTrigSet (c : Cmd) (s : State) : Host.Outcome State Fault Refusal := runPlain s Op.TRIG_SET c (trigSetBody c)

/-- Posts the completion of a work request that ends before it starts, or is flushed. -/
def wrEnds (s : State) (q : Qp) (w : List Byte) (bytes : Nat) (st : Status) (dt : Nat) : State :=
  postWc s q (wrId w) bytes st.code dt (wrOp w) 0

/-- A choker is taken into the store (R322): into the lowest free slot, its 64 bytes written there; a full store ends it. One already reached is pulled at once. `ord` is its place in posting order. -/
def storeChoker (s : State) (i : Nat) (q : Qp) (ord : Nat) (w : List Byte) : State :=
  let cap := min 65536 (s.r Reg.CWT_CHOKER_COUNT_SLOTS)
  match amFree s.cwt.chokers 0 cap with
  | none => wrEnds s q w 0 .noCredit Detail.CWT_CHOKER_FULL
  | some k =>
    let t := leField w 0x30 2 % 4096
    let th := leField w 0x34 4
    if pulls (trigCount s t) th then appendWr s i w
    else
      let s := { s with cwt := { s.cwt with chokers := amSet k ⟨w, q.qpn, q.fn, t, th, ord⟩ s.cwt.chokers } }
      s.wr (s.r Reg.CWT_CHOKER_BASE_BASE * 4096 + 64 * k) w

/-- The 64 bytes of the k-th entry of a send queue that is posted and not taken (R303). -/
def sqEntry (s : State) (q : Qp) (k : Nat) : List Byte := s.rd (q.sqAddr + 64 * ((q.sqHead + k) % 2 ^ q.sqLog2)) 64

/-- The place in posting order and the time of the entry that is taken next: those of its doorbell; one that QP_CREATE's indices gave is posted now. -/
def sqPlace (s : State) (q : Qp) : State × Nat × Nat :=
  match q.posts with
  | e :: _ => (s, e)
  | [] => let p := takeOrd s; (p.1, p.2, s.now)

/-- Takes one posted entry of a send queue (R303, R322, R327): chokers go to the store, others to the stream; in ERROR each is flushed at once. -/
def sqTakeOne (s : State) (i : Nat) : State :=
  match s.qpAt i with
  | none => s
  | some q =>
    let w := sqEntry s q 0
    let p := sqPlace s q
    let q := { q with sqHead := (q.sqHead + 1) % 2 ^ 32, posts := q.posts.drop 1 }
    let s := p.1.setQp i q
    if q.state = .error then wrEnds s q w 0 .errorFlushed Detail.CWT_NOT_SENT
    else if !wrOk q w then wrEnds s q w 0 .fenced Detail.CWT_FORMAT
    else if wrChoker w then storeChoker s i q p.2.1 w
    else putWr s i p.2.1 p.2.2 w

/-- Takes every posted entry. -/
def sqTake (s : State) (i : Nat) : Nat → State
  | 0 => s
  | n + 1 => sqTake (sqTakeOne s i) i n

/-- Takes what is posted where the state lets it: not in RESET, and with the context on die (R325); in ERROR it is flushed at once (R327). -/
def sqRun (s : State) (i : Nat) : State :=
  match s.qpAt i with
  | none => s
  | some q =>
    if q.state = .reset ∨ q.posted = 0 then s
    else if !s.cwt.resident.contains i && q.state != .error then qpFetch s i
    else sqTake s i q.posted

/-- QP_SQ_DOORBELL (R512, R513): SQ_TAIL in [63:32], QPN in [31:0], accepted from its owner for a tail up to the ring size ahead of the entries taken. -/
def qpDoorbell (s : State) (f v : Nat) : State :=
  match s.qp (bits v 0 32) with
  | none => s.cnt (Reg.HIF_FN_ERR_DB_ERR.ofFn f) 1
  | some (i, q) =>
    if q.fn ≠ f ∨ 2 ^ q.sqLog2 < serDist (bits v 32 32) q.sqHead then s.cnt (Reg.HIF_FN_ERR_DB_ERR.ofFn f) 1
    else
      let n := serDist (bits v 32 32) q.sqHead
      let new := (List.range (n - q.posts.length)).map fun j => (s.cwt.nextOrd + j, s.now)
      let s := { s with cwt := { s.cwt with nextOrd := s.cwt.nextOrd + new.length } }
      let s := s.setQp i { q with sqTail := bits v 32 32, posts := (q.posts ++ new).take n }
      sqRun (qpSave s i) i

def execQpSqDoorbell (fn v : Nat) (s : State) : Host.Outcome State Fault Refusal :=
  withUnit s (fn < 64) (ideGate s (qpDoorbell s fn v))

/-- Ends a work request of a stream (R303, R305): its completion where it asks for one or did not end in OK, its trigger where it ended in OK. -/
def finishWr (s : State) (i : Nat) (q : Qp) (w : SendWr) : State :=
  let s := s.setQp i { q with stream := q.stream.filter fun x => x.ord != w.ord }
  match w.failed with
  | some (st, dt) => postWc s q (wrId w.wr) w.bytes st dt (wrOp w.wr) w.result
  | none =>
    let s := if wrSignal w.wr then postWc s q (wrId w.wr) w.bytes 0 0 (wrOp w.wr) w.result else s
    if wrInc w.wr then trigAdvance s (leField w.wr 2 2 % 4096) 1 else s

/-! ### Credit granted (R306 to R309) -/

/-- Bytes the landing holds for packets accepted and not performed, in whole credit units (log 47). -/
def landingBytes (s : State) : Nat :=
  s.cwt.qps.foldl (fun n e => n + e.2.rx.foldl (fun m x => if x.stage = .done then m else m + 512 * x.units) 0) 0

/-- The landing's data capacity. -/
def landingCap : Nat := 67108864

/-- The grant capacity in units (R308). -/
def grantCap (s : State) : Nat := (landingCap + s.r Reg.CWT_LAND_OVF_SIZE_SIZE_2M * 2097152) / 512

/-- Unspent grant to a source node, and to all (R308). -/
def nodeUnspent (s : State) (n : Nat) : Nat := s.cwt.qps.foldl (fun t e => if e.2.peerNode = n then t + e.2.unspent else t) 0
def allUnspent (s : State) : Nat := s.cwt.qps.foldl (fun t e => t + e.2.unspent) 0

/-- Whether the bounds of R308 allow queue pair q an unspent grant of `u`. -/
def grantFits (s : State) (q : Qp) (u : Nat) : Bool :=
  decide (nodeUnspent s q.peerNode + u ≤ s.r Reg.CWT_CREDIT_CFG_NODE_UNITS * 64 + q.unspent)
  && decide (allUnspent s + u ≤ grantCap s + q.unspent)

/-- The largest window (CWT_CREDIT_CFG.QP_UNITS: 0 acts as 2). -/
def windowMax (s : State) : Nat := (if s.r Reg.CWT_CREDIT_CFG_QP_UNITS = 0 then 2 else s.r Reg.CWT_CREDIT_CFG_QP_UNITS) * 64

/-- The grant of an ACK (R308): the window grows by the units freed since the last grant while the landing is less than half full; a limit never decreases, and one that a bound would break is held, and so is every grant of a cache-role node whose ingest class is at cap (R393). -/
def grant (s : State) (q : Qp) : Qp :=
  let w := if landingBytes s * 2 < landingCap then max q.rcvWindow (min (windowMax s) (q.rcvWindow + q.freed)) else q.rcvWindow
  let l := (q.rcvUnits + w) % 2 ^ 32
  if grantFits s q w && !(s.role == roleCache && classCapped s 1) then
    { q with rcvWindow := w, freed := 0, rcvLimit := if serGe l q.rcvLimit then l else q.rcvLimit }
  else q

/-! ### Sending control packets (R310, R312, R326) -/

/-- A packet of a queue pair with no payload. -/
def ctlPacket (s : State) (q : Qp) (psn ackPsn flags : Nat) (ext : List Byte) : Packet :=
  { port := 0, sec := none, sizesOk := true, ce := false, flags := flags, srcNode := q.selfNode, dstNode := q.peerNode, dstQp := q.peerQp, srcQp := q.qpn,
    psn := psn, ackPsn := ackPsn, epoch := s.r Reg.MGT_MAP_EPOCH_EPOCH, msg := 0, ext := ext, payload := [], tag := [] }

/-- Sends a packet on the next path of its node's rotor, which advances (R311). -/
def sendOnRotor (s : State) (op dscp : Nat) (p : Packet) : State :=
  let s := clearHolds s p.dstNode
  let path := rotorPath s p.dstNode
  let s := { s with cwt := { s.cwt with rotor := amSet p.dstNode ((path + 1) % 32) s.cwt.rotor } }
  sendPacket s op dscp path p

/-- Sends an ACK (R312) with a grant (R308) and a SACK. -/
def sendAck (s : State) (i : Nat) : State :=
  match s.qpAt i with
  | none => s
  | some q =>
    let q := { grant s q with toAck := 0 }
    let ext := leBytes 4 q.rcvLimit ++ leBytes 4 0 ++ leBytes 32 (rcvMap q)
    sendOnRotor (s.setQp i (q.count 0)) Cw.ack q.dscp (ctlPacket s q q.sndNxt q.rcvNxt 16 ext)

/-- The codes of R326. -/
def nakSeq : Nat := 1
def nakCredit : Nat := 2
def nakRnr : Nat := 3
def nakResult : Nat := 4
def nakRedirect : Nat := 5
def nakOp : Nat := 6
def nakFormat : Nat := 7
def nakAuth : Nat := 8
def nakFlushed : Nat := 9

/-- Sends a NAK (R326). -/
def sendNak (s : State) (i code status home psn : Nat) : State :=
  match s.qpAt i with
  | none => s
  | some q =>
    let ext := leBytes 1 code ++ leBytes 1 status ++ leBytes 2 home ++ leBytes 4 psn
    sendOnRotor (s.setQp i (q.count 0)) Cw.nak q.dscp (ctlPacket s q q.sndNxt q.rcvNxt 16 ext)

/-! ### The error state (R327) -/

/-- A queue pair holds no begun work request in any region any more. -/
def endBegun (s : State) (i : Nat) : State :=
  let s := { s with rm := { s.rm with regions := amMap (fun _ (r : Region) => { r with openWrs := r.openWrs.filter (fun w => w.1 != i) }) s.rm.regions } }
  s.rm.regions.foldl (fun s e => if e.2.closing then regionFreed s e.1 else s) s

/-- Sets the outcome of one branch of a multicast, where it has none yet (R351). -/
def setBranch (s : State) (id k st dt : Nat) : State :=
  let f (m : Mcast) : Mcast := { m with branches := listMod k (fun b => if b.isNone then some (st, dt) else b) m.branches }
  { s with rm := { s.rm with mcasts := amMod id f s.rm.mcasts } }

/-- The branches that ran on a queue pair fail (R351); what waits for them goes on when the transport next looks. -/
def failBranches (s : State) (q : Qp) : State :=
  (q.stream.filterMap (·.fwd)).foldl (fun s f => setBranch s f.1 f.2 Status.fenced.code Detail.MEM_BRANCH) s

/-- The bytes of a READ_REQ's responses that have been written to LOCAL (R305). -/
def TxPkt.gotBytes (t : TxPkt) : Nat := t.got.foldl (fun n k => n + min cwMax (t.len - k * cwMax)) 0

/-- Bytes of a request performed so far, or for a READ returned (R305). -/
def Qp.bytesDone (q : Qp) (w : SendWr) : Nat := q.unacked.foldl (fun n t => if t.ord = w.ord then n + t.gotBytes else n) w.bytes

/-- Flushes a work request of a stream (R327 step 3); a forward of a multicast has no completion. -/
def flushWr (s : State) (q : Qp) (w : SendWr) : State :=
  if w.fwd.isSome then s
  else wrEnds s q w.wr (q.bytesDone w) .errorFlushed (if w.sentAny then Detail.CWT_MAYBE else Detail.CWT_NOT_SENT)

/-- Step 3 of R327: the work requests in send-queue order, those posted and not taken among them, and then the pulled and the waiting chokers. -/
def flushQp (s : State) (q : Qp) : State :=
  let s := (q.stream.filter fun w => !wrChoker w.wr).foldl (fun s w => flushWr s q w) s
  let s := (List.range q.posted).foldl (fun s k => wrEnds s q (sqEntry s q k) 0 .errorFlushed Detail.CWT_NOT_SENT) s
  let s := (q.stream.filter fun w => wrChoker w.wr).foldl (fun s w => flushWr s q w) s
  let mine := isort (fun a b : Nat × Choker => decide (a.2.ord ≤ b.2.ord)) (s.cwt.chokers.filter fun e => e.2.qpn == q.qpn)
  mine.foldl (fun s e => wrEnds { s with cwt := { s.cwt with chokers := amErase e.1 s.cwt.chokers } } q e.2.wr 0 .errorFlushed Detail.CWT_NOT_SENT) s

/-- Entry to ERROR (R327): the detail and a status that the spec leaves open (a free value), the event, every work request and choker flushed, and what was parked freed; a queue pair in RESET enters it too where its context fails its CRC twice (R301). -/
def qpError (s : State) (i : Nat) (dt : Nat) : State :=
  match s.qpAt i with
  | none => s
  | some q =>
    if q.state = .error then s
    else
      let s := failBranches s q
      let st := Config.freeNat s.free % 10
      let s := s.takeFree.setQp i { q with
                                  state := .error, errStatus := st, errDetail := dt, sqHead := q.sqTail, posts := [], stream := [], unacked := [],
                                  resp := [], rx := [], lateReads := [], recv := [], begun := [], counted := [], toAck := 0, creditAt := none,
                                  waitSince := none }
      let s := setEvent s Reg.CWT_QP_EVENT_ERROR 1
      let s := leaveWheel (flushQp s q) i
      qpSave (endBegun s i) i

/-! ### Commands (R299, R302, R309, R323, R344, R366, R466) -/

/-- The queue pair that QP_CREATE's descriptor gives (R301: bytes 0x000 to 0x03F). -/
def qpOfDesc (d : List Byte) (qpn cls : Nat) : Qp :=
  { qpn := qpn, state := .reset, mode := leField d 5 1, domain := leField d 6 1, dscp := leField d 7 1, peerNode := leField d 8 2,
    maxRd := leField d 0xA 1, sqLog2 := leField d 0xB 1, peerQp := leField d 0xC 4, tenant := leField d 0x10 4, keySlot := leField d 0x14 4,
    fn := leField d 0x18 2, cq := leField d 0x1A 2, rq := leField d 0x1C 4, sqAddr := leField d 0x20 8, sqHead := leField d 0x28 4,
    sqTail := leField d 0x2C 4, sndNxt := leField d 0x30 4, sndUna := leField d 0x34 4, sndUsed := leField d 0x38 4,
    sndLimit := leField d 0x3C 4, rcvNxt := 0, rcvUnits := 0, rcvWindow := 0, rcvLimit := 0, srtt := 0, rttvar := 0, unaTime := 0,
    counters := [0, 0, 0, 0], userTag := 0, errStatus := 0, errDetail := 0, cls := cls, shaper := none, salt := [], selfNode := 0,
    newSent := 0, msgNext := 0, posts := [], stream := [], unacked := [], resp := [], respSent := [], atomSent := 0, fwdMsg := [], rx := [], lateReads := [], counted := [], recv := [], begun := [], freed := 0,
    toAck := 0, toAckAt := 0, creditAt := none, redirected := [], arc := none, flushedAt := none, drainPosted := false, waitSince := none }

/-- Whether the fields of a context keep their ranges (R301). A virtual function makes queue pairs of its own alone, with their send queue in host memory (log 46). -/
def qpDescOk (q : Qp) (issuer qpnField st : Nat) : Bool :=
  qpnField == 0 && st == 0 && decide (q.mode < 8) && decide (q.dscp < 64) && decide (1 ≤ q.maxRd) && decide (q.maxRd ≤ 64)
  && decide (4 ≤ q.sqLog2) && decide (q.sqLog2 ≤ 16) && decide (q.tenant < 2 ^ 20) && decide (q.keySlot < 2 ^ 24) && decide (q.fn < 64)
  && (bit q.mode 2 || q.rq == 0) && (issuer == 0 || (q.fn == issuer && xaSpace q.sqAddr == 3))

/-- QP_CREATE (R302, R505): the name returns in RESULT (log 48). -/
def qpCreateBody (c : Cmd) : Body := fun s d =>
  let q := qpOfDesc d 0 c.arg0
  if !qpDescOk q c.fn (leField d 0 4) (leField d 4 1) then fail s .fenced Detail.CWT_FORMAT
  else
    let cqOk := match amGet q.cq (s.fn q.fn).cqs with | some k => k.typ == 1 | none => false
    if !cqOk then answer s { Done.of .fenced 0 with reason := .queue }
    else
      match s.cwt.ids.alloc (qpCount s) s.now with
      | none => fail s .noCredit 0
      | some (i, p) =>
        let qpn := p.ringOf i * 2 ^ 24 + i
        let s := { s with cwt := { s.cwt with ids := p } }
        let s := s.setQp i { q with qpn := qpn }
        let s := (qpPlace s i).getD (qpStore (qpRegs s) i)
        (s, some { Done.ok with result := qpn })

def execQpCreate (c : Cmd) (s : State) : Host.Outcome State Fault Refusal := runPlain s Op.QP_CREATE c (qpCreateBody c)

/-- The shaper binding of a queue pair (R366): none where unshaped, the tenant shaper's index, or an index out of range. -/
def shaperBind (s : State) (q : Qp) : Except Unit (Option Nat) :=
  let e := memReadLE s.mem (s.r Reg.CWT_SHP_MAP_BASE_BASE * 4096 + 4 * q.tenant) 4
  if !bit e 31 then .ok none
  else if min 65536 (s.r Reg.CWT_SHP_CFG_COUNT) ≤ bits e 0 16 + 8 then .error ()
  else .ok (some (bits e 0 16))

/-- The atomic result rings (CWT_ARC_CFG.RINGS). -/
def arcRings : Nat := 4096
def arcRegs (s : State) : State := s.setR Reg.CWT_ARC_CFG_IN_USE s.rm.arc.length

/-- Puts a queue pair in READY (R302, R309): peer and initial PSNs, window and limits of 128 units on both sides, pins and bindings. -/
def readyQp (s : State) (i : Nat) (q : Qp) (d : List Byte) (shp arc : Option Nat) : State :=
  let salt := (d.drop 0x10).take 16
  let sp := leField d 8 4
  let q := { q with
    state := .ready, peerNode := leField d 0 2, peerQp := leField d 4 4, sndNxt := sp, sndUna := sp, sndUsed := 0, sndLimit := 128,
    rcvNxt := leField d 0xC 4, rcvUnits := 0, rcvWindow := 128, rcvLimit := 128, srtt := 0, rttvar := 0, unaTime := 0, shaper := shp,
    salt := salt, selfNode := s.nodeId, newSent := 0, msgNext := 0, respSent := [], atomSent := 0, fwdMsg := [], freed := 0, toAck := 0, creditAt := none, redirected := [], arc := arc,
    flushedAt := none, drainPosted := false }
  let s := keyPin (keyWant (s.setQp i q) q.keySlot) q.keySlot
  let s := { s with cwt := { s.cwt with salts := amSet i salt s.cwt.salts } }
  let s := match arc with
    | some r => arcRegs { s with rm := { s.rm with arc := amSet r [] s.rm.arc } }
    | none => s
  sqRun (qpSave s i) i

/-- QP_MODIFY to READY from RESET: what can refuse it (R302, R309, R344, R366, R455, R466). -/
def toReady (s : State) (i : Nat) (q : Qp) (d : List Byte) : State × Option Done :=
  let peer := leField d 0 2
  if leField d 2 2 ≠ 0 then fail s .fenced Detail.CWT_FORMAT
  else if amGet i s.cwt.salts = some ((d.drop 0x10).take 16) then fail s .conflict Detail.KEY_SALT_REUSE
  else
    match keyUse s q.keySlot q.tenant false with
    | .error e => fail s e.1 e.2
    | .ok _ =>
      match shaperBind s q with
      | .error _ => fail s .fenced Detail.SHP_INDEX
      | .ok shp =>
        let want := { q with peerNode := peer, rcvUnits := 0, rcvLimit := 0 }
        if !grantFits s want 128 then fail s .noCredit 0
        else if bit q.mode 1 then
          match amFree s.rm.arc 0 arcRings with
          | none => fail s .noCredit Detail.MEM_ARC_FULL
          | some r => (readyQp s i q d shp (some r), some Done.ok)
        else (readyQp s i q d shp none, some Done.ok)

/-- What QP_MODIFY to RESET releases (R302, R344): grants, the ring of atomic results, the key's pin where it entered READY. -/
def toReset (s : State) (i : Nat) (q : Qp) : State :=
  let s := if q.rcvWindow = 0 then s else keyUnpin s q.keySlot
  let s := match q.arc with
    | some r => arcRegs { s with rm := { s.rm with arc := amErase r s.rm.arc } }
    | none => s
  qpSave (s.setQp i { q with state := .reset, rcvUnits := 0, rcvWindow := 0, rcvLimit := 0, sndUsed := 0, sndLimit := 0, shaper := none, arc := none,
                             redirected := [], sqHead := q.sqTail, posts := [], errStatus := 0, errDetail := 0 }) i

/-- A queue pair that a command names, owned by its issuer; the PF may name any (log 48). -/
def withQp (c : Cmd) (s : State) (k : Nat → Qp → State × Option Done) : State × Option Done :=
  match s.qp c.arg0 with
  | none => fail s .stale 0
  | some (i, q) => if c.fn ≠ 0 ∧ q.fn ≠ c.fn then answer s { Done.of .fenced 0 with reason := .foreign } else k i q

/-- QP_MODIFY (R302). -/
def qpModifyBody (c : Cmd) : Body := fun s d => withCtxless c s d
where
  /-- The rows of the state table. -/
  withCtxless (c : Cmd) (s : State) (d : List Byte) : State × Option Done :=
    withQp c s fun i q =>
      match q.state, c.arg1 with
      | .reset, 1 => toReady s i q d
      | .ready, 2 => (qpSave (s.setQp i { q with state := .draining, drainPosted := false }) i, some Done.ok)
      | .ready, 3 => (qpError s i 0, some Done.ok)
      | .draining, 1 => (qpSave (s.setQp i { q with state := .ready }) i, some Done.ok)
      | .draining, 3 => (qpError s i 0, some Done.ok)
      | .error, 0 => (toReset s i q, some Done.ok)
      | _, _ => fail s .conflict Detail.CWT_QP_STATE

def execQpModify (c : Cmd) (s : State) : Host.Outcome State Fault Refusal := runPlain s Op.QP_MODIFY c (qpModifyBody c)

/-- A queue pair's index becomes free (R298, R299): its ring count advances and it goes into fallow. A fetch of it under way finds it free and drops its packets (R325). -/
def dropQp (s : State) (i : Nat) : State :=
  qpRegs { s with cwt := { s.cwt with qps := amErase i s.cwt.qps, ids := s.cwt.ids.release i s.now (cwtFallowUs s),
                                      resident := s.cwt.resident.filter (· ≠ i) } }

/-- QP_DESTROY (R302). -/
def qpDestroyBody (c : Cmd) : Body := fun s _ =>
  withQp c s fun i q => if q.state = .reset then (dropQp s i, some Done.ok) else fail s .conflict Detail.CWT_QP_STATE

def execQpDestroy (c : Cmd) (s : State) : Host.Outcome State Fault Refusal := runPlain s Op.QP_DESTROY c (qpDestroyBody c)

/-- CHOKER_CANCEL (R323): the oldest waiting choker of that WR_ID that the issuer may name. -/
def chokerCancelBody (c : Cmd) : Body := fun s _ =>
  let l := isort (fun a b : Nat × Choker => decide (a.2.ord ≤ b.2.ord))
    (s.cwt.chokers.filter fun e => wrId e.2.wr == c.arg0 && (c.fn == 0 || e.2.fn == c.fn))
  match l with
  | [] => fail s .conflict 0
  | e :: _ =>
    let s := { s with cwt := { s.cwt with chokers := amErase e.1 s.cwt.chokers } }
    match s.qp e.2.qpn with
    | some (_, q) => (wrEnds s q e.2.wr 0 .errorFlushed Detail.CWT_NOT_SENT, some Done.ok)
    | none => (s, some Done.ok)

def execChokerCancel (c : Cmd) (s : State) : Host.Outcome State Fault Refusal := runPlain s Op.CHOKER_CANCEL c (chokerCancelBody c)

/-- QP_DRAINED (R302): every started work request of a draining queue pair has completed; the completion with CWT_DRAINED names no request (log 49). -/
def qpDrained (s : State) (i : Nat) : State :=
  match s.qpAt i with
  | none => s
  | some q =>
    if q.state = .draining ∧ !q.drainPosted ∧ !q.stream.any (·.started) then
      let s := s.setQp i { q with drainPosted := true }
      let s := postWc s.takeFree q (Config.freeNat s.free) 0 0 Detail.CWT_DRAINED (Config.freeNat s.free % 256) 0
      setEvent s Reg.CWT_QP_EVENT_DRAINED 1
    else s

def execQpDrained (index : Nat) (s : State) : Host.Outcome State Fault Refusal := nextOf s (qpDrained s index)

end Sys2Proof.Machine
end

