-- ==== Sys2Proof/Machine/Shaper.lean ====
section
/-! DEFINITION. Shapers (spec/14): SHAPER_SET (R372), eligibility and charges (R369, R370), and the timing wheels (R373). -/

namespace Sys2Proof.Machine

/-- Whether a queue pair's next packet is eligible, its shapers already consulted (R370). -/
def shpEligible (s : State) (q : Qp) : Bool := (qpShapers s q).all fun i => (shpGet s i).passes

/-- The charged length of a frame under a shaper (R369). -/
def Shp.length (x : Shp) (frame : Nat) : Nat := ((frame : Int) + x.overhead).toNat

/-- A port chooses: ports that choose at one device time do so in one ECLK cycle, a port that has chosen in it begins the next (R370). -/
def cycleStep (s : State) (port : Nat) : State :=
  let c := s.cwt.cycle
  { s with cwt := { s.cwt with cycle := if c.1 = s.now ∧ !c.2.1.contains port then (c.1, c.2.1 ++ [port], c.2.2) else (s.now, [port], []) } }

/-- Whether a shaper's TOKENS, as they stood at the start of the cycle, let a packet go (R370). -/
def shpOpen (s : State) (i : Nat) : Bool :=
  match (if s.cwt.cycle.1 = s.now then amGet i s.cwt.cycle.2.2 else none) with
  | some t => decide (0 ≤ t)
  | none => (shpGet s i).passes

/-- Charges a packet to a queue pair's shapers (R369). -/
def shpCharge (s : State) (q : Qp) (frame : Nat) : State :=
  (qpShapers s q).foldl (fun s i =>
    let x := shpGet s i
    let c := s.cwt.cycle
    let s := { s with cwt := { s.cwt with cycle := if amHas i c.2.2 then c else (c.1, c.2.1, amSet i x.tokens c.2.2) } }
    shpPut s i { x with tokens := x.tokens - 125 * (x.length frame : Int), charged := (x.charged + x.length frame) % 2 ^ 64 }) s

/-- The horizon of the fine wheel and the width of a coarse slot, in ns (R373). -/
def fineHorizon : Nat := 262144

/-- Places a queue pair on a wheel at the first boundary at which its shapers let it go (R373); it is at the arbiter no longer (R370). -/
def wheelPlace (s : State) (i : Nat) (q : Qp) (since : Nat) : State :=
  let wake := (qpShapers s q).foldl (fun t k => max t (shpGet s k).readyAt) 0
  let s := (shpHold s q).modQp i fun q => { q with waitSince := none }
  wheelRegs { s with cwt := { s.cwt with wheel := amSet i ⟨wake, decide (fineHorizon ≤ wake - s.now), since⟩ s.cwt.wheel } }

/-- A queue pair is let go: its packet waits at the arbiter from now on (R370). -/
def wheelLeave (s : State) (i : Nat) : State :=
  (leaveWheel s i).modQp i fun q => { q with waitSince := some s.now }

/-- A queue pair's wheel slot is reached: from the coarse wheel it moves to the fine one; from the fine one its shapers are refilled and tested, and it is placed again where they still hold it (R373). -/
def wheelReached (s : State) (i : Nat) (w : WheelEnt) : State :=
  if w.coarse then
    if w.wake / fineHorizon * fineHorizon ≤ s.now then
      wheelRegs { s with cwt := { s.cwt with wheel := amSet i { w with coarse := false } s.cwt.wheel } }
    else s
  else if s.now < w.wake then s
  else
    match s.qpAt i with
    | none => leaveWheel s i
    | some q =>
      let s := (qpShapers s q).foldl shpConsult s
      if shpEligible s q then wheelLeave s i else wheelPlace s i q s.now

/-- SHAPER_WHEEL_SLOT (R372, R373): every entry whose slot has been reached. -/
def shaperWheelSlot (s : State) : State :=
  let s := (s.cwt.shpWheel.filter fun e => e.2 ≤ s.now).foldl (fun s e =>
    let s := { s with cwt := { s.cwt with shpWheel := amErase e.1 s.cwt.shpWheel } }
    shpConsult s e.1) s
  s.cwt.wheel.foldl (fun s e => wheelReached s e.1 e.2) s

def execShaperWheelSlot (s : State) : Host.Outcome State Fault Refusal := nextOf s (shaperWheelSlot s)

/-- Whether the fields of SHAPER_SET's 16 bytes keep their ranges (R368). -/
def shaperDescOk (d : List Byte) : Bool :=
  let ov := toSigned 16 (leField d 2 2)
  decide (leField d 0 1 < 2) && leField d 1 1 == 0 && decide (-64 ≤ ov) && decide (ov ≤ 255)
  && decide (10 ≤ leField d 4 4) && decide (leField d 4 4 ≤ 12800000) && decide (9216 ≤ leField d 8 4) && decide (leField d 8 4 ≤ 16777216)
  && decide (1 ≤ leField d 0xC 2) && decide (leField d 0xC 2 ≤ 4096) && leField d 0xE 2 == 0

/-- SHAPER_SET (R368, R372). -/
def shaperSetBody (c : Cmd) : Body := fun s d =>
  if c.arg0 = 0 ∨ shpCount s ≤ c.arg0 ∨ !shaperDescOk d then fail s .fenced Detail.SHP_RANGE
  else
    let x := shpGet s c.arg0
    let s := shpPut s c.arg0 { x with staged := fit 16 d, pending := true }
    let wake := x.last + ((s.now - x.last) / x.interval + 1) * x.interval
    ({ s with cwt := { s.cwt with shpWheel := amSet c.arg0 wake s.cwt.shpWheel } }, some Done.ok)

def execShaperSet (c : Cmd) (s : State) : Host.Outcome State Fault Refusal := runPlain s Op.SHAPER_SET c (shaperSetBody c)

end Sys2Proof.Machine
end

