-- ==== Sys2Proof/Machine/Egress.lean ====
section
/-! DEFINITION. The sending side of Celwald transport: starting work requests (R303, R320, R346), the packet a queue pair sends next (R307, R313, R317, R335), the egress arbiter (R189, R190) and PACKET_TRANSMIT, retransmission timers (R311 to R314), give-up, and multicast at a node (R349 to R351). -/

namespace Sys2Proof.Machine

/-! ### Timers (R314) -/

def minRtoNs (s : State) : Nat := max 8 (s.r Reg.CWT_TIMER_MIN_RTO_US) * 1000
def pathHoldNs (s : State) : Nat := s.r Reg.CWT_TIMER2_PATH_HOLD_US * 1000
def rnrNs (s : State) : Nat := max 1 (s.r Reg.CWT_TIMER_RNR_US) * 1000
def ackDelayNs (s : State) : Nat := max 1 (s.r Reg.CWT_TIMER_ACK_DELAY_100NS) * 100
def ackCoalesce (s : State) : Nat := max 1 (s.r Reg.CWT_TIMER_ACK_COALESCE)

/-- The RTO of a queue pair (R313): 100 µs before any round trip is measured. -/
def rtoNs (s : State) (q : Qp) : Nat := if q.srtt = 0 then 100000 else max (minRtoNs s) (q.srtt + 4 * q.rttvar)

/-! ### Multicast at a node (R349 to R351) -/

/-- A multicast group entry: the number of children, flags, LOCAL_KEY and the children's queue pairs. -/
structure GroupEnt where
  children : List Nat
  valid : Bool
  loc : Option Nat
  deriving DecidableEq, Repr

def groupEnt (s : State) (g : Nat) : GroupEnt :=
  let l := s.rd (s.r Reg.CWT_MCAST_BASE_BASE * 4096 + 64 * g) 64
  let f := leField l 3 1
  { children := (List.range (min 8 (leField l 2 1))).map fun k => leField l (8 + 4 * k) 4, valid := bit f 0,
    loc := if bit f 1 then some (leField l 4 4) else none }

/-- Why a node refuses a multicast before it does anything (R350). -/
def mcastBad (s : State) (g hops : Nat) : Bool :=
  let e := groupEnt s g
  decide (4096 ≤ g) || !e.valid || (decide (8 ≤ hops) && !e.children.isEmpty)

/-- The local write of a multicast (R350): under R334 as an MCAST packet. Gives its outcome and the deltas it waits for. -/
def mcastLocal (s : State) (e : GroupEnt) (a : Ask) (b : List Byte) : State × (Nat × Nat) × List Nat :=
  match e.loc with
  | none => (s, (0, 0), [])
  | some key =>
    match checkRange s key a with
    | .error x => (countRefusal s x, (x.1.code, x.2), [])
    | .ok (i, r) =>
      if regionLost s r a.off a.len then (s, (Status.fenced.code, Detail.CP_DOUBLE), [])
      else
        match checkLines s i r a a.off a.len true with
        | some x => (countRefusal s x, (x.1.code, x.2), [])
        | none =>
          let w := regionStore s r a.off b true
          (hotReads (regionTouch w.1 r a.off a.len 1 a.len) (r.base + a.off) a.len, (0, 0), w.2)

/-- The message whose packets a multicast in progress belongs to: the root's request, or the message a packet came in. -/
def McastFor.message (o : McastFor) (mseq : Nat) : McastFor :=
  match o with
  | .root i ord => .root i ord
  | .packet i _ => .packet i mseq

/-- Appends the forward of a multicast packet to a child's send stream; a child that is not READY is a failed branch. -/
def mcastForward (s : State) (of : McastFor) (id k child group hops off flags : Nat) (b : List Byte) : State :=
  match s.qp child with
  | none => setBranch s id k Status.fenced.code Detail.MEM_BRANCH
  | some (i, q) =>
    if q.state ≠ .ready then setBranch s id k Status.fenced.code Detail.MEM_BRANCH
    else
      let p := takeOrd s
      let w := { SendWr.posted p.2 s.now (leBytes 1 Cw.mcast ++ List.replicate 63 0) with
        fwd := some (id, k), fwdOf := some of, fwdFlags := flags % 4, data := b,
        fwdExt := leBytes 2 group ++ leBytes 1 (hops + 1) ++ leBytes 5 0 ++ leBytes 8 off }
      p.1.modQp i fun q => { q with stream := q.stream ++ [w] }

/-- Begins a multicast packet at this node (R350), its group entry good: the local write and a forward to every child. -/
def mcastBegin (s : State) (owner : McastFor) (a : Ask) (g hops flags : Nat) (b : List Byte) : State × Nat :=
  let e := groupEnt s g
  let p := mcastLocal s e a b
  let id := p.1.rm.nextMcast
  let m : Mcast := ⟨owner, b.length, p.2.1, p.2.2, e.children.map fun _ => none⟩
  let s := { p.1 with rm := { p.1.rm with mcasts := amSet id m p.1.rm.mcasts, nextMcast := id + 1 } }
  (e.children.zipIdx.foldl (fun s c => mcastForward s (owner.message a.mseq) id c.2 c.1 g hops a.off flags b) s, id)

/-- The outcome of a multicast once every branch has one and the deltas of the local write are acknowledged (R351, R383): the local write's failure, else the first failing branch in CHILD_QP order. -/
def Mcast.outcome (s : State) (m : Mcast) : Option (Nat × Nat) :=
  if m.branches.any (·.isNone) || m.deltas.any (fun d => amHas d s.cp.deltas) then none
  else
    let all := m.loc :: m.branches.filterMap id
    some ((all.find? fun e => e.1 != 0).getD (0, 0))

/-! ### Starting a work request (R296, R303, R320) -/

/-- Whether a request of ordering domain `d` posted before `ord` on this node is not yet acknowledged in full (R320; log 50). -/
def domainBusy (s : State) (d ord : Nat) : Bool :=
  s.cwt.qps.any fun e => e.2.domain == d && ((e.2.stream.any fun w => decide (w.ord < ord)) || e.2.posts.any fun p => decide (p.1 < ord))

/-- Whether a fenced request is still withheld (R320): its first packet waits. -/
def fenceHeld (s : State) (q : Qp) (w : SendWr) : Bool := wrFence w.wr && !w.sentAny && domainBusy s q.domain w.ord

/-- Whether the controller can reach the peer (R296). -/
def routeOk (s : State) (n : Nat) : Bool := (nodeEnt s n).valid && !(portsUp s (nodeEnt s n).mask).isEmpty

/-- The pieces of at most 8,704 bytes of a length. -/
def pieces (n : Nat) : List (Nat × Nat) :=
  if n = 0 then [(0, 0)] else (List.range ((n + cwMax - 1) / cwMax)).map fun k => (k * cwMax, min cwMax (n - k * cwMax))

/-- The stripe units that hold up the local write of a multicast (R385, R388); none where the write will fail because they are lost (R389). -/
def mcastBlocked (s : State) (g off n : Nat) : List Nat :=
  match (groupEnt s g).loc.bind (regionAt s) with
  | some e => if regionLost s e.2 off n then [] else regionBlocked s e.2 off n true
  | none => []

/-- Why the bytes of a request cannot be read from LOCAL: their units are lost (R389), or their memory is out of reach (R396, R445). -/
def localStop (s : State) (w : List Byte) : Option Nat :=
  let n := wrPayload w
  if n = 0 then none else if doubleLost s (wrLocal w) n then some Detail.CP_DOUBLE else memTrouble s (wrLocal w) n

/-- The unbuilt units that LOCAL lies in (R388). -/
def localBlocked (s : State) (w : List Byte) : List Nat := let n := wrPayload w; if n = 0 then [] else blockedUnits s (wrLocal w) n false

/-- A request ends before it has sent anything: its completion, or the outcome of its branch. -/
def failWr (s : State) (i : Nat) (q : Qp) (w : SendWr) (dt : Nat) : State :=
  match w.fwd with
  | some f => setBranch (s.setQp i { q with stream := q.stream.filter fun x => x.ord != w.ord }) f.1 f.2 Status.fenced.code dt
  | none => finishWr s i q { w with failed := some (Status.fenced.code, dt) }

/-- The message number of a request that starts: the packets of one multicast message share theirs (R350). -/
def startMsg (q : Qp) (w : SendWr) : Qp × Nat :=
  match w.fwdOf with
  | some o =>
    let last := bit w.fwdFlags 1
    (match q.fwdMsg.find? fun e => e.1 = o with
     | some e => ({ q with fwdMsg := if last then q.fwdMsg.filter fun e => e.1 ≠ o else q.fwdMsg }, e.2)
     | none => ({ q with msgNext := (q.msgNext + 1) % 2 ^ 24, fwdMsg := if last then q.fwdMsg else q.fwdMsg ++ [(o, q.msgNext)] }, q.msgNext))
  | none => ({ q with msgNext := (q.msgNext + 1) % 2 ^ 24 }, q.msgNext)

/-- A multicast posted at the root is performed at the root's own entry with HOPS 0 (R349). It waits where its local write or the reading of its bytes must. -/
def mcastRoot (s : State) (i : Nat) (q : Qp) (w : SendWr) : State :=
  let g := leNat ((wrOperands w.wr).take 2)
  if mcastBad s g 0 then failWr s i q w Detail.MEM_GROUP
  else
  match localStop s w.wr with
  | some dt => failWr s i q w dt
  | none =>
  let us := mcastBlocked s g (wrRemote w.wr) (wrLen w.wr) ++ localBlocked s w.wr
  if !us.isEmpty then blockOn s us
  else
    let n := wrLen w.wr
    let s := s.setQp i { q with stream := q.stream.map fun x => if x.ord = w.ord then { x with started := true, allSent := true, sentAny := true } else x }
    (pieces n).foldl (fun s e =>
      let b := s.opRd (wrLocal w.wr + e.1) e.2
      let flags := b2n (e.1 == 0) + 2 * b2n (e.1 + e.2 == n)
      let a : Ask := { src := s.nodeId, tenant := q.tenant, qp := i, op := 8, mseq := w.ord, begins := true, off := wrRemote w.wr + e.1,
                       len := e.2, lsem := false, lease := none }
      (mcastBegin s (.root i w.ord) a g 0 flags b).1) s

/-- Starts the first work request of a queue pair's stream that has not started (R303): READY only, its context on die. On a RELAXED queue pair a fenced multicast that is withheld does not hold back those after it (R320). -/
def wrStart (s : State) (i : Nat) : State :=
  match s.qpAt i with
  | none => s
  | some q =>
    if q.state ≠ .ready then s
    else if !s.cwt.resident.contains i then (if q.stream.isEmpty then s else qpFetch s i)
    else
      let root (w : SendWr) : Bool := wrOp w.wr == Cw.mcast && w.fwd.isNone
      match q.stream.find? fun w => !w.started && !(bit q.mode 0 && root w && fenceHeld s q w) with
      | none => s
      | some w =>
        if root w then (if fenceHeld s q w then s else mcastRoot s i q w)
        else if !routeOk s q.peerNode then failWr s i q w Detail.CWT_NO_ROUTE
        else
          match (if w.fwd.isSome then none else localStop s w.wr) with
          | some dt => failWr s i q w dt
          | none =>
            let us := if w.fwd.isSome then [] else localBlocked s w.wr
            if !us.isEmpty then blockOn s us
            else
              let p := startMsg q w
              s.setQp i { p.1 with stream := p.1.stream.map fun x => if x.ord = w.ord then { x with started := true, msg := p.2 } else x }

/-- A request that has started and sent nothing ends where its peer can no longer be reached (R296). -/
def routeLost (s : State) (i : Nat) : State :=
  match s.qpAt i with
  | none => s
  | some q =>
    if routeOk s q.peerNode then s
    else
      (q.stream.filter fun w => w.started && !w.sentAny).foldl (fun s w =>
        match s.qpAt i with
        | some q => failWr s i q w Detail.CWT_NO_ROUTE
        | none => s) s

/-! ### The next new packet (R307, R317, R335, R346) -/

/-- The request whose packets a queue pair sends next: the first started one not yet sent; on a RELAXED queue pair a fenced one that is withheld does not hold back those after it (R320). -/
def nextWr (s : State) (q : Qp) : Option SendWr :=
  let strict := !bit q.mode 0
  match q.stream.find? fun w => w.started && !w.allSent && w.failed.isNone && (strict || !fenceHeld s q w) with
  | some w => if fenceHeld s q w then none else some w
  | none => none

/-- Bytes of a row of an LSEM contribution (R111) for a head-dimension code. -/
def lsemStride (hdim : Nat) : Nat := 4 * hdimOf hdim + 8

/-- How many bytes the next packet of a request carries: whole rows for LSEM (R348), else up to 8,704. -/
def pieceLen (w : SendWr) : Nat :=
  if w.fwd.isSome then w.data.length
  else
    let left := wrPayload w.wr - w.next
    let o := wrOperands w.wr
    if wrOp w.wr = Cw.reduce ∧ (o.getD 0 0).toNat = 5 then
      let st := lsemStride (leField o 7 1)
      min left (cwMax / st * st)
    else min left cwMax

/-- The packets a READ_REQ asks for when the window has room for `room` PSNs: its bytes, and its PSNs (R312, R317; log 51). -/
def readPiece_ (w : SendWr) (room : Nat) : Nat × Nat :=
  let len := min (wrLen w.wr - w.next) (room * cwMax)
  (len, max 1 ((len + cwMax - 1) / cwMax))

/-- The packet a queue pair would send next as new: the request, the bytes and PSNs it takes. -/
structure NewPkt where
  wr : SendWr
  len : Nat
  n : Nat
  units : Nat
  deriving DecidableEq, Repr

/-- PSNs that the window of R317 leaves. -/
def windowRoom (q : Qp) : Nat := 1024 - serDist q.sndNxt q.sndUna

/-- Requests of reads and atomics outstanding (MAX_RD). -/
def rdOutstanding (q : Qp) : Nat := q.unacked.countP fun t => t.op == Cw.readReq || t.op == Cw.atomic

/-- The bound of R346: some ATOMIC is unacknowledged with 255 or more sent after it, answered or not. -/
def atomicHeld (q : Qp) : Bool := q.unacked.any fun t => t.op == Cw.atomic && decide (255 ≤ q.atomSent - (t.atom + 1))

/-- The next new packet, its window and order allowing it; credit apart. -/
def newPkt (s : State) (q : Qp) : Option NewPkt :=
  match nextWr s q with
  | none => none
  | some w =>
    let o := wrOp w.wr
    let room := windowRoom q
    if room = 0 then none
    else if (o = Cw.readReq ∨ o = Cw.atomic) ∧ q.maxRd ≤ rdOutstanding q then none
    else if o = Cw.atomic ∧ atomicHeld q then none
    else if o = Cw.readReq then
      let p := readPiece_ w room
      some ⟨w, p.1, p.2, cwUnits o 0⟩
    else some ⟨w, pieceLen w, 1, cwUnits o (pieceLen w)⟩

/-- Whether a queue pair's credit covers a packet (R307). -/
def creditOk (q : Qp) (units : Nat) : Bool := serGe q.sndLimit ((q.sndUsed + units) % 2 ^ 32)

/-- Whether a queue pair has work and not enough credit (R310): a new packet, or one that a NAK_CREDIT has it send again. -/
def creditShort (s : State) (q : Qp) : Bool :=
  (q.unacked.any (·.creditWait)) ||
  match newPkt s q with
  | some p => !creditOk q p.units
  | none => false

/-! ### Building packets (R289, R293, R335) -/

/-- The extension of a request's packet (R335): `off` and `len` are the packet's bytes within the request. A work request names no lease (log 52). -/
def wrExt (w : SendWr) (off len : Nat) : List Byte :=
  let b := w.wr
  let o := wrOperands b
  let op := wrOp b
  if w.fwd.isSome then w.fwdExt
  else if op = Cw.write then leBytes 4 (wrKey b) ++ leBytes 4 0 ++ leBytes 8 (wrRemote b + off)
  else if op = Cw.readReq then leBytes 4 (wrKey b) ++ leBytes 4 len ++ leBytes 8 (wrRemote b + off) ++ leBytes 2 0 ++ leBytes 6 0
  else if op = Cw.atomic then
    leBytes 4 (wrKey b) ++ leBytes 1 (wrAop b) ++ leBytes 1 (wrWidth b) ++ leBytes 2 0 ++ leBytes 8 (wrRemote b) ++ fit 16 o
  else if op = Cw.reduce then
    let lsem := (o.getD 0 0).toNat = 5
    let row0 := leField o 8 2 + (if lsem then off / lsemStride (leField o 7 1) else 0)
    leBytes 4 (wrKey b) ++ (o.take 4) ++ leBytes 8 (wrRemote b + (if lsem then 0 else off)) ++ ((o.drop 4).take 4) ++ leBytes 2 row0 ++ leBytes 2 0
  else []

/-- The payload of a request's packet, read again at each transmission (R304). -/
def wrBytes (s : State) (w : SendWr) (off len : Nat) : List Byte :=
  if w.fwd.isSome then w.data else if wrOp w.wr = Cw.readReq then [] else s.opRd (wrLocal w.wr + off) len

/-- The traffic key of a queue pair's own direction, if its tenant key is usable (R293, R466). -/
def txKey (s : State) (q : Qp) : Option (List Byte) :=
  match keyUse s q.keySlot q.tenant false with
  | .ok e => some (e.wire q.salt q.selfNode q.qpn q.peerNode q.peerQp)
  | .error _ => none

/-- The traffic key of the peer's direction. -/
def rxKey (s : State) (q : Qp) (p : Packet) : Option (List Byte) :=
  match keyUse s q.keySlot q.tenant false with
  | .ok e => some (e.wire q.salt p.srcNode p.srcQp p.dstNode p.dstQp)
  | .error _ => none

/-- Seals a packet's payload under a fresh nonce (R293, R467); one with no payload is not sealed. -/
def sealPacket (s : State) (q : Qp) (op : Nat) (p : Packet) : Packet :=
  if p.payload.isEmpty then p
  else
    let p := { p with flags := p.flags ||| 32 }
    let key := (txKey s q).getD []
    let nonce := cwNonce p.srcNode p.srcQp p.psn (pkAttempt p) op
    let ct := fit p.payload.length (gcmSeal key nonce p.payload)
    { p with payload := ct, tag := fit 16 (gcmTag key nonce (pkAad p op) ct) }

/-- The packet of a PSN of a request. -/
def txBuild (s : State) (q : Qp) (w : SendWr) (t : TxPkt) : Packet :=
  sealPacket s q t.op
    { port := 0, sec := none, sizesOk := true, ce := false, flags := t.flags, srcNode := q.selfNode, dstNode := q.peerNode, dstQp := q.peerQp,
      srcQp := q.qpn, psn := t.psn, ackPsn := q.rcvNxt, epoch := s.r Reg.MGT_MAP_EPOCH_EPOCH, msg := w.msg * 256 + t.attempt,
      ext := wrExt w t.off t.len, payload := wrBytes s w t.off t.len, tag := [] }

/-- How often the response of a PSN has been sent: the ATTEMPT of the next (R293). -/
def Qp.respAttempt (q : Qp) (psn : Nat) : Nat := amGetD psn 0 q.respSent

/-- The packet of a response (R335, R367); one sent again, for a repeated request, has an ATTEMPT of its own and so a fresh nonce (R293, R467). -/
def respBuild (s : State) (q : Qp) (r : TxResp) : Packet :=
  sealPacket s q r.op
    { port := 0, sec := none, sizesOk := true, ce := false, flags := 0, srcNode := q.selfNode, dstNode := q.peerNode, dstQp := q.peerQp, srcQp := q.qpn,
      psn := r.psn, ackPsn := q.rcvNxt, epoch := s.r Reg.MGT_MAP_EPOCH_EPOCH, msg := q.respAttempt r.psn % 256, ext := r.ext, payload := r.payload, tag := [] }

/-! ### What a queue pair offers the egress arbiter -/

/-- What a queue pair would send: a retransmission, a response, or a new packet; on a path, with its frame's bytes. -/
inductive Sendable where
  | again (t : TxPkt) (path frame : Nat)
  | resp (r : TxResp) (path frame : Nat)
  | fresh (p : NewPkt) (path frame : Nat)
  deriving DecidableEq, Repr

def Sendable.path : Sendable → Nat
  | .again _ p _ => p | .resp _ p _ => p | .fresh _ p _ => p
def Sendable.frame : Sendable → Nat
  | .again _ _ f => f | .resp _ _ f => f | .fresh _ _ f => f

/-- The port that a path to a queue pair's peer leads to (R311). -/
def portOf (s : State) (q : Qp) (path : Nat) : Option Nat := (pathPort s (nodeEnt s q.peerNode) path).map (·.1)

/-- The frame length of a packet with given extension and payload, sent on a path (R369): a port with MACsec adds its 32 bytes (R536). -/
def pktFrame (s : State) (q : Qp) (path ext payload : Nat) : Nat :=
  frameLen (nodeEnt s q.peerNode) ext payload (payload != 0)
  + (match portOf s q path with | some p => if s.r (Reg.CWT_PORT_CFG_MACSEC.at 0x100 p) = 1 then 32 else 0 | none => 0)

/-- Extension bytes of a request's packet. -/
def extLen (op : Nat) : Nat :=
  if op = Cw.write ∨ op = Cw.mcast ∨ op = Cw.atomicResp then 16 else if op = Cw.readReq ∨ op = Cw.reduce then 24
  else if op = Cw.atomic then 32 else 0

/-- What a queue pair would send next, its shapers apart: a retransmission that is due first, then a response, then a new packet with credit. -/
def sendable (s : State) (q : Qp) : Option Sendable :=
  match q.unacked.find? (·.due) with
  | some t => let path := freePath s q.peerNode (t.path + 1)
    some (.again t path (pktFrame s q path (extLen t.op) (if t.op = Cw.readReq then 0 else t.len)))
  | none =>
    let path := rotorPath s q.peerNode
    match q.resp with
    | r :: _ => some (.resp r path (pktFrame s q path r.ext.length r.payload.length))
    | [] =>
      match newPkt s q with
      | some p =>
        if creditOk q p.units then
          some (.fresh p path (pktFrame s q path (extLen (wrOp p.wr.wr)) (if wrOp p.wr.wr = Cw.readReq then 0 else p.len)))
        else none
      | none => none

/-- Whether a queue pair takes part in sending: in READY, DRAINING, and on die. -/
def sends (s : State) (i : Nat) (q : Qp) : Bool := (q.state == .ready || q.state == .draining) && s.cwt.resident.contains i

/-- Where a queue pair stands with the arbiter and its shapers: a packet that passes every gate waits from now on (R370), one that its shapers hold is placed on a wheel (R373). -/
def qpGate (s : State) (i : Nat) : State :=
  match s.qpAt i with
  | none => s
  | some q =>
    if amHas i s.cwt.wheel then s
    else if !sends s i q || (sendable s q).isNone then s.setQp i { q with waitSince := none }
    else
      let s := (qpShapers s q).foldl shpConsult s
      if shpEligible s q then s.setQp i { q with waitSince := some (q.waitSince.getD s.now) } else wheelPlace s i q s.now

/-- After an event of a queue pair: entries posted are taken, what can no longer be sent ends (R296), a credit request goes out where credit is short (R310), and its place at the arbiter is kept. -/
def qpSettle (s : State) (i : Nat) : State :=
  let s := routeLost (sqRun s i) i
  match s.qpAt i with
  | none => s
  | some q =>
    if !sends s i q then s
    else
      let s :=
        if creditShort s q && q.creditAt.isNone then
          sendOnRotor (s.setQp i { q.count 0 with creditAt := some s.now }) Cw.creditReq q.dscp (ctlPacket s q q.sndNxt q.rcvNxt 16 [])
        else s
      qpGate s i

/-- The multicasts posted at this node's root whose branches have all answered (R351): their requests take their bytes or their failure, and end with the last of them. -/
def rootSettle (s : State) : State :=
  s.rm.mcasts.foldl (fun s e =>
    match e.2.owner, e.2.outcome s with
    | .root i ord, some o =>
      let s := { s with rm := { s.rm with mcasts := amErase e.1 s.rm.mcasts } }
      let upd (w : SendWr) : SendWr :=
        if w.ord = ord then
          (if o.1 = 0 then { w with bytes := w.bytes + e.2.bytes } else { w with failed := if w.failed.isSome then w.failed else some o })
        else w
      let s := s.modQp i fun q => { q with stream := q.stream.map upd }
      if s.rm.mcasts.any (fun m => decide (m.2.owner = .root i ord)) then s
      else
        (match s.qpAt i with
         | some q =>
           (match q.stream.find? fun (w : SendWr) => w.ord == ord with
            | some w => finishWr s i q w
            | none => s)
         | none => s)
    | _, _ => s) s

/-- WORK_REQUEST_START (R303). -/
def workRequestStart (s : State) (i : Nat) : State := qpSettle (rootSettle (wrStart s i)) i

def execWorkRequestStart (index : Nat) (s : State) : Host.Outcome State Fault Refusal := nextOf s (workRequestStart s index)

/-! ### The egress arbiter (R189, R190) -/

/-- A queue pair's offer at a port: index, tenant, class, frame bytes and when it began to wait. -/
structure EgrOffer where
  qp : Nat
  tenant : Nat
  cls : Nat
  cost : Nat
  since : Nat
  what : Sendable
  deriving DecidableEq, Repr

/-- The queue pairs with an eligible packet for a port (R311, R370), by the TOKENS at the start of the cycle: those on a wheel wait, but for one that a charge of this very cycle has put there. -/
def portOffers (s : State) (port : Nat) : List EgrOffer :=
  s.cwt.qps.filterMap fun e =>
    let held := match amGet e.1 s.cwt.wheel with
      | some w => !(w.since == s.now && s.cwt.cycle.1 == s.now)
      | none => false
    if !sends s e.1 e.2 || held || !(qpShapers s e.2).all (shpOpen s) then none
    else
      match sendable s e.2 with
      | none => none
      | some w =>
        match pathPort s (nodeEnt s e.2.peerNode) w.path with
        | some (p, _) => if p = port then some ⟨e.1, e.2.tenant, e.2.cls, w.frame, e.2.waitSince.getD s.now, w⟩ else none
        | none => none

/-- The egress quantum in bytes (SCH_ARB_Q.EGR_Q). -/
def egrQ (s : State) : Nat := max 1 (s.r Reg.SCH_ARB_Q_EGR_Q) * 1024

/-- Where the arbiters of a port stand: tenants, the classes of a tenant, the queue pairs of a class. -/
def arbTenants (port : Nat) : Nat := port
def arbClasses (port t : Nat) : Nat := 2 ^ 8 + (port * 2 ^ 20 + t) * 16
def arbQps (port t c : Nat) : Nat := arbClasses port t + 1 + c

def egrArb (s : State) (k : Nat) : Arb := amGetD k Arb.empty s.cwt.arbs

/-- One arbiter's choice among inputs that each offer an item of the level beneath. -/
def egrPick (s : State) (k : Nat) (subs : List (Offer × EgrOffer × AMap Arb)) : Option (Offer × EgrOffer × AMap Arb × Bool) :=
  match (egrArb s k).select (subs.map (·.1)) (egrQ s) (arbAge s) s.now with
  | none => none
  | some (o, a, aged) => (subs.find? fun b => b.1.input == o.input).map fun b => (o, b.2.1, amSet k a b.2.2, aged)

/-- The packet the arbiter of a port chooses (R189): tenants, then classes, then queue pairs; each input offers what the arbiter beneath it chose. -/
def egrChoose (s : State) (port : Nat) : Option (EgrOffer × State) :=
  let os := portOffers s port
  let tenants := (os.map (·.tenant)).eraseDups
  let perTenant := tenants.filterMap fun t =>
    let ot := os.filter fun o => o.tenant == t
    let perClass := ((ot.map (·.cls)).eraseDups).filterMap fun c =>
      let oc := ot.filter fun o => o.cls == c
      (egrPick s (arbQps port t c) (oc.map fun o => (⟨o.qp, 1, o.cost, o.since⟩, o, []))).map fun r =>
        ((⟨c, oc.length, r.2.1.cost, r.2.1.since⟩ : Offer), r.2.1, r.2.2.1)
    (egrPick s (arbClasses port t) perClass).map fun r => ((⟨t, ot.length, r.2.1.cost, r.2.1.since⟩ : Offer), r.2.1, r.2.2.1)
  match egrPick s (arbTenants port) perTenant with
  | none => none
  | some (_, o, arbs, aged) =>
    let s := { s with cwt := { s.cwt with arbs := arbs.foldl (fun m e => amSet e.1 e.2 m) s.cwt.arbs } }
    some (o, if aged then s.wrap (Reg.SCH_ARB_AGED_ITEMS.at 4 3) 1 else s)

/-! ### PACKET_TRANSMIT -/

/-- Sends a new packet of a request (R307, R317). A queue pair that has sent 4,294,901,760 new PSNs enters ERROR (R468). -/
def sendFresh (s : State) (i : Nat) (q : Qp) (p : NewPkt) (path : Nat) : State :=
  if 4294901760 ≤ q.newSent then qpError s i Detail.KEY_NONCE_LIMIT
  else
    let w := p.wr
    let op := wrOp w.wr
    let total := if w.fwd.isSome then w.data.length else if op = Cw.readReq then wrLen w.wr else wrPayload w.wr
    let last := decide (total ≤ w.next + p.len)
    let flags := if w.fwd.isSome then w.fwdFlags + 4 * b2n (bit w.fwdFlags 1) + 16
      else b2n (w.next == 0) + 2 * b2n last + 4 * b2n last + 8 * b2n (wrFence w.wr) + 16
    let t : TxPkt := { psn := q.sndNxt, n := p.n, op := op, flags := flags, ord := w.ord, off := w.next, len := p.len, units := p.units, attempt := 0,
                       path := path, first := s.now, last := s.now, doublings := 0, due := false, dueAt := 0, sacked := false, creditWait := false,
                       rnrAt := none, rnrSeen := false, got := [], atom := q.atomSent }
    let w' := { w with next := w.next + p.len, allSent := last, sentAny := true }
    let q := { q with
      sndNxt := (q.sndNxt + p.n) % 2 ^ 32, sndUsed := (q.sndUsed + p.units) % 2 ^ 32, newSent := q.newSent + p.n, atomSent := if op = Cw.atomic then q.atomSent + 1 else q.atomSent,
      unaTime := if q.unacked.isEmpty then s.now else q.unaTime, unacked := q.unacked ++ [t],
      stream := q.stream.map fun x => if x.ord = w.ord then w' else x, waitSince := none }
    let s := { s with cwt := { s.cwt with rotor := amSet q.peerNode ((path + 1) % 32) s.cwt.rotor } }
    sendPacket (s.setQp i (q.count 0)) op q.dscp path (txBuild s q w t)

/-- The part of a READ_REQ not yet answered, as bytes (offset and length within the request), with its first PSN (R313). -/
def readMissing (t : TxPkt) : Nat × Nat × Nat :=
  let miss := (List.range t.n).filter fun k => !t.got.contains k
  let a := miss.headD 0
  let b := miss.getLastD 0
  (t.psn + a, t.off + a * cwMax, min t.len ((b + 1) * cwMax) - a * cwMax)

/-- Sends a PSN again (R313): the next ATTEMPT on the next path; an ATTEMPT beyond 255 is not sent (R468). -/
def sendAgain (s : State) (i : Nat) (q : Qp) (t : TxPkt) (path : Nat) : State :=
  if 255 ≤ t.attempt then qpError (setEvent s Reg.CWT_QP_EVENT_GIVE_UP 1) i Detail.CWT_GIVE_UP
  else
    match q.stream.find? fun w => w.ord == t.ord with
    | none => s.setQp i { q with unacked := q.unacked.filter fun (x : TxPkt) => x.psn != t.psn }
    | some w =>
      let t := { t with attempt := t.attempt + 1, path := path, last := s.now, due := false, creditWait := false, rnrAt := none }
      let q := { q with unacked := q.unacked.map fun (x : TxPkt) => if x.psn = t.psn then t else x, waitSince := none }
      let q := (q.count 0).count 2
      let m := readMissing t
      let u := if t.op = Cw.readReq then { t with psn := m.1 % 2 ^ 32, off := m.2.1, len := m.2.2 } else t
      sendPacket (s.setQp i q) t.op q.dscp path (txBuild s q w u)

/-- Whether what a queue pair would send carries a payload, and so is sealed (R293). -/
def sendSealed (s : State) (q : Qp) (x : Sendable) : Bool :=
  match x with
  | .again t _ _ =>
    match q.stream.find? fun w => w.ord == t.ord with
    | some w => !(wrBytes s w t.off t.len).isEmpty
    | none => false
  | .resp r _ _ => !r.payload.isEmpty
  | .fresh p _ _ => !(wrBytes s p.wr p.wr.next p.len).isEmpty

/-- The detail with which the Keyhouse refuses to seal what a queue pair would send, if it does (R455, R462, R478). -/
def sealRefused (s : State) (q : Qp) (x : Sendable) : Option Nat :=
  if sendSealed s q x then
    match keyUse s q.keySlot q.tenant false with
    | .ok _ => none
    | .error e => some e.2
  else none

/-- The arbiters of a port once it has taken a packet: inputs with nothing left to offer are idle and leave (R190). -/
def egrSettle (s : State) (port : Nat) (o : EgrOffer) : State :=
  let os := portOffers s port
  let ot := os.filter fun x => x.tenant == o.tenant
  let settle (k : Nat) (left : List Nat) (m : AMap Arb) : AMap Arb := amMod k (fun a => a.settle left) m
  let arbs := settle (arbTenants port) (os.map (·.tenant)) (settle (arbClasses port o.tenant) (ot.map (·.cls))
    (settle (arbQps port o.tenant o.cls) ((ot.filter fun x => x.cls == o.cls).map (·.qp)) s.cwt.arbs))
  { s with cwt := { s.cwt with arbs := arbs } }

/-- Sends a response (R293, R311, R367); one whose ATTEMPT would exceed 255 is not sent (R468). -/
def sendResp (s : State) (i : Nat) (q : Qp) (r : TxResp) (path : Nat) : State :=
  if 255 < q.respAttempt r.psn then qpError (setEvent s Reg.CWT_QP_EVENT_GIVE_UP 1) i Detail.CWT_GIVE_UP
  else
    let s := { s with cwt := { s.cwt with rotor := amSet q.peerNode ((path + 1) % 32) s.cwt.rotor } }
    sendPacket (s.setQp i { q.count 0 with resp := q.resp.drop 1, respSent := amSet r.psn (q.respAttempt r.psn + 1) q.respSent, waitSince := none })
      r.op q.dscp path (respBuild s q r)

/-- The detail with which the bytes of a request's packet cannot be read again from LOCAL (R389, R396, R445). -/
def sendStopped (s : State) (q : Qp) (x : Sendable) : Option Nat :=
  let stop (w : SendWr) (off len : Nat) : Option Nat :=
    if w.fwd.isSome || wrOp w.wr == Cw.readReq || len == 0 then none
    else if doubleLost s (wrLocal w.wr + off) len then some Detail.CP_DOUBLE else memTrouble s (wrLocal w.wr + off) len
  match x with
  | .again t _ _ => (q.stream.find? fun w => w.ord == t.ord).bind fun w => stop w t.off t.len
  | .resp _ _ _ => none
  | .fresh p _ _ => stop p.wr p.wr.next p.len

/-- What becomes of a packet whose bytes cannot be read: a new one's request fails and sends no more; a PSN that the peer waits for cannot be sent again, and the queue pair enters ERROR (log 162). -/
def sendFails (s : State) (i : Nat) (q : Qp) (x : Sendable) (dt : Nat) : State :=
  match x with
  | .fresh p _ _ =>
    if q.unacked.any fun t => t.ord == p.wr.ord then
      s.setQp i { q with stream := q.stream.map fun w => if w.ord = p.wr.ord then { w with failed := some (Status.fenced.code, dt) } else w }
    else failWr s i q p.wr dt
  | _ => qpError s i dt

/-- Every queue pair whose packet the charge of another's leaves below 0 is placed on a wheel (R373). -/
def wheelAll (s : State) (ks : List Nat) : State :=
  s.cwt.qps.foldl (fun s e => if (qpShapers s e.2).any (ks.contains ·) then qpGate s e.1 else s) s

/-- CWT_SHP_CFG.ENABLE goes to 0: every queue pair is unshaped, and those held go to the arbiter (R367). -/
def shapingOff (s : State) : State :=
  let held := s.cwt.wheel.map (·.1)
  let s := s.cwt.blocked.foldl (fun s e => shpBlocked s e.1) s
  let s := { s with cwt := { s.cwt with blocked := [], wheel := [] } }
  wheelRegs (held.foldl qpGate s)

/-- PACKET_TRANSMIT (R307, R369, R370): the egress arbiter of a port chooses a packet, which is charged to its shapers and sent. Where its key is refused nothing is sent and the queue pair enters ERROR (log 53). -/
def packetTransmit (s : State) (port : Nat) : State :=
  let s := cycleStep (s.cwt.qps.foldl (fun s e => routeLost s e.1) s) port
  let s := s.cwt.qps.foldl (fun s e => (qpShapers s e.2).foldl shpConsult s) s
  match egrChoose s port with
  | none => s
  | some (o, s) =>
    match s.qpAt o.qp with
    | none => s
    | some q =>
      match sealRefused s q o.what, sendStopped s q o.what with
      | some d, _ => qpError s o.qp d
      | none, some d => egrSettle (qpSettle (sendFails s o.qp q o.what d) o.qp) port o
      | none, none =>
      let s := qpTouch (shpCharge s q o.cost) o.qp
      let s := match o.what with
        | .again t path _ => sendAgain s o.qp q t path
        | .resp r path _ => sendResp s o.qp q r path
        | .fresh p path _ => sendFresh s o.qp q p path
      egrSettle (wheelAll (qpSettle s o.qp) (qpShapers s q)) port o

def execPacketTransmit (port : Nat) (s : State) : Host.Outcome State Fault Refusal := withUnit s (port < 8) (packetTransmit s port)

/-! ### Retransmission timers (R310, R311, R313) -/

/-- The oldest PSN not acknowledged, and when it first went out. -/
def unaOf (q : Qp) : Qp :=
  match q.unacked with
  | [] => { q with sndUna := q.sndNxt, unaTime := 0 }
  | t :: _ => if q.sndUna = t.psn then q else { q with sndUna := t.psn, unaTime := t.first }

/-- RTO_EXPIRY (R310, R311, R313): the PSN is due again, its RTO doubles, and its path is held; or a credit request is sent again. -/
def rtoExpiry (s : State) (i psn : Nat) : State :=
  match s.qpAt i with
  | none => s
  | some q =>
    match q.unacked.find? fun t => t.psn == psn && !t.due && !t.sacked && !t.creditWait && t.rnrAt.isNone with
    | some t =>
      if t.last + rtoNs s q * 2 ^ t.doublings ≤ s.now then
        let s := clearHolds { s with cwt := { s.cwt with holds := amSet (32 * q.peerNode + t.path) (s.now + pathHoldNs s) s.cwt.holds } } q.peerNode
        let q := { q with unacked := q.unacked.map fun (x : TxPkt) => if x.psn = psn then { x with due := true, dueAt := s.now, doublings := x.doublings + 1 } else x }
        qpSettle ((s.setQp i q).cnt Reg.CWT_RETX_TIMEOUT 1) i
      else s
    | none =>
      match q.creditAt with
      | some at_ => if at_ + rtoNs s q ≤ s.now then qpSettle (s.setQp i { q with creditAt := none }) i else s
      | none => s

def execRtoExpiry (index psn : Nat) (s : State) : Host.Outcome State Fault Refusal := nextOf s (rtoExpiry s index psn)

/-- GIVE_UP (R313): SND_UNA has gone unacknowledged for the give-up time. -/
def giveUp (s : State) (i : Nat) : State :=
  match s.qpAt i with
  | none => s
  | some q =>
    match q.unacked with
    | [] => s
    | t :: _ =>
      if (q.state = .ready ∨ q.state = .draining) ∧ q.unaTime + giveUpNs s ≤ s.now then
        qpError (setEvent s Reg.CWT_QP_EVENT_GIVE_UP 1) i (if t.rnrSeen then Detail.CWT_RNR else Detail.CWT_GIVE_UP)
      else s

def execGiveUp (index : Nat) (s : State) : Host.Outcome State Fault Refusal := nextOf s (giveUp s index)

/-- ACK_DELAY_EXPIRY (R312). -/
def ackDelayExpiry (s : State) (i : Nat) : State :=
  match s.qpAt i with
  | none => s
  | some q => if 0 < q.toAck ∧ q.toAckAt + ackDelayNs s ≤ s.now then sendAck s i else s

def execAckDelayExpiry (index : Nat) (s : State) : Host.Outcome State Fault Refusal := nextOf s (ackDelayExpiry s index)

/-- PATH_HOLD_EXPIRY (R311). -/
def pathHoldExpiry (s : State) (node path : Nat) : State :=
  match amGet (32 * node + path) s.cwt.holds with
  | some t => if path < 32 ∧ t ≤ s.now then { s with cwt := { s.cwt with holds := amErase (32 * node + path) s.cwt.holds } } else s
  | none => s

def execPathHoldExpiry (node path : Nat) (s : State) : Host.Outcome State Fault Refusal := nextOf s (pathHoldExpiry s node path)

/-- RNR_RETRY (R326): a SEND answered NAK_RNR is due again after RNR_US. -/
def rnrRetry (s : State) (i psn : Nat) : State :=
  match s.qpAt i with
  | none => s
  | some q =>
    let go (t : TxPkt) : Bool := t.psn == psn && (match t.rnrAt with | some at_ => decide (at_ ≤ s.now) | none => false)
    qpSettle (s.setQp i { q with unacked := q.unacked.map fun t => if go t then { t with due := true, dueAt := s.now, rnrAt := none } else t }) i

def execRnrRetry (index psn : Nat) (s : State) : Host.Outcome State Fault Refusal := nextOf s (rnrRetry s index psn)

/-! ### Acknowledgement (R312, R313) -/

/-- A request that has failed or been sent whole, with nothing outstanding, ends: its completion, or the outcome of its branch. -/
def settleWr (s : State) (i ord : Nat) : State :=
  match s.qpAt i with
  | none => s
  | some q =>
    match q.stream.find? fun w => w.ord == ord with
    | none => s
    | some w =>
      if (w.allSent || w.failed.isSome) && !q.unacked.any fun t => t.ord == ord then
        match w.fwd with
        | some f =>
          let e := w.failed.getD (0, 0)
          setBranch (s.setQp i { q with stream := q.stream.filter fun x => x.ord != ord }) f.1 f.2 e.1 e.2
        | none => finishWr s i q w
      else s

/-- PSNs answered: they leave the list of those outstanding, and their bytes count as performed where they were; `fail` is the status and detail of a refusal. -/
def txDone (s : State) (i : Nat) (ts : List TxPkt) (fail : Option (Nat × Nat)) (result : Option Nat) : State :=
  match s.qpAt i with
  | none => s
  | some q =>
    let gone (t : TxPkt) : Bool := ts.any fun x => x.psn == t.psn
    let upd (w : SendWr) : SendWr :=
      let mine := ts.filter fun t => t.ord == w.ord
      if mine.isEmpty then w
      else
        let w := { w with bytes := w.bytes + mine.foldl (fun (n : Nat) (t : TxPkt) => n + if fail.isNone then t.len else t.gotBytes) 0, result := result.getD w.result }
        { w with failed := if w.failed.isSome then w.failed else fail }
    let q := unaOf { q with unacked := q.unacked.filter fun t => !gone t, stream := q.stream.map upd }
    ((ts.map (·.ord)).eraseDups).foldl (fun s o => settleWr s i o) (s.setQp i q)

/-- A round-trip sample (R313): from the latest PSN acknowledged that was sent only once. -/
def rttSample (s : State) (q : Qp) (ts : List TxPkt) : Qp :=
  match (ts.filter fun t => t.attempt == 0).getLast? with
  | none => q
  | some t =>
    let r := Config.rttStep q.srtt q.rttvar (s.now - t.first)
    { q with srtt := max 1 (r.1 % 2 ^ 32), rttvar := r.2 % 2 ^ 32 }

/-- Whether an acknowledgement by PSN alone ends a packet: a READ_REQ and an ATOMIC wait for their responses (R312, R345). -/
def ackEnds (t : TxPkt) : Bool := t.op != Cw.readReq && t.op != Cw.atomic

/-- Everything before ACK_PSN has been performed (R312). -/
def takeAckPsn (s : State) (i ackPsn : Nat) : State :=
  match s.qpAt i with
  | none => s
  | some q =>
    if serDist ackPsn q.sndUna ≤ serDist q.sndNxt q.sndUna then
      let ts := q.unacked.filter fun t => ackEnds t && decide (serDist t.psn q.sndUna < serDist ackPsn q.sndUna)
      txDone (s.setQp i (rttSample s q (ts.filter (!·.sacked)))) i ts none none
    else s

/-- A grant (R306 to R308): the limit advances, and what waited for it is due. -/
def takeGrant (s : State) (i limit : Nat) : State :=
  match s.qpAt i with
  | none => s
  | some q =>
    if limit ≠ q.sndLimit ∧ serGe limit q.sndLimit then
      s.setQp i { q with sndLimit := limit, creditAt := none,
                         unacked := q.unacked.map fun t => if t.creditWait then { t with creditWait := false, due := true, dueAt := s.now } else t }
    else s

/-- A SACK (R313, R318): what it covers is acknowledged, and measured, but not done with until ACK_PSN passes it; a PSN it shows missing, with at least 8 later ones present and never sent again, is due (fast retransmit). -/
def takeSack (s : State) (i ackPsn : Nat) (sack : Nat) : State :=
  match s.qpAt i with
  | none => s
  | some q =>
    let has (psn : Nat) : Bool :=
      let k := serDist psn (ackPsn + 1)
      decide (k < 256) && bit sack k
    let later (psn : Nat) : Nat := ((List.range 256).filter fun k => bit sack k && decide (serDist psn ackPsn < k + 1)).length
    let fast (t : TxPkt) : Bool := !has t.psn && !t.sacked && t.attempt == 0 && !t.due && !t.creditWait && t.rnrAt.isNone
      && decide (serDist t.psn ackPsn < 256) && decide (8 ≤ later t.psn)
    let n := (q.unacked.filter fast).length
    let q := rttSample s q (q.unacked.filter fun t => has t.psn && ackEnds t && !t.sacked)
    let f (t : TxPkt) : TxPkt :=
      if has t.psn && ackEnds t then { t with sacked := true, due := false } else if fast t then { t with due := true, dueAt := s.now } else t
    (s.setQp i { q with unacked := q.unacked.map f }).cnt Reg.CWT_RETX_FAST n

end Sys2Proof.Machine
end

