-- ==== Sys2Proof/Machine/Ingress.lean ====
section
/-! DEFINITION. The receiving side of Celwald transport: the checks of R297, duplicates (R316, R345), the receive map and order (R318, R319), the operations performed at their home (R334 to R348, R350, R351, R356 to R363), answers (R326), and what a sender does with acknowledgements, NAKs and responses. -/

namespace Sys2Proof.Machine

/-! ### Step 3: node, epoch and MACsec (R386, R419, R536) -/

/-- The packets accepted whatever their epoch for their opcode (R419). -/
def anyEpoch (op : Nat) : Bool := op == Cw.ack || op == Cw.nak || op == Cw.creditReq || op == Cw.readResp || op == Cw.atomicResp

/-- Whether a packet belongs to a work request whose FIRST packet has been performed (R419). -/
def begunHere (s : State) (p : Packet) : Bool :=
  match s.qp p.dstQp with
  | some (_, q) => q.begun.contains (pkMseq p)
  | none => false

/-- MACsec on receive (R536): with it on, a frame needs a SecTAG of a valid slot and a PN above the last accepted. -/
def macsecPass (s : State) (p : Packet) : Option State :=
  if s.r (Reg.CWT_PORT_CFG_MACSEC.at 0x100 p.port) = 0 then some s
  else
    match p.sec with
    | none => none
    | some (an, pn) =>
      let a := saSlot s p.port an
      if an < 2 ∧ a.valid ∧ a.rxPn < pn then some (setSa s p.port an { a with rxPn := pn }) else none

/-! ### The miss queue (R325) -/

/-- Bytes of a packet from its header to its trailer. -/
def pkBytes (p : Packet) : Nat := 32 + p.ext.length + p.payload.length + (if pkSealed p then 16 else 0) + 4

/-- Bytes the miss queue holds. -/
def missBytes (s : State) : Nat := s.cwt.missq.foldl (fun n m => n + m.bytes) 0

/-- CWT_MISSQ follows the miss queue. -/
def missRegs (s : State) : State :=
  let n := (missBytes s + 65535) / 65536
  (s.setR Reg.CWT_MISSQ_NOW_64K n).setR Reg.CWT_MISSQ_PEAK_64K (max n (s.r Reg.CWT_MISSQ_PEAK_64K))

/-- Parks a packet whose context is not on die, and fetches the context; a full queue drops it. -/
def park (s : State) (op : Nat) (p : Packet) (old : Bool) : State :=
  let n := pkBytes p
  if 16777216 < missBytes s + n then setEvent (s.cnt Reg.CWT_DROP_MISSQ_PACKETS 1) Reg.CWT_QP_EVENT_MISSQ_DROP 1
  else qpFetch (missRegs { s with cwt := { s.cwt with missq := s.cwt.missq ++ [⟨op, p, old, n, s.now⟩] } }) (p.dstQp % 2 ^ 24)

/-! ### NAKs that carry no stated STATUS (R326) -/

/-- A NAK whose STATUS the spec does not state: a free value. -/
def nakOpen (s : State) (i code psn : Nat) : State := sendNak s.takeFree i code (Config.freeNat s.free % 10) 0 psn

/-- A fatal NAK: the receiver's own queue pair enters ERROR (R326). -/
def fatalNak (s : State) (i code psn dt : Nat) : State := qpError (nakOpen s i code psn) i dt

/-- The scale-book record of a NAK_AUTH on either side, and the event (R326). -/
def authNote (s : State) (i : Nat) : State :=
  setEvent (scbNote s (faultRec Src.celwald Act.recorded 6 (i % 65536) Status.fenced.code Detail.CWT_AUTH)) Reg.CWT_QP_EVENT_AUTH 1

/-! ### Step 7: formats (R292, R312, R326, R335, R339 to R341, R347) -/

/-- Whether an AOP carries a payload, and of which lengths (R340, R341). -/
def aopPayload (aop n : Nat) : Bool :=
  if aop = 0x10 then decide (1 ≤ n) else if aop = 0x11 then n == 16 else if aop = 0x20 then n == 64 else n == 0

/-- Whether an operand's bits above the width of an arithmetic atomic are zero (R340). -/
def aopOperandsOk (aop width x y : Nat) : Bool :=
  decide (0x10 ≤ aop) || (decide (x < 2 ^ aopBits width) && decide (y < 2 ^ aopBits width))

/-- Whether extension and payload have the form of the opcode. -/
def pkFormOk (op : Nat) (p : Packet) : Bool :=
  let e := p.ext
  let n := p.payload.length
  decide (p.flags < 64) && (pkSealed p == (n != 0)) &&
  (if op = Cw.send then e.isEmpty
   else if op = Cw.write then e.length == 16
   else if op = Cw.readReq then e.length == 24 && n == 0 && decide (1 ≤ leField e 4 4) && decide (leField e 4 4 ≤ 2 ^ 31) && allZero (e.drop 0x12)
   else if op = Cw.readResp then e.isEmpty || e.length == 64
   else if op = Cw.atomic then
     e.length == 32 && aopAllowed (leField e 4 1) (leField e 5 1) && leField e 6 2 == 0 && aopPayload (leField e 4 1) n
     && aopOperandsOk (leField e 4 1) (leField e 5 1) (leField e 0x10 8) (leField e 0x18 8)
   else if op = Cw.atomicResp then e.length == 16 && n == 0 && allZero ((e.drop 2).take 6)
   else if op = Cw.reduce then
     e.length == 24 && leField e 0x16 2 == 0 &&
     (if leField e 4 1 = 5 then
        leField e 5 1 == 0 && hdimOf (leField e 0x13 1) != 0 && n != 0 && n % lsemStride (leField e 0x13 1) == 0
      else
        ropAllowed (leField e 4 1) (leField e 5 1) && leField e 6 2 == 0 && allZero (e.drop 0x10) && n % dtypeBytes (leField e 5 1) == 0)
   else if op = Cw.mcast then e.length == 16 && allZero ((e.drop 3).take 5)
   else if op = Cw.ack then e.length == 40 && n == 0 && leField e 4 4 == 0
   else if op = Cw.nak then e.length == 8 && n == 0
   else e.isEmpty && n == 0)

/-- Whether an opcode is defined (R292). -/
def cwKnown (op : Nat) : Bool := (decide (1 ≤ op) && decide (op ≤ 8)) || op == Cw.ack || op == Cw.nak || op == Cw.creditReq

/-! ### The receive map (R316, R318) -/

/-- How many PSNs a packet takes: those of a READ_REQ are its responses' (R312, R336). -/
def rxSpan (op : Nat) (p : Packet) : Nat :=
  if op = Cw.readReq then
    let len := leField p.ext 4 4
    let slot := 64 * leField p.ext 0x10 2
    if slot = 0 then max 1 ((len + cwMax - 1) / cwMax)
    else
      let per (n : Nat) : Nat := max 1 ((n - 64 + cwMax - 1) / cwMax)
      len / slot * per slot + (if len % slot = 0 then 0 else per (len % slot))
  else 1

/-- Whether a PSN lies in the receive map: accepted, and at or beyond RCV_NXT. -/
def inRx (q : Qp) (psn : Nat) : Option RxPkt := q.rx.find? fun e => decide (serDist psn e.psn < e.n)

/-- A duplicate (R316): below RCV_NXT, or in the receive map. -/
def isDup (q : Qp) (psn : Nat) : Bool := decide (2 ^ 31 ≤ serDist psn q.rcvNxt) || (inRx q psn).isSome

/-- Inserts an accepted packet in PSN order. -/
def rxInsert (base : Nat) (x : RxPkt) : List RxPkt → List RxPkt
  | [] => [x]
  | y :: l => if serDist x.psn base < serDist y.psn base then x :: y :: l else y :: rxInsert base x l

/-- RCV_NXT passes the packets performed; one with LAST ends its work request here (R333, R419). -/
def rxAdvance (s : State) (i : Nat) : Nat → State
  | 0 => s
  | k + 1 =>
    match s.qpAt i with
    | none => s
    | some q =>
      match q.rx with
      | [] => s
      | x :: rest =>
        if x.psn = q.rcvNxt ∧ x.stage = .done then
          let m := pkMseq x.pkt
          let last := pkLast x.pkt
          let s := s.setQp i { q with rcvNxt := (q.rcvNxt + x.n) % 2 ^ 32, rx := rest,
                                      begun := if last then q.begun.filter (· ≠ m) else q.begun }
          let held := s.rm.regions.any fun e => e.2.openWrs.contains (i, m)
          let s :=
            if last && held then
              let s := { s with rm := { s.rm with regions := amMap (fun _ (r : Region) => { r with openWrs := r.openWrs.filter fun w => w != (i, m) }) s.rm.regions } }
              s.rm.regions.foldl (fun s e => if e.2.closing then regionFreed s e.1 else s) s
            else s
          rxAdvance s i k
        else s

/-- Changes an accepted packet. -/
def rxMod (s : State) (i psn : Nat) (f : RxPkt → RxPkt) : State :=
  s.modQp i fun q => { q with rx := q.rx.map fun (x : RxPkt) => if x.psn = psn then f x else x }

/-! ### Answers (R326, R335, R344) -/

/-- Queues a response of a queue pair. -/
def pushResp (s : State) (i : Nat) (r : TxResp) : State := s.modQp i fun q => { q with resp := q.resp ++ [r] }

/-- Queues an ATOMIC_RESP. -/
def answerAtomic (s : State) (i psn st dt result : Nat) : State :=
  pushResp s i ⟨Cw.atomicResp, psn, leBytes 1 st ++ leBytes 1 dt ++ leBytes 6 0 ++ leBytes 8 result, [], s.now⟩

/-- Puts an atomic's result into its queue pair's ring of 256 (R344). -/
def arcPut (s : State) (q : Qp) (e : ArcEnt) : State :=
  match q.arc with
  | none => s
  | some r =>
    let l := amGetD r [] s.rm.arc ++ [e]
    { s with rm := { s.rm with arc := amSet r (l.drop (l.length - 256)) s.rm.arc } }

/-- A packet has been performed with an answer (R319, R334, R337): its units are freed, its answer goes out, and RCV_NXT moves where it can. -/
def rxFinish (s : State) (i psn : Nat) (ans : Answer) : State :=
  match s.qpAt i with
  | none => s
  | some q =>
    match q.rx.find? fun x => x.psn == psn with
    | none => s
    | some x =>
      let s := rxMod s i psn fun x => { x with stage := .done }
      let s := s.modQp i fun q => { q with freed := q.freed + x.units }
      let s := match ans with
        | .ok => s
        | .refused st _ => sendNak s i nakResult st 0 psn
        | .atomic st dt r => answerAtomic (arcPut s q ⟨psn, st, dt, r, s.now⟩) i psn st dt r
      rxAdvance s i q.rx.length

/-- Finishes a packet after it has waited: an ACK_REQ is answered at once, any other counts toward the next ACK (R312). -/
def rxFinishLate (s : State) (i psn : Nat) (ans : Answer) : State :=
  let req := match s.qpAt i with
    | some q => q.rx.any fun x => x.psn == psn && pkAckReq x.pkt
    | none => false
  let s := rxFinish s i psn ans
  if req then sendAck s i
  else s.modQp i fun q => { q with toAck := q.toAck + 1, toAckAt := if q.toAck = 0 then s.now else q.toAckAt }

/-! ### Performing operations (R334 to R348) -/

/-- What came of an attempt to perform a packet: it waits; its receive ring is empty; it ended, once the deltas listed are acknowledged; or it waits for the branches of a multicast. -/
inductive Performed where
  | wait (units : List Nat)
  | rnr
  | ended (deltas : List Nat) (ans : Answer)
  | branching (id : Nat)
  deriving DecidableEq, Repr

/-- A refusal of a packet. -/
def refuse (s : State) (e : Status × Nat) : State × Performed := (countRefusal s e, .ended [] (.refused e.1.code e.2))

/-- Why an operation that units hold up must wait (R385, R388), or one whose bandwidth class is at cap on a cache-role node (R393). -/
def waitOn (s : State) (us : List Nat) (cls : Nat) : Option (List Nat) :=
  if !us.isEmpty then some us else if classCapped s cls then some [] else none

/-- Why an operation on `n` bytes at an address must wait. -/
def memWait (s : State) (a n : Nat) (write : Bool) : Option (List Nat) := waitOn s (blockedUnits s a n write) (if write then 1 else 0)

/-- Why an operation on a range of a region must wait, its snag bits among what it touches. -/
def regionWait (s : State) (r : Region) (off n : Nat) (write : Bool) : Option (List Nat) :=
  waitOn s (regionBlocked s r off n write) (if write then 1 else 0)

/-- A packet's Ask (R334). -/
def askOf (q : Qp) (i op : Nat) (p : Packet) (off len : Nat) (lease : Option Nat) : Ask :=
  { src := p.srcNode, tenant := q.tenant, qp := i, op := op, mseq := pkMseq p, begins := pkFirst p || op == Cw.readReq || op == Cw.atomic,
    off := off, len := len, lsem := op == Cw.reduce && leField p.ext 4 1 == 5, lease := lease }

/-- A work request's FIRST packet has been performed here (R419). -/
def beginQp (s : State) (i : Nat) (p : Packet) : State :=
  if !pkFirst p then s
  else
    let m := pkMseq p
    s.modQp i fun q => { q with begun := if q.begun.contains m then q.begun else q.begun ++ [m] }

/-- A work request's FIRST packet has been performed in a region (R333, R419). -/
def begin_ (s : State) (i reg : Nat) (p : Packet) : State :=
  if !pkFirst p then s
  else
    let m := pkMseq p
    let s := beginQp s i p
    { s with rm := { s.rm with regions := amMod reg (fun (r : Region) => { r with openWrs := r.openWrs ++ [(i, m)] }) s.rm.regions } }

/-- A WRITE packet (R337, R359). -/
def doWrite (s : State) (i : Nat) (q : Qp) (p : Packet) : State × Performed :=
  let off := leField p.ext 8 8
  let n := p.payload.length
  let a := askOf q i Cw.write p off n (some (leField p.ext 4 4))
  match checkRange s (leField p.ext 0 4) a with
  | .error e => refuse s e
  | .ok (k, r) =>
    if regionLost s r off n then refuse s (.fenced, Detail.CP_DOUBLE)
    else
      match regionWait s r off n true with
      | some us => (s, .wait us)
      | none =>
        match checkLines s k r a off n true with
        | some e => refuse s e
        | none =>
          let w := regionStore s r off p.payload true
          let s := regionTouch (hotOps (begin_ w.1 i k p) (r.base + off) n) r off n 1 n
          (s, .ended w.2 .ok)

/-- Whether a region is the parity area of this node's group (R381). -/
def parityArea (s : State) (r : Region) : Bool :=
  s.r Reg.TIR_CP_GROUP_P_EN == 1 && decide (r.base = s.r Reg.TIR_CP_PAR_BASE_BASE * 2 ^ 21)

/-- Whether a node is a data member of the group this node keeps parity for (R381). -/
def parityMember (s : State) (n : Nat) : Bool := (List.range 8).any fun k => decide (s.r (Reg.TIR_CP_MEMBER_NODE.at 4 (9 + k)) = n)

/-- A delta that arrives after a parity unit has been reconstructed and before it is written goes into the unit's result as well, since the locked read does not hold its effect (R382, R388). -/
def resultApply (s : State) (rop dt off : Nat) (b : List Byte) : State :=
  let u := off / unitBytes
  { s with cp := { s.cp with jobs := s.cp.jobs.map fun (j : UnitJob) =>
      if j.unit = u ∧ j.lost = 8 then
        { j with result := j.result.map fun r => splice r (off % unitBytes) (reduceBytes rop dt ((r.drop (off % unitBytes)).take b.length) b) }
      else j } }

/-- Applies a delta to the parity area (R388): the part that falls in a unit not yet built is discarded. -/
def parityApply (s : State) (r : Region) (rop dt off : Nat) (b : List Byte) : State × List Nat :=
  let cut := min b.length (unitBytes - off % unitBytes)
  let part (acc : State × List Nat) (e : Nat × List Byte) : State × List Nat :=
    if e.2.isEmpty then acc
    else
      let s := resultApply acc.1 rop dt e.1 e.2
      if unitUnbuilt s true (e.1 / unitBytes) then (s, acc.2)
      else
        let w := regionStore s r e.1 (reduceBytes rop dt (s.opRd (r.base + e.1) e.2.length) e.2) false
        (w.1, acc.2 ++ w.2)
  [(off, b.take cut), (off + cut, b.drop cut)].foldl part (s, [])

/-- A REDUCE packet other than LSEM (R347, R381). A delta waits for no unit: the part in an unbuilt one is discarded (R388). -/
def doReduce (s : State) (i : Nat) (q : Qp) (p : Packet) : State × Performed :=
  let off := leField p.ext 8 8
  let n := p.payload.length
  let rop := leField p.ext 4 1
  let dt := leField p.ext 5 1
  let a := askOf q i Cw.reduce p off n none
  match checkRange s (leField p.ext 0 4) { a with len := 0, off := 0 } with
  | .error e => refuse s e
  | .ok (k, r) =>
    let par := parityArea s r
    if par && (!parityMember s p.srcNode || decide (r.length < off + n)) then refuse s (.fenced, Detail.CP_GROUP)
    else if r.length < off + n then refuse s (.fenced, Detail.MEM_BOUNDS)
    else if off % dtypeBytes dt ≠ 0 then refuse s (.fenced, Detail.MEM_ALIGN)
    else if !par && regionLost s r off n then refuse s (.fenced, Detail.CP_DOUBLE)
    else
      match (if par then waitOn s [] 1 else regionWait s r off n true) with
      | some us => (s, .wait us)
      | none =>
        match checkLines s k r a off n false with
        | some e => refuse s e
        | none =>
          let z := modifyBytes s (r.base + off) n
          let w := if par then parityApply s r rop dt off p.payload
            else regionStore s r off (reduceBytes rop dt (s.opRd (r.base + off) n) p.payload) false
          let s := regionTouch (hotOps (begin_ w.1 i k p) (r.base + off) n) r off n 1 z
          (s, .ended w.2 .ok)

/-- The pieces of a read (R312, R336): extension length, offset and payload length of each response. -/
def readPieces (len slot : Nat) : List (Nat × Nat × Nat) :=
  if slot = 0 then (pieces len).map fun e => (0, e.1, e.2)
  else
    (List.range ((len + slot - 1) / slot)).flatMap fun k =>
      let n := min slot (len - k * slot)
      let h := min 64 n
      (pieces (n - h)).zipIdx.map fun e => if e.2 = 0 then (h, k * slot + h, e.1.2) else (0, k * slot + h + e.1.1, e.1.2)

/-- A read's pages are counted: of a fetch of bolts, for each bolt; of any other read, once (R390). -/
def readPages (s : State) (r : Region) (off n slot : Nat) : State :=
  if slot = 0 then pageTouch s (r.base + off) n
  else (List.range ((n + slot - 1) / slot)).foldl (fun s k => pageTouch s (r.base + off + k * slot) (min slot (n - k * slot))) s

/-- A READ_REQ (R334, R336, R337): its bytes are taken now and its responses queued. A read of the parity area is a reconstruction's (R393). -/
def doRead (s : State) (i : Nat) (q : Qp) (p : Packet) : State × Performed :=
  let off := leField p.ext 8 8
  let n := leField p.ext 4 4
  let slot := 64 * leField p.ext 0x10 2
  let a := { askOf q i Cw.readReq p off n none with slot := slot != 0 }
  match checkRange s (leField p.ext 0 4) a with
  | .error e => refuse s e
  | .ok (k, r) =>
    let cls := if parityArea s r then 2 else 0
    if regionLost s r off n then refuse s (.fenced, Detail.CP_DOUBLE)
    else
      match waitOn s (regionBlocked s r off n false) cls with
      | some us => (s, .wait us)
      | none =>
        match checkLines s k r a off n false with
        | some e => refuse s e
        | none =>
          let s := hotReads (chargeClass (readPages s r off n slot) cls n) (r.base + off) n
          let at_ := r.base + off
          let send (s : State) (e : (Nat × Nat × Nat) × Nat) : State :=
            let x := e.1
            pushResp s i ⟨Cw.readResp, (p.psn + e.2) % 2 ^ 32, if x.1 = 0 then [] else fit 64 (s.opRd (at_ + x.2.1 - x.1) x.1),
                          s.opRd (at_ + x.2.1) x.2.2, s.now⟩
          ((readPieces n slot).zipIdx.foldl send s, .ended [] .ok)

/-- The bytes that an atomic touches at OFFSET: none for lease operations and PUBLISH. -/
def aopLen (aop width n : Nat) : Nat :=
  if aop = 0x10 then n else if aop = 0x11 then 8 else if aop < 0x10 then aopBits width / 8 else 0

/-- The answer of an atomic (R334, R343). -/
def atomEnd (s : State) (e : Status × Nat) (result : Nat) (ds : List Nat) : State × Performed :=
  (countRefusal s e, .ended ds (.atomic e.1.code e.2 result))

/-- LEASE_ACQUIRE (R355, R357). -/
def leaseAcquire (s : State) (k : Nat) (src off count : Nat) : State × Performed :=
  let line := off / 64
  let clash := s.rm.leases.any fun e => e.2.region == k && decide (e.2.line < line + count) && decide (line < e.2.line + e.2.count)
  if clash then atomEnd s (.conflict, Detail.MEM_LEASED) 0 []
  else
    match s.rm.leaseIds.alloc (s.r Reg.CWT_LEASE_CFG_COUNT) s.now with
    | none => atomEnd s (.noCredit, Detail.MEM_LEASE_FULL) 0 []
    | some (j, ids) =>
      let id := ids.ringOf j * 2 ^ 24 + j
      atomEnd { s with rm := { s.rm with leaseIds := ids, leases := amSet j ⟨id, k, line, count, src, s.now⟩ s.rm.leases } } (.ok, 0) id []

/-- LEASE_RENEW and LEASE_RELEASE (R357). -/
def leaseNamed (s : State) (src id : Nat) (release : Bool) : State × Performed :=
  match leaseAt s id with
  | none => atomEnd s (.stale, Detail.MEM_LEASE) 0 []
  | some (j, l) =>
    if l.lessee ≠ src then atomEnd s (.conflict, Detail.MEM_LEASED) 0 []
    else if release then atomEnd (dropLease s j) (.ok, 0) id []
    else atomEnd { s with rm := { s.rm with leases := amSet j { l with since := s.now } s.rm.leases } } (.ok, 0) id []

/-- Why a PUBLISH cannot reach its entry or, with VERIFY, the region's contents: a hot line of a region has failed (R354), units are lost (R389), or memory is out of reach (R396, R445). -/
def pubStop (s : State) (k : Nat) (r : Region) (a : Nat) (verify : Bool) : Option Nat :=
  if s.rm.hotBad.contains k || s.rm.hotBad.contains (r.dirKey % 2 ^ 24) then some Detail.FLT_MESH
  else if doubleLost s a 64 || (verify && regionLost s r 0 r.length) then some Detail.CP_DOUBLE
  else (memTrouble s a 64).orElse fun _ => if verify then memTrouble s r.base r.length else none

/-- PUBLISH (R361 to R363): an ATOMIC that writes its entry's line (R352), counted and charged as one. -/
def doPublish (s : State) (k : Nat) (r : Region) (src : Nat) (b : List Byte) : State × Performed :=
  match pubEntry s r with
  | none => atomEnd s (.fenced, Detail.MEM_ACCESS) 0 []
  | some a =>
    let verify := bit (leField b 3 1) 0
    match pubStop s k r a verify with
    | some dt => atomEnd s (.fenced, dt) 0 []
    | none =>
    match waitOn s (blockedUnits s a 64 true ++ if verify then regionBlocked s r 0 r.length false else []) 1 with
    | some us => (s, .wait us)
    | none =>
      if verify && anySnag s r then atomEnd s (.poison, Detail.MEM_SNAG) 0 []
      else if verify && (sha384 (s.opRd r.base r.length)).take 48 != (b.drop 8).take 48 then
        atomEnd (chargeClass (pageTouch s r.base r.length) 1 r.length) (.fenced, Detail.MEM_DIGEST) 0 []
      else
        let s := if verify then chargeClass (pageTouch s r.base r.length) 1 r.length else s
        let s := chargeClass (pageTouch s a 64) 1 64
        let old := s.opRd a 64
        let v := leField b 0 2
        let o := pubOutcome (leField old 2 1 == 1) (leField old 0 2) v ((old.drop 8).take 48 == (b.drop 8).take 48)
        let s := if o.1 = .conflict then setEvent s Reg.CWT_MEM_EVENT_CONFLICT 1 else s
        if o.2.2 then
          let e := leBytes 2 v ++ leBytes 1 1 ++ leBytes 1 0 ++ leBytes 2 src ++ leBytes 2 0 ++ fit 48 ((b.drop 8).take 48) ++ leBytes 8 s.now
          let w := (chargeClass s 1 (modifyBytes s a 64 - 64)).opWr a e
          atomEnd (hotOps w.1 a 64) (o.1, o.2.1) (v + src * 65536) w.2
        else atomEnd s (o.1, o.2.1) (leField old 0 2 + leField old 4 2 * 65536) []

/-- The read, compare and write of an arithmetic or claim atomic, all its checks passed (R339, R343). -/
def atomApply (s : State) (r : Region) (aop width off x y word : Nat) (b : List Byte) : State × Performed :=
  let n := aopLen aop width b.length
  let old := leNat (s.opRd (r.base + off) (min n 8))
  let z := if aop = 0x10 then n else modifyBytes s (r.base + off) n
  let new : List Byte :=
    if aop = 0x10 then b
    else if aop = 0x11 then leBytes 8 (if old = leField b 0 8 then leField b 8 8 else old)
    else leBytes n (aopValue aop width old x y)
  let w := regionStore s r off new false
  let s := regionTouch (hotOps w.1 (r.base + off) n) r off n 1 z
  atomEnd s (.ok, 0) (if aop = 0x10 then word else old) w.2

/-- An ATOMIC (R334, R339 to R343). -/
def doAtomic (s : State) (i : Nat) (q : Qp) (p : Packet) : State × Performed :=
  let aop := leField p.ext 4 1
  let width := leField p.ext 5 1
  let off := leField p.ext 8 8
  let x := leField p.ext 0x10 8
  let y := leField p.ext 0x18 8
  let n := aopLen aop width p.payload.length
  let lease := decide (0x18 ≤ aop) && decide (aop ≤ 0x1A)
  let claim := aop == 0x10 || aop == 0x11
  let at_ := if n = 0 then 0 else off
  let a := askOf q i Cw.atomic p at_ n none
  match checkRange s (leField p.ext 0 4) a with
  | .error e => atomEnd s e 0 []
  | .ok (k, r) =>
    if lease && !r.can 5 then atomEnd s (.fenced, Detail.MEM_ACCESS) 0 []
    else if lease && s.rm.hotBad.contains k then atomEnd s (.fenced, Detail.FLT_MESH) 0 []
    else if lease then
      (if aop = 0x18 then
        (if x < 1 ∨ 65536 < x ∨ r.length < off + 64 * x then atomEnd s (.fenced, Detail.MEM_BOUNDS) 0 []
         else if off % 64 ≠ 0 then atomEnd s (.fenced, Detail.MEM_ALIGN) 0 []
         else leaseAcquire s k p.srcNode off x)
       else leaseNamed s p.srcNode (x % 2 ^ 32) (aop == 0x1A))
    else if aop = 0x20 then doPublish s k r p.srcNode p.payload
    else if claim && decide (r.length < y + 8) then atomEnd s (.fenced, Detail.MEM_BOUNDS) 0 []
    else if (aop ≠ 0x10 ∧ off % n ≠ 0) ∨ (claim ∧ y % 8 ≠ 0) then atomEnd s (.fenced, Detail.MEM_ALIGN) 0 []
    else if regionLost s r off n || (claim && regionLost s r y 8) then atomEnd s (.fenced, Detail.CP_DOUBLE) 0 []
    else
      match waitOn s (regionBlocked s r off n true ++ if claim then regionBlocked s r y 8 false else []) 1 with
      | some us => (s, .wait us)
      | none =>
        let word := leNat (s.opRd (r.base + y) 8)
        if claim && word / 2 ^ 32 != x % 2 ^ 32 then atomEnd s (.stale, Detail.MEM_CLAIM) word []
        else
          match (checkLines s k r a off n false).orElse fun _ => if claim then checkLines s k r a y 8 false else none with
          | some e => atomEnd s e 0 []
          | none => atomApply s r aop width off x y word p.payload

/-- An MCAST packet (R350). Its message has begun here where its FIRST packet's local write was performed, or there is none (R333, R419). -/
def doMcast (s : State) (i : Nat) (q : Qp) (p : Packet) : State × Performed :=
  let g := leField p.ext 0 2
  let hops := leField p.ext 2 1
  let off := leField p.ext 8 8
  let n := p.payload.length
  if mcastBad s g hops then refuse s (.fenced, Detail.MEM_GROUP)
  else
    let a := askOf q i Cw.mcast p off n none
    let loc := (groupEnt s g).loc.bind (regionAt s)
    match loc.bind fun _ => waitOn s (mcastBlocked s g off n) 1 with
    | some us => (s, .wait us)
    | none =>
      let m := mcastBegin s (.packet i p.psn) a g hops (p.flags % 4) p.payload
      let ok := match amGet m.2 m.1.rm.mcasts with | some x => x.loc.1 == 0 | none => false
      (if !ok then m.1 else match loc with | some e => begin_ m.1 i e.1 p | none => beginQp m.1 i p, .branching m.2)

/-- A SEND packet (R505): FIRST takes a receive-ring entry, each packet's bytes follow those before it, LAST posts a receive completion. Its WR_ID is a free value; the spec gives a receive none. -/
def doSend (s : State) (i : Nat) (q : Qp) (p : Packet) : State × Performed :=
  let F := s.fn q.fn
  let m := pkMseq p
  match amGet q.rq F.rqs with
  | none => (s, .rnr)
  | some ring =>
    let start : Option (State × RecvMsg) :=
      if pkFirst p then
        if ring.posted = ring.taken then none
        else
          let e := s.rd (hostXA (ring.base + 16 * (ring.taken % 2 ^ ring.log2))) 16
          some (s.setFn q.fn { F with rqs := amSet q.rq { ring with taken := ring.taken + 1 } F.rqs },
                ⟨m, p.psn, leField e 0 8, leField e 8 4, 0, false⟩)
      else (q.recv.find? fun x => x.msg == m).map fun x => (s, x)
    match start with
    | none => (s, .rnr)
    | some (s, x) =>
      let n := p.payload.length
      let bad := x.bad || decide (x.len < x.got + n)
      let s := if bad then s else s.wr (hostXA (x.buf + x.got)) p.payload
      let x := { x with next := (p.psn + 1) % 2 ^ 32, bad := bad, got := if bad then x.got else x.got + n }
      let others := q.recv.filter fun y => y.msg != m
      let s := s.modQp i fun q => { q with recv := if pkLast p then others else others ++ [x],
                                           begun := if pkFirst p && !q.begun.contains m then q.begun ++ [m] else q.begun }
      let s :=
        if pkLast p then
          cqPost s.takeFree q.fn ring.cq
            (wcImage (Config.freeNat s.free) q.qpn x.got (if x.bad then Status.fenced.code else 0) (if x.bad then Detail.MEM_BOUNDS else 0) Cw.send 0)
        else s
      (s, .ended [] (if bad then .refused Status.fenced.code Detail.MEM_BOUNDS else .ok))

/-- Whether a SEND packet's place in its message has come (R505): FIRST, or the next PSN of a message begun. -/
def sendTurn (q : Qp) (p : Packet) : Bool := pkFirst p || q.recv.any fun x => x.msg == pkMseq p && x.next == p.psn

/-! ### LSEM contributions (R348) -/

/-- The packets of a contribution not yet performed, in PSN order. -/
def lsemMine (q : Qp) (m : Nat) : List RxPkt :=
  q.rx.filter fun x => x.op == Cw.reduce && leField x.pkt.ext 4 1 == 5 && pkMseq x.pkt == m && (x.stage == .waiting || x.stage == .held)

/-- Whether they are all there: FIRST to LAST, PSN after PSN. -/
def lsemWhole (l : List RxPkt) : Bool :=
  match l with
  | [] => false
  | x :: _ => pkFirst x.pkt && (match l.getLast? with | some y => pkLast y.pkt && serDist y.psn x.psn + 1 == l.length | none => false)

/-- Whether a neighbour of a packet in its contribution has been refused already, so that the rest can never be whole. -/
def lsemBroken (q : Qp) (x : RxPkt) : Bool :=
  let gone (psn : Nat) : Bool := decide (2 ^ 31 ≤ serDist psn q.rcvNxt) || q.rx.any fun y => y.psn == psn && y.stage == .done
  (!pkFirst x.pkt && gone ((x.psn + 2 ^ 32 - 1) % 2 ^ 32)) || (!pkLast x.pkt && gone ((x.psn + 1) % 2 ^ 32))

/-- The checks of R334 on one packet of a contribution: at step 4 its slot lies in the area and in the region named, and its rows in those of the slot; a free slot has none (R127). -/
def lsemCheck (s : State) (i : Nat) (q : Qp) (p : Packet) : Option (Status × Nat) :=
  let e := p.ext
  let k := leField e 8 8
  let st := lsemStride (leField e 0x13 1)
  let stop := leField e 0x14 2 + p.payload.length / st
  let a := askOf q i Cw.reduce p 0 0 none
  match checkRange s (leField e 0 4) a with
  | .error x => some x
  | .ok (j, r) =>
    let rows := match amGet k s.xch.merges with
      | some M => M.rows
      | none => stop
    let at_ := mergeAddr s k
    let n := 64 + stop * st
    if mergeOrd s + mergeDet s ≤ k ∨ rows < stop ∨ at_ < r.base ∨ r.base + r.length < at_ + n then some (.fenced, Detail.MEM_BOUNDS)
    else checkLines s j r a (at_ - r.base) n false

/-- The rows of a contribution, by ROW0; a row no packet carries is the empty row of R111, which merges as nothing. -/
def lsemRows (d : Nat) (l : List RxPkt) : List (List Byte) :=
  let st := 4 * d + 8
  let parts := l.flatMap fun x => (chunks st x.pkt.payload).zipIdx.map fun e => (leField x.pkt.ext 0x14 2 + e.2, e.1)
  let top := parts.foldl (fun n e => max n (e.1 + 1)) 0
  let empty := List.replicate (4 * d) 0 ++ leBytes 4 0xFF800000 ++ leBytes 4 0
  (List.range top).map fun r => match parts.find? fun e => e.1 == r with | some e => e.2 | none => empty

/-- An LSEM packet's turn (R348): the contribution is applied when all of it is there; one that is refused is refused whole. -/
def rxLsem (s : State) (i : Nat) (q : Qp) (x : RxPkt) : State :=
  let mine := lsemMine q (pkMseq x.pkt)
  let all (s : State) (ans : Answer) : State := mine.foldl (fun s y => rxFinish s i y.psn ans) s
  match (if lsemWhole mine then mine else [x]).findSome? fun y => lsemCheck s i q y.pkt with
  | some e => all (countRefusal s e) (.refused e.1.code e.2)
  | none =>
    if lsemWhole mine then
      let e := x.pkt.ext
      let s := remoteContribution s x.pkt.srcNode (leField e 8 8) (leField e 6 2) (leField e 0x10 2) (leField e 0x12 1)
        (lsemRows (hdimOf (leField e 0x13 1)) mine)
      all s .ok
    else if lsemBroken q x then all s (.refused Status.fenced.code Detail.MEM_BOUNDS)
    else s

/-! ### A packet's turn (R319, R320) -/

/-- Ends the multicast packets whose branches have all answered (R351). -/
def mcastSettle (s : State) : State :=
  let s := rootSettle s
  s.rm.mcasts.foldl (fun s e =>
    match e.2.owner, e.2.outcome s with
    | .packet i psn, some o =>
      let s := { s with rm := { s.rm with mcasts := amErase e.1 s.rm.mcasts } }
      rxFinishLate s i psn (if o.1 = 0 then .ok else .refused o.1 o.2)
    | _, _ => s) s

/-- The region key that an operation names, at this node. -/
def opKey (s : State) (op : Nat) (p : Packet) : Option Nat :=
  if op = Cw.send then none else if op = Cw.mcast then (groupEnt s (leField p.ext 0 2)).loc else some (leField p.ext 0 4)

/-- An operation on a spare waits for the unit that its region's table entry lies in, which gives the region back (R386, R388); where that unit is lost for good it is refused (R389). -/
def entryGate (s : State) (op : Nat) (p : Packet) (k : State → State × Performed) : State × Performed :=
  match opKey s op p with
  | none => k s
  | some key =>
    let a := regionTblAddr s (key % 2 ^ 24)
    if regionCount s ≤ key % 2 ^ 24 then k s
    else if doubleLost s a 128 then
      (if op = Cw.atomic then atomEnd s (.fenced, Detail.CP_DOUBLE) 0 [] else refuse s (.fenced, Detail.CP_DOUBLE))
    else
      let us := blockedUnits s a 128 false
      if us.isEmpty then k s else (s, .wait us)

/-- Performs an operation by its opcode. -/
def perform (s : State) (i : Nat) (q : Qp) (op : Nat) (p : Packet) : State × Performed :=
  entryGate s op p fun s =>
  if op = Cw.send then doSend s i q p
  else if op = Cw.write then doWrite s i q p
  else if op = Cw.readReq then doRead s i q p
  else if op = Cw.atomic then doAtomic s i q p
  else if op = Cw.mcast then doMcast s i q p
  else doReduce s i q p

/-- Takes up one accepted packet, where its turn has come: on a STRICT queue pair the one at RCV_NXT alone; SEND packets in the order of their message. -/
def rxTry (s : State) (i psn : Nat) : State :=
  match s.qpAt i with
  | none => s
  | some q =>
    match q.rx.find? fun x => x.psn == psn && (x.stage == .waiting || x.stage == .held) with
    | none => s
    | some x =>
      if !bit q.mode 0 && psn != q.rcvNxt then s
      else if x.op = Cw.send ∧ !sendTurn q x.pkt then s
      else if x.op = Cw.reduce ∧ leField x.pkt.ext 4 1 = 5 then rxLsem s i q x
      else
        match perform s i q x.op x.pkt with
        | (s, .wait us) => if x.stage = .held then us.foldl unitToFront s else rxMod (blockOn s us) i psn fun x => { x with stage := .held }
        | (s, .rnr) =>
          let s := s.modQp i fun q => { q with rx := q.rx.filter fun (y : RxPkt) => y.psn != psn, counted := q.counted ++ [psn] }
          nakOpen s i nakRnr psn
        | (s, .ended [] ans) => rxFinish s i psn ans
        | (s, .ended ds ans) => rxMod s i psn fun x => { x with stage := .acking ds ans }
        | (s, .branching id) =>
          let s := rxMod s i psn fun x => { x with stage := .branching id }
          (match (amGet id s.rm.mcasts).bind (Mcast.outcome s) with
           | some o => rxFinish { s with rm := { s.rm with mcasts := amErase id s.rm.mcasts } } i psn (if o.1 = 0 then .ok else .refused o.1 o.2)
           | none => s)

/-- Takes up a queue pair's accepted packets in PSN order. -/
def rxRun (s : State) (i : Nat) : State :=
  match s.qpAt i with
  | none => s
  | some q => (q.rx.map (·.psn)).foldl (fun s psn => rxTry s i psn) s

/-- Performs a repeated READ_REQ (R316); one that must wait is kept with its place in the order of arrival. Whether it has been performed. -/
def lateRead (s : State) (i : Nat) (q : Qp) (p : Packet) : State × Bool :=
  match entryGate s Cw.readReq p fun s => doRead s i q p with
  | (s, .wait us) => (blockOn s us, false)
  | (s, .ended _ (.refused st _)) => (sendNak s i nakResult st 0 p.psn, true)
  | (s, _) => (s, true)

/-- A repeated READ_REQ that waits is taken up again. -/
def lateTry (s : State) (i ord : Nat) : State :=
  match s.qpAt i with
  | none => s
  | some q =>
    match q.lateReads.find? fun e => e.1 == ord with
    | none => s
    | some e =>
      let r := lateRead s i q e.2
      if r.2 then r.1.modQp i fun q => { q with lateReads := q.lateReads.filter fun e => e.1 != ord } else r.1

/-- Whether an accepted packet waits to be performed. -/
def RxPkt.waits (x : RxPkt) : Bool := x.stage == .waiting || x.stage == .held

/-- What waits on any queue pair, by its place in the order of arrival: queue pair, and the PSN of a packet not performed; none of a repeated read. -/
def rxWaiting (s : State) : List (Nat × Nat × Option Nat) :=
  isort (fun a b => decide (a.1 ≤ b.1)) (s.cwt.qps.flatMap fun e =>
    ((e.2.rx.filter (·.waits)).map fun x => (x.ord, e.1, some x.psn)) ++ e.2.lateReads.map fun l => (l.1, e.1, none))

/-- Takes up what waits on any queue pair, in the order of arrival (R338), and then what a packet ahead of it held back (R319): after a unit has been built or unlocked, a bandwidth window has ended, or branches have answered. -/
def rxRetry (s : State) : State :=
  let s := mcastSettle s
  let s := (rxWaiting s).foldl (fun s e =>
    match e.2.2 with
    | some psn => rxTry s e.2.1 psn
    | none => lateTry s e.2.1 e.1) s
  s.cwt.qps.foldl (fun s e => qpSettle (if e.2.rx.any (·.waits) then rxRun s e.1 else s) e.1) s

/-- Sends the ACK that an arrival calls for (R312). -/
def ackAfter (s : State) (i : Nat) (req : Bool) : State :=
  match s.qpAt i with
  | none => s
  | some q =>
    if (q.state = .ready ∨ q.state = .draining) ∧ (req ∨ ackCoalesce s ≤ q.toAck) then sendAck s i else s

/-! ### Duplicates (R316, R345, R420) -/

/-- How long a redirected PSN is kept (R420). -/
def keptFor (s : State) : Nat := giveUpNs s + 2000000

/-- A duplicate ATOMIC (R345). -/
def dupAtomic (s : State) (i : Nat) (q : Qp) (psn : Nat) : State :=
  match inRx q psn with
  | some x => if x.stage = .done then answerIt s else s
  | none => answerIt s
where
  /-- From the ring where its entry is young enough, else INDETERMINATE. -/
  answerIt (s : State) : State :=
    let life := max 10 (s.r Reg.CWT_ARC_LIFE_LIFETIME_MS) * 1000000
    let l := match q.arc with | some r => amGetD r [] s.rm.arc | none => []
    match l.reverse.find? fun e => e.psn == psn && decide (s.now < e.time + life) with
    | some e => sendAck (answerAtomic (s.cnt Reg.CWT_MEM_COUNT_ARC_HIT 1) i psn e.status e.detail e.result) i
    | none =>
      let s := setEvent (s.cnt Reg.CWT_MEM_COUNT_INDETERMINATE 1) Reg.CWT_MEM_EVENT_INDETERMINATE 1
      sendAck (answerAtomic s i psn Status.indeterminate.code Detail.MEM_ARC_EXPIRED 0) i

/-- A duplicate READ_REQ is performed again (R316), unless its original has yet to be; one that must wait is performed when it can be. -/
def dupRead (s : State) (i : Nat) (q : Qp) (p : Packet) : State :=
  let pending : Bool := match inRx q p.psn with | some x => x.stage != .done | none => false
  if pending then sendAck s i
  else
    let r := lateRead s i q p
    let s := if r.2 then r.1
      else
        let n := r.1.cwt.nextRx
        { r.1 with cwt := { r.1.cwt with nextRx := n + 1 } }.modQp i fun q => { q with lateReads := q.lateReads ++ [(n, p)] }
    sendAck s i

/-- A duplicate (R316): a kept redirect is answered again and never with an ACK (R420). -/
def duplicate (s : State) (i : Nat) (q : Qp) (op : Nat) (p : Packet) : State :=
  match q.redirected.find? fun e => e.1 == p.psn && decide (s.now < e.2.1 + keptFor s) with
  | some e => sendNak s i nakRedirect Status.redirect.code e.2.2 p.psn
  | none =>
    if op = Cw.atomic then dupAtomic s i q p.psn
    else if op = Cw.readReq then dupRead s i q p
    else sendAck s i

/-- An old packet that is no duplicate (R420): redirected, and as good as performed; dropped while 16 are kept. -/
def redirectOld (s : State) (i : Nat) (q : Qp) (op : Nat) (p : Packet) (units : Nat) : State :=
  let kept := q.redirected.filter fun e => decide (s.now < e.2.1 + keptFor s)
  if 16 ≤ kept.length then s.setQp i { q with redirected := kept }
  else
    let home := s.redirectNode
    let x : RxPkt := ⟨p.psn, rxSpan op p, op, { p with payload := [] }, units, s.now, s.cwt.nextRx, .done⟩
    let s := s.setQp i { q with redirected := kept ++ [(p.psn, s.now, home)], rx := rxInsert q.rcvNxt x q.rx,
                                rcvUnits := if q.counted.contains p.psn then q.rcvUnits else (q.rcvUnits + units) % 2 ^ 32,
                                counted := q.counted.filter (· ≠ p.psn), freed := q.freed + units }
    let s := rxAdvance s i (q.rx.length + 1)
    (sendNak s i nakRedirect Status.redirect.code home p.psn).cnt Reg.MGT_MAP_COUNT_REDIRECTS 1

/-! ### Step 10 (R293) and acceptance -/

/-- A packet's payload in the clear, where its tag is good. -/
def openPacket (s : State) (q : Qp) (op : Nat) (p : Packet) : Option (List Byte) :=
  if p.payload.isEmpty then some []
  else
    match rxKey s q p with
    | none => none
    | some key =>
      let nonce := cwNonce p.srcNode p.srcQp p.psn (pkAttempt p) op
      if fit 16 (gcmTag key nonce (pkAad p op) p.payload) = p.tag then
        some (fit p.payload.length (gcmOpen key nonce p.payload))
      else none

/-- A tag that failed (R326). -/
def authFail (s : State) (i psn : Nat) : State := fatalNak (authNote s i) i nakAuth psn Detail.CWT_AUTH

/-- Steps 8 to 11 for a packet that takes credit. -/
def dataPacket (s : State) (i : Nat) (q : Qp) (op : Nat) (p : Packet) (old : Bool) : State :=
  let units := cwUnits op p.payload.length
  let counted := q.counted.contains p.psn
  if isDup q p.psn then duplicate s i q op p
  else if !counted && !serGe q.rcvLimit ((q.rcvUnits + units) % 2 ^ 32) then nakOpen s i nakCredit p.psn
  else if 1024 ≤ serDist p.psn q.rcvNxt then nakOpen s i nakSeq p.psn
  else if old then redirectOld s i q op p units
  else
    match openPacket s q op p with
    | none => authFail s i p.psn
    | some b =>
      let x : RxPkt := ⟨p.psn, rxSpan op p, op, { p with payload := b }, units, s.now, s.cwt.nextRx, .waiting⟩
      let s := { s with cwt := { s.cwt with nextRx := s.cwt.nextRx + 1 } }
      let s := s.setQp i { q with rx := rxInsert q.rcvNxt x q.rx, rcvUnits := if counted then q.rcvUnits else (q.rcvUnits + units) % 2 ^ 32,
                                  counted := q.counted.filter (· ≠ p.psn), toAck := q.toAck + 1,
                                  toAckAt := if q.toAck = 0 then s.now else q.toAckAt }
      let s := if pkAckv p then takeAckPsn s i p.ackPsn else s
      ackAfter (rxRun s i) i (pkAckReq p)

/-! ### What a sender does with its answers (R312, R326) -/

/-- An ACK (R312, R313). -/
def takeAck (s : State) (i : Nat) (p : Packet) : State :=
  takeSack (takeAckPsn (takeGrant s i (leField p.ext 0 4)) i p.ackPsn) i p.ackPsn (leField p.ext 8 32)

/-- Changes packets outstanding on a queue pair. -/
def txMod (s : State) (i : Nat) (f : TxPkt → TxPkt) : State := s.modQp i fun q => { q with unacked := q.unacked.map f }

/-- The detail codes that a refusal at a home may carry: those of remote memory (R364), and those of the memory beneath it (R381, R389, R396, R445, R354). -/
def refusalDetails : List Nat :=
  [Detail.MEM_KEY, Detail.MEM_TENANT, Detail.MEM_ACCESS, Detail.MEM_BOUNDS, Detail.MEM_ALIGN, Detail.MEM_CLAIM, Detail.MEM_LEASED, Detail.MEM_LEASE,
   Detail.MEM_LEASE_FULL, Detail.MEM_SNAG, Detail.MEM_PUB, Detail.MEM_DIGEST, Detail.MEM_ARC_EXPIRED, Detail.MEM_ARC_FULL, Detail.MEM_GROUP,
   Detail.MEM_BRANCH, Detail.CP_GROUP, Detail.CP_DOUBLE, Detail.CP_CXL_LOST, Detail.FLT_STACK, Detail.FLT_MESH]

/-- The detail of a refusal that a NAK_RESULT brings: it does not travel in the NAK, and is a free one of the codes a refusal carries (R364, log 61). -/
def nakDetail (s : State) : Nat := refusalDetails.getD (Config.freeNat s.free % refusalDetails.length) Detail.MEM_KEY

/-- A NAK of code NAK_RESULT or NAK_REDIRECT ends the request of its PSN before ACK_PSN, which has passed it, is taken (R326). -/
def nakEnds (s : State) (i code st psn home : Nat) : State :=
  let mine := match s.qpAt i with | some q => q.unacked.filter fun t => t.psn == psn | none => []
  if code = nakResult then txDone s.takeFree i mine (some (st, nakDetail s)) none
  else if code = nakRedirect then txDone s i mine (some (Status.redirect.code, 0)) (some home)
  else s

/-- A NAK (R326). -/
def takeNak (s : State) (i : Nat) (p : Packet) : State :=
  let code := leField p.ext 0 1
  let st := leField p.ext 1 1
  let psn := leField p.ext 4 4
  let s := takeAckPsn (nakEnds s i code st psn (leField p.ext 2 2)) i p.ackPsn
  match s.qpAt i with
  | none => s
  | some _ =>
    if code = nakSeq then
      txMod s i fun t => if !t.sacked && decide (serDist t.psn p.ackPsn < 2 ^ 31) then { t with due := true, dueAt := s.now, rnrAt := none } else t
    else if code = nakCredit then txMod s i fun t => if t.psn = psn then { t with creditWait := true, due := false } else t
    else if code = nakRnr then
      txMod s i fun t => if t.psn = psn then { t with rnrAt := some (s.now + rnrNs s), rnrSeen := true, sacked := false, due := false } else t
    else if code = nakResult ∨ code = nakRedirect then s
    else if code = nakAuth then qpError (authNote s i) i Detail.CWT_AUTH
    else qpError s i Detail.CWT_REMOTE_ERR

/-- The bytes of one READ_RESP have been written to LOCAL, and their deltas acknowledged (R312, R383); the last of a request's responses acknowledges it. -/
def respGot (s : State) (i psn k : Nat) : State :=
  match s.qpAt i with
  | none => s
  | some q =>
    match q.unacked.find? fun t => t.op == Cw.readReq && t.psn == psn with
    | none => s
    | some t =>
      if t.got.contains k then s
      else
        let t := { t with got := t.got ++ [k] }
        let s := txMod s i fun u => if u.psn = psn then t else u
        if t.got.length = t.n then qpSettle (txDone (s.modQp i fun q => rttSample s q [t]) i [t] none none) i else s

/-- Writes the bytes of a READ_RESP to LOCAL, as the protected write path has it (R383, R393): locked and unbuilt units are waited for (R385, R388), and what is lost or out of reach ends the request (R389, R396, R445). -/
def readLand (s : State) (i : Nat) (t : TxPkt) (p : Packet) (k a : Nat) (b : List Byte) : State :=
  match writeStop s a b.length with
  | some dt => txDone (unhold s (.resp i p)) i [t] (some (Status.fenced.code, dt)) none
  | none =>
    let us := blockedUnits s a b.length true
    if !us.isEmpty then holdWork s us (.resp i p)
    else
      let s := unhold s (.resp i p)
      let t' := chargeClass (putBytes (pageTouch s a b.length) a b) 1 b.length
      let ds := newDeltas s t'
      if ds.isEmpty then respGot t' i t.psn k else waitDeltas t' ds (.resp i t.psn k)

/-- A READ_RESP (R312, R313): its bytes go to LOCAL. One whose PSN answers nothing outstanding is a late repeat; one of the wrong length is malformed. -/
def takeRead (s : State) (i : Nat) (q : Qp) (p : Packet) (b : List Byte) : State :=
  match q.unacked.find? fun t => t.op == Cw.readReq && decide (serDist p.psn t.psn < t.n) with
  | none => s
  | some t =>
    let k := serDist p.psn t.psn
    if !p.ext.isEmpty || b.length != min cwMax (t.len - k * cwMax) then fatalNak s i nakFormat p.psn Detail.CWT_REMOTE_ERR
    else if t.got.contains k then s
    else
      match q.stream.find? fun w => w.ord == t.ord with
      | none => s
      | some w =>
        readLand s i t { p with payload := b } k (wrLocal w.wr + t.off + k * cwMax) b

/-- A READ_RESP that units held up is taken again (R385, R388). -/
def respRetry (s : State) (i : Nat) (p : Packet) : State :=
  let s := unhold s (.resp i p)
  match s.qpAt i with
  | some q => qpSettle (takeRead s i q p p.payload) i
  | none => s

/-- An ATOMIC_RESP (R343, R345): it completes the request with its status and result. -/
def takeAtomic (s : State) (i : Nat) (q : Qp) (p : Packet) : State :=
  match q.unacked.find? fun t => t.op == Cw.atomic && t.psn == p.psn with
  | none => s
  | some t =>
    let st := leField p.ext 0 1
    let s := s.modQp i fun q => rttSample s q [t]
    txDone s i [t] (if st = 0 then none else some (st, leField p.ext 1 1)) (some (leField p.ext 8 8))

/-- Step 10 and 11 for a packet that takes no credit. -/
def controlPacket (s : State) (i : Nat) (q : Qp) (op : Nat) (p : Packet) : State :=
  if op = Cw.ack then takeAck s i p
  else if op = Cw.nak then takeNak s i p
  else if op = Cw.creditReq then sendAck (if pkAckv p then takeAckPsn s i p.ackPsn else s) i
  else
    match openPacket s q op p with
    | none => authFail s i p.psn
    | some b =>
      let s := if pkAckv p then takeAckPsn s i p.ackPsn else s
      match s.qpAt i with
      | none => s
      | some q => if op = Cw.readResp then takeRead s i q p b else takeAtomic s i q p

/-! ### Steps 3 to 7 -/

/-- A packet for a queue pair in ERROR (R302): NAK_FLUSHED at most once per millisecond. -/
def flushedNak (s : State) (i : Nat) (q : Qp) (psn : Nat) : State :=
  let quiet := match q.flushedAt with | some t => decide (s.now < t + 1000000) | none => false
  if quiet then s else nakOpen (s.setQp i { q with flushedAt := some s.now }) i nakFlushed psn

/-- Step 5 on: the queue pair, its state, the opcode and its form. -/
def atQp (s : State) (op : Nat) (p : Packet) (old : Bool) : State :=
  match s.qp p.dstQp with
  | none => s.cnt Reg.CWT_DROP_STALE_QP 1
  | some (i, q) =>
    if p.srcNode ≠ q.peerNode ∨ p.srcQp ≠ q.peerQp ∨ q.state = .reset then s.cnt Reg.CWT_DROP_STALE_QP 1
    else
      let q := { (if p.ce then (q.count 1).count 3 else q.count 1) with selfNode := p.dstNode }
      let s := qpTouch (s.setQp i q) i
      let s :=
        if q.state = .error then flushedNak s i q p.psn
        else if !cwKnown op then fatalNak s i nakFormat p.psn Detail.CWT_REMOTE_ERR
        else if (op = Cw.atomic ∧ !bit q.mode 1) ∨ (op = Cw.send ∧ !bit q.mode 2) then fatalNak s i nakOp p.psn Detail.CWT_REMOTE_ERR
        else if !pkFormOk op p then fatalNak s i nakFormat p.psn Detail.CWT_REMOTE_ERR
        else if cwCredited op then dataPacket s i q op p old
        else controlPacket s i q op p
      qpSettle (mcastSettle s) i

/-- Steps 2 to 4 of R297, then the queue pair. With the Keyhouse in its error state a sealed packet is dropped and counted, without answer (R478). -/
def receiveIn (s : State) (op : Nat) (p : Packet) : State :=
  let s := if p.ce then s.wrap Reg.CWT_ECN_CE_MARKS 1 else s
  if !p.sizesOk ∨ 64 < p.ext.length ∨ p.ext.length % 8 ≠ 0 ∨ cwMax < p.payload.length then s.cnt Reg.CWT_DROP_CHECK_CHECK 1
  else if !ownNode s p.dstNode then s.cnt Reg.MGT_MAP_COUNT_WRONG_NODE 1
  else
    let free := anyEpoch op || begunHere s p
    let v := epochView s p.epoch
    if !free && v == .ahead then s.cnt Reg.MGT_MAP_COUNT_AHEAD 1
    else if s.role = roleMixed ∧ p.srcNode ≠ s.nodeId then s.cnt Reg.CWT_DROP_MAP_REJECT 1
    else if s.r Reg.KEY_STATUS_STATE = 2 ∧ !p.payload.isEmpty then s.cnt Reg.KEY_HEALTH_DROPPED 1
    else
      let old := !free && (v == .old || s.r Reg.MGT_ROLE_DRAIN_QUIESCED == 1)
      if s.cwt.resident.contains (p.dstQp % 2 ^ 24) then atQp s op p old else park s op p old

/-- A packet that has passed step 1 (R297): MACsec (R536), then steps 2 to 11. -/
def receive (s : State) (op : Nat) (p : Packet) : State :=
  match macsecPass s p with
  | none => s.cnt (Reg.CWT_PORT_DROP_MACSEC_DROP.at 0x100 p.port) 1
  | some s => receiveIn s op p

def execSend (p : Packet) (s : State) : Host.Outcome State Fault Refusal := withUnit s (p.port < 8) (receive s Cw.send p)
def execWrite (p : Packet) (s : State) : Host.Outcome State Fault Refusal := withUnit s (p.port < 8) (receive s Cw.write p)
def execReadReq (p : Packet) (s : State) : Host.Outcome State Fault Refusal := withUnit s (p.port < 8) (receive s Cw.readReq p)
def execAtomic (p : Packet) (s : State) : Host.Outcome State Fault Refusal := withUnit s (p.port < 8) (receive s Cw.atomic p)
/-- REDUCE with any ROP but LSEM; the extension says which. -/
def execReduce (p : Packet) (s : State) : Host.Outcome State Fault Refusal := withUnit s (p.port < 8) (receive s Cw.reduce p)
/-- REDUCE with ROP LSEM: where the packet makes its contribution whole, it is applied (R348). -/
def execReduceLsem (p : Packet) (s : State) : Host.Outcome State Fault Refusal := withUnit s (p.port < 8) (receive s Cw.reduce p)
def execMcast (p : Packet) (s : State) : Host.Outcome State Fault Refusal := withUnit s (p.port < 8) (receive s Cw.mcast p)
def execAck (p : Packet) (s : State) : Host.Outcome State Fault Refusal := withUnit s (p.port < 8) (receive s Cw.ack p)
def execNak (p : Packet) (s : State) : Host.Outcome State Fault Refusal := withUnit s (p.port < 8) (receive s Cw.nak p)
def execCreditReq (p : Packet) (s : State) : Host.Outcome State Fault Refusal := withUnit s (p.port < 8) (receive s Cw.creditReq p)

/-- The answer to a read of the controller's own (R132, R223). -/
def ownRead (s : State) (r : OwnResp) : State :=
  match amGet r.read s.xch.reads with
  | none => s
  | some o =>
    let s := { s with xch := { s.xch with reads := amErase r.read s.xch.reads } }
    let ok := r.status == 0 && decide (r.bytes.length = o.len)
    match o.use with
    | .staged h layer => stagedAnswer s h layer r.read r.status (decide (r.bytes.length = o.len)) r.bytes
    | .stream j => streamAnswer s j ((Status.ofCode r.status).getD .fenced) r.detail r.bytes
    | .unit u lost => unitParity s u lost (if ok then some r.bytes else none)

/-- READ_RESP: of a queue pair, or the answer to a read of the controller's own, from the packet's source (R16). -/
def execReadResp (own : Option OwnResp) (p : Packet) (s : State) : Host.Outcome State Fault Refusal :=
  match own with
  | some r => nextOf s (fromNode s p.srcNode (ownRead s r))
  | none => withUnit s (p.port < 8) (receive s Cw.readResp p)

/-! ### A record whose home is this node (R44) -/

/-- An atomic of the controller's own on a record that this node keeps (R44, R334, R339, R343): none where it must wait (R385, R388); else its status code, detail and result. The controller's own access needs no right and no tenant (DEDUCED, log 58). -/
def ownAtomic (s : State) (key : Nat) (q : RecReq) : State × Option (Nat × Nat × Nat) :=
  let no (e : Status × Nat) (w : Nat) : State × Option (Nat × Nat × Nat) := (countRefusal s e, some (e.1.code, e.2, w))
  match regionAt s key with
  | none => no (.stale, Detail.MEM_KEY) 0
  | some (k, r) =>
    let n := aopLen q.aop 3 q.payload.length
    let claim := q.aop == 0x10 || q.aop == 0x11
    if r.closing then no (.stale, Detail.MEM_KEY) 0
    else if r.length < q.off + n ∨ (claim ∧ r.length < q.op2 + 8) then no (.fenced, Detail.MEM_BOUNDS) 0
    else if (q.aop ≠ 0x10 ∧ q.off % n ≠ 0) ∨ (claim ∧ q.op2 % 8 ≠ 0) then no (.fenced, Detail.MEM_ALIGN) 0
    else if regionLost s r q.off n ∨ (claim ∧ regionLost s r q.op2 8) then no (.fenced, Detail.CP_DOUBLE) 0
    else if (waitOn s (regionBlocked s r q.off n true ++ if claim then regionBlocked s r q.op2 8 false else []) 1).isSome then (s, none)
    else
      let word := leNat (s.opRd (r.base + q.op2) 8)
      if claim && word / 2 ^ 32 != q.op1 % 2 ^ 32 then no (.stale, Detail.MEM_CLAIM) word
      else
        let a : Ask := { src := s.nodeId, tenant := 0, qp := 0, op := Cw.atomic, mseq := 0, begins := true, off := q.off, len := n, lsem := false, lease := none }
        match (checkLines s k r a q.off n false).orElse fun _ => if claim then checkLines s k r a q.op2 8 false else none with
        | some e => no e 0
        | none =>
          match atomApply s r q.aop 3 q.off q.op1 q.op2 word q.payload with
          | (s, .ended _ (.atomic st dt w)) => (s, some (st, dt, w))
          | (s, _) => (s, none)

/-- The record that begins at an address of this node, with the offsets of its head counted from `base` (R42, R43, R77). -/
def recView (s : State) (base off : Nat) : RecView :=
  let head := s.opRd (base + off) 64
  let len := bits (leField head 0 8) 0 23
  let seg (k : Nat) : Nat := leNat (s.opRd (base + leField head 0x20 8 + 8 * k) 8)
  { handle := leField head 8 4, tenant := leField head 0xC 4, promptLen := leField head 0x10 4, adapter := leField head 0x14 4,
    model := leField head 0x18 4, userTag := leField head 0x30 8,
    log := (List.range len).map fun p => leNat (s.opRd (base + seg (p / 16384) + 4 * (p % 16384)) 4),
    cuts := (List.range (leField head 0x1C 4)).map fun k => entryOfWord (leNat (s.opRd (base + leField head 0x28 8 + 16 * k) 8)) }

/-- What a read of a record that this node keeps shows: the commit word or an entry, and the record (R42 to R44, R77). -/
def ownView (s : State) (cm : Commit) : Nat × Nat × Nat × Option RecView :=
  match regionAt s cm.record.key with
  | none => (Status.stale.code, Detail.MEM_KEY, 0, none)
  | some (_, r) =>
    let at_ := match cm.kind.cut with | some k => cutMapAt cm.record + 16 * k | none => cm.record.offset
    if r.closing then (Status.stale.code, Detail.MEM_KEY, 0, none)
    else if r.length < at_ + 8 then (Status.fenced.code, Detail.MEM_BOUNDS, 0, none)
    else (0, 0, leNat (s.opRd (r.base + at_) 8), some (recView s r.base cm.record.offset))

/-- The answer to a commit of the controller's own: on a record that this node keeps, the atomic or the read is performed now, its own outcome taken and the record as it then stands shown (R54); one that must wait has none yet. -/
def ownCommit (s : State) (a : AtomicResp) : State :=
  match amGet a.commit s.sch.commits with
  | none => s
  | some cm =>
    if cm.record.node ≠ s.nodeId then recordAnswer s a.commit a
    else if cm.reread then
      let v := ownView s cm
      recordAnswer s a.commit { a with status := v.1, detail := v.2.1, result := v.2.2.1, view := v.2.2.2 }
    else
      match ownAtomic s cm.record.key (cm.req s.nodeId) with
      | (s, some (st, dt, w)) => recordAnswer s a.commit { a with status := st, detail := dt, result := w, view := (ownView s cm).2.2.2 }
      | (s, none) => s

/-- ATOMIC_RESP: of a queue pair, or the answer to a commit of the controller's own, from the packet's source (R16). -/
def execAtomicResp (own : Option AtomicResp) (p : Packet) (s : State) : Host.Outcome State Fault Refusal :=
  match own with
  | some a => nextOf s (fromNode s p.srcNode (ownCommit s a))
  | none => withUnit s (p.port < 8) (receive s Cw.atomicResp p)

/-! ### QP_CTX_FETCHED (R301, R325) -/

/-- A fetched context is placed on die, where one can be evicted for it; with two CRC failures its queue pair enters ERROR; the packets parked for it go on from step 5 in arrival order, and its own work starts. -/
def qpCtxFetched (s : State) (i : Nat) (crcOk retryOk : Bool) : State :=
  if !s.cwt.fetching.contains i then s
  else
    let drop (s : State) : State := { s with cwt := { s.cwt with fetching := s.cwt.fetching.filter (· ≠ i) } }
    let mine := s.cwt.missq.filter fun m => m.pkt.dstQp % 2 ^ 24 == i
    let go (s : State) : State :=
      let s := missRegs { s with cwt := { s.cwt with missq := s.cwt.missq.filter fun m => m.pkt.dstQp % 2 ^ 24 != i } }
      mine.foldl (fun s m => atQp s m.op m.pkt m.old) s
    match s.qpAt i with
    | none => go (drop s)
    | some _ =>
      match qpPlace (drop s) i with
      | none => s
      | some t =>
        let bad := onQuiesced t (qpHome t i)
        let t := match stackAt t (qpHome t i) with
          | some k => if crcOk || bad then t else stackFailed t k Detail.CWT_CTX_CRC (qpHome t i) 0 retryOk
          | none => t
        let t := if (crcOk || retryOk) && !bad then t else qpError t i Detail.CWT_CTX_CRC
        qpSettle (go t) i

def execQpCtxFetched (index : Nat) (crcOk retryOk : Bool) (s : State) : Host.Outcome State Fault Refusal := nextOf s (qpCtxFetched s index crcOk retryOk)

end Sys2Proof.Machine
end

