-- ==== Sys2Proof/Machine/Wire.lean ====
section
/-! DEFINITION. Frames on the Ethernet ports as bytes: ARP and Neighbor Solicitation (R291), the frames that R290, R528 and R536 drop, and the MACsec slots (R537). -/

namespace Sys2Proof.Machine

/-- Whether a sub-port can send (R529). -/
def subUp (s : State) (p k : Nat) : Bool := portUp s p && (subsUp s p).contains k

/-- ARP_REQUEST (R291): a request for this node's own IPv4 address, from the sender's MAC and address, is answered on the sub-port it came in on. The reply's form is RFC 826's, padded to the Ethernet minimum. -/
def arpRequest (s : State) (p k : Nat) (mac ip target : List Byte) : State :=
  let e := nodeEnt s s.nodeId
  if subUp s p k && e.valid && e.v4 && e.ip.drop 12 == target then
    let arp := beBytes 2 1 ++ beBytes 2 0x0800 ++ beBytes 1 6 ++ beBytes 1 4 ++ beBytes 2 2 ++ subMac s p k ++ fit 4 target ++ fit 6 mac ++ fit 4 ip
    sendFrame s p k (fit 6 mac) (fit 48 (beBytes 2 0x0806 ++ arp))
  else s

def execArpRequest (port sub : Nat) (mac ip target : List Byte) (s : State) : Host.Outcome State Fault Refusal :=
  withUnit s (port < 8 && sub < 8) (arpRequest s port sub mac ip target)

/-- NEIGHBOR_SOLICITATION (R291): a solicitation for this node's own IPv6 address is answered by an advertisement of RFC 4861, solicited where the sender has an address. -/
def neighborSolicitation (s : State) (p k : Nat) (mac src target : List Byte) : State :=
  let e := nodeEnt s s.nodeId
  if subUp s p k && e.valid && !e.v4 && e.ip == target then
    let anon := allZero src
    let dst := if anon then beBytes 2 0xFF02 ++ List.replicate 13 0 ++ beBytes 1 1 else fit 16 src
    let body := beBytes 1 (if anon then 0x20 else 0x60) ++ beBytes 3 0 ++ e.ip ++ beBytes 1 2 ++ beBytes 1 1 ++ subMac s p k
    let head := beBytes 1 136 ++ beBytes 1 0
    let icmp := head ++ beBytes 2 (inetSum (pseudo false e.ip dst 58 32 ++ head ++ beBytes 2 0 ++ body)) ++ body
    let ip := beBytes 4 (6 * 2 ^ 28) ++ beBytes 2 32 ++ beBytes 1 58 ++ beBytes 1 255 ++ e.ip ++ dst ++ icmp
    sendFrame s p k (if anon then beBytes 2 0x3333 ++ beBytes 4 1 else fit 6 mac) (beBytes 2 0x86DD ++ ip)
  else s

def execNeighborSolicitation (port sub : Nat) (mac src target : List Byte) (s : State) : Host.Outcome State Fault Refusal :=
  withUnit s (port < 8 && sub < 8) (neighborSolicitation s port sub mac src target)

/-! ### Frames as bytes (R288, R290, R528, R536) -/

/-- Why a frame is dropped: failing R290 or R295, not addressed to Celwald, or by MACsec. -/
inductive FrameDrop where
  | check | nonCelwald | macsec
  deriving DecidableEq, Repr

/-- The 64-bit PN of a SecTAG's 32 bits after the last one accepted. -/
def xpnFull (last lo : Nat) : Nat :=
  let b := last % 2 ^ 32
  last / 2 ^ 32 * 2 ^ 32 + lo + (if lo < b ∧ 2 ^ 31 ≤ b - lo then 2 ^ 32 else 0)

/-- What stands behind the MAC addresses of a frame, MACsec removed where the port has it (R536). -/
def macsecIn (s : State) (p : Nat) (b : List Byte) : Except FrameDrop (List Byte × State) :=
  let rest := b.drop 12
  let et := beField rest 0 2
  if et = 0x888E then .error .macsec
  else if s.r (Reg.CWT_PORT_CFG_MACSEC.at 0x100 p) = 0 then .ok (rest, s)
  else
    let tci := beField rest 2 1
    let an := tci % 4
    let a := saSlot s p an
    let n := rest.length
    let pn := xpnFull a.rxPn (beField rest 4 4)
    if et ≠ 0x88E5 ∨ tci / 4 ≠ 0x0B ∨ 1 < an ∨ !a.valid ∨ n < 32 ∨ pn ≤ a.rxPn then .error .macsec
    else
      let ct := (rest.drop 16).take (n - 32)
      let aad := b.take 28
      let nonce := xpnNonce a ((a.bytes.drop 48).take 4) pn
      if fit 16 (gcmTag (a.bytes.take 32) nonce aad ct) = rest.drop (n - 16) then
        .ok (fit ct.length (gcmOpen (a.bytes.take 32) nonce ct), setSa s p an { a with rxPn := pn })
      else .error .macsec

/-- IPv6 extension headers. -/
def ip6Ext (h : Nat) : Bool := [0, 43, 44, 50, 51, 60, 135, 139, 140].contains h

/-- The UDP datagram of an IP packet to this node, whether the ECN field reads 0b11, and the addresses as a pseudo-header needs them (R290). -/
def ipIn (s : State) (et : Nat) (b : List Byte) : Except FrameDrop (List Byte × Bool × List Byte) :=
  let own := nodeEnt s s.nodeId
  if et = 0x0800 then
    let len := beField b 2 2
    if beField b 0 1 ≠ 0x45 ∨ len < 20 ∨ b.length < len ∨ beField b 6 2 % 0x4000 ≠ 0 ∨ inetSum (b.take 20) ≠ 0 then .error .check
    else if !own.v4 ∨ (b.drop 16).take 4 ≠ own.ip.drop 12 ∨ beField b 9 1 ≠ 17 then .error .nonCelwald
    else .ok ((b.take len).drop 20, beField b 1 1 % 4 == 3, (b.drop 12).take 8 ++ beBytes 2 17 ++ beBytes 2 (len - 20))
  else if et = 0x86DD then
    let len := beField b 4 2
    if b.length < 40 + len ∨ beField b 0 1 / 16 ≠ 6 ∨ ip6Ext (beField b 6 1) then .error .check
    else if own.v4 ∨ (b.drop 24).take 16 ≠ own.ip ∨ beField b 6 1 ≠ 17 then .error .nonCelwald
    else .ok ((b.drop 40).take len, beField b 0 2 / 16 % 4 == 3, (b.drop 8).take 32 ++ beBytes 4 len ++ beBytes 4 17)
  else .error .nonCelwald

/-- The Celwald bytes of a UDP datagram (R290). -/
def udpIn (s : State) (et : Nat) (u addrs : List Byte) : Except FrameDrop (List Byte) :=
  let n := beField u 4 2
  if u.length < 8 ∨ n < 8 ∨ u.length < n then .error .check
  else if beField u 2 2 ≠ s.r Reg.CWT_CFG_UDP_PORT then .error .nonCelwald
  else if beField u 6 2 = 0 then (if et = 0x86DD then .error .check else .ok ((u.take n).drop 8))
  else if inetSum (addrs ++ u.take n) ≠ 0 then .error .check
  else .ok ((u.take n).drop 8)

/-- The Celwald packet of its bytes (R292, R295): opcode and packet, sizes as they are found. -/
def packetIn (port : Nat) (ce : Bool) (b : List Byte) : Except FrameDrop (Nat × Packet) :=
  let n := b.length - 4
  if b.length < 36 ∨ leNat (b.drop n) ≠ crc32c (b.take n) then .error .check
  else
    let ext := 8 * leField b 3 1
    let len := leField b 0x1A 2
    let tag := if bit (leField b 2 1) 5 then 16 else 0
    .ok (leField b 1 1,
      { port := port, sec := none, sizesOk := leField b 0 1 == 1 && decide (n = 32 + ext + len + tag), ce := ce, flags := leField b 2 1,
        srcNode := leField b 4 2, dstNode := leField b 6 2, dstQp := leField b 8 4, srcQp := leField b 0xC 4, psn := leField b 0x10 4,
        ackPsn := leField b 0x14 4, epoch := leField b 0x18 2, msg := leField b 0x1C 4, ext := (b.drop 32).take ext,
        payload := (b.drop (32 + ext)).take len, tag := (b.drop (32 + ext + len)).take tag })

/-- What a frame holds, its FCS good: a Celwald packet, or the reason it is dropped; with the state after MACsec. -/
def frameIn (s : State) (p : Nat) (b : List Byte) : State × Except FrameDrop (Nat × Packet) :=
  match macsecIn s p b with
  | .error e => (s, .error e)
  | .ok (rest, s) =>
    let rest := if beField rest 0 2 = 0x8100 then rest.drop 4 else rest
    let et := beField rest 0 2
    match ipIn s et (rest.drop 2) with
    | .error e => (s, .error e)
    | .ok (u, ce, addrs) =>
      match udpIn s et u addrs with
      | .error e => (s, .error e)
      | .ok c => (s, packetIn p ce c)

/-- NON_CELWALD_FRAME (R290, R528, R536): a frame as it arrives, FCS included. One that fails a check is dropped and counted where the spec says; one that proves to be a good Celwald packet is taken as that packet. -/
def frameArrives (s : State) (p : Nat) (f : List Byte) : State :=
  let n := f.length - 4
  if 9270 < f.length then s.cnt (Reg.CWT_PORT_DROP_OVERSIZE.at 0x100 p) 1
  else if f.length < 18 ∨ leNat (f.drop n) ≠ fcs32 (f.take n) then s.cnt (Reg.CWT_PORT_DROP_FCS_ERR.at 0x100 p) 1
  else
    match frameIn s p (f.take n) with
    | (s, .error .macsec) => s.cnt (Reg.CWT_PORT_DROP_MACSEC_DROP.at 0x100 p) 1
    | (s, .error .check) => s.cnt Reg.CWT_DROP_CHECK_CHECK 1
    | (s, .error .nonCelwald) => s.cnt Reg.CWT_DROP_CHECK_NON_CELWALD 1
    | (s, .ok (op, pkt)) => receiveIn s op pkt

def execNonCelwaldFrame (port : Nat) (frame : List Byte) (s : State) : Host.Outcome State Fault Refusal :=
  withUnit s (port < 8) (frameArrives s port frame)

/-! ### MACsec slots (R537) -/

/-- MACSEC_SA_WRITE: 8-byte word `k` of slot `n` lands; the last makes the slot valid and restarts its PNs. -/
def macsecSaWrite (s : State) (p n k v : Nat) : State :=
  let a := saSlot s p n
  let bytes := a.bytes.take (8 * k) ++ leBytes 8 v ++ a.bytes.drop (8 * k + 8)
  if k = 7 then
    let s := setSa s p n ⟨bytes, true, 1, 0⟩
    s.setR ((if n = 0 then Reg.CWT_PORT_MACSEC_VALID0 else Reg.CWT_PORT_MACSEC_VALID1).at 0x100 p) 1
  else setSa s p n { a with bytes := bytes }

def execMacsecSaWrite (p n k v : Nat) (s : State) : Host.Outcome State Fault Refusal :=
  withUnit s (p < 8 && n < 2 && k < 8) (macsecSaWrite s p n k v)

end Sys2Proof.Machine
end

