-- ==== Sys2Proof/Machine/Health.lean ====
section
/-! DEFINITION. What the controller does with failures (spec/18): stands fenced, lanes retired, stacks quiesced, and the commands STAND_UNFENCE, LANE_RESTORE and STACK_QUIESCE. -/

namespace Sys2Proof.Machine

/-! ### Stands (R439, R440) -/

/-- Withdraws every frame of a stand and places its tasks again from their start (R260, R179, R439). -/
def clearStand (s : State) (st : Nat) : State :=
  let ts := s.xch.tasks.filter fun e => e.2.stand == some st
  ts.foldl (fun s e =>
    let s := match frameOf (s.stand st) e.1 with
      | some f => endFrame s st f
      | none => s
    replaceTask s e.1) s

/-- The same for a list of stands. -/
def clearStands (s : State) (l : List Nat) : State := l.foldl clearStand s

/-- MGT_STAND_LASTING and its copy in the persistent store (R441). -/
def setLasting (s : State) (m : BitVec 64) : State :=
  let s := { s with mgt := { s.mgt with lasting := m }, scb := { s.scb with mram := { s.scb.mram with standLasting := m } } }
  s.setR Reg.MGT_STAND_LASTING_LASTING m.toNat

/-- A lasting failure of a stand fences it (R438, R439). -/
def fenceStand (s : State) (st dt : Nat) : State :=
  if s.mgt.lasting.getLsbD st then s
  else
    let s := clearStand s st
    let s := setLasting s (s.mgt.lasting ||| (1#64 <<< st))
    postFault s { faultRec Src.stand Act.fencedStand 5 st Status.fenced.code dt with count := transients s Src.stand st }

/-- Whether a column test that includes a stand is queued, draining or running. -/
def underTest (s : State) (st : Nat) : Bool := match s.mgt.colTest with | some t => t.col == st / 8 | none => false

/-- STAND_UNFENCE (R4, R440, R558, R564). -/
def standUnfenceBody (c : Cmd) : Body := fun s _ =>
  let st := c.arg0
  if s.r Reg.MGT_FAMILY_PARAM_STANDS ≤ st then fail s .fenced 0
  else if s.mgt.thermalTrip then fail s .conflict 0
  else if (gatedMask s).getLsbD st then fail s .conflict 0
  else if underTest s st then fail s .conflict Detail.FLT_BUSY
  else if s.mgt.lasting.getLsbD st then fail s .conflict Detail.FLT_SELFTEST
  else answer { s with mgt := { s.mgt with notUnfenced := s.mgt.notUnfenced &&& ~~~(1#64 <<< st) } } Done.ok

def execStandUnfence (c : Cmd) (s : State) : Host.Outcome State Fault Refusal := runPlain s Op.STAND_UNFENCE c (standUnfenceBody c)

/-! ### Lanes and ports (R442, R443, R533, R534) -/

/-- A lane's place in fault records and maps (R449). -/
def laneNo (p l : Nat) : Nat := 16 * p + l
/-- The logical lane that a lane of a port carries; 0xF for the spare or a retired one (R533). -/
def mapped (s : State) (p l : Nat) : Nat := s.r ((Reg.CWT_PORT_LANE_MAPPED.at 0x100 p).at 4 l)
def setMapped (s : State) (p l v : Nat) : State := s.setR ((Reg.CWT_PORT_LANE_MAPPED.at 0x100 p).at 4 l) v
def spareUsed (s : State) (p : Nat) : Bool := s.r (Reg.MGT_LANE_STATE_SPARE_USED.at 4 p) == 1
def retiredLane (s : State) (p : Nat) : Nat := s.r (Reg.MGT_LANE_STATE_RETIRED.at 4 p)

/-- The spare of a port: the lane that carries nothing and is not retired. -/
def spareLane (s : State) (p : Nat) : Option Nat := (List.range 9).find? fun l => mapped s p l == 0xF && retiredLane s p != l

/-- One move of the spare from lane c to lane d, which stand side by side: the logical lane of d is carried on c (R533). -/
def spareMove (s : State) (p c d : Nat) : State :=
  let s := setMapped s p c (mapped s p d)
  let s := setMapped s p d 0xF
  { s with cwt := { s.cwt with spareAt := amSet p s.now s.cwt.spareAt } }

/-- The spare walks to a lane by single moves (R534). -/
def spareWalk (s : State) (p c d : Nat) : Nat → State
  | 0 => s
  | n + 1 => if c = d then s else let e := if c < d then c + 1 else c - 1; spareWalk (spareMove s p c e) p e d n

/-- The walk of the spare to lane l, if the port has one. -/
def walkTo (s : State) (p l : Nat) : State := match spareLane s p with | some c => spareWalk s p c l 9 | none => s

/-- A lasting failure of a lane retires it onto the spare; on a port whose spare is used a second one takes the port down (R443). -/
def laneLasting (s : State) (p l : Nat) : State :=
  let n := transients s Src.ethLane (laneNo p l)
  if !spareUsed s p then
    let s := walkTo s p l
    let s := (s.setR (Reg.MGT_LANE_STATE_RETIRED.at 4 p) l).setR (Reg.MGT_LANE_STATE_SPARE_USED.at 4 p) 1
    postFault s { faultRec Src.ethLane Act.retiredLane 5 (laneNo p l) Status.fenced.code Detail.FLT_LANE with count := n }
  else if retiredLane s p = l ∨ s.r (Reg.MGT_LANE_STATE_DOWN.at 4 p) = 1 then s
  else
    let s := s.setR (Reg.MGT_LANE_STATE_DOWN.at 4 p) 1
    postFault s { faultRec Src.ethPort Act.portDown 6 p Status.fenced.code Detail.FLT_PORT_DOWN with count := n }

/-- A calibration of a lane ended; two failures in a row are lasting (R442). -/
def laneCalibrated (s : State) (p l : Nat) (pass : Bool) : State :=
  let k := laneNo p l
  if pass then { s with mgt := { s.mgt with laneFail := amErase k s.mgt.laneFail } }
  else
    let n := amGetD k 0 s.mgt.laneFail + 1
    let s := { s with mgt := { s.mgt with laneFail := amSet k n s.mgt.laneFail } }
    if 2 ≤ n then laneLasting { s with mgt := { s.mgt with laneFail := amErase k s.mgt.laneFail } } p l else s

/-- An uncorrectable FEC event whose failed codewords a lane carried: counted, and the second within 1 ms is lasting (R442). -/
def laneFecEvent (s : State) (p l : Nat) (retryOk : Bool) : State :=
  let k := laneNo p l
  let s := s.cnt (Reg.CWT_PORT_FEC_UNCORR.at 0x100 p) 1
  let again := match amGet k s.mgt.laneFec with | some t => decide (s.now ≤ t + 1000000) | none => false
  let s := { s with mgt := { s.mgt with laneFec := amSet k s.now s.mgt.laneFec } }
  match failed s Src.ethLane k (retryOk && !again) with
  | (s, true) => laneLasting s p l
  | (s, false) => s

/-- LANE_RESTORE (R443): a retired lane whose latest calibration under R448 passed becomes the port's spare again. -/
def laneRestoreBody (c : Cmd) : Body := fun s _ =>
  let p := bits c.arg0 0 3
  let l := bits c.arg0 8 4
  if s.r Reg.MGT_FAMILY_PARAM_ETH_PORTS ≤ p ∨ 9 ≤ l then fail s .fenced 0
  else if retiredLane s p ≠ l then fail s .conflict 0
  else if !s.mgt.lanePass.contains (laneNo p l) then fail s .conflict Detail.FLT_SELFTEST
  else
    let s := { s with cwt := { s.cwt with spareAt := amSet p s.now s.cwt.spareAt } }
    answer ((s.setR (Reg.MGT_LANE_STATE_RETIRED.at 4 p) 0xF).setR (Reg.MGT_LANE_STATE_SPARE_USED.at 4 p) 0) Done.ok

def execLaneRestore (c : Cmd) (s : State) : Host.Outcome State Fault Refusal := runPlain s Op.LANE_RESTORE c (laneRestoreBody c)

/-! ### Stacks (R444) -/

/-- STACK_QUIESCE (R4, R444). -/
def stackQuiesceBody (c : Cmd) : Body := fun s _ =>
  if s.r Reg.MGT_FAMILY_PARAM_STACKS ≤ c.arg0 then fail s .fenced 0 else answer (quiesceStack s c.arg0) Done.ok

def execStackQuiesce (c : Cmd) (s : State) : Host.Outcome State Fault Refusal := runPlain s Op.STACK_QUIESCE c (stackQuiesceBody c)

/-- STACK_FAULT (R444): a stack lost PHY training or reports a fatal fault. -/
def execStackFault (k : Nat) (s : State) : Host.Outcome State Fault Refusal := withUnit s (k < 8) (quiesceStack s k)

/-! ### DETECTED_ERROR (R434 to R438) -/

/-- A failure at the mesh, the landing or a chip-level SRAM (R438). -/
def meshFailed (s : State) (retryOk : Bool) : State :=
  match failed s Src.mesh 0 retryOk with
  | (s, true) => postFault s { faultRec Src.mesh Act.recorded 7 0 Status.fenced.code Detail.FLT_MESH with count := transients s Src.mesh 0 }
  | (s, false) => s

/-- A failure at the host port or a flexible port (R438). -/
def linkFailed (s : State) (src el : Nat) (retryOk : Bool) : State :=
  match failed s src el retryOk with
  | (s, true) => postFault s { faultRec src Act.recorded 6 el Status.fenced.code Detail.FLT_LINK with count := transients s src el }
  | (s, false) => s

/-- A failure at a stand: transient, or lasting, which fences it. -/
def standFailed (s : State) (st dt : Nat) (retryOk : Bool) : State :=
  match failed s Src.stand st retryOk with
  | (s, true) => fenceStand s st dt
  | (s, false) => s

/-- The command of a frame that an engine runs: the attention command it has started, or for the codec and the mover the oldest. -/
def runningCmd (S : Stand) (f : Nat) : Engine → Option EngCmd
  | .att => S.att.find? fun c => c.frame == f && c.started
  | .cdc => S.cdc.find? fun c => c.frame == f
  | .mov => S.mov.find? fun c => c.frame == f

/-- A command that a parity error makes run again: from its start (R116). -/
def EngCmd.again (c : EngCmd) : EngCmd := { c with started := false, tile := 0, rows := [], preNan := 0, retried := true }

/-- A stand with a command of one of its queues run again. -/
def restartCmd (S : Stand) (c : EngCmd) : Stand :=
  let g (q : EngCmd) : EngCmd := if q == c then c.again else q
  { S with att := S.att.map g, cdc := S.cdc.map g, mov := S.mov.map g }

/-- A deck word failed its parity under an engine's command (R116, R434): the command runs once more from its start; a second error, in that run or found again later in the same command, ends it with FENCED, ATT_PARITY at the attention engine, and the stand is fenced. -/
def engineFailed (s : State) (e : Engine) (st f : Nat) (retryOk : Bool) : State :=
  match runningCmd (s.stand st) f e with
  | none => s
  | some c =>
    let s := if e = .att ∧ !c.retried then s.cnt (Reg.STD_ATT_RETRY_RETRIED.at 0x10000 st) 1 else s
    if retryOk ∧ !c.retried then standFailed (s.setStand st (restartCmd (s.stand st) c)) st Detail.FLT_STAND true
    else
      let s := if e = .att then s.cnt (Reg.STD_ATT_RETRY_LASTING.at 0x10000 st) 1 else s
      let s := finishCmd s st f e c.ticket Status.fenced.code (if e = .att then Detail.ATT_PARITY else Detail.FLT_STAND)
      standFailed s st Detail.FLT_STAND false

/-- Sequencer registers or a save area failed parity (R261): the task is withdrawn and placed again; a second error in the task is lasting. -/
def sequencerFailed (s : State) (st f : Nat) (retryOk : Bool) : State :=
  match amGet f (s.stand st).frames with
  | none => s
  | some F =>
    let again := match amGet F.task s.xch.tasks with | some T => T.erred | none => false
    let ok := retryOk && !again
    let s := s.cnt ((if ok then Reg.STD_SEQ_RETRY_RETRIED else Reg.STD_SEQ_RETRY_LASTING).at 0x10000 st) 1
    let s := replaceTask (stopFrame s st f) F.task
    standFailed { s with xch := { s.xch with tasks := amMod F.task (fun (T : Task) => { T with erred := true }) s.xch.tasks } } st Detail.FLT_STAND ok

/-- The code of a stand with one 64-byte line fetched again from the image store (R261, R264). -/
def refetch (s : State) (st line : Nat) : State :=
  let S := s.stand st
  match S.image with
  | none => s
  | some im =>
    let b := bundlesOf (s.rd (imageBase s + 0x40000 * (st / 8) + 64 * line) 64)
    s.setStand st { S with image := some { im with code := im.code.take (4 * line) ++ b.take (im.code.length - 4 * line) ++ im.code.drop (4 * line + 4) } }

/-- The line of instruction memory that the running frame of a stand issues from. -/
def issueLine (S : Stand) : Nat := match S.running.bind fun f => amGet f S.frames with | some F => F.pc / 4 | none => 0

/-- A line of instruction memory failed parity (R261): it is refetched from the image store and its bundle issued again; a second error in the line is lasting. -/
def instrFailed (s : State) (st : Nat) (retryOk : Bool) : State :=
  let S := s.stand st
  let line := issueLine S
  let ok := retryOk && !S.badLines.contains line
  let s := s.cnt ((if ok then Reg.STD_SEQ_RETRY_RETRIED else Reg.STD_SEQ_RETRY_LASTING).at 0x10000 st) 1
  let s := s.setStand st { S with badLines := if S.badLines.contains line then S.badLines else S.badLines ++ [line] }
  standFailed (refetch s st line) st Detail.STD_IPARITY ok

/-- The mover command whose data failed a check, if one's did: its segment is read or written again, and a second error ends the command (R434, R436). -/
def transferFailed (s : State) (mover : Option (Nat × Nat)) (dt : Nat) (retryOk : Bool) : State :=
  match mover.bind fun m => (runningCmd (s.stand m.1) m.2 .mov).map fun c => (m, c) with
  | some (m, c) => if retryOk then s else finishCmd s m.1 m.2 .mov c.ticket Status.fenced.code dt
  | none => s

/-- A beat of a haul road failed parity under a mover command, or data of a stack did (R434): read or written again, and counted at the stack. An access that is no mover command's is whole in one step here, its repetition within it (log 164). -/
def accessFailed (s : State) (k : Nat) (mover : Option (Nat × Nat)) (retryOk : Bool) : State :=
  stackFailed (transferFailed s mover Detail.FLT_STACK retryOk) k Detail.FLT_STACK 0 0 retryOk

/-- A packet in the landing failed parity: it is discarded before it is performed, and its sender sends it again (R434, R313); its units stay counted in RCV_UNITS (R307). -/
def landingFailed (s : State) (i psn : Nat) (retryOk : Bool) : State :=
  let gone (x : RxPkt) : Bool := x.psn == psn && (x.stage == .waiting || x.stage == .held)
  meshFailed (s.modQp i fun q => if q.rx.any gone then { q with rx := q.rx.filter fun x => !gone x, counted := q.counted ++ [psn] } else q) retryOk

/-- A packet in the miss queue failed parity and is discarded. -/
def missFailed (s : State) (pos : Nat) (retryOk : Bool) : State :=
  meshFailed (missRegs { s with cwt := { s.cwt with missq := s.cwt.missq.take pos ++ s.cwt.missq.drop (pos + 1) } }) retryOk

/-- A hot line failed parity (R354): lasting at once; its bytes are never written back, and the regions it lies in complete operations with FENCED until they are closed. -/
def hotFailed (s : State) (line : Nat) : State :=
  if !amHas line s.rm.hot then s
  else
    let s := { s with rm := { s.rm with hot := amErase line s.rm.hot } }
    let s := s.setR Reg.CWT_HOT_STATUS_LINES s.rm.hot.length
    let rs := (s.rm.regions.filter fun e => decide (e.2.base < 64 * line + 64) && decide (64 * line < e.2.base + e.2.length)).map (·.1)
    let s := { s with rm := { s.rm with hotBad := s.rm.hotBad ++ rs.filter fun i => !s.rm.hotBad.contains i } }
    let s := postFault s { faultRec Src.mesh Act.recorded 7 0 Status.fenced.code Detail.FLT_MESH with address := 64 * line }
    setEvent s Reg.CWT_MEM_EVENT_HOT_FAULT 1

/-- Errors that a stack corrected inside itself: counted, and gathered for the stack's wear (R434). -/
def correctedErrors (s : State) (k n : Nat) : State :=
  let s := s.cnt (Reg.MGT_TRANSIENT_COUNT.at 4 5) n
  { s with scb := { s.scb with daySum := amSet (136 + k) (amGetD (136 + k) 0 s.scb.daySum + n) s.scb.daySum } }

/-- An IDE stream found an integrity failure (R471): a Secure stream becomes Insecure, with KEY_EVENT.IDE and a record of severity 6; a CXL Type-3 port that REQUIRE_IDE now counts as down takes its areas with it (R396). -/
def ideFailed (s : State) (port stream : Nat) : State :=
  let k := 16 * port + stream
  match amGet k s.kh.ide with
  | none => s
  | some x =>
    if !x.secure then s
    else
      let s := setEvent { s with kh := { s.kh with ide := amSet k { x with secure := false } s.kh.ide } } Reg.KEY_EVENT_IDE 3
      let src := if port = 15 then Src.hostPort else Src.flexPort
      let el := if port = 15 then 0 else port
      postFault s (faultRec src Act.recorded 6 el Status.fenced.code Detail.KEY_IDE)

def detectedError (s : State) (p : ErrPoint) (retryOk : Bool) : State :=
  match p with
  | .engine e st f => engineFailed s (if e = 0 then .att else if e = 1 then .cdc else .mov) st f retryOk
  | .sequencer st f => sequencerFailed s st f retryOk
  | .instrMem st => instrFailed s st retryOk
  | .mesh => meshFailed s retryOk
  | .bus k st f => accessFailed s k (some (st, f)) retryOk
  | .landing i psn => landingFailed s i psn retryOk
  | .missQueue pos => missFailed s pos retryOk
  | .sram => meshFailed s retryOk
  | .hotLine line => hotFailed s line
  | .stack k m => accessFailed s k m retryOk
  | .corrected k n => correctedErrors s k n
  | .lane p l => laneFecEvent s p l retryOk
  | .hostPort => linkFailed s Src.hostPort 0 retryOk
  | .flexPort q m => linkFailed (transferFailed s m Detail.FLT_LINK retryOk) Src.flexPort q retryOk
  | .ide port stream => ideFailed s port stream

/-- Whether the unit a check names exists. -/
def errPointOk : ErrPoint → Bool
  | .engine e st f => decide (e < 3) && decide (st < 64) && decide (f < 4)
  | .sequencer st f => decide (st < 64) && decide (f < 4)
  | .instrMem st => decide (st < 64)
  | .bus k st f => decide (k < 8) && decide (st < 64) && decide (f < 4)
  | .stack k m => decide (k < 8) && m.all fun m => decide (m.1 < 64) && decide (m.2 < 4)
  | .corrected k _ => decide (k < 8)
  | .lane p l => decide (p < 8) && decide (l < 9)
  | .flexPort q m => decide (q < 8) && m.all fun m => decide (m.1 < 64) && decide (m.2 < 4)
  | .ide port _ => decide (port < 8) || port == 15
  | .mesh | .landing _ _ | .missQueue _ | .sram | .hotLine _ | .hostPort => true

def execDetectedError (p : ErrPoint) (retryOk : Bool) (s : State) : Host.Outcome State Fault Refusal := withUnit s (errPointOk p) (detectedError s p retryOk)

end Sys2Proof.Machine
end

