-- ==== Sys2Proof/Machine/ScaleBook.lean ====
section
/-! DEFINITION. The scale book's flushes and store (R489 to R492), the ageing monitors (R494 to R496) and the fault queue's doorbell and software reports (R449, R450). -/

namespace Sys2Proof.Machine

/-- Kept record slots (R489). -/
def keptSlots : Nat := 4096
/-- Circulating record slots (R489). -/
def circSlots : Nat := 126464

/-- A write of 1 to SCB_CTL.FLUSH starts a flush (R491). -/
def execScbFlushWrite (v : Nat) (s : State) : Host.Outcome State Fault Refusal :=
  nextOf s (if bit v 0 then scbStartFlush s else s)

/-- A write of 1 to SCB_CTL.CIRC_CLEAR empties the circulating area and not the kept area (R490). CIRC_NEXT and WRAPS keep their values: the rule empties the area and says nothing of them (log 15). -/
def execCircClear (v : Nat) (s : State) : Host.Outcome State Fault Refusal :=
  nextOf s (if bit v 1 then { s with scb := { s.scb with mram := { s.scb.mram with circArea := [] } } } else s)

/-- Copies one record into the MRAM: the kept area first, in order, then circulating slot CIRC_NEXT, which advances and wraps (R490). -/
def mramPut (m : Mram) (r : ScbRec) : Mram :=
  if m.kept < keptSlots then { m with keptArea := amSet m.kept r m.keptArea, kept := m.kept + 1 }
  else
    let n := m.circNext + 1
    { m with circArea := amSet m.circNext r m.circArea,
             circNext := if n = circSlots then 0 else n,
             wraps := if n = circSlots then m.wraps + 1 else m.wraps }

/-- Writes the selected records in order and sets FLUSHED on each (R491). -/
def flushAll (sc : Scb) : List Nat → Scb
  | [] => sc
  | k :: l =>
    match amGet k sc.ring with
    | none => flushAll sc l
    | some r =>
      let r' := { r with flushed := true }
      flushAll { sc with mram := mramPut sc.mram r', ring := amSet k r' sc.ring } l

/-- A flush ends: its records are in the MRAM; another starts where eligible records remain (R491). A power-fail flush that completes leaves its mark for the next start-up (R492). -/
def scbFlushDone (s : State) : State :=
  if !s.scb.flushing then s
  else
    let sc := flushAll s.scb s.scb.flush
    let sc := { sc with flush := [], flushing := false, mram := { sc.mram with lastPfail := sc.mram.lastPfail || s.scb.pfailing } }
    let s := setEvent { s with scb := sc } Reg.SCB_EVENT_FLUSH_DONE 3
    if !s.scb.pfailing && !(scbSelect s).isEmpty then scbStartFlush s else s

def execScbFlushDone (s : State) : Host.Outcome State Fault Refusal := nextOf s (scbFlushDone s)

/-- PFAIL_N asserts (R492): one EVENT of severity 7 with SOURCE POWER is written, whatever the ring holds; the running flush is abandoned but for the record being written, the power-fail flush selects its records, and from then on the ring accepts no other record. -/
def pfail (s : State) : State :=
  if s.scb.pfailing then s
  else
    let s :=
      match s.scb.flushing, s.scb.flush with
      | true, k :: _ => { s with scb := flushAll { s.scb with flush := [], flushing := false } [k] }
      | _, _ => { s with scb := { s.scb with flush := [], flushing := false } }
    let s := scbPut s { seq := 0, boot := 0, kind := 3, severity := 7, flushed := false, clamped := false, source := Src.power,
                        element := 0, item := 0, tFirst := s.now, tLast := s.now, count := 1,
                        body := (faultRec Src.power Act.recorded 7 0 0 0).image 0 s.now }
    { s with scb := { s.scb with pfailing := true, flushing := true, flush := scbSelect s } }

def execPfail (s : State) : Host.Outcome State Fault Refusal := nextOf s (pfail s)

/-! ### Ageing monitors -/

/-- DEGR of R494 in units of 0.001 %: 1 − q / q0 with q the stressed count over the reference count; 0 where the pair has aged by nothing or less. -/
def degr (stressed ref q0s q0r : Nat) : Nat :=
  let a := stressed * q0r
  let b := ref * q0s
  if b = 0 then 0 else if b ≤ a then 0 else (b - a) * 100000 / b

/-- One borer pair measured (R494): the first measurement becomes its baseline in the MRAM; each gives DEGR, which joins the day's mean. The two counts of a baseline are kept as stressed × 2^32 + reference. -/
def borerOne (s : State) (m : Nat × Nat × Nat) : State :=
  let e := m.1
  if 128 ≤ e then s
  else
    let b := (amGet e s.scb.mram.baseline).getD (m.2.1 * 2 ^ 32 + m.2.2)
    let d := degr m.2.1 m.2.2 (b / 2 ^ 32) (b % 2 ^ 32)
    let s := { s with scb := { s.scb with
      mram := { s.scb.mram with baseline := amSet e b s.scb.mram.baseline },
      daySum := amSet e (amGetD e 0 s.scb.daySum + d) s.scb.daySum,
      dayN := amSet e (amGetD e 0 s.scb.dayN + 1) s.scb.dayN } }
    s.setR (Reg.SCB_BORER_DEGR.at 4 e) (min d 65535)

/-- BORER_MEASURE: every pair counted over 1 ms; `counts` gives each pair's element with its stressed and reference counts (R494). -/
def execBorerMeasure (counts : List (Nat × Nat × Nat)) (s : State) : Host.Outcome State Fault Refusal :=
  nextOf s (counts.foldl borerOne s)

/-- The least-squares line through daily means 1 to n, as exact fractions over one denominator: slope and fitted value at the latest day (R496). -/
def fitLine (ys : List Nat) : Int × Int × Int :=
  let n : Int := ys.length
  let idx := (List.range ys.length).map fun (i : Nat) => (i : Int) + 1
  let sx := idx.foldl (· + ·) 0
  let sxx := idx.foldl (fun a x => a + x * x) 0
  let sy := ys.foldl (fun (a : Int) (y : Nat) => a + y) 0
  let sxy := (idx.zip ys).foldl (fun (a : Int) (p : Int × Nat) => a + p.1 * p.2) 0
  let den := n * sxx - sx * sx
  let b := n * sxy - sx * sy
  let a := sy * sxx - sx * sxy
  -- slope = b / den, fitted at day n = (a + b * n) / den; for one point the line is level
  if den = 0 then (0, sy, 1) else (b, a + b * n, den)

/-- The wear limit of a monitor element in the unit of its daily means (R495): RO_LIMIT for borer pairs, LASER_PCT percent of the first daily mean for lasers, CE_PER_DAY × 100 for stacks (SCB_EOL_CFG counts hundreds: 0x0064 stands for 10,000). -/
def wearLimit (s : State) (e : Nat) : Nat :=
  if e < 128 then max 1 (s.r Reg.SCB_EOL_CFG_RO_LIMIT)
  else if e < 136 then (((amGet e s.scb.mram.daily).getD []).headD 0) * max 101 (s.r Reg.SCB_BORER_CFG_LASER_PCT) / 100
  else max 1 (s.r Reg.SCB_EOL_CFG_CE_PER_DAY) * 100

/-- WEAR_PCT and DAYS of an element with daily means `ys` against `limit` (R496). -/
def wearOf (ys : List Nat) (limit : Nat) : Nat × Nat :=
  let f := fitLine ys
  let fitted := f.2.1
  let den := f.2.2
  let lim : Int := limit * den
  let pct := if lim ≤ 0 then 255 else min 255 ((fitted * 100) / lim).toNat
  let days :=
    if ys.length < 7 ∨ f.1 ≤ 0 then 0xFFFF
    else if lim ≤ fitted then 0
    else min 0xFFFE ((lim - fitted) / f.1).toNat
  (pct, days)

/-- The daily figure of an element: the mean of the day's readings, where it has any, or for stacks the day's count of corrected errors (R495). -/
def dayFigure (s : State) (e : Nat) : List Nat :=
  if 136 ≤ e then [amGetD e 0 s.scb.daySum]
  else
    let n := amGetD e 0 s.scb.dayN
    if n = 0 then [] else [amGetD e 0 s.scb.daySum / n]

/-- One element at a wear-day end: its daily mean is stored (the last 64 kept), WEAR_PCT and DAYS evaluated, SCB_EOL set, and a WEAR record written; EOL_WARN is set when DAYS first falls below WARN_DAYS (R495, R496). -/
def wearOne (s : State) (e : Nat) : State :=
  let old := (amGet e s.scb.mram.daily).getD []
  let ys := old ++ dayFigure s e
  let ys := ys.drop (ys.length - 64)
  let s := { s with scb := { s.scb with mram := { s.scb.mram with daily := amSet e ys s.scb.mram.daily } } }
  let w := wearOf ys (wearLimit s e)
  let warn := decide (w.2 < s.r Reg.SCB_BORER_CFG_WARN_DAYS)
  let word := w.2 * 65536 + ys.length * 256 + w.1
  let s := { s with scb := { s.scb with mram := { s.scb.mram with eol := amSet e word s.scb.mram.eol } } }
  let s := ((s.setR (Reg.SCB_EOL_DAYS.at 4 e) w.2).setR (Reg.SCB_EOL_POINTS.at 4 e) ys.length).setR (Reg.SCB_EOL_WEAR_PCT.at 4 e) w.1
  let s := scbPut s { seq := 0, boot := 0, kind := 4, severity := if warn then 5 else 2, flushed := false, clamped := false,
                      source := Src.borer, element := e, item := 0, tFirst := s.now, tLast := s.now, count := 0,
                      body := leBytes 4 (ys.getLastD 0) ++ leBytes 2 w.2 ++ leBytes 1 ys.length ++ leBytes 1 w.1 }
  if warn && !s.scb.warned.contains e then
    setEvent { s with scb := { s.scb with warned := e :: s.scb.warned } } Reg.SCB_EVENT_EOL_WARN 3
  else if !warn then { s with scb := { s.scb with warned := s.scb.warned.filter (· ≠ e) } }
  else s

/-- A wear day in ns of device time (R495); in PS4 the device time stands still with the rest. -/
def wearDayNs : Nat := 86400000000000

/-- WEAR_DAY_END, once the day has passed: every monitored element's daily figure is stored and its wear evaluated; a new day begins (R495, R496). -/
def wearDayEnd (s : State) : State :=
  if s.now < s.scb.dayTime + wearDayNs then s
  else
    let s := (List.range 144).foldl wearOne s
    { s with scb := { s.scb with daySum := [], dayN := [], dayTime := s.now } }

def execWearDayEnd (s : State) : Host.Outcome State Fault Refusal := nextOf s (wearDayEnd s)

/-! ### The fault queue -/

/-- A write to MGT_FLT_HEAD: consumes records, unless behind the previous head or ahead of TAIL; held records then go out as slots free (R449). -/
def faultHeadWrite (s : State) (v : Nat) : State :=
  let v := v % 2 ^ 32
  if v < s.r Reg.MGT_FLT_HEAD_HEAD ∨ s.mgt.fltTail < v then s
  else fltDrain (s.setR Reg.MGT_FLT_HEAD_HEAD v) s.mgt.fltHeld.length

def execFaultHeadWrite (v : Nat) (s : State) : Host.Outcome State Fault Refusal := nextOf s (faultHeadWrite s v)

/-- A write to MGT_FLT_SWREPORT posts one record with SOURCE SOFTWARE, severity 6 and the write's status, detail and tag (R450). -/
def swreport (s : State) (v : Nat) : State :=
  postFault s { faultRec Src.software Act.recorded 6 0 (bits v 24 8) (bits v 16 8) with jobTag := bits v 32 32 }

def execSwreport (v : Nat) (s : State) : Host.Outcome State Fault Refusal := nextOf s (swreport s v)

end Sys2Proof.Machine
end

