-- ==== Sys2Proof/Machine/Observe.lean ====
section
/-! DEFINITION. Queue observers (R374 to R377) and the scale book's interval boundary (R484, R488, R442). -/

namespace Sys2Proof.Machine

/-! ### What an observer sees (R374, R375) -/

/-- Payload bytes of the packets that a work request has still to send for the first time. -/
def wrPieces (w : SendWr) : List Nat :=
  let o := wrOp w.wr
  if w.allSent || w.failed.isSome || (o == Cw.mcast && w.fwd.isNone) then []
  else if w.fwd.isSome then [w.data.length]
  else if o = Cw.readReq then [0]
  else
    let step := max 1 (pieceLen { w with next := 0 })
    let left := wrPayload w.wr - w.next
    if left = 0 then (if w.sentAny then [] else [0]) else (List.range ((left + step - 1) / step)).map fun k => min step (left - k * step)

/-- The work requests a queue pair has posted and the controller has not taken, those ready from their posting (R375). -/
def postedWrs (s : State) (q : Qp) : List SendWr :=
  ((List.range q.posted).zip q.posts).filterMap fun e =>
    let w := sqEntry s q e.1
    if wrOk q w && !wrChoker w then some (SendWr.posted e.2.1 e.2.2 w) else none

/-- The next paths that a rotor gives from one on (R311). -/
def rotorRun (s : State) (n p : Nat) : Nat → List Nat
  | 0 => []
  | k + 1 => freePath s n p :: rotorRun s n (freePath s n p + 1) k

/-- The packets of a queue pair that are ready or held by a shaper: frame bytes, the port each leaves on, and since when (R375). Packets not sent before take the paths that the rotor gives from here on (R311). -/
def readyPackets (s : State) (q : Qp) : List (Nat × Option Nat × Nat) :=
  if q.state != .ready && q.state != .draining then []
  else
    let again := (q.unacked.filter (·.due)).map fun (t : TxPkt) =>
      let path := freePath s q.peerNode (t.path + 1)
      (pktFrame s q path (extLen t.op) (if t.op = Cw.readReq then 0 else t.len), portOf s q path, t.dueAt)
    let new := (q.resp.map fun (r : TxResp) => (r.ext.length, r.payload.length, r.since))
      ++ (q.stream ++ postedWrs s q).flatMap fun w => (wrPieces w).map fun n => (extLen (wrOp w.wr), n, w.time)
    again ++ (new.zip (rotorRun s q.peerNode (amGetD q.peerNode 0 s.cwt.rotor) new.length)).map fun e =>
      (pktFrame s q e.2 e.1.1 e.1.2.1, portOf s q e.2, e.1.2.2)

/-- Depth in bytes and arrival times of the queue that an observer watches; none where it is off. -/
def obsQueue (s : State) (kind index : Nat) : Option (Nat × List Nat) :=
  if kind = 1 then
    let x := shpGet s index
    let qs := s.cwt.qps.filter fun e => match e.2.shaper with | some b => index == b || index == b + 1 + e.2.cls | none => false
    let ps := qs.flatMap fun e => readyPackets s e.2
    some (ps.foldl (fun n p => n + x.length p.1) 0, ps.map (·.2.2))
  else if kind = 2 then
    let qs := s.cwt.qps.filter fun e => e.2.cls == bits index 0 3
    let ps := qs.flatMap fun e => (readyPackets s e.2).filter fun p => p.2.1 == some (bits index 3 4)
    some (ps.foldl (fun n p => n + p.1) 0, ps.map (·.2.2))
  else if kind = 3 then
    some (landingBytes s, s.cwt.qps.flatMap fun e => (e.2.rx.filter fun (x : RxPkt) => x.stage != .done).map fun (x : RxPkt) => x.time)
  else if kind = 4 then some (missBytes s, s.cwt.missq.map fun (m : MissPkt) => m.time)
  else none

/-- The depth bin and the delay bin of R376. -/
def depthBin (d : Nat) : Nat := if d = 0 then 0 else if d < 1024 then 1 else min 15 (Nat.log2 (d / 512) + 1)
def delayBin (t : Nat) : Nat := if t < 64 then 0 else min 15 (Nat.log2 (t / 64) + 1)

/-- One sample in a bank (R376); counters of 32 bits saturate. -/
def ObsBank.sample (b : ObsBank) (d t : Nat) : ObsBank :=
  { depth := listMod (depthBin d) (fun n => satAdd 32 n 1) b.depth, delay := listMod (delayBin t) (fun n => satAdd 32 n 1) b.delay,
    maxDepth := max b.maxDepth (min d (2 ^ 32 - 1)), maxDelay := max b.maxDelay (min t (2 ^ 32 - 1)), samples := satAdd 32 b.samples 1 }

/-- A bank of an observer. -/
def obsBank (s : State) (o bank : Nat) : ObsBank := amGetD (2 * o + bank) ObsBank.clear s.cwt.obs

def obsKind (s : State) (o : Nat) : Nat := s.r (Reg.CWT_OBS_SEL_KIND.at 4 o)

/-- One observer takes its sample (R375). -/
def obsSample (s : State) (o : Nat) : State :=
  match obsQueue s (obsKind s o) (s.r (Reg.CWT_OBS_SEL_INDEX.at 4 o)) with
  | none => s
  | some (d, ts) =>
    let t := match ts with | [] => 0 | x :: l => s.now - l.foldl min x
    { s with cwt := { s.cwt with obs := amSet (2 * o) ((obsBank s o 0).sample d t) s.cwt.obs, obsLast := amSet o (d, t) s.cwt.obsLast } }

/-- OBSERVER_SAMPLE (R375, R377): at each multiple of 1,000 ns, once; observers reselected start from clear bins. Operations that a bandwidth window held are tried again. -/
def observerSample (s : State) : State :=
  if s.now % 1000 ≠ 0 ∨ s.cwt.obsAt = some s.now then s
  else
    let s := { s with cwt := { s.cwt with obs := amFilter (fun k _ => !(k % 2 == 0 && s.cwt.obsClear.contains (k / 2))) s.cwt.obs, obsClear := [], obsAt := some s.now, obsLast := [] } }
    let s := { s with cwt := { s.cwt with obsPrev := amFilter (fun k _ => k % 2 == 0) s.cwt.obs } }
    rxRetry ((List.range 256).foldl obsSample s)

def execObserverSample (s : State) : Host.Outcome State Fault Refusal := nextOf s (observerSample s)

/-- The live bank becomes the snapshot and is cleared (R377): a sample of the same instant lands in the new live bank, and a second copy at one instant is merged with the first. -/
def obsSnapshot (s : State) : State :=
  if s.cwt.obsSnapAt = some s.now then s
  else
    let same := s.cwt.obsAt == some s.now
    let live := if same then s.cwt.obsPrev else amFilter (fun k _ => k % 2 == 0) s.cwt.obs
    let snap : AMap ObsBank := live.foldl (fun m e => amSet (e.1 + 1) e.2 m) []
    let obs := if same then s.cwt.obsLast.foldl (fun m e => amSet (2 * e.1) (ObsBank.clear.sample e.2.1 e.2.2) m) snap else snap
    let s := { s with cwt := { s.cwt with obs := obs, obsPrev := [], obsSnapAt := some s.now } }
    s.setR Reg.CWT_OBS_SNAP_TIME_TIME s.now

/-- A write to CWT_OBS_CTL. -/
def execObsSnap (v : Nat) (s : State) : Host.Outcome State Fault Refusal := nextOf s (if bit v 0 then obsSnapshot s else s)

/-- A write to CWT_OBS_SEL of observer o: a change clears its live bins at the next sample (R377). -/
def obsSelWrite (s : State) (o v : Nat) : State :=
  let k := Reg.CWT_OBS_SEL_KIND.at 4 o
  let x := Reg.CWT_OBS_SEL_INDEX.at 4 o
  if s.r k = bits v 28 4 ∧ s.r x = bits v 0 16 then s
  else
    let s := (s.setR k (bits v 28 4)).setR x (bits v 0 16)
    { s with cwt := { s.cwt with obsClear := if s.cwt.obsClear.contains o then s.cwt.obsClear else o :: s.cwt.obsClear } }

def execObsSelWrite (o v : Nat) (s : State) : Host.Outcome State Fault Refusal := withUnit s (o < 256) (obsSelWrite s o v)

/-! ### The interval boundary (R484, R488) -/

/-- A record of interval statistics (R483, R484). -/
def statRec (kind source element item t0 t1 : Nat) (clamped : Bool) (body : List Byte) : ScbRec :=
  { seq := 0, boot := 0, kind := kind, severity := 0, flushed := false, clamped := clamped, source := source, element := element, item := item,
    tFirst := t0, tLast := t1, count := 0, body := body }

/-- The body of a HIST record: SCALE 0, UNIT, SAMPLES, SUM, MIN, MAX, sixteen bins. -/
def histBody (unit samples sum mn mx : Nat) (bins : List Nat) : List Byte :=
  leBytes 1 0 ++ leBytes 1 unit ++ leBytes 2 0 ++ leBytes 4 samples ++ leBytes 8 sum ++ leBytes 8 mn ++ leBytes 8 mx ++ bins.flatMap (leBytes 4)

/-- The bin of a sample counted in units of U (R484). -/
def histBin (x : Int) : Nat := if x < 1 then 0 else min 15 (Nat.log2 x.toNat + 1)

/-- Writes the HIST record of a list of samples in units of U. The encoding of UNIT is not given: a free value. -/
def putHist (s : State) (source item t0 t1 : Nat) (xs : List Int) : State :=
  let bins := xs.foldl (fun b x => listMod (histBin x) (fun n => satAdd 32 n 1) b) (List.replicate 16 0)
  let mn := match xs with | [] => 0 | x :: l => l.foldl min x
  let mx := match xs with | [] => 0 | x :: l => l.foldl max x
  let unit := Config.freeNat s.free % 256
  scbPut s.takeFree (statRec 1 source 0 item t0 t1 (decide (2 ^ 32 ≤ xs.length))
    (histBody unit (min xs.length (2 ^ 32 - 1)) (ofSigned 64 (xs.foldl (· + ·) 0)) (ofSigned 64 mn) (ofSigned 64 mx) bins))

/-- Writes the two HIST records of an observer that is on, from its snapshot bank. What SUM and MIN hold there, and UNIT, the spec does not give: free values. -/
def putObs (t0 t1 : Nat) (s : State) (o : Nat) : State :=
  let k := obsKind s o
  if k = 0 ∨ 4 < k then s
  else
    let b := obsBank s o 1
    let one (s : State) (item mx : Nat) (bins : List Nat) : State :=
      let f (i : Nat) : Nat := Config.freeNat (s.free + i)
      scbPut s.takeFree.takeFree.takeFree (statRec 1 Src.celwald o item t0 t1 (decide (2 ^ 32 - 1 ≤ b.samples))
        (histBody (f 0 % 256) b.samples (f 1) (f 2) mx bins))
    one (one s (0x100 + o) b.maxDepth b.depth) (0x200 + o) b.maxDelay b.delay

/-- The EXTREMES records of the thermal sensors, six entries each. -/
def putExtremes (s : State) (t0 t1 : Nat) : State :=
  (chunks 6 s.scb.sensorExt).foldl (fun s (l : List (Nat × (Int × Int × Nat))) =>
    scbPut s (statRec 2 Src.thermal 0 0x30 t0 t1 false
      (l.flatMap fun e => leBytes 2 e.1 ++ leBytes 2 0x30 ++ leBytes 4 0 ++ leBytes 8 (ofSigned 64 e.2.1) ++ leBytes 8 (ofSigned 64 e.2.2.1) ++ leBytes 8 e.2.2.2))) s

/-- INTERVAL_MS as it acts, in ns. -/
def intervalCfg (s : State) : Nat := min 60000 (max 100 (s.r Reg.SCB_CFG_INTERVAL_MS)) * 1000000

/-- The device time of the next boundary (R488). -/
def nextBoundary (s : State) : Nat := (s.scb.intervalStart / s.scb.intervalNs + 1) * s.scb.intervalNs

/-- A lane's symbol error rate over the interval: reported, and above the limit in two consecutive intervals it is lasting (R442). -/
def laneRate (ser : List (Nat × Nat × Nat)) (s : State) (k : Nat) : State :=
  let p := k / 16
  let l := k % 16
  let ppb := match ser.find? fun e => e.1 == p && e.2.1 == l with | some e => e.2.2 | none => 0
  let s := s.setR ((Reg.CWT_PORT_LANE_SER_PPB.at 0x100 p).at 4 l) (min ppb (2 ^ 28 - 1))
  if max 1 (s.r (Reg.CWT_PORT_SERLIM_PPB.at 0x100 p)) < ppb then
    let n := amGetD k 0 s.mgt.laneOver + 1
    let s := { s with mgt := { s.mgt with laneOver := amSet k n s.mgt.laneOver } }
    if 2 ≤ n then laneLasting { s with mgt := { s.mgt with laneOver := amErase k s.mgt.laneOver } } p l else s
  else { s with mgt := { s.mgt with laneOver := amErase k s.mgt.laneOver } }

/-- Every lane of every port, as 16 × port + lane. -/
def allLanes : List Nat := (List.range 8).flatMap fun p => (List.range 9).map fun l => laneNo p l

/-- INTERVAL_BOUNDARY (R377, R437, R442, R444, R484, R488): with the symbol error rates of the interval as (port, lane, parts in 10^9). -/
def intervalBoundary (s : State) (ser : List (Nat × Nat × Nat)) : State :=
  let t1 := nextBoundary s
  if s.now < t1 then s
  else
    let t0 := s.scb.intervalStart
    let s := allLanes.foldl (laneRate ser) s
    let s := obsSnapshot s
    let s := (List.range 256).foldl (putObs t0 t1) s
    let s := putHist s Src.thermal 0x10 t0 t1 s.scb.tjSamples
    let s := putHist s Src.power 0x11 t0 t1 (s.scb.powerSamples.map fun (x : Nat) => (x : Int))
    let s := s.scb.stallLens.foldl (fun s e => if e.2.isEmpty then s else putHist s Src.tier (0x20 + e.1) t0 t1 (e.2.map fun (x : Nat) => (x : Int))) s
    let s := putExtremes s t0 t1
    let s := { s with scb := { s.scb with tjSamples := [], powerSamples := [], stallLens := [], sensorExt := [], intervalStart := t1, intervalNs := intervalCfg s },
                      mgt := { s.mgt with transient := [], stackCount := [] } }
    s.setR Reg.MGT_STACK_STATE_LASTING 0

def execIntervalBoundary (ser : List (Nat × Nat × Nat)) (s : State) : Host.Outcome State Fault Refusal := nextOf s (intervalBoundary s ser)

end Sys2Proof.Machine
end

