-- ==== Sys2Proof/Machine/Ports.lean ====
section
/-! DEFINITION. Ethernet ports, optics and flexible ports (spec/22): sub-ports, the spare lane, lasers, and the links downstream. -/

namespace Sys2Proof.Machine

/-! ### Sub-ports (R527, R529) -/

/-- The three per-sub-port fields of CWT_PORT_STATUS with bit k set or cleared. -/
def subBit (s : State) (f : Fld) (p k : Nat) (on : Bool) : State :=
  let x := s.r (f.at 0x100 p)
  s.setR (f.at 0x100 p) (if on then x ||| 2 ^ k else x - (x &&& 2 ^ k))

/-- A sub-port has held alignment with no fault for UP_HOLD_MS (R529). -/
def subportUp (s : State) (p k : Nat) : State :=
  let s := subBit s Reg.CWT_PORT_STATUS_LFAULT p k false
  let s := subBit s Reg.CWT_PORT_STATUS_RFAULT p k false
  subBit s Reg.CWT_PORT_STATUS_UP p k true

def execSubportUp (port sub : Nat) (s : State) : Host.Outcome State Fault Refusal :=
  withUnit s (decide (port < 8) && decide (sub < subPorts s port)) (subportUp s port sub)

/-- A sub-port lost alignment, or saw a local or remote fault (R529). -/
def subportDown (s : State) (p k : Nat) (lfault rfault : Bool) : State :=
  let s := subBit s Reg.CWT_PORT_STATUS_LFAULT p k lfault
  let s := subBit s Reg.CWT_PORT_STATUS_RFAULT p k rfault
  subBit s Reg.CWT_PORT_STATUS_UP p k false

def execSubportDown (port sub : Nat) (lfault rfault : Bool) (s : State) : Host.Outcome State Fault Refusal :=
  withUnit s (decide (port < 8) && decide (sub < subPorts s port)) (subportDown s port sub lfault rfault)

/-- A write to CWT_PORT_CFG (R529, R536): MACSEC, BREAKOUT and SUB_EN keep their values while ENABLE is 1. -/
def portCfgWrite (s : State) (p v : Nat) : State :=
  let on := s.r (Reg.CWT_PORT_CFG_ENABLE.at 0x100 p) == 1
  let set (s : State) (f : Fld) : State := s.setR (f.at 0x100 p) (bits v f.lo f.w)
  let s := if on then s else set (set (set s Reg.CWT_PORT_CFG_MACSEC) Reg.CWT_PORT_CFG_BREAKOUT) Reg.CWT_PORT_CFG_SUB_EN
  set (set (set (set s Reg.CWT_PORT_CFG_ENABLE) Reg.CWT_PORT_CFG_LASER_EN) Reg.CWT_PORT_CFG_CAL_DWELL_10MS) Reg.CWT_PORT_CFG_UP_HOLD_MS

/-- A write that sets or clears LASER_EN (R539). A module's output is enabled while it is present and LASER_EN is 1 (R538); the wear history of a new module is cleared when its serial number is read. -/
def execLaserEnWrite (p v : Nat) (s : State) : Host.Outcome State Fault Refusal := withUnit s (p < 8) (portCfgWrite s p v)

/-! ### The spare lane (R532 to R534) -/

/-- The dwell of a spare position in ns. -/
def dwellNs (s : State) (p : Nat) : Nat := max 3 (s.r (Reg.CWT_PORT_CFG_CAL_DWELL_10MS.at 0x100 p)) * 10000000

/-- The lane that the spare at c moves to, and whether it then moves upward (R533). -/
def spareNext (up : Bool) (c : Nat) : Nat × Bool :=
  if c = 0 then (1, true) else if 8 ≤ c then (7, false) else if up then (c + 1, true) else (c - 1, false)

/-- SPARE_ROTATE (R533): the dwell of a port's spare ends and it moves by one lane, unless the comparison fails, which counts as a calibration failure of the neighbour; `calOk` is the outcome of the calibration that follows the move. -/
def spareRotate (s : State) (p : Nat) (compareOk calOk : Bool) : State :=
  let busy := match s.mgt.laneCal with | some c => c.port == p | none => false
  if spareUsed s p || busy || decide (s.now < amGetD p 0 s.cwt.spareAt + dwellNs s p) then s
  else
    match spareLane s p with
    | none => s
    | some c =>
      let d := spareNext (s.cwt.spareUp.contains p) c
      let ups := s.cwt.spareUp.filter (· ≠ p)
      let s := { s with cwt := { s.cwt with spareUp := if d.2 then p :: ups else ups } }
      if compareOk then laneCalibrated (spareMove s p c d.1) p d.1 calOk
      else laneCalibrated { s with cwt := { s.cwt with spareAt := amSet p s.now s.cwt.spareAt } } p d.1 false

def execSpareRotate (port : Nat) (compareOk calOk : Bool) (s : State) : Host.Outcome State Fault Refusal :=
  withUnit s (port < 8) (spareRotate s port compareOk calOk)

/-! ### Lasers (R538, R539) -/

/-- Light is lost at a port's engine, or its module was removed: every sub-port goes down (R538). -/
def cwLoss (s : State) (p : Nat) : State :=
  let s := (s.setR (Reg.CWT_PORT_STATUS_UP.at 0x100 p) 0).setR (Reg.CWT_PORT_STATUS_CW_LOSS.at 0x100 p) 1
  postFault s (faultRec Src.ethPort Act.portDown 6 p Status.fenced.code 0)

def execCwLoss (port : Nat) (s : State) : Host.Outcome State Fault Refusal := withUnit s (port < 8) (cwLoss s port)

/-- The wear history of a monitor element is cleared (R539). -/
def wearClear (s : State) (e : Nat) : State :=
  let m := s.scb.mram
  let s := { s with scb := { s.scb with
    mram := { m with daily := amErase e m.daily, eol := amErase e m.eol },
    daySum := amErase e s.scb.daySum, dayN := amErase e s.scb.dayN, warned := s.scb.warned.filter (· ≠ e) } }
  ((s.setR (Reg.SCB_EOL_DAYS.at 4 e) 0xFFFF).setR (Reg.SCB_EOL_POINTS.at 4 e) 0).setR (Reg.SCB_EOL_WEAR_PCT.at 4 e) 0

/-- LASER_POLL (R538, R539, R495): a port's module as read over its management interface. -/
def laserPoll (s : State) (p : Nat) (present ok : Bool) (bias temp serial : Nat) : State :=
  let was := s.r (Reg.CWT_PORT_STATUS_LASER_PRES.at 0x100 p) == 1
  let s := (s.setR (Reg.CWT_PORT_STATUS_LASER_PRES.at 0x100 p) (b2n present)).setR (Reg.CWT_PORT_STATUS_LASER_OK.at 0x100 p) (b2n (present && ok))
  if !present then
    let s := (s.setR (Reg.CWT_PORT_LASER_BIAS.at 0x100 p) 0).setR (Reg.CWT_PORT_LASER_TEMP.at 0x100 p) 0
    if was then cwLoss s p else s
  else
    let e := 128 + p
    let s := (s.setR (Reg.CWT_PORT_LASER_BIAS.at 0x100 p) bias).setR (Reg.CWT_PORT_LASER_TEMP.at 0x100 p) temp
    let s := match amGet p s.scb.mram.laserSerial with
      | some n => if n = serial then s else wearClear s e
      | none => s
    { s with scb := { s.scb with
      mram := { s.scb.mram with laserSerial := amSet p serial s.scb.mram.laserSerial },
      daySum := amSet e (amGetD e 0 s.scb.daySum + bias) s.scb.daySum,
      dayN := amSet e (amGetD e 0 s.scb.dayN + 1) s.scb.dayN } }

def execLaserPoll (port : Nat) (present ok : Bool) (bias temp serial : Nat) (s : State) : Host.Outcome State Fault Refusal :=
  withUnit s (port < 8) (laserPoll s port present ok bias temp serial)

/-! ### Flexible ports (R541 to R546) -/

def flexMode (s : State) (q : Nat) : Nat := s.r (Reg.HIF_FLEX_CFG_MODE.at 0x20 q)
def flexUp (s : State) (q : Nat) : Bool := s.r (Reg.HIF_FLEX_STATUS_LINK_UP.at 0x20 q) == 1

/-- A link's state as HIF_FLEX_STATUS reports it. -/
def setFlex (s : State) (q up rate width hdm : Nat) : State :=
  (((s.setR (Reg.HIF_FLEX_STATUS_LINK_UP.at 0x20 q) up).setR (Reg.HIF_FLEX_STATUS_RATE.at 0x20 q) rate).setR
    (Reg.HIF_FLEX_STATUS_WIDTH.at 0x20 q) width).setR (Reg.HIF_FLEX_STATUS_HDM_1G.at 0x20 q) hdm

/-- Whether some protected area has bytes behind a port. -/
def areaBehind (s : State) (q : Nat) : Bool :=
  let lo := 2 ^ 60 + s.r (Reg.HIF_FLEX_WIN_BASE.at 0x20 q) * 2 ^ 30
  let hi := lo + s.r (Reg.HIF_FLEX_WIN_SIZE_1G.at 0x20 q) * 2 ^ 30
  (List.range 16).any fun n => areaSize s n != 0 && decide (areaBase s n < hi) && decide (lo < areaBase s n + areaSize s n)

/-- FLEX_LINK_DOWN (R438, R546): a record, and on a cache-role node the areas behind a CXL Type-3 port are lost (R396). -/
def flexLinkDown (s : State) (q : Nat) : State :=
  if !flexUp s q then s
  else
    let w := s.r (Reg.HIF_FLEX_STATUS_WIDTH.at 0x20 q)
    let s := setFlex s q 0 0 0 (s.r (Reg.HIF_FLEX_STATUS_HDM_1G.at 0x20 q))
    let s := { s with cwt := { s.cwt with flexDown := amSet q (s.now, w) s.cwt.flexDown } }
    let s := postFault s { faultRec Src.flexPort Act.recorded 6 q Status.fenced.code Detail.FLT_LINK with count := transients s Src.flexPort q }
    if flexMode s q = 2 ∧ s.role = roleCache ∧ areaBehind s q then areasLost s Src.flexPort q else s

def execFlexLinkDown (q : Nat) (s : State) : Host.Outcome State Fault Refusal := withUnit s (q < 8) (flexLinkDown s q)

/-- FLEX_RETRAIN (R546): once a second a port that is down is tried; a rate of 0 means that it did not train. A link that came back narrower is recorded (R438). -/
def flexRetrain (s : State) (q rate width hdm : Nat) : State :=
  let last := amGetD q (0, 0) s.cwt.flexDown
  if flexUp s q ∨ flexMode s q = 0 ∨ s.now < last.1 + 1000000000 then s
  else if rate = 0 then { s with cwt := { s.cwt with flexDown := amSet q (s.now, last.2) s.cwt.flexDown } }
  else
    let s := setFlex s q 1 rate width hdm
    let s := { s with cwt := { s.cwt with flexDown := amErase q s.cwt.flexDown } }
    let s := if width < last.2 then postFault s { faultRec Src.flexPort Act.recorded 6 q Status.fenced.code Detail.FLT_LINK with count := transients s Src.flexPort q }
      else s
    boltsRetryAll (rxRetry s)

def execFlexRetrain (q rate width hdm : Nat) (s : State) : Host.Outcome State Fault Refusal := withUnit s (q < 8) (flexRetrain s q rate width hdm)

/-- FLEX_IND_START (R543): a write to HIF_FLEX_IND_CTL starts one access downstream; while BUSY is 1 it is ignored. -/
def flexIndStart (s : State) (q v : Nat) : State :=
  let at_ (f : Fld) : Fld := f.at 0x20 q
  if s.r (at_ Reg.HIF_FLEX_IND_CTL_BUSY) = 1 then s
  else
    let s := (((s.setR (at_ Reg.HIF_FLEX_IND_CTL_CFG) (bits v 60 1)).setR (at_ Reg.HIF_FLEX_IND_CTL_WRITE) (bits v 59 1)).setR
      (at_ Reg.HIF_FLEX_IND_CTL_ADDR) (bits v 3 48)).setR (at_ Reg.HIF_FLEX_IND_CTL_BUSY) 1
    let s := { s with cwt := { s.cwt with indAt := amSet q s.now s.cwt.indAt } }
    if portLive s q then s.emit (.indirect q (8 * bits v 3 48) (bit v 60) (bit v 59) (s.r (at_ Reg.HIF_FLEX_IND_DATA_DATA))) else s

def execFlexIndStart (q v : Nat) (s : State) : Host.Outcome State Fault Refusal := withUnit s (q < 8) (flexIndStart s q v)

/-- FLEX_IND_DONE (R543): the access ends with a result and, for a read, its data; a timeout (3) only 50 ms after the start. -/
def flexIndDone (s : State) (q result data : Nat) : State :=
  let at_ (f : Fld) : Fld := f.at 0x20 q
  if s.r (at_ Reg.HIF_FLEX_IND_CTL_BUSY) = 0 ∨ 3 < result ∨ (result = 3 ∧ s.now < amGetD q 0 s.cwt.indAt + 50000000) then s
  else
    let old := s.r (at_ Reg.HIF_FLEX_IND_DATA_DATA)
    let new := if s.r (at_ Reg.HIF_FLEX_IND_CTL_CFG) = 1 then old / 2 ^ 32 * 2 ^ 32 + data % 2 ^ 32 else data
    let s := if s.r (at_ Reg.HIF_FLEX_IND_CTL_WRITE) = 0 ∧ result = 0 then s.setR (at_ Reg.HIF_FLEX_IND_DATA_DATA) new else s
    let s := { s with cwt := { s.cwt with indAt := amErase q s.cwt.indAt } }
    (s.setR (at_ Reg.HIF_FLEX_IND_CTL_BUSY) 0).setR (at_ Reg.HIF_FLEX_IND_CTL_RESULT) result

def execFlexIndDone (q result data : Nat) (s : State) : Host.Outcome State Fault Refusal := withUnit s (q < 8) (flexIndDone s q result data)

/-- DEVICE_UNSUPPORTED_REQUEST (R542): a request of a downstream device outside the exchange aperture, or an MSI of it, is logged. -/
def deviceUr (s : State) (q : Nat) : State :=
  if flexMode s q = 1 ∨ flexMode s q = 3 then postFault s (faultRec Src.flexPort Act.recorded 4 q Status.fenced.code 0) else s

def execDeviceUnsupportedRequest (q : Nat) (s : State) : Host.Outcome State Fault Refusal := withUnit s (q < 8) (deviceUr s q)

end Sys2Proof.Machine
end

