-- ==== Sys2Proof/Machine/Pool.lean ====
section
/-! DEFINITION. The cache pool's commands and events (spec/15): SEAL, parity deltas and degradation, unit locks, rebuilds, backups and the access sweep. -/

namespace Sys2Proof.Machine

/-! ### What waits for deltas, units and locks -/

/-- Packets whose deltas have all been acknowledged or disregarded are finished (R383, R384). -/
def settleAcks (s : State) : State :=
  s.cwt.qps.foldl (fun s e =>
    e.2.rx.foldl (fun s x =>
      match x.stage with
      | .acking ds ans => if ds.any fun d => amHas d s.cp.deltas then s else qpSettle (rxRun (rxFinishLate s e.1 x.psn ans) e.1) e.1
      | _ => s) s) s

/-- Goes on with what waited for deltas (R383). -/
def afterDeltas (s : State) (w : After) : State :=
  match w with
  | .command o c r => completeCmd s o c { Done.ok with result := r }
  | .answer node m => s.emit (.msg node m)
  | .mover st f t code dt => moverEnd s st f t code dt
  | .resp i psn k => respGot s i psn k
  | .copied h k n => copyWritten s h k n

/-- What waits for deltas that have all been acknowledged or disregarded goes on (R383, R384). -/
def settleWaits (s : State) : State :=
  s.cp.waits.foldl (fun s w =>
    if w.1.any fun d => amHas d s.cp.deltas then s
    else afterDeltas { s with cp := { s.cp with waits := s.cp.waits.filter (· ≠ w) } } w.2) s

/-- A survivor returns its data of every locked unit for which no delta of its own is in flight (R385 step 2). A unit that a rebuild of its own has yet to build is waited for (R388), and one that it has lost for good is reported so (R389). -/
def returnLocks (s : State) : State :=
  s.cp.locks.foldl (fun s e =>
    let l := e.2
    if l.returned || s.cp.deltas.any (fun d => d.2.units.contains l.unit) then s
    else if unitLost s l.unit then
      { s with cp := { s.cp with locks := amErase e.1 s.cp.locks } }.emit (.msg l.node (.unitLost l.unit))
    else if unitUnbuilt s false l.unit then unitToFront s l.unit
    else
      let d := s.cp.dirty.contains l.unit
      let s := (chargeClass s 2 unitBytes).emit (.msg l.node (.unitData l.unit e.1 d (unitRead s l.unit)))
      { s with cp := { s.cp with
          locks := if l.released then amErase e.1 s.cp.locks else amSet e.1 { l with returned := true } s.cp.locks,
          clean := if d && !s.cp.clean.contains l.unit then s.cp.clean ++ [l.unit] else s.cp.clean } }) s

/-- Whether an operation already accepted has not been performed (R425 step 1): a packet, an ATTEND being served, a backup, a request of a home, or one that waits for its deltas. -/
def operationOpen (s : State) : Bool :=
  (s.cwt.qps.any fun e => e.2.rx.any fun x => decide (x.stage ≠ .done)) || !s.xch.serving.isEmpty || !s.cp.attends.isEmpty || !s.cp.backups.isEmpty
  || (s.cp.held.any fun w => match w with | .home _ | .resp _ _ => true | _ => false)
  || s.cp.waits.any fun w => match w.2 with | .answer _ _ | .resp _ _ _ => true | _ => false

/-- A node that quiesces sets QUIESCED once every accepted operation is performed and every delta acknowledged (R425). -/
def quiesceCheck (s : State) : State :=
  if s.changing ∧ s.r Reg.MGT_ROLE_DRAIN_QUIESCE = 1 ∧ s.cp.deltas.isEmpty ∧ !operationOpen s then s.setR Reg.MGT_ROLE_DRAIN_QUIESCED 1 else s

/-- Goes on with everything that waits for deltas. -/
def deltasSettled (s : State) : State := quiesceCheck (unitsBegin (returnLocks (settleWaits (mcastSettle (settleAcks s)))))

/-- DELTA_ACKED (R383): a delta has been acknowledged. -/
def deltaAcked (s : State) (n : Nat) : State :=
  if amHas n s.cp.deltas then deltasSettled { s with cp := { s.cp with deltas := amErase n s.cp.deltas } } else s

def execDeltaAcked (id : Nat) (s : State) : Host.Outcome State Fault Refusal := nextOf s (deltaAcked s id)

/-- DEGRADE_TIMEOUT (R384): a delta has gone unacknowledged for DEGRADE_MS, or the parity queue pair has entered ERROR; the deltas are disregarded and their units dirty. -/
def degrade (s : State) (qpError : Bool) : State :=
  let late := s.cp.deltas.any fun d => decide (d.2.sent + max 1 (s.r Reg.TIR_CP_GROUP_DEGRADE_MS) * 1000000 ≤ s.now)
  if !dataMember s ∨ s.r Reg.TIR_CP_GROUP_DEGRADED = 1 ∨ !(late || qpError) then s
  else
    let us := s.cp.deltas.flatMap fun d => d.2.units
    let s := { s with cp := { s.cp with deltas := [], dirty := (s.cp.dirty ++ us).eraseDups } }
    let s := scbNote (s.setR Reg.TIR_CP_GROUP_DEGRADED 1) (faultRec Src.tier Act.recorded 5 (s.r Reg.TIR_CP_GROUP_D_IDX) 0 0)
    deltasSettled s

def execDegradeTimeout (qpError : Bool) (s : State) : Host.Outcome State Fault Refusal := nextOf s (degrade s qpError)

/-! ### ATTENDs that wait (R388, R389) -/

/-- The address and length of every bolt an ATTEND names in this node's pools. -/
def attendBolts (s : State) (m : Model) (a : AttendMsg) : List Nat :=
  a.cuts.flatMap fun c => (List.range m.kvHeads).map fun h => boltPool s m c.pool c.slot a.layer h c.cut

/-- An ATTEND at a home (R122, R421): once it has passed the checks, units lost for good are answered so, unbuilt ones are waited for (R388, R389), and it is computed. -/
def attendHome (s : State) (a : AttendMsg) : State :=
  attendArrives s a fun m =>
    let us := (attendBolts s m a).flatMap fun b => unitsOf s b (slotBytes m.format m.hdim)
    if us.any (unitLost s) then statusFor s a .fenced Detail.CP_DOUBLE 0
    else if us.any (unitUnbuilt s false) then
      let s := (us.filter (unitUnbuilt s false)).foldl unitToFront s
      rebuildGo { s with cp := { s.cp with attends := s.cp.attends ++ [a] } }
    else attendRun s a m

/-- ATTENDs that waited for units try again. -/
def attendsRetry (s : State) : State := s.cp.attends.foldl attendHome { s with cp := { s.cp with attends := [] } }

/-- Work that units held up tries again (R385, R388); commands and mover commands start again on their own. -/
def heldRetry (s : State) : State :=
  s.cp.held.foldl (fun s w =>
    match w with
    | .home m => homeRun s m
    | .snag i => leaseTermExpiry s i
    | .resp i p => respRetry s i p
    | .regionFree i => regionFreed s i
    | .copy h k => copPutAgain s h k
    | .command _ _ | .mover _ _ _ => s) s

/-- Everything that units or bandwidth classes held up tries again. -/
def unitsSettled (s : State) : State := rebuildGo (returnLocks (attendsRetry (heldRetry (rxRetry (boltsRetryAll s)))))

/-! ### A survivor's locks (R385) -/

/-- UNIT_LOCK at a data member; a quiesced node no longer answers (R425). -/
def unitLockArrives (s : State) (node u : Nat) : State :=
  if !dataMember s ∨ s.r Reg.MGT_ROLE_DRAIN_QUIESCED = 1 then s
  else
    let g := s.cp.nextGen
    let l : UnitLock := { unit := u, node := node, returned := false, released := false, until_ := s.now + max 1 (s.r Reg.TIR_CP_GROUP_LOCK_US) * 1000 }
    returnLocks { s with cp := { s.cp with locks := amSet g l s.cp.locks, nextGen := g + 1 } }

def execUnitLock (node unit : Nat) (s : State) : Host.Outcome State Fault Refusal := nextOf s (fromNode s node (unitLockArrives s node unit))

/-- The end of a RESYNC at a member (R384): its dirty map is cleared, and DEGRADED with it. A unit written since its bytes were returned, whose parity no RESYNC holds, stays dirty, and the member degraded (log 103). -/
def resyncedHere (s : State) : State :=
  let left := s.cp.dirty.filter fun u => !s.cp.clean.contains u
  let s := { s with cp := { s.cp with dirty := left, clean := [] } }
  if left.isEmpty then s.setR Reg.TIR_CP_GROUP_DEGRADED 0 else s

/-- UNIT_UNLOCK: the lock is released, or the answer is STALE where it has been already; `resynced` marks the end of a RESYNC. -/
def unitUnlockArrives (s : State) (node u g : Nat) (resynced : Bool) : State :=
  if resynced then resyncedHere s
  else
    match amGet g s.cp.locks with
    | some l =>
      if l.unit = u ∧ !l.released then unitsSettled { s with cp := { s.cp with locks := amErase g s.cp.locks } }
      else s.emit (.msg node (.unitStale u g))
    | none => s.emit (.msg node (.unitStale u g))

def execUnitUnlock (node unit gen : Nat) (resynced : Bool) (s : State) : Host.Outcome State Fault Refusal :=
  nextOf s (fromNode s node (unitUnlockArrives s node unit gen resynced))

/-- UNIT_LOCK_EXPIRY: a survivor releases a lock on its own after LOCK_US. -/
def unitLockExpiry (s : State) (g : Nat) : State :=
  match amGet g s.cp.locks with
  | none => s
  | some l =>
    if s.now < l.until_ ∨ l.released then s
    else unitsSettled { s with cp := { s.cp with locks := if l.returned then amErase g s.cp.locks else amSet g { l with released := true } s.cp.locks } }

def execUnitLockExpiry (gen : Nat) (s : State) : Host.Outcome State Fault Refusal := nextOf s (unitLockExpiry s gen)

/-! ### The reconstructor (R385, R387, R389) -/

/-- A unit's locks were lost: it starts again, up to LOCK_RETRY times (R385). -/
def unitRestart (s : State) (j : UnitJob) : State :=
  if max 1 (s.r Reg.TIR_CP_CFG_LOCK_RETRY) ≤ j.tries then unitsSettled (unitFail s j Detail.CP_LOCK_LOST)
  else
    let s := s.cnt Reg.TIR_CP_COUNT_LOCK_LOST 1
    let j' := { j with answers := [], result := none, tries := j.tries + 1 }
    modUnit (askLocks s j') j fun _ => j'

/-- UNIT_LOCK_ANSWER: data, STALE, or no answer at all. A lost survivor, or a dirty unit where another member's unit is wanted, is a double loss (R384, R389). -/
def unitAnswer (s : State) (node u : Nat) (ans : UnitAns) : State :=
  let at_ (p : UnitJob → Bool) : Option UnitJob := s.cp.jobs.find? fun j => j.begun && j.unit == u && j.asked.contains node && p j
  match ans with
  | .data g dirty b =>
    (match at_ fun j => j.result.isNone && !(j.answers.any fun a => a.1 == node) with
     | none => s
     | some j =>
       if dirty ∧ j.lost ≠ 8 then unitsSettled (unitFail s { j with answers := j.answers ++ [(node, g, b)] } Detail.CP_DOUBLE)
       else
         let j' := { j with answers := j.answers ++ [(node, g, fit unitBytes b)] }
         let s := modUnit s j fun _ => j'
         if j'.answers.length = j'.asked.length then unitLocksIn s j' else s)
  | .stale =>
    (match at_ fun j => j.result.isSome with
     | none => s
     | some j => unitRestart s j)
  | .lost =>
    (match at_ fun j => j.result.isNone with
     | none => s
     | some j => unitsSettled (unitFail s j Detail.CP_DOUBLE))

def execUnitLockAnswer (node unit : Nat) (ans : UnitAns) (s : State) : Host.Outcome State Fault Refusal :=
  nextOf s (if ans = .lost then unitAnswer s node unit ans else fromNode s node (unitAnswer s node unit ans))

/-! ### Backups (R134, R385, R388) -/

/-- The member index of a home in the group this node keeps parity for. -/
def backupIndex (s : State) (home : Nat) : Option Nat := (List.range 8).find? fun k => decide (memberNode s true k = home)

/-- The protected bytes of a backup's bolts at the home it stands in for: cut-major, then head. -/
def backupOffs (m : Model) (a : AttendMsg) : List Nat :=
  a.cuts.flatMap fun c => (List.range m.kvHeads).map fun h => Config.memberBolt a.backupFor [c.pool, c.slot, a.layer, h, c.cut]

/-- The units a protected range lies in. -/
def rangeUnits (o n : Nat) : List Nat := blocksOf unitBytes o n

/-- The protected bytes of the home's slot-table entries of a backup's cuts: its slot table opens area 0 (R380). -/
def backupSlots (a : AttendMsg) : List Nat := a.cuts.map fun c => Config.memberSlot a.backupFor [c.pool, c.slot, c.cut]

/-- The units a backup needs first: those of its slots' entries, and then those of its bolts. -/
def backupEntryUnits (a : AttendMsg) : List Nat := ((backupSlots a).flatMap fun o => rangeUnits o 16).eraseDups
def backupBoltUnits (m : Model) (a : AttendMsg) : List Nat := ((backupOffs m a).flatMap fun o => rangeUnits o (slotBytes m.format m.hdim)).eraseDups

/-- Has a backup reconstruct units (R385); one whose parity unit this node has lost for good fails (R389). -/
def backupWant (s : State) (k : Nat) (b : Backup) (us : List Nat) : State :=
  if us.any (unitGone s true) then statusFor { s with cp := { s.cp with backups := amErase k s.cp.backups } } b.msg .fenced Detail.CP_DOUBLE 0
  else
    let s := { s with cp := { s.cp with backups := amSet k { b with need := us } s.cp.backups } }
    rebuildGo (us.foldl (wantUnit · true b.lost .demand) ((us.filter (unitUnbuilt s true)).foldl unitToFront s))

/-- A backup ATTEND at the parity node (R134, R385): the checks of R122 in their order, of which the third, on the slots of the home it stands in for, needs the home's slot table: its entries are reconstructed first (log 101). -/
def backupArrives (s : State) (a : AttendMsg) (lost : Nat) : State :=
  attendEpoch s a <|
  if !roleEnables s [roleCache] then statusFor s a .redirect 0 s.redirectNode
  else
    let us := backupEntryUnits a
    let k := s.cp.nextBackup
    backupWant { s with cp := { s.cp with nextBackup := k + 1 } } k { msg := a, lost := lost, need := [], got := [], tries := 0, bolts := false } us

/-- Whether a reconstructed slot-table entry is that of a slot in use under a ring count (R122 step 3). -/
def entryHolds (e : List Byte) (ring : Nat) : Bool := bit (leField e 0 1) 0 && leField e 1 1 == ring

/-- ATTEND (R122, R123, R134, R421): at a home, or as a backup at the parity node of the home's group. -/
def execAttend (m : AttendMsg) (s : State) : Host.Outcome State Fault Refusal :=
  nextOf s (fromNode s m.src <| match (if m.backup && s.r Reg.TIR_CP_GROUP_P_EN == 1 then backupIndex s m.backupFor else none) with
    | some k => backupArrives s m k
    | none => attendHome s m)

/-- The bytes of a protected range out of reconstructed units. -/
def gotBytes (got : AMap (List Byte)) (o n : Nat) : List Byte :=
  (((rangeUnits o n).flatMap fun u => amGetD u [] got).drop (o % unitBytes)).take n

/-- A backup has its slots' entries (R122 steps 3 and 4, R123): STALE where a slot is free or of another ring, NO_CREDIT with the serve class at cap, its model and tree checked; then its bolts' units are reconstructed. -/
def backupSlotsIn (s : State) (k : Nat) (b : Backup) : State :=
  let a := b.msg
  let gone : State := { s with cp := { s.cp with backups := amErase k s.cp.backups } }
  if !((a.cuts.zip (backupSlots a)).all fun e => entryHolds (gotBytes b.got e.2 16) e.1.ring) then statusFor gone a .stale Detail.SHARD_STALE 0
  else if classCapped s 0 then statusFor gone a .noCredit Detail.SERVE_OVER 0
  else
    match amGet a.model s.sch.models with
    | none => statusFor gone a .fenced Detail.SCH_MODEL 0
    | some m =>
      if decide (a.nodes ≠ 1) && (depthTree a.depth).isNone then statusFor gone a .fenced Detail.ATT_TREE 0
      else
        let us := backupBoltUnits m a
        backupWant (chargeClass s 0 (us.length * unitBytes)) k { b with got := [], bolts := true } us

/-- A backup has all its units: its bolts are checked under R73, and its tasks run over them; bolts that fail are reconstructed once more (R385). -/
def backupRun (s : State) (k : Nat) (b : Backup) : State :=
  if !b.bolts then backupSlotsIn s k b
  else
  match amGet b.msg.model s.sch.models with
  | none => statusFor { s with cp := { s.cp with backups := amErase k s.cp.backups } } b.msg .fenced Detail.SCH_MODEL 0
  | some m =>
    let a := b.msg
    let size := slotBytes m.format m.hdim
    let r := s.xch.nextRead
    let s := { s with xch := { s.xch with nextRead := r + 1 } }
    let s := (backupOffs m a).zipIdx.foldl (fun s e => s.wr (fetchBase r + e.2 * size) (gotBytes b.got e.1 size)) s
    let refs (h : Nat) : List BoltRef := a.cuts.zipIdx.map fun e => ⟨fetchBase r + (e.2 * m.kvHeads + h) * size, 32 * e.1.cut, e.1.ring, 32⟩
    let fails (h : Nat) (f : BoltRef) : Bool :=
      match readBolt s { format := m.format, hdim := m.hdim, layer := a.layer, head := h, tenant := a.tenant, ref := f, fetched := true, shared := true } with
      | .error _ => true
      | .ok _ => false
    let bad := (List.range m.kvHeads).any fun h => (refs h).any (fails h)
    if bad then
      if b.tries = 0 then backupWant s k { b with got := [], tries := 1 } (backupBoltUnits m a)
      else statusFor { s with cp := { s.cp with backups := amErase k s.cp.backups } } a .fenced Detail.BOLT_CRC 0
    else
      let s := { s with cp := { s.cp with backups := amErase k s.cp.backups } }
      serveTasks s a m (if a.nodes = 1 then [] else (depthTree a.depth).getD []) refs

/-- Backups that have all their units run. -/
def backupsRun (s : State) : State := (s.cp.backups.filter fun e => e.2.need.isEmpty).foldl (fun s e => backupRun s e.1 e.2) s

/-! ### What a rebuilt unit gives back of the dead node's state (R380, R386) -/

/-- The pool, slice group and slot that an entry of the slot table is of. -/
def slotAtIndex : AMap Pool → Nat → Option SlotName
  | [], _ => none
  | (k, p) :: rest, i =>
    if i < p.groups.length * p.slices then some ⟨k, i / max 1 p.slices, i % max 1 p.slices, 0⟩ else slotAtIndex rest (i - p.groups.length * p.slices)

/-- An index that a rebuilt entry shows used: its ring count, and whether it is free and in fallow. Those it passes over were never released, and come first (R30). -/
def loadId (p : IdPool) (i ring : Nat) (free : Option Nat) : IdPool :=
  let skipped := ((List.range i).filter fun k => decide (p.fresh ≤ k)).map fun k => (k, 0)
  { ring := amSet i ring p.ring, fresh := max p.fresh (i + 1),
    released := skipped ++ p.released.filter (fun r => r.1 ≠ i) ++ (match free with | some t => [(i, t)] | none => []) }

/-- A slot's ring count, hold count, reservation and lease as its rebuilt entry gives them; one of zeros was never used. The entry has no room for a reservation's record, which a read of the cut map then names (log 70). -/
def loadSlot (s : State) (n : SlotName) (e : List Byte) : State :=
  match findGroup s n with
  | none => s
  | some (p, g) =>
    if allZero e then s
    else
    let f := leField e 0 1
    let ids := loadId g.ids n.slot (leField e 1 1) (if bit f 0 then none else some (s.now + fallowUs s * 1000))
    let c : CutSlot := { reserved := bit f 1, movedOut := bit f 2, holds := leField e 2 2, lease := leField e 8 8, record := ⟨0, 0, 0⟩, cut := 0, claimGen := 0 }
    let g := { g with ids := ids, slots := if bit f 0 then amSet n.slot c g.slots else amErase n.slot g.slots }
    { s with tir := { s.tir with pools := amSet n.pool { p with groups := listSet n.group g p.groups } s.tir.pools } }

/-- A region as its rebuilt table entry gives it, or the ring count of a free index; one whose CRC is wrong gives none. -/
def loadRegion (s : State) (i : Nat) (b : List Byte) : State :=
  if leField b 0x78 8 ≠ crc64 (b.take 0x78) then s
  else
    match regionOfImage b with
    | some (k, r) =>
      if k ≠ i then s
      else
        { s with rm := { s.rm with regions := amSet i { r with closedAt := s.now } s.rm.regions, ids := loadId s.rm.ids i (r.key / 2 ^ 24) none } }
    | none =>
      let key := leField b 0 4
      if key = 0 ∨ key % 2 ^ 24 ≠ i then s
      else { s with rm := { s.rm with ids := loadId s.rm.ids i (ringNext (key / 2 ^ 24)) (some (s.now + cwtFallowUs s * 1000)) } }

/-- The objects whose bytes lie in a unit of n-byte entries from an address: their numbers. -/
def entriesIn (s : State) (u base n count : Nat) : List Nat :=
  let a := protAddr s (u * unitBytes)
  if a + unitBytes ≤ base then []
  else (List.range (unitBytes / n + 1)).filterMap fun k =>
    let i := (a - base + n - 1) / n + k
    if i < count ∧ a ≤ base + n * i ∧ base + n * (i + 1) ≤ a + unitBytes then some i else none

/-- The slot table and the region table of this spare follow the bytes of a unit that has been rebuilt (R386): slot ring counts and region keys stay valid under the alias. -/
def loadUnit (s : State) (u : Nat) : State :=
  let slots := (s.tir.pools.map fun e => e.2.groups.length * e.2.slices).sum
  let s := (entriesIn s u (areaBase s 0) 16 slots).foldl (fun s i =>
    match slotAtIndex s.tir.pools i with
    | some n => loadSlot s n (s.rd (areaBase s 0 + 16 * i) 16)
    | none => s) s
  (entriesIn s u (regionTblAddr s 0) 128 (regionCount s)).foldl (fun s i => loadRegion s i (s.rd (regionTblAddr s i) 128)) s

/-- REBUILD_UNIT_DONE (R385, R387): every lock was given back in time, and the unit is written and marked built, or goes to the backups or repairs that wait for it. -/
def unitDone (s : State) (u : Nat) : State :=
  match s.cp.jobs.find? fun j => j.unit == u && j.result.isSome with
  | none => s
  | some j =>
    let b := j.result.getD []
    let s := dropUnit s j
    match j.use with
    | .rebuild =>
      let s := s.wr (if j.lost = 8 then parAddr s u else protAddr s (u * unitBytes)) b
      let s := if j.lost = 8 then s else loadUnit s u
      let s := rebRegs { s with cp := { s.cp with built := s.cp.built ++ [u], front := s.cp.front.filter (· ≠ u) } }
      let s := if s.cp.unTo ≤ s.cp.built.length then rebuildEnd s Done.ok else s
      unitsSettled s
    | .resync =>
      let s := s.wr (parAddr s u) b
      let s := { s with cp := { s.cp with rebuild := s.cp.rebuild.map fun (r : Rebuild) => { r with todo := r.todo.filter (· ≠ u) } } }
      let s := if s.cp.rebuild.any fun r => r.todo.isEmpty then
          rebuildEnd ((List.range 8).foldl (fun s k => s.emit (.msg (memberNode s true k) .resynced)) s) Done.ok
        else s
      rebuildGo s
    | .demand =>
      let s := { s with cp := { s.cp with backups := amMap (fun _ (k : Backup) =>
        if k.lost = j.lost ∧ k.need.contains u then { k with need := k.need.filter (· ≠ u), got := amSet u b k.got } else k) s.cp.backups } }
      rebuildGo (backupsRun s)
    | .repair =>
      let s := s.wr (protAddr s (u * unitBytes)) b
      let s := { s with cp := { s.cp with repairs := amMap (fun _ (r : Repair) => { r with need := r.need.filter (· ≠ u) }) s.cp.repairs } }
      unitsSettled s

def execRebuildUnitDone (unit : Nat) (s : State) : Host.Outcome State Fault Refusal := nextOf s (unitDone s unit)

/-! ### REBUILD, PAR_REBUILD, RESYNC (R384, R387) -/

/-- Starts a rebuild of `n` units: every one of them unbuilt. -/
def rebuildBody (o : Nat) (c : Cmd) (parity : Bool) (n : State → Nat) : Body := fun s _ =>
  if !roleEnables s [roleCache] then fail s .fenced 0
  else if s.cp.rebuild.isSome then fail s .conflict 0
  else
    let s := { s with cp := { s.cp with rebuild := some ⟨o, c, parity, []⟩, unPar := parity, unTo := n s, built := [], front := [] } }
    let s := rebRegs (s.setR Reg.TIR_CP_REB_STATUS_DONE 0)
    if n s = 0 then
      (rebRegs ({ s with cp := { s.cp with rebuild := none } }.setR Reg.TIR_CP_REB_STATUS_DONE 1), some Done.ok)
    else (rebuildGo s, none)

/-- REBUILD at a spare: its protected space (R387). -/
def execRebuild (c : Cmd) (s : State) : Host.Outcome State Fault Refusal :=
  runPlain s Op.REBUILD c (rebuildBody Op.REBUILD c false fun s => protSize s / unitBytes)

/-- PAR_REBUILD at a parity node: its parity area (R382, R387). -/
def execParRebuild (c : Cmd) (s : State) : Host.Outcome State Fault Refusal :=
  runPlain s Op.PAR_REBUILD c (rebuildBody Op.PAR_REBUILD c true fun s => parSize s / unitBytes)

/-- RESYNC at a parity node (R384): `dirty` lists the dirty units of the degraded members. -/
def resyncBody (c : Cmd) (dirty : List Nat) : Body := fun s _ =>
  if !roleEnables s [roleCache] then fail s .fenced 0
  else if s.cp.rebuild.isSome then fail s .conflict 0
  else if dirty.isEmpty then ((List.range 8).foldl (fun s k => s.emit (.msg (memberNode s true k) .resynced)) s, some Done.ok)
  else (rebuildGo (rebRegs { s with cp := { s.cp with rebuild := some ⟨Op.RESYNC, c, true, dirty.eraseDups⟩ } }), none)

def execResync (c : Cmd) (dirty : List Nat) (s : State) : Host.Outcome State Fault Refusal := runPlain s Op.RESYNC c (resyncBody c dirty)

/-! ### The access sweep (R391, R392) -/

/-- The pages of the protected space. -/
def pageTotal (s : State) : Nat := protSize s / pageBytes

/-- An entry of a list bank: counter, tier, area and page. -/
def pageEntry (s : State) (p : Nat) : List Byte :=
  let a := protAddr s (p * pageBytes)
  let area := ((List.range 16).find? fun n => decide (areaBase s n ≤ a) && decide (a < areaBase s n + areaSize s n)).getD 0
  leBytes 8 (pageCount s p * 2 ^ 48 + (xaSpace a + 1) * 2 ^ 40 + area * 2 ^ 32 + p)

/-- The pages whose counters lie in a range of values, in the values' order; ties by ascending page. -/
def pagesBy (s : State) (vs : List Nat) : List Nat :=
  let all := List.range (pageTotal s)
  (vs.flatMap fun v => all.filter fun p => pageCount s p == v).take 16384

/-- ACCESS_SWEEP: the lists are composed from the counters as they stand, then every counter is halved. -/
def accessSweep (s : State) : State :=
  if s.role ≠ roleCache ∨ s.now / 1000000000 ≤ s.cp.sweptAt / 1000000000 then s
  else
    let hot := pagesBy s ((List.range (65536 - s.r Reg.TIR_CP_ACC_CFG_HOT_THRESH)).map (65535 - ·))
    let cold := pagesBy s (List.range (s.r Reg.TIR_CP_ACC_CFG_COLD_THRESH + 1))
    let g := (s.r Reg.TIR_CP_LIST_GEN_GEN + 1) % 2 ^ 32
    let bank := s.r Reg.TIR_CP_ACC_BASE_BASE * 2 ^ 21 + 0x800000 + g % 2 * 0x80000
    let img := leBytes 8 g ++ leBytes 8 s.now ++ leBytes 4 hot.length ++ leBytes 4 cold.length ++ leBytes 40 0
      ++ (hot ++ cold).flatMap (pageEntry s)
    let s := s.wr bank img
    let s := (List.range (pageTotal s)).foldl (fun s p => s.wr (pageAt s p) (leBytes 2 (pageCount s p / 2))) s
    { s with cp := { s.cp with sweptAt := s.now } }.setR Reg.TIR_CP_LIST_GEN_GEN g

def execAccessSweep (s : State) : Host.Outcome State Fault Refusal := nextOf s (accessSweep s)

/-! ### SEAL (R218 to R222) -/

/-- The stored segments of a plaintext body from segment k on: check record and padded ciphertext, chained by the tag before. -/
def sealSegments (h : StreamHdr) (key : List Byte) : Nat → List Byte → List (List Byte) → List Byte
  | _, _, [] => []
  | k, prev, pt :: rest =>
    let nonce := segNonce h k
    let aad := segAad h k prev
    let ct := fit pt.length (gcmSeal key nonce pt)
    let tag := fit 16 (gcmTag key nonce aad ct)
    let pages := chunks 4096 (fit (roundUp ct.length 4096) ct)
    let rec0 := fit 64 (pages.flatMap fun p => leBytes 4 (crc32c p)) ++ tag ++ leBytes 4 k ++ leBytes 4 pt.length ++ leBytes 36 0
    rec0 ++ leBytes 4 (crc32c rec0) ++ pages.flatten ++ sealSegments h key (k + 1) tag rest

/-- The stored stream of a header and its plaintext body: NONCE_BASE and HDR_CRC are the sealer's. -/
def sealedStream (hdr nonce key body : List Byte) : List Byte :=
  let l := splice hdr 0x18 nonce
  let l := l.take 0xFC ++ leBytes 4 (crc32c (l.take 0xFC))
  l ++ sealSegments (StreamHdr.ofBytes l) key 0 [] (chunks 65536 body)

/-- SEAL: encrypts a plaintext body into a stored stream in a region of this node; it completes once its parity deltas are acknowledged (R383). -/
def sealBody (c : Cmd) : Body := fun s d =>
  if !roleEnables s [roleCache, roleMixed] then redirect s
  else if s.changing then fail s .conflict Detail.ROLE_BUSY
  else
    let h := StreamHdr.ofBytes d
    if !streamHdrOk h d then fail s .fenced Detail.CDC_FORMAT
    else
      match regionAddr s c.arg1 c.arg2 (streamStored h) with
      | .error dt => fail s .fenced dt
      | .ok a =>
        let n := streamStored h
        if dataMember s ∧ !inProt s a n then fail s .fenced Detail.CP_UNPROTECTED
        else if doubleLost s a n then fail s .fenced Detail.CP_DOUBLE
        else
          match memTrouble s a n with
          | some dt => fail s .fenced dt
          | none =>
            let us := blockedUnits s a n true
            if !us.isEmpty then holdCmd s us Op.SEAL c
            else if !s.dmaOk c.fn c.arg0 h.plainLen then (s, some { Done.of .fenced 0 with reason := .descRead })
            else
              match keyUse s h.keySlot h.tenant false with
              | .error e => fail s e.1 (streamKeyDetail e.2)
              | .ok k =>
                let stream := sealedStream d (drbg s 8) k.stream (s.rd (hostXA c.arg0) h.plainLen)
                let t := unhold s.takeFree (.command Op.SEAL c)
                okWhenAcked t (pageTouch (chargeClass (putBytes t a stream) 1 n) a n) Op.SEAL c 0

def execSeal (c : Cmd) (s : State) : Host.Outcome State Fault Refusal := runPlain s Op.SEAL c (sealBody c)

end Sys2Proof.Machine
end

