-- ==== Sys2Proof/Machine/Column.lean ====
section
/-! DEFINITION. Role changes (R424 to R427), stand programs loaded and rolled (R264, R428), self-test in service (R448) and management firmware (R430 to R432, R472 to R474). -/

namespace Sys2Proof.Machine

/-! ### Draining a column (R428 steps 1 to 3) -/

/-- Whether no frame of a column is live. -/
def drained (s : State) (c : Nat) : Bool := (colStands c).all fun st => (s.stand st).frames.isEmpty

/-- Takes a column for a roll or a test, or gives it back. -/
def takeColumn (s : State) (c : Nat) : State := { s with mgt := { s.mgt with takenCols := s.mgt.takenCols ++ [c] } }
def giveColumn (s : State) (c : Nat) : State := { s with mgt := { s.mgt with takenCols := s.mgt.takenCols.erase c } }

/-- Steps 3 to 5 of a roll whose column has drained: fence, PROG_LOAD, unfence; the command ends with the load's result. -/
def rollLoad (s : State) (r : Roll) : State :=
  let c : Cmd := { r.cmd with arg0 := r.image, arg1 := 2 ^ r.col }
  let p := progLoadBody c (takeColumn s r.col) []
  let d := p.2.getD Done.ok
  let s := giveColumn p.1 r.col
  let s := ({ s with mgt := { s.mgt with roll := none } }).setR Reg.MGT_ROLL_STATUS_RUNNING 0
  let s := if d.status = .ok then s.wrap Reg.MGT_ROLL_STATUS_ROLLED 1 else s
  completeCmd s Op.ROLL_COLUMN r.cmd d

/-- A column test begins on a column that has drained: the column is fenced and every deck's contents are lost. -/
def testBegin (s : State) (t : ColTest) : State :=
  let s := (colStands t.col).foldl (fun s st => s.setStand st { s.stand st with deck := [] }) (takeColumn s t.col)
  { s with mgt := { s.mgt with colTest := some { t with running := true, deadline := s.now + 120000000 } } }

/-- Gates a column that has drained (R557). -/
def gateColumn (s : State) (c : Nat) : State :=
  let s := { s with mgt := { s.mgt with trans := s.mgt.trans.map fun (t : PwrTrans) => { t with drainCols := t.drainCols.filter (· ≠ c) } } }
  s.setR Reg.PWR_STATE_GATED (s.r Reg.PWR_STATE_GATED ||| 2 ^ c)

/-- Goes on with every roll, test or gating whose column has drained. -/
def drainCheck (s : State) : State :=
  let s := match s.mgt.trans with
    | some t => (t.drainCols.filter (drained s)).foldl gateColumn s
    | none => s
  let s := match s.mgt.colTest with
    | some t => if !t.running ∧ drained s t.col then testBegin s t else s
    | none => s
  match s.mgt.roll with
  | some r => if drained s r.col then rollLoad s r else s
  | none => s

/-- COLUMN_DRAIN_EXPIRY (R428, R448, R557): frames still live at a drain's deadline are withdrawn, and their tasks placed again. -/
def drainExpiry (s : State) : State :=
  let late (t : Nat) : Bool := decide (t ≤ s.now)
  let cols := (match s.mgt.roll with | some r => if late r.deadline then [r.col] else [] | none => [])
    ++ (match s.mgt.colTest with | some t => if !t.running && late t.deadline then [t.col] else [] | none => [])
    ++ (match s.mgt.trans with | some t => if late t.deadline then t.drainCols else [] | none => [])
  drainCheck (cols.foldl (fun s c => clearStands s (colStands c)) s)

def execColumnDrainExpiry (s : State) : Host.Outcome State Fault Refusal := nextOf s (drainExpiry s)

/-- ROLL_COLUMN (R428). -/
def rollBody (c : Cmd) : Body := fun s _ =>
  if c.arg2 < 100 then (s, refusal .format 0)
  else if s.r Reg.MGT_FAMILY_PARAM_STACKS ≤ c.arg0 then fail s .fenced 0
  else if rollOrActivation s ∨ s.changing then fail s .conflict Detail.ROLE_BUSY
  else
    let s := { s with mgt := { s.mgt with roll := some ⟨c.arg0, c.arg1, s.now + c.arg2 * 1000, c⟩ } }
    (drainCheck ((s.setR Reg.MGT_ROLL_STATUS_RUNNING 1).setR Reg.MGT_ROLL_STATUS_COLUMN c.arg0), none)

def execRollColumn (c : Cmd) (s : State) : Host.Outcome State Fault Refusal := runPlain s Op.ROLL_COLUMN c (rollBody c)

/-! ### Self-test and calibration in service (R448) -/

/-- SELFTEST: a column test, or the calibration of one lane. -/
def selftestBody (c : Cmd) : Body := fun s _ =>
  let k := bits c.arg0 4 3
  let l := bits c.arg0 8 4
  if !bit c.arg0 0 then
    if s.r Reg.MGT_FAMILY_PARAM_STACKS ≤ k then fail s .fenced 0
    else if s.mgt.colTest.isSome then fail s .conflict Detail.FLT_BUSY
    else if rollOrActivation s ∨ s.changing then fail s .conflict Detail.ROLE_BUSY
    else
      let s := { s with mgt := { s.mgt with colTest := some ⟨k, false, s.now + 1000000000, c⟩ } }
      (drainCheck ((s.setR Reg.MGT_SELFTEST_COL_RUNNING 1).setR Reg.MGT_SELFTEST_COL k), none)
  else if s.r Reg.MGT_FAMILY_PARAM_ETH_PORTS ≤ k ∨ 9 ≤ l then fail s .fenced 0
  else if s.mgt.laneCal.isSome then fail s .conflict Detail.FLT_BUSY
  else if spareUsed s k then fail s .fenced Detail.FLT_LANE
  else
    let s := { walkTo s k l with mgt := { s.mgt with laneCal := some ⟨k, l, s.now, c⟩ } }
    (((s.setR Reg.MGT_SELFTEST_LANE_RUNNING 1).setR Reg.MGT_SELFTEST_PORT k).setR Reg.MGT_SELFTEST_LANE l, none)

def execSelftest (c : Cmd) (s : State) : Host.Outcome State Fault Refusal := runPlain s Op.SELFTEST c (selftestBody c)

/-- The record of one stand's or lane's test. -/
def testRecord (s : State) (el : Nat) (pass : Bool) : State :=
  postFault s (if pass then faultRec Src.selftest Act.selftestPass 1 el 0 0
    else faultRec Src.selftest Act.selftestFail 5 el Status.fenced.code Detail.FLT_SELFTEST)

/-- What a test's command ends with. -/
def testDone (pass : Bool) : Done := if pass then Done.ok else Done.of .fenced Detail.FLT_SELFTEST

/-- A stand's test result: one that passes loses the lasting failure, one that fails is marked lasting. -/
def standTested (s : State) (st : Nat) (pass : Bool) : State :=
  testRecord (setLasting s (if pass then s.mgt.lasting &&& ~~~(1#64 <<< st) else s.mgt.lasting ||| (1#64 <<< st))) st pass

/-- A column test ends: the stands' results, instruction memories reloaded, and the column given back. -/
def columnTested (s : State) (pass : Nat) : State :=
  match s.mgt.colTest with
  | none => s
  | some t =>
    if !t.running ∨ s.now < t.deadline then s
    else
      let s := (List.range 8).foldl (fun s k => standTested s (8 * t.col + k) (bit pass k)) s
      let s := giveColumn { s with mgt := { s.mgt with colTest := none } } t.col
      let s := (s.setR Reg.MGT_SELFTEST_COL_RUNNING 0).wrap Reg.MGT_SELFTEST_COMPLETED 1
      completeCmd s Op.SELFTEST t.cmd (testDone (pass % 256 == 255))

/-- A lane calibration ends. -/
def laneTested (s : State) (pass : Bool) : State :=
  match s.mgt.laneCal with
  | none => s
  | some t =>
    if s.now < t.since + 20000000 then s
    else
      let k := laneNo t.port t.lane
      let s := { s with mgt := { s.mgt with laneCal := none, lanePass := s.mgt.lanePass.filter (· ≠ k) ++ (if pass then [k] else []) } }
      let s := laneCalibrated (testRecord s k pass) t.port t.lane pass
      let s := (s.setR Reg.MGT_SELFTEST_LANE_RUNNING 0).wrap Reg.MGT_SELFTEST_COMPLETED 1
      completeCmd s Op.SELFTEST t.cmd (testDone pass)

/-- SELFTEST_END: `pass` has a bit for each stand of the column, or one for the lane. -/
def execSelftestEnd (lane : Bool) (pass : Nat) (s : State) : Host.Outcome State Fault Refusal :=
  nextOf s (if lane then laneTested s (bit pass 0) else columnTested s pass)

/-! ### Role changes (R424 to R427) -/

/-- Whether a cut slot of some pool is reserved or moved out. -/
def leasedSlot (s : State) : Bool := s.tir.pools.any fun p => p.2.groups.any fun g => g.slots.any fun c => c.2.reserved || c.2.movedOut

/-- Whether a SEAL waits, for units or for its deltas (R424, R556). -/
def sealing (s : State) : Bool :=
  (s.cp.held.any fun w => match w with | .command o _ => o == Op.SEAL | _ => false)
  || s.cp.waits.any fun w => match w.2 with | .command o _ _ => o == Op.SEAL | _ => false

/-- Whether a cut slot of some pool is held. -/
def heldSlot (s : State) : Bool := s.tir.pools.any fun p => p.2.groups.any fun g => !g.slots.isEmpty

/-- Condition i of R424. Sealed streams lie in regions. -/
def drainCond (s : State) (i : Nat) : Bool :=
  match i with
  | 0 => s.sch.ctxs.isEmpty
  | 1 => s.sch.spill.isEmpty
  | 2 => s.tir.localSlots.isEmpty && s.xch.merges.isEmpty
  | 3 => s.tir.moves.isEmpty && s.tir.localOut.isEmpty && !leasedSlot s
  | 4 => (!heldSlot s && s.rm.regions.isEmpty) || s.r Reg.MGT_ROLE_DRAIN_QUIESCED == 1
  | 5 => s.r Reg.TIR_CP_GROUP_P_EN == 0 && s.r Reg.TIR_CP_GROUP_D_EN == 0
  | 6 => (List.range 64).all (fun w => !winOn s w) && s.cdc.jobs.all (fun j => j.2.use == .adapter) && !sealing s
  | _ => (List.range 64).all (standFenced s)

/-- MGT_ROLE_DRAIN.COND. -/
def drainConds (s : State) : Nat := (List.range 8).foldl (fun n i => n + b2n (drainCond s i) * 2 ^ i) 0

/-- During a role change every stand is fenced once, as soon as conditions 0 to 6 hold (R424). -/
def roleFence (s : State) : State :=
  if s.changing ∧ !s.mgt.drainFenced ∧ (List.range 7).all (drainCond s) then
    clearStands { s with mgt := { s.mgt with notUnfenced := BitVec.allOnes 64, drainFenced := true } } (List.range 64)
  else s

/-- ROLE_BEGIN (R423, R425): with QUIESCE the node may be quiesced at once. -/
def execRoleBegin (c : Cmd) (s : State) : Host.Outcome State Fault Refusal :=
  runPlain s Op.ROLE_BEGIN c fun s d =>
    let was := s.changing
    let p := roleBeginBody c s d
    let s := if p.1.changing && !was then { p.1 with mgt := { p.1.mgt with drainFenced := false } } else p.1
    (roleFence (quiesceCheck s), p.2)

/-- Whether every column holds an image for the role being loaded (R426). -/
def imagesReady (s : State) : Bool :=
  s.r Reg.MGT_ROLE_ROLE_NEXT == roleUnassigned || (List.range 64).all fun st => match (s.stand st).image with | some im => imageRole s im | none => false

/-- ROLE_COMMIT (R426). -/
def roleCommitBody (_ : Cmd) : Body := fun s _ =>
  let s := roleFence s
  if !s.changing then answer s Done.ok
  else if !(List.range 8).all (drainCond s) ∨ !imagesReady s then fail s .conflict Detail.DRAIN_PENDING
  else
    let nxt := s.r Reg.MGT_ROLE_ROLE_NEXT
    let s := ((s.setR Reg.MGT_ROLE_ROLE nxt).setR Reg.MGT_ROLE_CHANGING 0).setR Reg.MGT_MAP_EPOCH_ROLE_LIVE 0
    let s := (s.setR Reg.MGT_ROLE_DRAIN_QUIESCE 0).setR Reg.MGT_ROLE_DRAIN_QUIESCED 0
    answer (if nxt = roleUnassigned then { s with mgt := { s.mgt with notUnfenced := BitVec.allOnes 64 } } else s) Done.ok

def execRoleCommit (c : Cmd) (s : State) : Host.Outcome State Fault Refusal := runPlain s Op.ROLE_COMMIT c (roleCommitBody c)

/-- PROG_LOAD (R264); during a role change the stand fence of R424 comes first where it is due. -/
def execProgLoad (c : Cmd) (s : State) : Host.Outcome State Fault Refusal :=
  runPlain s Op.PROG_LOAD c fun s d => progLoadBody c (roleFence s) d

/-! ### Management firmware (R430 to R432, R472 to R474) -/

/-- Whether the boot ROM accepts an image (R472, R473). -/
def fwOk (s : State) (l : List Byte) : Bool :=
  let pk := (l.drop 0x40).take 2592
  let ec := (l.drop 0xA60).take 97
  let body := l.drop 8192
  let signed := l.take 0xAE0
  leField l 0 2 == 1 && leField l 6 2 == 0 && leField l 0xC 4 == 0 && leField l 8 4 == body.length
  && allZero ((l.drop 0xAC1).take 31) && allZero ((l.drop 0x1CF3).take 13) && allZero ((l.drop 0x1D60).take 672)
  && (List.range 4).any (fun i => Config.fusedMldsa i == sha384 pk && !Config.revokedMldsa i)
  && (List.range 4).any (fun i => Config.fusedEcdsa i == sha384 ec && !Config.revokedEcdsa i)
  && Config.mldsaOk pk signed ((l.drop 0xAE0).take 4627) && Config.ecdsaOk ec signed ((l.drop 0x1D00).take 96)
  && (l.drop 0x10).take 48 == sha384 body && decide (s.mgt.minSvn ≤ leField l 2 2)

/-- The bank the management core runs from, and the other. -/
def activeBank (s : State) : Nat := s.r Reg.MGT_FW_STATUS_ACTIVE_BANK
def otherBank (s : State) : Nat := 1 - activeBank s

/-- Whether the boot ROM accepts the image in bank k (R472). -/
def bankOk (s : State) (k : Nat) : Bool := ((s.mgt.banks[k]?).bind FwBank.bytes).any (fwOk s)

/-- The bank the boot ROM starts: the active one, else the other, else none (R472). -/
def romBank (s : State) : Option Nat :=
  if bankOk s (activeBank s) then some (activeBank s) else if bankOk s (otherBank s) then some (otherBank s) else none

/-- Neither bank passes: the part stays in recovery, and the scale book records it at severity 7 (R472). -/
def romRecovery (s : State) : State :=
  scbNote (s.setR Reg.MGT_BOOT_STATUS_RECOVERY 1) (faultRec Src.keyhouse Act.recorded 7 0 Status.fenced.code Detail.FW_IMAGE)

/-- MGT_FW_STATUS.STAGED and MGT_FW_VER. -/
def fwRegs (s : State) : State :=
  let v (k : Nat) : Nat := ((s.mgt.banks[k]?).map (·.version)).getD 0
  ((s.setR Reg.MGT_FW_STATUS_STAGED (b2n s.mgt.staged.isSome)).setR Reg.MGT_FW_VER_BANK0 (v 0)).setR Reg.MGT_FW_VER_BANK1 (v 1)

/-- Writes a bank. -/
def setBank (s : State) (k : Nat) (b : FwBank) (staged : Option Nat) : State :=
  fwRegs { s with mgt := { s.mgt with banks := listMod k (fun _ => b) s.mgt.banks, staged := staged } }

/-- FW_STAGE: the image goes to the inactive bank, which is staged if every check passes and empty otherwise. -/
def fwStageBody (c : Cmd) : Body := fun s _ =>
  if !s.dmaOk c.fn c.arg0 c.arg1 then (s, refusal .descRead 0)
  else
    let l := s.rd (hostXA c.arg0) c.arg1
    let k := otherBank s
    if s.mgt.staged = some k ∧ (s.mgt.banks[k]?).any (fun b => b.image == some l) then answer s Done.ok
    else if 8192 ≤ c.arg1 ∧ c.arg1 ≤ 0x2000000 ∧ fwOk s l then answer (setBank s k ⟨some l, leField l 4 2⟩ (some k)) Done.ok
    else (setBank s k ⟨none, 0⟩ none, some (Done.of .fenced Detail.FW_IMAGE))

def execFwStage (c : Cmd) (s : State) : Host.Outcome State Fault Refusal := runPlain s Op.FW_STAGE c (fwStageBody c)

/-- Restarts the management core from a bank. -/
def coreRestart (s : State) (bank : Nat) (trial : Bool) : State :=
  let s := { s with mgt := { s.mgt with coreUp := false } }
  (s.setR Reg.MGT_FW_STATUS_ACTIVE_BANK bank).setR Reg.MGT_FW_STATUS_TRIAL (b2n trial)

/-- FW_ACTIVATE: restarts the management core into the staged bank as TRIAL; a repeat on the bank already active as TRIAL completes. -/
def fwActivateBody (c : Cmd) : Body := fun s _ =>
  if s.changing ∨ rollOrActivation s then fail s .conflict Detail.ROLE_BUSY
  else
    match s.mgt.staged with
    | none => if s.r Reg.MGT_FW_STATUS_TRIAL = 1 then answer s Done.ok else fail s .conflict Detail.ROLE_BUSY
    | some k => (fwRegs (coreRestart { s with mgt := { s.mgt with staged := none, activating := some c, activateStart := s.now } } k true), none)

def execFwActivate (c : Cmd) (s : State) : Host.Outcome State Fault Refusal := runPlain s Op.FW_ACTIVATE c (fwActivateBody c)

/-- FW_CONFIRM: the TRIAL bank becomes the active one and MIN_SVN rises to its SVN (R432, R474). -/
def fwConfirmBody (_ : Cmd) : Body := fun s _ =>
  if s.r Reg.MGT_FW_STATUS_TRIAL = 0 then answer s Done.ok
  else
    let svn := match s.mgt.banks[activeBank s]? with | some b => leField (b.bytes.getD []) 2 2 | none => 0
    answer ({ s with mgt := { s.mgt with minSvn := max s.mgt.minSvn svn } }.setR Reg.MGT_FW_STATUS_TRIAL 0) Done.ok

def execFwConfirm (c : Cmd) (s : State) : Host.Outcome State Fault Refusal := runPlain s Op.FW_CONFIRM c (fwConfirmBody c)

/-- The core runs again: FW_ACTIVATE completes (R431). -/
def coreStarted (s : State) : State :=
  let s := { s with mgt := { s.mgt with coreUp := true } }
  match s.mgt.activating with
  | none => s
  | some c => completeCmd { s with mgt := { s.mgt with activating := none } } Op.FW_ACTIVATE c Done.ok

/-- MGT_CORE_READY (R431): the restarted core is ready, once the boot ROM has accepted its image again. A TRIAL image it refuses never becomes ready, and R432 restores the previous bank; any other refused image leaves the other bank, or recovery (R472; log 109). -/
def coreReady (s : State) : State :=
  if s.mgt.coreUp ∨ s.r Reg.MGT_BOOT_STATUS_READY = 0 ∨ s.r Reg.MGT_BOOT_STATUS_RECOVERY = 1 then s
  else if bankOk s (activeBank s) then coreStarted s
  else if s.r Reg.MGT_FW_STATUS_TRIAL = 1 then s
  else if bankOk s (otherBank s) then coreStarted (s.setR Reg.MGT_FW_STATUS_ACTIVE_BANK (otherBank s))
  else romRecovery s

def execMgtCoreReady (s : State) : Host.Outcome State Fault Refusal := nextOf s (coreReady s)

/-- A TRIAL bank has failed: the previous bank is restored (R432). -/
def fwFallBack (s : State) : State := (coreRestart s (otherBank s) false).setR Reg.MGT_FW_STATUS_FALLBACK 1

/-- FW_TRIAL_TIMEOUT (R432): the TRIAL firmware is not ready 2 s after FW_ACTIVATE. -/
def trialTimeout (s : State) : State :=
  match s.mgt.activating with
  | none => s
  | some c =>
    if s.mgt.coreUp ∨ s.now < s.mgt.activateStart + 2000000000 then s
    else completeCmd (fwFallBack { s with mgt := { s.mgt with activating := none } }) Op.FW_ACTIVATE c (Done.of .fenced Detail.FW_FALLBACK)

def execFwTrialTimeout (s : State) : Host.Outcome State Fault Refusal := nextOf s (trialTimeout s)

/-- MGT_WATCHDOG (R551): the management core alone restarts, from the previous bank where the active one is TRIAL. -/
def coreWatchdog (s : State) : State :=
  if !s.mgt.coreUp then s
  else if s.r Reg.MGT_FW_STATUS_TRIAL = 1 then fwFallBack s
  else coreRestart s (activeBank s) false

def execMgtWatchdog (s : State) : Host.Outcome State Fault Refusal := nextOf s (coreWatchdog s)

end Sys2Proof.Machine
end

