-- ==== Sys2Proof/Machine/Power.lean ====
section
/-! DEFINITION. Resets and start-up (R551 to R554), power states (R555 to R560) and temperature (R563, R564). -/

namespace Sys2Proof.Machine

/-! ### Power states (R555 to R560) -/

/-- PWR_STATE.STATE. -/
def pwr (s : State) : Nat := s.r Reg.PWR_STATE_STATE

/-- The transitions of R556 bit 0. -/
def pwrPair (cur t : Nat) : Bool :=
  [(0, 1), (1, 0), (1, 1), (0, 2), (1, 2), (2, 0), (2, 1), (2, 3), (2, 4), (3, 2), (3, 4)].contains (cur, t)

/-- Whether a queue pair has anything unacknowledged, queued or pulled (R556 bit 4). -/
def qpBusy (q : Qp) : Bool :=
  !q.unacked.isEmpty || !q.stream.isEmpty || !q.resp.isEmpty || decide (q.sqHead ≠ q.sqTail) || !q.rx.isEmpty || !q.lateReads.isEmpty

/-- The conditions of R556 that fail, as RESULT's bits. -/
def pwrFails (s : State) (t mask : Nat) : Nat :=
  let deep := decide (3 ≤ t)
  b2n (!pwrPair (pwr s) t)
  + 2 * b2n s.mgt.trans.isSome
  + 4 * b2n (t == 1 && (mask == 0 || mask == 0xFF))
  + 8 * b2n (deep && s.sch.ctxs.any fun x => x.2.phase.active)
  + 16 * b2n (deep && ((s.cwt.qps.any fun q => qpBusy q.2) || !s.cwt.missq.isEmpty || !s.cwt.chokers.isEmpty))
  + 32 * b2n (deep && ((s.xch.wins.any fun w => !w.2.uses.isEmpty) || !s.cdc.jobs.isEmpty || sealing s || !s.tir.moves.isEmpty
      || leasedSlot s || s.cp.rebuild.isSome || s.mgt.colTest.isSome || s.mgt.laneCal.isSome || rollOrActivation s || s.changing))

/-- The columns whose bit is set in a mask. -/
def maskCols (m : Nat) : List Nat := (List.range 8).filter fun c => bit m c

/-- The columns gated in a target state. -/
def gatedIn (t mask : Nat) : Nat := if t = 0 then 0 else if t = 1 then mask else 0xFF

/-- PWR_STATE (R556, R557): the conditions, then the transition begins. -/
def pwrStateBody (c : Cmd) : Body := fun s _ =>
  let t := bits c.arg0 0 3
  let mask := bits c.arg0 8 8
  if t = pwr s ∧ (t ≠ 1 ∨ mask = s.r Reg.PWR_STATE_GATED) then (s, some { Done.ok with value := t })
  else if pwrFails s t mask ≠ 0 then (s, some { Done.of .conflict 0 with result := pwrFails s t mask })
  else
    let cols := (maskCols (gatedIn t mask)).filter fun k => !bit (s.r Reg.PWR_STATE_GATED) k
    let s := { s with mgt := { s.mgt with trans := some ⟨t, mask, c, cols, s.now + 500000⟩ } }
    let s := (s.setR Reg.PWR_STATE_BUSY 1).setR Reg.PWR_STATE_TARGET t
    (drainCheck (if 3 ≤ t then scbStartFlush s else s), none)

def execPwrState (c : Cmd) (s : State) : Host.Outcome State Fault Refusal := runPlain s Op.PWR_STATE c (pwrStateBody c)

/-- Every sub-port goes down and every context is written back (R557). -/
def enterRetention (s : State) : State :=
  let s := (List.range 8).foldl (fun s p => (List.range 8).foldl (fun s k => subportDown s p k false false) s) s
  { s with sch := { s.sch with cache := [], filling := [] }, cwt := { s.cwt with resident := [] } }

/-- Volatile secrets are overwritten (R479, R557). -/
def dropSecrets (s : State) : State :=
  let s := { s with kh := { Kh.reset with kemGen := s.kh.kemGen }, trl := { s.trl with key := none } }
  ((keyRegs s).setR Reg.KEY_STATUS_STATE 0).setR Reg.KEY_STATUS_PREFIX_LOADED 0

/-- POWER_TRANSITION_DONE (R557): columns gated or ungated, the state entered, and PWR_STATE completed with it. -/
def transitionDone (s : State) : State :=
  match s.mgt.trans with
  | none => s
  | some t =>
    let s := t.drainCols.foldl (fun s c => clearStands s (colStands c)) s
    let s := { s with mgt := { s.mgt with trans := none } }
    let s := ((s.setR Reg.PWR_STATE_GATED (gatedIn t.target t.mask)).setR Reg.PWR_STATE_STATE t.target).setR Reg.PWR_STATE_BUSY 0
    let s := if t.target ≤ 1 then setBucket s (bucketFull s) else s
    let s := if 3 ≤ t.target then enterRetention s else s
    let s := if t.target = 4 then dropSecrets s else s
    let s := completeCmd s Op.PWR_STATE t.cmd { Done.ok with value := t.target }
    if t.target = 4 then s.emit (.pin .pwroffReqN false) else s

def execPowerTransitionDone (s : State) : Host.Outcome State Fault Refusal := nextOf s (transitionDone s)

/-! ### Temperature (R563, R564) -/

/-- Tj and its sensor: the highest sample, the lowest index on a tie. -/
def hottest (l : List Int) : Int × Nat :=
  l.zipIdx.foldl (fun (b : Int × Nat) e => if b.1 < e.1 then e else b) (l.headD 0, 0)

/-- The blaze step that a temperature reaches (R153), in units of 0.125 °C. -/
def blazeStep (tj : Int) : Nat := if tj < 760 then 0 else if tj < 800 then 1 else if tj < 824 then 2 else 3

/-- The threshold of a blaze step. -/
def blazeFrom (st : Nat) : Int := if st = 1 then 760 else if st = 2 then 800 else 824

/-- The blaze step after a sample: up at once, down one step after 16 samples 2.0 °C below (R563). -/
def stepBlaze (s : State) (tj : Int) : State :=
  let cur := s.trl.step
  let set (n run : Nat) : State :=
    (({ s with trl := { s.trl with step := n }, mgt := { s.mgt with coolRun := run } }).setR Reg.TRL_THROTTLE_STEP n).setR Reg.PWR_THERM_STEP n
  if cur < blazeStep tj then set (blazeStep tj) 0
  else if 0 < cur ∧ tj < blazeFrom cur - 16 then
    if 16 ≤ s.mgt.coolRun + 1 then set (cur - 1) 0 else set cur (s.mgt.coolRun + 1)
  else set cur 0

/-- The pipe slots a step withholds in 10 ns, of the 32 that the four pipes offer in eight cycles of ICLK (R152, R153). -/
def withheldPer (st : Nat) : Nat := match st with | 0 => 0 | 1 => 16 | 2 => 24 | _ => 28

/-- Ten nanoseconds of the blaze table's pipes: KSLOTS counts the withheld slots in units of 1,024 (R153). ICLK runs below PS3. -/
def countWithheld (s : State) : State :=
  if s.trl.step = 0 ∨ 3 ≤ pwr s then s
  else
    let n := s.trl.withheld + withheldPer s.trl.step
    ({ s with trl := { s.trl with withheld := n % 1024 } }).wrap Reg.TRL_THROTTLE_KSLOTS (n / 1024)

/-- A sensor's extremes in the interval (R484). -/
def noteSensor (s : State) (i : Nat) (t : Int) : State :=
  let e := match amGet i s.scb.sensorExt with
    | none => (t, t, s.now)
    | some (lo, hi, at_) => (min lo t, max hi t, if hi < t then s.now else at_)
  { s with scb := { s.scb with sensorExt := amSet i e s.scb.sensorExt } }

/-- A thermal trip (R564): every stand is fenced and none marked lasting, THERMTRIP_N goes low, and a record of severity 7 is posted. -/
def thermalTrip (s : State) : State :=
  if s.mgt.thermalTrip then s
  else
    let s := clearStands { s with mgt := { s.mgt with thermalTrip := true } } (List.range 64)
    let s := (s.setR Reg.PWR_THERM_TRIP 1).emit (.pin .thermtripN false)
    postFault s (faultRec Src.thermal Act.recorded 7 0 Status.fenced.code 0)

/-- THERMAL_SAMPLE (R563, R564): the sixteen sensors in units of 0.125 °C, and the die power of the latest millisecond in W. -/
def thermalSample (s : State) (temps : List Int) (watts : Nat) : State :=
  let temps := (List.range 16).map fun i => temps.getD i 0
  let old := toSigned 16 (s.r Reg.PWR_THERM_TJ)
  let h := hottest temps
  let s := temps.zipIdx.foldl (fun s e => noteSensor (s.setR (Reg.PWR_SENSOR_TEMP.at 4 e.2) (ofSigned 16 e.1)) e.2 e.1) s
  let s := ((s.setR Reg.PWR_THERM_TJ (ofSigned 16 h.1)).setR Reg.PWR_THERM_HOT_SENSOR h.2).setR Reg.PWR_DIE_POWER_WATTS watts
  let s := { s with scb := { s.scb with tjSamples := s.scb.tjSamples ++ [h.1], powerSamples := s.scb.powerSamples ++ [watts] } }
  let s := stepBlaze s h.1
  let s := if 840 ≤ h.1 ∧ old < 840 then scbNote (s.setR Reg.PWR_THERM_WARN 1) (faultRec Src.thermal Act.recorded 3 h.2 0 0) else s
  if 880 ≤ h.1 ∧ 880 ≤ old then thermalTrip s else s

def execThermalSample (temps : List Int) (watts : Nat) (s : State) : Host.Outcome State Fault Refusal := nextOf s (thermalSample s temps watts)

/-! ### Resets (R551, R552) -/

/-- Whether something holds the controller in reset. -/
def inReset (s : State) : Bool := s.mgt.boot.por || s.mgt.boot.perst || !s.mgt.boot.refOk

/-- Whether a field belongs to the scale book, which a reset other than POWER_ON leaves running. -/
def aoField (k : Nat) : Bool := decide (0x4800000 ≤ k / 64) && decide (k / 64 < 0x4803000)

/-- The bank that the next restart boots: the previous one while the active one is TRIAL (R432). -/
def bootBank (s : State) : Nat := if s.r Reg.MGT_FW_STATUS_TRIAL = 1 then otherBank s else activeBank s

/-- A reset of the controller (R551, R552): all work in flight and all on-die contents go, the AOCLK domain's too for cause POWER_ON; HBM is lost; CXL and host memory, MRAM, boot flash and fuses stay. Device time starts at 0 again (R550). -/
def controllerReset (s : State) (cause : Nat) : State :=
  let r := State.reset
  let full := cause == 1
  let s' : State :=
    { r with
      pending := s.pending, sent := s.sent, free := s.free,
      mem := s.mem.filter fun c => xaSpace c.1 == 1 || xaSpace c.1 == 3,
      regs := if full then [] else s.regs.filter fun e => aoField e.1,
      hif := { r.hif with dmaRefused := s.hif.dmaRefused },
      mgt := { r.mgt with banks := s.mgt.banks, minSvn := s.mgt.minSvn, boot := { s.mgt.boot with done := [] } },
      scb := if full then { r.scb with mram := s.scb.mram } else { s.scb with intervalStart := 0, daySum := [], dayN := [], dayTime := 0 },
      kh := { r.kh with kemGen := s.kh.kemGen } }
  let s' := (fwRegs (s'.setR Reg.MGT_FW_STATUS_ACTIVE_BANK (bootBank s))).setR Reg.MGT_BOOT_STATUS_CAUSE cause
  let s' := if s.mgt.thermalTrip then s'.emit (.pin .thermtripN true) else s'
  if pwr s = 4 then s'.emit (.pin .pwroffReqN true) else s'

/-- A reset of a cause other than POWER_ON; in PS4 it is ignored (R551, R560). -/
def softReset (s : State) (cause : Nat) : State := if pwr s = 4 then s else controllerReset s cause

/-- POR_ASSERT (R566, R574): the whole controller is held in reset. -/
def porAssert (s : State) : State :=
  let s := controllerReset s 1
  { s with mgt := { s.mgt with boot := { s.mgt.boot with por := true } } }

def execPorAssert (s : State) : Host.Outcome State Fault Refusal := nextOf s (porAssert s)

/-- POR_RELEASE: cause POWER_ON, and start-up begins. -/
def porRelease (s : State) : State :=
  let s := controllerReset s 1
  { s with mgt := { s.mgt with boot := { s.mgt.boot with por := false } } }

def execPorRelease (s : State) : Host.Outcome State Fault Refusal := nextOf s (porRelease s)

/-- PERST: PERST_N is asserted and holds the controller in reset. -/
def perst (s : State) : State :=
  if pwr s = 4 then s
  else
    let s := controllerReset s 2
    { s with mgt := { s.mgt with boot := { s.mgt.boot with perst := true } } }

def execPerst (s : State) : Host.Outcome State Fault Refusal := nextOf s (perst s)

/-- PERST_RELEASE: PERST_N is deasserted, and start-up counts from here. -/
def perstRelease (s : State) : State := { s with mgt := { s.mgt with boot := { s.mgt.boot with perst := false } } }

def execPerstRelease (s : State) : Host.Outcome State Fault Refusal := nextOf s (perstRelease s)

def execHotReset (s : State) : Host.Outcome State Fault Refusal := nextOf s (softReset s 3)

/-- A host link that goes down is recorded (R438). Only the scale book keeps the record: the reset that follows takes the fault queue. -/
def linkRecord (s : State) : State := scbNote s (faultRec Src.hostPort Act.recorded 6 0 Status.fenced.code Detail.FLT_LINK)

/-- LINK_DOWN: resets the controller other than in D3hot, PS3 or PS4. -/
def linkDown (s : State) : State := if (s.fn 0).d3hot ∨ pwr s = 3 ∨ pwr s = 4 then s else softReset (linkRecord s) 4

def execLinkDown (s : State) : Host.Outcome State Fault Refusal := nextOf s (linkDown s)

/-- PF_FLR (R501). -/
def execPfFlr (s : State) : Host.Outcome State Fault Refusal := nextOf s (softReset s 5)

/-- PWR_RESET: the key 0xA5 resets the controller; other values are ignored. -/
def execPwrReset (v : Nat) (s : State) : Host.Outcome State Fault Refusal := nextOf s (if v % 256 = 0xA5 then softReset s 6 else s)

/-- REF_LOSS: the reference or PLL lock has been lost for 10 µs. -/
def refLoss (s : State) : State :=
  if pwr s = 4 then s
  else
    let s := controllerReset s 7
    { s with mgt := { s.mgt with boot := { s.mgt.boot with refOk := false } } }

def execRefLoss (s : State) : Host.Outcome State Fault Refusal := nextOf s (refLoss s)

/-- REFCLK_STABLE: the reference has been stable for 1 ms, and the held reset is released. -/
def execRefclkStable (s : State) : Host.Outcome State Fault Refusal :=
  nextOf s { s with mgt := { s.mgt with boot := { s.mgt.boot with refOk := true } } }

/-! ### Start-up (R553, R554) -/

/-- The steps that step n depends on. -/
def stepNeeds (n : Nat) : List Nat :=
  match n with
  | 2 => [1] | 3 => [2] | 4 => [3] | 5 => [4] | 6 => [5] | 7 => [2] | 8 => [2] | 9 => [5] | 10 => [7] | 11 => [6, 7, 8, 9, 10]
  | _ => []

/-- The BOOT record (R483). -/
def bootRecord (s : State) : ScbRec :=
  { seq := 0, boot := 0, kind := 5, severity := 3, flushed := false, clamped := false, source := 0, element := 0, item := 0, tFirst := s.now, tLast := s.now, count := 0,
    body := fit 216 (leBytes 1 (s.r Reg.MGT_BOOT_STATUS_CAUSE) ++ leBytes 1 (activeBank s)
      ++ leBytes 4 (s.r Reg.MGT_FW_VER_BANK1 * 65536 + s.r Reg.MGT_FW_VER_BANK0) ++ leBytes 2 0 ++ leBytes 4 0x96000111) }

/-- The ports of a flexible port's interleave set, in ascending order (R545). -/
def setPorts (s : State) (q : Nat) : List Nat :=
  (List.range 8).filter fun k => flexMode s k == 2 && s.r (Reg.HIF_FLEX_CFG_SET.at 0x20 k) == s.r (Reg.HIF_FLEX_CFG_SET.at 0x20 q)

/-- The window of a flexible port, in GiB. -/
def flexWin (s : State) (q : Nat) : Nat × Nat := (s.r (Reg.HIF_FLEX_WIN_BASE.at 0x20 q), s.r (Reg.HIF_FLEX_WIN_SIZE_1G.at 0x20 q))

/-- Whether a CXL port's interleave set meets R545. -/
def setOk (s : State) (q : Nat) : Bool :=
  let l := setPorts s q
  let w := flexWin s q
  [1, 2, 4, 8].contains l.length && l.all (fun k => flexWin s k == w) && decide (w.1 + w.2 ≤ 4096)
  && (List.range 8).all fun k => flexMode s k != 2 || l.contains k
      || decide ((flexWin s k).1 + (flexWin s k).2 ≤ w.1) || decide (w.1 + w.2 ≤ (flexWin s k).1)

/-- Step 9 for one flexible port: trained with the rate and width given, left down with FLT_LINK, or left untrained because its set breaks R545. -/
def flexBoot (s : State) (q : Nat) (up : Bool) (rate width : Nat) : State :=
  if flexMode s q = 0 then s
  else if flexMode s q = 2 ∧ !setOk s q then postFault s (faultRec Src.flexPort Act.recorded 6 q 0 0)
  else if up then
    let s := setFlex s q 1 rate width (if flexMode s q = 2 then (flexWin s q).2 / (setPorts s q).length else 0)
    s.setR Reg.MGT_BOOT_STATUS_FLEX_UP (s.r Reg.MGT_BOOT_STATUS_FLEX_UP ||| 2 ^ q)
  else postFault s (faultRec Src.flexPort Act.recorded 6 q Status.fenced.code Detail.FLT_LINK)

/-- Step 10 for one stand: a pass clears its LASTING bit, a failure marks it and is recorded. -/
def standBoot (s : State) (st : Nat) (pass : Bool) : State :=
  if pass then setLasting s (s.mgt.lasting &&& ~~~(1#64 <<< st))
  else testRecord (setLasting s (s.mgt.lasting ||| (1#64 <<< st))) st false

/-- The signed configuration applied to RWL fields, as (offset, value) of 64-bit or 32-bit registers (R553 step 5). -/
def applyConfig (s : State) (cfg : List (Nat × Nat)) : State :=
  cfg.foldl (fun s e =>
    match regAt e.1 with
    | none => s
    | some (row, d) =>
      { s with regs := row.fields.foldl (fun r f => if f.acc = .rwl then fieldWrite false r { f with off := f.off + d } e.2 else r) s.regs }) s

/-- What a start-up step does when it ends. `good` has a bit for each stack, port, stand or test that passed; which bank boots the images say (R472); `vals` holds step 5's configuration, step 8's failed lanes and step 9's rates and widths. -/
def stepEffect (s : State) (n good : Nat) (vals : List (Nat × Nat)) : State :=
  match n with
  | 1 =>
    let m := s.scb.mram
    let s := s.setR Reg.SCB_STATUS_LAST_PFAIL (b2n m.lastPfail)
    { s with scb := { s.scb with nextSeq := 0, mram := { m with boot := (m.boot + 1) % 2 ^ 32, lastPfail := false } } }
  | 2 => (s.setR Reg.CLK_STATUS_PLL_LOCK 1).setR Reg.CLK_STATUS_REF_OK 1
  | 3 =>
    match romBank s with
    | some k => if k = activeBank s then s else s.setR Reg.MGT_FW_STATUS_ACTIVE_BANK k
    | none => romRecovery s
  | 4 =>
    let s := fwRegs { s with mgt := { s.mgt with coreUp := true } }
    let s := s.setR Reg.KEY_EPOCH_WRAP_EPOCH (wrapEpoch s)
    if bit good 0 then (s.setR Reg.KEY_STATUS_STATE 1).setR Reg.MGT_BOOT_STATUS_KEY_OK 1 else selfTestFail s
  | 5 =>
    let s := applyConfig s vals
    (s.setR Reg.MGT_BOOT_STATUS_LOCKED 1).setR Reg.KEY_STATUS_APPROVED (s.r Reg.KEY_POLICY_APPROVED)
  | 6 => s.setR Reg.MGT_BOOT_STATUS_HOST_READY 1
  | 7 =>
    (List.range (s.r Reg.MGT_FAMILY_PARAM_STACKS)).foldl (fun s k => if bit good k then s else quiesceStack s k) (s.setR Reg.MGT_BOOT_STATUS_HBM_OK good)
  | 8 => vals.foldl (fun s e => laneLasting s (e.1 % 8) (e.2 % 9)) (s.setR Reg.MGT_BOOT_STATUS_ETH_CAL_OK good)
  | 9 => (List.range 8).foldl (fun s q => flexBoot s q (bit good q) (vals.getD q (0, 0)).1 (vals.getD q (0, 0)).2) s
  | 10 =>
    let s := setLasting s s.scb.mram.standLasting
    let s := (List.range 64).foldl (fun s st => standBoot s st (bit good st)) s
    s.setR Reg.MGT_BOOT_STATUS_COL_OK ((List.range 8).foldl (fun m c => m + b2n (bits good (8 * c) 8 == 255) * 2 ^ c) 0)
  | 11 => scbPut (s.setR Reg.MGT_BOOT_STATUS_READY 1) (bootRecord s)
  | _ => s

/-- STARTUP_STEP (R553): a step ends whose dependencies have ended; in recovery nothing after step 3 runs. -/
def startupStep (s : State) (n good : Nat) (vals : List (Nat × Nat)) : State :=
  if inReset s ∨ s.mgt.boot.done.contains n ∨ !(stepNeeds n).all s.mgt.boot.done.contains
      ∨ (4 ≤ n ∧ n ≤ 6 ∧ s.r Reg.MGT_BOOT_STATUS_RECOVERY = 1) then s
  else stepEffect { s with mgt := { s.mgt with boot := { s.mgt.boot with done := s.mgt.boot.done ++ [n] } } } n good vals

/-- STARTUP_STEP of steps 1 to 11. -/
def execStartupStep (n good : Nat) (vals : List (Nat × Nat)) (s : State) : Host.Outcome State Fault Refusal :=
  withUnit s (decide (1 ≤ n) && decide (n ≤ 11)) (startupStep s n good vals)

end Sys2Proof.Machine
end

