-- ==== Sys2Proof/Machine/View.lean ====
section
/-! DEFINITION. What register reads return (R8, R11, R504): the register map with its computed fields, the functions' views, the scale-book ring window (R483), the MRAM window (R489), and the MCTP sideband (R526). -/

namespace Sys2Proof.Machine

/-! ### Fields that the controller forms from its state -/

/-- The copy of field `g` that field `f` is, where copies stand `stride` bytes apart. -/
def copyOf (g : Fld) (stride n : Nat) (f : Fld) : Option Nat :=
  if f.lo = g.lo ∧ g.off ≤ f.off ∧ (f.off - g.off) % stride = 0 ∧ (f.off - g.off) / stride < n then some ((f.off - g.off) / stride) else none

/-- Space of a stack's local area that is not allocated, in units of 2 MiB, rounded down (TIR_LOCAL_STAGE). -/
def localFree (s : State) (k : Nat) : Nat :=
  s.r (Reg.TIR_LOCAL_SIZE_SIZE_2M.at 16 k)
    - ((s.tir.localSlots.map fun e => e.2.bytes.getD k 0).sum + (s.xch.staged.map fun g => g.space.bytes.getD k 0).sum + 2097151) / 2097152

/-- The frame that copy k of STD_FRAME shows. -/
def frameView (s : State) (k : Nat) : Option (Stand × Frame) :=
  (amGet (k % 0x4000) (s.stand (k / 0x4000)).frames).map fun F => (s.stand (k / 0x4000), F)

/-- The lane under calibration (MGT_LANE_STATE.CAL): one that a command named, or the spare in the first 20 ms of its dwell (R448, R533). -/
def calLane (s : State) (p : Nat) : Nat :=
  match s.mgt.laneCal with
  | some c => if c.port = p then c.lane else spare
  | none => spare
where
  /-- The spare while its calibration runs. -/
  spare : Nat :=
    if spareUsed s p then 0xF
    else match spareLane s p with
      | some l => if s.now < amGetD p 0 s.cwt.spareAt + 20000000 then l else 0xF
      | none => 0xF

/-- The columns with a stand that is not fenced (CLK_STATUS.SCLK_ON, R21). -/
def clockedCols (s : State) : Nat := bitSet ((List.range 8).filter fun c => (List.range 8).any fun r => !standFenced s (8 * c + r))

/-- A word of an observer's bank (CWT_OBS_HIST). -/
def obsWord (s : State) (bank o r : Nat) : Nat :=
  match amGet (2 * o + bank) s.cwt.obs with
  | none => 0
  | some b =>
    if r < 0x40 then b.depth.getD (r / 4) 0 else if r < 0x80 then b.delay.getD ((r - 0x40) / 4) 0
    else if r = 0x80 then b.maxDepth else if r = 0x84 then b.maxDelay else if r = 0x88 then b.samples else 0

/-- The fields that are formed at the read: field, distance and number of its copies, and the value of copy k. -/
def views (s : State) (fn : Nat) : List (Fld × Nat × Nat × (Nat → Nat)) :=
  [(Reg.SCH_CTX_LIVE_LIVE, 4, 1, fun _ => s.sch.ctxs.length),
   (Reg.SCH_CTX_FALLOWING_FALLOWING, 4, 1, fun _ => (s.sch.ids.released.filter fun e => decide (s.now < e.2)).length),
   (Reg.SCH_ADMIT_QUEUED_QUEUED, 4, 1, fun _ => (s.sch.queues.map fun e => e.2.length).sum),
   (Reg.SCH_CLASS_ACTIVE_ACTIVE, 4, 8, fun c => amCount (fun _ (x : Ctx) => x.lclass == c && x.phase.active) s.sch.ctxs),
   (Reg.SCH_MODELS_REGISTERED, 4, 1, fun _ => s.sch.models.length),
   (Reg.SCH_PAUSED_PAUSED, 4, 1, fun _ => amCount (fun _ (x : Ctx) => x.phase == .paused) s.sch.ctxs),
   (Reg.TRL_BLAZE_LIVE_LIVE, 4, 1, fun _ => s.trl.blaze.length),
   (Reg.TIR_LOCAL_STAGE_FREE_2M, 16, 8, localFree s),
   (Reg.STD_SEQ_STATUS_FENCED, 0x10000, 64, fun i => b2n (standFenced s i)),
   (Reg.MGT_ROLE_DRAIN_COND, 4, 1, fun _ => drainConds s),
   (Reg.MGT_FLT_STATUS_TAIL, 8, 1, fun _ => s.mgt.fltTail),
   (Reg.MGT_FLT_STATUS_HELD, 8, 1, fun _ => s.mgt.fltHeld.length),
   (Reg.MGT_STAND_FENCE_FENCED, 8, 1, fun _ => (standFence s).toNat),
   (Reg.MGT_LANE_STATE_CAL, 4, 8, calLane s),
   (Reg.SCB_STATUS_LAST_SEQ, 8, 1, fun _ => s.scb.nextSeq),
   (Reg.SCB_STATUS_FLUSHING, 8, 1, fun _ => b2n s.scb.flushing),
   (Reg.SCB_STATUS_UNFLUSHED, 8, 1, fun _ => amCount (fun _ (r : ScbRec) => !r.flushed) s.scb.ring),
   (Reg.SCB_MRAM_STATUS_BOOT, 8, 1, fun _ => s.scb.mram.boot),
   (Reg.SCB_MRAM_STATUS_CIRC_NEXT, 8, 1, fun _ => s.scb.mram.circNext),
   (Reg.SCB_MRAM_STATUS_KEPT, 8, 1, fun _ => s.scb.mram.kept),
   (Reg.SCB_CIRC_WRAPS_WRAPS, 4, 1, fun _ => s.scb.mram.wraps),
   (Reg.HIF_FN_STATUS_READY, 8, 1, fun _ => b2n (s.fr fn Reg.HIF_ADMQ_CFG_ENABLE == 1 && amHas 0 (s.fn fn).cqs)),
   (Reg.HIF_FN_STATUS_QUEUES, 8, 1, fun _ => queuesInUse (s.fn fn)),
   (Reg.HIF_FN_TENANT_VALID, 8, 1, fun _ => 1),
   (Reg.HIF_EVT_STATUS_PENDING, 4, 1, fun _ => bitSet ((List.range 4).filter (causePending s))),
   (Reg.CLK_STATUS_SCLK_ON, 4, 1, fun _ => clockedCols s),
   (Reg.CLK_TIME_TIME, 8, 1, fun _ => s.now)]

/-- The number of the frame whose copy of field `g` field `f` is: the four frames of a stand 4 bytes apart, the stands 0x10000. -/
def frameCopy (g f : Fld) : Option Nat :=
  let d := f.off - g.off
  if f.lo = g.lo ∧ g.off ≤ f.off ∧ d % 4 = 0 ∧ d % 0x10000 < 16 ∧ d / 0x10000 < 64 then some (d / 0x10000 * 0x4000 + d % 0x10000 / 4) else none

/-- The fields of STD_FRAME and STD_FRAME_TAG, formed at the read from the frame they show. -/
def frameViews (s : State) : List (Fld × (Nat → Nat)) :=
  let of (g : Stand → Frame → Nat) (k : Nat) : Nat := match frameView s k with | some v => g v.1 v.2 | none => 0
  [(Reg.STD_FRAME_LIVE, of fun _ _ => 1), (Reg.STD_FRAME_HELD, of fun S F => b2n (frameHeld S F)), (Reg.STD_FRAME_WITHDRAWING, of fun _ F => b2n F.withdrawing),
   (Reg.STD_FRAME_PC, of fun _ F => F.pc), (Reg.STD_FRAME_TAG_JOB_TAG, of fun _ F => F.jobTag)]

/-- A field as each function has its own copy of the function registers (R504). -/
def fldFor (fn : Nat) (f : Fld) : Fld := if 0x1000000 ≤ f.off ∧ f.off < 0x1000100 then f.ofFn fn else f

/-- The value a read of a field returns to function `fn` (R8). -/
def fieldRead (s : State) (fn : Nat) (f : Fld) : Nat :=
  match ((frameViews s).findSome? fun v => (frameCopy v.1 f).map v.2).orElse fun _ => (views s fn).findSome? fun v => (copyOf v.1 v.2.1 v.2.2.1 f).map v.2.2.2 with
  | some x => x % 2 ^ f.w
  | none => s.r (fldFor fn f)

/-- The value a read of a register returns (R8, R9): reserved and WO fields read 0. -/
def registerRead (s : State) (fn : Nat) (row : RegRow) (d : Nat) : Nat :=
  row.fields.foldl (fun a f => if f.acc = .wo then a else a + fieldRead s fn { f with off := f.off + d } <<< f.lo) 0

/-! ### The views of R504 -/

/-- The rows of R504 as the PF sees them: first and last address. -/
def barRanges : List (Nat × Nat) :=
  [(0x0, 0xFFF), (0x1000000, 0x1000FFF), (0x1020000, 0x1021FFF), (0x1100000, 0x1101FFF), (0x2000000, 0x207FFFF), (0x4200000, 0x4200FFF),
   (0x4300000, 0x43001FF), (0x4400000, 0x4400BFF), (0x4500000, 0x45005FF), (0x4600000, 0x462FFFF), (0x4700000, 0x47000FF),
   (0x4800000, 0x4802FFF), (0x4900000, 0x49FFFFF), (0x4A00000, 0x4A0FFFF), (0x4B00000, 0x4B0FFFF), (0x5000000, 0x6FFFFFF),
   (0x8000000, 0x83FFFFF), (0x8400000, 0x8400007)]

/-- The PF address that offset `off` of function `fn`'s BAR0 shows; none where no row covers it (R504). -/
def barAddr (fn off : Nat) : Option Nat :=
  if fn = 0 then if barRanges.any fun r => decide (r.1 ≤ off) && decide (off ≤ r.2) then some off else none
  else if off < 0x10 then some off
  else if 0x1000 ≤ off ∧ off < 0x1100 then some (0x1000000 + (off - 0x1000))
  else if 0x2000 ≤ off ∧ off < 0x4000 then some (0x1020000 + (off - 0x2000))
  else if 0x40000 ≤ off ∧ off < 0xC0000 then some (0x2000000 + (off - 0x40000))
  else none

/-- The 256-byte image of a record (R483). -/
def ScbRec.bytes (r : ScbRec) : List Byte :=
  let body := if r.kind = 3 then fit 216 (fit 64 r.body ++ leBytes 4 r.count) else fit 216 r.body
  let b := leBytes 4 r.seq ++ leBytes 4 r.boot ++ leBytes 1 r.kind ++ leBytes 1 r.severity ++ leBytes 1 (b2n r.flushed + 2 * b2n r.clamped)
    ++ leBytes 1 r.source ++ leBytes 2 r.element ++ leBytes 2 r.item ++ leBytes 8 r.tFirst ++ leBytes 8 r.tLast ++ body
  b ++ leBytes 8 (crc64 b)

/-- The bytes of a record slot; an empty one is zero (R483). -/
def recBytes (m : AMap ScbRec) (k : Nat) : List Byte :=
  match amGet k m with
  | some r => r.bytes
  | none => leBytes 256 0

/-- The MRAM's header (R489). What the spec does not place there is a free value. -/
def mramHeader (s : State) : List Byte :=
  let m := s.scb.mram
  let b := leBytes 4 0x42535945 ++ leBytes 4 m.boot ++ leBytes 4 m.kept ++ leBytes 4 m.circNext ++ leBytes 8 m.wraps
    ++ (List.range 32).map fun i => Config.mramByte s.free (0x18 + i)
  b ++ leBytes 8 (crc64 b)

/-- A byte of the MRAM as the window shows it (R489): the Keyhouse's region reads zero. -/
def mramByteAt (s : State) (a : Nat) : Byte :=
  if a < 0x40 then (mramHeader s).getD a 0
  else if a < 0x10000 then Config.mramByte s.free a
  else if a < 0x20000 then 0
  else if a < 0x120000 then (recBytes s.scb.mram.keptArea ((a - 0x20000) / 256)).getD (a % 256) 0
  else (recBytes s.scb.mram.circArea ((a - 0x120000) / 256)).getD (a % 256) 0

/-- The field that holds a dword of a function's MSI-X table (R524). -/
def msixField (fn k : Nat) : Fld := (⟨0x1020000 + 4 * k, 0, 32, .rw, 0⟩ : Fld).ofFn fn

/-- A dword of the MSI-X table: the vector control's mask bit follows the mask. -/
def msixDword (s : State) (fn k : Nat) : Nat :=
  if 128 ≤ k then 0
  else if k % 4 = 3 then b2n (!(s.fn fn).unmasked.contains (k / 4)) else s.r (msixField fn k)

/-- The register a dword at address `a` belongs to, its copy's distance, and the dword's place in it. -/
def dwordReg (a : Nat) : Option (RegRow × Nat × Nat) :=
  match regAt a with
  | some r => some (r.1, r.2, 0)
  | none =>
    if a < 4 then none
    else match regAt (a - 4) with
      | some r => if r.1.width = 64 then some (r.1, r.2, 1) else none
      | none => none

/-- The dword at PF address `a` as function `fn` reads it (R504); a read has no side effect (R11). -/
def dwordRead (s : State) (fn a : Nat) : Nat :=
  if 0x1020000 ≤ a ∧ a < 0x1021000 then msixDword s fn ((a - 0x1020000) / 4)
  else if a = 0x1021000 then bitSet (s.fn fn).msixPending
  else if 0x2000000 ≤ a ∧ a < 0x2080000 then leField (slotRead s fn ((a - 0x2000000) / 512)) (a % 512) 4
  else if 0x4610000 ≤ a ∧ a < 0x4630000 then obsWord s ((a - 0x4610000) / 0x10000) ((a % 0x10000) / 0x100) (a % 0x100)
  else if 0x4900000 ≤ a ∧ a < 0x4A00000 then leField (recBytes s.scb.ring ((a - 0x4900000) / 256)) (a % 256) 4
  else if 0x5000000 ≤ a ∧ a < 0x7000000 then leNat ((List.range 4).map fun i => mramByteAt s (a - 0x5000000 + i))
  else match dwordReg a with
    | some (row, d, k) => bits (registerRead s fn row d) (32 * k) 32
    | none => 0

/-- What a register read of function `fn` returns (R504): naturally aligned, 4 or 8 bytes; anything else reads 0. -/
def barRead (s : State) (fn off size : Nat) : Nat :=
  if (size = 4 ∨ size = 8) ∧ off % size = 0 then
    match barAddr fn off with
    | some a => dwordRead s fn a + (if size = 8 then dwordRead s fn (a + 4) * 2 ^ 32 else 0)
    | none => 0
  else 0

/-! ### The sideband (R526) -/

/-- The ranges READ may show. -/
def sidebandRanges : List (Nat × Nat) :=
  [(0x0, 0xFFF), (0x4800000, 0x4802FFF), (0x4900000, 0x49FFFFF), (0x4A00000, 0x4A0FFFF), (0x4B00000, 0x4B0FFFF), (0x5000000, 0x6FFFFFF)]

/-- An answer on the sideband; it is silent while the management core does not run (R526). -/
def sideband (s : State) (kind : Nat) (ok : Bool) (body : List Byte) : State :=
  if s.mgt.coreUp then s.emit (.mctp kind ok body) else s

/-- An MCTP control message: its answer is the MCTP standard's, a free value here. -/
def mctpControl (s : State) (command : Nat) : State :=
  (sideband s 0 true (Config.answerBody (256 + command) s.free)).takeFree

def execMctpControl (command : Nat) (s : State) : Host.Outcome State Fault Refusal := nextOf s (mctpControl s command)

/-- READ: 4 to 64 bytes, aligned to 4, within the permitted ranges; the PF's view of them. -/
def mctpRead (s : State) (off len : Nat) : State :=
  if 4 ≤ len ∧ len ≤ 64 ∧ len % 4 = 0 ∧ off % 4 = 0 ∧ (sidebandRanges.any fun r => decide (r.1 ≤ off) && decide (off + len ≤ r.2 + 1)) then
    sideband s 1 true ((List.range (len / 4)).flatMap fun i => leBytes 4 (dwordRead s 0 (off + 4 * i)))
  else sideband s 1 false []

def execMctpRead (off len : Nat) (s : State) : Host.Outcome State Fault Refusal := nextOf s (mctpRead s off len)

/-- IDENT: MGT_DEV_ID, MGT_FAMILY_PARAM, MGT_ROLE and MGT_MAP_EPOCH. -/
def mctpIdent (s : State) : State :=
  sideband s 2 true (leBytes 4 (dwordRead s 0 0) ++ leBytes 4 (dwordRead s 0 4) ++ leBytes 4 (dwordRead s 0 0x10) ++ leBytes 4 (dwordRead s 0 0x100))

def execMctpIdent (s : State) : Host.Outcome State Fault Refusal := nextOf s (mctpIdent s)

end Sys2Proof.Machine
end

