-- ==== Sys2Proof/Machine/Register.lean ====
section
/-! DEFINITION. Register writes (R8 to R10, R504), the set-up and clean-up of a function (R498, R500, R523), the fetching of commands (R507, R508), and what happens as device time goes by (log 54). -/

namespace Sys2Proof.Machine

/-! ### Clean-up (R500) -/

/-- A CANCEL that the clean-up of function `f` makes of a context; it posts no completion. -/
def cleanCmd (f h : Nat) : Cmd :=
  { fn := f, sq := 0, fence := false, noCqe := true, rslotValid := false, rslot := 0, cq := 0, zero := 0, userTag := 0, descAddr := 0,
    descLen := 0, handle := h, arg0 := 0, arg1 := 0, arg2 := 0, arg3 := 0 }

/-- Cancels one context of the function, or consumes it where it has ended (R500 step 2). -/
def cleanCtx (f : Nat) (s : State) (h : Nat) : State :=
  match s.ctx h with
  | none => s
  | some x =>
    if consumable x then consume s 0 h
    else if commitBusy s h || x.cancelPending.isSome then s
    else (cancelBody (cleanCmd f h) s []).1

/-- Moves one queue pair through ERROR and RESET and destroys it (R500 step 3). -/
def cleanQp (s : State) (i : Nat) : State :=
  let s := qpError s i 0
  match s.qpAt i with
  | none => s
  | some q => dropQp (if q.state = .reset then s else toReset s i q) i

/-- Deregisters one region (R333, R500 step 4). -/
def cleanRegion (s : State) (i : Nat) : State :=
  match amGet i s.rm.regions with
  | none => s
  | some r => regionFreed (if r.closing then s else setRegion s i { r with closing := true, closedAt := s.now }) i

/-- Whether nothing of the function is left, and none of its commands still runs. -/
def cleanDone (s : State) (f : Nat) : Bool :=
  !(s.sch.ctxs.any fun e => bits e.2.hostCq 16 6 == f) && !(s.cwt.qps.any fun e => e.2.fn == f) && !(s.rm.regions.any fun e => e.2.fn == f)
  && !(s.hif.taken.any fun t => t.cmd.fn == f)

/-- The clean-up of a function, as far as it can go now; it goes on with time until CLEANING reads 0 (R500). -/
def cleanFn (s : State) (f : Nat) : State :=
  let s := (s.setR (Reg.HIF_ADMQ_CFG_ENABLE.ofFn f) 0).setR (Reg.HIF_FN_STATUS_CLEANING.ofFn f) 1
  let mine (c : Cmd) (o : Nat) : Bool :=
    s.sch.queues.any fun (q : Nat × List Admission) => q.2.any fun (a : Admission) => a.cmd == c && o == Op.ADMIT
  let s := { s with
    hif := { s.hif with taken := s.hif.taken.filter fun t => !(t.cmd.fn == f && (!t.started || mine t.cmd t.op)) },
    sch := { s.sch with queues := amMap (fun _ (l : List Admission) => l.filter fun (a : Admission) => a.cmd.fn != f) s.sch.queues } }
  let s := ((s.sch.ctxs.filter fun e => bits e.2.hostCq 16 6 == f).map fun e => e.2.handle).foldl (cleanCtx f) s
  let s := ((s.cwt.qps.filter fun e => e.2.fn == f).map (·.1)).foldl cleanQp s
  let s := ((s.rm.regions.filter fun e => e.2.fn == f).map (·.1)).foldl cleanRegion s
  if cleanDone s f then
    (s.setFn f { s.fn f with sqs := [], cqs := [], rqs := [], slots := [], msixPending := [], arb := Arb.empty }).setR
      (Reg.HIF_FN_STATUS_CLEANING.ofFn f) 0
  else s

/-- VF_FLR: the function returns to D0 with its vectors masked, and is cleaned up (R500). -/
def vfFlr (s : State) (f : Nat) : State :=
  cleanFn (s.setFn f { s.fn f with d3hot := false, unmasked := [], msixPending := [] }) f

def execVfFlr (fn : Nat) (s : State) : Host.Outcome State Fault Refusal := withUnit s (decide (1 ≤ fn) && decide (fn < 64)) (vfFlr s fn)

/-- VF_ENABLE_CLEAR: every VF is cleaned up (R498). -/
def execVfEnableClear (s : State) : Host.Outcome State Fault Refusal :=
  nextOf s ((List.range 63).foldl (fun s i => cleanFn s (i + 1)) s)

/-- A write of HIF_ADMQ_CFG: enabling starts the admin pair with head and tail at 0, unless a clean-up runs; a 0 in ENABLE cleans the function up (R500, R505). -/
def admqWrite (s : State) (f v : Nat) : State :=
  let set (s : State) (x : Fld) : State := s.setR (x.ofFn f) (bits v x.lo x.w)
  let s := set (set (set s Reg.HIF_ADMQ_CFG_SQ_LOG2) Reg.HIF_ADMQ_CFG_CQ_LOG2) Reg.HIF_ADMQ_CFG_VECTOR
  if !bit v 31 then cleanFn s f
  else if s.fr f Reg.HIF_FN_STATUS_CLEANING = 1 ∨ s.fr f Reg.HIF_ADMQ_CFG_ENABLE = 1 then s
  else
    let lg (x : Fld) : Nat := min 12 (max 4 (s.fr f x))
    let sq : Sq := ⟨s.fr f Reg.HIF_ADMQ_BASE_BASE * 4096, lg Reg.HIF_ADMQ_CFG_SQ_LOG2, 0, 0, 0, s.now⟩
    let cq : Cq :=
      { base := s.fr f Reg.HIF_ADMCQ_BASE_BASE * 4096, log2 := lg Reg.HIF_ADMQ_CFG_CQ_LOG2, typ := 0, vector := s.fr f Reg.HIF_ADMQ_CFG_VECTOR,
        coalCount := 1, coalUs := 0, written := 0, consumed := 0, held := [], unsig := 0, firstUnsig := none }
    (s.setFn f { s.fn f with sqs := amSet 0 sq (s.fn f).sqs, cqs := amSet 0 cq (s.fn f).cqs }).setR (Reg.HIF_ADMQ_CFG_ENABLE.ofFn f) 1

def execAdmqEnableWrite (fn v : Nat) (s : State) : Host.Outcome State Fault Refusal := withUnit s (fn < 64) (admqWrite s fn v)

/-! ### Which writes are ignored -/

/-- Whether some queue pair is READY. -/
def qpReady (s : State) : Bool := s.cwt.qps.any fun e => e.2.state == .ready

/-- The fields whose writes are ignored for now, with the copies they come in: each register's own words. -/
def frozen (s : State) (fn : Nat) : List (Fld × Nat × Nat × (Nat → Bool)) :=
  let all (b : Bool) (l : List Fld) : List (Fld × Nat × Nat × (Nat → Bool)) := l.map fun f => (f, 8, 1, fun _ => b)
  all (!s.xch.merges.isEmpty)
    [Reg.SCH_MERGE_BASE_LO_BASE_LO, Reg.SCH_MERGE_BASE_HI_BASE_HI, Reg.SCH_MERGE_CFG_SLOTS, Reg.SCH_MERGE_CFG_STRIDE_4K,
     Reg.SCH_MERGE_DET_SLOTS, Reg.SCH_MERGE_DET_STRIDE_4K]
  ++ all (!s.sch.spill.isEmpty) [Reg.SCH_SPILL_SLOTS_SLOTS]
  ++ all (s.r Reg.TRL_BLAZE_CFG_ENABLE == 1) [Reg.TRL_BLAZE_RECS_RECS]
  ++ all (s.r Reg.TRL_TREE_CFG_ENABLE == 1) [Reg.TRL_TREE_NODES_NODES]
  ++ all (!s.cdc.tables.isEmpty) [Reg.CDC_TBL_CFG_BUF_64K]
  ++ all (!s.cdc.adps.isEmpty) [Reg.CDC_ADP_SIZE_SIZE_2M]
  ++ all (s.xch.stands.any fun e => e.2.image.isSome) [Reg.STD_IMAGE_BASE_LO_BASE_LO, Reg.STD_IMAGE_BASE_HI_BASE_HI]
  ++ all (!s.cwt.qps.isEmpty) [Reg.CWT_QP_HBM_BASE_BASE, Reg.CWT_QP_HOST_BASE_BASE, Reg.CWT_QP_HOST_COUNT_COUNT]
  ++ all (qpReady s) [Reg.CWT_LAND_OVF_SIZE_SIZE_2M, Reg.CWT_SHP_BASE_BASE, Reg.CWT_SHP_MAP_BASE_BASE, Reg.CWT_SHP_CFG_COUNT]
  ++ all (!s.cwt.chokers.isEmpty) [Reg.CWT_CHOKER_COUNT_SLOTS]
  ++ all (!s.rm.regions.isEmpty) [Reg.CWT_REGION_BASE_BASE, Reg.CWT_REGION_COUNT_COUNT]
  ++ all (!s.rm.arc.isEmpty) [Reg.CWT_ARC_BASE_BASE]
  ++ all (!s.rm.leases.isEmpty) [Reg.CWT_LEASE_BASE_BASE, Reg.CWT_LEASE_CFG_COUNT]
  ++ all (s.r Reg.TIR_CP_GROUP_P_EN == 1) [Reg.TIR_CP_PAR_BASE_BASE]
  ++ all (s.r Reg.MGT_FLT_SIZE_ENTRIES != 0) [Reg.MGT_FLT_BASE_BASE]
  ++ all (s.fr fn Reg.HIF_ADMQ_CFG_ENABLE == 1) [Reg.HIF_ADMQ_BASE_BASE, Reg.HIF_ADMCQ_BASE_BASE]
  ++ [(Reg.TIR_LOCAL_SIZE_SIZE_2M, 16, 8, fun _ => !s.tir.localSlots.isEmpty),
      (Reg.TIR_CP_AREA_SIZE_2M, 16, 16, fun _ => s.r Reg.TIR_CP_GROUP_D_EN == 1),
      (Reg.HIF_XW_BASE_BASE, 0x40, 64, fun w => winOn s w)]

/-- Whether a write of a field is ignored for now. -/
def fieldFrozen (s : State) (fn : Nat) (f : Fld) : Bool :=
  (frozen s fn).any fun g => match copyOf g.1 g.2.1 g.2.2.1 f with | some k => g.2.2.2 k | none => false

/-! ### Writes of a register -/

/-- What a write of register bits lo to hi - 1 leaves in a field (R8): `v` holds them in their places. -/
def partWrite (locked : Bool) (r : Regs) (f : Fld) (v lo hi : Nat) : Regs :=
  let a := max lo f.lo
  let b := min hi (f.lo + f.w)
  if b ≤ a then r
  else
    let m := (2 ^ (b - a) - 1) <<< (a - f.lo)
    let x := bits v f.lo f.w &&& m
    let old := regGet r f
    match f.acc with
    | .ro | .wo => r
    | .rw => regSet r f (old - (old &&& m) + x)
    | .w1c => regSet r f (old - (old &&& x))
    | .w1s => regSet r f (old ||| x)
    | .rwl => if locked then r else regSet r f (old - (old &&& m) + x)

/-- Whether the boot firmware has locked the RWL fields (R10). -/
def rwlLocked (s : State) : Bool := s.r Reg.MGT_BOOT_STATUS_LOCKED == 1

/-- A write of bits lo to hi - 1 of a register with no behaviour of its own: each field by its access type, where no host write reaches an RWL field before its lock (R553); a write to a locked RWL field is recorded at severity 4 with the register's offset (R8 to R10); SOURCE, ELEMENT, STATUS, DETAIL and the offset's place in ADDRESS are the model's (DESIGN CHOICE, log 132). -/
def plainWrite (s : State) (fn : Nat) (row : RegRow) (d v lo hi : Nat) : State :=
  let fs := row.fields.map fun f => { f with off := f.off + d }
  let go := fs.filter fun f => !fieldFrozen s fn f
  let t := { s with regs := go.foldl (fun r f => partWrite true r (fldFor fn f) v lo hi) s.regs }
  if rwlLocked s && fs.any fun f => f.acc == .rwl && decide (lo < f.lo + f.w) && decide (f.lo < hi) then
    scbNote t { faultRec 0 Act.recorded 4 0 Status.fenced.code 0 with address := row.off + d }
  else t

/-- The register's stored bits with bits lo to hi - 1 replaced. -/
def mergedValue (s : State) (fn : Nat) (row : RegRow) (d v lo hi : Nat) : Nat :=
  let cur := row.fields.foldl (fun a f => a + s.r (fldFor fn { f with off := f.off + d }) <<< f.lo) 0
  let m := (2 ^ (hi - lo) - 1) <<< lo
  cur - (cur &&& m) + (v &&& m)

/-- The tenants that live contexts, queue pairs and regions of a function name (R523). -/
def namedTenants (s : State) (f : Nat) : List Nat :=
  ((s.sch.ctxs.filter fun e => bits e.2.hostCq 16 6 == f).map fun e => e.2.tenant)
  ++ ((s.cwt.qps.filter fun e => e.2.fn == f).map fun e => e.2.tenant)
  ++ ((s.rm.regions.filter fun e => e.2.fn == f).map fun e => e.2.tenant)

/-- HIF_FN_LIMIT: a write is ignored if the sum over functions would exceed 65,536 or the value is below the queues in use. -/
def limitWrite (s t : State) (f : Nat) : State :=
  if 65536 < ((List.range 64).map (queueLimit t)).sum ∨ queueLimit t f < queuesInUse (s.fn f) then s else t

/-- HIF_FN_TENANT: a write that would leave outside the range a tenant in use is ignored (R523). -/
def tenantWrite (s t : State) (f : Nat) : State := if (namedTenants s f).all (tenantInRange t f) then t else s

/-- TIR_CP_BW_CLASS: a write that makes the shares exceed 100 or a cap fall below its share is ignored (R394). -/
def bwClassWrite (s t : State) (c : Nat) : State :=
  let share (k : Nat) : Nat := t.r (Reg.TIR_CP_BW_CLASS_SHARE_PCT.at 4 k)
  if 100 < ((List.range 4).map share).sum ∨ t.r (Reg.TIR_CP_BW_CLASS_CAP_PCT.at 4 c) < share c then s else t

/-- STD_SEQ_FAULT.VALID: a 1 clears the record. -/
def seqFaultClear (s : State) (st v : Nat) : State :=
  if bit v 31 then
    [Reg.STD_SEQ_FAULT_VALID, Reg.STD_SEQ_FAULT_DETAIL, Reg.STD_SEQ_FAULT_FRAME, Reg.STD_SEQ_FAULT_PC].foldl (fun s f => s.setR (f.at 0x10000 st) 0) s
  else s

/-- Every stand that holds no frame takes the DEPTH that software set (R244). -/
def depthTake (s : State) : State :=
  (List.range 64).foldl (fun s st => if (s.stand st).frames.isEmpty then s.setStand st { s.stand st with depth := placeDepth s } else s) s

/-- A write of bits lo to hi - 1 of a register: registers with behaviour of their own act as their chapters give, the others by access type. -/
def registerPut (s : State) (fn : Nat) (row : RegRow) (d v lo hi : Nat) : State :=
  let full := mergedValue s fn row d v lo hi
  let t := plainWrite s fn row d v lo hi
  let o := row.off
  if o = Reg.HIF_ADMQ_CFG_ENABLE.off then admqWrite s fn full
  else if o = Reg.HIF_EVT_CFG_EN_MGT.off then hifEvtCfgWrite s full
  else if o = Reg.HIF_XW_CFG_ENABLE.off then xwEnableWrite s (d / 0x40) full
  else if o = Reg.HIF_FLEX_IND_CTL_BUSY.off then flexIndStart s (d / 0x20) full
  else if o = Reg.CWT_PORT_CFG_ENABLE.off then portCfgWrite s (d / 0x100) full
  else if o = Reg.CWT_OBS_SEL_KIND.off then obsSelWrite s (d / 4) full
  else if o = Reg.CWT_OBS_CTL_SNAP.off then if bit v 0 then obsSnapshot t else t
  else if o = Reg.CWT_SHP_CFG_ENABLE.off then if t.r Reg.CWT_SHP_CFG_ENABLE = 0 then shapingOff t else t.cwt.qps.foldl (fun s e => qpGate s e.1) t
  else if o = Reg.STD_ATT_STATUS_ERROR.off then attErrorClear s (d / 0x10000) v
  else if o = Reg.STD_CDC_STATUS_ERROR.off then cdcErrorClear s (d / 0x10000) v
  else if o = Reg.STD_SEQ_FAULT_VALID.off then seqFaultClear s (d / 0x10000) v
  else if o = Reg.TIR_FELL_KICK_MIB.off then if bits v 0 20 = 0 then s else startPass s (bits v 0 20 * 2 ^ 20)
  else if o = Reg.SCB_CTL_FLUSH.off then
    let s := if bit v 0 then scbStartFlush s else s
    if bit v 1 then { s with scb := { s.scb with mram := { s.scb.mram with circArea := [] } } } else s
  else if o = Reg.MGT_FLT_HEAD_HEAD.off then faultHeadWrite s full
  else if o = Reg.MGT_FLT_SWREPORT_TAG.off then swreport s v
  else if o = Reg.PWR_RESET_KEY.off then if v % 256 = 0xA5 then softReset s 6 else s
  else if o = Reg.HIF_FN_LIMIT_QUEUES.off then limitWrite s t (d / 8)
  else if o = Reg.HIF_FN_TENANT_VALID.off then tenantWrite s t (d / 8)
  else if o = Reg.TIR_CP_BW_CLASS_SHARE_PCT.off then bwClassWrite s t (d / 4)
  else if o = Reg.SCH_PLACE_CFG_DEPTH.off then depthTake t
  else if o = Reg.SCH_SPLIT_BACKUP_BURST.off then setCredit t t.xch.credit
  else if o = Reg.CDC_ADP_SIZE_SIZE_2M.off then adpRegs t
  else if o = Reg.MGT_FLT_SIZE_ENTRIES.off then fltDrain t t.mgt.fltHeld.length
  else t

/-- A write to the MSI-X table (R524): clearing a vector's mask bit unmasks it. -/
def msixWrite (s : State) (fn k v : Nat) : State :=
  if 128 ≤ k then s
  else if k % 4 = 3 then
    if bit v 0 then s.setFn fn { s.fn fn with unmasked := (s.fn fn).unmasked.filter (· ≠ k / 4) } else msixUnmask s fn (k / 4)
  else s.setR (msixField fn k) v

/-- A 4-byte write at a PF address. -/
def dwordWrite (s : State) (fn a v : Nat) : State :=
  if 0x1020000 ≤ a ∧ a < 0x1021000 then msixWrite s fn ((a - 0x1020000) / 4) v
  else match dwordReg a with
    | some (row, d, k) => registerPut s fn row d (v <<< (32 * k)) (32 * k) (32 * k + 32)
    | none => s

/-- The MACsec slot dword a PF address names (R537): port, slot and the 8 bytes within it. -/
def saAddr (a : Nat) : Option (Nat × Nat × Nat) :=
  if 0x4608000 ≤ a ∧ a < 0x4608800 ∧ 0x80 ≤ a % 0x100 then some ((a - 0x4608000) / 0x100, (a % 0x100 - 0x80) / 0x40, a % 0x40 / 8) else none

/-- An access treated as unmapped is counted to the function (R504). -/
def unmapped (s : State) (fn : Nat) : State := s.cnt (Reg.HIF_FN_ERR_UNMAPPED.ofFn fn) 1

/-- A register write of function `fn` at an offset of its BAR0 (R504): naturally aligned and 4 or 8 bytes long; an 8-byte one at a 32-bit register also reaches the next; anything else is ignored and counted. -/
def registerWrite (s : State) (fn off size v : Nat) : State :=
  if (size = 4 ∨ size = 8) ∧ off % size = 0 then
    match barAddr fn off with
    | none => unmapped s fn
    | some a =>
      match saAddr a with
      | some (p, n, k) => if size = 8 then macsecSaWrite s p n k (v % 2 ^ 64) else s
      | none =>
        if size = 4 then dwordWrite s fn a (v % 2 ^ 32)
        else
          match regAt a with
          | some (row, d) =>
            if row.width = 64 then registerPut s fn row d (v % 2 ^ 64) 0 64
            else dwordWrite (dwordWrite s fn a (v % 2 ^ 32)) fn (a + 4) (bits v 32 32)
          | none => dwordWrite (dwordWrite s fn a (v % 2 ^ 32)) fn (a + 4) (bits v 32 32)
  else unmapped s fn

def execRegisterWrite (fn off size v : Nat) (s : State) : Host.Outcome State Fault Refusal := withUnit s (fn < 64) (registerWrite s fn off size v)

/-! ### Fetching commands (R507, R508) -/

/-- Performs the host command of an opcode (R509); a reserved one is refused by the first check of R508. -/
def runOp (o : Nat) (c : Cmd) (s : State) : Host.Outcome State Fault Refusal :=
  if o == Op.WQ_CREATE then execWqCreate c s
  else if o == Op.WQ_DESTROY then execWqDestroy c s
  else if o == Op.CQ_CREATE then execCqCreate c s
  else if o == Op.CQ_DESTROY then execCqDestroy c s
  else if o == Op.RQ_CREATE then execRqCreate c s
  else if o == Op.RQ_DESTROY then execRqDestroy c s
  else if o == Op.ADMIT then execAdmitCmd c s
  else if o == Op.CTX_READ then execCtxRead c s
  else if o == Op.TOKEN then execToken c s
  else if o == Op.PAUSE then execPause c s
  else if o == Op.RESUME then execResume c s
  else if o == Op.CANCEL then execCancel c s
  else if o == Op.PARK then execPark c s
  else if o == Op.UNPARK then execUnpark c s
  else if o == Op.MIGRATE then execMigrate c s
  else if o == Op.RECOVER then execRecover c s
  else if o == Op.CLAIM then execClaim c s
  else if o == Op.VERIFY then execVerify c s
  else if o == Op.COMMIT then execCommit c s
  else if o == Op.ROLLBACK then execRollback c s
  else if o == Op.FELL then execFell c s
  else if o == Op.FELL_CUT then execFellCut c s
  else if o == Op.MOVE then execMove c s
  else if o == Op.TRAIL_INSERT then execTrailInsert c s
  else if o == Op.LOOKUP then execLookup c s
  else if o == Op.TRAIL_REMOVE then execTrailRemove c s
  else if o == Op.BLAZE_PUBLISH then execBlazePublish c s
  else if o == Op.BLAZE_RETIRE then execBlazeRetire c s
  else if o == Op.MODEL_REG then execModelReg c s
  else if o == Op.MODEL_DEREG then execModelDereg c s
  else if o == Op.CUT_POOL then execCutPool c s
  else if o == Op.FREE then execFree c s
  else if o == Op.SEAL then execSeal c s
  else if o == Op.EXPAND then execExpand c s
  else if o == Op.TABLE_LOAD then execTableLoad c s
  else if o == Op.TABLE_FREE then execTableFree c s
  else if o == Op.ADAPTER_LOAD then execAdapterLoad c s
  else if o == Op.ADAPTER_RETIRE then execAdapterRetire c s
  else if o == Op.PROG_LOAD then execProgLoad c s
  else if o == Op.STAND_UNFENCE then execStandUnfence c s
  else if o == Op.SELFTEST then execSelftest c s
  else if o == Op.LANE_RESTORE then execLaneRestore c s
  else if o == Op.STACK_QUIESCE then execStackQuiesce c s
  else if o == Op.QP_CREATE then execQpCreate c s
  else if o == Op.QP_MODIFY then execQpModify c s
  else if o == Op.QP_DESTROY then execQpDestroy c s
  else if o == Op.REGION_REG then execRegionReg c s
  else if o == Op.REGION_DEREG then execRegionDereg c s
  else if o == Op.CHOKER_CANCEL then execChokerCancel c s
  else if o == Op.TRIG_ADD then execTrigAdd c s
  else if o == Op.TRIG_SET then execTrigSet c s
  else if o == Op.SHAPER_SET then execShaperSet c s
  else if o == Op.LEASE_BREAK then execLeaseBreak c s
  else if o == Op.MAP_INSTALL then execMapInstall c s
  else if o == Op.ROLE_BEGIN then execRoleBegin c s
  else if o == Op.ROLE_COMMIT then execRoleCommit c s
  else if o == Op.ROLE_ABORT then execRoleAbort c s
  else if o == Op.ROLL_COLUMN then execRollColumn c s
  else if o == Op.FW_STAGE then execFwStage c s
  else if o == Op.FW_ACTIVATE then execFwActivate c s
  else if o == Op.FW_CONFIRM then execFwConfirm c s
  else if o == Op.REBUILD then execRebuild c s
  else if o == Op.PAR_REBUILD then execParRebuild c s
  else if o == Op.RESYNC then execResync c (Config.dirtyUnits s.free) s
  else if o == Op.KEY_IMPORT then execKeyImport c s
  else if o == Op.KEY_DESTROY then execKeyDestroy c s
  else if o == Op.KEY_INFO then execKeyInfo c s
  else if o == Op.KEY_GET_KEM then execKeyGetKem c s
  else if o == Op.KEY_SALT then execKeySalt c s
  else if o == Op.KEY_ZEROIZE then execKeyZeroize c s
  else if o == Op.KEY_SELFTEST then execKeySelftest c s
  else if o == Op.PWR_STATE then execPwrState c s
  else runPlain s o c fun s _ => (s, none)

/-- The state that a command leaves. -/
def afterOp (o : Nat) (c : Cmd) (s : State) : State :=
  match runOp o c s with
  | .next t => t
  | _ => s

/-- The 64-byte entry that stands next in a submission queue: its host address. -/
def sqEntryAddr (w : Sq) : Nat := w.base + 64 * (w.head % 2 ^ w.log2)

/-- Whether the controller may fetch from a submission queue: it holds commands, its function is enabled, awake and not in clean-up (R499, R500), its default CQ has room (R517), in PS3 it is the PF's admin queue (R559), its last command taken has started (R507), and no command with the same 64 bytes is still under way (log 19). -/
def sqReady (s : State) (f q : Nat) (w : Sq) : Bool :=
  decide (w.head < w.tail) && s.fr f Reg.HIF_ADMQ_CFG_ENABLE == 1 && s.fr f Reg.HIF_FN_STATUS_CLEANING == 0 && !(s.fn f).d3hot
  && (match amGet w.cq (s.fn f).cqs with | some c => c.hasRoom && c.held.isEmpty | none => true)
  && (pwr s != 3 || (f == 0 && q == 0))
  && !(s.hif.taken.any fun t => t.cmd.fn == f && t.cmd.sq == q && !t.started)
  && (let e := cmdOfEntry f q (s.rd (hostXA (sqEntryAddr w)) 64); !isTaken s.hif.taken e.1 e.2)

/-- What function `f` offers the command arbiter: the queue its own choice falls on, with that choice's arbiter. -/
def fnOffer (s : State) (f : Nat) : Option (Offer × Nat × Arb) :=
  let qs := (s.fn f).sqs.filter fun e => sqReady s f e.1 e.2
  match (s.fn f).arb.select (qs.map fun e => ⟨e.1, 1, 1, e.2.since⟩) 1 (arbAge s) s.now with
  | none => none
  | some (o, a, _) => some (⟨f, qs.length, 1, o.since⟩, o.input, a)

/-- Takes the next command of queue `q` of function `f` and begins it. An entry that the host refuses to be read disables the function's queues (log 55). -/
def takeCommand (s : State) (f q : Nat) (w : Sq) : State :=
  let a := sqEntryAddr w
  let e := cmdOfEntry f q (s.rd (hostXA a) 64)
  let s := s.setFn f { s.fn f with sqs := amSet q { w with head := w.head + 1, since := s.now } (s.fn f).sqs }
  if s.dmaOk f a 64 then afterOp e.1 e.2 s else dmaWriteFail s f a

/-- COMMAND_FETCH: the next command by the arbitration of R190 over the functions, and over the queues of the one chosen. -/
def commandFetch (s : State) : State :=
  let subs := (List.range 64).filterMap (fnOffer s)
  match s.hif.arb.select (subs.map (·.1)) 1 (arbAge s) s.now with
  | none => s
  | some (o, a, _) =>
    match subs.find? fun x => x.1.input == o.input with
    | none => s
    | some x =>
      match amGet x.2.1 (s.fn o.input).sqs with
      | none => s
      | some w =>
        let s := { s with hif := { s.hif with arb := a } }
        takeCommand (s.setFn o.input { s.fn o.input with arb := x.2.2 }) o.input x.2.1 w

def execCommandFetch (s : State) : Host.Outcome State Fault Refusal := nextOf s (commandFetch s)

/-! ### As time goes by (log 54) -/

/-- Whether a command taken and not started may start now. -/
def mayStart (s : State) (t : Taken) : Bool :=
  !t.started && !mustWait s t.op t.cmd && !(pwr s == 3 && (t.cmd.fn != 0 || t.cmd.sq != 0))
  && !(needsFill s t.cmd.handle && s.sch.filling.contains (bits t.cmd.handle 0 21))

/-- Starts the commands that waited and may now start, in the order they were taken (R507). -/
def startWaiting (s : State) : State :=
  (s.hif.taken.filter fun t => !t.started).foldl (fun s t => if isTaken s.hif.taken t.op t.cmd && mayStart s t then afterOp t.op t.cmd s else s) s

/-- Goes on with the clean-up of functions (R500). -/
def cleanGo (s : State) : State :=
  (List.range 64).foldl (fun s f => if s.fr f Reg.HIF_FN_STATUS_CLEANING = 1 then cleanFn s f else s) s

/-- Device time goes on by 10 ns, one cycle of AOCLK (R550), and with it what no other command brings about: the slots the blaze step withholds, waiting tree operations, drains, the fence of a role change, quiescing, clean-ups, waiting commands, and at each 10 µs boundary (R394) the work a bandwidth cap held. Held in reset and in PS4 nothing moves. -/
def tick (s : State) : State :=
  if inReset s || pwr s == 4 then s
  else
    let s := treeGo (countWithheld { s with now := s.now + 10 })
    let s := quiesceCheck (roleFence (drainCheck s))
    let s := if s.now % 10000 = 0 then unitsSettled s else s
    startWaiting (cleanGo s)

end Sys2Proof.Machine
end

