-- ==== Sys2Proof/Machine/Dispatch.lean ====
section
/-! DEFINITION. The dispatch: one arm per command, each one direct call of its meaning. -/

namespace Sys2Proof.Machine

def exec (i : Instr) (s : State) : Host.Outcome State Fault Refusal :=
  match i with
  | .wqCreate c => Sys2Proof.Machine.execWqCreate c s
  | .wqDestroy c => Sys2Proof.Machine.execWqDestroy c s
  | .cqCreate c => Sys2Proof.Machine.execCqCreate c s
  | .cqDestroy c => Sys2Proof.Machine.execCqDestroy c s
  | .rqCreate c => Sys2Proof.Machine.execRqCreate c s
  | .rqDestroy c => Sys2Proof.Machine.execRqDestroy c s
  | .admitCmd c => Sys2Proof.Machine.execAdmitCmd c s
  | .ctxRead c => Sys2Proof.Machine.execCtxRead c s
  | .token c => Sys2Proof.Machine.execToken c s
  | .pause c => Sys2Proof.Machine.execPause c s
  | .resume c => Sys2Proof.Machine.execResume c s
  | .cancel c => Sys2Proof.Machine.execCancel c s
  | .park c => Sys2Proof.Machine.execPark c s
  | .unpark c => Sys2Proof.Machine.execUnpark c s
  | .migrate c => Sys2Proof.Machine.execMigrate c s
  | .recover c => Sys2Proof.Machine.execRecover c s
  | .claim c => Sys2Proof.Machine.execClaim c s
  | .verify c => Sys2Proof.Machine.execVerify c s
  | .commit c => Sys2Proof.Machine.execCommit c s
  | .rollback c => Sys2Proof.Machine.execRollback c s
  | .fell c => Sys2Proof.Machine.execFell c s
  | .fellCut c => Sys2Proof.Machine.execFellCut c s
  | .move c => Sys2Proof.Machine.execMove c s
  | .trailInsert c => Sys2Proof.Machine.execTrailInsert c s
  | .lookup c => Sys2Proof.Machine.execLookup c s
  | .trailRemove c => Sys2Proof.Machine.execTrailRemove c s
  | .blazePublish c => Sys2Proof.Machine.execBlazePublish c s
  | .blazeRetire c => Sys2Proof.Machine.execBlazeRetire c s
  | .modelReg c => Sys2Proof.Machine.execModelReg c s
  | .modelDereg c => Sys2Proof.Machine.execModelDereg c s
  | .cutPool c => Sys2Proof.Machine.execCutPool c s
  | .free c => Sys2Proof.Machine.execFree c s
  | .seal c => Sys2Proof.Machine.execSeal c s
  | .expand c => Sys2Proof.Machine.execExpand c s
  | .tableLoad c => Sys2Proof.Machine.execTableLoad c s
  | .tableFree c => Sys2Proof.Machine.execTableFree c s
  | .adapterLoad c => Sys2Proof.Machine.execAdapterLoad c s
  | .adapterRetire c => Sys2Proof.Machine.execAdapterRetire c s
  | .progLoad c => Sys2Proof.Machine.execProgLoad c s
  | .standUnfence c => Sys2Proof.Machine.execStandUnfence c s
  | .selftest c => Sys2Proof.Machine.execSelftest c s
  | .laneRestore c => Sys2Proof.Machine.execLaneRestore c s
  | .stackQuiesce c => Sys2Proof.Machine.execStackQuiesce c s
  | .qpCreate c => Sys2Proof.Machine.execQpCreate c s
  | .qpModify c => Sys2Proof.Machine.execQpModify c s
  | .qpDestroy c => Sys2Proof.Machine.execQpDestroy c s
  | .regionReg c => Sys2Proof.Machine.execRegionReg c s
  | .regionDereg c => Sys2Proof.Machine.execRegionDereg c s
  | .chokerCancel c => Sys2Proof.Machine.execChokerCancel c s
  | .trigAdd c => Sys2Proof.Machine.execTrigAdd c s
  | .trigSet c => Sys2Proof.Machine.execTrigSet c s
  | .shaperSet c => Sys2Proof.Machine.execShaperSet c s
  | .leaseBreak c => Sys2Proof.Machine.execLeaseBreak c s
  | .mapInstall c => Sys2Proof.Machine.execMapInstall c s
  | .roleBegin c => Sys2Proof.Machine.execRoleBegin c s
  | .roleCommit c => Sys2Proof.Machine.execRoleCommit c s
  | .roleAbort c => Sys2Proof.Machine.execRoleAbort c s
  | .rollColumn c => Sys2Proof.Machine.execRollColumn c s
  | .fwStage c => Sys2Proof.Machine.execFwStage c s
  | .fwActivate c => Sys2Proof.Machine.execFwActivate c s
  | .fwConfirm c => Sys2Proof.Machine.execFwConfirm c s
  | .rebuild c => Sys2Proof.Machine.execRebuild c s
  | .parRebuild c => Sys2Proof.Machine.execParRebuild c s
  | .resync c dirty => Sys2Proof.Machine.execResync c dirty s
  | .keyImport c => Sys2Proof.Machine.execKeyImport c s
  | .keyDestroy c => Sys2Proof.Machine.execKeyDestroy c s
  | .keyInfo c => Sys2Proof.Machine.execKeyInfo c s
  | .keyGetKem c => Sys2Proof.Machine.execKeyGetKem c s
  | .keySalt c => Sys2Proof.Machine.execKeySalt c s
  | .keyZeroize c => Sys2Proof.Machine.execKeyZeroize c s
  | .keySelftest c => Sys2Proof.Machine.execKeySelftest c s
  | .pwrState c => Sys2Proof.Machine.execPwrState c s
  | .powerTransitionDone => Sys2Proof.Machine.execPowerTransitionDone s
  | .sqTailDoorbell fn q v => Sys2Proof.Machine.execSqTailDoorbell fn q v s
  | .cqHeadDoorbell fn q v => Sys2Proof.Machine.execCqHeadDoorbell fn q v s
  | .qpSqDoorbell fn v => Sys2Proof.Machine.execQpSqDoorbell fn v s
  | .rqDoorbell fn v => Sys2Proof.Machine.execRqDoorbell fn v s
  | .resultConsume fn v => Sys2Proof.Machine.execResultConsume fn v s
  | .consume fn v => Sys2Proof.Machine.execConsume fn v s
  | .commandFetch => Sys2Proof.Machine.execCommandFetch s
  | .cqCoalesceTimer fn q => Sys2Proof.Machine.execCqCoalesceTimer fn q s
  | .msixUnmask fn vec => Sys2Proof.Machine.execMsixUnmask fn vec s
  | .admqEnableWrite fn v => Sys2Proof.Machine.execAdmqEnableWrite fn v s
  | .vfFlr fn => Sys2Proof.Machine.execVfFlr fn s
  | .vfEnableClear => Sys2Proof.Machine.execVfEnableClear s
  | .d3hotChange fn enter => Sys2Proof.Machine.execD3hotChange fn enter s
  | .registerWrite fn off size v => Sys2Proof.Machine.execRegisterWrite fn off size v s
  | .hifEvtCfgWrite v => Sys2Proof.Machine.execHifEvtCfgWrite v s
  | .attErrorClear stand v => Sys2Proof.Machine.execAttErrorClear stand v s
  | .cdcErrorClear stand v => Sys2Proof.Machine.execCdcErrorClear stand v s
  | .tirFellKick v => Sys2Proof.Machine.execTirFellKick v s
  | .obsSnap v => Sys2Proof.Machine.execObsSnap v s
  | .obsSelWrite o v => Sys2Proof.Machine.execObsSelWrite o v s
  | .scbFlushWrite v => Sys2Proof.Machine.execScbFlushWrite v s
  | .circClear v => Sys2Proof.Machine.execCircClear v s
  | .faultHeadWrite v => Sys2Proof.Machine.execFaultHeadWrite v s
  | .swreport v => Sys2Proof.Machine.execSwreport v s
  | .pwrReset v => Sys2Proof.Machine.execPwrReset v s
  | .xwEnableWrite w v => Sys2Proof.Machine.execXwEnableWrite w v s
  | .flexIndStart q v => Sys2Proof.Machine.execFlexIndStart q v s
  | .flexIndDone q result data => Sys2Proof.Machine.execFlexIndDone q result data s
  | .macsecSaWrite p n k v => Sys2Proof.Machine.execMacsecSaWrite p n k v s
  | .laserEnWrite p v => Sys2Proof.Machine.execLaserEnWrite p v s
  | .windowWrite w off path bytes => Sys2Proof.Machine.execWindowWrite w off path bytes s
  | .xwDoorbell w path v => Sys2Proof.Machine.execXwDoorbell w path v s
  | .rhead w path v => Sys2Proof.Machine.execRhead w path v s
  | .releaseRecordWrite w => Sys2Proof.Machine.execReleaseRecordWrite w s
  | .slotFlagWrite w slot => Sys2Proof.Machine.execSlotFlagWrite w slot s
  | .admissionScan => Sys2Proof.Machine.execAdmissionScan s
  | .riskEvaluation => Sys2Proof.Machine.execRiskEvaluation s
  | .chunkRelease handle => Sys2Proof.Machine.execChunkRelease handle s
  | .taskPlace => Sys2Proof.Machine.execTaskPlace s
  | .frameSwitch st => Sys2Proof.Machine.execFrameSwitch st s
  | .kerfPoint st => Sys2Proof.Machine.execKerfPoint st s
  | .attCommandDone st frame => Sys2Proof.Machine.execAttCommandDone st frame s
  | .cdcCommandDone st frame => Sys2Proof.Machine.execCdcCommandDone st frame s
  | .moverCommandDone st frame => Sys2Proof.Machine.execMoverCommandDone st frame s
  | .illegalBundle st => Sys2Proof.Machine.execIllegalBundle st s
  | .nop st => Sys2Proof.Machine.execNop st s
  | .add st => Sys2Proof.Machine.execAdd st s
  | .sub st => Sys2Proof.Machine.execSub st s
  | .and st => Sys2Proof.Machine.execAnd st s
  | .or st => Sys2Proof.Machine.execOr st s
  | .xor st => Sys2Proof.Machine.execXor st s
  | .shl st => Sys2Proof.Machine.execShl st s
  | .shr st => Sys2Proof.Machine.execShr st s
  | .sar st => Sys2Proof.Machine.execSar st s
  | .mul st => Sys2Proof.Machine.execMul st s
  | .min st => Sys2Proof.Machine.execMin st s
  | .max st => Sys2Proof.Machine.execMax st s
  | .minu st => Sys2Proof.Machine.execMinu st s
  | .maxu st => Sys2Proof.Machine.execMaxu st s
  | .addi st => Sys2Proof.Machine.execAddi st s
  | .andi st => Sys2Proof.Machine.execAndi st s
  | .ori st => Sys2Proof.Machine.execOri st s
  | .xori st => Sys2Proof.Machine.execXori st s
  | .shli st => Sys2Proof.Machine.execShli st s
  | .shri st => Sys2Proof.Machine.execShri st s
  | .sari st => Sys2Proof.Machine.execSari st s
  | .li st => Sys2Proof.Machine.execLi st s
  | .liA st => Sys2Proof.Machine.execLiA st s
  | .lsh st => Sys2Proof.Machine.execLsh st s
  | .adda st => Sys2Proof.Machine.execAdda st s
  | .mova st => Sys2Proof.Machine.execMova st s
  | .movs st => Sys2Proof.Machine.execMovs st s
  | .cmpEq st => Sys2Proof.Machine.execCmpEq st s
  | .cmpNe st => Sys2Proof.Machine.execCmpNe st s
  | .cmpLt st => Sys2Proof.Machine.execCmpLt st s
  | .cmpGe st => Sys2Proof.Machine.execCmpGe st s
  | .cmpLtu st => Sys2Proof.Machine.execCmpLtu st s
  | .cmpGeu st => Sys2Proof.Machine.execCmpGeu st s
  | .cmpiEq st => Sys2Proof.Machine.execCmpiEq st s
  | .cmpiNe st => Sys2Proof.Machine.execCmpiNe st s
  | .cmpiLt st => Sys2Proof.Machine.execCmpiLt st s
  | .cmpiGe st => Sys2Proof.Machine.execCmpiGe st s
  | .pand st => Sys2Proof.Machine.execPand st s
  | .por st => Sys2Proof.Machine.execPor st s
  | .pandn st => Sys2Proof.Machine.execPandn st s
  | .pxor st => Sys2Proof.Machine.execPxor st s
  | .ldB st => Sys2Proof.Machine.execLdB st s
  | .ldH st => Sys2Proof.Machine.execLdH st s
  | .ldW st => Sys2Proof.Machine.execLdW st s
  | .ldD st => Sys2Proof.Machine.execLdD st s
  | .ldWs st => Sys2Proof.Machine.execLdWs st s
  | .stB st => Sys2Proof.Machine.execStB st s
  | .stH st => Sys2Proof.Machine.execStH st s
  | .stW st => Sys2Proof.Machine.execStW st s
  | .stD st => Sys2Proof.Machine.execStD st s
  | .stiB st => Sys2Proof.Machine.execStiB st s
  | .stiH st => Sys2Proof.Machine.execStiH st s
  | .stiW st => Sys2Proof.Machine.execStiW st s
  | .dcpy st => Sys2Proof.Machine.execDcpy st s
  | .br st => Sys2Proof.Machine.execBr st s
  | .bz st => Sys2Proof.Machine.execBz st s
  | .bnz st => Sys2Proof.Machine.execBnz st s
  | .halt st => Sys2Proof.Machine.execHalt st s
  | .waitA st => Sys2Proof.Machine.execWaitA st s
  | .waitC st => Sys2Proof.Machine.execWaitC st s
  | .waitM st => Sys2Proof.Machine.execWaitM st s
  | .rdtime st => Sys2Proof.Machine.execRdtime st s
  | .mvLd st => Sys2Proof.Machine.execMvLd st s
  | .mvSt st => Sys2Proof.Machine.execMvSt st s
  | .mvGather st => Sys2Proof.Machine.execMvGather st s
  | .mvBwrite st => Sys2Proof.Machine.execMvBwrite st s
  | .mvReduce st => Sys2Proof.Machine.execMvReduce st s
  | .attIssue st => Sys2Proof.Machine.execAttIssue st s
  | .cdcIssue st => Sys2Proof.Machine.execCdcIssue st s
  | .tzero st => Sys2Proof.Machine.execTzero st s
  | .tmmaBf16 st => Sys2Proof.Machine.execTmmaBf16 st s
  | .tmmaE4m3 st => Sys2Proof.Machine.execTmmaE4m3 st s
  | .tmmaE5m2 st => Sys2Proof.Machine.execTmmaE5m2 st s
  | .tmmaMx8 st => Sys2Proof.Machine.execTmmaMx8 st s
  | .tmmaMx4 st => Sys2Proof.Machine.execTmmaMx4 st s
  | .tpackBf16 st => Sys2Proof.Machine.execTpackBf16 st s
  | .vadd st => Sys2Proof.Machine.execVadd st s
  | .vsub st => Sys2Proof.Machine.execVsub st s
  | .vmul st => Sys2Proof.Machine.execVmul st s
  | .vfma st => Sys2Proof.Machine.execVfma st s
  | .vmax st => Sys2Proof.Machine.execVmax st s
  | .vmin st => Sys2Proof.Machine.execVmin st s
  | .vdiv st => Sys2Proof.Machine.execVdiv st s
  | .vexp2 st => Sys2Proof.Machine.execVexp2 st s
  | .vrmax st => Sys2Proof.Machine.execVrmax st s
  | .vrsum st => Sys2Proof.Machine.execVrsum st s
  | .vmov st => Sys2Proof.Machine.execVmov st s
  | .vbcast st => Sys2Proof.Machine.execVbcast st s
  | .vzero st => Sys2Proof.Machine.execVzero st s
  | .vld st => Sys2Proof.Machine.execVld st s
  | .vst st => Sys2Proof.Machine.execVst st s
  | .vldBf16 st => Sys2Proof.Machine.execVldBf16 st s
  | .vstBf16 st => Sys2Proof.Machine.execVstBf16 st s
  | .workRequestStart index => Sys2Proof.Machine.execWorkRequestStart index s
  | .packetTransmit port => Sys2Proof.Machine.execPacketTransmit port s
  | .send p => Sys2Proof.Machine.execSend p s
  | .write p => Sys2Proof.Machine.execWrite p s
  | .readReq p => Sys2Proof.Machine.execReadReq p s
  | .readResp own p => Sys2Proof.Machine.execReadResp own p s
  | .atomic p => Sys2Proof.Machine.execAtomic p s
  | .atomicResp own p => Sys2Proof.Machine.execAtomicResp own p s
  | .reduce p => Sys2Proof.Machine.execReduce p s
  | .reduceLsem p => Sys2Proof.Machine.execReduceLsem p s
  | .mcast p => Sys2Proof.Machine.execMcast p s
  | .ack p => Sys2Proof.Machine.execAck p s
  | .nak p => Sys2Proof.Machine.execNak p s
  | .creditReq p => Sys2Proof.Machine.execCreditReq p s
  | .arpRequest port sub mac ip target => Sys2Proof.Machine.execArpRequest port sub mac ip target s
  | .neighborSolicitation port sub mac src target => Sys2Proof.Machine.execNeighborSolicitation port sub mac src target s
  | .nonCelwaldFrame port frame => Sys2Proof.Machine.execNonCelwaldFrame port frame s
  | .qpCtxFetched index crcOk retryOk => Sys2Proof.Machine.execQpCtxFetched index crcOk retryOk s
  | .qpDrained index => Sys2Proof.Machine.execQpDrained index s
  | .rtoExpiry index psn => Sys2Proof.Machine.execRtoExpiry index psn s
  | .giveUp index => Sys2Proof.Machine.execGiveUp index s
  | .ackDelayExpiry index => Sys2Proof.Machine.execAckDelayExpiry index s
  | .pathHoldExpiry node path => Sys2Proof.Machine.execPathHoldExpiry node path s
  | .rnrRetry index psn => Sys2Proof.Machine.execRnrRetry index psn s
  | .regionFreed index => Sys2Proof.Machine.execRegionFreed index s
  | .leaseTermExpiry index => Sys2Proof.Machine.execLeaseTermExpiry index s
  | .hotLineCool line => Sys2Proof.Machine.execHotLineCool line s
  | .shaperWheelSlot => Sys2Proof.Machine.execShaperWheelSlot s
  | .observerSample => Sys2Proof.Machine.execObserverSample s
  | .offer m => Sys2Proof.Machine.execOffer m s
  | .pullComplete handle ok view => Sys2Proof.Machine.execPullComplete handle ok view s
  | .taken m => Sys2Proof.Machine.execTaken m s
  | .release m word => Sys2Proof.Machine.execRelease m word s
  | .releaseAck m => Sys2Proof.Machine.execReleaseAck m s
  | .abort m => Sys2Proof.Machine.execAbort m s
  | .handoffOfferTimeout handle => Sys2Proof.Machine.execHandoffOfferTimeout handle s
  | .handoffReleaseTimeout handle => Sys2Proof.Machine.execHandoffReleaseTimeout handle s
  | .handoffTakenTimeout handle word => Sys2Proof.Machine.execHandoffTakenTimeout handle word s
  | .attend m => Sys2Proof.Machine.execAttend m s
  | .shardStatus m => Sys2Proof.Machine.execShardStatus m s
  | .stragglerTimeout handle shard => Sys2Proof.Machine.execStragglerTimeout handle shard s
  | .shardHoldExpiry home handle layer shard => Sys2Proof.Machine.execShardHoldExpiry home handle layer shard s
  | .coppice m => Sys2Proof.Machine.execCoppice m s
  | .coppiceDone handle full status node entries => Sys2Proof.Machine.execCoppiceDone handle full status node entries s
  | .coppiceTimeout handle => Sys2Proof.Machine.execCoppiceTimeout handle s
  | .cutFilled handle => Sys2Proof.Machine.execCutFilled handle s
  | .placeRetry handle cut => Sys2Proof.Machine.execPlaceRetry handle cut s
  | .reserve m => Sys2Proof.Machine.execReserve m s
  | .moveOut n rec cut claimGen => Sys2Proof.Machine.execMoveOut n rec cut claimGen s
  | .moveCopyDone handle cut crcOk retryOk => Sys2Proof.Machine.execMoveCopyDone handle cut crcOk retryOk s
  | .confirm n => Sys2Proof.Machine.execConfirm n s
  | .moveGraceExpiry handle cut => Sys2Proof.Machine.execMoveGraceExpiry handle cut s
  | .moveLeaseExpiry n entry => Sys2Proof.Machine.execMoveLeaseExpiry n entry s
  | .freeMsg src handle cut n => Sys2Proof.Machine.execFreeMsg src handle cut n s
  | .hold src id n => Sys2Proof.Machine.execHold src id n s
  | .fellPick => Sys2Proof.Machine.execFellPick s
  | .lookupRelease id late => Sys2Proof.Machine.execLookupRelease id late s
  | .stallReport handle cause => Sys2Proof.Machine.execStallReport handle cause s
  | .ctxFillDone index crcOk retryOk => Sys2Proof.Machine.execCtxFillDone index crcOk retryOk s
  | .keySlotFillDone index => Sys2Proof.Machine.execKeySlotFillDone index s
  | .fallowExpiry index => Sys2Proof.Machine.execFallowExpiry index s
  | .deltaAcked id => Sys2Proof.Machine.execDeltaAcked id s
  | .degradeTimeout qpError => Sys2Proof.Machine.execDegradeTimeout qpError s
  | .unitLock node unit => Sys2Proof.Machine.execUnitLock node unit s
  | .unitUnlock node unit gen resynced => Sys2Proof.Machine.execUnitUnlock node unit gen resynced s
  | .unitLockExpiry gen => Sys2Proof.Machine.execUnitLockExpiry gen s
  | .rebuildUnitDone unit => Sys2Proof.Machine.execRebuildUnitDone unit s
  | .accessSweep => Sys2Proof.Machine.execAccessSweep s
  | .intervalBoundary ser => Sys2Proof.Machine.execIntervalBoundary ser s
  | .scbFlushDone => Sys2Proof.Machine.execScbFlushDone s
  | .borerMeasure counts => Sys2Proof.Machine.execBorerMeasure counts s
  | .wearDayEnd => Sys2Proof.Machine.execWearDayEnd s
  | .arrayBudgetRefill => Sys2Proof.Machine.execArrayBudgetRefill s
  | .thermalSample temps watts => Sys2Proof.Machine.execThermalSample temps watts s
  | .detectedError p retryOk => Sys2Proof.Machine.execDetectedError p retryOk s
  | .stackFault k => Sys2Proof.Machine.execStackFault k s
  | .tamper => Sys2Proof.Machine.execTamper s
  | .entropyHealthFail apt => Sys2Proof.Machine.execEntropyHealthFail apt s
  | .subportUp port sub => Sys2Proof.Machine.execSubportUp port sub s
  | .subportDown port sub lfault rfault => Sys2Proof.Machine.execSubportDown port sub lfault rfault s
  | .spareRotate port compareOk calOk => Sys2Proof.Machine.execSpareRotate port compareOk calOk s
  | .laserPoll port present ok bias temp serial => Sys2Proof.Machine.execLaserPoll port present ok bias temp serial s
  | .cwLoss port => Sys2Proof.Machine.execCwLoss port s
  | .flexLinkDown q => Sys2Proof.Machine.execFlexLinkDown q s
  | .flexRetrain q rate width hdm => Sys2Proof.Machine.execFlexRetrain q rate width hdm s
  | .spdmGetVersion way => Sys2Proof.Machine.execSpdmGetVersion way s
  | .spdmGetCapabilities way => Sys2Proof.Machine.execSpdmGetCapabilities way s
  | .spdmNegotiateAlgorithms way => Sys2Proof.Machine.execSpdmNegotiateAlgorithms way s
  | .spdmGetDigests way => Sys2Proof.Machine.execSpdmGetDigests way s
  | .spdmGetCertificate way slot => Sys2Proof.Machine.execSpdmGetCertificate way slot s
  | .spdmChallenge way slot => Sys2Proof.Machine.execSpdmChallenge way slot s
  | .spdmGetMeasurements way index => Sys2Proof.Machine.execSpdmGetMeasurements way index s
  | .spdmKeyExchange way session => Sys2Proof.Machine.execSpdmKeyExchange way session s
  | .spdmFinish way session good => Sys2Proof.Machine.execSpdmFinish way session good s
  | .spdmKeyUpdate way session => Sys2Proof.Machine.execSpdmKeyUpdate way session s
  | .spdmEndSession way session => Sys2Proof.Machine.execSpdmEndSession way session s
  | .mctpControl command => Sys2Proof.Machine.execMctpControl command s
  | .mctpRead off len => Sys2Proof.Machine.execMctpRead off len s
  | .mctpIdent => Sys2Proof.Machine.execMctpIdent s
  | .porRelease => Sys2Proof.Machine.execPorRelease s
  | .perst => Sys2Proof.Machine.execPerst s
  | .hotReset => Sys2Proof.Machine.execHotReset s
  | .linkDown => Sys2Proof.Machine.execLinkDown s
  | .pfFlr => Sys2Proof.Machine.execPfFlr s
  | .refLoss => Sys2Proof.Machine.execRefLoss s
  | .startupStep n good vals => Sys2Proof.Machine.execStartupStep n good vals s
  | .pfail => Sys2Proof.Machine.execPfail s
  | .mgtWatchdog => Sys2Proof.Machine.execMgtWatchdog s
  | .fwTrialTimeout => Sys2Proof.Machine.execFwTrialTimeout s
  | .freeAck handle cut status detail => Sys2Proof.Machine.execFreeAck handle cut status detail s
  | .reserveAnswer handle cut status detail n => Sys2Proof.Machine.execReserveAnswer handle cut status detail n s
  | .holdAnswer id status detail => Sys2Proof.Machine.execHoldAnswer id status detail s
  | .unitLockAnswer node unit ans => Sys2Proof.Machine.execUnitLockAnswer node unit ans s
  | .selftestEnd lane pass => Sys2Proof.Machine.execSelftestEnd lane pass s
  | .columnDrainExpiry => Sys2Proof.Machine.execColumnDrainExpiry s
  | .mgtCoreReady => Sys2Proof.Machine.execMgtCoreReady s
  | .refclkStable => Sys2Proof.Machine.execRefclkStable s
  | .perstRelease => Sys2Proof.Machine.execPerstRelease s
  | .porAssert => Sys2Proof.Machine.execPorAssert s
  | .ideKm way session port stream op => Sys2Proof.Machine.execIdeKm way session port stream op s
  | .deviceUnsupportedRequest q => Sys2Proof.Machine.execDeviceUnsupportedRequest q s

end Sys2Proof.Machine
end

