-- ==== Sys2Proof/Safety.lean ====
section
/-! DEFINITION. What a safe run is, and the terms in which claims speak of commands that run: a host command that nothing holds back, a slot of a bundle that issues, and what each leaves. -/

namespace Sys2Proof.Machine

/-- An outcome that goes on: the block has performed the command. -/
def Runs (o : Host.Outcome State Fault Refusal) : Prop := ∃ t, o = .next t

/-- A run of n steps that goes on throughout. -/
def SafeRun : Nat → State → Prop
  | 0, _ => True
  | n + 1, s => ∃ t, step s = .next t ∧ SafeRun n t

/-- The state after n steps, where all of them go on. -/
def runTo : Nat → State → Option State
  | 0, s => some s
  | n + 1, s => match step s with | .next t => runTo n t | _ => none

/-- Nothing holds a host command back: its function exists, it is not under way, it need not wait (R507, R431, R553), the part is not in PS3 (R559), its context is on die (R33), every check of R508 passes and the role is one (R17). -/
def hostReady (s : State) (o : Nat) (c : Cmd) (bad : State → List Byte → Bool) : Bool :=
  decide (c.fn < 64) && !isStarted s o c && !mustWait s o c && s.r Reg.PWR_STATE_STATE != 3 && !needsFill s c.handle
  && (checkCommand (cacheTouch s (bits c.handle 0 21)) o c (bad (cacheTouch s (bits c.handle 0 21)) (cmdDesc s c))).isNone
  && (opUnassigned o || s.role != roleUnassigned)

/-- The state in which the block that owns a host command performs it: the command counts as started (R507, R520). -/
def begun (s : State) (o : Nat) (c : Cmd) : State := startCmd (cacheTouch s (bits c.handle 0 21)) o c

/-- The next state where a host command that has left t ends with d. -/
def endsWith (s : State) (o : Nat) (c : Cmd) (t : State) (d : Done) : Host.Outcome State Fault Refusal :=
  .next (keepQueue s (completeCmd t o c d))

/-- The next state where a host command has left t and ends later. -/
def goesOn (s t : State) : Host.Outcome State Fault Refusal := .next (keepQueue s t)

/-- The host port takes doorbells: REQUIRE_IDE is off or the port has a Secure stream (R471). -/
def ideOpen (s : State) : Bool := !(s.r Reg.KEY_POLICY_REQUIRE_IDE == 1 && !portSecure s 15)

/-- Slot k of the bundle b that frame f of stand st issues now holds opcode o and acts, F being the frame: the stand exists and is not fenced, the frame runs, the bundle is legal and not held (R247, R258, R284). -/
def slotIssues (s : State) (st k o f : Nat) (F : Frame) (b : Nat) : Bool :=
  decide (st < 64) && (s.stand st).running == some f && amGet f (s.stand st).frames == some F && bundleAt (s.stand st) F == some b
  && !standFenced s st && !(F.halted.isSome && F.slotsRun.isEmpty) && !F.withdrawing && legalBundle b && slotOp b k == o && !F.slotsRun.contains k
  && !(F.slotsRun.isEmpty && bundleHeld (s.stand st) F b)

/-- The frame once slot k of its bundle has acted: what its waits go by is what it had issued before the bundle (R283). -/
def Frame.ran (F : Frame) (k : Nat) : Frame := { F with slotsRun := k :: F.slotsRun, before := if F.slotsRun.isEmpty then F.issued else F.before }

/-- The bundles of a stand's image. -/
def codeLen (s : State) (st : Nat) : Nat := match (s.stand st).image with | some im => im.code.length | none => 0

/-- The state once a slot has left the frame as G: the bundle ends when every slot that holds an operation has acted (R247). -/
def slotDone (s : State) (st f b : Nat) (G : Frame) : State :=
  if (activeSlots b).all fun j => G.slotsRun.contains j then endBundle s st f G (codeLen s st) else setFrame s st f G

end Sys2Proof.Machine
end

