-- ==== Sys2Proof/Certificates/Slice0/Obligations.lean ====
section
/-! DEFINITION. The statements about the model, for the provers. -/

namespace Sys2Proof.Machine

/-- The lowest free number of a map from 1 to 16,383. -/
def LowestFree {α : Type} (m : AMap α) (q : Nat) : Prop :=
  1 ≤ q ∧ q ≤ 16383 ∧ amHas q m = false ∧ ∀ p, 1 ≤ p → p < q → amHas p m = true

/-- The registers whose writes act as their own chapters give, beyond the access types of R8, by the offset of the first copy. -/
def ownRegs : List Nat :=
  [Reg.HIF_ADMQ_CFG_ENABLE.off, Reg.HIF_EVT_CFG_EN_MGT.off, Reg.HIF_XW_CFG_ENABLE.off, Reg.HIF_FLEX_IND_CTL_BUSY.off, Reg.CWT_PORT_CFG_ENABLE.off,
   Reg.CWT_OBS_SEL_KIND.off, Reg.CWT_OBS_CTL_SNAP.off, Reg.STD_ATT_STATUS_ERROR.off, Reg.STD_CDC_STATUS_ERROR.off, Reg.STD_SEQ_FAULT_VALID.off,
   Reg.TIR_FELL_KICK_MIB.off, Reg.SCB_CTL_FLUSH.off, Reg.MGT_FLT_HEAD_HEAD.off, Reg.MGT_FLT_SWREPORT_TAG.off, Reg.PWR_RESET_KEY.off,
   Reg.HIF_FN_LIMIT_QUEUES.off, Reg.HIF_FN_TENANT_VALID.off, Reg.TIR_CP_BW_CLASS_SHARE_PCT.off, Reg.SCH_PLACE_CFG_DEPTH.off, Reg.MGT_FLT_SIZE_ENTRIES.off,
   Reg.SCH_SPLIT_BACKUP_BURST.off, Reg.CDC_ADP_SIZE_SIZE_2M.off, Reg.CWT_SHP_CFG_ENABLE.off]


/-- The operations of the C slot with their opcodes (R271, R277, R278, R281). -/
def cOps : List ((Nat → Instr) × Nat) :=
  [ (Instr.add, 0x01), (Instr.sub, 0x02), (Instr.and, 0x03), (Instr.or, 0x04), (Instr.xor, 0x05), (Instr.shl, 0x06), (Instr.shr, 0x07), (Instr.sar, 0x08),
    (Instr.mul, 0x09), (Instr.min, 0x0A), (Instr.max, 0x0B), (Instr.minu, 0x0C), (Instr.maxu, 0x0D), (Instr.addi, 0x11), (Instr.andi, 0x13), (Instr.ori, 0x14),
    (Instr.xori, 0x15), (Instr.shli, 0x16), (Instr.shri, 0x17), (Instr.sari, 0x18), (Instr.li, 0x20), (Instr.liA, 0x21), (Instr.lsh, 0x22), (Instr.adda, 0x24),
    (Instr.mova, 0x25), (Instr.movs, 0x26), (Instr.cmpEq, 0x30), (Instr.cmpNe, 0x31), (Instr.cmpLt, 0x32), (Instr.cmpGe, 0x33), (Instr.cmpLtu, 0x34), (Instr.cmpGeu, 0x35),
    (Instr.cmpiEq, 0x38), (Instr.cmpiNe, 0x39), (Instr.cmpiLt, 0x3A), (Instr.cmpiGe, 0x3B), (Instr.pand, 0x3C), (Instr.por, 0x3D), (Instr.pandn, 0x3E), (Instr.pxor, 0x3F),
    (Instr.ldB, 0x40), (Instr.ldH, 0x41), (Instr.ldW, 0x42), (Instr.ldD, 0x43), (Instr.ldWs, 0x44), (Instr.stB, 0x48), (Instr.stH, 0x49), (Instr.stW, 0x4A),
    (Instr.stD, 0x4B), (Instr.stiB, 0x4C), (Instr.stiH, 0x4D), (Instr.stiW, 0x4E), (Instr.dcpy, 0x50), (Instr.br, 0x60), (Instr.bz, 0x61), (Instr.bnz, 0x62),
    (Instr.halt, 0x64), (Instr.waitA, 0x68), (Instr.waitC, 0x69), (Instr.waitM, 0x6A), (Instr.rdtime, 0x6C) ]

/-- The operations of the M slot with their opcodes (R271, R277, R278, R281). -/
def mOps : List ((Nat → Instr) × Nat) :=
  [ (Instr.mvLd, 1), (Instr.mvSt, 2), (Instr.mvGather, 3), (Instr.mvBwrite, 4), (Instr.mvReduce, 5) ]

/-- The operations of the A slot with their opcodes (R271, R277, R278, R281). -/
def aOps : List ((Nat → Instr) × Nat) :=
  [ (Instr.attIssue, 1), (Instr.cdcIssue, 2), (Instr.tzero, 4), (Instr.tmmaBf16, 8), (Instr.tmmaE4m3, 9), (Instr.tmmaE5m2, 0xA), (Instr.tmmaMx8, 0xB), (Instr.tmmaMx4, 0xC),
    (Instr.tpackBf16, 0x10) ]

/-- The operations of the V slot with their opcodes (R271, R277, R278, R281). -/
def vOps : List ((Nat → Instr) × Nat) :=
  [ (Instr.vadd, 0x01), (Instr.vsub, 0x02), (Instr.vmul, 0x03), (Instr.vfma, 0x04), (Instr.vmax, 0x05), (Instr.vmin, 0x06), (Instr.vdiv, 0x07), (Instr.vexp2, 0x08),
    (Instr.vrmax, 0x09), (Instr.vrsum, 0x0A), (Instr.vmov, 0x0B), (Instr.vbcast, 0x0C), (Instr.vzero, 0x0D), (Instr.vld, 0x10), (Instr.vst, 0x11), (Instr.vldBf16, 0x12),
    (Instr.vstBf16, 0x13) ]

/-- A bundle whose slots have all run leaves its frame with the results in its registers, nothing stored or branched yet, at bundle address pc (R247, R275). -/
def Frame.after (F : Frame) (pc : Nat) : Frame := { F with files := F.next, stores := [], target := none, slotsRun := [], pc := pc }

/-- The signed number that the low n bits v stand for (R270). -/
def sx (n v : Nat) : Int := if v < 2 ^ (n - 1) then (v : Int) else (v : Int) - 2 ^ n

/-- The C-slot operations whose result is sD (R271): the command, its opcode, and the result as an exact integer of the state, the frame and the slot's bits, to be taken modulo 2^64. -/
def scalarRegRows : List ((Nat → Instr) × Nat × (State → Frame → Nat → Int)) :=
  [ (Instr.add, 0x01, fun _ F w => (F.s (fS1 w)).toNat + (F.s (fS2 w)).toNat),
    (Instr.sub, 0x02, fun _ F w => (F.s (fS1 w)).toNat - (F.s (fS2 w)).toNat),
    (Instr.and, 0x03, fun _ F w => ((F.s (fS1 w)).toNat &&& (F.s (fS2 w)).toNat : Nat)),
    (Instr.or, 0x04, fun _ F w => ((F.s (fS1 w)).toNat ||| (F.s (fS2 w)).toNat : Nat)),
    (Instr.xor, 0x05, fun _ F w => ((F.s (fS1 w)).toNat ^^^ (F.s (fS2 w)).toNat : Nat)),
    (Instr.shl, 0x06, fun _ F w => (F.s (fS1 w)).toNat * 2 ^ (bits (F.s (fS2 w)).toNat 0 6)),
    (Instr.shr, 0x07, fun _ F w => (F.s (fS1 w)).toNat / 2 ^ (bits (F.s (fS2 w)).toNat 0 6)),
    (Instr.sar, 0x08, fun _ F w => (F.s (fS1 w)).toInt / 2 ^ (bits (F.s (fS2 w)).toNat 0 6)),
    (Instr.mul, 0x09, fun _ F w => (F.s (fS1 w)).toNat * (F.s (fS2 w)).toNat),
    (Instr.min, 0x0A, fun _ F w => Min.min (F.s (fS1 w)).toInt (F.s (fS2 w)).toInt),
    (Instr.max, 0x0B, fun _ F w => Max.max (F.s (fS1 w)).toInt (F.s (fS2 w)).toInt),
    (Instr.minu, 0x0C, fun _ F w => Min.min ((F.s (fS1 w)).toNat : Int) (F.s (fS2 w)).toNat),
    (Instr.maxu, 0x0D, fun _ F w => Max.max ((F.s (fS1 w)).toNat : Int) (F.s (fS2 w)).toNat) ]

/-- The rest of the C-slot operations with result sD: with an immediate, and moves (R271). -/
def scalarImmRows : List ((Nat → Instr) × Nat × (State → Frame → Nat → Int)) :=
  [ (Instr.addi, 0x11, fun _ F w => (F.s (fS1 w)).toNat + sx 16 (bits w 0 16)),
    (Instr.andi, 0x13, fun _ F w => ((F.s (fS1 w)).toNat &&& bits w 0 16 : Nat)),
    (Instr.ori, 0x14, fun _ F w => ((F.s (fS1 w)).toNat ||| bits w 0 16 : Nat)),
    (Instr.xori, 0x15, fun _ F w => ((F.s (fS1 w)).toNat ^^^ bits w 0 16 : Nat)),
    (Instr.shli, 0x16, fun _ F w => (F.s (fS1 w)).toNat * 2 ^ (bits w 0 6)),
    (Instr.shri, 0x17, fun _ F w => (F.s (fS1 w)).toNat / 2 ^ (bits w 0 6)),
    (Instr.sari, 0x18, fun _ F w => (F.s (fS1 w)).toInt / 2 ^ (bits w 0 6)),
    (Instr.li, 0x20, fun _ _ w => sx 24 (bits w 0 24)),
    (Instr.lsh, 0x22, fun _ F w => ((F.s (fD w)).toNat * 2 ^ 24 + bits w 0 24 : Nat)),
    (Instr.movs, 0x26, fun _ F w => (F.a (fS1 w)).toNat),
    (Instr.rdtime, 0x6C, fun s _ _ => s.now) ]

/-- All C-slot operations whose result is sD, loads and waits apart. -/
def scalarRows : List ((Nat → Instr) × Nat × (State → Frame → Nat → Int)) := scalarRegRows ++ scalarImmRows

/-- The C-slot operations whose result is aD, as an exact integer to be taken modulo 2^32 (R271, R272). -/
def addressRows : List ((Nat → Instr) × Nat × (Frame → Nat → Int)) :=
  [ (Instr.liA, 0x21, fun _ w => sx 24 (bits w 0 24)),
    (Instr.adda, 0x24, fun F w => (F.a (fS1 w)).toNat + sx 16 (bits w 0 16)),
    (Instr.mova, 0x25, fun F w => (F.s (fS1 w)).toNat) ]

/-- The C-slot operations whose result is pD (R271). -/
def predicateRows : List ((Nat → Instr) × Nat × (Frame → Nat → Bool)) :=
  [ (Instr.cmpEq, 0x30, fun F w => decide ((F.s (fS1 w)).toNat = (F.s (fS2 w)).toNat)),
    (Instr.cmpNe, 0x31, fun F w => decide ((F.s (fS1 w)).toNat ≠ (F.s (fS2 w)).toNat)),
    (Instr.cmpLt, 0x32, fun F w => decide ((F.s (fS1 w)).toInt < (F.s (fS2 w)).toInt)),
    (Instr.cmpGe, 0x33, fun F w => decide ((F.s (fS2 w)).toInt ≤ (F.s (fS1 w)).toInt)),
    (Instr.cmpLtu, 0x34, fun F w => decide ((F.s (fS1 w)).toNat < (F.s (fS2 w)).toNat)),
    (Instr.cmpGeu, 0x35, fun F w => decide ((F.s (fS2 w)).toNat ≤ (F.s (fS1 w)).toNat)),
    (Instr.cmpiEq, 0x38, fun F w => decide ((F.s (fS1 w)).toInt = sx 16 (bits w 0 16))),
    (Instr.cmpiNe, 0x39, fun F w => decide ((F.s (fS1 w)).toInt ≠ sx 16 (bits w 0 16))),
    (Instr.cmpiLt, 0x3A, fun F w => decide ((F.s (fS1 w)).toInt < sx 16 (bits w 0 16))),
    (Instr.cmpiGe, 0x3B, fun F w => decide (sx 16 (bits w 0 16) ≤ (F.s (fS1 w)).toInt)),
    (Instr.pand, 0x3C, fun F w => F.p (bits w 24 3) && F.p (bits w 21 3)),
    (Instr.por, 0x3D, fun F w => F.p (bits w 24 3) || F.p (bits w 21 3)),
    (Instr.pandn, 0x3E, fun F w => F.p (bits w 24 3) && !F.p (bits w 21 3)),
    (Instr.pxor, 0x3F, fun F w => F.p (bits w 24 3) != F.p (bits w 21 3)) ]

/-- The deck address of a load or store: aB plus the signed OFF16, modulo 2^32 (R270 to R272). -/
def cmAddr (F : Frame) (w : Nat) : Nat := (((F.a (bits w 20 4)).toNat + sx 16 (bits w 0 16)) % 2 ^ 32).toNat
/-- The deck address of a store-immediate: aB plus OFF10, modulo 2^32. -/
def csiAddr (F : Frame) (w : Nat) : Nat := ((F.a (bits w 26 4)).toNat + bits w 16 10) % 2 ^ 32

/-- The loads (R271): command, opcode, bytes, and the result of the little-endian number read. -/
def loadRows : List ((Nat → Instr) × Nat × Nat × (Nat → Int)) :=
  [ (Instr.ldB, 0x40, 1, fun x => x), (Instr.ldH, 0x41, 2, fun x => x), (Instr.ldW, 0x42, 4, fun x => x), (Instr.ldD, 0x43, 8, fun x => x), (Instr.ldWs, 0x44, 4, sx 32) ]

/-- The C-slot stores (R271): command, opcode, the deck address, the bytes, and the value stored, little-endian. -/
def storeRows : List ((Nat → Instr) × Nat × (Frame → Nat → Nat) × Nat × (Frame → Nat → Nat)) :=
  [ (Instr.stB, 0x48, cmAddr, 1, fun F w => (F.s (fD w)).toNat % 2 ^ 8), (Instr.stH, 0x49, cmAddr, 2, fun F w => (F.s (fD w)).toNat % 2 ^ 16),
    (Instr.stW, 0x4A, cmAddr, 4, fun F w => (F.s (fD w)).toNat % 2 ^ 32), (Instr.stD, 0x4B, cmAddr, 8, fun F w => (F.s (fD w)).toNat),
    (Instr.stiB, 0x4C, csiAddr, 1, fun _ w => bits w 0 8), (Instr.stiH, 0x4D, csiAddr, 2, fun _ w => bits w 0 16), (Instr.stiW, 0x4E, csiAddr, 4, fun _ w => bits w 0 16) ]

/-- A range of n bytes at offset a of a window of R241 under DEPTH d touches no reserved byte and does not run past the window (R242, R243). -/
def Usable (d a n : Nat) : Prop := a < winBytes d ∧ a + n ≤ winBytes d ∧ (a + n ≤ 0x100 ∨ 0x400 ≤ a) ∧ (a + n ≤ 0x2800 ∨ 0x4000 ≤ a)

/-- The V-slot operations whose lanes are values of their source lanes (R281, R282): command, opcode, and lane i of the result from the lanes of the three registers it names, as they stood before the bundle. -/
def vectorRows : List ((Nat → Instr) × Nat × ((Nat → FV) → (Nat → FV) → (Nat → FV) → Nat → FV)) :=
  [ (Instr.vadd, 0x01, fun _ x y i => ((x i).add (y i)).r32), (Instr.vsub, 0x02, fun _ x y i => ((x i).add (y i).neg).r32),
    (Instr.vmul, 0x03, fun _ x y i => ((x i).mul (y i)).r32), (Instr.vfma, 0x04, fun d x y i => ((d i).add ((x i).mul (y i))).r32),
    (Instr.vmax, 0x05, fun _ x y i => (x i).maxZ (y i)), (Instr.vmin, 0x06, fun _ x y i => (x i).minZ (y i)),
    (Instr.vdiv, 0x07, fun _ x y i => ((x i).div (y i)).r32), (Instr.vexp2, 0x08, fun _ x _ i => exp2 (x i)),
    (Instr.vrmax, 0x09, fun _ x _ _ => ((List.range 64).map x).foldl FV.maxZ FV.ninf), (Instr.vrsum, 0x0A, fun _ x _ _ => FV.treeSum ((List.range 64).map x)) ]

/-- The mover operations (R253, R277): command, opcode, and the deck destination or source, extended address and count that its fields give. -/
def moverRows : List ((Nat → Instr) × Nat × (Frame → Nat → Nat) × (Frame → Nat → Nat) × (Frame → Nat → Nat) × (Frame → Nat → Nat)) :=
  let a1 (F : Frame) (w : Nat) : Nat := (F.a (bits w 16 4)).toNat
  let a2 (F : Frame) (w : Nat) : Nat := (F.a (bits w 12 4)).toNat
  let s1 (F : Frame) (w : Nat) : Nat := (F.s (bits w 6 6)).toNat
  let s2 (F : Frame) (w : Nat) : Nat := (F.s (bits w 0 6)).toNat
  let z (_ : Frame) (_ : Nat) : Nat := 0
  [ (Instr.mvLd, 1, a1, z, s1, s2), (Instr.mvSt, 2, z, a1, s1, s2), (Instr.mvGather, 3, a1, a2, s1, s2), (Instr.mvBwrite, 4, z, a1, s1, z), (Instr.mvReduce, 5, z, a1, z, s2) ]

/-- The tile operations (R278 to R280): command, opcode, first address, second address and depth. The tile is bits [17:13] of the slot. -/
def tileRows : List ((Nat → Instr) × Nat × (Frame → Nat → Nat) × (Frame → Nat → Nat) × (Nat → Nat)) :=
  let aa (F : Frame) (w : Nat) : Nat := (F.a (bits w 9 4)).toNat
  let ab (F : Frame) (w : Nat) : Nat := (F.a (bits w 5 4)).toNat
  let z (_ : Frame) (_ : Nat) : Nat := 0
  let k (w : Nat) : Nat := 32 * (bits w 0 5 + 1)
  [ (Instr.tzero, 4, z, z, fun _ => 0), (Instr.tmmaBf16, 8, aa, ab, k), (Instr.tmmaE4m3, 9, aa, ab, k), (Instr.tmmaE5m2, 0xA, aa, ab, k),
    (Instr.tmmaMx8, 0xB, aa, ab, k), (Instr.tmmaMx4, 0xC, aa, ab, k), (Instr.tpackBf16, 0x10, aa, z, fun _ => 0) ]

/-- The bytes of a tmma operand of depth k (R66, R279): 64 rows of k elements, then in the MX formats 64 × k/32 scales. -/
def operandBytes (op k : Nat) : Nat :=
  if op = 8 then 128 * k else if op = 9 ∨ op = 0xA then 64 * k else if op = 0xB then 64 * k + 2 * k else 32 * k + 2 * k

/-- The deck ranges of a tile operation (R242, R279, R280). -/
def tileUses (d op t a b k : Nat) : List (Nat × Nat) :=
  (winBytes d - 0x80000 + 0x4000 * t, 0x4000) ::
    (if op = 4 then [] else if op = 0x10 then [(a, 8192)] else [(a, operandBytes op k), (b, operandBytes op k)])

/-- A frame that has issued the next command of an engine: counted, its ticket in sT (nothing where T is 0), and no outcome under that ticket (R249, R286). -/
def Frame.issued1 (F : Frame) (e : Engine) (t reg : Nat) : Frame :=
  { F with
    issued := (match e with | .att => (F.issued.1 + 1, F.issued.2.1, F.issued.2.2) | .cdc => (F.issued.1, F.issued.2.1 + 1, F.issued.2.2) | .mov => (F.issued.1, F.issued.2.1, F.issued.2.2 + 1)),
    done := amErase (doneKey e t) F.done,
    next := if reg = 0 then F.next else { F.next with sc := amSet reg (BitVec.ofNat 64 t) F.next.sc } }

/-- The state once a change of a context's commit word, from the word it last showed to (phase, length), is under way at its record home (R43 to R46): with tokens to store, the claim-checked writes of them, where their segments lie, go out and the commit waits for them; with none its compare-and-set goes out. A step that commits begins to wait for its record. -/
def asked (T : State) (x : Ctx) (k : CommitKind) (ph : Phase) (len : Nat) (toks : List Nat) (cmd : Option (Nat × Cmd)) : State :=
  let old := T.nodeId * 2 ^ 48 + x.claimGen * 2 ^ 32 + x.committed.code * 2 ^ 23 + x.committedLen
  let new := T.nodeId * 2 ^ 48 + x.claimGen * 2 ^ 32 + ph.code * 2 ^ 23 + len
  let ws := tokenStores ⟨x.recNode, x.recKey, x.recOffset⟩ toks.length x.committedLen toks
  let n := T.sch.nextCommit
  let cm : Commit :=
    { kind := k, handle := x.handle, record := ⟨x.recNode, x.recKey, x.recOffset⟩, gen := x.claimGen, expected := old, new := new, tokens := toks, stores := ws,
      bytes := [], off := 0, cmd := cmd, stage := if ws = [] then .sent else .storing ws.length, tried := decide (ws = []), reread := false, slot := none }
  let U := if k = .token ∨ k = .commitSpec ∨ k = .prefill ∨ k = .decode then stallBegin T x.handle St.record else T
  let V := { U with sch := { U.sch with nextCommit := n + 1, commits := amSet n cm U.sch.commits } }
  if ws = [] then { V with sent := V.sent ++ [.msg x.recNode (.atomic n x.recKey ⟨3, x.recOffset, old, new, []⟩)] }
  else ws.foldl (fun W w => claimWrite W x (.store n) w.1 w.2 none) V

/-- The host commands that R46, R47 and R29 gate by the context they name. -/
def gatedRows : List ((Cmd → Instr) × Nat) :=
  [ (Instr.token, Op.TOKEN), (Instr.pause, Op.PAUSE), (Instr.resume, Op.RESUME), (Instr.cancel, Op.CANCEL), (Instr.park, Op.PARK), (Instr.migrate, Op.MIGRATE) ]

/-- A slot name finds its slot: pool p is declared, it has group g, and the slot's entry c is in use under the name's ring count (R76). -/
def SlotHeld (s : State) (n : SlotName) (p : Pool) (g : CutGroup) (c : CutSlot) : Prop :=
  amGet n.pool s.tir.pools = some p ∧ p.groups[n.group]? = some g ∧ amGet n.slot g.slots = some c ∧ (amGet n.slot g.ids.ring).getD 1 = n.ring

/-- The state with slice group g in place of the one a name points at, in pool p, and the entry of the slot named written to the slot table (R380, R383). -/
def groupSet (s : State) (n : SlotName) (p : Pool) (g : CutGroup) : State :=
  putSlotEntry { s with tir := { s.tir with pools := amSet n.pool { p with groups := listSet n.group g p.groups } s.tir.pools } } n g

/-- The state with entry c for the slot a name points at. -/
def slotSet (s : State) (n : SlotName) (p : Pool) (g : CutGroup) (c : CutSlot) : State := groupSet s n p { g with slots := amSet n.slot c g.slots }

/-- The state once that slot is freed: no entry, the next ring count, and fallow from now (R28, R30, R76). -/
def slotFreed (s : State) (n : SlotName) (p : Pool) (g : CutGroup) : State :=
  groupSet s n p { g with
    slots := amErase n.slot g.slots,
    ids := { g.ids with ring := amSet n.slot (if n.ring = 255 then 1 else n.ring + 1) g.ids.ring, released := g.ids.released ++ [(n.slot, s.now + fallowUs s * 1000)] } }

/-- A message's answer goes out. -/
def told (s : State) (node : Nat) (m : Msg) : State := { s with sent := s.sent ++ [.msg node m] }

/-- A message's answer goes out once the parity deltas sent since a state have been acknowledged (R383): at once where there are none. -/
def answered (old t : State) (node : Nat) (m : Msg) : State :=
  if newDeltas old t = [] then told t node m else waitDeltas t (newDeltas old t) (.answer node m)

/-- Nothing keeps a home from a request: it is one, its slot table bytes can be reached, and no stripe unit of them is unbuilt or locked (R15, R385, R388, R389, R396, R445). -/
def HomeReady (s : State) (m : HomeMsg) : Prop :=
  isHome s m = true ∧ doubleLost s (homeRange s m).1 (homeRange s m).2 = false
  ∧ ((homeRange s m).2 = 0 ∨ memTrouble s (homeRange s m).1 (homeRange s m).2 = none) ∧ homeBlocked s m = [] ∧ s.cp.held.contains (.home m) = false

/-- The host commands (RESYNC apart, whose dirty units are an operand of their own) with opcode, step-8 condition and the block that performs them (R502 to R509). -/
def hostRows : List ((Cmd → Instr) × Nat × (State → List Byte → Bool) × (Cmd → Body)) :=
  [ (.wqCreate, Op.WQ_CREATE, noBad, wqCreateBody),
      (.wqDestroy, Op.WQ_DESTROY, noBad, wqDestroyBody),
      (.cqCreate, Op.CQ_CREATE, noBad, cqCreateBody),
      (.cqDestroy, Op.CQ_DESTROY, noBad, cqDestroyBody),
      (.rqCreate, Op.RQ_CREATE, noBad, rqCreateBody),
      (.rqDestroy, Op.RQ_DESTROY, noBad, rqDestroyBody),
      (.admitCmd, Op.ADMIT, noBad, admitBody),
      (.ctxRead, Op.CTX_READ, noBad, ctxReadBody),
      (.token, Op.TOKEN, noBad, tokenBody),
      (.pause, Op.PAUSE, noBad, pauseBody),
      (.resume, Op.RESUME, noBad, resumeBody),
      (.cancel, Op.CANCEL, noBad, cancelBody) ]
  ++ [ (.park, Op.PARK, noBad, parkBody),
      (.unpark, Op.UNPARK, noBad, unparkBody),
      (.migrate, Op.MIGRATE, noBad, migrateBody),
      (.recover, Op.RECOVER, noBad, recoverBody),
      (.claim, Op.CLAIM, noBad, claimBody),
      (.verify, Op.VERIFY, noBad, verifyBody),
      (.commit, Op.COMMIT, noBad, commitBody),
      (.rollback, Op.ROLLBACK, noBad, rollbackBody),
      (.fell, Op.FELL, noBad, fellBody),
      (.fellCut, Op.FELL_CUT, noBad, fellCutBody),
      (.move, Op.MOVE, noBad, moveBody),
      (.trailInsert, Op.TRAIL_INSERT, noBad, trailInsertBody) ]
  ++ [ (.lookup, Op.LOOKUP, noBad, lookupBody),
      (.trailRemove, Op.TRAIL_REMOVE, noBad, trailRemoveBody),
      (.blazePublish, Op.BLAZE_PUBLISH, noBad, blazePublishBody),
      (.blazeRetire, Op.BLAZE_RETIRE, noBad, blazeRetireBody),
      (.modelReg, Op.MODEL_REG, noBad, fun _ => modelRegBody),
      (.modelDereg, Op.MODEL_DEREG, noBad, modelDeregBody),
      (.cutPool, Op.CUT_POOL, poolDescBad, cutPoolBody),
      (.free, Op.FREE, noBad, freeBody),
      (.seal, Op.SEAL, noBad, sealBody),
      (.expand, Op.EXPAND, noBad, expandBody),
      (.tableLoad, Op.TABLE_LOAD, noBad, tableLoadBody),
      (.tableFree, Op.TABLE_FREE, noBad, tableFreeBody) ]
  ++ [ (.adapterLoad, Op.ADAPTER_LOAD, noBad, adapterLoadBody),
      (.adapterRetire, Op.ADAPTER_RETIRE, noBad, adapterRetireBody),
      (.progLoad, Op.PROG_LOAD, noBad, fun c s d => progLoadBody c (roleFence s) d),
      (.standUnfence, Op.STAND_UNFENCE, noBad, standUnfenceBody),
      (.selftest, Op.SELFTEST, noBad, selftestBody),
      (.laneRestore, Op.LANE_RESTORE, noBad, laneRestoreBody),
      (.stackQuiesce, Op.STACK_QUIESCE, noBad, stackQuiesceBody),
      (.qpCreate, Op.QP_CREATE, noBad, qpCreateBody),
      (.qpModify, Op.QP_MODIFY, noBad, qpModifyBody),
      (.qpDestroy, Op.QP_DESTROY, noBad, qpDestroyBody),
      (.regionReg, Op.REGION_REG, regionBad, regionRegBody),
      (.regionDereg, Op.REGION_DEREG, noBad, regionDeregBody) ]
  ++ [ (.chokerCancel, Op.CHOKER_CANCEL, noBad, chokerCancelBody),
      (.trigAdd, Op.TRIG_ADD, noBad, trigAddBody),
      (.trigSet, Op.TRIG_SET, noBad, trigSetBody),
      (.shaperSet, Op.SHAPER_SET, noBad, shaperSetBody),
      (.leaseBreak, Op.LEASE_BREAK, noBad, leaseBreakBody),
      (.mapInstall, Op.MAP_INSTALL, noBad, mapInstallBody),
      (.roleBegin, Op.ROLE_BEGIN, noBad, fun c s d =>
        (let p := roleBeginBody c s d
         let t := if p.1.changing && !s.changing then { p.1 with mgt := { p.1.mgt with drainFenced := false } } else p.1
         (roleFence (quiesceCheck t), p.2))),
      (.roleCommit, Op.ROLE_COMMIT, noBad, roleCommitBody),
      (.roleAbort, Op.ROLE_ABORT, noBad, roleAbortBody),
      (.rollColumn, Op.ROLL_COLUMN, noBad, rollBody),
      (.fwStage, Op.FW_STAGE, noBad, fwStageBody),
      (.fwActivate, Op.FW_ACTIVATE, noBad, fwActivateBody) ]
  ++ [ (.fwConfirm, Op.FW_CONFIRM, noBad, fwConfirmBody),
      (.rebuild, Op.REBUILD, noBad, fun c => rebuildBody Op.REBUILD c false fun s => protSize s / unitBytes),
      (.parRebuild, Op.PAR_REBUILD, noBad, fun c => rebuildBody Op.PAR_REBUILD c true fun s => parSize s / unitBytes),
      (.keyImport, Op.KEY_IMPORT, noBad, fun _ => keyImportBody),
      (.keyDestroy, Op.KEY_DESTROY, noBad, keyDestroyBody),
      (.keyInfo, Op.KEY_INFO, noBad, keyInfoBody),
      (.keyGetKem, Op.KEY_GET_KEM, noBad, keyGetKemBody),
      (.keySalt, Op.KEY_SALT, noBad, fun _ => keySaltBody),
      (.keyZeroize, Op.KEY_ZEROIZE, noBad, fun _ => keyZeroizeBody),
      (.keySelftest, Op.KEY_SELFTEST, noBad, fun _ => keySelftestBody),
      (.pwrState, Op.PWR_STATE, noBad, pwrStateBody) ]

end Sys2Proof.Machine

open Sys2Proof Sys2Proof.Machine

/-- For every command c, state s and queue rest, a step of s with c at the front of its queue is exec of c on s with the queue's rest. That one queue holds every command is the model's choice (log 1). -/
def Obligations.StepRunsFrontCommand : Prop :=
  ∀ (c : Instr) (rest : List Instr) (s : State), step { s with pending := c :: rest } = exec c { s with pending := rest }

/-- Where no command waits, a step answers the state that 10 ns of device time leave, with the queue still empty. A part that is held in reset or is in PS4 is left as it is. This is the model's choice (log 54). -/
def Obligations.EmptyQueueLetsTimePass : Prop :=
  ∀ s : State, s.pending = [] →
    step s = .next (keepQueue s (tick s)) ∧ ((inReset s || pwr s == 4) = true → step s = .next s)

/-- For every list q of commands given and every state whose queue is a suffix of q, a step that goes on leaves a queue that is a suffix of q: no command adds to the queue, drops from it or reorders it. A run of n steps that goes on leaves the queue without its first n commands. The queue is the model's own (log 1). -/
def Obligations.CommandsAreTakenInOrder : Prop :=
  (∀ (q : List Instr) (s t : State), s.pending <:+ q → step s = .next t → t.pending <:+ q)
  ∧ (∀ (n : Nat) (s t : State), runTo n s = some t → t.pending = s.pending.drop n)

/-- At State.reset the queue is empty, so a suffix of every list of commands, memory is in canonical form, and nothing has been sent. That the queue and the list of what was sent are the model's own is logs 1 and 4. -/
def Obligations.ResetLeavesEmptyQueue : Prop :=
  (∀ q : List Instr, State.reset.pending <:+ q) ∧ State.reset.mem.wf = true ∧ State.reset.sent = []

/-- For every memory in canonical form, a store of a list of bytes at an address leaves a canonical memory; a read of as many bytes there gives the list; and a read of any byte outside the stored range gives what it gave before. -/
def Obligations.StoresKeepMemoryCanonical : Prop :=
  ∀ (m : Memory) (a : Nat) (l : List Byte), m.wf = true →
    (memWriteN m a l).wf = true ∧ memReadN (memWriteN m a l) a l.length = l
    ∧ ∀ x, (x < a ∨ a + l.length ≤ x) → memRead (memWriteN m a l) x = memRead m x

/-- Setting a field leaves in it the value modulo two to its width, leaves every field with another place in the register map as it was, and changes nothing of the state but the register file. -/
def Obligations.FieldsHoldWhatIsSet : Prop :=
  ∀ (s : State) (f g : Fld) (v : Nat),
    (s.setR f v).r f = v % 2 ^ f.w ∧ (g.key ≠ f.key → (s.setR f v).r g = s.r g) ∧ { s.setR f v with regs := s.regs } = s

/-- Where nothing holds the command back, the function is below its queue limit (for the two kinds that count) and q is the lowest free number of the kind: WQ_CREATE naming an existing CQ of type 0 leaves a submission queue q with ring, size and default CQ of its operands, nothing posted and nothing taken; CQ_CREATE leaves a completion queue q of the type, vector and coalescing of its operands with nothing written, consumed or held; RQ_CREATE naming a CQ of type 1 leaves a receive ring q. Each completes OK with VALUE q and changes nothing else but what starting and completing a command change. -/
def Obligations.QueuesAreCreated : Prop :=
  ∀ (s : State) (c : Cmd) (q : Nat),
    (let T := begun s Op.WQ_CREATE c
     hostReady s Op.WQ_CREATE c noBad = true → cqIsCommand T c.fn (bits c.arg1 16 16) = true →
     queuesInUse (T.fn c.fn) < queueLimit T c.fn → LowestFree (T.fn c.fn).sqs q →
     exec (.wqCreate c) s = endsWith s Op.WQ_CREATE c
       (T.setFn c.fn { T.fn c.fn with sqs := amSet q { base := c.arg0, log2 := bits c.arg1 0 5, cq := bits c.arg1 16 16, tail := 0, head := 0, since := T.now } (T.fn c.fn).sqs })
       { Done.ok with value := q })
    ∧ (let T := begun s Op.CQ_CREATE c
       hostReady s Op.CQ_CREATE c noBad = true → queuesInUse (T.fn c.fn) < queueLimit T c.fn → LowestFree (T.fn c.fn).cqs q →
       exec (.cqCreate c) s = endsWith s Op.CQ_CREATE c
         (T.setFn c.fn { T.fn c.fn with cqs := amSet q (Cq.mk c.arg0 (bits c.arg1 0 5) (bits c.arg1 8 1) (bits c.arg1 16 5) (bits c.arg1 24 8) (bits c.arg1 32 16) 0 0 [] 0 none) (T.fn c.fn).cqs })
         { Done.ok with value := q })
    ∧ (let T := begun s Op.RQ_CREATE c
       ∀ Q : Cq, hostReady s Op.RQ_CREATE c noBad = true → amGet (bits c.arg1 16 16) (T.fn c.fn).cqs = some Q → Q.typ = 1 →
       LowestFree (T.fn c.fn).rqs q →
       exec (.rqCreate c) s = endsWith s Op.RQ_CREATE c
         (T.setFn c.fn { T.fn c.fn with rqs := amSet q { base := c.arg0, log2 := bits c.arg1 0 5, cq := bits c.arg1 16 16, posted := 0, taken := 0 } (T.fn c.fn).rqs })
         { Done.ok with value := q })

/-- Where nothing holds the command back: WQ_DESTROY of a queue other than 0 with no unfinished command but itself removes that queue; CQ_DESTROY of a CQ other than 0 that is not its own CQ, that nothing names and that holds no completion removes it; RQ_DESTROY removes the receive ring it names. Each completes OK and changes no other queue. WQ_DESTROY and CQ_DESTROY of queue 0 complete with CONFLICT and leave the queues as they are. -/
def Obligations.QueuesAreDestroyed : Prop :=
  ∀ (s : State) (c : Cmd),
    (let T := begun s Op.WQ_DESTROY c
     hostReady s Op.WQ_DESTROY c noBad = true →
     (c.arg0 = 0 → exec (.wqDestroy c) s = endsWith s Op.WQ_DESTROY c T (Done.of .conflict 0))
     ∧ (c.arg0 ≠ 0 → amHas c.arg0 (T.fn c.fn).sqs = true → sqBusy T c.fn c.arg0 Op.WQ_DESTROY c = false →
        exec (.wqDestroy c) s = endsWith s Op.WQ_DESTROY c (T.setFn c.fn { T.fn c.fn with sqs := amErase c.arg0 (T.fn c.fn).sqs }) Done.ok))
    ∧ (let T := begun s Op.CQ_DESTROY c
       hostReady s Op.CQ_DESTROY c noBad = true →
       (c.arg0 = 0 → exec (.cqDestroy c) s = endsWith s Op.CQ_DESTROY c T (Done.of .conflict 0))
       ∧ (∀ q : Cq, c.arg0 ≠ 0 → amGet c.arg0 (T.fn c.fn).cqs = some q → c.cq ≠ c.arg0 → q.held = [] →
          cqNamed T c.fn c.arg0 Op.CQ_DESTROY c = false →
          exec (.cqDestroy c) s = endsWith s Op.CQ_DESTROY c (T.setFn c.fn { T.fn c.fn with cqs := amErase c.arg0 (T.fn c.fn).cqs }) Done.ok))
    ∧ (let T := begun s Op.RQ_DESTROY c
       hostReady s Op.RQ_DESTROY c noBad = true → amHas c.arg0 (T.fn c.fn).rqs = true →
       exec (.rqDestroy c) s = endsWith s Op.RQ_DESTROY c (T.setFn c.fn { T.fn c.fn with rqs := amErase c.arg0 (T.fn c.fn).rqs }) Done.ok)

/-- For a function of the port whose host port takes doorbells: a submission tail doorbell from 0 to the ring size ahead of the entries taken sets the entries posted; a receive-ring doorbell within its ring does the same; a completion head doorbell up to the entries written sets the entries consumed, after which held completions go out; a result consume doorbell frees a finished slot; a consume doorbell naming a context of the function in DONE or FAILED, or one whose released handoff is unresolved, releases it with its window binding, and what of its entries is still being changed goes on; a queue-pair doorbell from the owner with a tail inside the ring sets SQ_TAIL, gives each entry posted now its place and time, and saves a context that is not on die, after which what is posted is taken. Nothing else of the state changes. Completes: cqHeadDoorbell, consume, qpSqDoorbell, resultConsume, rqDoorbell, sqTailDoorbell. -/
def Obligations.DoorbellsAreTaken : Prop :=
  ∀ (s : State) (f v : Nat), f < 64 → ideOpen s = true →
    (∀ (q : Nat) (w : Sq), amGet q (s.fn f).sqs = some w → v < 2 ^ 32 → (v + 2 ^ 32 - w.head % 2 ^ 32) % 2 ^ 32 ≤ 2 ^ w.log2 →
      exec (.sqTailDoorbell f q v) s = goesOn s (s.setFn f { s.fn f with
        sqs := amSet q { w with tail := w.head + (v + 2 ^ 32 - w.head % 2 ^ 32) % 2 ^ 32, since := if w.head = w.tail then s.now else w.since } (s.fn f).sqs }))
    ∧ (∀ w : Rq, amGet (bits v 0 32) (s.fn f).rqs = some w → (bits v 32 32 + 2 ^ 32 - w.taken % 2 ^ 32) % 2 ^ 32 ≤ 2 ^ w.log2 →
      exec (.rqDoorbell f v) s = goesOn s (s.setFn f { s.fn f with
        rqs := amSet (bits v 0 32) { w with posted := w.taken + (bits v 32 32 + 2 ^ 32 - w.taken % 2 ^ 32) % 2 ^ 32 } (s.fn f).rqs }))
    ∧ (∀ (q : Nat) (c : Cq), amGet q (s.fn f).cqs = some c → v < 2 ^ 32 → (v + 2 ^ 32 - c.consumed % 2 ^ 32) % 2 ^ 32 ≤ c.written - c.consumed →
      exec (.cqHeadDoorbell f q v) s = goesOn s (cqDrain (s.setFn f { s.fn f with
        cqs := amSet q { c with consumed := c.consumed + (v + 2 ^ 32 - c.consumed % 2 ^ 32) % 2 ^ 32 } (s.fn f).cqs }) f q c.held.length))
    ∧ (∀ img : List Byte, v < 1024 → amGet v (s.fn f).slots = some (.done img) →
      exec (.resultConsume f v) s = goesOn s (s.setFn f { s.fn f with slots := amErase v (s.fn f).slots }))
    ∧ (∀ x : Ctx, v < 2 ^ 32 → s.ctx v = some x → (f = 0 ∨ bits x.hostCq 16 6 = f) →
      (let kept (T : State) : State := if outstanding T v = true then { T with sch := { T.sch with ghosts := amSet v x T.sch.ghosts } } else T
       ((x.phase = .done ∨ x.phase = .failed) → exec (.consume f v) s = goesOn s (releaseCtx (unbind (kept s) x.handle) x))
       ∧ (x.phase = .handoff → x.released = true → x.unresolved = true →
          exec (.consume f v) s = goesOn s (releaseCtx (unbind (kept (freeLocals (unpinAdp (dropWork s v) x.adapter) x)) x.handle) x))))
    ∧ (∀ (i : Nat) (q : Qp), s.qp (bits v 0 32) = some (i, q) → q.fn = f → serDist (bits v 32 32) q.sqHead ≤ 2 ^ q.sqLog2 →
      (let n := serDist (bits v 32 32) q.sqHead
       let new := (List.range (n - q.posts.length)).map fun j => (s.cwt.nextOrd + j, s.now)
       let T := ({ s with cwt := { s.cwt with nextOrd := s.cwt.nextOrd + (n - q.posts.length) } } : State).setQp i { q with sqTail := bits v 32 32, posts := (q.posts ++ new).take n }
       exec (.qpSqDoorbell f v) s = goesOn s (sqRun (qpSave T i) i)))

/-- For a function of the port whose host port takes doorbells, a submission tail, completion head or receive-ring doorbell that names no queue or lies beyond its range, a result consume doorbell for a slot that is not finished, and a consume doorbell for a handle that names no context, change nothing but DB_ERR of the function, which advances by one and saturates. -/
def Obligations.DoorbellsOutOfRangeAreCounted : Prop :=
  ∀ (s : State) (f v : Nat), f < 64 → ideOpen s = true →
    (∀ q, (amGet q (s.fn f).sqs = none ∨ ∃ w, amGet q (s.fn f).sqs = some w ∧ (2 ^ 32 ≤ v ∨ 2 ^ w.log2 < (v + 2 ^ 32 - w.head % 2 ^ 32) % 2 ^ 32)) →
      exec (.sqTailDoorbell f q v) s = goesOn s (s.cnt (Reg.HIF_FN_ERR_DB_ERR.ofFn f) 1))
    ∧ (∀ q, (amGet q (s.fn f).cqs = none ∨ ∃ c, amGet q (s.fn f).cqs = some c ∧ (2 ^ 32 ≤ v ∨ c.written - c.consumed < (v + 2 ^ 32 - c.consumed % 2 ^ 32) % 2 ^ 32)) →
      exec (.cqHeadDoorbell f q v) s = goesOn s (s.cnt (Reg.HIF_FN_ERR_DB_ERR.ofFn f) 1))
    ∧ ((amGet (bits v 0 32) (s.fn f).rqs = none ∨ ∃ w, amGet (bits v 0 32) (s.fn f).rqs = some w ∧ 2 ^ w.log2 < (bits v 32 32 + 2 ^ 32 - w.taken % 2 ^ 32) % 2 ^ 32) →
      exec (.rqDoorbell f v) s = goesOn s (s.cnt (Reg.HIF_FN_ERR_DB_ERR.ofFn f) 1))
    ∧ ((1024 ≤ v ∨ amGet v (s.fn f).slots = none ∨ amGet v (s.fn f).slots = some .named) →
      exec (.resultConsume f v) s = goesOn s (s.cnt (Reg.HIF_FN_ERR_DB_ERR.ofFn f) 1))
    ∧ ((2 ^ 32 ≤ v ∨ s.ctx v = none) → exec (.consume f v) s = goesOn s (s.cnt (Reg.HIF_FN_ERR_DB_ERR.ofFn f) 1))

/-- Unmasking a vector sends its message where its pending bit is set and the function is awake, and the bit clears; in D3hot the bit stays, and with no pending bit nothing is sent. COAL_US after the first unsignalled entry, the timer signals the CQ; before that, with no such entry or with no COAL_US, it changes nothing. A function entering D3hot is asleep and nothing is sent; one leaving it is awake and its held completions and pending messages go out. An FLR of a virtual function leaves it awake with its vectors masked and no message pending, and cleans it up; clearing VF Enable cleans up every virtual function in turn. With nothing live the function is left with no queue, ring or slot, ENABLE and CLEANING 0 (log 112). Completes: cqCoalesceTimer, d3hotChange, msixUnmask, vfEnableClear, vfFlr. -/
def Obligations.VectorsAndFunctionStates : Prop :=
  ∀ (s : State) (f : Nat),
    (∀ vec, f < 64 → vec < 32 →
      let F := { s.fn f with unmasked := if (s.fn f).unmasked.contains vec then (s.fn f).unmasked else vec :: (s.fn f).unmasked, msixPending := (s.fn f).msixPending.filter (· ≠ vec) }
      (vec ∉ (s.fn f).msixPending → exec (.msixUnmask f vec) s = goesOn s (s.setFn f F))
      ∧ (vec ∈ (s.fn f).msixPending → (s.fn f).d3hot = false → exec (.msixUnmask f vec) s = goesOn s { s.setFn f F with sent := s.sent ++ [.msix f vec] })
      ∧ (vec ∈ (s.fn f).msixPending → (s.fn f).d3hot = true → exec (.msixUnmask f vec) s = goesOn s (s.setFn f { F with msixPending := (s.fn f).msixPending })))
    ∧ (∀ (q t : Nat) (c : Cq), f < 64 → amGet q (s.fn f).cqs = some c → c.firstUnsig = some t → c.coalUs ≠ 0 → t + c.coalUs * 1000 ≤ s.now →
      exec (.cqCoalesceTimer f q) s = goesOn s (cqSignal s f q c))
    ∧ (∀ q, f < 64 → (∀ (c : Cq) (t : Nat), amGet q (s.fn f).cqs = some c → c.firstUnsig = some t → c.coalUs = 0 ∨ s.now < t + c.coalUs * 1000) →
      exec (.cqCoalesceTimer f q) s = goesOn s s)
    ∧ (f < 64 → exec (.d3hotChange f true) s = goesOn s (s.setFn f { s.fn f with d3hot := true })
      ∧ exec (.d3hotChange f false) s = goesOn s (sendPendingMsix (drainAllCqs (s.setFn f { s.fn f with d3hot := false }) f) f))
    ∧ (1 ≤ f → f < 64 → exec (.vfFlr f) s = goesOn s (cleanFn (s.setFn f { s.fn f with d3hot := false, unmasked := [], msixPending := [] }) f))
    ∧ exec .vfEnableClear s = goesOn s ((List.range 63).foldl (fun t i => cleanFn t (i + 1)) s)
    ∧ (1 ≤ f → f < 64 → cleanDone s f = true → ∃ t, exec (.vfFlr f) s = .next t
      ∧ t.fn f = { Fn.reset with arb := Arb.empty } ∧ t.fr f Reg.HIF_ADMQ_CFG_ENABLE = 0 ∧ t.fr f Reg.HIF_FN_STATUS_CLEANING = 0
      ∧ t.mem = s.mem ∧ t.sent = s.sent ∧ ∀ g, g ≠ f → t.fn g = s.fn g)
    ∧ ((∀ g, 1 ≤ g → g < 64 → cleanDone s g = true) → ∃ t, exec .vfEnableClear s = .next t ∧ t.fn 0 = s.fn 0 ∧ t.mem = s.mem ∧ t.sent = s.sent
      ∧ ∀ g, 1 ≤ g → g < 64 → (t.fn g).sqs = [] ∧ (t.fn g).cqs = [] ∧ (t.fn g).rqs = [] ∧ (t.fn g).slots = []
        ∧ t.fr g Reg.HIF_ADMQ_CFG_ENABLE = 0 ∧ t.fr g Reg.HIF_FN_STATUS_CLEANING = 0)

/-- An access that is not 4 or 8 bytes, is not naturally aligned, or is at an address no row covers changes nothing but UNMAPPED of the writing function, which advances by one and saturates. An aligned 4-byte write at a register's own first word, and an 8-byte write at a 64-bit register, act on that register, as read from the register map. A register without a behaviour of its own is written field by field. An address in a covered range with no register is left alone and not counted (log 13). -/
def Obligations.RegisterWritesReachTheirRegister : Prop :=
  ∀ (s : State) (fn off v : Nat), fn < 64 →
    (∀ size, (¬ (size = 4 ∨ size = 8) ∨ off % size ≠ 0 ∨ barAddr fn off = none) →
      exec (.registerWrite fn off size v) s = goesOn s (s.cnt (Reg.HIF_FN_ERR_UNMAPPED.ofFn fn) 1))
    ∧ (∀ (a d : Nat) (row : RegRow), off % 4 = 0 → barAddr fn off = some a → saAddr a = none → ¬ (0x1020000 ≤ a ∧ a < 0x1021000) →
      regAt a = some (row, d) → exec (.registerWrite fn off 4 v) s = goesOn s (registerPut s fn row d (v % 2 ^ 32) 0 32))
    ∧ (∀ (a d : Nat) (row : RegRow), off % 8 = 0 → barAddr fn off = some a → saAddr a = none → regAt a = some (row, d) → row.width = 64 →
      exec (.registerWrite fn off 8 v) s = goesOn s (registerPut s fn row d (v % 2 ^ 64) 0 64))
    ∧ (∀ a, off % 4 = 0 → barAddr fn off = some a → saAddr a = none → ¬ (0x1020000 ≤ a ∧ a < 0x1021000) → dwordReg a = none →
      exec (.registerWrite fn off 4 v) s = goesOn s s)
    ∧ (∀ (row : RegRow) (d lo hi : Nat), row.off ∉ ownRegs → registerPut s fn row d v lo hi = plainWrite s fn row d v lo hi)

/-- Where a write covers a whole field: a RO or WO field is unchanged; an RW field takes the written bits; a W1C field has each bit cleared where the written bit is 1 and unchanged where it is 0; a W1S field has each bit set where the written bit is 1 and unchanged where it is 0; an RWL field is as RW until locked and then unchanged. Every other field keeps its value. (That a write to a locked field is recorded is in plainWrite and no clause here; a WO field's action is its register's own.) -/
def Obligations.FieldsAreWrittenByAccessType : Prop :=
  ∀ (locked : Bool) (r : Regs) (f g : Fld) (v lo hi : Nat), lo ≤ f.lo → f.lo + f.w ≤ hi → 0 < f.w → regGet r f < 2 ^ f.w →
    ((f.acc = .ro ∨ f.acc = .wo) → partWrite locked r f v lo hi = r)
    ∧ (f.acc = .rw → regGet (partWrite locked r f v lo hi) f = bits v f.lo f.w)
    ∧ (f.acc = .w1c → ∀ i, i < f.w → (regGet (partWrite locked r f v lo hi) f).testBit i = ((regGet r f).testBit i && !(bits v f.lo f.w).testBit i))
    ∧ (f.acc = .w1s → ∀ i, i < f.w → (regGet (partWrite locked r f v lo hi) f).testBit i = ((regGet r f).testBit i || (bits v f.lo f.w).testBit i))
    ∧ (f.acc = .rwl → locked = false → regGet (partWrite locked r f v lo hi) f = bits v f.lo f.w)
    ∧ (f.acc = .rwl → locked = true → partWrite locked r f v lo hi = r)
    ∧ (g.key ≠ f.key → regGet (partWrite locked r f v lo hi) g = regGet r g)

/-- Writing 1 to ERROR of a stand's attention or codec status reopens that queue and clears the error and its detail. A non-zero MiB value in TIR_FELL_KICK starts a pass of that target where felling is enabled and none runs. A 1 in CWT_OBS_CTL.SNAP makes each live bank the snapshot of its observer, leaves the live banks clear and records the time, where the observers were not sampled at this time and no copy was made at it; a second copy at one time changes nothing; a changed CWT_OBS_SEL takes the new kind and index and marks the observer for clearing. A 1 in SCB_CTL.FLUSH starts a flush, and in CIRC_CLEAR empties the circulating area alone (log 15). A new head of the fault queue between the old one and the tail is taken, and held records go out. A write to MGT_FLT_SWREPORT posts one record of severity 6 with its status, detail and tag. -/
def Obligations.ControlWritesAct : Prop :=
  ∀ (s : State) (v : Nat),
    (∀ st, st < 64 → bit v 31 = true → exec (.attErrorClear st v) s = goesOn s
      (((s.setStand st { s.stand st with attErr := false }).setR (Reg.STD_ATT_STATUS_ERROR.at 0x10000 st) 0).setR (Reg.STD_ATT_STATUS_DETAIL.at 0x10000 st) 0))
    ∧ (∀ st, st < 64 → bit v 31 = true → exec (.cdcErrorClear st v) s = goesOn s
      (((s.setStand st { s.stand st with cdcErr := false }).setR (Reg.STD_CDC_STATUS_ERROR.at 0x10000 st) 0).setR (Reg.STD_CDC_STATUS_DETAIL.at 0x10000 st) 0))
    ∧ (bits v 0 20 ≠ 0 → s.r Reg.TIR_FELL_CFG_ENABLE ≠ 0 → s.tir.pass = none → exec (.tirFellKick v) s = goesOn s
      ((({ s with tir := { s.tir with pass := some ⟨bits v 0 20 * 2 ^ 20, 0, 0, 0, 0, [], []⟩ } } : State).setR Reg.TIR_FELL_STATUS_RUNNING 1).wrap Reg.TIR_FELL_STATUS_PASSES 1))
    ∧ (bit v 0 = true →
       (s.cwt.obsSnapAt ≠ some s.now → s.cwt.obsAt ≠ some s.now → exec (.obsSnap v) s = goesOn s
        (({ s with cwt := { s.cwt with obs := (amFilter (fun k _ => k % 2 == 0) s.cwt.obs).foldl (fun m e => amSet (e.1 + 1) e.2 m) [], obsPrev := [], obsSnapAt := some s.now } } : State).setR
          Reg.CWT_OBS_SNAP_TIME_TIME s.now))
       ∧ (s.cwt.obsSnapAt = some s.now → exec (.obsSnap v) s = goesOn s s))
    ∧ (∀ o, o < 256 → (s.r (Reg.CWT_OBS_SEL_KIND.at 4 o) ≠ bits v 28 4 ∨ s.r (Reg.CWT_OBS_SEL_INDEX.at 4 o) ≠ bits v 0 16) →
      exec (.obsSelWrite o v) s = goesOn s
        (let t := (s.setR (Reg.CWT_OBS_SEL_KIND.at 4 o) (bits v 28 4)).setR (Reg.CWT_OBS_SEL_INDEX.at 4 o) (bits v 0 16)
         { t with cwt := { s.cwt with obsClear := if s.cwt.obsClear.contains o then s.cwt.obsClear else o :: s.cwt.obsClear } }))
    ∧ (bit v 0 = true → s.scb.flushing = false → exec (.scbFlushWrite v) s = goesOn s { s with scb := { s.scb with flush := scbSelect s, flushing := true } })
    ∧ (bit v 1 = true → exec (.circClear v) s = goesOn s { s with scb := { s.scb with mram := { s.scb.mram with circArea := [] } } })
    ∧ (v < 2 ^ 32 → s.r Reg.MGT_FLT_HEAD_HEAD ≤ v → v ≤ s.mgt.fltTail →
      exec (.faultHeadWrite v) s = goesOn s (fltDrain (s.setR Reg.MGT_FLT_HEAD_HEAD v) s.mgt.fltHeld.length))
    ∧ exec (.swreport v) s = goesOn s (postFault s { faultRec Src.software Act.recorded 6 0 (bits v 24 8) (bits v 16 8) with jobTag := bits v 32 32 })

/-- A write to HIF_FLEX_IND_CTL while an access is busy changes nothing; otherwise it takes CFG, WRITE and ADDR, sets BUSY, notes the time and sends the access where the port is live. An end of no busy access, with a reserved result, or a timeout before 50 ms, changes nothing; otherwise it clears BUSY, sets RESULT and, for a good read, DATA, of which a configuration read gives the low 32 bits. A MACsec word other than the last lands in its slot; the last makes the slot valid with its packet numbers restarted. A write to CWT_PORT_CFG takes ENABLE and LASER_EN, and MACSEC, BREAKOUT and SUB_EN where the port was not enabled, and changes registers alone. Clearing ENABLE of a window that is on closes it and its waiting releases stall; writing 1 to it changes nothing. For one that is off, slots that do not fit change nothing; else its fields are taken, and with ENABLE 1, a registered model and a port that may serve it the window opens with its counters at 0 and the releases of the model that found none bind. A write of 0 to ENABLE of HIF_ADMQ_CFG takes the sizes and vector and cleans the function up, one that enables a function sets up the admin pair empty, and one while it is enabled or in clean-up takes the fields alone. The reset key resets a part that is not in PS4, and other keys do nothing. A COMMAND_FETCH with no queue ready changes nothing; otherwise it takes the command at the head of a ready queue, advances that head and performs the command, or where the host refuses the read disables the queues of the function; with one queue ready it is that one. A write of HIF_EVT_CFG sets the register, and sends one message of a cause that it enables and that is pending. Completes: admqEnableWrite, commandFetch, flexIndDone, flexIndStart, hifEvtCfgWrite, laserEnWrite, macsecSaWrite, pwrReset, xwEnableWrite. -/
def Obligations.PortWritesAct : Prop :=
  ∀ (s : State) (v : Nat),
    (∀ q, q < 8 → s.r (Reg.HIF_FLEX_IND_CTL_BUSY.at 0x20 q) = 1 → exec (.flexIndStart q v) s = goesOn s s)
    ∧ (∀ q, q < 8 → s.r (Reg.HIF_FLEX_IND_CTL_BUSY.at 0x20 q) ≠ 1 → ∃ t, exec (.flexIndStart q v) s = .next t
      ∧ t.r (Reg.HIF_FLEX_IND_CTL_BUSY.at 0x20 q) = 1 ∧ t.r (Reg.HIF_FLEX_IND_CTL_CFG.at 0x20 q) = bits v 60 1
      ∧ t.r (Reg.HIF_FLEX_IND_CTL_WRITE.at 0x20 q) = bits v 59 1 ∧ t.r (Reg.HIF_FLEX_IND_CTL_ADDR.at 0x20 q) = bits v 3 48
      ∧ t.sent = (if portLive s q = true then s.sent ++ [.indirect q (8 * bits v 3 48) (bit v 60) (bit v 59) (s.r (Reg.HIF_FLEX_IND_DATA_DATA.at 0x20 q))] else s.sent)
      ∧ amGet q t.cwt.indAt = some s.now ∧ t.mem = s.mem)
    ∧ (∀ q result, q < 8 → (s.r (Reg.HIF_FLEX_IND_CTL_BUSY.at 0x20 q) = 0 ∨ 3 < result ∨ (result = 3 ∧ s.now < amGetD q 0 s.cwt.indAt + 50000000)) → exec (.flexIndDone q result v) s = goesOn s s)
    ∧ (∀ q result, q < 8 → s.r (Reg.HIF_FLEX_IND_CTL_BUSY.at 0x20 q) ≠ 0 → (result < 3 ∨ (result = 3 ∧ amGetD q 0 s.cwt.indAt + 50000000 ≤ s.now)) → ∃ t, exec (.flexIndDone q result v) s = .next t
      ∧ t.r (Reg.HIF_FLEX_IND_CTL_BUSY.at 0x20 q) = 0 ∧ t.r (Reg.HIF_FLEX_IND_CTL_RESULT.at 0x20 q) = result ∧ t.mem = s.mem ∧ t.sent = s.sent
      ∧ (s.r (Reg.HIF_FLEX_IND_CTL_WRITE.at 0x20 q) = 0 → s.r (Reg.HIF_FLEX_IND_CTL_CFG.at 0x20 q) ≠ 1 → result = 0 →
          t.r (Reg.HIF_FLEX_IND_DATA_DATA.at 0x20 q) = v % 2 ^ 64)
      ∧ (s.r (Reg.HIF_FLEX_IND_CTL_WRITE.at 0x20 q) = 0 → s.r (Reg.HIF_FLEX_IND_CTL_CFG.at 0x20 q) = 1 → result = 0 →
          t.r (Reg.HIF_FLEX_IND_DATA_DATA.at 0x20 q) % 2 ^ 32 = v % 2 ^ 32)
      ∧ ((s.r (Reg.HIF_FLEX_IND_CTL_WRITE.at 0x20 q) ≠ 0 ∨ result ≠ 0) → t.r (Reg.HIF_FLEX_IND_DATA_DATA.at 0x20 q) = s.r (Reg.HIF_FLEX_IND_DATA_DATA.at 0x20 q)))
    ∧ (∀ p n k, p < 8 → n < 2 → k < 8 →
        (k ≠ 7 → exec (.macsecSaWrite p n k v) s = goesOn s
          (setSa s p n { saSlot s p n with bytes := (saSlot s p n).bytes.take (8 * k) ++ leBytes 8 v ++ (saSlot s p n).bytes.drop (8 * k + 8) }))
        ∧ (k = 7 → exec (.macsecSaWrite p n k v) s = goesOn s
          ((setSa s p n ⟨(saSlot s p n).bytes.take 56 ++ leBytes 8 v ++ (saSlot s p n).bytes.drop 64, true, 1, 0⟩).setR
            ((if n = 0 then Reg.CWT_PORT_MACSEC_VALID0 else Reg.CWT_PORT_MACSEC_VALID1).at 0x100 p) 1)))
    ∧ (∀ p, p < 8 → ∃ t, exec (.laserEnWrite p v) s = .next t ∧ t.r (Reg.CWT_PORT_CFG_ENABLE.at 0x100 p) = bits v Reg.CWT_PORT_CFG_ENABLE.lo 1
        ∧ t.r (Reg.CWT_PORT_CFG_LASER_EN.at 0x100 p) = bits v Reg.CWT_PORT_CFG_LASER_EN.lo Reg.CWT_PORT_CFG_LASER_EN.w
        ∧ (s.r (Reg.CWT_PORT_CFG_ENABLE.at 0x100 p) = 1 → t.r (Reg.CWT_PORT_CFG_MACSEC.at 0x100 p) = s.r (Reg.CWT_PORT_CFG_MACSEC.at 0x100 p)
            ∧ t.r (Reg.CWT_PORT_CFG_BREAKOUT.at 0x100 p) = s.r (Reg.CWT_PORT_CFG_BREAKOUT.at 0x100 p) ∧ t.r (Reg.CWT_PORT_CFG_SUB_EN.at 0x100 p) = s.r (Reg.CWT_PORT_CFG_SUB_EN.at 0x100 p))
        ∧ (s.r (Reg.CWT_PORT_CFG_ENABLE.at 0x100 p) ≠ 1 → t.r (Reg.CWT_PORT_CFG_MACSEC.at 0x100 p) = bits v Reg.CWT_PORT_CFG_MACSEC.lo Reg.CWT_PORT_CFG_MACSEC.w
            ∧ t.r (Reg.CWT_PORT_CFG_BREAKOUT.at 0x100 p) = bits v Reg.CWT_PORT_CFG_BREAKOUT.lo Reg.CWT_PORT_CFG_BREAKOUT.w ∧ t.r (Reg.CWT_PORT_CFG_SUB_EN.at 0x100 p) = bits v Reg.CWT_PORT_CFG_SUB_EN.lo Reg.CWT_PORT_CFG_SUB_EN.w)
        ∧ { t with regs := s.regs } = s)
    ∧ (∀ w, w < 64 → winOn s w = true → bit v 63 = false → exec (.xwEnableWrite w v) s = goesOn s
        (((s.setR (Reg.HIF_XW_CFG_ENABLE.at 0x40 w) 0).win w).waiting.filter (fun r => r.kind != 4) |>.foldl (fun s r => stallBegin s r.handle St.exchange)
          (s.setR (Reg.HIF_XW_CFG_ENABLE.at 0x40 w) 0)))
    ∧ (∀ w, w < 64 → winOn s w = true → bit v 63 = true → exec (.xwEnableWrite w v) s = goesOn s s)
    ∧ (∀ w, w < 64 → winOn s w = false →
        (let fits := 0x10000 + min 64 (max 2 (bits v 48 8)) * (max 1 (bits v 32 16) * 65536) ≤ 0x10000000
         let U := (((s.setR (Reg.HIF_XW_CFG_PORT.at 0x40 w) (bits v 56 4)).setR (Reg.HIF_XW_CFG_SLOTS.at 0x40 w) (bits v 48 8)).setR (Reg.HIF_XW_CFG_SLOT_64K.at 0x40 w) (bits v 32 16)).setR (Reg.HIF_XW_CFG_MODEL.at 0x40 w) (bits v 0 16)
         let may := bits v 0 16 ≠ 0 ∧ amHas (bits v 0 16) U.sch.models = true
           ∧ (winPort U w < 8 → U.r (Reg.HIF_FLEX_CFG_MODE.at 0x20 (winPort U w)) ≠ 2 ∧ (U.r Reg.KEY_POLICY_REQUIRE_IDE ≠ 1 ∨ portSecure U (winPort U w) = true))
         (¬ fits → exec (.xwEnableWrite w v) s = goesOn s s)
         ∧ (fits → (bit v 63 = false ∨ ¬ may) → exec (.xwEnableWrite w v) s = goesOn s U)
         ∧ (fits → bit v 63 = true → may → exec (.xwEnableWrite w v) s = goesOn s
             (let V := U.setR (Reg.HIF_XW_CFG_ENABLE.at 0x40 w) 1
              bindUnbound (V.setWin w { V.win w with rcount := 0, rhead := 0, dcount := 0 }) (bits v 0 16)))))
    ∧ (∀ f, f < 64 →
        (let U := ((s.setR (Reg.HIF_ADMQ_CFG_SQ_LOG2.ofFn f) (bits v Reg.HIF_ADMQ_CFG_SQ_LOG2.lo Reg.HIF_ADMQ_CFG_SQ_LOG2.w)).setR (Reg.HIF_ADMQ_CFG_CQ_LOG2.ofFn f) (bits v Reg.HIF_ADMQ_CFG_CQ_LOG2.lo Reg.HIF_ADMQ_CFG_CQ_LOG2.w)).setR (Reg.HIF_ADMQ_CFG_VECTOR.ofFn f) (bits v Reg.HIF_ADMQ_CFG_VECTOR.lo Reg.HIF_ADMQ_CFG_VECTOR.w)
         (bit v 31 = false → exec (.admqEnableWrite f v) s = goesOn s (cleanFn U f))
         ∧ (bit v 31 = true → (s.fr f Reg.HIF_FN_STATUS_CLEANING = 1 ∨ s.fr f Reg.HIF_ADMQ_CFG_ENABLE = 1) → exec (.admqEnableWrite f v) s = goesOn s U)))
    ∧ (∀ f, f < 64 → bit v 31 = true → s.fr f Reg.HIF_FN_STATUS_CLEANING = 0 → s.fr f Reg.HIF_ADMQ_CFG_ENABLE = 0 →
        ∃ t, exec (.admqEnableWrite f v) s = .next t ∧ t.fr f Reg.HIF_ADMQ_CFG_ENABLE = 1
          ∧ (∃ w, amGet 0 (t.fn f).sqs = some w ∧ w.base = s.fr f Reg.HIF_ADMQ_BASE_BASE * 4096 ∧ w.head = 0 ∧ w.tail = 0 ∧ w.cq = 0)
          ∧ (∃ c, amGet 0 (t.fn f).cqs = some c ∧ c.base = s.fr f Reg.HIF_ADMCQ_BASE_BASE * 4096 ∧ c.typ = 0 ∧ c.written = 0 ∧ c.consumed = 0)
          ∧ t.mem = s.mem ∧ t.sent = s.sent)
    ∧ ((v % 256 = 0xA5 → pwr s ≠ 4 → exec (.pwrReset v) s = goesOn s (controllerReset s 6)) ∧ (v % 256 ≠ 0xA5 → exec (.pwrReset v) s = goesOn s s))
    ∧ (∀ (f q : Nat) (w : Sq), f < 64 → amGet q (s.fn f).sqs = some w → (q, w) ∈ (s.fn f).sqs → sqReady s f q w = true → s.dmaOk f (sqEntryAddr w) 64 = true →
        (∀ g, g < 64 → ∀ e ∈ (s.fn g).sqs, sqReady s g e.1 e.2 = true → g = f ∧ e = (q, w)) →
        ∃ a b, exec .commandFetch s = goesOn s
          (afterOp (cmdOfEntry f q (s.rd (hostXA (sqEntryAddr w)) 64)).1 (cmdOfEntry f q (s.rd (hostXA (sqEntryAddr w)) 64)).2
            (let u := ({ s with hif := { s.hif with arb := a } } : State).setFn f { s.fn f with arb := b }
             u.setFn f { u.fn f with sqs := amSet q { w with head := w.head + 1, since := s.now } (s.fn f).sqs })))
    ∧ ((∀ f, f < 64 → ∀ e ∈ (s.fn f).sqs, sqReady s f e.1 e.2 = false) → exec .commandFetch s = goesOn s s)
    ∧ ((∃ f, f < 64 ∧ ∃ e ∈ (s.fn f).sqs, sqReady s f e.1 e.2 = true) →
        ∃ f q w a b, f < 64 ∧ amGet q (s.fn f).sqs = some w ∧ (∃ x, (q, x) ∈ (s.fn f).sqs ∧ sqReady s f q x = true)
          ∧ (let u := ({ s with hif := { s.hif with arb := a } } : State).setFn f { s.fn f with arb := b }
             let t := u.setFn f { u.fn f with sqs := amSet q { w with head := w.head + 1, since := s.now } (s.fn f).sqs }
             let e := cmdOfEntry f q (s.rd (hostXA (sqEntryAddr w)) 64)
             exec .commandFetch s = goesOn s (if s.dmaOk f (sqEntryAddr w) 64 = true then afterOp e.1 e.2 t else dmaWriteFail t f (sqEntryAddr w))))
    ∧ (let s' : State := { s with regs := rowWrite (rwlLocked s) s.regs evtCfgRow 0 v }
       let rises (c : Nat) : Prop := s.r (eventCfg c).1 = 0 ∧ s'.r (eventCfg c).1 = 1 ∧ causePending s' c = true
       ((∀ c, c < 4 → ¬ rises c) → exec (.hifEvtCfgWrite v) s = goesOn s s')
       ∧ (∀ c, c < 4 → rises c → (∀ d, d < 4 → d ≠ c → ¬ rises d) → exec (.hifEvtCfgWrite v) s = goesOn s (eventMessage s' c)))

/-- A packet of an opcode that consumes credit takes 1 + ceil(PAYLOAD_LEN / 512) units, so a full packet takes 18; READ_RESP and ATOMIC_RESP take none. -/
def Obligations.PacketCreditUnits : Prop :=
  (∀ op ∈ [Cw.send, Cw.write, Cw.readReq, Cw.atomic, Cw.reduce, Cw.mcast], ∀ len u,
    (cwUnits op len = u ↔ ∃ k, u = 1 + k ∧ len ≤ 512 * k ∧ 512 * k < len + 512) ∧ cwUnits op cwMax = 18)
  ∧ ∀ len, cwUnits Cw.readResp len = 0 ∧ cwUnits Cw.atomicResp len = 0

/-- Where k ports of the destination's PORT_MASK are up, a packet on a path leaves on the up port p of the mask below which exactly path mod k up ports of the mask lie, and, where u sub-ports of p are up, on the up sub-port of p below which exactly floor(path / k) mod u up sub-ports lie, counting in ascending order. -/
def Obligations.PathsNamePortsAndSubPorts : Prop :=
  ∀ (s : State) (e : NodeEnt) (path p sub : Nat),
    let up (q : Nat) : Bool := bit e.mask q && portUp s q
    let k := (List.range 8).countP up
    let subUp (j : Nat) : Bool := bit (s.r (Reg.CWT_PORT_STATUS_UP.at 0x100 p)) j && bit (s.r (Reg.CWT_PORT_CFG_SUB_EN.at 0x100 p)) j
    let u := (List.range (subPorts s p)).countP subUp
    0 < k → p < 8 → up p = true → (List.range p).countP up = path % k →
    sub < subPorts s p → subUp sub = true → (List.range sub).countP subUp = path / k % u →
    pathPort s e path = some (p, sub)

/-- Entry n of a CQ, counted from 0 at creation, is written at slot n mod 2^size as one 32-byte image whose PHASE is bit 0 of floor(n / 2^size) + 1 and whose other bits are the completion's, and no other byte of memory changes. (The order in which software reads an entry is software's.) -/
def Obligations.CompletionEntriesPhase : Prop :=
  ∀ (s : State) (f q : Nat) (c : Cq) (img : List Byte),
    img.length = 32 → bit (leField img 0x13 1) 0 = false → s.dmaOk f (c.base + 32 * (c.written % 2 ^ c.log2)) 32 = true →
    let t := cqWrite s f q c img
    let a := hostXA (c.base + 32 * (c.written % 2 ^ c.log2))
    let phase := (c.written / 2 ^ c.log2 + 1) % 2
    (∀ i, i < 32 → i ≠ 0x13 → memRead t.mem (a + i) = img.getD i 0)
    ∧ (memRead t.mem (a + 0x13)).toNat = leField img 0x13 1 + phase
    ∧ (∀ x, x < a ∨ a + 32 ≤ x → memRead t.mem x = memRead s.mem x)
    ∧ (amGet q (t.fn f).cqs).map Cq.written = some (c.written + 1)

/-- The CRC-32C starts from 0xFFFF_FFFF; each bit of each byte, least significant first, is taken into the low end of the register, which moves right by one and takes the reflected polynomial 0x82F6_3B78 where the bit moved out is 1; the result is the register XOR 0xFFFF_FFFF. Over the ASCII bytes "123456789" it is 0xE306_9283. A Celwald packet and a stream header hold it little-endian. -/
def Obligations.CastagnoliCrc : Prop :=
  (∀ l : List Byte, crc32c l =
    ((l.foldl (fun (r : BitVec 32) b => (List.range 8).foldl (fun (x : BitVec 32) _ => if x.getLsbD 0 then x >>> 1 ^^^ 0x82F63B78#32 else x >>> 1) (r ^^^ b.setWidth 32)) 0xFFFFFFFF#32)
      ^^^ 0xFFFFFFFF#32).toNat)
  ∧ crc32c [0x31, 0x32, 0x33, 0x34, 0x35, 0x36, 0x37, 0x38, 0x39] = 0xE3069283
  ∧ ∀ (p : Packet) (op i : Nat), i < 4 →
    let b := pkHeader p op ++ p.ext ++ p.payload ++ (if pkSealed p then fit 16 p.tag else [])
    pkBody p op = b ++ leBytes 4 (crc32c b) ∧ ((leBytes 4 (crc32c b)).getD i 0).toNat = crc32c b / 256 ^ i % 256

/-- With c the spare lane of a port, logical lane L is carried on lane L where L is below c and on lane L + 1 otherwise, as CWT_PORT_LANE reports: so at reset, with c lane 8; every move of the spare to a lane beside it keeps the rule with the new c; a walk to any lane ends with that lane as c; and once a lane is retired SPARE_ROTATE leaves the state, hence the mapping, as it is. -/
def Obligations.SpareLaneMapping : Prop :=
  let Holds (s : State) (p c : Nat) : Prop := mapped s p c = 0xF ∧ ∀ L, L < 8 → mapped s p (if L < c then L else L + 1) = L
  (∀ p, p < 8 → Holds State.reset p 8)
  ∧ (∀ (s : State) (p c d : Nat), p < 8 → c < 9 → d < 9 → (d = c + 1 ∨ c = d + 1) → Holds s p c → Holds (spareMove s p c d) p d)
  ∧ (∀ (s : State) (p c l : Nat), p < 8 → c < 9 → l < 9 → retiredLane s p ≠ c → Holds s p c → Holds (walkTo s p l) p l)
  ∧ (∀ (s : State) (p : Nat) (a b : Bool), p < 8 → spareUsed s p = true → exec (.spareRotate p a b) s = goesOn s s)

/-- For each of the 24 operations of scalarRows (ADD, SUB, AND, OR, XOR, SHL, SHR, SAR, MUL, MIN, MAX, MINU, MAXU, ADDI, ANDI, ORI, XORI, SHLI, SHRI, SARI, LI, LSH, MOVS, RDTIME): where slot C of the bundle that a stand issues holds it and its predicate reads 1, the command completes, and the frame's result registers take sD := the row's exact integer modulo 2^64 (nothing where D is 0); the slot then counts as run, and the bundle ends once all its slots have run. That one row acts on one slot of the bundle is the model's choice (log 79). Completes: add, sub, and, or, xor, shl, shr, sar, mul, min, max, minu, maxu, addi, andi, ori, xori, shli, shri, sari, li, lsh, movs, rdtime. -/
def Obligations.ScalarOperationsCompute : Prop :=
  ∀ e ∈ scalarRows, ∀ (s : State) (st f b : Nat) (F : Frame),
    slotIssues s st slotC e.2.1 f F b = true → predOf F b slotC = true →
    exec (e.1 st) s = goesOn s (slotDone s st f b
      (let w := slotBits b slotC
       if fD w = 0 then F.ran slotC
       else { F.ran slotC with next := { F.next with sc := amSet (fD w) (BitVec.ofInt 64 (e.2.2 s F w)) F.next.sc } }))

/-- For LI_A, ADDA and MOVA, and for the ten compares and the four predicate operations: where slot C of the bundle that a stand issues holds one and its predicate reads 1, the command completes, and the frame's result registers take aD := the row's exact integer modulo 2^32 (nothing where D is 0), or pD := the row's Boolean (nothing where PD is 0); the slot then counts as run. Completes: liA, adda, mova, cmpEq, cmpNe, cmpLt, cmpGe, cmpLtu, cmpGeu, cmpiEq, cmpiNe, cmpiLt, cmpiGe, pand, por, pandn, pxor. -/
def Obligations.AddressAndPredicateOperationsCompute : Prop :=
  (∀ e ∈ addressRows, ∀ (s : State) (st f b : Nat) (F : Frame),
    slotIssues s st slotC e.2.1 f F b = true → predOf F b slotC = true →
    exec (e.1 st) s = goesOn s (slotDone s st f b
      (let w := slotBits b slotC
       if fD w = 0 then F.ran slotC
       else { F.ran slotC with next := { F.next with ad := amSet (fD w) (BitVec.ofInt 32 (e.2.2 F w)) F.next.ad } })))
  ∧ (∀ e ∈ predicateRows, ∀ (s : State) (st f b : Nat) (F : Frame),
    slotIssues s st slotC e.2.1 f F b = true → predOf F b slotC = true →
    exec (e.1 st) s = goesOn s (slotDone s st f b
      (let w := slotBits b slotC
       if fPD w = 0 then F.ran slotC
       else { F.ran slotC with next := { F.next with pr := amSet (fPD w) (e.2.2 F w) F.next.pr } })))

/-- For every operation of the four slots: where the bundle that a stand issues holds it and the predicate of its slot reads 0, the command completes, no register, deck byte or queue is written and no branch is taken by it: the slot only counts as run, and the bundle ends once all its slots have run. -/
def Obligations.PredicateZeroDoesNothing : Prop :=
  ∀ g ∈ [(slotC, cOps), (slotM, mOps), (slotA, aOps), (slotV, vOps)], ∀ e ∈ g.2, ∀ (s : State) (st f b : Nat) (F : Frame),
    slotIssues s st g.1 e.2 f F b = true → predOf F b g.1 = false →
    exec (e.1 st) s = goesOn s (slotDone s st f b (F.ran g.1))

/-- For the five loads, the seven stores and DCPY in slot C, and VLD and VST in slot V, of the bundle that a stand issues, with predicate 1: where the bytes lie in the usable window, a load writes sD with the little-endian number read, zero- or sign-extended (nothing where D is 0); a store records its bytes for the end of the bundle; DCPY records the n bytes read at aS + OFF14 for aD; VLD writes the 64 lanes of vD and VST records its 256 bytes; each counts as run. Where the range is not usable, the command ends the frame in a program fault with STD_WINDOW at the bundle's address, with the registers, queue and deck as they were. Completes: ldB, ldH, ldW, ldD, ldWs, stB, stH, stW, stD, stiB, stiH, stiW, dcpy, vld, vst. -/
def Obligations.DeckLoadsAndStores : Prop :=
  (∀ e ∈ loadRows, ∀ (s : State) (st f b : Nat) (F : Frame),
    slotIssues s st slotC e.2.1 f F b = true → predOf F b slotC = true →
    (let w := slotBits b slotC
     let S := s.stand st
     (Usable S.depth (cmAddr F w) e.2.2.1 →
      exec (e.1 st) s = goesOn s (slotDone s st f b
        (if fD w = 0 then F.ran slotC else { F.ran slotC with
          next := { F.next with sc := amSet (fD w) (BitVec.ofInt 64 (e.2.2.2 (leNat (memReadN S.deck (winAt S.depth f + cmAddr F w) e.2.2.1)))) F.next.sc } })))
     ∧ (¬ Usable S.depth (cmAddr F w) e.2.2.1 → exec (e.1 st) s = goesOn s (progFault s st f Detail.STD_WINDOW F.pc))))
  ∧ (∀ e ∈ storeRows, ∀ (s : State) (st f b : Nat) (F : Frame),
    slotIssues s st slotC e.2.1 f F b = true → predOf F b slotC = true →
    (let w := slotBits b slotC
     (Usable (s.stand st).depth (e.2.2.1 F w) e.2.2.2.1 →
      exec (e.1 st) s = goesOn s (slotDone s st f b
        { F.ran slotC with stores := F.stores ++ [(slotC, e.2.2.1 F w, leBytes e.2.2.2.1 (e.2.2.2.2 F w))] }))
     ∧ (¬ Usable (s.stand st).depth (e.2.2.1 F w) e.2.2.2.1 → exec (e.1 st) s = goesOn s (progFault s st f Detail.STD_WINDOW F.pc))))
  ∧ (∀ (s : State) (st f b : Nat) (F : Frame), slotIssues s st slotC 0x50 f F b = true → predOf F b slotC = true →
    (let w := slotBits b slotC
     let S := s.stand st
     let n := 8 * (bits w 0 8 + 1)
     let src := ((F.a (bits w 22 4)).toNat + bits w 8 14) % 2 ^ 32
     let dst := (F.a (bits w 26 4)).toNat
     (Usable S.depth src n → Usable S.depth dst n →
      exec (.dcpy st) s = goesOn s (slotDone s st f b { F.ran slotC with stores := F.stores ++ [(slotC, dst, memReadN S.deck (winAt S.depth f + src) n)] }))
     ∧ (¬ (Usable S.depth src n ∧ Usable S.depth dst n) → exec (.dcpy st) s = goesOn s (progFault s st f Detail.STD_WINDOW F.pc))))
  ∧ (∀ (s : State) (st f b : Nat) (F : Frame), predOf F b slotV = true →
    (let w := slotBits b slotV
     let S := s.stand st
     let at_ := ((F.a (vA w)).toNat + 256 * vOff w) % 2 ^ 32
     (slotIssues s st slotV 0x10 f F b = true → Usable S.depth at_ 256 →
      exec (.vld st) s = goesOn s (slotDone s st f b
        ((F.ran slotV).setV (vD w) fun i => BitVec.ofNat 32 (leField (memReadN S.deck (winAt S.depth f + at_) 256) (4 * i) 4))))
     ∧ (slotIssues s st slotV 0x11 f F b = true → Usable S.depth at_ 256 →
      exec (.vst st) s = goesOn s (slotDone s st f b
        { F.ran slotV with stores := F.stores ++ [(slotV, at_, (List.range 64).flatMap fun i => leBytes 4 (F.v (vD w) i).toNat)] }))
     ∧ (¬ Usable S.depth at_ 256 →
       (slotIssues s st slotV 0x10 f F b = true → exec (.vld st) s = goesOn s (progFault s st f Detail.STD_WINDOW F.pc))
       ∧ (slotIssues s st slotV 0x11 f F b = true → exec (.vst st) s = goesOn s (progFault s st f Detail.STD_WINDOW F.pc)))))

/-- In slot C of the bundle that a stand issues, with predicate 1: BR, BZ where sS is 0 and BNZ where sS is not 0 make TARGET the next bundle, and BZ and BNZ otherwise only count as run; HALT ends the frame with status sX[7:0] and detail sX[15:8]; a wait goes by the commands that the frame had issued before this bundle: of ticket 0 it writes OK, of a ticket more than 64 commands older than the latest it writes STALE, of a finished one it writes its status in [7:0] and detail in [15:8], and of a ticket not yet issued it is a program fault with STD_TICKET. A bundle of no-ops ends at once. A bundle that is not legal is a program fault with STD_ILLEGAL at its address. Each of these completes. Completes: br, bz, bnz, halt, waitA, waitC, waitM, nop, illegalBundle. -/
def Obligations.BranchesHaltAndWaits : Prop :=
  ∀ (s : State) (st f b : Nat) (F : Frame),
    (predOf F b slotC = true →
      (slotIssues s st slotC 0x60 f F b = true →
        exec (.br st) s = goesOn s (slotDone s st f b { F.ran slotC with target := some (bits (slotBits b slotC) 0 14) }))
      ∧ (slotIssues s st slotC 0x61 f F b = true →
        exec (.bz st) s = goesOn s (slotDone s st f b (if F.s (fD (slotBits b slotC)) = 0 then { F.ran slotC with target := some (bits (slotBits b slotC) 0 14) } else F.ran slotC)))
      ∧ (slotIssues s st slotC 0x62 f F b = true →
        exec (.bnz st) s = goesOn s (slotDone s st f b (if F.s (fD (slotBits b slotC)) = 0 then F.ran slotC else { F.ran slotC with target := some (bits (slotBits b slotC) 0 14) })))
      ∧ (slotIssues s st slotC 0x64 f F b = true →
        exec (.halt st) s = goesOn s (slotDone s st f b
          { F.ran slotC with halted := some ((F.s (fS1 (slotBits b slotC))).toNat % 256, (F.s (fS1 (slotBits b slotC))).toNat / 256 % 256) }))
      ∧ (let sent := if F.slotsRun = [] then F.issued else F.before
        ∀ e ∈ [(Instr.waitA, 0x68, Engine.att, sent.1), (Instr.waitC, 0x69, Engine.cdc, sent.2.1), (Instr.waitM, 0x6A, Engine.mov, sent.2.2)],
          slotIssues s st slotC e.2.1 f F b = true →
          (let w := slotBits b slotC
           let t := (F.s (fS1 w)).toNat % 65536
           let n := e.2.2.2
           let ends (v : Nat) : Host.Outcome State Fault Refusal := goesOn s (slotDone s st f b ((F.ran slotC).setS (fD w) (BitVec.ofNat 64 v)))
           (t = 0 → exec (e.1 st) s = ends 0)
           ∧ (n < 65535 → n < t → exec (e.1 st) s = goesOn s (progFault s st f Detail.STD_TICKET F.pc))
           ∧ (n < 65535 → 1 ≤ t → t + 64 < n → exec (e.1 st) s = ends Status.stale.code)
           ∧ (∀ c d, n < 65535 → 1 ≤ t → t ≤ n → n ≤ t + 64 → amGet (doneKey e.2.2.1 t) F.done = some (c, d) → exec (e.1 st) s = ends (c + 256 * d)))))
    ∧ (st < 64 → (s.stand st).running = some f → amGet f (s.stand st).frames = some F → standFenced s st = false → F.halted = none → F.withdrawing = false →
        (bundleAt (s.stand st) F = some b → legalBundle b = true → activeSlots b = [] → exec (.nop st) s = goesOn s (endBundle s st f F (codeLen s st)))
        ∧ (bundleAt (s.stand st) F = some b → legalBundle b = false → exec (.illegalBundle st) s = goesOn s (progFault s st f Detail.STD_ILLEGAL F.pc)))

/-- For a frame that has not halted and whose next bundle address, the branch target or the address after this one, lies below the image's BUNDLES: once all slots have run, the frame's registers read what the slots wrote, the frame stands at that address with no slot run and nothing stored or branched, the deck holds the bytes stored, a C store before a V store whichever ran first, and every other deck byte, every other frame and stand, memory and what was sent are as before. -/
def Obligations.BundlesEnd : Prop :=
  ∀ (s : State) (st f n : Nat) (F : Frame),
    F.halted = none → F.target.getD (F.pc + 1) < n →
    (let t := endBundle s st f F n
     amGet f (t.stand st).frames = some (F.after (F.target.getD (F.pc + 1)))
     ∧ (F.stores = [] → (t.stand st).deck = (s.stand st).deck)
     ∧ (∀ k a l, F.stores = [(k, a, l)] → (t.stand st).deck = memWriteN (s.stand st).deck (winAt (s.stand st).depth f + a) l)
     ∧ (∀ a l c m, (F.stores = [(slotC, a, l), (slotV, c, m)] ∨ F.stores = [(slotV, c, m), (slotC, a, l)]) →
         (t.stand st).deck = memWriteN (memWriteN (s.stand st).deck (winAt (s.stand st).depth f + a) l) (winAt (s.stand st).depth f + c) m)
     ∧ (∀ g, g ≠ f → amGet g (t.stand st).frames = amGet g (s.stand st).frames)
     ∧ (∀ j, j ≠ st → t.stand j = s.stand j)
     ∧ (t.stand st).running = (s.stand st).running ∧ (t.stand st).att = (s.stand st).att ∧ (t.stand st).cdc = (s.stand st).cdc ∧ (t.stand st).mov = (s.stand st).mov
     ∧ t.mem = s.mem ∧ t.sent = s.sent)

/-- In slot V of the bundle that a stand issues, with predicate 1: each of VADD, VSUB, VMUL, VFMA, VMAX, VMIN, VDIV, VEXP2, VRMAX and VRSUM completes and writes lane i of vD with the FP32 pattern of its table row; VMOV copies bits, VBCAST writes sS[31:0] to every lane, VZERO writes zero bits, VLD_BF16 widens 64 BF16 of the deck, VST_BF16 records 64 lanes rounded to BF16 for the end of the bundle; each counts as run. In these rows a NaN becomes 0x7FC0_0000; VMAX and VMIN give NaN where either lane is NaN and order −0 below +0; VDIV of a non-zero number by a zero is an infinity whose sign is that of the signs' product, and 0/0 is NaN; VEXP2 of a NaN or a positive number is NaN and of a zero 1.0. Completes: vadd, vsub, vmul, vfma, vmax, vmin, vdiv, vexp2, vrmax, vrsum, vmov, vbcast, vzero, vldBf16, vstBf16. -/
def Obligations.VectorOperationsCompute : Prop :=
  (∀ e ∈ vectorRows, ∀ (s : State) (st f b : Nat) (F : Frame), slotIssues s st slotV e.2.1 f F b = true → predOf F b slotV = true →
    (let w := slotBits b slotV
     let lane (n i : Nat) : FV := FV.of32 (F.v n i).toNat
     exec (e.1 st) s = goesOn s (slotDone s st f b
       ((F.ran slotV).setV (vD w) fun i => BitVec.ofNat 32 (e.2.2 (lane (vD w)) (lane (vS1 w)) (lane (vS2 w)) i).to32))))
  ∧ (∀ (s : State) (st f b : Nat) (F : Frame), predOf F b slotV = true →
    (let w := slotBits b slotV
     let S := s.stand st
     let at_ := ((F.a (vA w)).toNat + 128 * vOff w) % 2 ^ 32
     (slotIssues s st slotV 0x0B f F b = true → exec (.vmov st) s = goesOn s (slotDone s st f b ((F.ran slotV).setV (vD w) (F.v (vS1 w)))))
     ∧ (slotIssues s st slotV 0x0C f F b = true → exec (.vbcast st) s = goesOn s (slotDone s st f b ((F.ran slotV).setV (vD w) fun _ => BitVec.ofNat 32 (F.s (vS w)).toNat)))
     ∧ (slotIssues s st slotV 0x0D f F b = true → exec (.vzero st) s = goesOn s (slotDone s st f b ((F.ran slotV).setV (vD w) fun _ => 0)))
     ∧ (Usable S.depth at_ 128 →
       (slotIssues s st slotV 0x12 f F b = true → exec (.vldBf16 st) s = goesOn s (slotDone s st f b
         ((F.ran slotV).setV (vD w) fun i => BitVec.ofNat 32 (leField (memReadN S.deck (winAt S.depth f + at_) 128) (2 * i) 2 * 2 ^ 16))))
       ∧ (slotIssues s st slotV 0x13 f F b = true → exec (.vstBf16 st) s = goesOn s (slotDone s st f b
         { F.ran slotV with stores := F.stores ++ [(slotV, at_, (List.range 64).flatMap fun i => leBytes 2 (FV.of32 (F.v (vD w) i).toNat).to16)] })))
     ∧ (¬ Usable S.depth at_ 128 →
       (slotIssues s st slotV 0x12 f F b = true → exec (.vldBf16 st) s = goesOn s (progFault s st f Detail.STD_WINDOW F.pc))
       ∧ (slotIssues s st slotV 0x13 f F b = true → exec (.vstBf16 st) s = goesOn s (progFault s st f Detail.STD_WINDOW F.pc)))))
  ∧ (∀ x y : FV, (FV.nan).to32 = 0x7FC00000
      ∧ ((x = .nan ∨ y = .nan) → x.maxZ y = .nan ∧ x.minZ y = .nan ∧ ((x.add y).r32).to32 = 0x7FC00000 ∧ ((x.mul y).r32).to32 = 0x7FC00000)
      ∧ (∀ e f : Int, (FV.fin true 0 e).maxZ (.fin false 0 f) = .fin false 0 f ∧ (FV.fin false 0 e).minZ (.fin true 0 f) = .fin true 0 f)
      ∧ (∀ a c m e f, m ≠ 0 → ((FV.fin a m e).div (.fin c 0 f)) = .inf (a != c)) ∧ (∀ a c e f, (FV.fin a 0 e).div (.fin c 0 f) = .nan)
      ∧ exp2 .nan = .nan ∧ exp2 (.inf false) = .nan ∧ exp2 (.inf true) = .zero ∧ (∀ m e, m ≠ 0 → exp2 (.fin false m e) = .nan) ∧ (∀ a e, (exp2 (.fin a 0 e)).to32 = 0x3F800000))

/-- In the M or A slot of the bundle that a stand issues, with predicate 1, the queue not in its error state: a mover instruction of a frame whose task exists, with every deck range usable; a tile instruction with every tile and operand range usable; ATT_ISSUE and CDC_ISSUE with a usable descriptor that R93, R251 and R255 accept: each completes; its command stands at the end of the engine's queue with the frame's job tag and the operands read, or the 64 bytes copied, before the bundle writes; the frame counts one more command of that engine and sT takes its ticket, counted from 1 to 65,535 and then from 1 again. A tile instruction with a range in a reserved part of the window is a program fault with STD_WINDOW; one with a range past the window is refused with ATT_ADDR: the queue takes its error state and the ticket ends with ERROR_FLUSHED and that detail; in the error state a tile instruction ends with ERROR_FLUSHED. A descriptor that is not in the usable window is a program fault with STD_WINDOW. Completes: mvLd, mvSt, mvGather, mvBwrite, mvReduce, attIssue, cdcIssue, tzero, tmmaBf16, tmmaE4m3, tmmaE5m2, tmmaMx8, tmmaMx4, tpackBf16. -/
def Obligations.EngineCommandsAreQueued : Prop :=
  ∀ (s : State) (st f b : Nat) (F : Frame),
    (let S := s.stand st
     let tick (e : Engine) : Nat := F.count e % 65535 + 1
     let cmd (e : Engine) (x : CmdBody) : EngCmd := ⟨f, tick e, F.jobTag, x, s.now, false, 0, [], 0, [], false⟩
     (∀ e ∈ moverRows, ∀ T, slotIssues s st slotM e.2.1 f F b = true → predOf F b slotM = true → amGet F.task s.xch.tasks = some T →
       (let w := slotBits b slotM
        (∀ l, moverRanges s S f T e.2.1 (e.2.2.1 F w) (e.2.2.2.1 F w) (e.2.2.2.2.2 F w) = some l → ∀ r ∈ l, rangeOf S.depth r.1 r.2 = .usable) →
        exec (e.1 st) s = goesOn s (slotDone
          (s.setStand st { S with mov := S.mov ++ [cmd .mov (.mover e.2.1 (e.2.2.1 F w) (e.2.2.2.1 F w) (e.2.2.2.2.1 F w) (e.2.2.2.2.2 F w))] })
          st f b ((F.ran slotM).issued1 .mov (tick .mov) (bits w 20 6)))))
     ∧ (∀ e ∈ tileRows, slotIssues s st slotA e.2.1 f F b = true → predOf F b slotA = true →
       (let w := slotBits b slotA
        let G := (F.ran slotA).issued1 .att (tick .att) (bits w 18 6)
        let flushed (dt : Nat) : Frame := { G with done := amSet (doneKey .att (tick .att)) (Status.errorFlushed.code, dt) G.done }
        let uses := tileUses S.depth e.2.1 (bits w 13 5) (e.2.2.1 F w) (e.2.2.2.1 F w) (e.2.2.2.2 w)
        (S.attErr = false → (∀ r ∈ uses, rangeOf S.depth r.1 r.2 = .usable) →
          exec (e.1 st) s = goesOn s (slotDone (s.setStand st { S with att := S.att ++ [cmd .att (.tile e.2.1 (bits w 13 5) (e.2.2.1 F w) (e.2.2.2.1 F w) (e.2.2.2.2 w))] }) st f b G))
        ∧ ((∃ r ∈ uses, rangeOf S.depth r.1 r.2 = .reserved) → exec (e.1 st) s = goesOn s (progFault s st f Detail.STD_WINDOW F.pc))
        ∧ ((∀ r ∈ uses, rangeOf S.depth r.1 r.2 ≠ .reserved) →
          (S.attErr = false → (∃ r ∈ uses, rangeOf S.depth r.1 r.2 = .past) →
            exec (e.1 st) s = goesOn s (slotDone (queueError s st .att Detail.ATT_ADDR F.jobTag) st f b (flushed Detail.ATT_ADDR)))
          ∧ (S.attErr = true → exec (e.1 st) s = goesOn s (slotDone s st f b (flushed 0))))))
     ∧ (predOf F b slotA = true →
       (let w := slotBits b slotA
        let a := (F.a (bits w 14 4)).toNat
        let d := memReadN S.deck (winAt S.depth f + a) 64
        (slotIssues s st slotA 1 f F b = true →
          (¬ Usable S.depth a 64 → exec (.attIssue st) s = goesOn s (progFault s st f Detail.STD_WINDOW F.pc))
          ∧ (Usable S.depth a 64 → S.attErr = false → ((AttDesc.ofBytes d).mode ≠ 2 ∨ roleEnables s [1, 2, 4] = true) → attCheck S F.jobTag d = .accept →
            exec (.attIssue st) s = goesOn s (slotDone (s.setStand st { S with att := S.att ++ [cmd .att (.attention d)] }) st f b ((F.ran slotA).issued1 .att (tick .att) (bits w 18 6)))))
        ∧ (slotIssues s st slotA 2 f F b = true →
          (¬ Usable S.depth a 64 → exec (.cdcIssue st) s = goesOn s (progFault s st f Detail.STD_WINDOW F.pc))
          ∧ (Usable S.depth a 64 → S.cdcErr = false → cdcCheck S f F.jobTag d = .accept →
            exec (.cdcIssue st) s = goesOn s (slotDone (s.setStand st { S with cdc := S.cdc ++ [cmd .cdc (.codec d)] }) st f b ((F.ran slotA).issued1 .cdc (tick .cdc) (bits w 18 6))))))))

/-- The save-area image of a frame is 9,216 bytes; read back, it gives s1 to s63, a1 to a15, p1 to p7 and all lanes of v0 to v31 as the frame's sources read them, 0, 0 and 1 for s0, a0 and p0, and the bundle address. -/
def Obligations.SavedRegistersComeBack : Prop :=
  ∀ (s : State) (F : Frame), F.pc < 2 ^ 14 →
    (saveImage s F).length = 9216 ∧ leField (saveImage s F) 0x248 2 % 2 ^ 14 = F.pc
    ∧ (∀ G : Frame, G.files = filesOf (saveImage s F) →
        (∀ n, n < 64 → G.s n = if n = 0 then 0 else F.s n) ∧ (∀ n, n < 16 → G.a n = if n = 0 then 0 else F.a n)
        ∧ (∀ n, n < 8 → G.p n = if n = 0 then true else F.p n) ∧ (∀ n i, n < 32 → i < 64 → G.v n i = F.v n i))

/-- For a stand that exists. With no running frame, the first ready frame in frame-number order after the last one that ran becomes the running frame, with its registers from its save area where it has been saved, and SWITCHES advances. With a running frame held at a bundle boundary, its registers are stored at its save area first, and the next ready frame after it becomes the running one. Where one task alone is ready, no layer waits, and a stand takes it, TASK_PLACE starts it in the lowest free frame of that stand: at its kind's entry, with s1 its job tag of R251, all else zero but p0, its record with tag and frame number at window offset 0. -/
def Obligations.FramesSwitchAndTasksStart : Prop :=
  (∀ (s : State) (st k : Nat) (G : Frame), st < 64 → k < 4 →
    (let S := s.stand st
     let go (S : Stand) (g : Nat) : Stand :=
       { S with frames := amSet g (if G.saved then { G with files := filesOf (S.rd g 0x400 9216), next := filesOf (S.rd g 0x400 9216), pc := leField (S.rd g 0x400 9216) 0x248 2 % 2 ^ 14 } else G) S.frames,
                running := some g, since := s.now, last := g }
     (S.running = none → amGet ((S.last + 1 + k) % 4) S.frames = some G → frameHeld S G = false →
       (∀ j, j < k → ∀ H, amGet ((S.last + 1 + j) % 4) S.frames = some H → frameHeld S H = true) →
       exec (.frameSwitch st) s = goesOn s ((s.takeFree.setStand st (go S ((S.last + 1 + k) % 4))).wrap (Reg.STD_SEQ_COUNT_SWITCHES.at 0x10000 st) 1))
     ∧ (∀ (f : Nat) (F : Frame), S.running = some f → f < 4 → amGet f S.frames = some F → F.slotsRun = [] → frameHeld S F = true →
       (f + 1 + k) % 4 ≠ f → amGet ((f + 1 + k) % 4) S.frames = some G → frameHeld S G = false →
       (∀ j, j < k → (f + 1 + j) % 4 ≠ f → ∀ H, amGet ((f + 1 + j) % 4) S.frames = some H → frameHeld S H = true) →
       exec (.frameSwitch st) s = goesOn s ((s.takeFree.setStand st
         (let T := S.wr f 0x400 (saveImage s F)
          go { T with frames := amSet f { F with saved := true } T.frames } ((f + 1 + k) % 4))).wrap (Reg.STD_SEQ_COUNT_SWITCHES.at 0x10000 st) 1))))
  ∧ (∀ (s : State) (t st f : Nat) (T : Task) (im : Image), s.xch.layers = [] → noStand s = false → readyTasks s = [(t, T)] → standFor s T = some (st, false) →
      f < 4 → amGet f (s.stand st).frames = none → (∀ j, j < f → amHas j (s.stand st).frames = true) → (s.stand st).image = some im → bit (im.entries.getD T.kind 0) 31 = true →
      ∃ u G, exec .taskPlace s = .next u ∧ amGet f (u.stand st).frames = some G
        ∧ G.task = t ∧ G.jobTag = T.kind % 16 * 2 ^ 28 + f * 2 ^ 26 + T.flow % 2 ^ 26 ∧ G.pc = im.entries.getD T.kind 0 % 2 ^ 14
        ∧ (∀ n, G.s n = if n = 1 then BitVec.ofNat 64 G.jobTag else 0) ∧ (∀ n, G.a n = 0) ∧ (∀ n, G.p n = decide (n = 0)) ∧ (∀ n i, G.v n i = 0)
        ∧ G.halted = none ∧ G.slotsRun = [] ∧ G.issued = (0, 0, 0)
        ∧ leField ((u.stand st).rd f 0 256) 0 4 = G.jobTag ∧ leField ((u.stand st).rd f 0 256) 0xF 1 = f
        ∧ amGet t u.xch.tasks = some { T with stand := some st, front := false } ∧ u.mem = s.mem ∧ u.sent = s.sent)

/-- For a stand that exists and a frame of a task that has neither halted nor been withdrawn. The oldest mover command of the frame, once the column arbiters have passed its segments: a mv.ld of a legal count from extended addresses that can be moved copies those bytes into the deck and a mv.st copies to them, by the protected write path, the deck bytes as they were at its issue, each with the page counts and hot lines of a mover access, ending OK where no parity delta goes out; one with a count that no operation takes moves nothing and ends FENCED with STD_WINDOW. The oldest attention command, a tile command whose turn has run: TZERO zeroes the tile's 16 KiB, and TPACK_BF16 writes the tile's 4,096 elements as BF16, ending OK. The oldest codec command: its tiles are issued as the engine's arbiter chooses, and once all are, an EXPAND writes its block and ends OK and a QUANT ends as its rows give; with tiles that the array budget withholds it waits. Each ends so: the command leaves its queue, the next of its frame begins to wait for the arbiter, its status and detail are kept under its engine and ticket, and no other frame changes. At a kerf point where one tile command alone is ready, that command has its turn. That effects come whole at the row is the model's choice (logs 8, 92). -/
def Obligations.EngineCommandsComplete : Prop :=
  ∀ (s : State) (st f : Nat) (F : Frame) (c : EngCmd), st < 64 → amGet f (s.stand st).frames = some F → F.halted = none → F.withdrawing = false →
    (let S := s.stand st
     (∀ (T : Task) (d q ext n : Nat),
       (let u := passSegments s st f (segmentsLeft s)
        let S := u.stand st
        let h := HeldWork.mover st f c.ticket
        amGet f S.frames = some F → amGet F.task u.xch.tasks = some T → S.mov.find? (fun x => x.frame == f) = some c → c.started = false →
        (let v := homeAccess u ext n
         c.body = .mover 1 d q ext n → n % 64 = 0 → 1 ≤ n → n ≤ 0x400000 → extStop u S h ext n false = none → newDeltas u v = [] →
          exec (.moverCommandDone st f) s = goesOn s (finishCmd ((unhold v h).setStand st { S with deck := memWriteN S.deck (winAt S.depth f + d) (memReadN v.mem ext n) }) st f .mov c.ticket 0 0))
        ∧ (let v := putBytes (homeAccess u ext n) ext (S.rdKept f c.kept q n)
         c.body = .mover 2 d q ext n → n % 64 = 0 → 1 ≤ n → n ≤ 0x400000 → extStop u S h ext n true = none → newDeltas u v = [] →
          exec (.moverCommandDone st f) s = goesOn s (finishCmd ((unhold v h).setStand st S) st f .mov c.ticket 0 0))
        ∧ (∀ o, (o = 1 ∨ o = 2) → c.body = .mover o d q ext n → (n % 64 ≠ 0 ∨ n = 0 ∨ 0x400000 < n) →
          exec (.moverCommandDone st f) s = goesOn s (finishCmd ((unhold u h).setStand st S) st f .mov c.ticket Status.fenced.code Detail.STD_WINDOW))))
     ∧ (∀ td a b k, S.att.find? (fun x => x.frame == f) = some c → c.started = true →
       (let t := winAt S.depth f + (winBytes S.depth - 0x80000 + 0x4000 * td)
        (c.body = .tile 4 td a b k → exec (.attCommandDone st f) s =
          goesOn s (finishCmd (s.setStand st { S with deck := memWriteN S.deck t (leBytes 0x4000 0) }) st f .att c.ticket 0 0))
        ∧ (c.body = .tile 0x10 td a b k → exec (.attCommandDone st f) s =
          goesOn s (finishCmd (s.setStand st { S with deck := memWriteN S.deck (winAt S.depth f + a) ((List.range 4096).flatMap fun i => leBytes 2 (FV.of32 (leField (memReadN S.deck t 0x4000) (4 * i) 4)).to16) }) st f .att c.ticket 0 0))))
     ∧ (∀ (T : Task) (l : List Byte),
       (let u := cdcPass s st f (cdcTilesLeft s st)
        let V := u.stand st
        amGet f V.frames = some F → amGet F.task u.xch.tasks = some T → V.cdc.find? (fun x => x.frame == f) = some c → c.body = .codec l →
        (let left := (cdcTiles V f c.kept l).drop c.tile
         (left = [] → leField l 0 1 = 1 → exec (.cdcCommandDone st f) s = goesOn s (finishCmd (u.setStand st (expandRun u V f T c.kept l)) st f .cdc c.ticket 0 0))
         ∧ (∀ U W code dt, left = [] → leField l 0 1 ≠ 1 → quantRun u V f c.kept l = some (U, W, code, dt) →
           exec (.cdcCommandDone st f) s = goesOn s (finishCmd (U.setStand st W) st f .cdc c.ticket code dt))
         ∧ (left ≠ [] → exec (.cdcCommandDone st f) s = goesOn s u))))
     ∧ (∀ (e : Engine) (code dt : Nat),
       (let u := finishCmd s st f e c.ticket code dt
        amGet f (u.stand st).frames = some { F with done := amSet (doneKey e c.ticket) (code, dt) F.done }
        ∧ (∀ g, g ≠ f → amGet g (u.stand st).frames = amGet g S.frames) ∧ (u.stand st).deck = S.deck
        ∧ (let rest (l : List EngCmd) : List EngCmd := headSince (l.filter fun x => !(x.frame == f && x.ticket == c.ticket)) f s.now
           (u.stand st).mov = (if e = .mov then rest S.mov else S.mov) ∧ (u.stand st).att = (if e = .att then rest S.att else S.att)
           ∧ (u.stand st).cdc = (if e = .cdc then rest S.cdc else S.cdc))
        ∧ u.mem = s.mem ∧ u.sent = s.sent ∧ ∀ j, j ≠ st → u.stand j = s.stand j))
     ∧ (∀ code td a b k, standFenced s st = false → (∀ e ∈ S.frames, e.2.withdrawing = false) → attReady s S = [c] → c.body = .tile code td a b k → ∃ u, exec (.kerfPoint st) s = .next u
         ∧ (u.stand st).att = S.att.map (fun x => if x.frame = c.frame ∧ x.ticket = c.ticket then { c with started := true, since := s.now } else x)
         ∧ (u.stand st).frames = S.frames ∧ (u.stand st).deck = S.deck ∧ u.mem = s.mem ∧ u.sent = s.sent))

/-- For TOKEN, PAUSE, RESUME, CANCEL, PARK and MIGRATE that nothing holds back: a handle that names no context ends the command with STALE; a request in DONE or FAILED with STALE and the handle; one whose context does not own it with REDIRECT, the handle and VALUE the peer node. In each case nothing else changes but what starting and completing a command change. -/
def Obligations.RequestCommandsAreGated : Prop :=
  ∀ e ∈ gatedRows, ∀ (s : State) (c : Cmd),
    (let T := begun s e.2 c
     hostReady s e.2 c noBad = true →
     (T.ctx c.handle = none → exec (e.1 c) s = endsWith s e.2 c T (Done.of .stale 0))
     ∧ (∀ x, T.ctx c.handle = some x →
         ((x.phase = .done ∨ x.phase = .failed) → exec (e.1 c) s = endsWith s e.2 c T { Done.of .stale 0 with handle := c.handle })
         ∧ (x.phase ≠ .done → x.phase ≠ .failed → x.owner = false →
            exec (e.1 c) s = endsWith s e.2 c T { Done.of .redirect 0 with value := x.peerNode, handle := c.handle })))

/-- For a command that nothing holds back and a context it names. CTX_READ ends OK with the 256-byte image and changes nothing. For an owned request not in DONE, FAILED or HANDOFF with no step in progress: PAUSE moves one in ADMITTED, PREFILL or DECODE to PAUSED, remembering which, at this time, with PAUSES one higher; one already PAUSED stays so as if software had paused it. RESUME of a PAUSED request waits for a resume of the scheduler's own under way and for felling; on a role that does not run its phase it ends with REDIRECT; with nothing felled or missing it brings the request back to the phase it was paused from and starts its next decode step; of another it changes nothing. A PAUSE during a verification step waits for it. In HANDOFF both end with CONFLICT. PARK from PAUSED waits for a resume, felling or entry change of the request (log 156); with none it seals the context under a new ticket into its spill slot in host memory, names it at its window by the ticket, frees the handle and ends OK with the ticket; from any other phase it ends with CONFLICT. ROLLBACK of a request with a tentative tail and no tail slot clears the tail and starts the next step; with none it ends with CONFLICT and SPEC_BUSY. -/
def Obligations.RequestsAreReadPausedResumed : Prop :=
  ∀ (s : State) (c : Cmd) (x : Ctx),
    (let ok : Done := { Done.ok with handle := c.handle }
     let conflict (dt : Nat) : Done := { Done.of .conflict dt with handle := c.handle }
     (let T := begun s Op.CTX_READ c
      hostReady s Op.CTX_READ c noBad = true → T.ctx c.handle = some x → exec (.ctxRead c) s = endsWith s Op.CTX_READ c T { ok with record := x.image })
     ∧ (x.owner = true → x.phase ≠ .done → x.phase ≠ .failed →
       (let T := begun s Op.PAUSE c
        hostReady s Op.PAUSE c noBad = true → T.ctx c.handle = some x →
        (x.phase = .paused → exec (.pause c) s = endsWith s Op.PAUSE c (T.setCtx { x with selfPaused := false }) ok)
        ∧ (x.phase = .handoff → exec (.pause c) s = endsWith s Op.PAUSE c T (conflict 0))
        ∧ (x.phase ≠ .paused → x.phase ≠ .handoff → verifying x = true → exec (.pause c) s = goesOn s (T.setCtx { x with pausePending := some (some c) }))
        ∧ (x.phase ≠ .paused → x.phase ≠ .handoff → verifying x = false → x.cancelPending = none → dropStep T x.handle = T → x.handle = c.handle →
           exec (.pause c) s = endsWith s Op.PAUSE c
             (T.setCtx { x with phase := .paused, resumeAdmitted := decide (x.phase = .admitted), resumeDecode := decide (x.phase = .decode), pausedAt := T.now, selfPaused := false,
                                pausePending := none, migrateWait := x.migrateWait.filter (fun w => w.2.isSome), counters := listMod 5 (fun v => satAdd 32 v 1) x.counters }) ok))
       ∧ (let T := begun s Op.RESUME c
        hostReady s Op.RESUME c noBad = true → T.ctx c.handle = some x →
        (let x0 := { x with selfPaused := false, autoResume := false }
         (x.phase = .paused → resuming x = true → exec (.resume c) s = goesOn s (unstartCmd (T.setCtx { x with selfPaused := false }) Op.RESUME c))
         ∧ (x.phase = .paused → resuming x = false → fellingNow T x = true → exec (.resume c) s = goesOn s (T.setCtx { x0 with resumeWait := some (c.arg0, some c) }))
         ∧ (x.phase = .paused → resuming x = false → fellingNow T x = false → mayResume T x = false → exec (.resume c) s = endsWith s Op.RESUME c
            ((T.setCtx x0).setCtx x0) { Done.of .redirect 0 with value := T.redirectNode, handle := x.handle })
         ∧ (let y := { x0 with phase := if x.resumeAdmitted then .admitted else if x.resumeDecode then .decode else .prefill, resumeAdmitted := false, resumeDecode := false }
            x.phase = .paused → resuming x = false → fellingNow T x = false → mayResume T x = true → mustCoppice x = false → promptComplete y = false →
            exec (.resume c) s = .next (keepQueue s (completeCmd (startDecode (T.setCtx x0) y) Op.RESUME c { Done.ok with handle := x.handle }))))
        ∧ (x.phase = .handoff → exec (.resume c) s = endsWith s Op.RESUME c T (conflict 0))
        ∧ (x.phase ≠ .paused → x.phase ≠ .handoff → exec (.resume c) s = endsWith s Op.RESUME c T ok))
       ∧ (let T := begun s Op.PARK c
        ∀ i ids, hostReady s Op.PARK c noBad = true → T.ctx c.handle = some x → x.tentCount = 0 →
        (x.phase ≠ .paused → exec (.park c) s = endsWith s Op.PARK c T (conflict 0))
        ∧ (x.phase = .paused → (resuming x = true ∨ fellingNow T x = true ∨ outstanding T c.handle = true) →
           exec (.park c) s = goesOn s (unstartCmd (T.setCtx { x with selfPaused := false }) Op.PARK c))
        ∧ (x.phase = .paused → resuming x = false → fellingNow T x = false → outstanding T c.handle = false → keyUp T = true → T.dmaOk (bits x.hostCq 16 6) (spillAddr T 0) 320 = true →
           T.sch.spillIds.alloc (spillSlots T) T.now = some (i, ids) →
           (let ticket := ids.ringOf i * 2 ^ 24 + i
            let img := spillImage T x ticket (drbg T 12)
            let v := unpinAdp (rebind T.takeFree x.handle (2 ^ 32 + ticket)) x.adapter
            let u := v.wr (hostXA (spillAddr v i)) img
            exec (.park c) s = endsWith s Op.PARK c
              (releaseCtx { u with sch := { u.sch with spillIds := ids, spill := amSet i ⟨ids.ringOf i, { x with selfPaused := false }, ticket, img, u.scb.mram.wrapEpoch, false⟩ u.sch.spill } } x)
              { ok with result := ticket })))
       ∧ (let T := begun s Op.ROLLBACK c
        hostReady s Op.ROLLBACK c noBad = true → verifyRole T = true → T.ctx c.handle = some x →
        (x.tentCount = 0 → exec (.rollback c) s = endsWith s Op.ROLLBACK c T (conflict Detail.SPEC_BUSY))
        ∧ (x.tentCount ≠ 0 → dropStep T x.handle = T → x.handle = c.handle → x.tentSlot = none → x.verifyCmd = none → x.cancelPending = none →
           exec (.rollback c) s = endsWith s Op.ROLLBACK c
             (retryLayers (startDecode T { x with tentCount := 0, tentRoot := 0, verifyN := 0, verifyTree := [], verifyDone := false, layer := 0 })) ok))))

/-- For a command that nothing holds back and a request its node owns, not in DONE or FAILED. TOKEN of the next position, for a step that awaits its token, sends the claim-checked write of that token and then the compare-and-set that lengthens the token log by one; TOKEN of any other position, or for a request that awaits none, ends with CONFLICT and sends nothing. CANCEL of a request with no decode step in flight sends the compare-and-set to DONE at the committed length; with a decode step in flight it waits for the step. MIGRATE from DECODE to another node, with no cut felling or moving, sends the compare-and-set to HANDOFF and names the receiver; to node 0 or this node it ends FENCED. RECOVER and CLAIM with RECOVER_ID 0 end FENCED; RECOVER of a record that a live owned context of the same RECOVER_ID stands for ends OK with that handle; with none it sends a read of the record's commit word and notes the claim it is to make. CLAIM with no TAKEN context of the record ends with CONFLICT. The release of a request's first prefill chunk sends the compare-and-set to PREFILL and queues the chunk's release record, at most the chunk limit long. The receiver of 0, the missing TAKEN context and the wait of CANCEL are logs 22, 23 and 29. Completes: token, cancel, migrate, recover, claim, chunkRelease. -/
def Obligations.RequestCommandsCommit : Prop :=
  ∀ (s : State) (c : Cmd) (x : Ctx),
    (let conflict : Done := { Done.of .conflict 0 with handle := c.handle }
     (x.owner = true → x.phase ≠ .done → x.phase ≠ .failed →
      (let T := begun s Op.TOKEN c
       hostReady s Op.TOKEN c noBad = true → T.ctx c.handle = some x →
       (c.arg1 = x.tlogLen → awaitsToken T x = true → exec (.token c) s = goesOn s (asked T x .token x.committed (x.committedLen + 1) [c.arg0] (some (Op.TOKEN, c))))
       ∧ ((c.arg1 ≠ x.tlogLen ∨ awaitsToken T x = false) → exec (.token c) s = endsWith s Op.TOKEN c T conflict))
      ∧ (let T := begun s Op.CANCEL c
       hostReady s Op.CANCEL c noBad = true → T.ctx c.handle = some x → commitBusy T x.handle = false →
       (x.phase ≠ .handoff → stepInFlight T x = true → exec (.cancel c) s = goesOn s (T.setCtx { x with cancelPending := some c }))
       ∧ (x.phase ≠ .handoff → stepInFlight T x = false → x.handle = c.handle →
          exec (.cancel c) s = goesOn s (asked T x (.endDone endCancelled) .done x.committedLen [] (some (Op.CANCEL, c))))
       ∧ (x.phase = .handoff → x.released = true → exec (.cancel c) s = endsWith s Op.CANCEL c T conflict)
       ∧ (x.phase = .handoff → x.released = false → x.handle = c.handle →
          (let V := if x.peerNode ≠ 0 then told T x.peerNode (.abort ⟨T.nodeId, x.handle, x.hseq, x.peerHandle⟩) else T
           let y := { x with peerNode := 0 }
           exec (.cancel c) s = goesOn s (asked (V.setCtx y) y (.endDone endCancelled) .done x.committedLen [] (some (Op.CANCEL, c))))))
      ∧ (let T := begun s Op.MIGRATE c
       hostReady s Op.MIGRATE c noBad = true → T.ctx c.handle = some x → x.tentCount = 0 → commitBusy T x.handle = false → (x.phase = .decode ∨ (x.phase = .paused ∧ x.resumeDecode = true)) →
       ((c.arg0 = 0 ∨ c.arg0 = T.nodeId) → exec (.migrate c) s = endsWith s Op.MIGRATE c T { Done.of .fenced 0 with handle := c.handle })
       ∧ (c.arg0 ≠ 0 → c.arg0 ≠ T.nodeId → fellingNow T x = false → moveBusy T x.handle = false → x.handle = c.handle →
          (let U := T.setCtx { x with migrateWait := none }
           dropWork U c.handle = U → U.ctx c.handle = some { x with migrateWait := none } →
           (let y := { x with migrateWait := none, phase := .handoff, peerNode := c.arg0, resumeDecode := decide (x.phase = .paused), resumeAdmitted := false }
            exec (.migrate c) s = goesOn s (asked (U.setCtx y) y .handoff .handoff x.committedLen [] (some (Op.MIGRATE, c)))))))
      ∧ (s.ctx x.handle = some x → x.phase = .admitted → x.hasRecord = true → x.stepBusy = false → x.lookupBusy = false → x.kvLen < x.promptLen → x.tlogLen = x.promptLen →
         x.needCoppice = [] → felledCuts x = [] → settling s x.handle = false → commitBusy s x.handle = false → cqHeld s x = false → roleEnables s [1, 2, 4] = true → needsFill s x.handle = false →
         (let y := { x with phase := .prefill }
          let U := asked (s.setCtx y) y .prefill .prefill x.committedLen [] none
          let n := if x.chunkLen ≠ 0 then x.chunkLen else min (chunkLimit U) (x.promptLen - x.kvLen)
          exec (.chunkRelease x.handle) s = goesOn s
            (queueRelease (U.setCtx { y with fillWait := false, stepBusy := true, relWritten := false, chunkLen := n }) x.handle x.model
              ⟨x.handle, 2, x.kvLen, n, false, x.lclass, x.userTag⟩))))
     ∧ (∀ r : Bool,
        (let o := if r then Op.RECOVER else Op.CLAIM
         let i : Instr := if r then .recover c else .claim c
         let T := begun s o c
         let named : Option Ctx := (T.sch.ctxs.find? fun e => e.2.record == ⟨bits c.arg0 0 16, bits c.arg0 32 32, c.arg1⟩ && e.2.recoverId == bits c.arg3 0 32).map (·.2)
         hostReady s o c noBad = true →
         (bits c.arg3 0 32 = 0 → exec i s = endsWith s o c T { Done.of .fenced 0 with reason := .format })
         ∧ (bits c.arg3 0 32 ≠ 0 → mayRecover T c = false → exec i s = endsWith s o c T { Done.of .redirect 0 with value := T.redirectNode })
         ∧ (bits c.arg3 0 32 ≠ 0 → mayRecover T c = true →
            (named = some x → exec i s = endsWith s o c T { Done.ok with handle := x.handle })
            ∧ (named = none → recovering T c = false →
              (let r0 : RecLoc := ⟨bits c.arg0 0 16, bits c.arg0 32 32, c.arg1⟩
               let new := T.nodeId * 2 ^ 48 + genNext (bits c.arg2 32 16) * 2 ^ 32 + bits c.arg2 0 32
               let noted (k : CommitKind) (h : Nat) : State :=
                 let cm : Commit := { kind := k, handle := h, record := r0, gen := bits c.arg2 32 16, expected := c.arg2, new := new, tokens := [], stores := [], bytes := [], off := 0,
                                      cmd := some (o, c), stage := .sent, tried := false, reread := true, slot := none }
                 { T with sent := T.sent ++ [.msg r0.node (.readWord r0 none)], sch := { T.sch with nextCommit := T.sch.nextCommit + 1, commits := amSet T.sch.nextCommit cm T.sch.commits } }
               let taken := ctxOfRecord T r0 (fun x => x.taken && !x.owner && decide (x.phase = .handoff))
               (r = true → exec i s = goesOn s (noted .recover 0))
               ∧ (r = false → taken = none → exec i s = endsWith s o c T (Done.of .conflict 0))
               ∧ (r = false → taken = some x → bits c.arg2 23 3 = 2 → bits c.arg2 48 16 = x.peerNode → exec i s = goesOn s (noted .claim x.handle))
               ∧ (r = false → taken = some x → (bits c.arg2 23 3 ≠ 2 ∨ bits c.arg2 48 16 ≠ x.peerNode) → exec i s = endsWith s o c T { Done.of .stale 0 with handle := x.handle })))))))

/-- For a command that nothing holds back. UNPARK of a ticket that names no spilled request, or not the one in its slot, ends STALE; of one whose adapter is absent FENCED and CDC_ADP_ABSENT, whatever its record holds; of one whose record does not fit its ticket or tag STALE and SPILL_TAG; of one whose record in host memory is intact, with its adapter present and the key up, it takes a new handle, restores the context under it, and sends the compare-and-set that leaves the commit word as it is; with no index out of fallow it ends NO_CREDIT. VERIFY on a request in DECODE with a position to compute, no tentative tail and a parent table whose only root is node 0 sets the tentative count and the table, allocates the tail, and queues the release of a verification step of that many positions; with a tail it ends with CONFLICT and SPEC_BUSY, with a bad table FENCED with ATT_TREE. COMMIT of a verified tail along a path from node 0 copies the path's rows, and sends the tokens kept and the compare-and-set that lengthens the log by their number; a path that is none ends with CONFLICT and SPEC_PATH. The decode step that gives way and the waits of COMMIT are logs 39 and 40. -/
def Obligations.RequestsReturnAndVerify : Prop :=
  ∀ (s : State) (c : Cmd),
    (let T := begun s Op.UNPARK c
     let i := bits c.arg0 0 24
     hostReady s Op.UNPARK c noBad = true →
     (amGet i T.sch.spill = none → exec (.unpark c) s = endsWith s Op.UNPARK c T (Done.of .stale 0))
     ∧ (∀ sp, amGet i T.sch.spill = some sp →
        (let img := memReadN T.mem (hostXA (spillAddr T i)) 320
         ((sp.busy = true ∨ sp.ring ≠ bits c.arg0 24 8) → exec (.unpark c) s = endsWith s Op.UNPARK c T (Done.of .stale 0))
         ∧ (sp.busy = false → sp.ring = bits c.arg0 24 8 → adpThere T sp.ctx.adapter = false → exec (.unpark c) s = endsWith s Op.UNPARK c T (Done.of .fenced Detail.CDC_ADP_ABSENT))
         ∧ (sp.busy = false → sp.ring = bits c.arg0 24 8 → adpThere T sp.ctx.adapter = true → (leField img 0x11C 4 ≠ c.arg0 ∨ img.take 0x11C ≠ sp.image.take 0x11C ∨ sp.epoch ≠ T.scb.mram.wrapEpoch) →
            exec (.unpark c) s = endsWith s Op.UNPARK c (setEvent T Reg.SCH_CTX_EVENT_SPILL_TAG 0) (Done.of .stale Detail.SPILL_TAG))
         ∧ (sp.busy = false → sp.ring = bits c.arg0 24 8 → leField img 0x11C 4 = c.arg0 → adpThere T sp.ctx.adapter = true → keyUp T = true →
            img.take 0x11C = sp.image.take 0x11C → sp.epoch = T.scb.mram.wrapEpoch →
            (allocCtx T = none → exec (.unpark c) s = endsWith s Op.UNPARK c T (Done.of .noCredit 0))
            ∧ (∀ U h, allocCtx T = some (U, h) →
               (let x := { sp.ctx with handle := h }
                let V := pinAdp ((rebind U (2 ^ 32 + c.arg0) h).setCtx x) x.adapter
                exec (.unpark c) s = goesOn s (sendCommit { V with sch := { V.sch with spill := amSet i { sp with busy := true } V.sch.spill } }
                  { commitOf x .unpark 0 0 (some (Op.UNPARK, c)) with off := x.recOffset + 8, bytes := leBytes 4 h, tokens := [i] })))))))
    ∧ (∀ x : Ctx, x.owner = true → x.phase = .decode →
       (let T := begun s Op.VERIFY c
        let tree := ((cmdDesc s c).take c.arg0).map (·.toNat)
        hostReady s Op.VERIFY c noBad = true → verifyRole T = true → T.ctx c.handle = some x →
        (x.tentCount ≠ 0 → exec (.verify c) s = endsWith s Op.VERIFY c T { Done.of .conflict Detail.SPEC_BUSY with handle := c.handle })
        ∧ (x.tentCount = 0 → x.kvLen < x.tlogLen → treeOk c.arg0 tree = false → exec (.verify c) s = endsWith s Op.VERIFY c T { Done.of .fenced Detail.ATT_TREE with handle := c.handle })
        ∧ (∀ m U z, x.tentCount = 0 → x.kvLen < x.tlogLen → treeOk c.arg0 tree = true → stepTrouble T x c.arg0 = none → dropStep T c.handle = T → x.handle = c.handle → modelOf T x = some m →
           tentAlloc T { x with tentCount := c.arg0, verifyN := c.arg0, verifyTree := tree, verifyDone := false, verifyCmd := some c, layer := 0 } m = some (U, z) →
           exec (.verify c) s = goesOn s (queueRelease (U.setCtx { z with stepBusy := true, relWritten := false, chunkLen := c.arg0 }) z.handle z.model
             ⟨z.handle, 3, z.kvLen, c.arg0, false, z.lclass, z.userTag⟩)))
       ∧ (let T := begun s Op.COMMIT c
        let d := cmdDesc s c
        let path := (d.take (min 64 c.arg0)).map (·.toNat)
        let good := 1 ≤ c.arg0 ∧ c.arg0 ≤ x.verifyN ∧ pathOk x.verifyTree path = true ∧ ∀ n ∈ path, n < x.verifyN
        hostReady s Op.COMMIT c noBad = true → verifyRole T = true → T.ctx c.handle = some x → x.tentCount ≠ 0 → commitBusy T x.handle = false → x.handle = c.handle →
        (¬ good → exec (.commit c) s = endsWith s Op.COMMIT c T { Done.of .conflict Detail.SPEC_PATH with handle := c.handle })
        ∧ (∀ m i U z V, good → x.verifyDone = true → modelOf T x = some m →
           (let toks := (List.range c.arg0).map fun i => leField d (64 + 4 * i) 4
            let n := keptTokens T x toks
            let p := openCut T x
            let want := (x.kvLen + n - 1) / 32 - x.cutCount
            p.2.openSlot = some i → slotsAhead p.1 p.2 m want (want + 1) = some (U, z) → copyAll (U.setCtx z) z m (i :: z.ahead) (path.take n) = .ok V →
            exec (.commit c) s = goesOn s (asked ([8, 0, 1, 3, 5].foldl (fun U k => stallClear U z.handle k) V) z .commitSpec z.committed (z.committedLen + n) (toks.take n) (some (Op.COMMIT, c)))))))

/-- For a command that nothing holds back. MODEL_REG of a descriptor in range under a free identifier adds that model; one equal to what stands there ends OK and one that differs ends CONFLICT, both changing nothing, with detail SCH_MODEL where a declared pool of the model has other parameters, under a free identifier too. MODEL_DEREG of a model that no context names and no enabled window is bound to removes it; one that a context names ends CONFLICT. ADMIT with a role for it, room in the queues, a registered model with its profiles and an adapter that may be used waits at the end of its class's queue with this time; with the queues full it ends NO_CREDIT and SCH_ADMIT_FULL. The admission scan always leaves in HELD the classes whose head the third gate holds; with no head that passes its gates it does nothing else; where the first such head finds no index out of fallow it is marked and counted once as a stall; where it finds one and its prompt is 1 to 4,194,303 tokens that host memory delivers, the admission leaves its queue, the context of R41 stands under the new handle, and the record's head and compare-and-set from an empty commit word go out. The risk evaluation leaves in AT_RISK the classes at risk and, with automatic pausing and resuming off, does nothing else but count the runs of clear evaluations. A fill of the context cache that ends well with an entry free makes the context resident, after which what waited for it goes on, and ends in FAILED with FAULT_CONTEXT a context whose handle is not of that index (log 126); an index whose fallow has run out becomes allocatable. -/
def Obligations.ModelsAndAdmissionsAreTaken : Prop :=
  ∀ (s : State),
    (∀ c : Cmd,
      (let T := begun s Op.MODEL_REG c
       let id := leField (cmdDesc s c) 0 2
       let m := modelOfDesc (cmdDesc s c)
       hostReady s Op.MODEL_REG c noBad = true → modelOk id m (cmdDesc s c) = true →
       (let other : Prop := ∃ e ∈ T.tir.pools, e.2.model = id ∧ ¬ (e.2.format = m.format ∧ e.2.hdim = m.hdim ∧ e.2.layers = m.layers ∧ e.2.kvHeads = m.kvHeads)
        (∀ old, amGet id T.sch.models = some old →
          (old = m → exec (.modelReg c) s = endsWith s Op.MODEL_REG c T Done.ok)
          ∧ (old ≠ m → other → exec (.modelReg c) s = endsWith s Op.MODEL_REG c T (Done.of .conflict Detail.SCH_MODEL))
          ∧ (old ≠ m → ¬ other → exec (.modelReg c) s = endsWith s Op.MODEL_REG c T (Done.of .conflict 0)))
        ∧ (amGet id T.sch.models = none → T.sch.models.length < 1024 → other → exec (.modelReg c) s = endsWith s Op.MODEL_REG c T (Done.of .conflict Detail.SCH_MODEL)))
       ∧ (amGet id T.sch.models = none → T.sch.models.length < 1024 → (∀ e ∈ T.tir.pools, e.2.model ≠ id) →
          exec (.modelReg c) s = endsWith s Op.MODEL_REG c { T with sch := { T.sch with models := amSet id m T.sch.models } } Done.ok))
      ∧ (let T := begun s Op.MODEL_DEREG c
       hostReady s Op.MODEL_DEREG c noBad = true →
       ((∃ e ∈ T.sch.ctxs, e.2.model = c.arg0) → exec (.modelDereg c) s = endsWith s Op.MODEL_DEREG c T (Done.of .conflict 0))
       ∧ ((∀ e ∈ T.sch.ctxs, e.2.model ≠ c.arg0) → (∀ w, w < 64 → winOn T w = false ∨ T.r (Reg.HIF_XW_CFG_MODEL.at 0x40 w) ≠ c.arg0) →
          exec (.modelDereg c) s = endsWith s Op.MODEL_DEREG c { T with sch := { T.sch with models := amErase c.arg0 T.sch.models } } Done.ok))
      ∧ (let T := begun s Op.ADMIT c
       let d := cmdDesc s c
       hostReady s Op.ADMIT c noBad = true → roleEnables T [1, 2, 4] = true → T.changing = false →
       (admitMax T ≤ admitQueued T → exec (.admitCmd c) s = endsWith s Op.ADMIT c T (Done.of .noCredit Detail.SCH_ADMIT_FULL))
       ∧ (∀ m ad, admitQueued T < admitMax T → amGet (leField d 8 2) T.sch.models = some m → profileMissing T m (leField d 8 2) = false → admitAdapter T (leField d 0x10 4) = .ok ad →
          (let k := bits (leField d 0xA 1) 0 3
           exec (.admitCmd c) s = goesOn s { T with sch := { T.sch with queues := amSet k (admitQueue T k ++ [⟨c, d, T.now, false⟩]) T.sch.queues } }))))
    ∧ (let H := s.setR Reg.SCH_RISK_STATUS_HELD (bitSet ((List.range 8).filter fun c => !(admitQueue s c).isEmpty && !riskGate s c))
       let head := (List.range 8).find? fun c => !(admitQueue H c).isEmpty && gates H c
       (head = none → exec .admissionScan s = goesOn s H)
       ∧ (∀ k a rest, head = some k → admitQueue H k = a :: rest →
          (allocCtx H = none → a.counted = true → exec .admissionScan s = goesOn s H)
          ∧ (allocCtx H = none → a.counted = false → exec .admissionScan s = goesOn s
              { H.cnt Reg.SCH_CTX_STALL_NO_INDEX 1 with sch := { H.sch with queues := amSet k ({ a with counted := true } :: rest) H.sch.queues } })
          ∧ (∀ U h ad, allocCtx H = some (U, h) →
             (let D := { H with sch := { H.sch with queues := amSet k rest H.sch.queues } }
              let V := { U with sch := { U.sch with queues := amSet k rest U.sch.queues } }
              let plen := leField a.desc 0 4
              let tok := leField a.desc 0x28 8
              admitAdapter D (leField a.desc 0x10 4) = .ok ad → 1 ≤ plen → plen < 4194304 → D.dmaOk a.cmd.fn tok (4 * plen) = true →
              (let x := admitCtx V h a ad
               let W := pinAdp (V.setCtx x) ad
               exec .admissionScan s = goesOn s (sendCommit W { commitOf x .recordHead 0 (W.nodeId * 2 ^ 48 + 2 ^ 32) (some (Op.ADMIT, a.cmd)) with tokens := promptTokens W tok plen }))))))
    ∧ (let risky := (List.range 8).filter (classAtRisk s)
       s.r Reg.SCH_PAUSE_CTL_AUTO = 0 → s.r Reg.SCH_PAUSE_CTL_AUTO_RESUME = 0 →
       exec .riskEvaluation s = goesOn s { s.setR Reg.SCH_RISK_STATUS_AT_RISK (bitSet risky) with sch := { s.sch with clearRuns := if risky = [] then s.sch.clearRuns + 1 else 0 } })
    ∧ (∀ i ok2, (∀ U, s.sch.filling.contains i = true → cacheInsert s i = some U →
         (let V := { U with sch := { U.sch with filling := U.sch.filling.filter (· ≠ i), setWait := U.sch.setWait.filter (· ≠ i) } }
          (amGet i s.sch.ctxs = none → exec (.ctxFillDone i true ok2) s = goesOn s V)
          ∧ (∀ x, amGet i s.sch.ctxs = some x → bits x.handle 0 21 = i → x.phase ≠ .done → x.phase ≠ .failed → exec (.ctxFillDone i true ok2) s = goesOn s (fillGo V x))
          ∧ (∀ x, amGet i s.sch.ctxs = some x → bits x.handle 0 21 ≠ i → x.phase ≠ .done → x.phase ≠ .failed → exec (.ctxFillDone i true ok2) s = goesOn s (endCtx V x .failed 6))))
       ∧ exec (.fallowExpiry i) s = goesOn s { s with sch := { s.sch with ids := { s.sch.ids with released := s.sch.ids.released.map fun p => if p.1 = i ∧ p.2 ≤ s.now then (p.1, 0) else p } } })

/-- At a node that is a home and can reach its slot table (R15, R425, R388, R389, R396, R445), a message whose sender the node takes (every sender but another node at a mixed-role node, which is counted as a map reject). RESERVE takes the next slot of the cut's slice group, reserved under a lease with the record, cut and claim generation it gives, and answers OK with its name; an undeclared pool answers FENCED and TIR_NO_POOL, a full one or a node that changes its role NO_CREDIT and POOL_FULL. MOVE_OUT marks the slot it names moved out under a lease, CONFIRM makes a reserved slot an ordinary one; a name that fits no slot changes nothing. FREE, as a command or a message, and HOLD of a name that fits lower and raise the hold count by one; at the last hold, or with FORCE, the slot is freed: its entry goes, its ring count advances, it lies in fallow, and what was staged of it goes. A name that fits no slot of a declared group answers STALE, an absent pool FENCED and TIR_NO_POOL, and a HOLD of a slot with 65,535 holds NO_CREDIT and TRL_HOLD_FULL. When the lease of a reserved slot has run out, the entry read at the record home settles it: named and RESIDENT it becomes ordinary, still MOVING elsewhere its lease runs again, else it is freed and counted. Each change of a slot writes its entry of the slot table, and its answer goes out once the parity deltas of that are acknowledged. A node that is no home answers REDIRECT with the successor; a request whose stripe units are unbuilt or locked waits for them. CUT_POOL of a good descriptor, whose model, if registered, has its parameters and whose stacks lie in the protected space where they must, declares that pool under a fresh number, ends OK for the pool as it stands, CONFLICT for another that is in use, and redeclares one that is idle with the ring counts kept; with tier 0 it ends FENCED and TIR_PLACE. Completes: confirm, cutPool, free, freeMsg, hold, moveLeaseExpiry, moveOut, reserve. -/
def Obligations.HomesKeepTheirSlots : Prop :=
  ∀ (s : State) (n : SlotName) (p : Pool) (g : CutGroup) (c : CutSlot),
    (∀ src h k, s.role = 4 → src ≠ s.nodeId → exec (.freeMsg src h k n) s = goesOn s (s.cnt Reg.CWT_DROP_MAP_REJECT 1))
    ∧ (∀ m : ReserveMsg, (s.role ≠ 4 ∨ m.src = s.nodeId) →
       ((roleEnables s [3, 4] = false ∨ s.r Reg.MGT_ROLE_DRAIN_QUIESCED ≠ 0) → s.cp.held.contains (.home (.reserve m)) = false →
          exec (.reserve m) s = goesOn s (told s m.src (.reserveAnswer m.handle m.cut Status.redirect.code 0 ⟨0, 0, 0, 0⟩ s.redirectNode)))
       ∧ (HomeReady s (.reserve m) →
         (let full : State := told s m.src (.reserveAnswer m.handle m.cut Status.noCredit.code Detail.POOL_FULL ⟨m.pool, 0, 0, 0⟩ 0)
          (amGet m.pool s.tir.pools = none →
            exec (.reserve m) s = goesOn s (told s m.src (.reserveAnswer m.handle m.cut Status.fenced.code Detail.TIR_NO_POOL ⟨m.pool, 0, 0, 0⟩ 0)))
          ∧ (amGet m.pool s.tir.pools = some p → s.changing = true → exec (.reserve m) s = goesOn s full)
          ∧ (amGet m.pool s.tir.pools = some p → s.changing = false → p.groups[sliceGroup p.kvHeads m.cut]? = some g →
            (g.ids.alloc p.slices s.now = none → exec (.reserve m) s = goesOn s full)
            ∧ (∀ i ids, g.ids.alloc p.slices s.now = some (i, ids) →
              (let w : SlotName := ⟨m.pool, sliceGroup p.kvHeads m.cut, i, ids.ringOf i⟩
               let e : CutSlot := { reserved := true, movedOut := false, holds := 1, lease := s.now + max 10 (s.r Reg.TIR_MOVE_CFG_LEASE_MS) * 1000000,
                                    record := m.record, cut := m.cut, claimGen := m.claimGen }
               exec (.reserve m) s = goesOn s (answered s (groupSet s w p { ids := ids, slots := amSet i e g.slots }) m.src (.reserveAnswer m.handle m.cut 0 0 w 0))))))))
    ∧ (∀ src h k, (s.role ≠ 4 ∨ src = s.nodeId) →
       (let m : HomeMsg := .free src h k n
        isHome s m = true → doubleLost s (homeRange s m).1 (homeRange s m).2 = false → ((homeRange s m).2 = 0 ∨ memTrouble s (homeRange s m).1 (homeRange s m).2 = none) →
        homeBlocked s m ≠ [] → exec (.freeMsg src h k n) s = goesOn s (holdWork s (homeBlocked s m) (.home m))))
    ∧ (∀ src rec k gen, (s.role ≠ 4 ∨ src = s.nodeId) → HomeReady s (.moveOut src n rec k gen) →
       (SlotHeld s n p g c → exec (.moveOut ⟨src, n⟩ rec k gen) s = goesOn s
          (slotSet s n p g { c with movedOut := true, lease := s.now + max 10 (s.r Reg.TIR_MOVE_CFG_LEASE_MS) * 1000000, record := rec, cut := k, claimGen := gen }))
       ∧ (amGet n.pool s.tir.pools = none → exec (.moveOut ⟨src, n⟩ rec k gen) s = goesOn s s))
    ∧ (∀ src, (s.role ≠ 4 ∨ src = s.nodeId) → HomeReady s (.confirm src n) →
       (SlotHeld s n p g c → exec (.confirm ⟨src, n⟩) s = goesOn s (slotSet s n p g { c with reserved := false, lease := 0 }))
       ∧ (amGet n.pool s.tir.pools = none → exec (.confirm ⟨src, n⟩) s = goesOn s s))
    ∧ (∀ src h k, (s.role ≠ 4 ∨ src = s.nodeId) → HomeReady s (.free src h k n) →
       (let u := unstage s (some src) n
        (SlotHeld s n p g c → 1 < c.holds → exec (.freeMsg src h k n) s = goesOn s (answered s (slotSet u n p g { c with holds := c.holds - 1 }) src (.freeAck h k 0 0 0)))
        ∧ (SlotHeld s n p g c → c.holds ≤ 1 → exec (.freeMsg src h k n) s = goesOn s (answered s (slotFreed u n p g) src (.freeAck h k 0 0 0)))
        ∧ (amGet n.pool s.tir.pools = none → exec (.freeMsg src h k n) s = goesOn s (answered s u src (.freeAck h k Status.fenced.code Detail.TIR_NO_POOL 0)))
        ∧ (amGet n.pool s.tir.pools = some p → p.groups[n.group]? = some g → (amGet n.slot g.slots = none ∨ (amGet n.slot g.ids.ring).getD 1 ≠ n.ring) →
           exec (.freeMsg src h k n) s = goesOn s (answered s u src (.freeAck h k Status.stale.code 0 0)))))
    ∧ (∀ src h, (s.role ≠ 4 ∨ src = s.nodeId) → HomeReady s (.hold src h n) →
       (amGet n.pool s.tir.pools = none → exec (.hold src h n) s = goesOn s (told s src (.holdAnswer h Status.fenced.code Detail.TIR_NO_POOL 0)))
       ∧ (amGet n.pool s.tir.pools = some p → p.groups[n.group]? = some g → (amGet n.slot g.slots = none ∨ (amGet n.slot g.ids.ring).getD 1 ≠ n.ring) →
          exec (.hold src h n) s = goesOn s (told s src (.holdAnswer h Status.stale.code 0 0)))
       ∧ (SlotHeld s n p g c → c.holds < 65535 → exec (.hold src h n) s = goesOn s (answered s (slotSet s n p g { c with holds := c.holds + 1 }) src (.holdAnswer h 0 0 0)))
       ∧ (SlotHeld s n p g c → 65535 ≤ c.holds → exec (.hold src h n) s = goesOn s (told s src (.holdAnswer h Status.noCredit.code Detail.TRL_HOLD_FULL 0))))
    ∧ (∀ e : CutEntry, SlotHeld s n p g c → HomeReady s (.lease n e) → c.lease ≤ s.now → c.reserved = true →
       (let names := ownNode s e.node && !e.isLocal && e.pool == n.pool && e.slot == n.slot && e.ring == n.ring
        (names = true → e.state = .resident → exec (.moveLeaseExpiry n e) s = goesOn s (slotSet s n p g { c with reserved := false, lease := 0 }))
        ∧ (names = false → e.state = .moving → exec (.moveLeaseExpiry n e) s = goesOn s (slotSet s n p g { c with lease := s.now + max 10 (s.r Reg.TIR_MOVE_CFG_LEASE_MS) * 1000000 }))
        ∧ (e.state = .felled → exec (.moveLeaseExpiry n e) s = goesOn s ((slotFreed s n p g).cnt Reg.TIR_MOVE_COUNT_RECLAIMED 1))))
    ∧ (∀ d : Cmd,
       (let T := begun s Op.FREE d
        let w : SlotName := ⟨bits d.arg0 0 8, bits d.arg0 8 8, d.arg1, d.arg2⟩
        let u := unstage T none w
        hostReady s Op.FREE d noBad = true → HomeReady T (.freeCmd d) →
        (SlotHeld T w p g c →
          (let t := if bit d.arg3 0 = true ∨ c.holds ≤ 1 then slotFreed u w p g else slotSet u w p g { c with holds := c.holds - 1 }
           (newDeltas T t = [] → exec (.free d) s = endsWith s Op.FREE d t Done.ok)
           ∧ (newDeltas T t ≠ [] → exec (.free d) s = goesOn s (waitDeltas t (newDeltas T t) (.command Op.FREE d 0)))))
        ∧ (amGet w.pool T.tir.pools = none → newDeltas T u = [] → exec (.free d) s = endsWith s Op.FREE d u (Done.of .fenced Detail.TIR_NO_POOL))
        ∧ (amGet w.pool T.tir.pools = some p → p.groups[w.group]? = some g → (amGet w.slot g.slots = none ∨ (amGet w.slot g.ids.ring).getD 1 ≠ w.ring) → newDeltas T u = [] →
           exec (.free d) s = endsWith s Op.FREE d u (Done.of .stale 0)))
       ∧ (let T := begun s Op.CUT_POOL d
        let q := poolOfDesc (cmdDesc s d)
        let declares (x : Pool) : Prop :=
          (newDeltas T (setPool T d.arg0 x) = [] → exec (.cutPool d) s = endsWith s Op.CUT_POOL d (setPool T d.arg0 x) { Done.ok with result := 0 })
          ∧ (newDeltas T (setPool T d.arg0 x) ≠ [] → exec (.cutPool d) s = goesOn s (waitDeltas (setPool T d.arg0 x) (newDeltas T (setPool T d.arg0 x)) (.command Op.CUT_POOL d 0)))
        hostReady s Op.CUT_POOL d poolDescBad = true → roleEnables T [3, 4] = true → T.changing = false →
        (q.tier = 0 → exec (.cutPool d) s = endsWith s Op.CUT_POOL d T (Done.of .fenced Detail.TIR_PLACE))
        ∧ (q.tier ≠ 0 → poolFits T q = true → (∀ m, amGet q.model T.sch.models = some m → m.format = q.format ∧ m.hdim = q.hdim ∧ m.layers = q.layers ∧ m.kvHeads = q.kvHeads) →
           (T.r Reg.TIR_CP_GROUP_D_EN = 1 → ∀ i, i < 8 → poolUses q i = true → inProt T (q.bases.getD i 0) (q.slices * sliceStride q.layers q.kvHeads q.format q.hdim i) = true) →
           (amGet d.arg0 T.tir.pools = none → declares q)
           ∧ (∀ old, amGet d.arg0 T.tir.pools = some old →
             (sameDesc old q = true → exec (.cutPool d) s = endsWith s Op.CUT_POOL d T Done.ok)
             ∧ (sameDesc old q = false → poolIdle T old = false → exec (.cutPool d) s = endsWith s Op.CUT_POOL d T (Done.of .conflict 0))
             ∧ (sameDesc old q = false → poolIdle T old = true →
                (let kept := old.groups.map (fun g => { g with slots := [] }) ++ old.spare
                 declares { q with groups := kept.take q.groups.length ++ q.groups.drop kept.length, spare := kept.drop q.groups.length }))))))

/-- MOVE of a count outside 1 to 4,096 is refused with FENCED and reason FORMAT, and of a request in HANDOFF CONFLICT. MOVE of cuts starts as many of their moves as INFLIGHT allows; of one RESIDENT cut that no other holds and that is not at the target, with none of the request's moves under way, it sends RESERVE to the target with the record, cut and claim generation, and waits. FELL of a paused request with nothing to fell ends OK, and with cuts to fell sends the compare-and-set from RESIDENT to FELLING for each; FELL_CUT of a RESIDENT entry sends the one to FELLED; on a request that is not paused, or on its way out of PAUSED, both end with CONFLICT, and so does FELL_CUT of an entry that is not RESIDENT. A felling pick with no pass, or while the last pick goes on, does nothing, with the target reached or nobody to pick it ends the pass, and else it begins to fell the cuts of the next request, or to move them to the lower pool. A full local cut of a request between steps goes to the target its placement descriptor gives it by RESERVE; with no valid descriptor it stays and one TIR_PD event is posted. A cut left local tries again only once its time has come. A granted reservation is remembered and the entry goes from RESIDENT to MOVING by compare-and-set, but for a cut that others hold by then, whose slot is given back; when the copy is whole, and written here where the new home is this node, the entry is flipped to the new home by one more, once the parity deltas of the copy are acknowledged; while units hold the copy up it waits; a copy whose bolt fails its CRC twice is a failure of its stack and the entry goes back, as where the memory is out of reach; the old slot is freed GRACE_US after. An acknowledged FREE takes a FELLING entry to FELLED. Completes: cutFilled, fell, fellCut, fellPick, freeAck, move, moveCopyDone, moveGraceExpiry, placeRetry, reserveAnswer. -/
def Obligations.OwnersMoveAndFellCuts : Prop :=
  ∀ (s : State) (x : Ctx),
    (let entry (U : State) (k : CommitKind) (old new : CutEntry) (cmd : Option (Nat × Cmd)) : State :=
       sendCommit U (commitOf x k (entryWord old) (entryWord new) cmd)
     let begunMove (U : State) (k node pool : Nat) (fell job : Bool) : State :=
       { U with tir := { U.tir with moves := U.tir.moves ++ [{ handle := x.handle, cut := k, node := node, pool := pool, tries := 0, pd := none, group := sliceGroup (kvHeadsOf U x) k, slot := 0, ring := 0, old := x.cut k, stage := .reserving, deadline := 0, fell := fell, job := job }] },
                sent := U.sent ++ [.msg node (.reserve ⟨U.nodeId, x.handle, pool, x.record, k, x.claimGen⟩)] }
     (∀ c : Cmd,
       (let T := begun s Op.MOVE c
        (c.fn < 64 → isStarted s Op.MOVE c = false → mustWait s Op.MOVE c = false → s.r Reg.PWR_STATE_STATE ≠ 3 → needsFill s c.handle = false → (c.arg1 = 0 ∨ 4096 < c.arg1) →
          exec (.move c) s = endsWith s Op.MOVE c (cacheTouch s (bits c.handle 0 21)) { Done.of .fenced 0 with reason := .format })
        ∧ (hostReady s Op.MOVE c noBad = true → T.ctx c.handle = some x → x.owner = true → x.phase = .handoff → exec (.move c) s = endsWith s Op.MOVE c T { Done.of .conflict 0 with handle := c.handle })
        ∧ (hostReady s Op.MOVE c noBad = true → c.arg1 = 1 → T.ctx c.handle = some x → x.owner = true → x.phase ≠ .done → x.phase ≠ .failed → x.phase ≠ .handoff →
           c.arg0 < x.cuts.length → (x.cut c.arg0).state = .resident → heldByOthers T x c.arg0 = false → homedAt (x.cut c.arg0) (bits c.arg2 0 16) (bits c.arg2 16 8) = false →
           (∀ m ∈ T.tir.moves, m.handle ≠ c.handle) → (∀ j ∈ T.tir.moveJobs, j.handle ≠ c.handle) →
           (let U := begunMove T c.arg0 (bits c.arg2 0 16) (bits c.arg2 16 8) false true
            exec (.move c) s = goesOn s { U with tir := { U.tir with moveJobs := U.tir.moveJobs ++ [⟨c, c.handle, [], bits c.arg2 0 16, bits c.arg2 16 8, 0, none⟩] } }))
        ∧ (hostReady s Op.MOVE c noBad = true → 1 ≤ c.arg1 → c.arg1 ≤ 4096 → T.ctx c.handle = some x → x.owner = true → x.phase ≠ .done → x.phase ≠ .failed → x.phase ≠ .handoff →
           exec (.move c) s = goesOn s (moveJobAdvance { T with tir := { T.tir with moveJobs := T.tir.moveJobs ++ [⟨c, c.handle, ((List.range c.arg1).map (c.arg0 + ·)).filter (· < x.cuts.length), bits c.arg2 0 16, bits c.arg2 16 8, 0, none⟩] } } c.handle)))
       ∧ (x.owner = true → x.phase ≠ .done → x.phase ≠ .failed →
         (let T := begun s Op.FELL c
          let ks := fellable T x c.arg0 fun _ => true
          hostReady s Op.FELL c noBad = true → T.ctx c.handle = some x →
          ((x.phase ≠ .paused ∨ resuming x = true) → exec (.fell c) s = endsWith s Op.FELL c T { Done.of .conflict 0 with handle := c.handle })
          ∧ (x.phase = .paused → resuming x = false → ks = [] → exec (.fell c) s = endsWith s Op.FELL c T { Done.ok with handle := c.handle })
          ∧ (x.phase = .paused → resuming x = false → ks ≠ [] → exec (.fell c) s = goesOn s
              (ks.foldl (fun U k => entry U (.cutFelling k) (x.cut k) { x.cut k with state := .felling } none) { T with tir := { T.tir with fellJobs := T.tir.fellJobs ++ [⟨x.handle, ks, 0, some (Op.FELL, c)⟩] } })))
         ∧ (let T := begun s Op.FELL_CUT c
          hostReady s Op.FELL_CUT c noBad = true → T.ctx c.handle = some x →
          ((x.phase ≠ .paused ∨ resuming x = true ∨ (x.cut c.arg0).state ≠ .resident) → exec (.fellCut c) s = endsWith s Op.FELL_CUT c T { Done.of .conflict 0 with handle := c.handle })
          ∧ (x.phase = .paused → resuming x = false → (x.cut c.arg0).state = .resident → findMove T x.handle c.arg0 = none →
             exec (.fellCut c) s = goesOn s (entry T (.cutFelled c.arg0) (x.cut c.arg0) { x.cut c.arg0 with state := .felled, shared := false } (some (Op.FELL_CUT, c)))))))
     ∧ (let ended := { s with tir := { s.tir with pass := none } }.setR Reg.TIR_FELL_STATUS_RUNNING 0
        (s.tir.pass = none → exec .fellPick s = goesOn s s)
        ∧ (∀ p, s.tir.pass = some p → pickBusy s p = true → exec .fellPick s = goesOn s s)
        ∧ (∀ p, s.tir.pass = some p → pickBusy s p = false → (p.target ≤ p.freed ∨ passPick s = none) → exec .fellPick s = goesOn s ended)
        ∧ (∀ p, s.tir.pass = some p → pickBusy s p = false → p.freed < p.target → passPick s = some x →
           (let ks := fellable s x (max 1 (s.r Reg.TIR_FELL_CFG_PER_PICK)) (notLower (readPd s x.pd))
            let U := postEvent (s.cnt Reg.TIR_FELL_STATUS_PICKS 1) x Ev.TIER .ok Detail.TIR_FELL_PICK ks.length 0
            ((U.r Reg.TIR_FELL_CFG_MODE ≠ 1 ∨ readPd s x.pd = none) → exec .fellPick s = goesOn s (ks.foldl (fun U k => entry U (.cutFelling k) (x.cut k) { x.cut k with state := .felling } none) { U with tir := { U.tir with pass := some { p with handle := x.handle, node := 0, pool := 0, todo := [], out := ks }, fellJobs := U.tir.fellJobs ++ [⟨x.handle, ks, 0, none⟩] } }))
            ∧ (∀ d, readPd s x.pd = some d → U.r Reg.TIR_FELL_CFG_MODE = 1 → d.lowerEn = true →
               exec .fellPick s = goesOn s (passGo { U with tir := { U.tir with pass := some { p with handle := x.handle, node := d.lowerNode, pool := d.lowerPool, todo := ks, out := ks } } })))))
     ∧ (∀ h k, s.ctx h = some x →
       (x.owner = true → x.phase ≠ .done → x.phase ≠ .failed → x.phase ≠ .handoff → x.stepBusy = false → (List.range x.cuts.length).find? (cutToPlace s x) = some k →
         (readPd s x.pd = none → x.pdPosted = false → exec (.cutFilled h) s = goesOn s (postEvent (s.setCtx { x with pdPosted := true }) x Ev.TIER .fenced Detail.TIR_PD 0 0))
         ∧ (readPd s x.pd = none → x.pdPosted = true → exec (.cutFilled h) s = goesOn s s)
         ∧ (∀ pd n p, readPd s x.pd = some pd → pd.target[(pd.start + k / max 1 pd.run + 0) % max 1 pd.targets]? = some (n, p) →
            exec (.cutFilled h) s = goesOn s (startMove (s.setCtx { x with pdPosted := false }) x k n p 0 (some pd) false false)))
       ∧ (∀ t, s.tir.placeRetry.find? (fun t => t.1 == h && t.2.1 == k) = some t →
          (s.now < t.2.2 → exec (.placeRetry h k) s = goesOn s s)
          ∧ (t.2.2 ≤ s.now → (let U := { s with tir := { s.tir with placeRetry := s.tir.placeRetry.filter (· ≠ t) } }
             U.ctx h = some x → cutToPlace U x k = true →
               (readPd U x.pd = none → x.pdPosted = true → exec (.placeRetry h k) s = goesOn s U)
               ∧ (∀ pd n p, readPd U x.pd = some pd → pd.target[(pd.start + k / max 1 pd.run + 0) % max 1 pd.targets]? = some (n, p) →
                  exec (.placeRetry h k) s = goesOn s (startMove (U.setCtx { x with pdPosted := false }) x k n p 0 (some pd) false false)))))
       ∧ (let asks (m : Move) : Bool := m.handle == h && m.cut == k && decide (m.stage = .reserving)
          ∀ (n : SlotName) (m : Move) (st dt : Nat),
            (s.tir.moves.find? (fun m => asks m && m.pool == n.pool) = some m ∨ (s.tir.moves.find? (fun m => asks m && m.pool == n.pool) = none ∧ s.tir.moves.find? asks = some m)) →
          (st ≠ 0 → exec (.reserveAnswer h k st dt n) s = goesOn s (reserveRefused s m st dt))
          ∧ (s.ctx m.handle = some x → x.owner = true → x.phase ≠ .done → x.phase ≠ .failed → (x.cut m.cut).state = .resident → findMove s m.handle m.cut = none → homedAt (x.cut m.cut) m.node m.pool = false →
             (let m' := { m with slot := n.slot, ring := n.ring, stage := .marking, old := x.cut m.cut }
              (heldByOthers s x m.cut = false →
                exec (.reserveAnswer h k 0 dt n) s = goesOn s (entry { s with tir := { s.tir with moves := s.tir.moves.replace m m' } } (.cutMark m.cut) (x.cut m.cut) { x.cut m.cut with state := .moving } none))
              ∧ (heldByOthers s x m.cut = true →
                exec (.reserveAnswer h k 0 dt n) s = goesOn s (reserveUnused s m n (some (Done.of .conflict Detail.TRL_SHARED)))))))
       ∧ (∀ (m : Move) (b : Bool) (n : SlotName) (bolts : List Byte),
          (findMove s h k = some m → m.stage = .copying → s.req h = some x →
            (let flipping (U : State) : State := { U with tir := { U.tir with moves := U.tir.moves.replace m { m with stage := .flipping } } }
             let new : CutEntry := { m.old with state := .resident, isLocal := false, node := m.node, pool := m.pool, slot := m.slot, ring := m.ring }
             (∀ U, copyMove s x m bolts = .done U →
                (newDeltas s U = [] → exec (.moveCopyDone h ⟨k, n, bolts⟩ true b) s = goesOn s (entry (flipping U) (.cutFlip m.cut) { m.old with state := .moving } new none))
                ∧ (newDeltas s U ≠ [] → exec (.moveCopyDone h ⟨k, n, bolts⟩ true b) s = goesOn s
                    (waitDeltas { U with tir := { U.tir with moves := U.tir.moves.replace m { m with stage := .writing } } } (newDeltas s U) (.copied m.handle m.cut ⟨m.pool, m.group, m.slot, m.ring⟩))))
             ∧ (∀ U, copyMove s x m bolts = .waits U → exec (.moveCopyDone h ⟨k, n, bolts⟩ true b) s = goesOn s U)
             ∧ (∀ dt, copyMove s x m bolts = .failed dt → dt ≠ Detail.BOLT_CRC → m.job = false → exec (.moveCopyDone h ⟨k, n, bolts⟩ true b) s = goesOn s
                  (entry (flipping s) (.cutBack m.cut) { m.old with state := .moving } m.old none))
             ∧ (∀ mo, m.job = false → modelOf s x = some mo → exec (.moveCopyDone h ⟨k, n, bolts⟩ false false) s = goesOn s
                 (entry (flipping (moveFault s m mo false)) (.cutBack m.cut) { m.old with state := .moving } m.old none))))
          ∧ (s.tir.moves.find? (fun m => m.handle == h && m.cut == k && decide (m.stage = .grace) && decide (m.deadline ≤ s.now)) = some m →
             (let U := { s with tir := { s.tir with moves := s.tir.moves.erase m } }
              (m.old.isLocal = false → m.fell = false →
                exec (.moveGraceExpiry h k) s = goesOn s (ghostGone (told U m.old.node (.free h k ⟨m.old.pool, m.group, m.old.slot, m.old.ring⟩)) h))
              ∧ (m.old.isLocal = true → m.old.node = s.nodeId → m.fell = false → exec (.moveGraceExpiry h k) s = goesOn s (ghostGone (dropLocal U m.old.slot) h))
              ∧ (m.old.isLocal = false → m.fell = true → s.req h = some x →
                exec (.moveGraceExpiry h k) s = goesOn s (ghostGone (passCut (told U m.old.node (.free h k ⟨m.old.pool, m.group, m.old.slot, m.old.ring⟩)) h k (cutSize s x)) h)))))
       ∧ (∀ a b, ((x.cut k).state = .felling → exec (.freeAck h k a b) s = goesOn s (entry s (.cutFelled k) (x.cut k) { x.cut k with state := .felled } none))
          ∧ ((x.cut k).state ≠ .felling → exec (.freeAck h k a b) s = goesOn s s))))

/-- COPPICE at a node whose role does not coppice, or that changes its role, answers REDIRECT with the successor; a repeat of a job under way changes nothing; else the job is noted with the cuts in ascending order and the record is read. COPPICE_DONE for a request that waits for none changes nothing; with REDIRECT it ends the stall and completes the command that waits with REDIRECT and the node; with every cut rebuilt the owner takes the entries and the request goes on; with some not RESIDENT yet it waits for them, and with some that met a full pool it ends with NO_CREDIT and POOL_FULL. COPPICE_TIMEOUT before its time changes nothing, and in time, with tries left, sends the same message again and counts the try; with none left each entry goes back from COPPICING to FELLED and the command completes FENCED with COPPICE_TIMEOUT. A stall that has lasted REPORT_MS posts one PENDING event with the lowest code of the causes that hold now and a scale-book record of severity 3, once; a second report of it, one before its time, or one under another cause, changes nothing. Completes: coppice, coppiceDone, coppiceTimeout, stallReport. -/
def Obligations.CoppicingAndStallsGoOn : Prop :=
  ∀ (s : State),
    (∀ m : CoppiceMsg, (s.role ≠ 4 ∨ m.src = s.nodeId) →
       ((roleEnables s [1, 4] = false ∨ s.changing = true) → exec (.coppice m) s = goesOn s (told s m.src (.coppiceDone m.handle [] Status.redirect.code s.redirectNode [])))
       ∧ (roleEnables s [1, 4] = true → s.changing = false →
          (∀ j, s.tir.copJobs.find? (fun j => j.msg.record == m.record) = some j → exec (.coppice m) s = goesOn s s)
          ∧ (s.tir.copJobs.find? (fun j => j.msg.record == m.record) = none →
             (let j : CopJob := ⟨m, .reading, 0, [], isort (fun a b => decide (a ≤ b)) (m.cuts.map (·.1)), 0, [], [], false⟩
              let cm : Commit := { kind := .copRead, handle := 0, record := m.record, gen := m.claimGen, expected := 0, new := 0, tokens := [], stores := [], bytes := [], off := 0,
                                   cmd := none, stage := .sent, tried := false, reread := true, slot := none }
              exec (.coppice m) s = goesOn s (told { s with tir := { s.tir with copJobs := s.tir.copJobs ++ [j] },
                                                            sch := { s.sch with nextCommit := s.sch.nextCommit + 1, commits := amSet s.sch.nextCommit cm s.sch.commits } }
                m.record.node (.readWord m.record none))))))
    ∧ (∀ (h : Nat) (x : Ctx), s.ctx h = some x →
       (∀ full st n es bs, x.coppicing = false → exec (.coppiceDone h full st n ⟨es, bs⟩) s = goesOn s s)
       ∧ (∀ full n es bs o c y, x.coppicing = true → (stallEnd s x.handle).ctx x.handle = some y → y.coppiceCmd = some (o, c) → o ≠ Op.RECOVER →
          (let z := { y with needCoppice := [], coppicing := false }
           exec (.coppiceDone h full Status.redirect.code n ⟨es, bs⟩) s = goesOn s
            (completeCmd (((stallEnd s x.handle).setCtx z).setCtx { z with coppiceCmd := none }) o c { Done.of .redirect 0 with value := n, handle := z.handle })))
       ∧ (∀ es bs, x.coppicing = true → x.openWait = false →
          (let z := es.foldl (fun x e => if x.needCoppice.contains e.1 then x.setCut e.1 e.2 else x) x
           let left := z.needCoppice.filter fun k => decide ((z.cut k).state ≠ .resident)
           let y := z.bump Ctr.coppiced (z.needCoppice.length - left.length)
           let U := (s.setCtx y).wrap Reg.SCH_COPPICE_COUNT_COPPICED (z.needCoppice.length - left.length)
           y.openWait = false → z.openWait = false →
           (left = [] → exec (.coppiceDone h [] 0 0 ⟨es, bs⟩) s = goesOn s (coppiceGo U y))
           ∧ (left ≠ [] → exec (.coppiceDone h [] 0 0 ⟨es, bs⟩) s = goesOn s (U.setCtx { y with needCoppice := left }))
           ∧ (∀ full, full ≠ [] → exec (.coppiceDone h full 0 0 ⟨es, bs⟩) s = goesOn s (coppiceEnd U y (Done.of .noCredit Detail.POOL_FULL)))))
       ∧ ((x.coppicing = false → exec (.coppiceTimeout h) s = goesOn s s)
          ∧ (s.now < x.coppiceSent + handoffTmo s → exec (.coppiceTimeout h) s = goesOn s s)
          ∧ (x.coppicing = true → x.openWait = false → x.coppiceSent + handoffTmo s ≤ s.now → x.coppiceTries < handoffRetry s →
             (let y := { x with coppiceTries := x.coppiceTries + 1, coppiceSent := s.now }
              exec (.coppiceTimeout h) s = goesOn s (told (stallClear (s.setCtx y) x.handle 8) x.coppiceNode
                (.coppice { src := s.nodeId, handle := x.handle, record := x.record, claimGen := x.claimGen, model := x.model, tenant := x.tenant, cuts := x.needCoppice.map fun k => (k, x.cut k), openCut := false }))))
          ∧ (∀ o c y, x.coppicing = true → x.coppiceSent + handoffTmo s ≤ s.now → handoffRetry s ≤ x.coppiceTries → y.coppiceCmd = some (o, c) → o ≠ Op.RECOVER →
             (let U := x.needCoppice.foldl (fun U k => sendCommit U (commitOf x (.cutRefell k) (entryWord { x.cut k with state := .coppicing }) (entryWord { x.cut k with state := .felled }) none)) s
              let z := { y with needCoppice := [], coppicing := false }
              (stallEnd U x.handle).ctx x.handle = some y →
              exec (.coppiceTimeout h) s = goesOn s (completeCmd (((stallEnd U x.handle).setCtx z).setCtx { z with coppiceCmd := none }) o c { Done.of .fenced Detail.COPPICE_TIMEOUT with handle := z.handle }))))
       ∧ (∀ t, s.tir.stalls.find? (fun t => t.handle == h) = some t →
          ((t.reported = true ∨ s.now < t.since + max 1 (s.r Reg.TIR_STALL_CFG_REPORT_MS) * 1000000) → ∀ c, exec (.stallReport h c) s = goesOn s s)
          ∧ (∀ c, c ≠ t.causes.foldl min 0xF → exec (.stallReport h c) s = goesOn s s)
          ∧ (t.reported = false → t.since + max 1 (s.r Reg.TIR_STALL_CFG_REPORT_MS) * 1000000 ≤ s.now →
             (let d := 0x70 + t.causes.foldl min 0xF
              let U := { s with tir := { s.tir with stalls := s.tir.stalls.map fun u => if u.handle == h then { u with reported := true } else u } }
              let V := postEvent U x Ev.STALL .pending d 0 0
              exec (.stallReport h (t.causes.foldl min 0xF)) s = goesOn s (scbEvent V Src.tier 0 Status.pending.code d 3 ({ faultRec Src.tier Act.recorded 3 0 Status.pending.code d with handle := h }.image 0 V.now))))))

/-- At a node that takes the sender's messages. An OFFER of a map epoch ahead under R419 is counted and nothing else; one of a node in no decoding role, or of an old epoch, is left; with the role live, the epoch current, no context for it, the adapter resident and an index out of fallow, the receiver makes its context and asks for the tail. A pull that ends well, with a slot for every bolt pulled, stores them with the log and cut map, marks the request TAKEN and sends TAKEN; one that fails changes nothing. TAKEN for a handle that names no context, or with another HSEQ, is answered with ABORT and changes nothing else; with the current HSEQ the sender asks for ownership to pass by compare-and-set, with the next claim generation in phase DECODE; repeated after the release it has RELEASE sent again. RELEASE with another HSEQ is answered with ABORT and changes nothing else. RELEASE_ACK with the current HSEQ ends the sender's request DONE with HANDED_OFF; with another it is answered with ABORT and changes nothing else. ABORT with the current HSEQ has the receiver drop its work, its buffers and its handle. Each timeout before its time changes nothing; in time, with tries left, it sends the message again (a further OFFER under the next HSEQ) and counts the try; with none left the sender of an OFFER sends ABORT, clears the peer and reports HANDOFF_TIMEOUT, the sender of RELEASE reports HANDOFF_UNRESOLVED and the receiver HANDOFF_ORPHAN, once. Completes: abort, handoffOfferTimeout, handoffReleaseTimeout, handoffTakenTimeout, offer, pullComplete, release, releaseAck, taken. -/
def Obligations.HandoffsAdvance : Prop :=
  ∀ (s : State) (h : Nat) (x : Ctx),
    (∀ m : OfferMsg, (s.role ≠ 4 ∨ m.sender = s.nodeId) →
       (epochView s m.epoch = .ahead → exec (.offer m) s = goesOn s (s.cnt Reg.MGT_MAP_COUNT_AHEAD 1))
       ∧ (epochView s m.epoch = .old → exec (.offer m) s = goesOn s s)
       ∧ (∀ U g, epochView s m.epoch = .current → roleEnables s [2, 4] = true → s.changing = false → receiverOf s m.sender m.handle = none → adpThere s m.adapter = true → allocCtx s = some (U, g) →
          exec (.offer m) s = goesOn s (told (pinAdp (U.setCtx (offerCtx U g m)) m.adapter) m.sender (.pullTail m.handle m.hseq))))
    ∧ (∀ v, s.ctx h = some x →
       (∀ bs, exec (.pullComplete h false ⟨v, bs⟩) s = goesOn s s)
       ∧ (∀ bs V, x.phase = .handoff → x.owner = false → x.taken = false → x.released = false →
          (let z := { x with log := v.log, cuts := v.cuts }
           let p := pullSlots (if x.openFill = 0 then (s, z) else openCut s z)
           let y := { p.2 with taken := true, handoffTries := 0, handoffSent := V.now }
           (x.openFill = 0 ∨ p.2.openSlot ≠ none) → p.2.pulled.length = (tailCuts s z).length → storePulled p.1 p.2 bs = .ok V →
           exec (.pullComplete h true ⟨v, bs⟩) s = goesOn s (told (V.setCtx y) y.peerNode (.taken ⟨V.nodeId, y.peerHandle, y.hseq, y.handle⟩)))))
    ∧ (∀ m : HandMsg, (s.role ≠ 4 ∨ m.src = s.nodeId) →
       (let refuse := told s m.src (.abort ⟨s.nodeId, m.handle, m.hseq, m.peerHandle⟩)
        (s.ctx m.handle = none → exec (.taken m) s = goesOn s refuse ∧ exec (.releaseAck m) s = goesOn s s)
        ∧ (s.ctx m.handle = some x → x.hseq ≠ m.hseq → exec (.taken m) s = goesOn s refuse)
        ∧ (s.ctx m.handle = some x → x.phase = .handoff → x.hseq = m.hseq → x.peerNode = m.src →
           (x.owner = true → x.released = false → commitBusy s x.handle = false →
             (let y := { x with peerHandle := m.peerHandle }
              exec (.taken m) s = goesOn s (sendCommit (s.setCtx y) (commitOf y .ownerFlip (commitWord s.nodeId x.claimGen x.committed x.committedLen) (commitWord m.src (genNext x.claimGen) .decode x.committedLen) none))))
           ∧ (x.released = true → exec (.taken m) s = goesOn s (told s m.src (.release ⟨s.nodeId, x.handle, x.hseq, x.peerHandle⟩ (commitWord m.src (genNext x.claimGen) .decode x.committedLen)))))
        ∧ (∀ w, receiverOf s m.src m.handle = some x → x.hseq ≠ m.hseq → exec (.release m w) s = goesOn s refuse)
        ∧ (∀ w, receiverOf s m.src m.handle = none → s.ctx m.peerHandle = some x → x.owner = true → x.hseq = m.hseq →
           exec (.release m w) s = goesOn s (told s m.src (.releaseAck ⟨s.nodeId, m.handle, m.hseq, x.handle⟩)))
        ∧ (∀ w, receiverOf s m.src m.handle = some x → x.hseq = m.hseq → x.taken = true → x.owner = false → exec (.release m w) s = goesOn s (takeOwnership s x w))
        ∧ (s.ctx m.handle = some x → x.phase = .handoff → x.released = true →
           (x.hseq ≠ m.hseq → exec (.releaseAck m) s = goesOn s refuse)
           ∧ (x.hseq = m.hseq → exec (.releaseAck m) s = goesOn s (endCtx s x .done 4)))
        ∧ (receiverOf s m.src m.handle = some x → x.hseq ≠ m.hseq → exec (.abort m) s = goesOn s s)
        ∧ (receiverOf s m.src m.handle = some x → x.hseq = m.hseq → x.owner = false → x.openSlot = none →
           exec (.abort m) s = goesOn s (releaseCtx (x.pulled.foldl (fun U p => dropLocal U p.2.1) (unpinAdp (dropWork s x.handle) x.adapter)) x))))
    ∧ (s.ctx h = some x → x.phase = .handoff →
       (let again := { x with handoffTries := x.handoffTries + 1, handoffSent := s.now }
        let further := { again with hseq := (x.hseq + 1) % 2 ^ 32 }
        let due := x.handoffSent + max 4000 (s.r Reg.SCH_CTX_CFG_HANDOFF_TMO_US) * 1000
        (∀ w, s.now < due → exec (.handoffOfferTimeout h) s = goesOn s s ∧ exec (.handoffReleaseTimeout h) s = goesOn s s ∧ exec (.handoffTakenTimeout h w) s = goesOn s s)
        ∧ (due ≤ s.now → x.released = false → x.owner = true → x.peerNode ≠ 0 → commitBusy s h = false →
           (x.handoffTries < handoffRetry s → exec (.handoffOfferTimeout h) s = goesOn s (told (s.setCtx further) x.peerNode (.offer (offerOf s further x.resumeDecode))))
           ∧ (handoffRetry s ≤ x.handoffTries → exec (.handoffOfferTimeout h) s = goesOn s
               (postEvent ((told s x.peerNode (.abort ⟨s.nodeId, x.handle, x.hseq, x.peerHandle⟩)).setCtx { x with peerNode := 0, peerHandle := 0 }) { x with peerNode := 0, peerHandle := 0 } Ev.HANDOFF .ok Detail.HANDOFF_TIMEOUT 0 0)))
        ∧ (due ≤ s.now → x.released = true → x.unresolved = false →
           (x.handoffTries < handoffRetry s → exec (.handoffReleaseTimeout h) s = goesOn s
              (told (s.setCtx again) x.peerNode (.release ⟨s.nodeId, x.handle, x.hseq, x.peerHandle⟩ (commitWord x.peerNode (genNext x.claimGen) .decode x.committedLen))))
           ∧ (handoffRetry s ≤ x.handoffTries → exec (.handoffReleaseTimeout h) s = goesOn s
               (postEvent (setEvent (s.setCtx { x with unresolved := true }) Reg.SCH_CTX_EVENT_UNRESOLVED 0) { x with unresolved := true } Ev.HANDOFF .ok Detail.HANDOFF_UNRESOLVED 0 0)))
        ∧ (∀ w, due ≤ s.now → x.taken = true → x.owner = false → x.unresolved = false →
           (bits w 48 16 = s.nodeId → exec (.handoffTakenTimeout h w) s = goesOn s (takeOwnership s x w))
           ∧ (bits w 48 16 ≠ s.nodeId → x.handoffTries < handoffRetry s → exec (.handoffTakenTimeout h w) s = goesOn s (told (s.setCtx again) x.peerNode (.taken ⟨s.nodeId, x.peerHandle, x.hseq, x.handle⟩)))
           ∧ (bits w 48 16 ≠ s.nodeId → handoffRetry s ≤ x.handoffTries → exec (.handoffTakenTimeout h w) s = goesOn s
               (postEvent (setEvent (s.setCtx { x with unresolved := true }) Reg.SCH_CTX_EVENT_ORPHAN 0) { x with unresolved := true } Ev.HANDOFF .ok Detail.HANDOFF_ORPHAN 0 0)))))

/-- For a command that nothing holds back, in a role whose index runs. LOOKUP of a prefix puts a probe in flight with its model, format, adapter, tenant and tokens; its release, once the padding of R166 has passed or at once without it, counts the lookup and writes the 32-byte record of R165 into LOOKUP's completion. A release before the padding, or of a lookup that is not there, changes nothing; that of a request's lookup with no match lets the request go on. BLAZE_PUBLISH by another than a PF request of tenant 0 ends FENCED with TRL_CLASS, with no index key FENCED with TRL_NO_KEY; otherwise a publication of its blocks begins at block 0. BLAZE_RETIRE removes every entry whose key matches under the mask, ends OK, and with no match changes nothing else. TRAIL_INSERT with no index key ends FENCED with TRL_NO_KEY; in a tenant's tree that has its root and no insertion under way, an insertion of the request's cuts begins at the root with block 0. TRAIL_REMOVE of a tenant with no tree ends OK and changes nothing; of one with a tree it removes every node, leaves first, frees the root's slots and clears the tenant's root; while another operation runs in that tree it waits. A HOLD that is refused ends the publication or insertion that waits for it with the same status; an answer nobody waits for changes nothing; and the answer to one of several holds of a hit is noted until all are in. Completes: blazePublish, blazeRetire, holdAnswer, lookup, lookupRelease, trailInsert, trailRemove. -/
def Obligations.TrailCommandsSearchAndHold : Prop :=
  ∀ (s : State),
    (∀ c : Cmd,
      (let T := begun s Op.LOOKUP c
       hostReady s Op.LOOKUP c noBad = true → trailRole T = true →
       exec (.lookup c) s = goesOn s (startLookup T (.probe c) c.fn ⟨bits c.arg0 0 16, bits c.arg0 16 8, c.arg1, c.arg2, (List.range c.arg3).map fun i => leField (cmdDesc s c) (4 * i) 4⟩))
      ∧ (let T := begun s Op.BLAZE_RETIRE c
       hostReady s Op.BLAZE_RETIRE c noBad = true → trailRole T = true →
       (∀ w e, (T.trl.blaze.filter fun e => (e.2.key &&& c.arg1) == (c.arg0 &&& c.arg1)) = [(w, e)] → onQuiesced T (recAddr T e.record) = false →
          (crcGood (T.rd (recAddr T e.record) 256) = true → exec (.blazeRetire c) s = endsWith s Op.BLAZE_RETIRE c (retireEntry T w e) Done.ok)
          ∧ (crcGood (T.rd (recAddr T e.record) 256) = false →
             exec (.blazeRetire c) s = endsWith s Op.BLAZE_RETIRE c (lastingAt T (recAddr T e.record) Detail.TRL_REC_CRC 0) (Done.of .fenced Detail.TRL_REC_CRC)))
       ∧ ((∀ e ∈ T.trl.blaze, e.2.key &&& c.arg1 ≠ c.arg0 &&& c.arg1) → exec (.blazeRetire c) s = endsWith s Op.BLAZE_RETIRE c T Done.ok))
      ∧ (let T := begun s Op.TRAIL_REMOVE c
       hostReady s Op.TRAIL_REMOVE c noBad = true → trailRole T = true →
       (treeBusy T c.arg0 = false → onQuiesced T (rootAt T c.arg0) = true → exec (.trailRemove c) s = endsWith s Op.TRAIL_REMOVE c T (Done.of .fenced Detail.FLT_STACK))
       ∧ (treeBusy T c.arg0 = false → onQuiesced T (rootAt T c.arg0) = false → rootOf T c.arg0 = 0 → exec (.trailRemove c) s = endsWith s Op.TRAIL_REMOVE c T Done.ok)
       ∧ (treeBusy T c.arg0 = false → onQuiesced T (rootAt T c.arg0) = false → rootOf T c.arg0 ≠ 0 → (∀ o ∈ postOrder T (rootOf T c.arg0) 131073, chainBad T o = none) →
          (let leaves := ((postOrder T (rootOf T c.arg0) 131073).filter (· ≠ rootOf T c.arg0)).foldl removeLeaf T
           let U := freeTreeSlot ((extChain leaves (rootOf T c.arg0) false treeFuel).foldl freeTreeSlot leaves) (rootOf T c.arg0)
           exec (.trailRemove c) s = endsWith s Op.TRAIL_REMOVE c (U.wr (treeBase ((extChain leaves (rootOf T c.arg0) false treeFuel).foldl freeTreeSlot leaves) + 8 * c.arg0) (leBytes 8 0)) Done.ok))
       ∧ (treeBusy T c.arg0 = true → exec (.trailRemove c) s = goesOn s { T with trl := { T.trl with waiting := T.trl.waiting ++ [⟨c.arg0, 0, some (Op.TRAIL_REMOVE, c), true⟩] } }))
      ∧ (∀ x : Ctx, x.owner = true → x.phase ≠ .done → x.phase ≠ .failed →
       (let T := begun s Op.BLAZE_PUBLISH c
        hostReady s Op.BLAZE_PUBLISH c noBad = true → trailRole T = true → T.ctx c.handle = some x →
        ((c.fn ≠ 0 ∨ x.tenant ≠ 0 ∨ bits x.hostCq 16 6 ≠ 0) → exec (.blazePublish c) s = endsWith s Op.BLAZE_PUBLISH c T { Done.of .fenced Detail.TRL_CLASS with handle := c.handle })
        ∧ (c.fn = 0 → x.tenant = 0 → bits x.hostCq 16 6 = 0 →
           (T.trl.key = none → exec (.blazePublish c) s = endsWith s Op.BLAZE_PUBLISH c T { Done.of .fenced Detail.TRL_NO_KEY with handle := c.handle })
           ∧ (∀ j : HoldJob, T.trl.key.isSome = true → T.r Reg.TRL_BLAZE_CFG_ENABLE = 1 →
              j = { use := .publish, handle := c.handle, cmd := some (Op.BLAZE_PUBLISH, c), cuts := [], answers := [], block := 0, count := c.arg1, node := 0, set := c.arg0, refused := (0, 0) } →
              exec (.blazePublish c) s = goesOn s (publishGo (keyServed (addJob T j).1 false) T.trl.nextJob j (c.arg1 + 1)))))
       ∧ (let T := begun s Op.TRAIL_INSERT c
        hostReady s Op.TRAIL_INSERT c noBad = true → trailRole T = true → T.ctx c.handle = some x →
        (T.trl.key = none → exec (.trailInsert c) s = endsWith s Op.TRAIL_INSERT c T { Done.of .fenced Detail.TRL_NO_KEY with handle := c.handle })
        ∧ (∀ j : HoldJob, T.trl.key.isSome = true → T.r Reg.TRL_TREE_CFG_ENABLE = 1 → treeBusy T x.tenant = false → onQuiesced T (rootAt T x.tenant) = false → rootOf T x.tenant ≠ 0 →
           j = { use := .insert, handle := x.handle, cmd := some (Op.TRAIL_INSERT, c), cuts := [], answers := [], block := 0, count := x.cutCount, node := rootOf T x.tenant, set := 0, refused := (0, 0) } →
           exec (.trailInsert c) s = goesOn s (insertGo (keyServed (addJob T j).1 false) T.trl.nextJob j (x.cutCount + 1))))))
    ∧ (∀ id late,
       (amGet id s.trl.lookups = none → exec (.lookupRelease id late) s = goesOn s s)
       ∧ (∀ l, amGet id s.trl.lookups = some l →
          (s.r Reg.TRL_EQ_CFG_ENABLE = 1 → s.now < l.issued + 8 * s.r Reg.TRL_EQ_CFG_BASE + s.r Reg.TRL_EQ_CFG_BLOCK_NS * l.searchable → exec (.lookupRelease id late) s = goesOn s s)
          ∧ (s.r Reg.TRL_EQ_CFG_ENABLE = 0 →
             (let U := { s with trl := { s.trl with lookups := amErase id s.trl.lookups } }.wrap Reg.TRL_LOOKUPS_LOOKUPS 1
              (∀ c, l.purpose = .probe c →
                (let r32 := leBytes 1 0 ++ leBytes 1 l.detail ++ leBytes 1 l.cls ++ leBytes 1 0 ++ leBytes 4 l.cuts.length ++ leBytes 4 (32 * l.cuts.length) ++ leBytes 4 l.searchable ++ leBytes 4 (s.now - l.issued) ++ leBytes 4 0 ++ leBytes 8 c.userTag
                 exec (.lookupRelease id late) s = goesOn s (completeCmd U Op.LOOKUP c { Done.of .ok l.detail with record := r32 })))
              ∧ (∀ h x, l.purpose = .request h → U.ctx h = some x → l.cuts = [] → exec (.lookupRelease id late) s = goesOn s (U.setCtx { x with lookupBusy := false })))))
       ∧ (∀ st dt,
          (amGet (id / 2 ^ 20) s.trl.jobs = none → exec (.holdAnswer id st dt) s = goesOn s s)
          ∧ (∀ j o c, amGet (id / 2 ^ 20) s.trl.jobs = some j → (j.use = .publish ∨ j.use = .insert) → j.cmd = some (o, c) → st ≠ 0 →
             (let U := { s with trl := { s.trl with jobs := amErase (id / 2 ^ 20) s.trl.jobs } }
              let V := completeCmd U o c { Done.of (statusOf st) dt with handle := j.handle, value := if j.use = .publish then j.block else 0 }
              exec (.holdAnswer id st dt) s = goesOn s (if j.use = .insert then treeGo V else V)))
          ∧ (∀ j, amGet (id / 2 ^ 20) s.trl.jobs = some j → j.use = .attach →
             (let as := listSet (id % 2 ^ 20) (some (st == 0)) j.answers
              (∃ a ∈ as, a = none) → exec (.holdAnswer id st dt) s = goesOn s { s with trl := { s.trl with jobs := amSet (id / 2 ^ 20) { j with answers := as } s.trl.jobs } }))))

/-- Messages of reconstructors are of senders that the node takes (R16). DELTA_ACKED of a delta in flight takes it out, and completes a command that waited for it alone; of another it changes nothing. DEGRADE_TIMEOUT at no data member, or at one already degraded, changes nothing; where the parity queue pair has failed, the deltas' units join the dirty map, DEGRADED is set and a record of severity 5 is kept. UNIT_LOCK at no data member, or at a quiesced node, changes nothing; at a member with nothing to wait for it takes the lock with the next generation and at once returns the unit's data with its dirty mark. UNIT_UNLOCK of a lock that is not held is answered with STALE, of one that is it releases the lock and what it held goes on; that of a RESYNC's end clears the dirty map, and DEGRADED with it, but for units written since their bytes were returned; a lock's expiry releases it in time, and before changes nothing. The data of one survivor among several is noted, a lost survivor fails the unit with CP_DOUBLE, and an answer or end nobody waits for changes nothing. REBUILD and PAR_REBUILD in another role than cache end FENCED, with a rebuild running CONFLICT; of an empty space they end OK with DONE set; else they mark every unit unbuilt and start. The end of a unit under rebuild writes it and marks it built, the last one ends the rebuild; that of a unit under repair writes it. RESYNC with no dirty unit tells all eight members and ends OK, with some it starts on them. The access sweep in another role, or within the same second, changes nothing; else it writes the next list bank and halves every page counter. SEAL of a good header to a region of this node that can be written writes the sealed stream there with fresh nonces and ends OK once its parity deltas are acknowledged; while its units are held it waits. Completes: accessSweep, degradeTimeout, deltaAcked, parRebuild, rebuild, rebuildUnitDone, resync, seal, unitLock, unitLockAnswer, unitLockExpiry, unitUnlock. -/
def Obligations.PoolDeltasLocksAndRebuilds : Prop :=
  ∀ (s : State),
    (∀ n, (amHas n s.cp.deltas = false → exec (.deltaAcked n) s = goesOn s s)
       ∧ (amHas n s.cp.deltas = true →
          (let U := { s with cp := { s.cp with deltas := amErase n s.cp.deltas } }
           exec (.deltaAcked n) s = goesOn s (deltasSettled U)
           ∧ (s.cwt.qps = [] → s.rm.mcasts = [] → s.cp.waits = [] → s.cp.locks = [] → s.cp.jobs = [] → s.changing = false → deltasSettled U = U)
           ∧ (∀ o c r, s.cp.waits = [([n], .command o c r)] → amHas n (amErase n s.cp.deltas) = false →
              settleWaits U = completeCmd { U with cp := { U.cp with waits := [] } } o c { Done.ok with result := r }))))
    ∧ (∀ q, ((dataMember s = false ∨ s.r Reg.TIR_CP_GROUP_DEGRADED = 1) → exec (.degradeTimeout q) s = goesOn s s)
       ∧ (dataMember s = true → s.r Reg.TIR_CP_GROUP_DEGRADED ≠ 1 → q = true →
          (let V := { s with cp := { s.cp with deltas := [], dirty := (s.cp.dirty ++ s.cp.deltas.flatMap (fun (d : Nat × Delta) => d.2.units)).eraseDups } }.setR Reg.TIR_CP_GROUP_DEGRADED 1
           exec (.degradeTimeout q) s = goesOn s (deltasSettled (scbNote V (faultRec Src.tier Act.recorded 5 (s.r Reg.TIR_CP_GROUP_D_IDX) 0 0))))))
    ∧ (∀ node u g, (s.role ≠ 4 ∨ node = s.nodeId) →
       ((dataMember s = false ∨ s.r Reg.MGT_ROLE_DRAIN_QUIESCED = 1) → exec (.unitLock node u) s = goesOn s s)
       ∧ (dataMember s = true → s.r Reg.MGT_ROLE_DRAIN_QUIESCED ≠ 1 → s.cp.locks = [] → (∀ d ∈ s.cp.deltas, u ∉ d.2.units) → unitUnbuilt s false u = false →
          (let l : UnitLock := { unit := u, node := node, returned := false, released := false, until_ := s.now + max 1 (s.r Reg.TIR_CP_GROUP_LOCK_US) * 1000 }
           let U := { s with cp := { s.cp with locks := [(s.cp.nextGen, l)], nextGen := s.cp.nextGen + 1 } }
           let V := told (chargeClass U 2 unitBytes) node (.unitData u s.cp.nextGen (s.cp.dirty.contains u) (unitRead U u))
           exec (.unitLock node u) s = goesOn s { V with cp := { V.cp with locks := [(s.cp.nextGen, { l with returned := true })],
                                                                           clean := if s.cp.dirty.contains u = true ∧ s.cp.clean.contains u = false then s.cp.clean ++ [u] else s.cp.clean } }))
       ∧ (let left := s.cp.dirty.filter fun u => !s.cp.clean.contains u
          let U := { s with cp := { s.cp with dirty := left, clean := [] } }
          exec (.unitUnlock node u g true) s = goesOn s (if left = [] then U.setR Reg.TIR_CP_GROUP_DEGRADED 0 else U))
       ∧ (amGet g s.cp.locks = none → exec (.unitUnlock node u g false) s = goesOn s (told s node (.unitStale u g)) ∧ exec (.unitLockExpiry g) s = goesOn s s)
       ∧ (∀ l, amGet g s.cp.locks = some l →
          (l.unit = u → l.released = false → exec (.unitUnlock node u g false) s = goesOn s (unitsSettled { s with cp := { s.cp with locks := amErase g s.cp.locks } }))
          ∧ (l.released = true → exec (.unitUnlock node u g false) s = goesOn s (told s node (.unitStale u g)))
          ∧ (s.now < l.until_ → exec (.unitLockExpiry g) s = goesOn s s)
          ∧ (l.until_ ≤ s.now → l.released = false → exec (.unitLockExpiry g) s = goesOn s
              (unitsSettled { s with cp := { s.cp with locks := if l.returned then amErase g s.cp.locks else amSet g { l with released := true } s.cp.locks } })))
       ∧ (s.cp.jobs = [] → exec (.rebuildUnitDone u) s = goesOn s s ∧ ∀ a, exec (.unitLockAnswer node u a) s = goesOn s s)
       ∧ (∀ j gen d b, s.cp.jobs = [j] → j.begun = true → j.unit = u → node ∈ j.asked → j.result = none →
          (j.answers = [] → j.asked.length ≠ 1 → (d = false ∨ j.lost = 8) →
            exec (.unitLockAnswer node u (.data gen d b)) s = goesOn s { s with cp := { s.cp with jobs := [{ j with answers := [(node, gen, fit unitBytes b)] }] } })
          ∧ exec (.unitLockAnswer node u .lost) s = goesOn s (unitsSettled (unitFail s j Detail.CP_DOUBLE))))
    ∧ (∀ u j b, s.cp.jobs.find? (fun j => j.unit == u && j.result.isSome) = some j → j.result = some b →
       (let U := dropUnit s j
        (j.use = .rebuild →
          (let V := if j.lost = 8 then U.wr (parAddr U u) b else loadUnit (U.wr (protAddr U (u * unitBytes)) b) u
           let W := rebRegs { V with cp := { V.cp with built := V.cp.built ++ [u], front := V.cp.front.filter (· ≠ u) } }
           exec (.rebuildUnitDone u) s = goesOn s (unitsSettled (if W.cp.unTo ≤ W.cp.built.length then rebuildEnd W Done.ok else W))))
        ∧ (j.use = .repair →
          (let V := U.wr (protAddr U (u * unitBytes)) b
           exec (.rebuildUnitDone u) s = goesOn s (unitsSettled { V with cp := { V.cp with repairs := amMap (fun _ (r : Repair) => { r with need := r.need.filter (· ≠ u) }) V.cp.repairs } })))))
    ∧ (∀ c : Cmd,
       (let starts (o : Nat) (p : Bool) (T : State) (n : State → Nat) (out : Host.Outcome State Fault Refusal) : Prop :=
          (roleEnables T [3] = false → out = endsWith s o c T (Done.of .fenced 0))
          ∧ (roleEnables T [3] = true → T.cp.rebuild.isSome = true → out = endsWith s o c T (Done.of .conflict 0))
          ∧ (roleEnables T [3] = true → T.cp.rebuild = none →
             (let U := rebRegs ({ T with cp := { T.cp with rebuild := some ⟨o, c, p, []⟩, unPar := p, unTo := n T, built := [], front := [] } }.setR Reg.TIR_CP_REB_STATUS_DONE 0)
              (n U ≠ 0 → out = goesOn s (rebuildGo U))
              ∧ (n U = 0 → out = endsWith s o c (rebRegs ({ U with cp := { U.cp with rebuild := none } }.setR Reg.TIR_CP_REB_STATUS_DONE 1)) Done.ok)))
        (hostReady s Op.REBUILD c noBad = true → starts Op.REBUILD false (begun s Op.REBUILD c) (fun S => protSize S / 65536) (exec (.rebuild c) s))
        ∧ (hostReady s Op.PAR_REBUILD c noBad = true → starts Op.PAR_REBUILD true (begun s Op.PAR_REBUILD c) (fun S => parSize S / 65536) (exec (.parRebuild c) s)))
       ∧ (let T := begun s Op.RESYNC c
        hostReady s Op.RESYNC c noBad = true →
        (∀ us, roleEnables T [3] = false → exec (.resync c us) s = endsWith s Op.RESYNC c T (Done.of .fenced 0))
        ∧ (roleEnables T [3] = true → T.cp.rebuild = none →
          exec (.resync c []) s = endsWith s Op.RESYNC c ((List.range 8).foldl (fun U k => told U (U.r (Reg.TIR_CP_MEMBER_NODE.at 4 (k + 9))) .resynced) T) Done.ok
          ∧ ∀ us, us ≠ [] → exec (.resync c us) s = goesOn s (rebuildGo (rebRegs { T with cp := { T.cp with rebuild := some ⟨Op.RESYNC, c, true, us.eraseDups⟩ } }))))
       ∧ (let T := begun s Op.SEAL c
        let d := cmdDesc s c
        let h := StreamHdr.ofBytes d
        ∀ a, hostReady s Op.SEAL c noBad = true → roleEnables T [3, 4] = true → T.changing = false → streamHdrOk h d = true → regionAddr T c.arg1 c.arg2 (streamStored h) = .ok a →
        (dataMember T = true → inProt T a (streamStored h) = true) → doubleLost T a (streamStored h) = false → memTrouble T a (streamStored h) = none →
        (blockedUnits T a (streamStored h) true ≠ [] →
          exec (.seal c) s = goesOn s (unstartCmd (holdWork T (blockedUnits T a (streamStored h) true) (.command Op.SEAL c)) Op.SEAL c))
        ∧ (∀ k, blockedUnits T a (streamStored h) true = [] → T.dmaOk c.fn c.arg0 h.plainLen = true → keyUse T h.keySlot h.tenant false = .ok k →
          (let U := unhold T.takeFree (.command Op.SEAL c)
           let V := pageTouch (chargeClass (putBytes U a (sealedStream d (drbg T 8) k.stream (T.rd (hostXA c.arg0) h.plainLen))) 1 (streamStored h)) a (streamStored h)
           (newDeltas U V = [] → exec (.seal c) s = endsWith s Op.SEAL c V { Done.ok with result := 0 })
           ∧ (newDeltas U V ≠ [] → exec (.seal c) s = goesOn s (waitDeltas V (newDeltas U V) (.command Op.SEAL c 0)))))))
    ∧ ((s.role ≠ 3 ∨ s.now / 10 ^ 9 ≤ s.cp.sweptAt / 10 ^ 9) → exec .accessSweep s = goesOn s s)
    ∧ (s.role = 3 → s.cp.sweptAt / 10 ^ 9 < s.now / 10 ^ 9 →
       (let g := (s.r Reg.TIR_CP_LIST_GEN_GEN + 1) % 2 ^ 32
        let bank := s.r Reg.TIR_CP_ACC_BASE_BASE * 2 ^ 21 + 0x800000 + g % 2 * 0x80000
        let hot := pagesBy s ((List.range (65536 - s.r Reg.TIR_CP_ACC_CFG_HOT_THRESH)).map (65535 - ·))
        let cold := pagesBy s (List.range (s.r Reg.TIR_CP_ACC_CFG_COLD_THRESH + 1))
        let listed := s.wr bank (leBytes 8 g ++ leBytes 8 s.now ++ leBytes 4 hot.length ++ leBytes 4 cold.length ++ leBytes 40 0 ++ (hot ++ cold).flatMap (pageEntry s))
        let halved := (List.range (pageTotal listed)).foldl (fun U p => U.wr (pageAt U p) (leBytes 2 (pageCount U p / 2))) listed
        exec .accessSweep s = goesOn s ({ halved with cp := { halved.cp with sweptAt := halved.now } }.setR Reg.TIR_CP_LIST_GEN_GEN g)
        ∧ (pageTotal s = 0 → ∃ W, exec .accessSweep s = .next (keepQueue s W) ∧ W.cp = { s.cp with sweptAt := s.now } ∧ W.r Reg.TIR_CP_LIST_GEN_GEN = g ∧ W.sent = s.sent
          ∧ W.mem = memWriteN s.mem bank (leBytes 8 g ++ leBytes 8 s.now ++ leBytes 48 0))))

/-- For a command that nothing holds back; every MAP_INSTALL completes with its tag as RESULT. A map with node 0, a role above 4, a reserved flag, a non-zero reserved byte, or both JOIN and LEAVE ends FENCED and MAP_SEQ. A node with no number that joins with its own role takes the number, the epoch and the successor, and is joined with its role live; one that has another role ends CONFLICT and MAP_ROLE. A joined node takes the next epoch with its successor, its role live, a repeat of its epoch and successor ends OK and changes nothing, and an epoch behind it ends STALE. ROLE_BEGIN with nothing under way notes the next role and the quiesce request and reads CHANGING, a repeat ends OK, and QUIESCE at a node not in cache role ends FENCED and DRAIN_PENDING. ROLE_ABORT of a change not yet quiesced puts the role back; with none under way it ends CONFLICT and ROLE_BUSY. ROLE_COMMIT with no change under way ends OK; with a condition of R424 open it ends CONFLICT and DRAIN_PENDING; with all met and an image for the role in every column, the role changes, CHANGING, QUIESCE and QUIESCED clear and the role is not live until the next map. PROG_LOAD of a good image to columns whose stands are all fenced stores it in each of them and gives their stands its identifier and version; with a stand not fenced it ends CONFLICT. The refusal of a reserved next role is log 16. Completes: mapInstall, progLoad, roleAbort, roleBegin, roleCommit. -/
def Obligations.MapsAndRolesChange : Prop :=
  ∀ (s : State) (c : Cmd),
    (let T := begun s Op.MAP_INSTALL c
     let d := cmdDesc s c
     let epoch := leField d 0 2
     let node := leField d 2 2
     let role := leField d 4 1
     let fl := leField d 5 1
     let succ := leField d 6 2
     let e (st : Status) (dt : Nat) : Done := { Done.of st dt with result := leField d 8 8 }
     let dist := (epoch + 65536 - T.r Reg.MGT_MAP_EPOCH_EPOCH) % 65536
     let bad := node = 0 ∨ 4 < role ∨ 4 ≤ fl ∨ allZero (d.drop 0x10) = false ∨ (bit fl 0 = true ∧ bit fl 1 = true)
     hostReady s Op.MAP_INSTALL c noBad = true →
     (bad → exec (.mapInstall c) s = endsWith s Op.MAP_INSTALL c T (e .fenced Detail.MAP_SEQ))
     ∧ (¬ bad → bit fl 0 = true → T.nodeId = 0 →
        (role ≠ T.role → exec (.mapInstall c) s = endsWith s Op.MAP_INSTALL c T (e .conflict Detail.MAP_ROLE))
        ∧ (role = T.role → exec (.mapInstall c) s = endsWith s Op.MAP_INSTALL c
            (((((T.setR Reg.MGT_ROLE_NODE_ID node).setR Reg.MGT_MAP_EPOCH_EPOCH epoch).setR Reg.MGT_MAP_EPOCH_JOINED 1).setR Reg.MGT_MAP_EPOCH_ROLE_LIVE 1).setR Reg.MGT_MAP_SUCC_SUCC succ) (e .ok 0)))
     ∧ (¬ bad → fl = 0 → T.r Reg.MGT_MAP_EPOCH_JOINED = 1 → node = T.nodeId → role = T.role →
        (dist = 1 → exec (.mapInstall c) s = endsWith s Op.MAP_INSTALL c (((T.setR Reg.MGT_MAP_EPOCH_EPOCH epoch).setR Reg.MGT_MAP_SUCC_SUCC succ).setR Reg.MGT_MAP_EPOCH_ROLE_LIVE 1) (e .ok 0))
        ∧ (dist = 0 → succ = T.r Reg.MGT_MAP_SUCC_SUCC → exec (.mapInstall c) s = endsWith s Op.MAP_INSTALL c T (e .ok 0))
        ∧ (32768 ≤ dist → exec (.mapInstall c) s = endsWith s Op.MAP_INSTALL c T (e .stale 0))))
    ∧ (let T := begun s Op.ROLE_BEGIN c
       let nxt := bits c.arg0 0 3
       let q := bit c.arg0 8
       hostReady s Op.ROLE_BEGIN c noBad = true → nxt ≤ 4 →
       (T.changing = true → q = true → T.role ≠ 3 → exec (.roleBegin c) s = endsWith s Op.ROLE_BEGIN c (roleFence (quiesceCheck T)) (Done.of .fenced Detail.DRAIN_PENDING))
       ∧ (T.changing = true → (q = true → T.role = 3) → rollOrActivation T = false → nxt = T.r Reg.MGT_ROLE_ROLE_NEXT → q = (T.r Reg.MGT_ROLE_DRAIN_QUIESCE == 1) →
          exec (.roleBegin c) s = endsWith s Op.ROLE_BEGIN c (roleFence (quiesceCheck T)) Done.ok)
       ∧ (T.changing = false → (q = true → T.role = 3) → rollOrActivation T = false →
          (let U := ((T.setR Reg.MGT_ROLE_ROLE_NEXT nxt).setR Reg.MGT_ROLE_CHANGING 1).setR Reg.MGT_ROLE_DRAIN_QUIESCE (if q then 1 else 0)
           exec (.roleBegin c) s = endsWith s Op.ROLE_BEGIN c (roleFence (quiesceCheck { U with mgt := { U.mgt with drainFenced := false } })) Done.ok)))
    ∧ (let T := begun s Op.ROLE_ABORT c
       hostReady s Op.ROLE_ABORT c noBad = true →
       (T.changing = false → exec (.roleAbort c) s = endsWith s Op.ROLE_ABORT c T (Done.of .conflict Detail.ROLE_BUSY))
       ∧ (T.changing = true → T.r Reg.MGT_ROLE_DRAIN_QUIESCED = 0 →
          exec (.roleAbort c) s = endsWith s Op.ROLE_ABORT c (((T.setR Reg.MGT_ROLE_ROLE_NEXT T.role).setR Reg.MGT_ROLE_CHANGING 0).setR Reg.MGT_ROLE_DRAIN_QUIESCE 0) Done.ok))
    ∧ (let T := begun s Op.ROLE_COMMIT c
       let F := roleFence T
       hostReady s Op.ROLE_COMMIT c noBad = true →
       (F.changing = false → exec (.roleCommit c) s = endsWith s Op.ROLE_COMMIT c F Done.ok)
       ∧ (∀ i, i < 8 → F.changing = true → drainCond F i = false → exec (.roleCommit c) s = endsWith s Op.ROLE_COMMIT c F (Done.of .conflict Detail.DRAIN_PENDING))
       ∧ (F.changing = true → (∀ i, i < 8 → drainCond F i = true) → imagesReady F = true → F.r Reg.MGT_ROLE_ROLE_NEXT ≠ 0 →
          exec (.roleCommit c) s = endsWith s Op.ROLE_COMMIT c
            (((((F.setR Reg.MGT_ROLE_ROLE (F.r Reg.MGT_ROLE_ROLE_NEXT)).setR Reg.MGT_ROLE_CHANGING 0).setR Reg.MGT_MAP_EPOCH_ROLE_LIVE 0).setR Reg.MGT_ROLE_DRAIN_QUIESCE 0).setR Reg.MGT_ROLE_DRAIN_QUIESCED 0) Done.ok))
    ∧ (let T := roleFence (begun s Op.PROG_LOAD c)
       let cols := (List.range 8).filter fun i => bit c.arg1 i
       let n := 128 + (if imageHdrOk (T.rd c.arg0 128) = true then 16 * leField (T.rd c.arg0 128) 6 2 else 0)
       hostReady s Op.PROG_LOAD c noBad = true → imageSpaceOk T c.arg0 128 = true → imageSpaceOk T c.arg0 n = true →
       (xaSpace c.arg0 = 3 → T.dmaOk c.fn (xaAddr c.arg0) 128 = true ∧ T.dmaOk c.fn (xaAddr c.arg0) n = true) →
       ((∃ k ∈ cols, ∃ st ∈ colStands k, standFenced T st = false) → exec (.progLoad c) s = endsWith s Op.PROG_LOAD c T (Done.of .conflict 0))
       ∧ (∀ im body, (∀ k ∈ cols, ∀ st ∈ colStands k, standFenced T st = true) → (xaSpace c.arg0 = 3 ∨ memTrouble T c.arg0 n = none) → memTrouble T (imageBase T) 0x200000 = none →
          imageAt T c.arg0 = some (im, body) → imageRole T im = true →
          exec (.progLoad c) s = endsWith s Op.PROG_LOAD c
            (cols.foldl (fun U k => (colStands k).foldl (fun U st => ((U.setStand st { U.stand st with image := some im, badLines := [] }).setR (Reg.STD_PROG_ID_IMAGE_ID.at 0x10000 st) im.id).setR (Reg.STD_PROG_ID_VERSION.at 0x10000 st) im.version)
              (U.wr (imageBase U + 0x40000 * k) body)) T) Done.ok))

/-- For commands that nothing holds back. ROLL_COLUMN on a column of the part with DRAIN_US of at least 100, where no roll, activation or role change is under way and no test or gating drains, records the roll with its deadline and shows it running; while a frame of the column is live the command goes on, otherwise the image is loaded at once. An ended drain withdraws the column's frames. SELFTEST of a column does the same with a deadline of 1 s and then runs; SELFTEST of a lane walks the port's spare to it. SELFTEST_END of a column that has run its 120 ms records each stand, gives the column back and completes OK where all passed, else FENCED and FLT_SELFTEST; of a lane after 20 ms likewise. STAND_UNFENCE of a stand that no trip, gate or test holds ends CONFLICT and FLT_SELFTEST where it failed lastingly and otherwise takes the unfenced mark. LANE_RESTORE of the retired lane that has passed makes it the port's spare again. STACK_QUIESCE and STACK_FAULT quiesce the stack. Completes: columnDrainExpiry, laneRestore, rollColumn, selftest, selftestEnd, stackFault, stackQuiesce, standUnfence. -/
def Obligations.RollsTestsAndFences : Prop :=
  ∀ (s : State) (c : Cmd),
    (let T := begun s Op.ROLL_COLUMN c
     let r : Roll := ⟨c.arg0, c.arg1, T.now + c.arg2 * 1000, c⟩
     let U := (({ T with mgt := { T.mgt with roll := some r } } : State).setR Reg.MGT_ROLL_STATUS_RUNNING 1).setR Reg.MGT_ROLL_STATUS_COLUMN c.arg0
     hostReady s Op.ROLL_COLUMN c noBad = true → 100 ≤ c.arg2 → c.arg0 < T.r Reg.MGT_FAMILY_PARAM_STACKS →
     ((rollOrActivation T = true ∨ T.changing = true) → exec (.rollColumn c) s = endsWith s Op.ROLL_COLUMN c T (Done.of .conflict Detail.ROLE_BUSY))
     ∧ (rollOrActivation T = false → T.changing = false → T.mgt.trans = none → T.mgt.colTest = none →
        (drained U c.arg0 = false → exec (.rollColumn c) s = goesOn s U) ∧ (drained U c.arg0 = true → exec (.rollColumn c) s = goesOn s (rollLoad U r))))
    ∧ (∀ r, s.mgt.roll = some r → s.mgt.trans = none → s.mgt.colTest = none →
        (r.deadline ≤ s.now → exec .columnDrainExpiry s = goesOn s (drainCheck (clearStands s (colStands r.col))))
        ∧ (s.now < r.deadline → drained s r.col = false → exec .columnDrainExpiry s = goesOn s s))
    ∧ (let T := begun s Op.SELFTEST c
       let k := bits c.arg0 4 3
       let l := bits c.arg0 8 4
       let t : ColTest := ⟨k, false, T.now + 1000000000, c⟩
       let U := (({ T with mgt := { T.mgt with colTest := some t } } : State).setR Reg.MGT_SELFTEST_COL_RUNNING 1).setR Reg.MGT_SELFTEST_COL k
       let W : State := { walkTo T k l with mgt := { T.mgt with laneCal := some ⟨k, l, T.now, c⟩ } }
       hostReady s Op.SELFTEST c noBad = true →
       (bit c.arg0 0 = false → k < T.r Reg.MGT_FAMILY_PARAM_STACKS → T.mgt.colTest = none → rollOrActivation T = false → T.changing = false →
          T.mgt.trans = none → T.mgt.roll = none →
          (drained U k = false → exec (.selftest c) s = goesOn s U) ∧ (drained U k = true → exec (.selftest c) s = goesOn s (testBegin U t)))
       ∧ (bit c.arg0 0 = true → k < T.r Reg.MGT_FAMILY_PARAM_ETH_PORTS → l < 9 → T.mgt.laneCal = none →
          (spareUsed T k = true → exec (.selftest c) s = endsWith s Op.SELFTEST c T (Done.of .fenced Detail.FLT_LANE))
          ∧ (spareUsed T k = false → exec (.selftest c) s = goesOn s
              (((W.setR Reg.MGT_SELFTEST_LANE_RUNNING 1).setR Reg.MGT_SELFTEST_PORT k).setR Reg.MGT_SELFTEST_LANE l))))
    ∧ (∀ t pass, s.mgt.colTest = some t → t.running = true → t.deadline ≤ s.now →
        let U := (List.range 8).foldl (fun U k => standTested U (8 * t.col + k) (bit pass k)) s
        exec (.selftestEnd false pass) s = goesOn s (completeCmd
          (((giveColumn { U with mgt := { U.mgt with colTest := none } } t.col).setR Reg.MGT_SELFTEST_COL_RUNNING 0).wrap Reg.MGT_SELFTEST_COMPLETED 1)
          Op.SELFTEST t.cmd (if pass % 256 = 255 then Done.ok else Done.of .fenced Detail.FLT_SELFTEST)))
    ∧ (∀ t pass, s.mgt.laneCal = some t → t.since + 20000000 ≤ s.now →
        let k := laneNo t.port t.lane
        let U : State := { s with mgt := { s.mgt with laneCal := none, lanePass := s.mgt.lanePass.filter (· ≠ k) ++ (if bit pass 0 then [k] else []) } }
        exec (.selftestEnd true pass) s = goesOn s (completeCmd
          (((laneCalibrated (testRecord U k (bit pass 0)) t.port t.lane (bit pass 0)).setR Reg.MGT_SELFTEST_LANE_RUNNING 0).wrap Reg.MGT_SELFTEST_COMPLETED 1)
          Op.SELFTEST t.cmd (if bit pass 0 then Done.ok else Done.of .fenced Detail.FLT_SELFTEST)))
    ∧ (let T := begun s Op.STAND_UNFENCE c
       let st := c.arg0
       hostReady s Op.STAND_UNFENCE c noBad = true →
       (T.r Reg.MGT_FAMILY_PARAM_STANDS ≤ st → exec (.standUnfence c) s = endsWith s Op.STAND_UNFENCE c T (Done.of .fenced 0))
       ∧ (st < T.r Reg.MGT_FAMILY_PARAM_STANDS → T.mgt.thermalTrip = false → (gatedMask T).getLsbD st = false → underTest T st = false →
          (T.mgt.lasting.getLsbD st = true → exec (.standUnfence c) s = endsWith s Op.STAND_UNFENCE c T (Done.of .conflict Detail.FLT_SELFTEST))
          ∧ (T.mgt.lasting.getLsbD st = false → exec (.standUnfence c) s = endsWith s Op.STAND_UNFENCE c
              { T with mgt := { T.mgt with notUnfenced := T.mgt.notUnfenced &&& ~~~(1#64 <<< st) } } Done.ok)))
    ∧ (let T := begun s Op.LANE_RESTORE c
       let p := bits c.arg0 0 3
       let l := bits c.arg0 8 4
       hostReady s Op.LANE_RESTORE c noBad = true → p < T.r Reg.MGT_FAMILY_PARAM_ETH_PORTS → l < 9 → retiredLane T p = l →
       (T.mgt.lanePass.contains (laneNo p l) = false → exec (.laneRestore c) s = endsWith s Op.LANE_RESTORE c T (Done.of .conflict Detail.FLT_SELFTEST))
       ∧ (T.mgt.lanePass.contains (laneNo p l) = true → exec (.laneRestore c) s = endsWith s Op.LANE_RESTORE c
           ((({ T with cwt := { T.cwt with spareAt := amSet p T.now T.cwt.spareAt } } : State).setR (Reg.MGT_LANE_STATE_RETIRED.at 4 p) 0xF).setR (Reg.MGT_LANE_STATE_SPARE_USED.at 4 p) 0) Done.ok))
    ∧ (let T := begun s Op.STACK_QUIESCE c
       hostReady s Op.STACK_QUIESCE c noBad = true → c.arg0 < T.r Reg.MGT_FAMILY_PARAM_STACKS →
       exec (.stackQuiesce c) s = endsWith s Op.STACK_QUIESCE c (quiesceStack T c.arg0) Done.ok)
    ∧ (∀ k, k < 8 → exec (.stackFault k) s = goesOn s (quiesceStack s k))

/-- For commands that nothing holds back. FW_STAGE of an image the boot ROM accepts writes it to the bank that is not active and marks it staged; of one it does not accept, it empties that bank, nothing is staged, and it ends FENCED and FW_IMAGE; of the image already staged it ends OK and changes nothing. FW_ACTIVATE with a staged bank restarts the core into it as TRIAL and waits; with none it ends OK where a TRIAL bank is active (log 109); with none and no TRIAL, or during a role change, roll or activation, it ends CONFLICT and ROLE_BUSY. FW_CONFIRM ends TRIAL and raises MIN_SVN to the active image's security version; without a TRIAL bank it changes nothing. A core that is ready again, its image accepted by the boot ROM, runs and ends FW_ACTIVATE with OK; a TRIAL image that is not accepted does not run, and without a TRIAL the other bank runs, or with neither accepted the part stays in recovery; one that is not 2 s after FW_ACTIVATE restarts from the other bank with FALLBACK set and ends it FENCED and FW_FALLBACK. The watchdog restarts the core alone, from the other bank where the active one is TRIAL. Completes: fwActivate, fwConfirm, fwStage, fwTrialTimeout, mgtCoreReady, mgtWatchdog. -/
def Obligations.FirmwareBanksChange : Prop :=
  ∀ (s : State) (c : Cmd),
    (let T := begun s Op.FW_STAGE c
     let l := T.rd (hostXA c.arg0) c.arg1
     let k := 1 - T.r Reg.MGT_FW_STATUS_ACTIVE_BANK
     let held : Prop := T.mgt.staged = some k ∧ (T.mgt.banks[k]?).any (fun b => b.image == some l) = true
     let fits : Prop := 8192 ≤ c.arg1 ∧ c.arg1 ≤ 0x2000000 ∧ fwOk T l = true
     hostReady s Op.FW_STAGE c noBad = true → T.dmaOk c.fn c.arg0 c.arg1 = true →
     (held → exec (.fwStage c) s = endsWith s Op.FW_STAGE c T Done.ok)
     ∧ (¬ held → fits → exec (.fwStage c) s = endsWith s Op.FW_STAGE c
          (fwRegs { T with mgt := { T.mgt with banks := listMod k (fun _ => ⟨some l, leField l 4 2⟩) T.mgt.banks, staged := some k } }) Done.ok)
     ∧ (¬ held → ¬ fits → exec (.fwStage c) s = endsWith s Op.FW_STAGE c
          (fwRegs { T with mgt := { T.mgt with banks := listMod k (fun _ => ⟨none, 0⟩) T.mgt.banks, staged := none } }) (Done.of .fenced Detail.FW_IMAGE)))
    ∧ (let T := begun s Op.FW_ACTIVATE c
       hostReady s Op.FW_ACTIVATE c noBad = true →
       ((T.changing = true ∨ rollOrActivation T = true) → exec (.fwActivate c) s = endsWith s Op.FW_ACTIVATE c T (Done.of .conflict Detail.ROLE_BUSY))
       ∧ (T.changing = false → rollOrActivation T = false →
          (T.mgt.staged = none → T.r Reg.MGT_FW_STATUS_TRIAL = 1 → exec (.fwActivate c) s = endsWith s Op.FW_ACTIVATE c T Done.ok)
          ∧ (T.mgt.staged = none → T.r Reg.MGT_FW_STATUS_TRIAL ≠ 1 → exec (.fwActivate c) s = endsWith s Op.FW_ACTIVATE c T (Done.of .conflict Detail.ROLE_BUSY))
          ∧ (∀ k, T.mgt.staged = some k → exec (.fwActivate c) s = goesOn s (fwRegs
              ((({ T with mgt := { T.mgt with staged := none, activating := some c, activateStart := T.now, coreUp := false } } : State).setR Reg.MGT_FW_STATUS_ACTIVE_BANK k).setR Reg.MGT_FW_STATUS_TRIAL 1)))))
    ∧ (let T := begun s Op.FW_CONFIRM c
       hostReady s Op.FW_CONFIRM c noBad = true →
       (T.r Reg.MGT_FW_STATUS_TRIAL = 0 → exec (.fwConfirm c) s = endsWith s Op.FW_CONFIRM c T Done.ok)
       ∧ (∀ b l, T.r Reg.MGT_FW_STATUS_TRIAL ≠ 0 → T.mgt.banks[T.r Reg.MGT_FW_STATUS_ACTIVE_BANK]? = some b → b.bytes = some l →
          exec (.fwConfirm c) s = endsWith s Op.FW_CONFIRM c (({ T with mgt := { T.mgt with minSvn := max T.mgt.minSvn (leField l 2 2) } } : State).setR Reg.MGT_FW_STATUS_TRIAL 0) Done.ok))
    ∧ (s.mgt.coreUp = false → s.r Reg.MGT_BOOT_STATUS_READY ≠ 0 →
        (s.r Reg.MGT_BOOT_STATUS_RECOVERY ≠ 1 →
          (bankOk s (activeBank s) = true →
            (s.mgt.activating = none → exec .mgtCoreReady s = goesOn s { s with mgt := { s.mgt with coreUp := true } })
            ∧ (s.mgt.activating = some c → exec .mgtCoreReady s = endsWith s Op.FW_ACTIVATE c { s with mgt := { s.mgt with coreUp := true, activating := none } } Done.ok))
          ∧ (bankOk s (activeBank s) = false →
            (s.r Reg.MGT_FW_STATUS_TRIAL = 1 → exec .mgtCoreReady s = goesOn s s)
            ∧ (s.r Reg.MGT_FW_STATUS_TRIAL ≠ 1 → bankOk s (otherBank s) = true → s.mgt.activating = none → exec .mgtCoreReady s = goesOn s
                (let U := s.setR Reg.MGT_FW_STATUS_ACTIVE_BANK (otherBank s); { U with mgt := { U.mgt with coreUp := true } }))
            ∧ (s.r Reg.MGT_FW_STATUS_TRIAL ≠ 1 → bankOk s (otherBank s) = false → exec .mgtCoreReady s = goesOn s (romRecovery s))))
        ∧ (s.mgt.activating = some c → s.mgt.activateStart + 2000000000 ≤ s.now →
            exec .fwTrialTimeout s = endsWith s Op.FW_ACTIVATE c
              (((({ s with mgt := { s.mgt with activating := none, coreUp := false } } : State).setR Reg.MGT_FW_STATUS_ACTIVE_BANK (1 - s.r Reg.MGT_FW_STATUS_ACTIVE_BANK)).setR Reg.MGT_FW_STATUS_TRIAL 0).setR Reg.MGT_FW_STATUS_FALLBACK 1)
              (Done.of .fenced Detail.FW_FALLBACK)))
    ∧ (s.mgt.coreUp = true →
        let U : State := { s with mgt := { s.mgt with coreUp := false } }
        (s.r Reg.MGT_FW_STATUS_TRIAL = 1 → exec .mgtWatchdog s = goesOn s
            (((U.setR Reg.MGT_FW_STATUS_ACTIVE_BANK (1 - s.r Reg.MGT_FW_STATUS_ACTIVE_BANK)).setR Reg.MGT_FW_STATUS_TRIAL 0).setR Reg.MGT_FW_STATUS_FALLBACK 1))
        ∧ (s.r Reg.MGT_FW_STATUS_TRIAL ≠ 1 → exec .mgtWatchdog s = goesOn s
            ((U.setR Reg.MGT_FW_STATUS_ACTIVE_BANK (s.r Reg.MGT_FW_STATUS_ACTIVE_BANK)).setR Reg.MGT_FW_STATUS_TRIAL 0)))

namespace Sys2Proof.Machine
/-- The job of a command that begins to read a stored stream: the adapter slot it pins, and the slot of a table (R223). -/
def streamJob (o : Nat) (c : Cmd) (use : StreamUse) (desc : List Byte) (adp : Option Nat) (slot : Nat) : StreamJob :=
  { op := o, cmd := c, use := use, desc := desc, layer := slot, heads := [], copied := [], hdr := [], seg := 0, prevTag := [], retried := [], plain := [], stored := [],
    held := none, scanned := 0, blocks := [], seen := [], users := [], adp := adp, same := none }

/-- The state once that job stands and the read of the 256 bytes of a header has gone to the node that holds the stream (R223). -/
def streamBegun (T : State) (j : StreamJob) (node key off : Nat) : State :=
  { T with cdc := { T.cdc with jobs := amSet T.cdc.nextJob j T.cdc.jobs, nextJob := T.cdc.nextJob + 1 },
           xch := { T.xch with reads := amSet T.xch.nextRead ⟨.stream T.cdc.nextJob, 0, 256⟩ T.xch.reads, nextRead := T.xch.nextRead + 1 },
           sent := T.sent ++ [.msg node (.readRegion T.xch.nextRead key off 256)] }
end Sys2Proof.Machine
/-- For commands that nothing holds back. EXPAND is FENCED at a node whose role has no codec, FLT_LINK where the flexible port is down, and CDC_ADP_ABSENT where its adapter is not resident; EXPAND, TABLE_LOAD and ADAPTER_LOAD begin a job that reads its stream, an EXPAND with an adapter pinning its slot; of a stream at another node they read the 256 bytes of its header there. TABLE_LOAD ends CONFLICT with ROLE_BUSY while a role changes. TABLE_FREE ends CONFLICT for a table that is in use, being loaded, or a model's, and else empties the slot. ADAPTER_LOAD of version or adapter 0 ends FENCED with CDC_FORMAT, of a resident word OK, of an older version STALE, and with no slot free NO_CREDIT and CDC_ADP_SLOTS. ADAPTER_RETIRE retires what is current. Completes: expand, tableLoad, tableFree, adapterLoad, adapterRetire. -/
def Obligations.StreamCommandsBegin : Prop :=
  ∀ (s : State) (c : Cmd),
    let begins (T : State) (j : StreamJob) : State :=
      streamRun streamFuel { T with cdc := { T.cdc with jobs := amSet T.cdc.nextJob j T.cdc.jobs, nextJob := T.cdc.nextJob + 1 } } T.cdc.nextJob
    (let T := begun s Op.EXPAND c
     let d := cmdDesc s c
     let port := leField d 0x1D 1
     let fits := expandDescOk d = true ∧ (T.r (Reg.HIF_FLEX_CFG_MODE.at 0x20 port) = 1 ∨ T.r (Reg.HIF_FLEX_CFG_MODE.at 0x20 port) = 3)
       ∧ (leField d 0x30 4 = 0 ∨ tenantInRange T c.fn (leField d 0x30 4) = true)
     hostReady s Op.EXPAND c noBad = true →
     (expandRole T = false → exec (.expand c) s = endsWith s Op.EXPAND c T (Done.of .fenced 0))
     ∧ (expandRole T = true → fits →
        (portLive T port = false → exec (.expand c) s = endsWith s Op.EXPAND c T (Done.of .fenced Detail.FLT_LINK))
        ∧ (portLive T port = true → leField d 0x34 4 = 0 → leField d 6 2 ≠ T.nodeId →
           exec (.expand c) s = goesOn s (streamBegun T (streamJob Op.EXPAND c .expand d none 0) (leField d 6 2) (leField d 8 4) (leField d 0 6)))
        ∧ (portLive T port = true → leField d 0x34 4 = 0 → exec (.expand c) s = goesOn s (begins T (streamJob Op.EXPAND c .expand d none 0)))
        ∧ (∀ k a, portLive T port = true → leField d 0x34 4 ≠ 0 → adpResident T (leField d 0x34 4) = some (k, a) → leField d 0x38 2 < a.layers.length →
           exec (.expand c) s = goesOn s (begins { T with cdc := { T.cdc with adps := amSet k { a with pins := a.pins + 1 } T.cdc.adps } } (streamJob Op.EXPAND c .expand d (some k) 0)))
        ∧ (portLive T port = true → leField d 0x34 4 ≠ 0 → adpResident T (leField d 0x34 4) = none →
           exec (.expand c) s = endsWith s Op.EXPAND c T (Done.of .fenced Detail.CDC_ADP_ABSENT))))
    ∧ (let T := begun s Op.TABLE_LOAD c
       hostReady s Op.TABLE_LOAD c noBad = true →
       (T.changing = true → exec (.tableLoad c) s = endsWith s Op.TABLE_LOAD c T (Done.of .conflict Detail.ROLE_BUSY))
       ∧ (T.changing = false → bits c.arg2 48 16 ≠ T.nodeId →
          exec (.tableLoad c) s = goesOn s (streamBegun T (streamJob Op.TABLE_LOAD c .table [] none c.arg0) (bits c.arg2 48 16) c.arg3 (bits c.arg2 0 48)))
       ∧ (T.changing = false → exec (.tableLoad c) s = goesOn s (begins T (streamJob Op.TABLE_LOAD c .table [] none c.arg0))))
    ∧ (let T := begun s Op.TABLE_FREE c
       hostReady s Op.TABLE_FREE c noBad = true →
       (amGet c.arg0 T.cdc.tables = none → exec (.tableFree c) s = endsWith s Op.TABLE_FREE c T Done.ok)
       ∧ (∀ t, amGet c.arg0 T.cdc.tables = some t →
          ((t.curUsers ≠ 0 ∨ t.otherUsers ≠ 0 ∨ t.loading = true ∨ (t.kind = 1 ∧ ∃ e ∈ T.sch.ctxs, e.2.model = t.model)) →
             exec (.tableFree c) s = endsWith s Op.TABLE_FREE c T (Done.of .conflict 0))
          ∧ (t.curUsers = 0 → t.otherUsers = 0 → t.loading = false → (t.kind ≠ 1 ∨ ∀ e ∈ T.sch.ctxs, e.2.model ≠ t.model) →
             exec (.tableFree c) s = endsWith s Op.TABLE_FREE c (tblRegs { T with cdc := { T.cdc with tables := amErase c.arg0 T.cdc.tables } } c.arg0) Done.ok)))
    ∧ (let T := begun s Op.ADAPTER_LOAD c
       let d := cmdDesc s c
       let v := c.arg0 / 2 ^ 20
       let older (a : AdpSlot) : Prop := 1 ≤ (a.word / 2 ^ 20 + 4096 - v) % 4096 ∧ (a.word / 2 ^ 20 + 4096 - v) % 4096 < 2048
       hostReady s Op.ADAPTER_LOAD c noBad = true → T.changing = false →
       ((v = 0 ∨ c.arg0 % 2 ^ 20 = 0) → exec (.adapterLoad c) s = endsWith s Op.ADAPTER_LOAD c T (Done.of .fenced Detail.CDC_FORMAT))
       ∧ (v ≠ 0 → c.arg0 % 2 ^ 20 ≠ 0 →
          (∀ e, adpResident T c.arg0 = some e → exec (.adapterLoad c) s = endsWith s Op.ADAPTER_LOAD c T Done.ok)
          ∧ (adpResident T c.arg0 = none →
             (∀ k a, bit c.arg1 0 = false → adpCurrent T (c.arg0 % 2 ^ 20) = some (k, a) → older a →
                exec (.adapterLoad c) s = endsWith s Op.ADAPTER_LOAD c T (Done.of .stale 0))
             ∧ ((bit c.arg1 0 = true ∨ ∀ k a, adpCurrent T (c.arg0 % 2 ^ 20) = some (k, a) → ¬ older a) →
                (amFree T.cdc.adps 0 4096 = none → exec (.adapterLoad c) s = endsWith s Op.ADAPTER_LOAD c T (Done.of .noCredit Detail.CDC_ADP_SLOTS))
                ∧ (amFree T.cdc.adps 0 4096 ≠ none → exec (.adapterLoad c) s = goesOn s (begins T (streamJob Op.ADAPTER_LOAD c .adapter d none 0)))
                ∧ (amFree T.cdc.adps 0 4096 ≠ none → 16 ≤ d.length → leField d 6 2 ≠ T.nodeId →
                  exec (.adapterLoad c) s = goesOn s (streamBegun T (streamJob Op.ADAPTER_LOAD c .adapter d none 0) (leField d 6 2) (leField d 8 4) (leField d 0 6)))))))
    ∧ (let T := begun s Op.ADAPTER_RETIRE c
       hostReady s Op.ADAPTER_RETIRE c noBad = true →
       (adpCurrent T c.arg0 = none → exec (.adapterRetire c) s = endsWith s Op.ADAPTER_RETIRE c T (Done.of .fenced Detail.CDC_ADP_ABSENT))
       ∧ (∀ k a, adpCurrent T c.arg0 = some (k, a) →
          (a.pins ≠ 0 → exec (.adapterRetire c) s = endsWith s Op.ADAPTER_RETIRE c { T with cdc := { T.cdc with adps := amSet k { a with state := .draining } T.cdc.adps } } Done.ok)
          ∧ (a.pins = 0 → exec (.adapterRetire c) s = endsWith s Op.ADAPTER_RETIRE c
              (adpRegs { T with cdc := { T.cdc with adps := amErase k (amSet k { a with state := .draining } T.cdc.adps) } }) Done.ok)))

namespace Sys2Proof.Machine
/-- The states that QP_MODIFY's argument asks for (R302): 0 RESET, 1 READY, 2 DRAINING, 3 ERROR. -/
def qpMoves : List (QpState × Nat) :=
  [(.reset, 1), (.ready, 2), (.ready, 3), (.draining, 1), (.draining, 3), (.error, 0)]

/-- The state once a counter of R321 holds v. -/
def trigHeld (T : State) (t v : Nat) : State := { T with cwt := { T.cwt with trig := amSet t (v % 2 ^ 32) T.cwt.trig } }

/-- The state once a waiting choker has left the store for its queue pair's send stream, behind all that was posted on it before (R322). -/
def chokerGone (T : State) (k : Nat) (ch : Choker) (i : Nat) : State :=
  let U : State := { T with cwt := { T.cwt with chokers := amErase k T.cwt.chokers, nextOrd := T.cwt.nextOrd + 1 } }
  U.modQp i fun q => { q with stream := streamInsert (SendWr.posted T.cwt.nextOrd T.now ch.wr) q.stream }
end Sys2Proof.Machine

/-- For commands that nothing holds back, and events. QP_CREATE with a descriptor in range and a completion queue of type 1 makes a queue pair in RESET, on die where there is room or can be made, else in its table entry, under the name of the allocated index, in RESULT; with no index out of fallow it ends NO_CREDIT. QP_MODIFY follows the state table of R302: READY and DRAINING into each other, either into ERROR, ERROR into RESET with the key's pin and the grants given up, RESET into READY with the peer, the initial PSNs, 128 units either way and its salt, but CONFLICT with KEY_SALT_REUSE for the salt it last had, the key's own refusal, and NO_CREDIT where the grant does not fit or no ring of atomic results is free for a queue pair that asks for one; every other pair of states ends CONFLICT with CWT_QP_STATE, and an unknown name STALE. A change of a context off die goes to its table entry. QP_DESTROY takes a queue pair in RESET away and frees its index, in another state ends CONFLICT. QP_CTX_FETCHED of a context nobody fetches changes nothing; one that reads well, with room on die and nothing parked, is resident. QP_DRAINED of a draining queue pair with nothing started posts CWT_DRAINED once. CHOKER_CANCEL flushes the choker it names, or ends CONFLICT. TRIG_ADD and TRIG_SET set the counter; a choker it reaches joins its queue pair's stream behind all that was posted before. REGION_REG writes the region, its entry and a clear snag map under the allocated key, and ends once its parity deltas are acknowledged; during a role change it ends CONFLICT. REGION_DEREG makes the region CLOSING, and with no begun requests frees it at once; REGION_FREED frees a closing one whose requests have ended or whose time has passed, and ends every REGION_DEREG that waits once its deltas are acknowledged. All three wait for the units of their table entry. Completes: qpCreate, qpModify, qpDestroy, qpCtxFetched, qpDrained, chokerCancel, trigAdd, trigSet, regionReg, regionDereg, regionFreed. -/
def Obligations.QueuePairsRegionsAndTriggers : Prop :=
  ∀ (s : State) (c : Cmd),
    (let T := begun s Op.QP_CREATE c
     let d := cmdDesc s c
     let q := qpOfDesc d 0 c.arg0
     hostReady s Op.QP_CREATE c noBad = true → qpDescOk q c.fn (leField d 0 4) (leField d 4 1) = true →
     ∀ k, amGet q.cq (T.fn q.fn).cqs = some k → k.typ = 1 →
       (T.cwt.ids.alloc (qpCount T) T.now = none → exec (.qpCreate c) s = endsWith s Op.QP_CREATE c T (Done.of .noCredit 0))
       ∧ (∀ i p, T.cwt.ids.alloc (qpCount T) T.now = some (i, p) →
          (let n := p.ringOf i * 2 ^ 24 + i
           let U : State := { T with cwt := { T.cwt with ids := p, qps := amSet i { q with qpn := n } T.cwt.qps } }
           (T.cwt.resident.length < qpDie T → T.cwt.resident.contains i = false →
             exec (.qpCreate c) s = endsWith s Op.QP_CREATE c (qpRegs { U with cwt := { U.cwt with resident := U.cwt.resident ++ [i] } }) { Done.ok with result := n })
           ∧ (∀ V, qpPlace U i = some V → exec (.qpCreate c) s = endsWith s Op.QP_CREATE c V { Done.ok with result := n })
           ∧ (qpPlace U i = none → exec (.qpCreate c) s = endsWith s Op.QP_CREATE c (qpStore (qpRegs U) i) { Done.ok with result := n }))))
    ∧ (let T := begun s Op.QP_MODIFY c
       let d := cmdDesc s c
       hostReady s Op.QP_MODIFY c noBad = true →
       (T.qp c.arg0 = none → exec (.qpModify c) s = endsWith s Op.QP_MODIFY c T (Done.of .stale 0))
       ∧ (∀ i q, T.qp c.arg0 = some (i, q) → (c.fn = 0 ∨ q.fn = c.fn) →
          ((q.state, c.arg1) ∉ qpMoves → exec (.qpModify c) s = endsWith s Op.QP_MODIFY c T (Done.of .conflict Detail.CWT_QP_STATE))
          ∧ (q.state = .ready → c.arg1 = 2 → exec (.qpModify c) s = endsWith s Op.QP_MODIFY c (qpSave (T.setQp i { q with state := .draining, drainPosted := false }) i) Done.ok)
          ∧ (q.state = .draining → c.arg1 = 1 → exec (.qpModify c) s = endsWith s Op.QP_MODIFY c (qpSave (T.setQp i { q with state := .ready }) i) Done.ok)
          ∧ ((q.state = .ready ∨ q.state = .draining) → c.arg1 = 3 → exec (.qpModify c) s = endsWith s Op.QP_MODIFY c (qpError T i 0) Done.ok)
          ∧ (q.state = .error → c.arg1 = 0 → q.arc = none → exec (.qpModify c) s = endsWith s Op.QP_MODIFY c
              (qpSave ((if q.rcvWindow = 0 then T else keyUnpin T q.keySlot).setQp i
                { q with state := .reset, rcvUnits := 0, rcvWindow := 0, rcvLimit := 0, sndUsed := 0, sndLimit := 0, shaper := none, arc := none,
                         redirected := [], sqHead := q.sqTail, posts := [], errStatus := 0, errDetail := 0 }) i) Done.ok)
          ∧ (q.state = .error → c.arg1 = 0 → exec (.qpModify c) s = endsWith s Op.QP_MODIFY c (toReset T i q) Done.ok)
          ∧ (q.state = .reset → c.arg1 = 1 → leField d 2 2 = 0 →
              (amGet i T.cwt.salts = some ((d.drop 0x10).take 16) → exec (.qpModify c) s = endsWith s Op.QP_MODIFY c T (Done.of .conflict Detail.KEY_SALT_REUSE))
              ∧ (∀ e, amGet i T.cwt.salts ≠ some ((d.drop 0x10).take 16) → keyUse T q.keySlot q.tenant false = .error e →
                  exec (.qpModify c) s = endsWith s Op.QP_MODIFY c T (Done.of e.1 e.2))
              ∧ (∀ e x, amGet i T.cwt.salts ≠ some ((d.drop 0x10).take 16) → keyUse T q.keySlot q.tenant false = .ok e → shaperBind T q = .ok x →
                  (grantFits T { q with peerNode := leField d 0 2, rcvUnits := 0, rcvLimit := 0 } 128 = false → exec (.qpModify c) s = endsWith s Op.QP_MODIFY c T (Done.of .noCredit 0))
                  ∧ (grantFits T { q with peerNode := leField d 0 2, rcvUnits := 0, rcvLimit := 0 } 128 = true → bit q.mode 1 = false →
                      (let sp := leField d 8 4
                       let z := { q with
                         state := .ready, peerNode := leField d 0 2, peerQp := leField d 4 4, sndNxt := sp, sndUna := sp, sndUsed := 0, sndLimit := 128,
                         rcvNxt := leField d 0xC 4, rcvUnits := 0, rcvWindow := 128, rcvLimit := 128, srtt := 0, rttvar := 0, unaTime := 0, shaper := x,
                         salt := (d.drop 0x10).take 16, selfNode := T.nodeId, newSent := 0, msgNext := 0, respSent := [], atomSent := 0, fwdMsg := [],
                         freed := 0, toAck := 0, creditAt := none, redirected := [], arc := none, flushedAt := none, drainPosted := false }
                       let U := keyPin (keyWant (T.setQp i z) q.keySlot) q.keySlot
                       exec (.qpModify c) s = endsWith s Op.QP_MODIFY c
                         (sqRun (qpSave { U with cwt := { U.cwt with salts := amSet i ((d.drop 0x10).take 16) U.cwt.salts } } i) i) Done.ok))
                  ∧ (grantFits T { q with peerNode := leField d 0 2, rcvUnits := 0, rcvLimit := 0 } 128 = true → bit q.mode 1 = true →
                      (amFree T.rm.arc 0 4096 = none → exec (.qpModify c) s = endsWith s Op.QP_MODIFY c T (Done.of .noCredit Detail.MEM_ARC_FULL))
                      ∧ (∀ k, amFree T.rm.arc 0 4096 = some k → exec (.qpModify c) s = endsWith s Op.QP_MODIFY c (readyQp T i q d x (some k)) Done.ok))))))
    ∧ (let T := begun s Op.QP_DESTROY c
       hostReady s Op.QP_DESTROY c noBad = true →
       (T.qp c.arg0 = none → exec (.qpDestroy c) s = endsWith s Op.QP_DESTROY c T (Done.of .stale 0))
       ∧ (∀ i q, T.qp c.arg0 = some (i, q) → (c.fn = 0 ∨ q.fn = c.fn) →
          (q.state ≠ .reset → exec (.qpDestroy c) s = endsWith s Op.QP_DESTROY c T (Done.of .conflict Detail.CWT_QP_STATE))
          ∧ (q.state = .reset → exec (.qpDestroy c) s = endsWith s Op.QP_DESTROY c
              (qpRegs { T with cwt := { T.cwt with qps := amErase i T.cwt.qps, ids := T.cwt.ids.release i T.now (cwtFallowUs T),
                                                   resident := T.cwt.resident.filter (· ≠ i) } }) Done.ok)))
    ∧ (let T := begun s Op.CHOKER_CANCEL c
       let mine := T.cwt.chokers.filter fun e => wrId e.2.wr == c.arg0 && (c.fn == 0 || e.2.fn == c.fn)
       hostReady s Op.CHOKER_CANCEL c noBad = true →
       (mine = [] → exec (.chokerCancel c) s = endsWith s Op.CHOKER_CANCEL c T (Done.of .conflict 0))
       ∧ (∀ k ch i q, mine = [(k, ch)] → T.qp ch.qpn = some (i, q) → exec (.chokerCancel c) s = endsWith s Op.CHOKER_CANCEL c
            (wrEnds { T with cwt := { T.cwt with chokers := amErase k T.cwt.chokers } } q ch.wr 0 .errorFlushed Detail.CWT_NOT_SENT) Done.ok))
    ∧ (let T := begun s Op.TRIG_ADD c
       let v := trigCount T c.arg0 + c.arg1
       hostReady s Op.TRIG_ADD c noBad = true →
       ((∀ e ∈ T.cwt.chokers, e.2.trig = c.arg0 → pulls (v % 2 ^ 32) e.2.threshold = false) → exec (.trigAdd c) s = endsWith s Op.TRIG_ADD c (trigHeld T c.arg0 v) Done.ok)
       ∧ (∀ k ch i q, T.cwt.chokers = [(k, ch)] → ch.trig = c.arg0 → pulls (v % 2 ^ 32) ch.threshold = true → T.qp ch.qpn = some (i, q) →
          exec (.trigAdd c) s = endsWith s Op.TRIG_ADD c (chokerGone (trigHeld T c.arg0 v) k ch i) Done.ok))
    ∧ (let T := begun s Op.TRIG_SET c
       let v := c.arg1 % 2 ^ 32
       let fwd : Prop := (c.arg1 + 2 ^ 32 - trigCount T c.arg0) % 2 ^ 32 < 2 ^ 31
       hostReady s Op.TRIG_SET c noBad = true →
       ((¬ fwd ∨ ∀ e ∈ T.cwt.chokers, e.2.trig = c.arg0 → pulls v e.2.threshold = false) → exec (.trigSet c) s = endsWith s Op.TRIG_SET c (trigHeld T c.arg0 c.arg1) Done.ok)
       ∧ (∀ k ch i q, fwd → T.cwt.chokers = [(k, ch)] → ch.trig = c.arg0 → pulls v ch.threshold = true → T.qp ch.qpn = some (i, q) →
          exec (.trigSet c) s = endsWith s Op.TRIG_SET c (chokerGone (trigHeld T c.arg0 c.arg1) k ch i) Done.ok))
    ∧ (let T := begun s Op.REGION_REG c
       let r := regionOf (cmdDesc s c) 0 c.fn
       hostReady s Op.REGION_REG c regionBad = true →
       (T.changing = true → exec (.regionReg c) s = endsWith s Op.REGION_REG c T (Done.of .conflict Detail.ROLE_BUSY))
       ∧ (∀ i p, T.changing = false → (c.fn = 0 ∨ (r.kind = 0 ∧ xaSpace r.base = 3 ∧ r.can 5 = false)) → T.rm.ids.alloc (regionCount T) T.now = some (i, p) →
          (regionUnprotected T i r = true → exec (.regionReg c) s = endsWith s Op.REGION_REG c T (Done.of .fenced Detail.CP_UNPROTECTED))
          ∧ (let map := if r.can 5 then (r.length / 64 + 7) / 8 else 0
             let us := blockedUnits T (regionTblAddr T i) 128 true ++ (if map = 0 then [] else blockedUnits T r.snagAddr map true)
             regionUnprotected T i r = false → writeStop T (regionTblAddr T i) 128 = none → writeStop T r.snagAddr map = none →
             (us ≠ [] → exec (.regionReg c) s = goesOn s (unstartCmd (holdWork T us (.command Op.REGION_REG c)) Op.REGION_REG c))
             ∧ (us = [] →
               (let key := p.ringOf i * 2 ^ 24 + i
                let z := { r with key := key }
                let U := unhold T (.command Op.REGION_REG c)
                let V := putBytes { U with rm := { U.rm with ids := p, regions := amSet i z U.rm.regions } } (regionTblAddr T i) (regionImage z 1)
                let X := if r.can 5 then putZeros V r.snagAddr map else V
                (newDeltas U X = [] → exec (.regionReg c) s = endsWith s Op.REGION_REG c X { Done.ok with result := key })
                ∧ (newDeltas U X ≠ [] → exec (.regionReg c) s = goesOn s (waitDeltas X (newDeltas U X) (.command Op.REGION_REG c key))))))))
    ∧ (let T := begun s Op.REGION_DEREG c
       hostReady s Op.REGION_DEREG c noBad = true →
       (regionAt T c.arg0 = none → exec (.regionDereg c) s = endsWith s Op.REGION_DEREG c T (Done.of .stale Detail.MEM_KEY))
       ∧ (∀ i r, regionAt T c.arg0 = some (i, r) → (c.fn = 0 ∨ r.fn = c.fn) →
          (r.closing = true → exec (.regionDereg c) s = goesOn s { T with rm := { T.rm with regions := amSet i { r with dereg := r.dereg ++ [c] } T.rm.regions } })
          ∧ (r.closing = false → writeStop T (regionTblAddr T i) 128 = none →
             (let us := blockedUnits T (regionTblAddr T i) 128 true
              (us ≠ [] → exec (.regionDereg c) s = goesOn s (unstartCmd (holdWork T us (.command Op.REGION_DEREG c)) Op.REGION_DEREG c))
              ∧ (us = [] → exec (.regionDereg c) s = goesOn s
                  (regionFreed (setRegion (unhold T (.command Op.REGION_DEREG c)) i { r with closing := true, closedAt := T.now, dereg := [c] }) i))))))
    ∧ (∀ i r, amGet i s.rm.regions = some r →
       ((r.closing = false ∨ (r.openWrs ≠ [] ∧ s.now < r.closedAt + max 1000 (s.r Reg.CWT_TIMER2_GIVEUP_US) * 1000)) → exec (.regionFreed i) s = goesOn s s)
       ∧ (r.closing = true → (r.openWrs = [] ∨ r.closedAt + max 1000 (s.r Reg.CWT_TIMER2_GIVEUP_US) * 1000 ≤ s.now) →
          (let us := blockedUnits s (regionTblAddr s i) 128 true
           let S := unhold s (.regionFree i)
           (us ≠ [] → writeStop s (regionTblAddr s i) 128 = none → exec (.regionFreed i) s = goesOn s (holdWork s us (.regionFree i)))
           ∧ ((us = [] ∨ writeStop s (regionTblAddr s i) 128 ≠ none) → exec (.regionFreed i) s = goesOn s (freeRegion S i r)
              ∧ ((∀ e ∈ s.rm.leases, e.2.region ≠ i) →
                (let U : State := { S with rm := { S.rm with regions := amErase i S.rm.regions, ids := S.rm.ids.release i S.now (cwtFallowUs S), hotBad := S.rm.hotBad.filter (· ≠ i) } }
                 let V := putBytes U (regionTblAddr U i) (regionImage r 0)
                 let ds := newDeltas S V
                 freeRegion S i r = r.dereg.foldl (fun W c => if ds.isEmpty then completeCmd W Op.REGION_DEREG c Done.ok else waitDeltas W ds (.command Op.REGION_DEREG c 0)) V))))))
    ∧ (∀ i a b,
       (s.cwt.fetching.contains i = false → exec (.qpCtxFetched i a b) s = goesOn s s)
       ∧ (∀ q, s.cwt.fetching.contains i = true → s.qpAt i = some q → s.cwt.resident.contains i = false → s.cwt.resident.length < qpDie s →
           (s.cwt.missq.all fun m => m.pkt.dstQp % 2 ^ 24 != i) = true →
           (let P := qpRegs { s with cwt := { s.cwt with fetching := s.cwt.fetching.filter (· ≠ i), resident := s.cwt.resident ++ [i] } }
            onQuiesced P (qpHome P i) = false → exec (.qpCtxFetched i true b) s = goesOn s (qpSettle (missRegs P) i))))
    ∧ (∀ i q, s.qpAt i = some q →
       ((q.state ≠ .draining ∨ q.drainPosted = true ∨ q.stream.any (·.started) = true) → exec (.qpDrained i) s = goesOn s s)
       ∧ (q.state = .draining → q.drainPosted = false → q.stream.any (·.started) = false → exec (.qpDrained i) s = goesOn s
            (setEvent (postWc (s.setQp i { q with drainPosted := true }).takeFree { q with drainPosted := true } (Config.freeNat s.free) 0 0 Detail.CWT_DRAINED (Config.freeNat s.free % 256) 0)
              Reg.CWT_QP_EVENT_DRAINED 1)))

/-- For commands that nothing holds back, and events. SHAPER_SET of shaper 0, of one past the table or of fields out of range ends FENCED with SHP_RANGE; otherwise its 16 bytes wait in the entry for the shaper's next boundary, whose slot is armed. At a wheel's slot nothing changes before it is reached; a shaper's staged fields and refill are taken at its boundary; a queue pair's entry moves from the coarse wheel to the fine one; on the fine wheel its shapers are charged with the time they held it and refilled, and it leaves the wheel or is placed again. LEASE_BREAK of a node with no lease ends OK; each lease of the node ends, every line it covered is a snag, and the event SNAGGED is set, and the command ends once the parity deltas of that are acknowledged; the same on LEASE_TERM_EXPIRY of a lease not renewed within its term, and nothing before that; both wait for the units of their snag bits. HOT_LINE_COOL writes a line back and takes it out of the table once no operation has touched it for COOL_US, and changes nothing before. OBSERVER_SAMPLE takes one sample of each selected queue at a multiple of 1,000 ns, once, and changes nothing else. Completes: shaperSet, shaperWheelSlot, leaseBreak, leaseTermExpiry, hotLineCool, observerSample. -/
def Obligations.ShapersLeasesAndHotLines : Prop :=
  ∀ (s : State) (c : Cmd),
    (let T := begun s Op.SHAPER_SET c
     let d := cmdDesc s c
     let x := shpGet T c.arg0
     let ok : Prop := c.arg0 ≠ 0 ∧ c.arg0 < min 65536 (T.r Reg.CWT_SHP_CFG_COUNT) ∧ shaperDescOk d = true
     hostReady s Op.SHAPER_SET c noBad = true →
     (¬ ok → exec (.shaperSet c) s = endsWith s Op.SHAPER_SET c T (Done.of .fenced Detail.SHP_RANGE))
     ∧ (ok →
        (let U := shpPut T c.arg0 { x with staged := fit 16 d, pending := true }
         exec (.shaperSet c) s = endsWith s Op.SHAPER_SET c
           { U with cwt := { U.cwt with shpWheel := amSet c.arg0 (x.last + ((T.now - x.last) / x.interval + 1) * x.interval) U.cwt.shpWheel } } Done.ok)))
    ∧ (((∀ e ∈ s.cwt.shpWheel, s.now < e.2) → s.cwt.wheel = [] → exec .shaperWheelSlot s = goesOn s s)
       ∧ (∀ k t, s.cwt.shpWheel = [(k, t)] → t ≤ s.now → s.cwt.wheel = [] →
           exec .shaperWheelSlot s = goesOn s (shpConsult { s with cwt := { s.cwt with shpWheel := [] } } k)
           ∧ (s.cwt.blocked = [] → shpConsult { s with cwt := { s.cwt with shpWheel := [] } } k = shpPut { s with cwt := { s.cwt with shpWheel := [] } } k ((shpGet s k).refilled s.now)))
       ∧ (∀ i w, s.cwt.shpWheel = [] → s.cwt.wheel = [(i, w)] →
           (w.coarse = true → s.now < w.wake / 262144 * 262144 → exec .shaperWheelSlot s = goesOn s s)
           ∧ (w.coarse = true → w.wake / 262144 * 262144 ≤ s.now →
              exec .shaperWheelSlot s = goesOn s (wheelRegs { s with cwt := { s.cwt with wheel := [(i, { w with coarse := false })] } }))
           ∧ (w.coarse = false → s.now < w.wake → exec .shaperWheelSlot s = goesOn s s)
           ∧ (∀ q, w.coarse = false → w.wake ≤ s.now → s.qpAt i = some q →
              (let V := (qpShapers s q).foldl shpConsult s
               (shpEligible V q = true → exec .shaperWheelSlot s = goesOn s (wheelLeave V i))
               ∧ (shpEligible V q = false → exec .shaperWheelSlot s = goesOn s (wheelPlace V i q V.now))))))
    ∧ (let T := begun s Op.LEASE_BREAK c
       hostReady s Op.LEASE_BREAK c noBad = true →
       (let ls := T.rm.leases.filter fun e => e.2.lessee == c.arg0
        let us := ls.flatMap fun e => leaseBlocked T e.2
        let U := unhold T (.command Op.LEASE_BREAK c)
        let V := ls.foldl (fun W e => snagLease W e.1 e.2) U
        (ls = [] → exec (.leaseBreak c) s = endsWith s Op.LEASE_BREAK c U { Done.ok with result := 0 })
        ∧ (us ≠ [] → exec (.leaseBreak c) s = goesOn s (unstartCmd (holdWork T us (.command Op.LEASE_BREAK c)) Op.LEASE_BREAK c))
        ∧ (us = [] → newDeltas U V = [] → exec (.leaseBreak c) s = endsWith s Op.LEASE_BREAK c V { Done.ok with result := 0 })
        ∧ (us = [] → newDeltas U V ≠ [] → exec (.leaseBreak c) s = goesOn s (waitDeltas V (newDeltas U V) (.command Op.LEASE_BREAK c 0)))))
    ∧ (∀ i l, amGet i s.rm.leases = some l →
       (s.now < l.since + max 10 (s.r Reg.CWT_LEASE_CFG_TERM_MS) * 1000000 → exec (.leaseTermExpiry i) s = goesOn s s)
       ∧ (l.since + max 10 (s.r Reg.CWT_LEASE_CFG_TERM_MS) * 1000000 ≤ s.now →
          (leaseBlocked s l = [] → exec (.leaseTermExpiry i) s = goesOn s (snagLease (unhold s (.snag i)) i l))
          ∧ (leaseBlocked s l ≠ [] → exec (.leaseTermExpiry i) s = goesOn s (holdWork s (leaseBlocked s l) (.snag i)))))
    ∧ (∀ (i : Nat) (l : Lease) (r : Region), amGet l.region s.rm.regions = some r →
       snagLease s i l = setEvent (dropLease ((List.range l.count).foldl (fun U k => (setSnag U r (l.line + k) true).1) s) i) Reg.CWT_MEM_EVENT_SNAGGED 1)
    ∧ (∀ k,
       (amGet k s.rm.hot = none → exec (.hotLineCool k) s = goesOn s s)
       ∧ (∀ t, amGet k s.rm.hot = some t →
          (s.now < t.at_ + max 1 (s.r Reg.CWT_HOT_CFG_COOL_US) * 1000 → exec (.hotLineCool k) s = goesOn s s)
          ∧ (t.at_ + max 1 (s.r Reg.CWT_HOT_CFG_COOL_US) * 1000 ≤ s.now →
             exec (.hotLineCool k) s = goesOn s ((({ s with rm := { s.rm with hot := amErase k s.rm.hot } } : State).wr (64 * k) t.bytes).setR Reg.CWT_HOT_STATUS_LINES (amErase k s.rm.hot).length))))
    ∧ ((s.now % 1000 ≠ 0 ∨ s.cwt.obsAt = some s.now) → exec .observerSample s = goesOn s s)
    ∧ (s.now % 1000 = 0 → s.cwt.obsAt ≠ some s.now →
       (let U : State := { s with cwt := { s.cwt with obs := amFilter (fun k _ => !(k % 2 == 0 && s.cwt.obsClear.contains (k / 2))) s.cwt.obs, obsClear := [], obsAt := some s.now, obsLast := [] } }
        let U : State := { U with cwt := { U.cwt with obsPrev := amFilter (fun k _ => k % 2 == 0) U.cwt.obs } }
        exec .observerSample s = goesOn s (rxRetry ((List.range 256).foldl (fun V o =>
          match obsQueue V (V.r (Reg.CWT_OBS_SEL_KIND.at 4 o)) (V.r (Reg.CWT_OBS_SEL_INDEX.at 4 o)) with
          | none => V
          | some (depth, ts) =>
            let delay := match ts with | [] => 0 | x :: l => V.now - l.foldl min x
            { V with cwt := { V.cwt with obs := amSet (2 * o) ((obsBank V o 0).sample depth delay) V.cwt.obs, obsLast := amSet o (depth, delay) V.cwt.obsLast } }) U))))

namespace Sys2Proof.Machine
/-- The state once the Keyhouse has performed a service that is approved in approved mode (R475). -/
def keyRan (T : State) : State := T.setR Reg.KEY_STATUS_LAST_APPROVED (b2n (T.r Reg.KEY_POLICY_APPROVED == 1))

/-- The state once every on-die secret is gone and the Keyhouse stands in state st (R479): slots, pins, sessions, IDE keys and the index key, with the scale-book record. -/
def keysGone (T : State) (st : Nat) : State :=
  let U : State := { T with kh := { T.kh with resident := [], filling := [], pins := [], sessions := [], spdm := [], ide := [] }, trl := { T.trl with key := none } }
  scbNote (((U.setR Reg.KEY_CACHE_RESIDENT 0).setR Reg.KEY_STATUS_STATE st).setR Reg.KEY_STATUS_PREFIX_LOADED 0) (faultRec Src.keyhouse Act.recorded 7 0 0 0)

/-- The state after a failed self-test (R478). -/
def keysFailed (T : State) : State :=
  postFault (setEvent (keysGone T 2) Reg.KEY_EVENT_SELFTEST 3) (faultRec Src.keyhouse Act.recorded 7 0 Status.fenced.code Detail.KEY_SELFTEST)
end Sys2Proof.Machine

/-- For commands that nothing holds back, and events. Every Keyhouse command but KEY_ZEROIZE and KEY_SELFTEST ends FENCED with KEY_STATE while the Keyhouse is not OPERATIONAL. KEY_IMPORT of a blob that fails its checks ends FENCED with KEY_IMPORT; of an index key it loads it, or ends CONFLICT where one is loaded; of a table index it ends KEY_TABLE_FULL past the table, OK for the entry that is there already, CONFLICT for another live entry, STALE for a serial not above the last, and else writes the entry. KEY_DESTROY zeroizes the live entry's slot and secret, and is KEY_ABSENT without one. KEY_INFO answers with the record, KEY_SALT with 16 bytes of the DRBG, and KEY_GET_KEM writes the import public key to the buffer. KEY_ZEROIZE advances the wrapping epoch and leaves no secret, with the state ZEROIZED. KEY_SELFTEST ends OK or, on a failure, as R478 gives. TAMPER leaves no secret, with the state ERROR and its event; an entropy failure is counted, and is a self-test failure at start-up or within a second of another. A fill that ends makes a live entry, whose stored bytes are as written, resident. Completes: keyImport, keyDestroy, keyInfo, keyGetKem, keySalt, keyZeroize, keySelftest, tamper, entropyHealthFail, keySlotFillDone. -/
def Obligations.KeyhouseServesAndZeroizes : Prop :=
  ∀ (s : State) (c : Cmd),
    (let T := begun s Op.KEY_IMPORT c
     let d := cmdDesc s c
     let i := leField d 4 4
     let kind := leField d 1 1
     let serial := leField d 0xC 4
     let tenant := leField d 8 4
     hostReady s Op.KEY_IMPORT c noBad = true →
     (T.r Reg.KEY_STATUS_STATE ≠ 1 → exec (.keyImport c) s = endsWith s Op.KEY_IMPORT c T (Done.of .fenced Detail.KEY_STATE))
     ∧ (T.r Reg.KEY_STATUS_STATE = 1 → exec (.keyImport c) s = match blobSecret T d with
          | none => endsWith s Op.KEY_IMPORT c (keyRan T) (Done.of .fenced Detail.KEY_IMPORT)
          | some secret =>
            if kind = 3 then
              (if T.trl.key.isSome then endsWith s Op.KEY_IMPORT c (keyRan T) (Done.of .conflict 0)
               else endsWith s Op.KEY_IMPORT c (keyRan (({ T with trl := { T.trl with key := some (secret.take 16) } } : State).setR Reg.KEY_STATUS_PREFIX_LOADED 1)) Done.ok)
            else if keyCount T ≤ i then endsWith s Op.KEY_IMPORT c (keyRan T) (Done.of .fenced Detail.KEY_TABLE_FULL)
            else match keyLive T i with
              | some e => endsWith s Op.KEY_IMPORT c (keyRan T)
                  (if e.serial = serial ∧ e.tenant = tenant ∧ e.kind = kind ∧ e.print = fingerprint secret then Done.ok else Done.of .conflict Detail.KEY_IMPORT)
              | none =>
                if serial ≤ (match amGet i T.kh.keys with | some e => e.serial | none => 0) then endsWith s Op.KEY_IMPORT c (keyRan T) (Done.of .stale Detail.KEY_IMPORT)
                else endsWith s Op.KEY_IMPORT c (keyRan (setKey T i ⟨true, kind, tenant, serial, secret, fingerprint secret, wrapEpoch T, [], false⟩)) Done.ok))
    ∧ (let T := begun s Op.KEY_DESTROY c
       hostReady s Op.KEY_DESTROY c noBad = true →
       (T.r Reg.KEY_STATUS_STATE ≠ 1 → exec (.keyDestroy c) s = endsWith s Op.KEY_DESTROY c T (Done.of .fenced Detail.KEY_STATE))
       ∧ (T.r Reg.KEY_STATUS_STATE = 1 →
          (keyCount T ≤ c.arg0 → exec (.keyDestroy c) s = endsWith s Op.KEY_DESTROY c (keyRan T) (Done.of .fenced Detail.KEY_TABLE_FULL))
          ∧ (c.arg0 < keyCount T → keyLive T c.arg0 = none → exec (.keyDestroy c) s = endsWith s Op.KEY_DESTROY c (keyRan T) (Done.of .fenced Detail.KEY_ABSENT))
          ∧ (∀ e, c.arg0 < keyCount T → keyLive T c.arg0 = some e →
             (let U : State := { T with kh := { T.kh with resident := T.kh.resident.filter (· ≠ c.arg0), filling := T.kh.filling.filter (· ≠ c.arg0), pins := amErase c.arg0 T.kh.pins } }
              exec (.keyDestroy c) s = endsWith s Op.KEY_DESTROY c
                (keyRan (setKey (U.setR Reg.KEY_CACHE_RESIDENT (U.kh.resident.length % 65536)) c.arg0 { e with live := false, secret := [] })) Done.ok))))
    ∧ (let T := begun s Op.KEY_INFO c
       hostReady s Op.KEY_INFO c noBad = true →
       (T.r Reg.KEY_STATUS_STATE ≠ 1 → exec (.keyInfo c) s = endsWith s Op.KEY_INFO c T (Done.of .fenced Detail.KEY_STATE))
       ∧ (T.r Reg.KEY_STATUS_STATE = 1 → c.arg0 < keyCount T →
          (amGet c.arg0 T.kh.keys = none → exec (.keyInfo c) s = endsWith s Op.KEY_INFO c (keyRan T) { Done.ok with record := leBytes 4 c.arg0 ++ leBytes 20 0 })
          ∧ (∀ e, amGet c.arg0 T.kh.keys = some e → exec (.keyInfo c) s = endsWith s Op.KEY_INFO c (keyRan T)
              { Done.ok with record := leBytes 4 c.arg0 ++ leBytes 1 (if e.live then 1 else 2) ++ leBytes 1 e.kind ++ leBytes 2 0 ++ leBytes 4 e.tenant ++ leBytes 4 e.serial ++ fit 8 e.print })))
    ∧ (let T := begun s Op.KEY_GET_KEM c
       hostReady s Op.KEY_GET_KEM c noBad = true →
       (T.r Reg.KEY_STATUS_STATE ≠ 1 → exec (.keyGetKem c) s = endsWith s Op.KEY_GET_KEM c T (Done.of .fenced Detail.KEY_STATE))
       ∧ (T.r Reg.KEY_STATUS_STATE = 1 → T.dmaOk c.fn c.descAddr 1568 = true →
          exec (.keyGetKem c) s = endsWith s Op.KEY_GET_KEM c (keyRan (T.wr (hostXA c.descAddr) (fit 1568 (Config.kemPublic T.kh.kemGen)))) Done.ok))
    ∧ (let T := begun s Op.KEY_SALT c
       hostReady s Op.KEY_SALT c noBad = true →
       (T.r Reg.KEY_STATUS_STATE ≠ 1 → exec (.keySalt c) s = endsWith s Op.KEY_SALT c T (Done.of .fenced Detail.KEY_STATE))
       ∧ (T.r Reg.KEY_STATUS_STATE = 1 → exec (.keySalt c) s = endsWith s Op.KEY_SALT c (keyRan T.takeFree) { Done.ok with record := (List.range 16).map (Config.random T.free) }))
    ∧ (let T := begun s Op.KEY_ZEROIZE c
       let e := (wrapEpoch T + 1) % 2 ^ 32
       hostReady s Op.KEY_ZEROIZE c noBad = true →
       (T.r Reg.KEY_STATUS_STATE = 0 → exec (.keyZeroize c) s = endsWith s Op.KEY_ZEROIZE c T (Done.of .fenced Detail.KEY_STATE))
       ∧ (T.r Reg.KEY_STATUS_STATE ≠ 0 →
          (let U : State := { T with scb := { T.scb with mram := { T.scb.mram with wrapEpoch := e } }, kh := { T.kh with kemGen := T.kh.kemGen + 1 } }
           exec (.keyZeroize c) s = endsWith s Op.KEY_ZEROIZE c (keyRan (keysGone (U.setR Reg.KEY_EPOCH_WRAP_EPOCH e) 3)) Done.ok)))
    ∧ (let T := begun s Op.KEY_SELFTEST c
       hostReady s Op.KEY_SELFTEST c noBad = true →
       ((T.r Reg.KEY_STATUS_STATE = 2 ∨ T.r Reg.KEY_STATUS_STATE = 3) → exec (.keySelftest c) s = endsWith s Op.KEY_SELFTEST c T (Done.of .fenced Detail.KEY_STATE))
       ∧ (T.r Reg.KEY_STATUS_STATE ≠ 2 → T.r Reg.KEY_STATUS_STATE ≠ 3 → exec (.keySelftest c) s =
          if Config.freeNat T.free = 0 then endsWith s Op.KEY_SELFTEST c (keysFailed T.takeFree) (Done.of .fenced Detail.KEY_SELFTEST)
          else endsWith s Op.KEY_SELFTEST c (keyRan T.takeFree) Done.ok))
    ∧ exec .tamper s = goesOn s (setEvent (keysGone s 2) Reg.KEY_EVENT_TAMPER 3)
    ∧ (∀ apt : Bool,
       let U : State := s.cnt (if apt then Reg.KEY_HEALTH_APT_FAIL else Reg.KEY_HEALTH_RCT_FAIL) 1
       let V : State := { U with kh := { U.kh with healthAt := some U.now } }
       (U.kh.healthAt = none → V.r Reg.KEY_STATUS_STATE ≠ 0 → exec (.entropyHealthFail apt) s = goesOn s V)
       ∧ (∀ t, U.kh.healthAt = some t → t + 1000000000 < U.now → V.r Reg.KEY_STATUS_STATE ≠ 0 → exec (.entropyHealthFail apt) s = goesOn s V)
       ∧ (∀ t, U.kh.healthAt = some t → U.now ≤ t + 1000000000 → exec (.entropyHealthFail apt) s = goesOn s (keysFailed V))
       ∧ (V.r Reg.KEY_STATUS_STATE = 0 → exec (.entropyHealthFail apt) s = goesOn s (keysFailed V)))
    ∧ (∀ i,
       (s.kh.filling.contains i = false → exec (.keySlotFillDone i) s = goesOn s s)
       ∧ (s.kh.filling.contains i = true → keyLive s i = none →
          exec (.keySlotFillDone i) s = goesOn s { s with kh := { s.kh with filling := s.kh.filling.filter (· ≠ i) } })
       ∧ (∀ e, s.kh.filling.contains i = true → keyLive s i = some e → s.rd (keyAddr s i) 128 = keyEntryBytes s i e → s.kh.resident.length < 65536 →
          exec (.keySlotFillDone i) s = goesOn s
            (({ s with kh := { s.kh with filling := s.kh.filling.filter (· ≠ i), resident := s.kh.resident ++ [i] } } : State).setR Reg.KEY_CACHE_RESIDENT ((s.kh.resident.length + 1) % 65536))))

namespace Sys2Proof.Machine
/-- What a reset of the controller of one cause leaves (R550 to R552): the cause, device time 0, CXL and host memory and nothing of HBM, every unit as after reset, and what the part keeps: the waiting commands, the MRAM, boot flash and the scale book's fields, or, for POWER_ON, none of those fields. b is what holds the controller then, and how far start-up has come. -/
structure ResetLeaves (s t : State) (cause : Nat) (b : Boot) : Prop where
  cause_is : t.r Reg.MGT_BOOT_STATUS_CAUSE = cause
  time_zero : t.now = 0
  queue : t.pending = s.pending
  boot : t.mgt.boot = b
  memory : ∀ a, memRead t.mem a = if xaSpace a = 1 ∨ xaSpace a = 3 then memRead s.mem a else memRead [] a
  requests : t.sch = State.reset.sch
  tiers : t.tir = State.reset.tir
  codec : t.cdc = State.reset.cdc
  index : t.trl = State.reset.trl
  exchange : t.xch = State.reset.xch
  regions : t.rm = State.reset.rm
  transport : t.cwt = State.reset.cwt
  pool : t.cp = State.reset.cp
  keys : t.kh = { State.reset.kh with kemGen := s.kh.kemGen }
  mram : t.scb.mram = s.scb.mram
  records : t.scb.ring = if cause = 1 then [] else s.scb.ring
  banks : t.mgt.banks = s.mgt.banks ∧ t.mgt.minSvn = s.mgt.minSvn
  book : ∀ f : Fld, aoField f.key = true → cause ≠ 1 → t.r f = s.r f

/-- The state once a power transition has ended (R557), but for what the target's own entry does: its columns' stands cleared, the mask of gated columns, the state, and no transition under way. -/
def powerEntered (s : State) (t : PwrTrans) : State :=
  let U := t.drainCols.foldl (fun U k => clearStands U (colStands k)) s
  let V : State := { U with mgt := { U.mgt with trans := none } }
  ((V.setR Reg.PWR_STATE_GATED (if t.target = 0 then 0 else if t.target = 1 then t.mask else 0xFF)).setR Reg.PWR_STATE_STATE t.target).setR Reg.PWR_STATE_BUSY 0

/-- The power-fail record (R492). -/
def pfailRecord (s : State) : ScbRec :=
  { seq := 0, boot := 0, kind := 3, severity := 7, flushed := false, clamped := false, source := Src.power, element := 0, item := 0, tFirst := s.now, tLast := s.now,
    count := 1, body := (faultRec Src.power Act.recorded 7 0 0 0).image 0 s.now }
end Sys2Proof.Machine

/-- PWR_STATE, where nothing holds it back, of the state already entered ends OK with it; where a condition of R556 fails it ends CONFLICT with the conditions in RESULT; else the transition is recorded with the columns that newly gate and a drain of 500 µs, and with a target of PS3 or PS4 a flush begins. POWER_TRANSITION_DONE with no transition changes nothing; else the columns are cleared, the state and mask entered and PWR_STATE ends OK with it: in PS0 and PS1 the energy bucket is full, in PS3 and PS4 every sub-port is down and no context is on die, and in PS4 the volatile secrets are gone and PWROFF_REQ_N goes low. POR_ASSERT, POR_RELEASE, PERST, HOT_RESET, LINK_DOWN, PF_FLR and REF_LOSS reset the controller with their cause; in PS4 only the first two do, and LINK_DOWN does not in D3hot or PS3 either. PERST_RELEASE and REFCLK_STABLE release what they hold. STARTUP_STEP of a step that has ended, waits for another or comes while the part is held changes nothing; otherwise it has its effect. PFAIL writes its record, abandons the running flush but for the record being written, and selects those of the power-fail flush, once. Completes: pwrState, powerTransitionDone, porAssert, porRelease, perst, perstRelease, hotReset, linkDown, pfFlr, refLoss, refclkStable, startupStep, pfail. -/
def Obligations.PowerResetsAndStartup : Prop :=
  ∀ (s : State) (c : Cmd),
    (let T := begun s Op.PWR_STATE c
     let t := bits c.arg0 0 3
     let mask := bits c.arg0 8 8
     let there : Prop := t = T.r Reg.PWR_STATE_STATE ∧ (t ≠ 1 ∨ mask = T.r Reg.PWR_STATE_GATED)
     hostReady s Op.PWR_STATE c noBad = true →
     (there → exec (.pwrState c) s = endsWith s Op.PWR_STATE c T { Done.ok with value := t })
     ∧ (¬ there → pwrFails T t mask ≠ 0 → exec (.pwrState c) s = endsWith s Op.PWR_STATE c T { Done.of .conflict 0 with result := pwrFails T t mask })
     ∧ (¬ there → pwrFails T t mask = 0 →
        (let gated := if t = 0 then 0 else if t = 1 then mask else 0xFF
         let cols := ((List.range 8).filter fun k => bit gated k).filter fun k => !bit (T.r Reg.PWR_STATE_GATED) k
         let U := (({ T with mgt := { T.mgt with trans := some ⟨t, mask, c, cols, T.now + 500000⟩ } } : State).setR Reg.PWR_STATE_BUSY 1).setR Reg.PWR_STATE_TARGET t
         exec (.pwrState c) s = goesOn s (drainCheck (if 3 ≤ t then scbStartFlush U else U)))))
    ∧ ((s.mgt.trans = none → exec .powerTransitionDone s = goesOn s s)
       ∧ (∀ t, s.mgt.trans = some t →
          (let W := powerEntered s t
           (t.target ≤ 1 → exec .powerTransitionDone s = endsWith s Op.PWR_STATE t.cmd (setBucket W (bucketFull W)) { Done.ok with value := t.target })
           ∧ (t.target = 2 → exec .powerTransitionDone s = endsWith s Op.PWR_STATE t.cmd W { Done.ok with value := 2 })
           ∧ (t.target = 3 → exec .powerTransitionDone s = endsWith s Op.PWR_STATE t.cmd (enterRetention W) { Done.ok with value := 3 })
           ∧ (t.target = 4 → exec .powerTransitionDone s = goesOn s
                ((completeCmd (dropSecrets (enterRetention W)) Op.PWR_STATE t.cmd { Done.ok with value := 4 }).emit (.pin .pwroffReqN false))))))
    ∧ (∃ t, exec .porAssert s = .next t ∧ ResetLeaves s t 1 { s.mgt.boot with done := [], por := true })
    ∧ (∃ t, exec .porRelease s = .next t ∧ ResetLeaves s t 1 { s.mgt.boot with done := [], por := false })
    ∧ (s.r Reg.PWR_STATE_STATE = 4 →
        exec .perst s = goesOn s s ∧ exec .hotReset s = goesOn s s ∧ exec .linkDown s = goesOn s s ∧ exec .pfFlr s = goesOn s s ∧ exec .refLoss s = goesOn s s)
    ∧ (s.r Reg.PWR_STATE_STATE ≠ 4 →
        (∃ t, exec .perst s = .next t ∧ ResetLeaves s t 2 { s.mgt.boot with done := [], perst := true })
        ∧ (∃ t, exec .hotReset s = .next t ∧ ResetLeaves s t 3 { s.mgt.boot with done := [] })
        ∧ (((s.fn 0).d3hot = true ∨ s.r Reg.PWR_STATE_STATE = 3) → exec .linkDown s = goesOn s s)
        ∧ ((s.fn 0).d3hot = false → s.r Reg.PWR_STATE_STATE ≠ 3 → ∃ t, exec .linkDown s = .next t ∧ ResetLeaves (linkRecord s) t 4 { s.mgt.boot with done := [] })
        ∧ (∃ t, exec .pfFlr s = .next t ∧ ResetLeaves s t 5 { s.mgt.boot with done := [] })
        ∧ (∃ t, exec .refLoss s = .next t ∧ ResetLeaves s t 7 { s.mgt.boot with done := [], refOk := false }))
    ∧ exec .perstRelease s = goesOn s { s with mgt := { s.mgt with boot := { s.mgt.boot with perst := false } } }
    ∧ exec .refclkStable s = goesOn s { s with mgt := { s.mgt with boot := { s.mgt.boot with refOk := true } } }
    ∧ (∀ n good vals, 1 ≤ n → n ≤ 11 →
       (let free : Prop := s.mgt.boot.por = false ∧ s.mgt.boot.perst = false ∧ s.mgt.boot.refOk = true ∧ n ∉ s.mgt.boot.done ∧ (∀ k ∈ stepNeeds n, k ∈ s.mgt.boot.done)
        let U : State := { s with mgt := { s.mgt with boot := { s.mgt.boot with done := s.mgt.boot.done ++ [n] } } }
        (¬ free → exec (.startupStep n good vals) s = goesOn s s)
        ∧ (4 ≤ n → n ≤ 6 → s.r Reg.MGT_BOOT_STATUS_RECOVERY = 1 → exec (.startupStep n good vals) s = goesOn s s)
        ∧ (free → s.r Reg.MGT_BOOT_STATUS_RECOVERY ≠ 1 →
           (n = 1 → exec (.startupStep n good vals) s =
              (let V := U.setR Reg.SCB_STATUS_LAST_PFAIL (b2n s.scb.mram.lastPfail)
               goesOn s { V with scb := { V.scb with nextSeq := 0, mram := { s.scb.mram with boot := (s.scb.mram.boot + 1) % 2 ^ 32, lastPfail := false } } }))
           ∧ (n = 2 → exec (.startupStep n good vals) s = goesOn s ((U.setR Reg.CLK_STATUS_PLL_LOCK 1).setR Reg.CLK_STATUS_REF_OK 1))
           ∧ (n = 3 → bankOk U (activeBank U) = true → exec (.startupStep n good vals) s = goesOn s U)
           ∧ (n = 3 → bankOk U (activeBank U) = false → bankOk U (otherBank U) = true → exec (.startupStep n good vals) s = goesOn s (U.setR Reg.MGT_FW_STATUS_ACTIVE_BANK (otherBank U)))
           ∧ (n = 3 → bankOk U (activeBank U) = false → bankOk U (otherBank U) = false → exec (.startupStep n good vals) s = goesOn s (romRecovery U))
           ∧ (n = 5 → vals = [] → exec (.startupStep n good vals) s = goesOn s
                ((U.setR Reg.MGT_BOOT_STATUS_LOCKED 1).setR Reg.KEY_STATUS_APPROVED ((U.setR Reg.MGT_BOOT_STATUS_LOCKED 1).r Reg.KEY_POLICY_APPROVED)))
           ∧ (n = 6 → exec (.startupStep n good vals) s = goesOn s (U.setR Reg.MGT_BOOT_STATUS_HOST_READY 1))
           ∧ (n = 8 → vals = [] → exec (.startupStep n good vals) s = goesOn s (U.setR Reg.MGT_BOOT_STATUS_ETH_CAL_OK good))
           ∧ (n = 11 → exec (.startupStep n good vals) s = goesOn s (scbPut (U.setR Reg.MGT_BOOT_STATUS_READY 1) (bootRecord (U.setR Reg.MGT_BOOT_STATUS_READY 1)))))))
    ∧ ((s.scb.pfailing = true → exec .pfail s = goesOn s s)
       ∧ (s.scb.pfailing = false → s.scb.flushing = false →
          (let V := scbPut { s with scb := { s.scb with flush := [], flushing := false } } (pfailRecord s)
           exec .pfail s = goesOn s { V with scb := { V.scb with pfailing := true, flushing := true, flush := scbSelect V } }))
       ∧ (∀ k l r, s.scb.pfailing = false → s.scb.flushing = true → s.scb.flush = k :: l → amGet k s.scb.ring = some r →
          (let W : State := { s with scb := { s.scb with flush := [], flushing := false, mram := mramPut s.scb.mram { r with flushed := true },
                                                         ring := amSet k { r with flushed := true } s.scb.ring } }
           let V := scbPut W (pfailRecord s)
           exec .pfail s = goesOn s { V with scb := { V.scb with pfailing := true, flushing := true, flush := scbSelect V } })))

namespace Sys2Proof.Machine
/-- The state once a write or doorbell at a window is counted as misuse (R403, R406). -/
def xwCounted (s : State) (w : Nat) : State := s.cnt (Reg.HIF_XW_COUNT_MISUSE.at 0x40 w) 1

/-- The header of the slot that a doorbell names, and the entries of its table where COUNT is in range (R407). -/
def xwHeader (s : State) (w slot : Nat) : List Byte := s.rd (slotAddr s w slot) 256
def xwEntries (s : State) (w slot : Nat) : List SlotEntry :=
  if 1 ≤ leField (xwHeader s w slot) 8 2 ∧ leField (xwHeader s w slot) 8 2 ≤ 4096 then slotEntries s (slotAddr s w slot) (leField (xwHeader s w slot) 8 2) else []
end Sys2Proof.Machine

/-- At a window w below 64. A write on a path that does not reach the window, below the doorbell page, between it and the slots, or past the slots is counted and changes nothing else; one that lies in the slots stores its bytes in the window. XW_DOORBELL that repeats one accepted is counted in DUP; the next one, for the next slot and free, is accepted: DSEQ advances and the slot's header and entries are read; a bad header ends every entry FENCED with XCH_SLOT; of a good one with one entry, the entry ends with the status its checks give, or its layer begins and the request's expected layer advances. RHEAD within what has been released moves the ring's head; past it, it counts as misuse. RELEASE_RECORD_WRITE with nothing waiting or a window that is off changes nothing; with room it stores the oldest release's 32 bytes at its place of the inline ring and advances RCOUNT. SLOT_FLAG_WRITE while an entry has no result changes nothing; while a fence holds it, it counts the wait once; else it stores the 16 bytes of the flag and the slot is the accelerator's again. Completes: windowWrite, xwDoorbell, rhead, releaseRecordWrite, slotFlagWrite. -/
def Obligations.WindowsExchange : Prop :=
  ∀ (s : State) (w : Nat), w < 64 →
    (∀ off path bs,
       let reached : Prop := winOn s w = true ∧ path = winPort s w
       let past := 0x10000 + winSlots s w * winSlotSize s w
       ((¬ reached ∨ off < 0x1000 ∨ (0x2000 ≤ off ∧ off < 0x10000) ∨ (0x2000 ≤ off ∧ past < off + bs.length)) → exec (.windowWrite w off path bs) s = goesOn s (xwCounted s w))
       ∧ (reached → 0x10000 ≤ off → off + bs.length ≤ past → exec (.windowWrite w off path bs) s = goesOn s (s.wr (winBase s w + off) bs)))
    ∧ (∀ path v,
       let reached : Prop := winOn s w = true ∧ path = winPort s w
       let W := s.win w
       let slot := bits v 0 8
       let seq := bits v 32 32
       let next : Prop := v < 2 ^ 64 ∧ bits v 8 24 = 0 ∧ seq = (W.dcount % 2 ^ 32 + 1) % 2 ^ 32 ∧ slot = (W.dcount + 1) % winSlots s w ∧ amHas slot W.uses = false
       let h := xwHeader s w slot
       let es := xwEntries s w slot
       let use (bad : Bool) : SlotUse := { slot := slot, seq := seq, hdr := h, bad := bad, entries := es, fences := if bad then [] else slotFences s w h, weightFail := false, counted := false }
       let taken (bad : Bool) := s.setWin w { W with dcount := W.dcount + 1, uses := amSet slot (use bad) W.uses }
       (¬ reached → exec (.xwDoorbell w path v) s = goesOn s (xwCounted s w) ∧ exec (.rhead w path v) s = goesOn s (xwCounted s w))
       ∧ (reached → ¬ next → (W.dcount % 2 ^ 32 + 2 ^ 32 - seq) % 2 ^ 32 < 2 ^ 31 → exec (.xwDoorbell w path v) s = goesOn s (s.cnt (Reg.HIF_XW_COUNT_DUP.at 0x40 w) 1))
       ∧ (reached → ¬ next → 2 ^ 31 ≤ (W.dcount % 2 ^ 32 + 2 ^ 32 - seq) % 2 ^ 32 → exec (.xwDoorbell w path v) s = goesOn s (xwBad s w))
       ∧ (reached → next → amGet (s.r (Reg.HIF_XW_CFG_MODEL.at 0x40 w)) s.sch.models = none → exec (.xwDoorbell w path v) s = goesOn s
            ((List.range es.length).foldl (fun U i => setResult U w slot i Status.fenced.code Detail.XCH_SLOT) (taken true)))
       ∧ (∀ m e, reached → next → amGet (s.r (Reg.HIF_XW_CFG_MODEL.at 0x40 w)) s.sch.models = some m → headerOk s w m seq h es = true → es = [e] →
          (let U := taken false
           (∀ r, entryCheck U w (leField h 6 1) (leField h 4 2) e false = .error r → exec (.xwDoorbell w path v) s = goesOn s (setResult U w slot 0 r.1 r.2))
           ∧ (∀ x mo y, entryCheck U w (leField h 6 1) (leField h 4 2) e false = .ok (x, mo) →
                (let V := stallClear (U.setCtx { x with layer := x.layer + 1 }) x.handle St.exchange
                 V.ctx x.handle = some y → (V.layer y.handle).isSome = false →
                 exec (.xwDoorbell w path v) s = goesOn s (beginLayer V y mo
                   { handle := y.handle, layer := leField h 4 2, kind := leField h 6 1, window := w, slot := slot, entry := 0, row0 := e.row0, pos0 := e.pos0, count := e.count,
                     formats := leField h 7 1, tree := if leField h 6 1 = 3 then y.verifyTree else [], stage := .writing, merge := none, det := y.deterministic, shards := [], kvTasks := [] })))))
       ∧ (reached → v < 2 ^ 32 → (v + 2 ^ 32 - W.rhead % 2 ^ 32) % 2 ^ 32 ≤ W.rcount - W.rhead →
            exec (.rhead w path v) s = goesOn s (s.setWin w { W with rhead := W.rhead + (v + 2 ^ 32 - W.rhead % 2 ^ 32) % 2 ^ 32 }))
       ∧ (reached → (2 ^ 32 ≤ v ∨ W.rcount - W.rhead < (v + 2 ^ 32 - W.rhead % 2 ^ 32) % 2 ^ 32) → exec (.rhead w path v) s = goesOn s (xwBad s w)))
    ∧ (let W := s.win w
       ((W.waiting = [] ∨ winOn s w = false) → exec (.releaseRecordWrite w) s = goesOn s s)
       ∧ (∀ r rest, W.waiting = r :: rest → winOn s w = true → W.rcount - W.rhead < winRing s w → s.r (Reg.HIF_XW_REL_REL_DEST.at 0x40 w) = 0 →
          (let at_ := winBase s w + 0x2000 + 32 * (W.rcount % winRing s w)
           let U := s.wr at_ (releaseBytes ((W.rcount + 1) % 2 ^ 32) r.kind r.lclass (s.r (Reg.HIF_XW_CFG_MODEL.at 0x40 w)) r.handle r.pos0 r.count r.tag)
           let V := U.setWin w { W with rcount := W.rcount + 1, waiting := rest }
           (r.kind = 4 → exec (.releaseRecordWrite w) s = goesOn s V)
           ∧ (∀ x, r.kind ≠ 4 → V.ctx r.handle = some x → exec (.releaseRecordWrite w) s = goesOn s (V.setCtx { x with relWritten := true })))))
    ∧ (∀ slot,
       let W := s.win w
       (amGet slot W.uses = none → exec (.slotFlagWrite w slot) s = goesOn s s)
       ∧ (∀ u, amGet slot W.uses = some u →
          ((∃ e ∈ u.entries, e.result = none) → exec (.slotFlagWrite w slot) s = goesOn s s)
          ∧ ((∀ e ∈ u.entries, e.result ≠ none) → u.fences ≠ [] → u.counted = true → exec (.slotFlagWrite w slot) s = goesOn s s)
          ∧ ((∀ e ∈ u.entries, e.result ≠ none ∧ e.result ≠ some (0, 0)) → u.fences ≠ [] → u.counted = false → exec (.slotFlagWrite w slot) s = goesOn s
               ((s.cnt (Reg.HIF_XW_COUNT_FENCE_WAIT.at 0x40 w) 1).setWin w { W with uses := amSet slot { u with counted := true } W.uses }))
          ∧ ((∀ e ∈ u.entries, e.result ≠ none) → u.fences = [] → u.counted = false → (leField u.hdr 0x18 8 = 0 ∨ u.bad = true) →
               (let U := s.wr (slotAddr s w slot + 0x40) (flagBytes u)
                exec (.slotFlagWrite w slot) s = goesOn s (U.setWin w { U.win w with uses := amErase slot (U.win w).uses })))))

namespace Sys2Proof.Machine
/-- The PSN of a new packet and what is kept of it until it is acknowledged (R307, R313). -/
def freshTx (T : State) (q : Qp) (p : NewPkt) (path : Nat) (last : Bool) : TxPkt :=
  { psn := q.sndNxt, n := p.n, op := wrOp p.wr.wr, flags := b2n (p.wr.next == 0) + 2 * b2n last + 4 * b2n last + 8 * b2n (wrFence p.wr.wr) + 16, ord := p.wr.ord, off := p.wr.next,
    len := p.len, units := p.units, attempt := 0, path := path, first := T.now, last := T.now, doublings := 0, due := false, dueAt := 0, sacked := false, creditWait := false,
    rnrAt := none, rnrSeen := false, got := [], atom := q.atomSent }

/-- The queue pair once a new packet has gone out: its PSNs and units are spent, the packet awaits its acknowledgement, and its request has moved on (R307, R317). -/
def freshQp (T : State) (q : Qp) (p : NewPkt) (path : Nat) (last : Bool) : Qp :=
  { q with sndNxt := (q.sndNxt + p.n) % 2 ^ 32, sndUsed := (q.sndUsed + p.units) % 2 ^ 32, newSent := q.newSent + p.n,
           atomSent := if wrOp p.wr.wr = Cw.atomic then q.atomSent + 1 else q.atomSent,
           unaTime := if q.unacked.isEmpty then T.now else q.unaTime, unacked := q.unacked ++ [freshTx T q p path last],
           stream := q.stream.map fun x => if x.ord = p.wr.ord then { p.wr with next := p.wr.next + p.len, allSent := last, sentAny := true } else x, waitSince := none }
end Sys2Proof.Machine

/-- WORK_REQUEST_START of a queue pair in READY on die starts the first request of its stream that has not started and that no fence holds back, under the next message number; one whose bytes lie in units not built waits for them; with no route to the peer that request ends FENCED with CWT_NO_ROUTE, and a multicast at a bad group entry with MEM_GROUP; a multicast is performed at its root; with nothing to start nothing starts, and off die the context is fetched. PACKET_TRANSMIT begins a cycle of the port and refills the shapers; with nothing to send that is all; what the arbiter of the port chose is charged to its shapers and goes out on its path: a new packet spends its PSNs and units and awaits its acknowledgement, a response leaves its queue under its next ATTEMPT, a PSN goes again; where the Keyhouse refuses to seal it nothing is sent and the queue pair enters ERROR, and where its bytes cannot be read its request fails. RTO_EXPIRY before its time changes nothing; in time the PSN is due again with its RTO doubled and its path held, and counted; with a credit request outstanding that is due to be asked again. GIVE_UP before its time changes nothing, and then takes the queue pair to ERROR with its event. ACK_DELAY_EXPIRY sends the ACK that waits, in time. PATH_HOLD_EXPIRY ends a hold in time, and nothing before. RNR_RETRY makes the SEND answered NAK_RNR due once its time has passed. Completes: workRequestStart, packetTransmit, rtoExpiry, giveUp, ackDelayExpiry, pathHoldExpiry, rnrRetry. -/
def Obligations.SendersSendAndRetry : Prop :=
  ∀ (s : State) (i : Nat) (q : Qp), s.qpAt i = some q →
    (let settled (U : State) := goesOn s (qpSettle (rootSettle U) i)
     let root (w : SendWr) : Bool := wrOp w.wr == Cw.mcast && w.fwd.isNone
     let ends (w : SendWr) (dt : Nat) : State :=
       postWc (s.setQp i { q with stream := q.stream.filter fun x => x.ord != w.ord }) q (wrId w.wr) w.bytes Status.fenced.code dt (wrOp w.wr) w.result
     ((q.state ≠ .ready ∨ (s.cwt.resident.contains i = true ∧ ∀ w ∈ q.stream, w.started = true)) → exec (.workRequestStart i) s = settled s)
     ∧ (q.state = .ready → s.cwt.resident.contains i = false → q.stream ≠ [] → exec (.workRequestStart i) s = settled (qpFetch s i))
     ∧ (∀ w, q.state = .ready → s.cwt.resident.contains i = true →
         (q.stream.find? fun w => !w.started && !(bit q.mode 0 && root w && fenceHeld s q w)) = some w →
         (root w = false → routeOk s q.peerNode = true → (w.fwd = none → localStop s w.wr = none ∧ localBlocked s w.wr = []) →
            (let p := startMsg q w
             exec (.workRequestStart i) s = settled (s.setQp i { p.1 with stream := p.1.stream.map fun x => if x.ord = w.ord then { x with started := true, msg := p.2 } else x })))
         ∧ (root w = false → w.fwd = none → routeOk s q.peerNode = true → localStop s w.wr = none → localBlocked s w.wr ≠ [] →
            exec (.workRequestStart i) s = settled (blockOn s (localBlocked s w.wr)))
         ∧ (root w = false → w.fwd = none → routeOk s q.peerNode = false → exec (.workRequestStart i) s = settled (ends w Detail.CWT_NO_ROUTE))
         ∧ (root w = true → fenceHeld s q w = true → exec (.workRequestStart i) s = settled s)
         ∧ (root w = true → fenceHeld s q w = false → mcastBad s (leNat ((wrOperands w.wr).take 2)) 0 = true → exec (.workRequestStart i) s = settled (ends w Detail.MEM_GROUP))
         ∧ (root w = true → fenceHeld s q w = false → exec (.workRequestStart i) s = settled (mcastRoot s i q w))))
    ∧ (∀ port, port < 8 →
       let S := cycleStep (s.cwt.qps.foldl (fun T e => routeLost T e.1) s) port
       let P := S.cwt.qps.foldl (fun T e => (qpShapers T e.2).foldl shpConsult T) S
       (egrChoose P port = none → exec (.packetTransmit port) s = goesOn s P)
       ∧ (∀ o U q, egrChoose P port = some (o, U) → U.qpAt o.qp = some q →
           (∀ d, sealRefused U q o.what = some d → exec (.packetTransmit port) s = goesOn s (qpError U o.qp d))
           ∧ (∀ d, sealRefused U q o.what = none → sendStopped U q o.what = some d →
              exec (.packetTransmit port) s = goesOn s (egrSettle (qpSettle (sendFails U o.qp q o.what d) o.qp) port o))
           ∧ (sealRefused U q o.what = none → sendStopped U q o.what = none →
              (let V := qpTouch (shpCharge U q o.cost) o.qp
               let sent (X : State) := goesOn s (egrSettle (wheelAll (qpSettle X o.qp) (qpShapers X q)) port o)
               (∀ t path frame, o.what = .again t path frame → exec (.packetTransmit port) s = sent (sendAgain V o.qp q t path))
               ∧ (∀ r path frame, o.what = .resp r path frame → q.respAttempt r.psn ≤ 255 →
                  (let W : State := { V with cwt := { V.cwt with rotor := amSet q.peerNode ((path + 1) % 32) V.cwt.rotor } }
                   exec (.packetTransmit port) s = sent (sendPacket (W.setQp o.qp { q.count 0 with
                     resp := q.resp.drop 1, respSent := amSet r.psn (q.respAttempt r.psn + 1) q.respSent, waitSince := none }) r.op q.dscp path (respBuild W q r))))
               ∧ (∀ p path frame, o.what = .fresh p path frame →
                  exec (.packetTransmit port) s = sent (sendFresh V o.qp q p path)
                  ∧ (q.newSent < 4294901760 → p.wr.fwd = none → wrOp p.wr.wr ≠ Cw.readReq →
                  (let last := decide (wrPayload p.wr.wr ≤ p.wr.next + p.len)
                   let z := freshQp V q p path last
                   let W : State := { V with cwt := { V.cwt with rotor := amSet q.peerNode ((path + 1) % 32) V.cwt.rotor } }
                   exec (.packetTransmit port) s = sent (sendPacket (W.setQp o.qp (z.count 0)) (wrOp p.wr.wr) q.dscp path (txBuild W z p.wr (freshTx V q p path last))))))))))
    ∧ (∀ psn t, (q.unacked.find? fun t => t.psn == psn && !t.due && !t.sacked && !t.creditWait && t.rnrAt.isNone) = some t →
       (s.now < t.last + rtoNs s q * 2 ^ t.doublings → exec (.rtoExpiry i psn) s = goesOn s s)
       ∧ (t.last + rtoNs s q * 2 ^ t.doublings ≤ s.now →
          (let U := clearHolds { s with cwt := { s.cwt with holds := amSet (32 * q.peerNode + t.path) (s.now + s.r Reg.CWT_TIMER2_PATH_HOLD_US * 1000) s.cwt.holds } } q.peerNode
           exec (.rtoExpiry i psn) s = goesOn s (qpSettle ((U.setQp i
             { q with unacked := q.unacked.map fun x => if x.psn = psn then { x with due := true, dueAt := U.now, doublings := x.doublings + 1 } else x }).cnt Reg.CWT_RETX_TIMEOUT 1) i))))
    ∧ (∀ psn at_, (∀ t ∈ q.unacked, t.psn ≠ psn) → q.creditAt = some at_ →
       (s.now < at_ + rtoNs s q → exec (.rtoExpiry i psn) s = goesOn s s)
       ∧ (at_ + rtoNs s q ≤ s.now → exec (.rtoExpiry i psn) s = goesOn s (qpSettle (s.setQp i { q with creditAt := none }) i)))
    ∧ ((q.unacked = [] ∨ s.now < q.unaTime + max 1000 (s.r Reg.CWT_TIMER2_GIVEUP_US) * 1000) → exec (.giveUp i) s = goesOn s s)
    ∧ (∀ t l, q.unacked = t :: l → (q.state = .ready ∨ q.state = .draining) → q.unaTime + max 1000 (s.r Reg.CWT_TIMER2_GIVEUP_US) * 1000 ≤ s.now →
        exec (.giveUp i) s = goesOn s (qpError (setEvent s Reg.CWT_QP_EVENT_GIVE_UP 1) i (if t.rnrSeen then Detail.CWT_RNR else Detail.CWT_GIVE_UP)))
    ∧ ((q.toAck = 0 ∨ s.now < q.toAckAt + max 1 (s.r Reg.CWT_TIMER_ACK_DELAY_100NS) * 100) → exec (.ackDelayExpiry i) s = goesOn s s)
    ∧ (0 < q.toAck → q.toAckAt + max 1 (s.r Reg.CWT_TIMER_ACK_DELAY_100NS) * 100 ≤ s.now →
       (let z := { grant s q with toAck := 0 }
        exec (.ackDelayExpiry i) s = goesOn s (sendOnRotor (s.setQp i (z.count 0)) Cw.ack z.dscp (ctlPacket s z z.sndNxt z.rcvNxt 16 (leBytes 4 z.rcvLimit ++ leBytes 4 0 ++ leBytes 32 (rcvMap z))))))
    ∧ (∀ node path,
       (amGet (32 * node + path) s.cwt.holds = none → exec (.pathHoldExpiry node path) s = goesOn s s)
       ∧ (∀ t, amGet (32 * node + path) s.cwt.holds = some t → path < 32 →
          (s.now < t → exec (.pathHoldExpiry node path) s = goesOn s s)
          ∧ (t ≤ s.now → exec (.pathHoldExpiry node path) s = goesOn s { s with cwt := { s.cwt with holds := amErase (32 * node + path) s.cwt.holds } })))
    ∧ (∀ psn,
       (let due (t : TxPkt) : Bool := t.psn == psn && (match t.rnrAt with | some at_ => decide (at_ ≤ s.now) | none => false)
        exec (.rnrRetry i psn) s = goesOn s
          (qpSettle (s.setQp i { q with unacked := q.unacked.map fun t => if due t then { t with due := true, dueAt := s.now, rnrAt := none } else t }) i)))

namespace Sys2Proof.Machine
/-- A packet that passes steps 1 to 4 of R297 with nothing held against it: on a port with MACsec off, with its sizes right, to this node, under an epoch that its opcode may have, from a node this node's role hears, outside a quiesce, and with the Keyhouse not in its error state. -/
structure Heard (s : State) (op : Nat) (p : Packet) : Prop where
  port : p.port < 8
  clear : s.r (Reg.CWT_PORT_CFG_MACSEC.at 0x100 p.port) = 0
  unmarked : p.ce = false
  sizes : p.sizesOk = true ∧ p.ext.length ≤ 64 ∧ p.ext.length % 8 = 0 ∧ p.payload.length ≤ cwMax
  node : p.dstNode = s.nodeId
  epoch : anyEpoch op = true ∨ epochView s p.epoch = .current
  role : s.role ≠ 4 ∨ p.srcNode = s.nodeId
  serving : s.r Reg.MGT_ROLE_DRAIN_QUIESCED ≠ 1
  keys : s.r Reg.KEY_STATUS_STATE ≠ 2
  onDie : s.cwt.resident.contains (p.dstQp % 2 ^ 24) = true

/-- A packet that its queue pair takes (steps 5 to 7 of R297): from its peer, in READY or DRAINING, of an opcode its mode allows, in that opcode's form. -/
structure TakenBy (s : State) (op : Nat) (p : Packet) (i : Nat) (q : Qp) : Prop where
  heard : Heard s op p
  named : s.qp p.dstQp = some (i, q)
  peer : p.srcNode = q.peerNode ∧ p.srcQp = q.peerQp
  state : q.state = .ready ∨ q.state = .draining
  mode : (op = Cw.atomic → bit q.mode 1 = true) ∧ (op = Cw.send → bit q.mode 2 = true)
  form : pkFormOk op p = true

/-- The queue pair once a packet has reached it, and the state then: one more received, the node it is known by, most recently used. -/
def reachedQp (p : Packet) (q : Qp) : Qp := { q.count 1 with selfNode := p.dstNode }
def reached (s : State) (p : Packet) (i : Nat) (q : Qp) : State := qpTouch (s.setQp i (reachedQp p q)) i

/-- A packet accepted, its payload b in the clear, and the state then (R318): in the receive map, its units counted, one more to acknowledge, and what it acknowledges taken. -/
def acceptedPkt (s : State) (op : Nat) (p : Packet) (b : List Byte) : RxPkt :=
  ⟨p.psn, rxSpan op p, op, { p with payload := b }, cwUnits op p.payload.length, s.now, s.cwt.nextRx, .waiting⟩
def accepted (s : State) (op : Nat) (p : Packet) (i : Nat) (q : Qp) (b : List Byte) : State :=
  let z := reachedQp p q
  let T := reached s p i q
  let U := State.setQp { T with cwt := { T.cwt with nextRx := T.cwt.nextRx + 1 } } i { z with
    rx := rxInsert z.rcvNxt (acceptedPkt s op p b) z.rx, rcvUnits := (z.rcvUnits + cwUnits op p.payload.length) % 2 ^ 32,
    counted := z.counted.filter (· ≠ p.psn), toAck := z.toAck + 1, toAckAt := if z.toAck = 0 then s.now else z.toAckAt }
  if pkAckv p then takeAckPsn U i p.ackPsn else U

/-- The table entry of the region that a key names can be read: the key is beyond the table, or the entry's units are built and not lost (R386, R388, R389). -/
def EntryOpen (s : State) (key : Nat) : Prop :=
  let a := regionTblAddr s (key % 2 ^ 24)
  regionCount s ≤ key % 2 ^ 24 ∨ (doubleLost s a 128 = false ∧ blockedUnits s a 128 false = [])

/-- The packets that take credit: the command and its opcode (R292). -/
def dataRows : List ((Packet → Instr) × Nat) :=
  [(Instr.send, Cw.send), (Instr.write, Cw.write), (Instr.readReq, Cw.readReq), (Instr.atomic, Cw.atomic), (Instr.reduce, Cw.reduce), (Instr.reduceLsem, Cw.reduce),
   (Instr.mcast, Cw.mcast)]
end Sys2Proof.Machine

/-- For each packet that takes credit and that its queue pair takes. Beyond its credit it is answered with a NAK_CREDIT, 1,024 or more ahead of RCV_NXT with a NAK_SEQ, a repeat of one accepted with an ACK where it asks for nothing again, and one whose tag fails with a NAK_AUTH; one for a queue pair that is not there is counted and nothing else. Else it is accepted, the packets whose turn has come are performed and what calls for an ACK is answered. The only packet waiting, its turn come, ends with the answer its operation gives, in the state that leaves; where its operation must wait it is held and the units it waits for are asked for; where the receive ring is empty it leaves the map and is answered with NAK_RNR; a multicast waits for its branches. A WRITE that every check passes stores its payload and takes its region's charges; a READ_REQ queues its responses; an atomic on the target's own bytes answers with their old value; a contribution of one packet is applied as a whole. Completes: send, write, readReq, atomic, reduce, reduceLsem, mcast. -/
def Obligations.ReceiversPerform : Prop :=
  ∀ (s : State) (p : Packet), ∀ row ∈ dataRows,
    (Heard s row.2 p → s.qp p.dstQp = none → exec (row.1 p) s = goesOn s (s.cnt Reg.CWT_DROP_STALE_QP 1))
    ∧ (∀ i q, TakenBy s row.2 p i q →
       let z := reachedQp p q
       let T := reached s p i q
       let units := cwUnits row.2 p.payload.length
       let rest (U : State) := goesOn s (qpSettle (mcastSettle U) i)
       (isDup z p.psn = true → z.redirected = [] → row.2 ≠ Cw.atomic → row.2 ≠ Cw.readReq → exec (row.1 p) s = rest (sendAck T i))
       ∧ (isDup z p.psn = false → z.counted.contains p.psn = false → serGe z.rcvLimit ((z.rcvUnits + units) % 2 ^ 32) = false →
           exec (row.1 p) s = rest (sendNak T.takeFree i nakCredit (Config.freeNat T.free % 10) 0 p.psn))
       ∧ (isDup z p.psn = false → z.counted.contains p.psn = false → serGe z.rcvLimit ((z.rcvUnits + units) % 2 ^ 32) = true →
          (1024 ≤ serDist p.psn z.rcvNxt → exec (row.1 p) s = rest (sendNak T.takeFree i nakSeq (Config.freeNat T.free % 10) 0 p.psn))
          ∧ (serDist p.psn z.rcvNxt < 1024 → openPacket T z row.2 p = none → exec (row.1 p) s = rest (authFail T i p.psn))
          ∧ (∀ b, serDist p.psn z.rcvNxt < 1024 → openPacket T z row.2 p = some b →
             (let A := accepted s row.2 p i q b
              let x := acceptedPkt s row.2 p b
              let late (U : State) := rest (ackAfter U i (pkAckReq p))
              exec (row.1 p) s = late (rxRun A i)
              ∧ (∀ y, A.qpAt i = some y → y.rx = [x] → y.rcvNxt = p.psn →
                 ((row.2 ≠ Cw.reduce ∨ leField p.ext 4 1 ≠ 5) → (row.2 = Cw.send → sendTurn y x.pkt = true) →
                   (∀ W ans, perform A i y row.2 x.pkt = (W, .ended [] ans) → exec (row.1 p) s = late (rxFinish W i p.psn ans))
                   ∧ (∀ W us, perform A i y row.2 x.pkt = (W, .wait us) → exec (row.1 p) s = late (rxMod (blockOn W us) i p.psn fun x => { x with stage := .held }))
                   ∧ (∀ W d ds ans, perform A i y row.2 x.pkt = (W, .ended (d :: ds) ans) →
                       exec (row.1 p) s = late (rxMod W i p.psn fun x => { x with stage := .acking (d :: ds) ans }))
                   ∧ (∀ W, perform A i y row.2 x.pkt = (W, .rnr) →
                      (let V := W.modQp i fun q => { q with rx := q.rx.filter fun (y : RxPkt) => y.psn != p.psn, counted := q.counted ++ [p.psn] }
                       exec (row.1 p) s = late (sendNak V.takeFree i nakRnr (Config.freeNat V.free % 10) 0 p.psn)))
                   ∧ (∀ W k, perform A i y row.2 x.pkt = (W, .branching k) →
                      (let V := rxMod W i p.psn fun x => { x with stage := .branching k }
                       (amGet k V.rm.mcasts).bind (Mcast.outcome V) = none → exec (row.1 p) s = late V)))
                 ∧ (row.2 = Cw.reduce → leField p.ext 4 1 = 5 → pkFirst p = true → pkLast p = true →
                   (∀ e, lsemCheck A i y x.pkt = some e → exec (row.1 p) s = late (rxFinish (countRefusal A e) i p.psn (.refused e.1.code e.2)))
                   ∧ (lsemCheck A i y x.pkt = none → exec (row.1 p) s = late (rxFinish
                       (remoteContribution A p.srcNode (leField p.ext 8 8) (leField p.ext 6 2) (leField p.ext 0x10 2) (leField p.ext 0x12 1) (lsemRows (hdimOf (leField p.ext 0x13 1)) [x]))
                       i p.psn .ok))))))))
    ∧ (∀ i (q : Qp) k r,
       let off := leField p.ext 8 8
       let n := p.payload.length
       EntryOpen s (leField p.ext 0 4) →
       (checkRange s (leField p.ext 0 4) (askOf q i Cw.write p off n (some (leField p.ext 4 4))) = .ok (k, r) → regionLost s r off n = false → regionWait s r off n true = none →
         checkLines s k r (askOf q i Cw.write p off n (some (leField p.ext 4 4))) off n true = none →
         (let w := regionStore s r off p.payload true
          perform s i q Cw.write p = (regionTouch (hotOps (begin_ w.1 i k p) (r.base + off) n) r off n 1 n, .ended w.2 .ok)))
       ∧ (let len := leField p.ext 4 4
          let a := { askOf q i Cw.readReq p off len none with slot := false }
          leField p.ext 0x10 2 = 0 → len ≤ cwMax → 0 < len → checkRange s (leField p.ext 0 4) a = .ok (k, r) → regionLost s r off len = false →
          waitOn s (regionBlocked s r off len false) (if parityArea s r then 2 else 0) = none → checkLines s k r a off len false = none →
          (let U := hotReads (chargeClass (pageTouch s (r.base + off) len) (if parityArea s r then 2 else 0) len) (r.base + off) len
           perform s i q Cw.readReq p = (U.modQp i fun q => { q with resp := q.resp ++ [⟨Cw.readResp, p.psn % 2 ^ 32, [], U.opRd (r.base + off) len, U.now⟩] }, .ended [] .ok)))
       ∧ (let aop := leField p.ext 4 1
          let width := leField p.ext 5 1
          let m := aopBits width / 8
          let a := askOf q i Cw.atomic p (if m = 0 then 0 else off) m none
          1 ≤ aop → aop ≤ 10 → checkRange s (leField p.ext 0 4) a = .ok (k, r) → off % m = 0 → regionLost s r off m = false → regionWait s r off m true = none →
          checkLines s k r a off m false = none →
          (let old := leNat (s.opRd (r.base + off) (min m 8))
           let w := regionStore s r off (leBytes m (aopValue aop width old (leField p.ext 0x10 8) (leField p.ext 0x18 8))) false
           perform s i q Cw.atomic p = (countRefusal (regionTouch (hotOps w.1 (r.base + off) m) r off m 1 (modifyBytes s (r.base + off) m)) (.ok, 0), .ended w.2 (.atomic 0 0 old)))))

/-- For a packet of a queue pair that takes it, and asks for nothing of this node's memory. An ACK grants, acknowledges everything before ACK_PSN and then what its SACK shows. CREDIT_REQ is answered with an ACK. A NAK whose code is a result or a redirect ends the request of its PSN before its ACK_PSN is taken, which has passed it; a result's detail is one of the codes a refusal carries. Any other code acts after its ACK_PSN has been taken: out of sequence, everything from there is due again; short of credit, the PSN waits for a grant; not ready, it waits RNR_US; an authentication or other fatal code takes the queue pair to ERROR. READ_RESP and ATOMIC_RESP that answer nothing outstanding change nothing more; an ATOMIC_RESP that answers an outstanding atomic ends it with its status and result, and a READ_RESP of bytes not yet there stores them, waiting for units that are locked or not built and for its deltas, and with the last of them ends its request; where its LOCAL bytes are lost or out of reach it ends FENCED. Any of the five for a queue pair that is not there is counted and nothing else. An answer to a read of the controller's own is given to what asked for it, and one to a commit of a record elsewhere to that commit; one that it did not ask for changes nothing, and in MIXED one from another node is counted as a map reject. ARP_REQUEST and NEIGHBOR_SOLICITATION for this node's own address on a sub-port that is up are answered there, others change nothing. A frame that is too long, fails its FCS, fails a check, is not Celwald's or fails MACsec is counted and nothing else; a good one is taken as its packet. Completes: ack, nak, creditReq, readResp, atomicResp, arpRequest, neighborSolicitation, nonCelwaldFrame. -/
def Obligations.AnswersAndFramesArrive : Prop :=
  ∀ (s : State) (p : Packet),
    (∀ row ∈ [(Instr.ack, Cw.ack), (Instr.nak, Cw.nak), (Instr.creditReq, Cw.creditReq), (Instr.readResp none, Cw.readResp), (Instr.atomicResp none, Cw.atomicResp)],
       (Heard s row.2 p → s.qp p.dstQp = none → exec (row.1 p) s = goesOn s (s.cnt Reg.CWT_DROP_STALE_QP 1))
       ∧ (∀ i q, TakenBy s row.2 p i q →
          let T := reached s p i q
          let rest (U : State) := goesOn s (qpSettle (mcastSettle U) i)
          let seen := takeAckPsn T i p.ackPsn
          let shown := if pkAckv p then seen else T
          (row.2 = Cw.ack → exec (row.1 p) s = rest (takeSack (takeAckPsn (takeGrant T i (leField p.ext 0 4)) i p.ackPsn) i p.ackPsn (leField p.ext 8 32)))
          ∧ (row.2 = Cw.creditReq → exec (row.1 p) s = rest (sendAck shown i))
          ∧ (∀ y, row.2 = Cw.nak → seen.qpAt i = some y →
             let psn := leField p.ext 4 4
             let ends := q.unacked.filter fun t => t.psn == psn
             (leField p.ext 0 1 = 1 → exec (row.1 p) s = rest (txMod seen i fun t =>
                if !t.sacked && decide (serDist t.psn p.ackPsn < 2 ^ 31) then { t with due := true, dueAt := seen.now, rnrAt := none } else t))
             ∧ (leField p.ext 0 1 = 2 → exec (row.1 p) s = rest (txMod seen i fun t => if t.psn = psn then { t with creditWait := true, due := false } else t))
             ∧ (leField p.ext 0 1 = 3 → exec (row.1 p) s = rest (txMod seen i fun t =>
                if t.psn = psn then { t with rnrAt := some (seen.now + max 1 (seen.r Reg.CWT_TIMER_RNR_US) * 1000), rnrSeen := true, sacked := false, due := false } else t))
             ∧ (leField p.ext 0 1 = 4 → nakDetail T ∈ refusalDetails ∧ exec (row.1 p) s = rest (takeAckPsn (txDone T.takeFree i ends (some (leField p.ext 1 1, nakDetail T)) none) i p.ackPsn))
             ∧ (leField p.ext 0 1 = 5 → exec (row.1 p) s = rest (takeAckPsn (txDone T i ends (some (Status.redirect.code, 0)) (some (leField p.ext 2 2))) i p.ackPsn))
             ∧ (leField p.ext 0 1 = 8 → exec (row.1 p) s = rest (qpError (authNote seen i) i Detail.CWT_AUTH))
             ∧ (9 ≤ leField p.ext 0 1 → exec (row.1 p) s = rest (qpError seen i Detail.CWT_REMOTE_ERR)))
          ∧ (∀ b y, row.2 = Cw.atomicResp → openPacket T (reachedQp p q) row.2 p = some b → shown.qpAt i = some y →
             ((∀ t ∈ y.unacked, t.op = Cw.atomic → t.psn ≠ p.psn) → exec (row.1 p) s = rest shown)
             ∧ (∀ t, (y.unacked.find? fun t => t.op == Cw.atomic && t.psn == p.psn) = some t → exec (row.1 p) s = rest
                 (txDone (shown.modQp i fun z => rttSample shown z [t]) i [t] (if leField p.ext 0 1 = 0 then none else some (leField p.ext 0 1, leField p.ext 1 1)) (some (leField p.ext 8 8)))))
          ∧ (∀ b y, row.2 = Cw.readResp → openPacket T (reachedQp p q) row.2 p = some b → shown.qpAt i = some y →
             ((∀ t ∈ y.unacked, t.op = Cw.readReq → t.n ≤ serDist p.psn t.psn) → exec (row.1 p) s = rest shown)
             ∧ (∀ t w, (y.unacked.find? fun t => t.op == Cw.readReq && decide (serDist p.psn t.psn < t.n)) = some t → p.ext = [] →
                 let k := serDist p.psn t.psn
                 b.length = min cwMax (t.len - k * cwMax) → t.got.contains k = false → (y.stream.find? fun w => w.ord == t.ord) = some w →
                 let at_ := wrLocal w.wr + t.off + k * cwMax
                 let hold : HeldWork := .resp i { p with payload := b }
                 let U := unhold shown hold
                 let V := chargeClass (putBytes (pageTouch U at_ b.length) at_ b) 1 b.length
                 (∀ dt, writeStop shown at_ b.length = some dt → exec (row.1 p) s = rest (txDone U i [t] (some (Status.fenced.code, dt)) none))
                 ∧ (writeStop shown at_ b.length = none → blockedUnits shown at_ b.length true ≠ [] →
                     exec (row.1 p) s = rest (holdWork shown (blockedUnits shown at_ b.length true) hold))
                 ∧ (writeStop shown at_ b.length = none → blockedUnits shown at_ b.length true = [] →
                     (newDeltas U V ≠ [] → exec (row.1 p) s = rest (waitDeltas V (newDeltas U V) (.resp i t.psn k)))
                     ∧ (newDeltas U V = [] → exec (row.1 p) s = rest (respGot V i t.psn k)))))))
    ∧ (∀ (W : State) i y t psn k, W.qpAt i = some y → (y.unacked.find? fun t => t.op == Cw.readReq && t.psn == psn) = some t → t.got.contains k = false →
       let g : TxPkt := { t with got := t.got ++ [k] }
       let V := txMod W i fun u => if u.psn = psn then g else u
       respGot W i psn k = if g.got.length = g.n then qpSettle (txDone (V.modQp i fun q => rttSample V q [g]) i [g] none none) i else V)
    ∧ ((s.role ≠ roleMixed ∨ p.srcNode = s.nodeId) →
       (∀ o : OwnResp, (amGet o.read s.xch.reads = none → exec (.readResp (some o) p) s = goesOn s s)
          ∧ (∀ r, amGet o.read s.xch.reads = some r → exec (.readResp (some o) p) s = goesOn s
              (let U : State := { s with xch := { s.xch with reads := amErase o.read s.xch.reads } }
               let whole := decide (o.bytes.length = r.len)
               match r.use with
               | .staged h layer => stagedAnswer U h layer o.read o.status whole o.bytes
               | .stream j => streamAnswer U j ((Status.ofCode o.status).getD .fenced) o.detail o.bytes
               | .unit u lost => unitParity U u lost (if o.status = 0 ∧ whole = true then some o.bytes else none))))
       ∧ (∀ a : AtomicResp, (amGet a.commit s.sch.commits = none → exec (.atomicResp (some a) p) s = goesOn s s)
          ∧ (∀ cm, amGet a.commit s.sch.commits = some cm → cm.record.node ≠ s.nodeId → exec (.atomicResp (some a) p) s = goesOn s (recordAnswer s a.commit a))))
    ∧ (s.role = roleMixed → p.srcNode ≠ s.nodeId →
       (∀ o, exec (.readResp (some o) p) s = goesOn s (s.cnt Reg.CWT_DROP_MAP_REJECT 1)) ∧ (∀ a, exec (.atomicResp (some a) p) s = goesOn s (s.cnt Reg.CWT_DROP_MAP_REJECT 1)))
    ∧ (∀ port sub mac ip target, port < 8 → sub < 8 →
       let e := nodeEnt s s.nodeId
       let mine4 : Prop := subUp s port sub = true ∧ e.valid = true ∧ e.v4 = true ∧ e.ip.drop 12 = target
       let mine6 : Prop := subUp s port sub = true ∧ e.valid = true ∧ e.v4 = false ∧ e.ip = target
       (¬ mine4 → exec (.arpRequest port sub mac ip target) s = goesOn s s)
       ∧ (mine4 → exec (.arpRequest port sub mac ip target) s = goesOn s (sendFrame s port sub (fit 6 mac) (fit 48 (beBytes 2 0x0806
            ++ (beBytes 2 1 ++ beBytes 2 0x0800 ++ beBytes 1 6 ++ beBytes 1 4 ++ beBytes 2 2 ++ subMac s port sub ++ fit 4 target ++ fit 6 mac ++ fit 4 ip)))))
       ∧ (¬ mine6 → exec (.neighborSolicitation port sub mac ip target) s = goesOn s s)
       ∧ (mine6 → allZero ip = false →
          let body := beBytes 1 0x60 ++ beBytes 3 0 ++ e.ip ++ beBytes 1 2 ++ beBytes 1 1 ++ subMac s port sub
          let head := beBytes 1 136 ++ beBytes 1 0
          exec (.neighborSolicitation port sub mac ip target) s = goesOn s (sendFrame s port sub (fit 6 mac) (beBytes 2 0x86DD ++ (beBytes 4 (6 * 2 ^ 28) ++ beBytes 2 32 ++ beBytes 1 58
            ++ beBytes 1 255 ++ e.ip ++ fit 16 ip ++ (head ++ beBytes 2 (inetSum (pseudo false e.ip (fit 16 ip) 58 32 ++ head ++ beBytes 2 0 ++ body)) ++ body))))))
    ∧ (∀ port f, port < 8 →
       let n := f.length - 4
       (9270 < f.length → exec (.nonCelwaldFrame port f) s = goesOn s (s.cnt (Reg.CWT_PORT_DROP_OVERSIZE.at 0x100 port) 1))
       ∧ (f.length ≤ 9270 → (f.length < 18 ∨ leNat (f.drop n) ≠ fcs32 (f.take n)) → exec (.nonCelwaldFrame port f) s = goesOn s (s.cnt (Reg.CWT_PORT_DROP_FCS_ERR.at 0x100 port) 1))
       ∧ (∀ U, 18 ≤ f.length → f.length ≤ 9270 → leNat (f.drop n) = fcs32 (f.take n) →
          (frameIn s port (f.take n) = (U, .error .macsec) → exec (.nonCelwaldFrame port f) s = goesOn s (U.cnt (Reg.CWT_PORT_DROP_MACSEC_DROP.at 0x100 port) 1))
          ∧ (frameIn s port (f.take n) = (U, .error .check) → exec (.nonCelwaldFrame port f) s = goesOn s (U.cnt Reg.CWT_DROP_CHECK_CHECK 1))
          ∧ (frameIn s port (f.take n) = (U, .error .nonCelwald) → exec (.nonCelwaldFrame port f) s = goesOn s (U.cnt Reg.CWT_DROP_CHECK_NON_CELWALD 1))
          ∧ (∀ op k, frameIn s port (f.take n) = (U, .ok (op, k)) → exec (.nonCelwaldFrame port f) s = goesOn s (receiveIn U op k))))

namespace Sys2Proof.Machine
/-- A message this node takes from another: it does not stand in MIXED, or the sender is itself (R16). -/
def takesFrom (s : State) (src : Nat) : Bool := decide (s.role ≠ roleMixed) || decide (src = s.nodeId)

/-- The SHARD_STATUS of an ATTEND that this home does not serve. -/
def attendEnds (s : State) (a : AttendMsg) (st : Status) (dt home : Nat) : State :=
  s.emit (.msg a.src (.shardStatus ⟨s.nodeId, a.mergeSlot, a.mergeUse, a.layer, a.shard, st.code, dt, home⟩))

/-- The units of this home that the bolts of an ATTEND lie in. -/
def attendUnits (s : State) (m : Model) (a : AttendMsg) : List Nat :=
  (attendBolts s m a).flatMap fun b => unitsOf s b (slotBytes m.format m.hdim)

/-- The state once a shard's home is marked fetched and the shard is computed here (R132). -/
def shardFetched (s : State) (x : Ctx) (m : Model) (L : StepLayer) (sh : Shard) : State :=
  let T : State := { s with xch := { s.xch with fetched := amSet sh.home (s.now + splitHoldNs s) s.xch.fetched } }
  let L := modShard L sh.index fun q => { q with serve := if sh.home = s.nodeId then .here else .fetch }
  tryShard ((T.setLayer L).wrap Reg.SCH_SPLIT_FALLBACK_FETCHED 1) x m L sh.index

/-- The state once a shard's entries are read again at the record home (R133). -/
def shardReread (s : State) (x : Ctx) (L : StepLayer) (i : Nat) : State :=
  let p := addCommit (s.setLayer (modShard L i fun q => { q with serve := .reading })) { commitOf x (.shardRead i) 0 0 none with reread := true }
  p.1.emit (.msg x.recNode (.readWord x.record none))
end Sys2Proof.Machine

/-- For messages of a sender this node takes them from, and events. An ATTEND of an older epoch, or at a node that is quiesced, is answered REDIRECT and counted, one two or more epochs ahead is dropped and counted; a node that is neither in CACHE nor in MIXED answers REDIRECT, a slot that is not what the entry names gives SHARD_STALE, a class at its cap SERVE_OVER, and bolts that lie in lost units CP_DOUBLE; with every unit built it is computed. A backup ATTEND at the parity node has the slot-table entries of its cuts reconstructed first; one that is free or of another ring gives SHARD_STALE, then a class at its cap SERVE_OVER, and else its class is charged and the units of its bolts are reconstructed. A SHARD_STATUS that is not of the slot's use, or whose shard has arrived, is discarded and counted; STALE or REDIRECT of the shard's home has the shard's entries read again, and any other status marks the home fetched and computes the shard here; a backup's refusal loses the shard. A straggler is asked for again at its parity node for one whole credit, and counted as denied with less. When the hold ends, the fetched mark goes and a lost shard's entries are read again. Completes: attend, shardStatus, stragglerTimeout, shardHoldExpiry. -/
def Obligations.SplitServesAndFallsBack : Prop :=
  ∀ (s : State),
    (∀ a : AttendMsg, takesFrom s a.src = true → (a.backup = false ∨ s.r Reg.TIR_CP_GROUP_P_EN ≠ 1 ∨ backupIndex s a.backupFor = none) →
       let drained : Prop := s.r Reg.MGT_ROLE_DRAIN_QUIESCED = 1
       (drained ∨ epochView s a.epoch = .old → exec (.attend a) s = goesOn s ((attendEnds s a .redirect 0 s.redirectNode).cnt Reg.MGT_MAP_COUNT_REDIRECTS 1))
       ∧ (¬ drained → epochView s a.epoch = .ahead → exec (.attend a) s = goesOn s (s.cnt Reg.MGT_MAP_COUNT_AHEAD 1))
       ∧ (¬ drained → epochView s a.epoch = .current →
          (roleEnables s [roleCache, roleMixed] = false → exec (.attend a) s = goesOn s (attendEnds s a .redirect 0 s.redirectNode))
          ∧ (roleEnables s [roleCache, roleMixed] = true →
             (attendStale s a = true → exec (.attend a) s = goesOn s (attendEnds s a .stale Detail.SHARD_STALE 0))
             ∧ (attendStale s a = false →
                (classCapped s 0 = true → exec (.attend a) s = goesOn s (attendEnds s a .noCredit Detail.SERVE_OVER 0))
                ∧ (∀ m, classCapped s 0 = false → amGet a.model s.sch.models = some m →
                   ((attendUnits s m a).any (unitLost s) = true → exec (.attend a) s = goesOn s (attendEnds s a .fenced Detail.CP_DOUBLE 0))
                   ∧ ((attendUnits s m a).any (unitLost s) = false → (attendUnits s m a).any (unitUnbuilt s false) = false →
                      exec (.attend a) s = goesOn s (attendRun s a m)))))))
    ∧ (∀ (a : AttendMsg) k, takesFrom s a.src = true → a.backup = true → s.r Reg.TIR_CP_GROUP_P_EN = 1 → backupIndex s a.backupFor = some k →
       s.r Reg.MGT_ROLE_DRAIN_QUIESCED ≠ 1 → epochView s a.epoch = .current →
       (roleEnables s [roleCache] = false → exec (.attend a) s = goesOn s (attendEnds s a .redirect 0 s.redirectNode))
       ∧ (roleEnables s [roleCache] = true →
         (let us := backupEntryUnits a
          let lost : State := { s with cp := { s.cp with nextBackup := s.cp.nextBackup + 1, backups := amErase s.cp.nextBackup s.cp.backups } }
          let b : Backup := { msg := a, lost := k, need := us, got := [], tries := 0, bolts := false }
          let U : State := { s with cp := { s.cp with backups := amSet s.cp.nextBackup b s.cp.backups, nextBackup := s.cp.nextBackup + 1 } }
          (us.any (unitGone s true) = true → exec (.attend a) s = goesOn s (attendEnds lost a .fenced Detail.CP_DOUBLE 0))
          ∧ (us.any (unitGone s true) = false →
              exec (.attend a) s = goesOn s (rebuildGo (us.foldl (wantUnit · true k .demand) ((us.filter (unitUnbuilt U true)).foldl unitToFront U)))))))
    ∧ (∀ k (b : Backup), b.bolts = false →
       let a := b.msg
       let gone : State := { s with cp := { s.cp with backups := amErase k s.cp.backups } }
       ((∃ e ∈ a.cuts.zip (backupSlots a), entryHolds (gotBytes b.got e.2 16) e.1.ring = false) → backupRun s k b = attendEnds gone a .stale Detail.SHARD_STALE 0)
       ∧ ((∀ e ∈ a.cuts.zip (backupSlots a), entryHolds (gotBytes b.got e.2 16) e.1.ring = true) →
          (classCapped s 0 = true → backupRun s k b = attendEnds gone a .noCredit Detail.SERVE_OVER 0)
          ∧ (∀ m, classCapped s 0 = false → amGet a.model s.sch.models = some m → (a.nodes = 1 ∨ (depthTree a.depth).isSome = true) →
             let us := backupBoltUnits m a
             backupRun s k b = backupWant (chargeClass s 0 (us.length * unitBytes)) k { b with got := [], bolts := true } us)))
    ∧ (∀ m : ShardMsg, takesFrom s m.src = true →
       (amGet m.slot s.xch.merges = none → exec (.shardStatus m) s = goesOn s (s.cnt Reg.SCH_SPLIT_DISCARD_STALE 1))
       ∧ (∀ M, amGet m.slot s.xch.merges = some M →
          (M.use ≠ m.use ∨ M.layer ≠ m.layer → exec (.shardStatus m) s = goesOn s (s.cnt Reg.SCH_SPLIT_DISCARD_STALE 1))
          ∧ (M.use = m.use → M.layer = m.layer →
             (M.arrived.contains m.shard = true → exec (.shardStatus m) s = goesOn s (s.cnt Reg.SCH_SPLIT_DISCARD_LATE 1))
             ∧ (∀ x mo L sh, M.arrived.contains m.shard = false → shardOf s m.slot m.shard = some (x, mo, L, sh) →
                (sh.serve = .backup → m.src = Config.parityNode sh.home → exec (.shardStatus m) s = goesOn s (shardLost s x L sh))
                ∧ (sh.serve = .home → m.src = sh.home → (m.status = Status.stale.code ∨ m.status = Status.redirect.code) →
                   exec (.shardStatus m) s = goesOn s (shardReread s x L sh.index))
                ∧ (sh.serve = .home → m.src = sh.home → m.status ≠ Status.stale.code → m.status ≠ Status.redirect.code →
                   exec (.shardStatus m) s = goesOn s (shardFetched s x mo L sh))
                ∧ (sh.serve = .home → m.src ≠ sh.home → exec (.shardStatus m) s = goesOn s s)))))
    ∧ (∀ h i,
       (s.layer h = none → exec (.stragglerTimeout h i) s = goesOn s s)
       ∧ (∀ x L m sh, s.ctx h = some x → s.layer h = some L → modelOf s x = some m → (L.shards.find? fun q => q.index == i) = some sh →
          sh.serve = .home → sh.arrived = false →
          (s.now < sh.sent + max 5 (s.r Reg.SCH_SPLIT_CFG_STRAGGLER_US) * 1000 → exec (.stragglerTimeout h i) s = goesOn s s)
          ∧ (sh.sent + max 5 (s.r Reg.SCH_SPLIT_CFG_STRAGGLER_US) * 1000 ≤ s.now → L.merge.isSome = true → sh.backedUp = false → sh.denied = false →
             (L.shards.filter fun q => decide (q.serve ≠ .here)).length ≤ 2 * (L.shards.filter fun q => decide (q.serve ≠ .here)).countP (fun q => q.arrived) →
             markedFetched s (Config.parityNode sh.home) = false →
             (s.xch.credit < 10000 → exec (.stragglerTimeout h i) s = goesOn s
                ((s.setLayer (modShard L i fun q => { q with denied := true })).wrap Reg.SCH_SPLIT_BACKUP_DENIED_DENIED 1))
             ∧ (10000 ≤ s.xch.credit → exec (.stragglerTimeout h i) s = goesOn s
                (let L := modShard L i fun q => { q with backedUp := true }
                 sendBackup ((setCredit s (s.xch.credit - 10000)).setLayer L) x m L sh)))))
    ∧ (∀ home h layer i,
       (∀ t, amGet home s.xch.fetched = some t → t ≤ s.now → s.layer h = none →
          exec (.shardHoldExpiry home h layer i) s = goesOn s { s with xch := { s.xch with fetched := amErase home s.xch.fetched } })
       ∧ (amGet home s.xch.fetched = none → s.layer h = none → exec (.shardHoldExpiry home h layer i) s = goesOn s s)
       ∧ (∀ x L, amGet home s.xch.fetched = none → s.ctx h = some x → s.layer h = some L → L.layer = layer →
          (L.shards.any fun sh => sh.index == i && decide (sh.serve = .lost)) = true → (L.shards.any fun sh => sh.index == i && decide (sh.retryAt ≤ s.now)) = true →
          exec (.shardHoldExpiry home h layer i) s = goesOn s (shardReread s x L i)))

namespace Sys2Proof.Machine
/-- One borer pair measured (R494): the first measurement is its baseline, and 1 - q / q0 joins the day's mean and is shown. -/
def pairMeasured (s : State) (m : Nat × Nat × Nat) : State :=
  if m.1 < 128 then
    let q0 := match amGet m.1 s.scb.mram.baseline with | some b => (b / 2 ^ 32, b % 2 ^ 32) | none => ((m.2.1 * 2 ^ 32 + m.2.2) / 2 ^ 32, (m.2.1 * 2 ^ 32 + m.2.2) % 2 ^ 32)
    let a := m.2.1 * q0.2
    let b := m.2.2 * q0.1
    let d := if b ≤ a then 0 else (b - a) * 100000 / b
    let T : State := { s with scb := { s.scb with
      mram := { s.scb.mram with baseline := amSet m.1 ((amGet m.1 s.scb.mram.baseline).getD (m.2.1 * 2 ^ 32 + m.2.2)) s.scb.mram.baseline },
      daySum := amSet m.1 (amGetD m.1 0 s.scb.daySum + d) s.scb.daySum, dayN := amSet m.1 (amGetD m.1 0 s.scb.dayN + 1) s.scb.dayN } }
    T.setR (Reg.SCB_BORER_DEGR.at 4 m.1) (min d 65535)
  else s

/-- The state once the records of a flush are in the MRAM, marked FLUSHED, and its event is set (R491). -/
def flushedState (s : State) : State :=
  let sc := flushAll s.scb s.scb.flush
  setEvent { s with scb := { sc with flush := [], flushing := false, mram := { sc.mram with lastPfail := sc.mram.lastPfail || s.scb.pfailing } } } Reg.SCB_EVENT_FLUSH_DONE 3

/-- The sixteen readings of a thermal sample; a sensor that is not named reads 0. -/
def sixteen (temps : List Int) : List Int := (List.range 16).map fun i => temps.getD i 0

/-- The state once a thermal sample is in the registers and the blaze step follows it (R153, R563). -/
def sampled (s : State) (temps : List Int) (watts : Nat) : State :=
  let h := hottest (sixteen temps)
  let T := (sixteen temps).zipIdx.foldl (fun s e => noteSensor (s.setR (Reg.PWR_SENSOR_TEMP.at 4 e.2) (ofSigned 16 e.1)) e.2 e.1) s
  let U := ((T.setR Reg.PWR_THERM_TJ (ofSigned 16 h.1)).setR Reg.PWR_THERM_HOT_SENSOR h.2).setR Reg.PWR_DIE_POWER_WATTS watts
  stepBlaze { U with scb := { U.scb with tjSamples := U.scb.tjSamples ++ [h.1], powerSamples := U.scb.powerSamples ++ [watts] } } h.1

/-- The state once a microsecond's energy is in the array bucket (R561). -/
def refilled (s : State) : State :=
  let T := (s.xch.stands.map (·.1)).foldl countHeld s
  if T.r Reg.PWR_STATE_STATE ≤ 1 then setBucket T (min (bucketFull T) (T.mgt.bucket + budgetWatts T * 100000)) else T
end Sys2Proof.Machine

/-- For commands that nothing holds back, and events. Before the interval's boundary INTERVAL_BOUNDARY does nothing; from it on the interval's samples, extremes and counts are gone and the next one starts there. A flush that ends has its records in the MRAM, and another starts where eligible records remain and power has not failed. Borer measurements join the day's mean. Before its day has passed WEAR_DAY_END does nothing; then every element is evaluated and a new day begins. ARRAY_BUDGET_REFILL fills the bucket up to its depth and shows the mean power of each millisecond. THERMAL_SAMPLE sets the registers and the blaze step, warns when 105 degrees are first reached, and trips on a second sample in a row at 110 or above. An error detected at a unit that exists has the effect of R434 to R438, R442, R471; at none it stops. PAR_REBUILD is FENCED outside the cache role, CONFLICT while a rebuild runs, OK for an area of no units, and else starts with every unit unbuilt. Completes: intervalBoundary, scbFlushDone, borerMeasure, wearDayEnd, arrayBudgetRefill, thermalSample, detectedError, parRebuild. -/
def Obligations.ScaleBookPowerAndHealth : Prop :=
  ∀ (s : State),
    (∀ ser,
       (s.now < nextBoundary s → exec (.intervalBoundary ser) s = goesOn s s)
       ∧ (nextBoundary s ≤ s.now → ∃ T : State, exec (.intervalBoundary ser) s = goesOn s T
            ∧ T.scb.intervalStart = nextBoundary s ∧ T.scb.tjSamples = [] ∧ T.scb.powerSamples = [] ∧ T.scb.stallLens = [] ∧ T.scb.sensorExt = []
            ∧ T.mgt.transient = [] ∧ T.mgt.stackCount = [] ∧ T.r Reg.MGT_STACK_STATE_LASTING = 0))
    ∧ (s.scb.flushing = false → exec .scbFlushDone s = goesOn s s)
    ∧ (s.scb.flushing = true →
       (s.scb.pfailing = true → exec .scbFlushDone s = goesOn s (flushedState s))
       ∧ (s.scb.pfailing = false → scbSelect (flushedState s) = [] → exec .scbFlushDone s = goesOn s (flushedState s))
       ∧ (s.scb.pfailing = false → scbSelect (flushedState s) ≠ [] →
          exec .scbFlushDone s = goesOn s { flushedState s with scb := { (flushedState s).scb with flush := scbSelect (flushedState s), flushing := true } }))
    ∧ (∀ l, exec (.borerMeasure l) s = goesOn s (l.foldl pairMeasured s))
    ∧ (s.now < s.scb.dayTime + 86400000000000 → exec .wearDayEnd s = goesOn s s)
    ∧ (s.scb.dayTime + 86400000000000 ≤ s.now →
       (let T := (List.range 144).foldl wearOne s
        exec .wearDayEnd s = goesOn s { T with scb := { T.scb with daySum := [], dayN := [], dayTime := T.now } }))
    ∧ ((refilled s).now < (refilled s).mgt.spentAt + 1000000 → exec .arrayBudgetRefill s = goesOn s (refilled s))
    ∧ ((refilled s).mgt.spentAt + 1000000 ≤ (refilled s).now →
       (let T := refilled s
        let U : State := { T with mgt := { T.mgt with spent := 0, spentAt := T.now } }
        exec .arrayBudgetRefill s = goesOn s (U.setR Reg.PWR_ARRAY_STATUS_AVG_W (min 65535 (T.mgt.spent / 100000000)))))
    ∧ (∀ temps watts,
       let h := hottest (sixteen temps)
       let old := toSigned 16 (s.r Reg.PWR_THERM_TJ)
       let T := sampled s temps watts
       (h.1 < 840 → exec (.thermalSample temps watts) s = goesOn s T)
       ∧ (840 ≤ h.1 → old < 840 → exec (.thermalSample temps watts) s = goesOn s (scbNote (T.setR Reg.PWR_THERM_WARN 1) (faultRec Src.thermal Act.recorded 3 h.2 0 0)))
       ∧ (840 ≤ h.1 → h.1 < 880 → 840 ≤ old → exec (.thermalSample temps watts) s = goesOn s T)
       ∧ (880 ≤ h.1 → 840 ≤ old → old < 880 → exec (.thermalSample temps watts) s = goesOn s T)
       ∧ (880 ≤ h.1 → 880 ≤ old → exec (.thermalSample temps watts) s = goesOn s (thermalTrip T)))
    ∧ (∀ p retryOk,
       (errPointOk p = true → exec (.detectedError p retryOk) s = goesOn s (detectedError s p retryOk))
       ∧ (errPointOk p = false → exec (.detectedError p retryOk) s = .fault .noSuchUnit))
    ∧ (∀ k n retryOk, k < 8 →
       let T := s.cnt (Reg.MGT_TRANSIENT_COUNT.at 4 5) n
       exec (.detectedError (.corrected k n) retryOk) s = goesOn s { T with scb := { T.scb with daySum := amSet (136 + k) (amGetD (136 + k) 0 T.scb.daySum + n) T.scb.daySum } })
    ∧ (∀ c : Cmd,
       let T := begun s Op.PAR_REBUILD c
       hostReady s Op.PAR_REBUILD c noBad = true →
       (roleEnables T [roleCache] = false → exec (.parRebuild c) s = endsWith s Op.PAR_REBUILD c T (Done.of .fenced 0))
       ∧ (roleEnables T [roleCache] = true →
          (T.cp.rebuild.isSome = true → exec (.parRebuild c) s = endsWith s Op.PAR_REBUILD c T (Done.of .conflict 0))
          ∧ (T.cp.rebuild = none →
             (let U : State := rebRegs (({ T with cp := { T.cp with rebuild := some ⟨Op.PAR_REBUILD, c, true, []⟩, unPar := true, unTo := parSize T / unitBytes, built := [], front := [] } } : State).setR Reg.TIR_CP_REB_STATUS_DONE 0)
              (parSize T < unitBytes → exec (.parRebuild c) s = endsWith s Op.PAR_REBUILD c
                 (rebRegs (({ U with cp := { U.cp with rebuild := none } } : State).setR Reg.TIR_CP_REB_STATUS_DONE 1)) Done.ok)
              ∧ (unitBytes ≤ parSize T → exec (.parRebuild c) s = goesOn s (rebuildGo U))))))

namespace Sys2Proof.Machine
/-- A field of port p's registers, or of flexible port q's. -/
def ofPort (p : Nat) (f : Fld) : Fld := f.at 0x100 p
/-- A field of flexible port q's registers. -/
def ofFlex (q : Nat) (f : Fld) : Fld := f.at 0x20 q

/-- Word x with bit k set or cleared. -/
def withBit (x k : Nat) (on : Bool) : Nat := if on then x ||| 2 ^ k else x - (x &&& 2 ^ k)

/-- The state once sub-port k of port p stands as given (R529). -/
def subportIs (s : State) (p k : Nat) (lfault rfault up : Bool) : State :=
  let T := s.setR (ofPort p Reg.CWT_PORT_STATUS_LFAULT) (withBit (s.r (ofPort p Reg.CWT_PORT_STATUS_LFAULT)) k lfault)
  let U := T.setR (ofPort p Reg.CWT_PORT_STATUS_RFAULT) (withBit (T.r (ofPort p Reg.CWT_PORT_STATUS_RFAULT)) k rfault)
  U.setR (ofPort p Reg.CWT_PORT_STATUS_UP) (withBit (U.r (ofPort p Reg.CWT_PORT_STATUS_UP)) k up)

/-- The state once light is lost at port p (R538): every sub-port is down, and a record of severity 6 is posted. -/
def lightLost (s : State) (p : Nat) : State :=
  postFault ((s.setR (ofPort p Reg.CWT_PORT_STATUS_UP) 0).setR (ofPort p Reg.CWT_PORT_STATUS_CW_LOSS) 1) (faultRec Src.ethPort Act.portDown 6 p Status.fenced.code 0)

/-- The state once port p's module has been read: present and well or not, with its bias and temperature (R538). -/
def moduleRead (s : State) (p : Nat) (present ok : Bool) (bias temp : Nat) : State :=
  (((s.setR (ofPort p Reg.CWT_PORT_STATUS_LASER_PRES) (b2n present)).setR (ofPort p Reg.CWT_PORT_STATUS_LASER_OK) (b2n (present && ok))).setR
    (ofPort p Reg.CWT_PORT_LASER_BIAS) bias).setR (ofPort p Reg.CWT_PORT_LASER_TEMP) temp

/-- The state once a laser's bias has joined its day's mean, with the module's serial number (R539). -/
def biasKept (s : State) (p bias serial : Nat) : State :=
  { s with scb := { s.scb with
      mram := { s.scb.mram with laserSerial := amSet p serial s.scb.mram.laserSerial },
      daySum := amSet (128 + p) (amGetD (128 + p) 0 s.scb.daySum + bias) s.scb.daySum,
      dayN := amSet (128 + p) (amGetD (128 + p) 0 s.scb.dayN + 1) s.scb.dayN } }

/-- The record of a flexible port's link (R438). -/
def flexRecord (s : State) (q : Nat) : State :=
  postFault s { faultRec Src.flexPort Act.recorded 6 q Status.fenced.code Detail.FLT_LINK with count := transients s Src.flexPort q }

/-- The state once flexible port q is up again (R546). -/
def flexTrained (s : State) (q rate width hdm : Nat) : State :=
  let T := setFlex s q 1 rate width hdm
  { T with cwt := { T.cwt with flexDown := amErase q T.cwt.flexDown } }
end Sys2Proof.Machine

/-- A sub-port comes up with its faults cleared, or goes down with those found; light lost takes every sub-port of its port down with a record. A laser poll shows the module, takes the port down when a module goes, and else adds the bias to the day's mean, with the history cleared where the serial number is new. A flexible port's link that goes down is recorded, and on a cache-role node takes the areas behind a CXL Type-3 port with it; one that is down is tried once a second, and recorded where it comes back narrower. A device's request that is not supported is logged at an EXCHANGE or root port. At a unit the chip has not, each stops. Completes: subportUp, subportDown, cwLoss, laserPoll, flexLinkDown, flexRetrain, deviceUnsupportedRequest. -/
def Obligations.PortsAndLinksChange : Prop :=
  ∀ (s : State),
    (∀ p k, (p < 8 → k < subPorts s p → exec (.subportUp p k) s = goesOn s (subportIs s p k false false true))
       ∧ (8 ≤ p ∨ subPorts s p ≤ k → exec (.subportUp p k) s = .fault .noSuchUnit))
    ∧ (∀ p k lf rf, (p < 8 → k < subPorts s p → exec (.subportDown p k lf rf) s = goesOn s (subportIs s p k lf rf false))
       ∧ (8 ≤ p ∨ subPorts s p ≤ k → exec (.subportDown p k lf rf) s = .fault .noSuchUnit))
    ∧ (∀ p, (p < 8 → exec (.cwLoss p) s = goesOn s (lightLost s p)) ∧ (8 ≤ p → exec (.cwLoss p) s = .fault .noSuchUnit))
    ∧ (∀ p ok bias temp serial, p < 8 →
       (s.r (ofPort p Reg.CWT_PORT_STATUS_LASER_PRES) = 1 →
          exec (.laserPoll p false ok bias temp serial) s = goesOn s (lightLost (moduleRead s p false ok 0 0) p))
       ∧ (s.r (ofPort p Reg.CWT_PORT_STATUS_LASER_PRES) ≠ 1 → exec (.laserPoll p false ok bias temp serial) s = goesOn s (moduleRead s p false ok 0 0))
       ∧ (let T := moduleRead s p true ok bias temp
          (amGet p T.scb.mram.laserSerial = none → exec (.laserPoll p true ok bias temp serial) s = goesOn s (biasKept T p bias serial))
          ∧ (amGet p T.scb.mram.laserSerial = some serial → exec (.laserPoll p true ok bias temp serial) s = goesOn s (biasKept T p bias serial))
          ∧ (∀ n, n ≠ serial → amGet p T.scb.mram.laserSerial = some n →
             exec (.laserPoll p true ok bias temp serial) s = goesOn s (biasKept (wearClear T (128 + p)) p bias serial))))
    ∧ (∀ p present ok bias temp serial, 8 ≤ p → exec (.laserPoll p present ok bias temp serial) s = .fault .noSuchUnit)
    ∧ (∀ q, q < 8 →
       (s.r (ofFlex q Reg.HIF_FLEX_STATUS_LINK_UP) ≠ 1 → exec (.flexLinkDown q) s = goesOn s s)
       ∧ (s.r (ofFlex q Reg.HIF_FLEX_STATUS_LINK_UP) = 1 →
          (let T := setFlex s q 0 0 0 (s.r (ofFlex q Reg.HIF_FLEX_STATUS_HDM_1G))
           let U : State := { T with cwt := { T.cwt with flexDown := amSet q (T.now, s.r (ofFlex q Reg.HIF_FLEX_STATUS_WIDTH)) T.cwt.flexDown } }
           let V := flexRecord U q
           (V.r (ofFlex q Reg.HIF_FLEX_CFG_MODE) = 2 → V.role = roleCache → areaBehind V q = true → exec (.flexLinkDown q) s = goesOn s (areasLost V Src.flexPort q))
           ∧ ((V.r (ofFlex q Reg.HIF_FLEX_CFG_MODE) ≠ 2 ∨ V.role ≠ roleCache ∨ areaBehind V q = false) → exec (.flexLinkDown q) s = goesOn s V))))
    ∧ (∀ q rate width hdm, q < 8 →
       let last := amGetD q (0, 0) s.cwt.flexDown
       (s.r (ofFlex q Reg.HIF_FLEX_STATUS_LINK_UP) = 1 ∨ s.r (ofFlex q Reg.HIF_FLEX_CFG_MODE) = 0 ∨ s.now < last.1 + 1000000000 →
          exec (.flexRetrain q rate width hdm) s = goesOn s s)
       ∧ (s.r (ofFlex q Reg.HIF_FLEX_STATUS_LINK_UP) ≠ 1 → s.r (ofFlex q Reg.HIF_FLEX_CFG_MODE) ≠ 0 → last.1 + 1000000000 ≤ s.now →
          (rate = 0 → exec (.flexRetrain q rate width hdm) s = goesOn s { s with cwt := { s.cwt with flexDown := amSet q (s.now, last.2) s.cwt.flexDown } })
          ∧ (rate ≠ 0 → last.2 ≤ width → exec (.flexRetrain q rate width hdm) s = goesOn s (boltsRetryAll (rxRetry (flexTrained s q rate width hdm))))
          ∧ (rate ≠ 0 → width < last.2 → exec (.flexRetrain q rate width hdm) s = goesOn s (boltsRetryAll (rxRetry (flexRecord (flexTrained s q rate width hdm) q))))))
    ∧ (∀ q, q < 8 →
       (s.r (ofFlex q Reg.HIF_FLEX_CFG_MODE) = 1 ∨ s.r (ofFlex q Reg.HIF_FLEX_CFG_MODE) = 3 →
          exec (.deviceUnsupportedRequest q) s = goesOn s (postFault s (faultRec Src.flexPort Act.recorded 4 q Status.fenced.code 0)))
       ∧ (s.r (ofFlex q Reg.HIF_FLEX_CFG_MODE) ≠ 1 → s.r (ofFlex q Reg.HIF_FLEX_CFG_MODE) ≠ 3 → exec (.deviceUnsupportedRequest q) s = goesOn s s))
    ∧ (∀ q rate width hdm, 8 ≤ q → exec (.flexLinkDown q) s = .fault .noSuchUnit ∧ exec (.flexRetrain q rate width hdm) s = .fault .noSuchUnit
       ∧ exec (.deviceUnsupportedRequest q) s = .fault .noSuchUnit)

namespace Sys2Proof.Machine
/-- An SPDM way whose requests are answered: the host port's mailbox, or the sideband while the management core runs (R469, R526). -/
def wayOpen (s : State) (way : Nat) : Prop := way = 0 ∨ (way = 1 ∧ s.mgt.coreUp = true)

/-- The state once an answer of kind k has gone out on a way, in a session or (0) outside one; its body is the SPDM standard's. -/
def spdmSaid (s : State) (way session code : Nat) : State := (s.emit (.spdm way session code (Config.answerBody code s.free))).takeFree

/-- The SPDM stage of a way, and the state in which it has reached another. -/
def atStage (s : State) (way : Nat) (g : SpdmStage) : State := { s with kh := { s.kh with spdm := amSet way g s.kh.spdm } }

/-- What each SPDM request does once the way's algorithms are agreed (R469, R470): the answer's state. -/
def spdmDoes (s : State) (way : Nat) : Instr → State
  | .spdmGetDigests _ => spdmSaid s way 0 3
  | .spdmGetCertificate _ slot => spdmSaid s way 0 (if slot = 0 then 4 else 12)
  | .spdmChallenge _ slot => spdmSaid s way 0 (if slot = 0 then 5 else 12)
  | .spdmGetMeasurements _ i =>
    if 1 ≤ i ∧ i ≤ 13 then s.emit (.spdm way 0 6 (measurement s i))
    else if i = 0xF0 then (s.emit (.spdm way 0 6 (((List.range 13).flatMap fun k => measurement s (k + 1)) ++ Config.answerBody 6 s.free))).takeFree
    else spdmSaid s way 0 12
  | .spdmKeyExchange _ n =>
    if n = 0 ∨ amHas n s.kh.sessions = true then spdmSaid s way 0 12
    else spdmSaid { s with kh := { s.kh with sessions := amSet n ⟨false, 0⟩ s.kh.sessions } } way n 7
  | .spdmFinish _ n good => (match amGet n s.kh.sessions with
    | some x =>
      if x.finished then spdmSaid s way n 12
      else if good then spdmSaid { s with kh := { s.kh with sessions := amSet n ⟨true, x.keyGen⟩ s.kh.sessions } } way n 8
      else spdmSaid { s with kh := { s.kh with sessions := amErase n s.kh.sessions } } way n 12
    | none => spdmSaid s way n 12)
  | .spdmKeyUpdate _ n => (match amGet n s.kh.sessions with
    | some x => if x.finished then spdmSaid { s with kh := { s.kh with sessions := amSet n ⟨true, x.keyGen + 1⟩ s.kh.sessions } } way n 9 else spdmSaid s way n 12
    | none => spdmSaid s way n 12)
  | .spdmEndSession _ n => (match amGet n s.kh.sessions with
    | some x => if x.finished then spdmSaid { s with kh := { s.kh with sessions := amErase n s.kh.sessions } } way n 10 else spdmSaid s way n 12
    | none => spdmSaid s way n 12)
  | _ => s

/-- The SPDM requests that need agreed algorithms, on a way. -/
def spdmLater (way : Nat) : Instr → Bool
  | .spdmGetDigests w => w == way
  | .spdmGetCertificate w _ => w == way
  | .spdmChallenge w _ => w == way
  | .spdmGetMeasurements w _ => w == way
  | .spdmKeyExchange w _ => w == way
  | .spdmFinish w _ _ => w == way
  | .spdmKeyUpdate w _ => w == way
  | .spdmEndSession w _ => w == way
  | _ => false

/-- The four register words IDENT answers with. -/
def identBody (s : State) : List Byte := [0, 4, 0x10, 0x100].flatMap fun a => leBytes 4 (dwordRead s 0 a)
end Sys2Proof.Machine

/-- On an open way GET_VERSION starts the exchange, GET_CAPABILITIES follows it and NEGOTIATE_ALGORITHMS follows that, each answered with an error out of order; every later request is served where the algorithms are agreed and the Keyhouse is OPERATIONAL, and is an error elsewhere: certificates of slot 0 alone, measurements 1 to 13 and 0xF0, one session per number, FINISH before KEY_UPDATE and END_SESSION. IDE_KM in a finished session programs, activates and stops a stream the port has. MCTP READ answers with the words of a permitted aligned range and else with a refusal, IDENT with four registers; the sideband is silent while the management core does not run. A way or an IDE port the chip has not stops the command. Completes: spdmGetVersion, spdmGetCapabilities, spdmNegotiateAlgorithms, spdmGetDigests, spdmGetCertificate, spdmChallenge, spdmGetMeasurements, spdmKeyExchange, spdmFinish, spdmKeyUpdate, spdmEndSession, mctpControl, mctpRead, mctpIdent, ideKm. -/
def Obligations.SidebandAndSpdmAnswer : Prop :=
  ∀ (s : State),
    (∀ way, wayOpen s way →
       exec (.spdmGetVersion way) s = goesOn s (spdmSaid (atStage s way .version) way 0 0)
       ∧ (spdmStage s way = .version → exec (.spdmGetCapabilities way) s = goesOn s (spdmSaid (atStage s way .capabilities) way 0 1))
       ∧ (spdmStage s way ≠ .version → exec (.spdmGetCapabilities way) s = goesOn s (spdmSaid s way 0 12))
       ∧ (spdmStage s way = .capabilities → exec (.spdmNegotiateAlgorithms way) s = goesOn s (spdmSaid (atStage s way .ready) way 0 2))
       ∧ (spdmStage s way ≠ .capabilities → exec (.spdmNegotiateAlgorithms way) s = goesOn s (spdmSaid s way 0 12))
       ∧ (∀ i, spdmLater way i = true →
          (s.r Reg.KEY_STATUS_STATE = 1 → spdmStage s way = .ready → exec i s = goesOn s (spdmDoes s way i))
          ∧ (s.r Reg.KEY_STATUS_STATE ≠ 1 ∨ spdmStage s way ≠ .ready → exec i s = goesOn s (spdmSaid s way 0 12)))
       ∧ (∀ n port stream op, (port < 8 ∨ port = 15) →
          (amGet n s.kh.sessions = none → exec (.ideKm way n port stream op) s = goesOn s (spdmSaid s way n 12))
          ∧ (∀ x, amGet n s.kh.sessions = some x →
             ((x.finished = false ∨ s.r Reg.KEY_STATUS_STATE ≠ 1 ∨ (if port = 15 then 5 else 2) ≤ stream) →
                exec (.ideKm way n port stream op) s = goesOn s (spdmSaid s way n 12))
             ∧ (x.finished = true → s.r Reg.KEY_STATUS_STATE = 1 → stream < (if port = 15 then 5 else 2) →
                (let k := 16 * port + stream
                 let cur := (amGet k s.kh.ide).getD ⟨false, false⟩
                 let put (i : IdeStream) : State := spdmSaid { s with kh := { s.kh with ide := amSet k i s.kh.ide } } way n 11
                 (op = 0 → exec (.ideKm way n port stream op) s = goesOn s (put ⟨true, cur.secure⟩))
                 ∧ (op = 1 → cur.keyed = true → exec (.ideKm way n port stream op) s = goesOn s (put ⟨true, true⟩))
                 ∧ (op = 1 → cur.keyed = false → exec (.ideKm way n port stream op) s = goesOn s (spdmSaid s way n 12))
                 ∧ (2 ≤ op → exec (.ideKm way n port stream op) s = goesOn s (put ⟨false, false⟩)))))))
    ∧ (s.mgt.coreUp = false → ∀ i, (spdmLater 1 i = true ∨ i = .spdmGetVersion 1 ∨ i = .spdmGetCapabilities 1 ∨ i = .spdmNegotiateAlgorithms 1) → exec i s = goesOn s s)
    ∧ (s.mgt.coreUp = true →
       (∀ cmd, exec (.mctpControl cmd) s = goesOn s (s.emit (.mctp 0 true (Config.answerBody (256 + cmd) s.free))).takeFree)
       ∧ (∀ off len, 4 ≤ len → len ≤ 64 → len % 4 = 0 → off % 4 = 0 → (sidebandRanges.any fun r => decide (r.1 ≤ off) && decide (off + len ≤ r.2 + 1)) = true →
          exec (.mctpRead off len) s = goesOn s (s.emit (.mctp 1 true ((List.range (len / 4)).flatMap fun i => leBytes 4 (dwordRead s 0 (off + 4 * i))))))
       ∧ (∀ off len, (len < 4 ∨ 64 < len ∨ len % 4 ≠ 0 ∨ off % 4 ≠ 0 ∨ (sidebandRanges.any fun r => decide (r.1 ≤ off) && decide (off + len ≤ r.2 + 1)) = false) →
          exec (.mctpRead off len) s = goesOn s (s.emit (.mctp 1 false [])))
       ∧ exec .mctpIdent s = goesOn s (s.emit (.mctp 2 true (identBody s))))
    ∧ (∀ way i n port stream op, 2 ≤ way → (spdmLater way i = true ∨ i = .spdmGetVersion way ∨ i = .spdmGetCapabilities way ∨ i = .spdmNegotiateAlgorithms way
         ∨ i = .ideKm way n port stream op) → exec i s = .fault .noSuchUnit)
    ∧ (∀ way n port stream op, 8 ≤ port → port ≠ 15 → exec (.ideKm way n port stream op) s = .fault .noSuchUnit)

/-- Where nothing holds a host command back, it is performed: exec answers the next state that the block owning the command leaves for it, with the command's ending posted where the block ends it at once; else it ends later. Where the block ends it OK, or leaves it to end later, that is the command's own effect; what each block leaves is stated in the statements on its family. Completes: wqCreate, wqDestroy, cqCreate, cqDestroy, rqCreate, rqDestroy, admitCmd, ctxRead, token, pause, resume, cancel, park, unpark, migrate, recover, claim, verify, commit, rollback, fell, fellCut, move, trailInsert, lookup, trailRemove, blazePublish, blazeRetire, modelReg, modelDereg, cutPool, free, seal, expand, tableLoad, tableFree, adapterLoad, adapterRetire, progLoad, standUnfence, selftest, laneRestore, stackQuiesce, qpCreate, qpModify, qpDestroy, regionReg, regionDereg, chokerCancel, trigAdd, trigSet, shaperSet, leaseBreak, mapInstall, roleBegin, roleCommit, roleAbort, rollColumn, fwStage, fwActivate, fwConfirm, rebuild, parRebuild, resync, keyImport, keyDestroy, keyInfo, keyGetKem, keySalt, keyZeroize, keySelftest, pwrState. -/
def Obligations.HostCommandsArePerformed : Prop :=
  (∀ e ∈ hostRows, ∀ (s t : State) (c : Cmd), hostReady s e.2.1 c e.2.2.1 = true →
    (∀ d, e.2.2.2 c (begun s e.2.1 c) (cmdDesc s c) = (t, some d) → exec (e.1 c) s = endsWith s e.2.1 c t d)
    ∧ (e.2.2.2 c (begun s e.2.1 c) (cmdDesc s c) = (t, none) → exec (e.1 c) s = goesOn s t))
  ∧ (∀ (s t : State) (c : Cmd) (units : List Nat), hostReady s Op.RESYNC c noBad = true →
    (∀ d, resyncBody c units (begun s Op.RESYNC c) (cmdDesc s c) = (t, some d) → exec (.resync c units) s = endsWith s Op.RESYNC c t d)
    ∧ (resyncBody c units (begun s Op.RESYNC c) (cmdDesc s c) = (t, none) → exec (.resync c units) s = goesOn s t))

/-- A write, doorbell, packet, message or event at a unit that exists, from a sender that the node takes (R16), through a port that is not closed to it (R471), and on the sideband while the management core is up, takes its effect: exec answers the next state of the operation that has the event's name, applied to the state and the event's operands. What each operation leaves is stated in the statements on its family. Completes: powerTransitionDone, sqTailDoorbell, cqHeadDoorbell, qpSqDoorbell, rqDoorbell, resultConsume, consume, commandFetch, cqCoalesceTimer, msixUnmask, admqEnableWrite, vfFlr, vfEnableClear, d3hotChange, registerWrite, hifEvtCfgWrite, attErrorClear, cdcErrorClear, tirFellKick, obsSnap, obsSelWrite, scbFlushWrite, circClear, faultHeadWrite, swreport, pwrReset, xwEnableWrite, flexIndStart, flexIndDone, macsecSaWrite, laserEnWrite, windowWrite, xwDoorbell, rhead, releaseRecordWrite, slotFlagWrite, admissionScan, riskEvaluation, chunkRelease, taskPlace, frameSwitch, kerfPoint, attCommandDone, cdcCommandDone, moverCommandDone, workRequestStart, packetTransmit, send, write, readReq, readResp, atomic, atomicResp, reduce, reduceLsem, mcast, ack, nak, creditReq, arpRequest, neighborSolicitation, nonCelwaldFrame, qpCtxFetched, qpDrained, rtoExpiry, giveUp, ackDelayExpiry, pathHoldExpiry, rnrRetry, regionFreed, leaseTermExpiry, hotLineCool, shaperWheelSlot, observerSample, offer, pullComplete, taken, release, releaseAck, abort, handoffOfferTimeout, handoffReleaseTimeout, handoffTakenTimeout, attend, shardStatus, stragglerTimeout, shardHoldExpiry, coppice, coppiceDone, coppiceTimeout, cutFilled, placeRetry, reserve, moveOut, moveCopyDone, confirm, moveGraceExpiry, moveLeaseExpiry, freeMsg, hold, fellPick, lookupRelease, stallReport, ctxFillDone, keySlotFillDone, fallowExpiry, deltaAcked, degradeTimeout, unitLock, unitUnlock, unitLockExpiry, rebuildUnitDone, accessSweep, intervalBoundary, scbFlushDone, borerMeasure, wearDayEnd, arrayBudgetRefill, thermalSample, detectedError, stackFault, tamper, entropyHealthFail, subportUp, subportDown, spareRotate, laserPoll, cwLoss, flexLinkDown, flexRetrain, spdmGetVersion, spdmGetCapabilities, spdmNegotiateAlgorithms, spdmGetDigests, spdmGetCertificate, spdmChallenge, spdmGetMeasurements, spdmKeyExchange, spdmFinish, spdmKeyUpdate, spdmEndSession, mctpControl, mctpRead, mctpIdent, porRelease, perst, hotReset, linkDown, pfFlr, refLoss, startupStep, pfail, mgtWatchdog, fwTrialTimeout, freeAck, reserveAnswer, holdAnswer, unitLockAnswer, selftestEnd, columnDrainExpiry, mgtCoreReady, refclkStable, perstRelease, porAssert, ideKm, deviceUnsupportedRequest. -/
def Obligations.EventsTakeTheirEffect : Prop :=
  ∀ s : State,
    (exec .powerTransitionDone s = goesOn s (transitionDone s))
    ∧ (∀ (fn : Nat) (q : Nat) (v : Nat), fn < 64 → ideOpen s = true → exec (.sqTailDoorbell fn q v) s = goesOn s (sqTailDoorbell s fn q v))
    ∧ (∀ (fn : Nat) (q : Nat) (v : Nat), fn < 64 → ideOpen s = true → exec (.cqHeadDoorbell fn q v) s = goesOn s (cqHeadDoorbell s fn q v))
    ∧ (∀ (fn : Nat) (v : Nat), fn < 64 → ideOpen s = true → exec (.qpSqDoorbell fn v) s = goesOn s (qpDoorbell s fn v))
    ∧ (∀ (fn : Nat) (v : Nat), fn < 64 → ideOpen s = true → exec (.rqDoorbell fn v) s = goesOn s (rqDoorbell s fn v))
    ∧ (∀ (fn : Nat) (v : Nat), fn < 64 → ideOpen s = true → exec (.resultConsume fn v) s = goesOn s (resultConsume s fn v))
    ∧ (∀ (fn : Nat) (v : Nat), fn < 64 → ideOpen s = true → exec (.consume fn v) s = goesOn s (consume s fn v))
    ∧ (exec .commandFetch s = goesOn s (commandFetch s))
    ∧ (∀ (fn : Nat) (q : Nat), fn < 64 → exec (.cqCoalesceTimer fn q) s = goesOn s (cqCoalesce s fn q))
    ∧ (∀ (fn : Nat) (vec : Nat), fn < 64 → vec < 32 → exec (.msixUnmask fn vec) s = goesOn s (msixUnmask s fn vec))
    ∧ (∀ (fn : Nat) (v : Nat), fn < 64 → exec (.admqEnableWrite fn v) s = goesOn s (admqWrite s fn v))
    ∧ (∀ (fn : Nat), 1 ≤ fn → fn < 64 → exec (.vfFlr fn) s = goesOn s (vfFlr s fn))
    ∧ (exec .vfEnableClear s = goesOn s ((List.range 63).foldl (fun s i => cleanFn s (i + 1)) s))
    ∧ (∀ (fn : Nat) (enter : Bool), fn < 64 → exec (.d3hotChange fn enter) s = goesOn s (d3hotChange s fn enter))
    ∧ (∀ (fn : Nat) (off : Nat) (size : Nat) (v : Nat), fn < 64 → exec (.registerWrite fn off size v) s = goesOn s (registerWrite s fn off size v))
    ∧ (∀ (v : Nat), exec (.hifEvtCfgWrite v) s = goesOn s (hifEvtCfgWrite s v))
    ∧ (∀ (stand : Nat) (v : Nat), stand < 64 → exec (.attErrorClear stand v) s = goesOn s (attErrorClear s stand v))
    ∧ (∀ (stand : Nat) (v : Nat), stand < 64 → exec (.cdcErrorClear stand v) s = goesOn s (cdcErrorClear s stand v))
    ∧ (∀ (v : Nat), exec (.tirFellKick v) s = goesOn s (if bits v 0 20 = 0 then s else startPass s (bits v 0 20 * 2 ^ 20)))
    ∧ (∀ (v : Nat), exec (.obsSnap v) s = goesOn s (if bit v 0 then obsSnapshot s else s))
    ∧ (∀ (o : Nat) (v : Nat), o < 256 → exec (.obsSelWrite o v) s = goesOn s (obsSelWrite s o v))
    ∧ (∀ (v : Nat), exec (.scbFlushWrite v) s = goesOn s (if bit v 0 then scbStartFlush s else s))
    ∧ (∀ (v : Nat), exec (.circClear v) s = goesOn s (if bit v 1 then { s with scb := { s.scb with mram := { s.scb.mram with circArea := [] } } } else s))
    ∧ (∀ (v : Nat), exec (.faultHeadWrite v) s = goesOn s (faultHeadWrite s v))
    ∧ (∀ (v : Nat), exec (.swreport v) s = goesOn s (swreport s v))
    ∧ (∀ (v : Nat), exec (.pwrReset v) s = goesOn s (if v % 256 = 0xA5 then softReset s 6 else s))
    ∧ (∀ (w : Nat) (v : Nat), w < 64 → exec (.xwEnableWrite w v) s = goesOn s (xwEnableWrite s w v))
    ∧ (∀ (q : Nat) (v : Nat), q < 8 → exec (.flexIndStart q v) s = goesOn s (flexIndStart s q v))
    ∧ (∀ (q : Nat) (result : Nat) (data : Nat), q < 8 → exec (.flexIndDone q result data) s = goesOn s (flexIndDone s q result data))
    ∧ (∀ (p : Nat) (n : Nat) (k : Nat) (v : Nat), p < 8 → n < 2 → k < 8 → exec (.macsecSaWrite p n k v) s = goesOn s (macsecSaWrite s p n k v))
    ∧ (∀ (p : Nat) (v : Nat), p < 8 → exec (.laserEnWrite p v) s = goesOn s (portCfgWrite s p v))
    ∧ (∀ (w : Nat) (off : Nat) (path : Nat) (bytes : List Byte), w < 64 → exec (.windowWrite w off path bytes) s = goesOn s (windowWrite s w off path bytes))
    ∧ (∀ (w : Nat) (path : Nat) (v : Nat), w < 64 → exec (.xwDoorbell w path v) s = goesOn s (xwDoorbell s w path v))
    ∧ (∀ (w : Nat) (path : Nat) (v : Nat), w < 64 → exec (.rhead w path v) s = goesOn s (xwRhead s w path v))
    ∧ (∀ (w : Nat), w < 64 → exec (.releaseRecordWrite w) s = goesOn s (releaseRecordWrite s w))
    ∧ (∀ (w : Nat) (slot : Nat), w < 64 → exec (.slotFlagWrite w slot) s = goesOn s (slotFlagWrite s w slot))
    ∧ (exec .admissionScan s = goesOn s (admissionScan s))
    ∧ (exec .riskEvaluation s = goesOn s (riskEvaluation s))
    ∧ (∀ (handle : Nat), exec (.chunkRelease handle) s = goesOn s (chunkRelease s handle))
    ∧ (exec .taskPlace s = goesOn s (taskPlace s))
    ∧ (∀ (st : Nat), st < 64 → exec (.frameSwitch st) s = goesOn s (frameSwitch s st))
    ∧ (∀ (st : Nat), st < 64 → exec (.kerfPoint st) s = goesOn s (kerfPoint s st))
    ∧ (∀ (st : Nat) (frame : Nat), st < 64 → exec (.attCommandDone st frame) s = goesOn s (attDone s st frame))
    ∧ (∀ (st : Nat) (frame : Nat), st < 64 → exec (.cdcCommandDone st frame) s = goesOn s (cdcDone s st frame))
    ∧ (∀ (st : Nat) (frame : Nat), st < 64 → exec (.moverCommandDone st frame) s = goesOn s (moverDone s st frame))
    ∧ (∀ (index : Nat), exec (.workRequestStart index) s = goesOn s (workRequestStart s index))
    ∧ (∀ (port : Nat), port < 8 → exec (.packetTransmit port) s = goesOn s (packetTransmit s port))
    ∧ (∀ (p : Packet), p.port < 8 → exec (.send p) s = goesOn s (receive s Cw.send p))
    ∧ (∀ (p : Packet), p.port < 8 → exec (.write p) s = goesOn s (receive s Cw.write p))
    ∧ (∀ (p : Packet), p.port < 8 → exec (.readReq p) s = goesOn s (receive s Cw.readReq p))
    ∧ (∀ (r : OwnResp) (p : Packet), (s.role ≠ 4 ∨ p.srcNode = s.nodeId) → exec (.readResp (some r) p) s = goesOn s (ownRead s r))
    ∧ (∀ p : Packet, p.port < 8 → exec (.readResp none p) s = goesOn s (receive s Cw.readResp p))
    ∧ (∀ (p : Packet), p.port < 8 → exec (.atomic p) s = goesOn s (receive s Cw.atomic p))
    ∧ (∀ (r : AtomicResp) (p : Packet), (s.role ≠ 4 ∨ p.srcNode = s.nodeId) → exec (.atomicResp (some r) p) s = goesOn s (ownCommit s r))
    ∧ (∀ p : Packet, p.port < 8 → exec (.atomicResp none p) s = goesOn s (receive s Cw.atomicResp p))
    ∧ (∀ (p : Packet), p.port < 8 → exec (.reduce p) s = goesOn s (receive s Cw.reduce p))
    ∧ (∀ (p : Packet), p.port < 8 → exec (.reduceLsem p) s = goesOn s (receive s Cw.reduce p))
    ∧ (∀ (p : Packet), p.port < 8 → exec (.mcast p) s = goesOn s (receive s Cw.mcast p))
    ∧ (∀ (p : Packet), p.port < 8 → exec (.ack p) s = goesOn s (receive s Cw.ack p))
    ∧ (∀ (p : Packet), p.port < 8 → exec (.nak p) s = goesOn s (receive s Cw.nak p))
    ∧ (∀ (p : Packet), p.port < 8 → exec (.creditReq p) s = goesOn s (receive s Cw.creditReq p))
    ∧ (∀ (port : Nat) (sub : Nat) (mac : List Byte) (ip : List Byte) (target : List Byte), port < 8 → sub < 8 → exec (.arpRequest port sub mac ip target) s = goesOn s (arpRequest s port sub mac ip target))
    ∧ (∀ (port : Nat) (sub : Nat) (mac : List Byte) (src : List Byte) (target : List Byte), port < 8 → sub < 8 → exec (.neighborSolicitation port sub mac src target) s = goesOn s (neighborSolicitation s port sub mac src target))
    ∧ (∀ (port : Nat) (frame : List Byte), port < 8 → exec (.nonCelwaldFrame port frame) s = goesOn s (frameArrives s port frame))
    ∧ (∀ (index : Nat) (crcOk : Bool) (retryOk : Bool), exec (.qpCtxFetched index crcOk retryOk) s = goesOn s (qpCtxFetched s index crcOk retryOk))
    ∧ (∀ (index : Nat), exec (.qpDrained index) s = goesOn s (qpDrained s index))
    ∧ (∀ (index : Nat) (psn : Nat), exec (.rtoExpiry index psn) s = goesOn s (rtoExpiry s index psn))
    ∧ (∀ (index : Nat), exec (.giveUp index) s = goesOn s (giveUp s index))
    ∧ (∀ (index : Nat), exec (.ackDelayExpiry index) s = goesOn s (ackDelayExpiry s index))
    ∧ (∀ (node : Nat) (path : Nat), exec (.pathHoldExpiry node path) s = goesOn s (pathHoldExpiry s node path))
    ∧ (∀ (index : Nat) (psn : Nat), exec (.rnrRetry index psn) s = goesOn s (rnrRetry s index psn))
    ∧ (∀ (index : Nat), exec (.regionFreed index) s = goesOn s (regionFreed s index))
    ∧ (∀ (index : Nat), exec (.leaseTermExpiry index) s = goesOn s (leaseTermExpiry s index))
    ∧ (∀ (line : Nat), exec (.hotLineCool line) s = goesOn s (hotLineCool s line))
    ∧ (exec .shaperWheelSlot s = goesOn s (shaperWheelSlot s))
    ∧ (exec .observerSample s = goesOn s (observerSample s))
    ∧ (∀ (m : OfferMsg), (s.role ≠ 4 ∨ m.sender = s.nodeId) → exec (.offer m) s = goesOn s (offerArrives s m))
    ∧ (∀ (handle : Nat) (ok : Bool) (view : Pulled), exec (.pullComplete handle ok view) s = goesOn s (pullComplete s handle ok view.record view.bolts))
    ∧ (∀ (m : HandMsg), (s.role ≠ 4 ∨ m.src = s.nodeId) → exec (.taken m) s = goesOn s (takenArrives s m))
    ∧ (∀ (m : HandMsg) (word : Nat), (s.role ≠ 4 ∨ m.src = s.nodeId) → exec (.release m word) s = goesOn s (releaseArrives s m word))
    ∧ (∀ (m : HandMsg), (s.role ≠ 4 ∨ m.src = s.nodeId) → exec (.releaseAck m) s = goesOn s (releaseAckArrives s m))
    ∧ (∀ (m : HandMsg), (s.role ≠ 4 ∨ m.src = s.nodeId) → exec (.abort m) s = goesOn s (abortArrives s m))
    ∧ (∀ (handle : Nat), exec (.handoffOfferTimeout handle) s = goesOn s (offerTimeout s handle))
    ∧ (∀ (handle : Nat), exec (.handoffReleaseTimeout handle) s = goesOn s (releaseTimeout s handle))
    ∧ (∀ (handle : Nat) (word : Nat), exec (.handoffTakenTimeout handle word) s = goesOn s (takenTimeout s handle word))
    ∧ (∀ (m : AttendMsg), (s.role ≠ 4 ∨ m.src = s.nodeId) → exec (.attend m) s = goesOn s (match (if m.backup && s.r Reg.TIR_CP_GROUP_P_EN == 1 then backupIndex s m.backupFor else none) with | some k => backupArrives s m k | none => attendHome s m))
    ∧ (∀ (m : ShardMsg), (s.role ≠ 4 ∨ m.src = s.nodeId) → exec (.shardStatus m) s = goesOn s (shardStatus s m))
    ∧ (∀ (handle : Nat) (shard : Nat), exec (.stragglerTimeout handle shard) s = goesOn s (stragglerTimeout s handle shard))
    ∧ (∀ (home : Nat) (handle : Nat) (layer : Nat) (shard : Nat), exec (.shardHoldExpiry home handle layer shard) s = goesOn s (shardHoldExpiry s home handle layer shard))
    ∧ (∀ (m : CoppiceMsg), (s.role ≠ 4 ∨ m.src = s.nodeId) → exec (.coppice m) s = goesOn s (coppiceArrives s m))
    ∧ (∀ (handle : Nat) (full : List Nat) (status : Nat) (node : Nat) (entries : Rebuilt), exec (.coppiceDone handle full status node entries) s = goesOn s (insertMoved (coppiceDone s handle full status node entries.cuts entries.tail) handle))
    ∧ (∀ (handle : Nat), exec (.coppiceTimeout handle) s = goesOn s (coppiceTimeout s handle))
    ∧ (∀ (handle : Nat), exec (.cutFilled handle) s = goesOn s (cutFilled s handle))
    ∧ (∀ (handle : Nat) (cut : Nat), exec (.placeRetry handle cut) s = goesOn s (placeRetry s handle cut))
    ∧ (∀ (m : ReserveMsg), (s.role ≠ 4 ∨ m.src = s.nodeId) → exec (.reserve m) s = goesOn s (homeRun s (.reserve m)))
    ∧ (∀ (src : Nat) (n : SlotName) (rec : RecLoc) (cut : Nat) (claimGen : Nat), (s.role ≠ 4 ∨ src = s.nodeId) → exec (.moveOut ⟨src, n⟩ rec cut claimGen) s = goesOn s (homeRun s (.moveOut src n rec cut claimGen)))
    ∧ (∀ (handle : Nat) (cut : CutCopy) (crcOk : Bool) (retryOk : Bool), exec (.moveCopyDone handle cut crcOk retryOk) s = goesOn s (moveCopyDone s handle cut.cut crcOk retryOk cut.slot cut.bolts))
    ∧ (∀ (src : Nat) (n : SlotName), (s.role ≠ 4 ∨ src = s.nodeId) → exec (.confirm ⟨src, n⟩) s = goesOn s (homeRun s (.confirm src n)))
    ∧ (∀ (handle : Nat) (cut : Nat), exec (.moveGraceExpiry handle cut) s = goesOn s (moveGraceExpiry s handle cut))
    ∧ (∀ (n : SlotName) (entry : CutEntry), exec (.moveLeaseExpiry n entry) s = goesOn s (if n.pool = localPool then localLeaseExpiry s n.slot entry else moveLeaseExpiry s n entry))
    ∧ (∀ (src : Nat) (handle : Nat) (cut : Nat) (n : SlotName), (s.role ≠ 4 ∨ src = s.nodeId) → exec (.freeMsg src handle cut n) s = goesOn s (homeRun s (.free src handle cut n)))
    ∧ (∀ (src : Nat) (id : Nat) (n : SlotName), (s.role ≠ 4 ∨ src = s.nodeId) → exec (.hold src id n) s = goesOn s (homeRun s (.hold src id n)))
    ∧ (exec .fellPick s = goesOn s (fellPick s))
    ∧ (∀ (id : Nat) (late : Bool), exec (.lookupRelease id late) s = goesOn s (lookupRelease s id late))
    ∧ (∀ (handle : Nat) (cause : Nat), exec (.stallReport handle cause) s = goesOn s (stallReport s handle cause))
    ∧ (∀ (index : Nat) (crcOk : Bool) (retryOk : Bool), exec (.ctxFillDone index crcOk retryOk) s = goesOn s (ctxFillDone s index crcOk retryOk))
    ∧ (∀ (index : Nat), exec (.keySlotFillDone index) s = goesOn s (keyFillDone s index))
    ∧ (∀ (index : Nat), exec (.fallowExpiry index) s = goesOn s (fallowExpiry s index))
    ∧ (∀ (id : Nat), exec (.deltaAcked id) s = goesOn s (deltaAcked s id))
    ∧ (∀ (qpError : Bool), exec (.degradeTimeout qpError) s = goesOn s (degrade s qpError))
    ∧ (∀ (node : Nat) (unit : Nat), (s.role ≠ 4 ∨ node = s.nodeId) → exec (.unitLock node unit) s = goesOn s (unitLockArrives s node unit))
    ∧ (∀ (node : Nat) (unit : Nat) (gen : Nat) (resynced : Bool), (s.role ≠ 4 ∨ node = s.nodeId) → exec (.unitUnlock node unit gen resynced) s = goesOn s (unitUnlockArrives s node unit gen resynced))
    ∧ (∀ (gen : Nat), exec (.unitLockExpiry gen) s = goesOn s (unitLockExpiry s gen))
    ∧ (∀ (unit : Nat), exec (.rebuildUnitDone unit) s = goesOn s (unitDone s unit))
    ∧ (exec .accessSweep s = goesOn s (accessSweep s))
    ∧ (∀ (ser : List (Nat × Nat × Nat)), exec (.intervalBoundary ser) s = goesOn s (intervalBoundary s ser))
    ∧ (exec .scbFlushDone s = goesOn s (scbFlushDone s))
    ∧ (∀ (counts : List (Nat × Nat × Nat)), exec (.borerMeasure counts) s = goesOn s (counts.foldl borerOne s))
    ∧ (exec .wearDayEnd s = goesOn s (wearDayEnd s))
    ∧ (exec .arrayBudgetRefill s = goesOn s (budgetRefill s))
    ∧ (∀ (temps : List Int) (watts : Nat), exec (.thermalSample temps watts) s = goesOn s (thermalSample s temps watts))
    ∧ (∀ (p : ErrPoint) (retryOk : Bool), errPointOk p = true → exec (.detectedError p retryOk) s = goesOn s (detectedError s p retryOk))
    ∧ (∀ (k : Nat), k < 8 → exec (.stackFault k) s = goesOn s (quiesceStack s k))
    ∧ (exec .tamper s = goesOn s (tamper s))
    ∧ (∀ (apt : Bool), exec (.entropyHealthFail apt) s = goesOn s (entropyFail s apt))
    ∧ (∀ (port : Nat) (sub : Nat), port < 8 → sub < subPorts s port → exec (.subportUp port sub) s = goesOn s (subportUp s port sub))
    ∧ (∀ (port : Nat) (sub : Nat) (lfault : Bool) (rfault : Bool), port < 8 → sub < subPorts s port → exec (.subportDown port sub lfault rfault) s = goesOn s (subportDown s port sub lfault rfault))
    ∧ (∀ (port : Nat) (compareOk : Bool) (calOk : Bool), port < 8 → exec (.spareRotate port compareOk calOk) s = goesOn s (spareRotate s port compareOk calOk))
    ∧ (∀ (port : Nat) (present : Bool) (ok : Bool) (bias : Nat) (temp : Nat) (serial : Nat), port < 8 → exec (.laserPoll port present ok bias temp serial) s = goesOn s (laserPoll s port present ok bias temp serial))
    ∧ (∀ (port : Nat), port < 8 → exec (.cwLoss port) s = goesOn s (cwLoss s port))
    ∧ (∀ (q : Nat), q < 8 → exec (.flexLinkDown q) s = goesOn s (flexLinkDown s q))
    ∧ (∀ (q : Nat) (rate : Nat) (width : Nat) (hdm : Nat), q < 8 → exec (.flexRetrain q rate width hdm) s = goesOn s (flexRetrain s q rate width hdm))
    ∧ (∀ (way : Nat), way < 2 → (way = 0 ∨ s.mgt.coreUp = true) → exec (.spdmGetVersion way) s = goesOn s (spdmGetVersion s way))
    ∧ (∀ (way : Nat), way < 2 → (way = 0 ∨ s.mgt.coreUp = true) → exec (.spdmGetCapabilities way) s = goesOn s (spdmGetCapabilities s way))
    ∧ (∀ (way : Nat), way < 2 → (way = 0 ∨ s.mgt.coreUp = true) → exec (.spdmNegotiateAlgorithms way) s = goesOn s (spdmNegotiate s way))
    ∧ (∀ (way : Nat), way < 2 → (way = 0 ∨ s.mgt.coreUp = true) → exec (.spdmGetDigests way) s = goesOn s (spdmReady s way (spdmAnswer s way 0 .digests)))
    ∧ (∀ (way : Nat) (slot : Nat), way < 2 → (way = 0 ∨ s.mgt.coreUp = true) → exec (.spdmGetCertificate way slot) s = goesOn s (spdmReady s way (spdmAnswer s way 0 (if slot = 0 then .certificate else .error))))
    ∧ (∀ (way : Nat) (slot : Nat), way < 2 → (way = 0 ∨ s.mgt.coreUp = true) → exec (.spdmChallenge way slot) s = goesOn s (spdmReady s way (spdmAnswer s way 0 (if slot = 0 then .challenge else .error))))
    ∧ (∀ (way : Nat) (index : Nat), way < 2 → (way = 0 ∨ s.mgt.coreUp = true) → exec (.spdmGetMeasurements way index) s = goesOn s (spdmReady s way (spdmMeasurements s way index)))
    ∧ (∀ (way : Nat) (session : Nat), way < 2 → (way = 0 ∨ s.mgt.coreUp = true) → exec (.spdmKeyExchange way session) s = goesOn s (spdmReady s way (spdmKeyExchange s way session)))
    ∧ (∀ (way : Nat) (session : Nat) (good : Bool), way < 2 → (way = 0 ∨ s.mgt.coreUp = true) → exec (.spdmFinish way session good) s = goesOn s (spdmReady s way (spdmFinish s way session good)))
    ∧ (∀ (way : Nat) (session : Nat), way < 2 → (way = 0 ∨ s.mgt.coreUp = true) → exec (.spdmKeyUpdate way session) s = goesOn s (spdmReady s way (withSession s way session true .keyUpdate fun x => some { x with keyGen := x.keyGen + 1 })))
    ∧ (∀ (way : Nat) (session : Nat), way < 2 → (way = 0 ∨ s.mgt.coreUp = true) → exec (.spdmEndSession way session) s = goesOn s (spdmReady s way (withSession s way session true .endSession fun _ => none)))
    ∧ (∀ (command : Nat), exec (.mctpControl command) s = goesOn s (mctpControl s command))
    ∧ (∀ (off : Nat) (len : Nat), exec (.mctpRead off len) s = goesOn s (mctpRead s off len))
    ∧ (exec .mctpIdent s = goesOn s (mctpIdent s))
    ∧ (exec .porRelease s = goesOn s (porRelease s))
    ∧ (exec .perst s = goesOn s (perst s))
    ∧ (exec .hotReset s = goesOn s (softReset s 3))
    ∧ (exec .linkDown s = goesOn s (linkDown s))
    ∧ (exec .pfFlr s = goesOn s (softReset s 5))
    ∧ (exec .refLoss s = goesOn s (refLoss s))
    ∧ (∀ (n : Nat) (good : Nat) (vals : List (Nat × Nat)), 1 ≤ n → n ≤ 11 → exec (.startupStep n good vals) s = goesOn s (startupStep s n good vals))
    ∧ (exec .pfail s = goesOn s (pfail s))
    ∧ (exec .mgtWatchdog s = goesOn s (coreWatchdog s))
    ∧ (exec .fwTrialTimeout s = goesOn s (trialTimeout s))
    ∧ (∀ (handle : Nat) (cut : Nat) (status : Nat) (detail : Nat), exec (.freeAck handle cut status detail) s = goesOn s (freeAck s handle cut))
    ∧ (∀ (handle : Nat) (cut : Nat) (status : Nat) (detail : Nat) (n : SlotName), exec (.reserveAnswer handle cut status detail n) s = goesOn s (reserveAnswer s handle cut status detail n))
    ∧ (∀ (id : Nat) (status : Nat) (detail : Nat), exec (.holdAnswer id status detail) s = goesOn s (holdAnswer s id status detail))
    ∧ (∀ (node : Nat) (unit : Nat) (ans : UnitAns), (ans = .lost ∨ s.role ≠ 4 ∨ node = s.nodeId) → exec (.unitLockAnswer node unit ans) s = goesOn s (unitAnswer s node unit ans))
    ∧ (∀ (lane : Bool) (pass : Nat), exec (.selftestEnd lane pass) s = goesOn s (if lane then laneTested s (bit pass 0) else columnTested s pass))
    ∧ (exec .columnDrainExpiry s = goesOn s (drainExpiry s))
    ∧ (exec .mgtCoreReady s = goesOn s (coreReady s))
    ∧ (exec .refclkStable s = goesOn s ({ s with mgt := { s.mgt with boot := { s.mgt.boot with refOk := true } } }))
    ∧ (exec .perstRelease s = goesOn s (perstRelease s))
    ∧ (exec .porAssert s = goesOn s (porAssert s))
    ∧ (∀ (way : Nat) (session : Nat) (port : Nat) (stream : Nat) (op : Nat), way < 2 → (port < 8 ∨ port = 15) → (way = 0 ∨ s.mgt.coreUp = true) → exec (.ideKm way session port stream op) s = goesOn s (ideKm s way session port stream op))
    ∧ (∀ (q : Nat), q < 8 → exec (.deviceUnsupportedRequest q) s = goesOn s (deviceUr s q))
end

