-- ==== Sys2Proof/Laws/State.lean ====
section
/-! SUPPORT. One lemma per field of State for each of its updates: the field written takes its value, the others keep theirs. -/

namespace Sys2Proof.Machine

/-! ### State.setR -/

@[simp] theorem State.setR_pending (s : State) (f : Fld) (v : Nat) : (s.setR f v).pending = s.pending := rfl
@[simp] theorem State.setR_now (s : State) (f : Fld) (v : Nat) : (s.setR f v).now = s.now := rfl
@[simp] theorem State.setR_free (s : State) (f : Fld) (v : Nat) : (s.setR f v).free = s.free := rfl
@[simp] theorem State.setR_sent (s : State) (f : Fld) (v : Nat) : (s.setR f v).sent = s.sent := rfl
@[simp] theorem State.setR_regs (s : State) (f : Fld) (v : Nat) : (s.setR f v).regs = regSet s.regs f v := rfl
@[simp] theorem State.setR_mem (s : State) (f : Fld) (v : Nat) : (s.setR f v).mem = s.mem := rfl
@[simp] theorem State.setR_hif (s : State) (f : Fld) (v : Nat) : (s.setR f v).hif = s.hif := rfl
@[simp] theorem State.setR_mgt (s : State) (f : Fld) (v : Nat) : (s.setR f v).mgt = s.mgt := rfl
@[simp] theorem State.setR_scb (s : State) (f : Fld) (v : Nat) : (s.setR f v).scb = s.scb := rfl
@[simp] theorem State.setR_sch (s : State) (f : Fld) (v : Nat) : (s.setR f v).sch = s.sch := rfl
@[simp] theorem State.setR_tir (s : State) (f : Fld) (v : Nat) : (s.setR f v).tir = s.tir := rfl
@[simp] theorem State.setR_cdc (s : State) (f : Fld) (v : Nat) : (s.setR f v).cdc = s.cdc := rfl
@[simp] theorem State.setR_trl (s : State) (f : Fld) (v : Nat) : (s.setR f v).trl = s.trl := rfl
@[simp] theorem State.setR_xch (s : State) (f : Fld) (v : Nat) : (s.setR f v).xch = s.xch := rfl
@[simp] theorem State.setR_rm (s : State) (f : Fld) (v : Nat) : (s.setR f v).rm = s.rm := rfl
@[simp] theorem State.setR_cwt (s : State) (f : Fld) (v : Nat) : (s.setR f v).cwt = s.cwt := rfl
@[simp] theorem State.setR_cp (s : State) (f : Fld) (v : Nat) : (s.setR f v).cp = s.cp := rfl
@[simp] theorem State.setR_kh (s : State) (f : Fld) (v : Nat) : (s.setR f v).kh = s.kh := rfl

/-! ### State.cnt -/

@[simp] theorem State.cnt_pending (s : State) (f : Fld) (n : Nat) : (s.cnt f n).pending = s.pending := rfl
@[simp] theorem State.cnt_now (s : State) (f : Fld) (n : Nat) : (s.cnt f n).now = s.now := rfl
@[simp] theorem State.cnt_free (s : State) (f : Fld) (n : Nat) : (s.cnt f n).free = s.free := rfl
@[simp] theorem State.cnt_sent (s : State) (f : Fld) (n : Nat) : (s.cnt f n).sent = s.sent := rfl
@[simp] theorem State.cnt_regs (s : State) (f : Fld) (n : Nat) : (s.cnt f n).regs = regCount s.regs f n := rfl
@[simp] theorem State.cnt_mem (s : State) (f : Fld) (n : Nat) : (s.cnt f n).mem = s.mem := rfl
@[simp] theorem State.cnt_hif (s : State) (f : Fld) (n : Nat) : (s.cnt f n).hif = s.hif := rfl
@[simp] theorem State.cnt_mgt (s : State) (f : Fld) (n : Nat) : (s.cnt f n).mgt = s.mgt := rfl
@[simp] theorem State.cnt_scb (s : State) (f : Fld) (n : Nat) : (s.cnt f n).scb = s.scb := rfl
@[simp] theorem State.cnt_sch (s : State) (f : Fld) (n : Nat) : (s.cnt f n).sch = s.sch := rfl
@[simp] theorem State.cnt_tir (s : State) (f : Fld) (n : Nat) : (s.cnt f n).tir = s.tir := rfl
@[simp] theorem State.cnt_cdc (s : State) (f : Fld) (n : Nat) : (s.cnt f n).cdc = s.cdc := rfl
@[simp] theorem State.cnt_trl (s : State) (f : Fld) (n : Nat) : (s.cnt f n).trl = s.trl := rfl
@[simp] theorem State.cnt_xch (s : State) (f : Fld) (n : Nat) : (s.cnt f n).xch = s.xch := rfl
@[simp] theorem State.cnt_rm (s : State) (f : Fld) (n : Nat) : (s.cnt f n).rm = s.rm := rfl
@[simp] theorem State.cnt_cwt (s : State) (f : Fld) (n : Nat) : (s.cnt f n).cwt = s.cwt := rfl
@[simp] theorem State.cnt_cp (s : State) (f : Fld) (n : Nat) : (s.cnt f n).cp = s.cp := rfl
@[simp] theorem State.cnt_kh (s : State) (f : Fld) (n : Nat) : (s.cnt f n).kh = s.kh := rfl

/-! ### State.wrap -/

@[simp] theorem State.wrap_pending (s : State) (f : Fld) (n : Nat) : (s.wrap f n).pending = s.pending := rfl
@[simp] theorem State.wrap_now (s : State) (f : Fld) (n : Nat) : (s.wrap f n).now = s.now := rfl
@[simp] theorem State.wrap_free (s : State) (f : Fld) (n : Nat) : (s.wrap f n).free = s.free := rfl
@[simp] theorem State.wrap_sent (s : State) (f : Fld) (n : Nat) : (s.wrap f n).sent = s.sent := rfl
@[simp] theorem State.wrap_regs (s : State) (f : Fld) (n : Nat) : (s.wrap f n).regs = regWrap s.regs f n := rfl
@[simp] theorem State.wrap_mem (s : State) (f : Fld) (n : Nat) : (s.wrap f n).mem = s.mem := rfl
@[simp] theorem State.wrap_hif (s : State) (f : Fld) (n : Nat) : (s.wrap f n).hif = s.hif := rfl
@[simp] theorem State.wrap_mgt (s : State) (f : Fld) (n : Nat) : (s.wrap f n).mgt = s.mgt := rfl
@[simp] theorem State.wrap_scb (s : State) (f : Fld) (n : Nat) : (s.wrap f n).scb = s.scb := rfl
@[simp] theorem State.wrap_sch (s : State) (f : Fld) (n : Nat) : (s.wrap f n).sch = s.sch := rfl
@[simp] theorem State.wrap_tir (s : State) (f : Fld) (n : Nat) : (s.wrap f n).tir = s.tir := rfl
@[simp] theorem State.wrap_cdc (s : State) (f : Fld) (n : Nat) : (s.wrap f n).cdc = s.cdc := rfl
@[simp] theorem State.wrap_trl (s : State) (f : Fld) (n : Nat) : (s.wrap f n).trl = s.trl := rfl
@[simp] theorem State.wrap_xch (s : State) (f : Fld) (n : Nat) : (s.wrap f n).xch = s.xch := rfl
@[simp] theorem State.wrap_rm (s : State) (f : Fld) (n : Nat) : (s.wrap f n).rm = s.rm := rfl
@[simp] theorem State.wrap_cwt (s : State) (f : Fld) (n : Nat) : (s.wrap f n).cwt = s.cwt := rfl
@[simp] theorem State.wrap_cp (s : State) (f : Fld) (n : Nat) : (s.wrap f n).cp = s.cp := rfl
@[simp] theorem State.wrap_kh (s : State) (f : Fld) (n : Nat) : (s.wrap f n).kh = s.kh := rfl

/-! ### State.emit -/

@[simp] theorem State.emit_pending (s : State) (e : Emit) : (s.emit e).pending = s.pending := rfl
@[simp] theorem State.emit_now (s : State) (e : Emit) : (s.emit e).now = s.now := rfl
@[simp] theorem State.emit_free (s : State) (e : Emit) : (s.emit e).free = s.free := rfl
@[simp] theorem State.emit_sent (s : State) (e : Emit) : (s.emit e).sent = s.sent ++ [e] := rfl
@[simp] theorem State.emit_regs (s : State) (e : Emit) : (s.emit e).regs = s.regs := rfl
@[simp] theorem State.emit_mem (s : State) (e : Emit) : (s.emit e).mem = s.mem := rfl
@[simp] theorem State.emit_hif (s : State) (e : Emit) : (s.emit e).hif = s.hif := rfl
@[simp] theorem State.emit_mgt (s : State) (e : Emit) : (s.emit e).mgt = s.mgt := rfl
@[simp] theorem State.emit_scb (s : State) (e : Emit) : (s.emit e).scb = s.scb := rfl
@[simp] theorem State.emit_sch (s : State) (e : Emit) : (s.emit e).sch = s.sch := rfl
@[simp] theorem State.emit_tir (s : State) (e : Emit) : (s.emit e).tir = s.tir := rfl
@[simp] theorem State.emit_cdc (s : State) (e : Emit) : (s.emit e).cdc = s.cdc := rfl
@[simp] theorem State.emit_trl (s : State) (e : Emit) : (s.emit e).trl = s.trl := rfl
@[simp] theorem State.emit_xch (s : State) (e : Emit) : (s.emit e).xch = s.xch := rfl
@[simp] theorem State.emit_rm (s : State) (e : Emit) : (s.emit e).rm = s.rm := rfl
@[simp] theorem State.emit_cwt (s : State) (e : Emit) : (s.emit e).cwt = s.cwt := rfl
@[simp] theorem State.emit_cp (s : State) (e : Emit) : (s.emit e).cp = s.cp := rfl
@[simp] theorem State.emit_kh (s : State) (e : Emit) : (s.emit e).kh = s.kh := rfl

/-! ### State.takeFree -/

@[simp] theorem State.takeFree_pending (s : State) : (s.takeFree).pending = s.pending := rfl
@[simp] theorem State.takeFree_now (s : State) : (s.takeFree).now = s.now := rfl
@[simp] theorem State.takeFree_free (s : State) : (s.takeFree).free = s.free + 1 := rfl
@[simp] theorem State.takeFree_sent (s : State) : (s.takeFree).sent = s.sent := rfl
@[simp] theorem State.takeFree_regs (s : State) : (s.takeFree).regs = s.regs := rfl
@[simp] theorem State.takeFree_mem (s : State) : (s.takeFree).mem = s.mem := rfl
@[simp] theorem State.takeFree_hif (s : State) : (s.takeFree).hif = s.hif := rfl
@[simp] theorem State.takeFree_mgt (s : State) : (s.takeFree).mgt = s.mgt := rfl
@[simp] theorem State.takeFree_scb (s : State) : (s.takeFree).scb = s.scb := rfl
@[simp] theorem State.takeFree_sch (s : State) : (s.takeFree).sch = s.sch := rfl
@[simp] theorem State.takeFree_tir (s : State) : (s.takeFree).tir = s.tir := rfl
@[simp] theorem State.takeFree_cdc (s : State) : (s.takeFree).cdc = s.cdc := rfl
@[simp] theorem State.takeFree_trl (s : State) : (s.takeFree).trl = s.trl := rfl
@[simp] theorem State.takeFree_xch (s : State) : (s.takeFree).xch = s.xch := rfl
@[simp] theorem State.takeFree_rm (s : State) : (s.takeFree).rm = s.rm := rfl
@[simp] theorem State.takeFree_cwt (s : State) : (s.takeFree).cwt = s.cwt := rfl
@[simp] theorem State.takeFree_cp (s : State) : (s.takeFree).cp = s.cp := rfl
@[simp] theorem State.takeFree_kh (s : State) : (s.takeFree).kh = s.kh := rfl

/-! ### State.wr -/

@[simp] theorem State.wr_pending (s : State) (a : Nat) (l : List Byte) : (s.wr a l).pending = s.pending := rfl
@[simp] theorem State.wr_now (s : State) (a : Nat) (l : List Byte) : (s.wr a l).now = s.now := rfl
@[simp] theorem State.wr_free (s : State) (a : Nat) (l : List Byte) : (s.wr a l).free = s.free := rfl
@[simp] theorem State.wr_sent (s : State) (a : Nat) (l : List Byte) : (s.wr a l).sent = s.sent := rfl
@[simp] theorem State.wr_regs (s : State) (a : Nat) (l : List Byte) : (s.wr a l).regs = s.regs := rfl
@[simp] theorem State.wr_mem (s : State) (a : Nat) (l : List Byte) : (s.wr a l).mem = memWriteN s.mem a l := rfl
@[simp] theorem State.wr_hif (s : State) (a : Nat) (l : List Byte) : (s.wr a l).hif = s.hif := rfl
@[simp] theorem State.wr_mgt (s : State) (a : Nat) (l : List Byte) : (s.wr a l).mgt = s.mgt := rfl
@[simp] theorem State.wr_scb (s : State) (a : Nat) (l : List Byte) : (s.wr a l).scb = s.scb := rfl
@[simp] theorem State.wr_sch (s : State) (a : Nat) (l : List Byte) : (s.wr a l).sch = s.sch := rfl
@[simp] theorem State.wr_tir (s : State) (a : Nat) (l : List Byte) : (s.wr a l).tir = s.tir := rfl
@[simp] theorem State.wr_cdc (s : State) (a : Nat) (l : List Byte) : (s.wr a l).cdc = s.cdc := rfl
@[simp] theorem State.wr_trl (s : State) (a : Nat) (l : List Byte) : (s.wr a l).trl = s.trl := rfl
@[simp] theorem State.wr_xch (s : State) (a : Nat) (l : List Byte) : (s.wr a l).xch = s.xch := rfl
@[simp] theorem State.wr_rm (s : State) (a : Nat) (l : List Byte) : (s.wr a l).rm = s.rm := rfl
@[simp] theorem State.wr_cwt (s : State) (a : Nat) (l : List Byte) : (s.wr a l).cwt = s.cwt := rfl
@[simp] theorem State.wr_cp (s : State) (a : Nat) (l : List Byte) : (s.wr a l).cp = s.cp := rfl
@[simp] theorem State.wr_kh (s : State) (a : Nat) (l : List Byte) : (s.wr a l).kh = s.kh := rfl

/-! ### State.setFn -/

@[simp] theorem State.setFn_pending (s : State) (f : Nat) (F : Fn) : (s.setFn f F).pending = s.pending := rfl
@[simp] theorem State.setFn_now (s : State) (f : Nat) (F : Fn) : (s.setFn f F).now = s.now := rfl
@[simp] theorem State.setFn_free (s : State) (f : Nat) (F : Fn) : (s.setFn f F).free = s.free := rfl
@[simp] theorem State.setFn_sent (s : State) (f : Nat) (F : Fn) : (s.setFn f F).sent = s.sent := rfl
@[simp] theorem State.setFn_regs (s : State) (f : Nat) (F : Fn) : (s.setFn f F).regs = s.regs := rfl
@[simp] theorem State.setFn_mem (s : State) (f : Nat) (F : Fn) : (s.setFn f F).mem = s.mem := rfl
@[simp] theorem State.setFn_hif (s : State) (f : Nat) (F : Fn) : (s.setFn f F).hif = { s.hif with fns := amSet f F s.hif.fns } := rfl
@[simp] theorem State.setFn_mgt (s : State) (f : Nat) (F : Fn) : (s.setFn f F).mgt = s.mgt := rfl
@[simp] theorem State.setFn_scb (s : State) (f : Nat) (F : Fn) : (s.setFn f F).scb = s.scb := rfl
@[simp] theorem State.setFn_sch (s : State) (f : Nat) (F : Fn) : (s.setFn f F).sch = s.sch := rfl
@[simp] theorem State.setFn_tir (s : State) (f : Nat) (F : Fn) : (s.setFn f F).tir = s.tir := rfl
@[simp] theorem State.setFn_cdc (s : State) (f : Nat) (F : Fn) : (s.setFn f F).cdc = s.cdc := rfl
@[simp] theorem State.setFn_trl (s : State) (f : Nat) (F : Fn) : (s.setFn f F).trl = s.trl := rfl
@[simp] theorem State.setFn_xch (s : State) (f : Nat) (F : Fn) : (s.setFn f F).xch = s.xch := rfl
@[simp] theorem State.setFn_rm (s : State) (f : Nat) (F : Fn) : (s.setFn f F).rm = s.rm := rfl
@[simp] theorem State.setFn_cwt (s : State) (f : Nat) (F : Fn) : (s.setFn f F).cwt = s.cwt := rfl
@[simp] theorem State.setFn_cp (s : State) (f : Nat) (F : Fn) : (s.setFn f F).cp = s.cp := rfl
@[simp] theorem State.setFn_kh (s : State) (f : Nat) (F : Fn) : (s.setFn f F).kh = s.kh := rfl

/-! ### State.setCtx -/

@[simp] theorem State.setCtx_pending (s : State) (x : Ctx) : (s.setCtx x).pending = s.pending := rfl
@[simp] theorem State.setCtx_now (s : State) (x : Ctx) : (s.setCtx x).now = s.now := rfl
@[simp] theorem State.setCtx_free (s : State) (x : Ctx) : (s.setCtx x).free = s.free := rfl
@[simp] theorem State.setCtx_sent (s : State) (x : Ctx) : (s.setCtx x).sent = s.sent := rfl
@[simp] theorem State.setCtx_regs (s : State) (x : Ctx) : (s.setCtx x).regs = s.regs := rfl
@[simp] theorem State.setCtx_mem (s : State) (x : Ctx) : (s.setCtx x).mem = s.mem := rfl
@[simp] theorem State.setCtx_hif (s : State) (x : Ctx) : (s.setCtx x).hif = s.hif := rfl
@[simp] theorem State.setCtx_mgt (s : State) (x : Ctx) : (s.setCtx x).mgt = s.mgt := rfl
@[simp] theorem State.setCtx_scb (s : State) (x : Ctx) : (s.setCtx x).scb = s.scb := rfl
@[simp] theorem State.setCtx_sch (s : State) (x : Ctx) : (s.setCtx x).sch = { s.sch with ctxs := amSet (bits x.handle 0 21) x s.sch.ctxs } := rfl
@[simp] theorem State.setCtx_tir (s : State) (x : Ctx) : (s.setCtx x).tir = s.tir := rfl
@[simp] theorem State.setCtx_cdc (s : State) (x : Ctx) : (s.setCtx x).cdc = s.cdc := rfl
@[simp] theorem State.setCtx_trl (s : State) (x : Ctx) : (s.setCtx x).trl = s.trl := rfl
@[simp] theorem State.setCtx_xch (s : State) (x : Ctx) : (s.setCtx x).xch = s.xch := rfl
@[simp] theorem State.setCtx_rm (s : State) (x : Ctx) : (s.setCtx x).rm = s.rm := rfl
@[simp] theorem State.setCtx_cwt (s : State) (x : Ctx) : (s.setCtx x).cwt = s.cwt := rfl
@[simp] theorem State.setCtx_cp (s : State) (x : Ctx) : (s.setCtx x).cp = s.cp := rfl
@[simp] theorem State.setCtx_kh (s : State) (x : Ctx) : (s.setCtx x).kh = s.kh := rfl

/-! ### State.setStand -/

@[simp] theorem State.setStand_pending (s : State) (i : Nat) (S : Stand) : (s.setStand i S).pending = s.pending := by simp [State.setStand, standRegs]
@[simp] theorem State.setStand_now (s : State) (i : Nat) (S : Stand) : (s.setStand i S).now = s.now := by simp [State.setStand, standRegs]
@[simp] theorem State.setStand_free (s : State) (i : Nat) (S : Stand) : (s.setStand i S).free = s.free := by simp [State.setStand, standRegs]
@[simp] theorem State.setStand_sent (s : State) (i : Nat) (S : Stand) : (s.setStand i S).sent = s.sent := by simp [State.setStand, standRegs]
@[simp] theorem State.setStand_mem (s : State) (i : Nat) (S : Stand) : (s.setStand i S).mem = s.mem := by simp [State.setStand, standRegs]
@[simp] theorem State.setStand_hif (s : State) (i : Nat) (S : Stand) : (s.setStand i S).hif = s.hif := by simp [State.setStand, standRegs]
@[simp] theorem State.setStand_mgt (s : State) (i : Nat) (S : Stand) : (s.setStand i S).mgt = s.mgt := by simp [State.setStand, standRegs]
@[simp] theorem State.setStand_scb (s : State) (i : Nat) (S : Stand) : (s.setStand i S).scb = s.scb := by simp [State.setStand, standRegs]
@[simp] theorem State.setStand_sch (s : State) (i : Nat) (S : Stand) : (s.setStand i S).sch = s.sch := by simp [State.setStand, standRegs]
@[simp] theorem State.setStand_tir (s : State) (i : Nat) (S : Stand) : (s.setStand i S).tir = s.tir := by simp [State.setStand, standRegs]
@[simp] theorem State.setStand_cdc (s : State) (i : Nat) (S : Stand) : (s.setStand i S).cdc = s.cdc := by simp [State.setStand, standRegs]
@[simp] theorem State.setStand_trl (s : State) (i : Nat) (S : Stand) : (s.setStand i S).trl = s.trl := by simp [State.setStand, standRegs]
@[simp] theorem State.setStand_xch (s : State) (i : Nat) (S : Stand) : (s.setStand i S).xch = { s.xch with stands := amSet i S s.xch.stands } := by simp [State.setStand, standRegs]
@[simp] theorem State.setStand_rm (s : State) (i : Nat) (S : Stand) : (s.setStand i S).rm = s.rm := by simp [State.setStand, standRegs]
@[simp] theorem State.setStand_cwt (s : State) (i : Nat) (S : Stand) : (s.setStand i S).cwt = s.cwt := by simp [State.setStand, standRegs]
@[simp] theorem State.setStand_cp (s : State) (i : Nat) (S : Stand) : (s.setStand i S).cp = s.cp := by simp [State.setStand, standRegs]
@[simp] theorem State.setStand_kh (s : State) (i : Nat) (S : Stand) : (s.setStand i S).kh = s.kh := by simp [State.setStand, standRegs]

/-! ### State.setLayer -/

@[simp] theorem State.setLayer_pending (s : State) (L : StepLayer) : (s.setLayer L).pending = s.pending := rfl
@[simp] theorem State.setLayer_now (s : State) (L : StepLayer) : (s.setLayer L).now = s.now := rfl
@[simp] theorem State.setLayer_free (s : State) (L : StepLayer) : (s.setLayer L).free = s.free := rfl
@[simp] theorem State.setLayer_sent (s : State) (L : StepLayer) : (s.setLayer L).sent = s.sent := rfl
@[simp] theorem State.setLayer_regs (s : State) (L : StepLayer) : (s.setLayer L).regs = s.regs := rfl
@[simp] theorem State.setLayer_mem (s : State) (L : StepLayer) : (s.setLayer L).mem = s.mem := rfl
@[simp] theorem State.setLayer_hif (s : State) (L : StepLayer) : (s.setLayer L).hif = s.hif := rfl
@[simp] theorem State.setLayer_mgt (s : State) (L : StepLayer) : (s.setLayer L).mgt = s.mgt := rfl
@[simp] theorem State.setLayer_scb (s : State) (L : StepLayer) : (s.setLayer L).scb = s.scb := rfl
@[simp] theorem State.setLayer_sch (s : State) (L : StepLayer) : (s.setLayer L).sch = s.sch := rfl
@[simp] theorem State.setLayer_tir (s : State) (L : StepLayer) : (s.setLayer L).tir = s.tir := rfl
@[simp] theorem State.setLayer_cdc (s : State) (L : StepLayer) : (s.setLayer L).cdc = s.cdc := rfl
@[simp] theorem State.setLayer_trl (s : State) (L : StepLayer) : (s.setLayer L).trl = s.trl := rfl
@[simp] theorem State.setLayer_xch (s : State) (L : StepLayer) : (s.setLayer L).xch = { s.xch with layers := amSet L.handle L s.xch.layers } := rfl
@[simp] theorem State.setLayer_rm (s : State) (L : StepLayer) : (s.setLayer L).rm = s.rm := rfl
@[simp] theorem State.setLayer_cwt (s : State) (L : StepLayer) : (s.setLayer L).cwt = s.cwt := rfl
@[simp] theorem State.setLayer_cp (s : State) (L : StepLayer) : (s.setLayer L).cp = s.cp := rfl
@[simp] theorem State.setLayer_kh (s : State) (L : StepLayer) : (s.setLayer L).kh = s.kh := rfl

/-! ### State.setQp -/

@[simp] theorem State.setQp_pending (s : State) (i : Nat) (q : Qp) : (s.setQp i q).pending = s.pending := rfl
@[simp] theorem State.setQp_now (s : State) (i : Nat) (q : Qp) : (s.setQp i q).now = s.now := rfl
@[simp] theorem State.setQp_free (s : State) (i : Nat) (q : Qp) : (s.setQp i q).free = s.free := rfl
@[simp] theorem State.setQp_sent (s : State) (i : Nat) (q : Qp) : (s.setQp i q).sent = s.sent := rfl
@[simp] theorem State.setQp_regs (s : State) (i : Nat) (q : Qp) : (s.setQp i q).regs = s.regs := rfl
@[simp] theorem State.setQp_mem (s : State) (i : Nat) (q : Qp) : (s.setQp i q).mem = s.mem := rfl
@[simp] theorem State.setQp_hif (s : State) (i : Nat) (q : Qp) : (s.setQp i q).hif = s.hif := rfl
@[simp] theorem State.setQp_mgt (s : State) (i : Nat) (q : Qp) : (s.setQp i q).mgt = s.mgt := rfl
@[simp] theorem State.setQp_scb (s : State) (i : Nat) (q : Qp) : (s.setQp i q).scb = s.scb := rfl
@[simp] theorem State.setQp_sch (s : State) (i : Nat) (q : Qp) : (s.setQp i q).sch = s.sch := rfl
@[simp] theorem State.setQp_tir (s : State) (i : Nat) (q : Qp) : (s.setQp i q).tir = s.tir := rfl
@[simp] theorem State.setQp_cdc (s : State) (i : Nat) (q : Qp) : (s.setQp i q).cdc = s.cdc := rfl
@[simp] theorem State.setQp_trl (s : State) (i : Nat) (q : Qp) : (s.setQp i q).trl = s.trl := rfl
@[simp] theorem State.setQp_xch (s : State) (i : Nat) (q : Qp) : (s.setQp i q).xch = s.xch := rfl
@[simp] theorem State.setQp_rm (s : State) (i : Nat) (q : Qp) : (s.setQp i q).rm = s.rm := rfl
@[simp] theorem State.setQp_cwt (s : State) (i : Nat) (q : Qp) : (s.setQp i q).cwt = { s.cwt with qps := amSet i q s.cwt.qps } := rfl
@[simp] theorem State.setQp_cp (s : State) (i : Nat) (q : Qp) : (s.setQp i q).cp = s.cp := rfl
@[simp] theorem State.setQp_kh (s : State) (i : Nat) (q : Qp) : (s.setQp i q).kh = s.kh := rfl

/-! ### State.modQp -/

@[simp] theorem State.modQp_pending (s : State) (i : Nat) (f : Qp → Qp) : (s.modQp i f).pending = s.pending := rfl
@[simp] theorem State.modQp_now (s : State) (i : Nat) (f : Qp → Qp) : (s.modQp i f).now = s.now := rfl
@[simp] theorem State.modQp_free (s : State) (i : Nat) (f : Qp → Qp) : (s.modQp i f).free = s.free := rfl
@[simp] theorem State.modQp_sent (s : State) (i : Nat) (f : Qp → Qp) : (s.modQp i f).sent = s.sent := rfl
@[simp] theorem State.modQp_regs (s : State) (i : Nat) (f : Qp → Qp) : (s.modQp i f).regs = s.regs := rfl
@[simp] theorem State.modQp_mem (s : State) (i : Nat) (f : Qp → Qp) : (s.modQp i f).mem = s.mem := rfl
@[simp] theorem State.modQp_hif (s : State) (i : Nat) (f : Qp → Qp) : (s.modQp i f).hif = s.hif := rfl
@[simp] theorem State.modQp_mgt (s : State) (i : Nat) (f : Qp → Qp) : (s.modQp i f).mgt = s.mgt := rfl
@[simp] theorem State.modQp_scb (s : State) (i : Nat) (f : Qp → Qp) : (s.modQp i f).scb = s.scb := rfl
@[simp] theorem State.modQp_sch (s : State) (i : Nat) (f : Qp → Qp) : (s.modQp i f).sch = s.sch := rfl
@[simp] theorem State.modQp_tir (s : State) (i : Nat) (f : Qp → Qp) : (s.modQp i f).tir = s.tir := rfl
@[simp] theorem State.modQp_cdc (s : State) (i : Nat) (f : Qp → Qp) : (s.modQp i f).cdc = s.cdc := rfl
@[simp] theorem State.modQp_trl (s : State) (i : Nat) (f : Qp → Qp) : (s.modQp i f).trl = s.trl := rfl
@[simp] theorem State.modQp_xch (s : State) (i : Nat) (f : Qp → Qp) : (s.modQp i f).xch = s.xch := rfl
@[simp] theorem State.modQp_rm (s : State) (i : Nat) (f : Qp → Qp) : (s.modQp i f).rm = s.rm := rfl
@[simp] theorem State.modQp_cwt (s : State) (i : Nat) (f : Qp → Qp) : (s.modQp i f).cwt = { s.cwt with qps := amMod i f s.cwt.qps } := rfl
@[simp] theorem State.modQp_cp (s : State) (i : Nat) (f : Qp → Qp) : (s.modQp i f).cp = s.cp := rfl
@[simp] theorem State.modQp_kh (s : State) (i : Nat) (f : Qp → Qp) : (s.modQp i f).kh = s.kh := rfl

/-! ### keepQueue -/

@[simp] theorem keepQueue_pending (s t : State) : (keepQueue s t).pending = s.pending := rfl
@[simp] theorem keepQueue_now (s t : State) : (keepQueue s t).now = t.now := rfl
@[simp] theorem keepQueue_free (s t : State) : (keepQueue s t).free = t.free := rfl
@[simp] theorem keepQueue_sent (s t : State) : (keepQueue s t).sent = t.sent := rfl
@[simp] theorem keepQueue_regs (s t : State) : (keepQueue s t).regs = t.regs := rfl
@[simp] theorem keepQueue_mem (s t : State) : (keepQueue s t).mem = t.mem := rfl
@[simp] theorem keepQueue_hif (s t : State) : (keepQueue s t).hif = t.hif := rfl
@[simp] theorem keepQueue_mgt (s t : State) : (keepQueue s t).mgt = t.mgt := rfl
@[simp] theorem keepQueue_scb (s t : State) : (keepQueue s t).scb = t.scb := rfl
@[simp] theorem keepQueue_sch (s t : State) : (keepQueue s t).sch = t.sch := rfl
@[simp] theorem keepQueue_tir (s t : State) : (keepQueue s t).tir = t.tir := rfl
@[simp] theorem keepQueue_cdc (s t : State) : (keepQueue s t).cdc = t.cdc := rfl
@[simp] theorem keepQueue_trl (s t : State) : (keepQueue s t).trl = t.trl := rfl
@[simp] theorem keepQueue_xch (s t : State) : (keepQueue s t).xch = t.xch := rfl
@[simp] theorem keepQueue_rm (s t : State) : (keepQueue s t).rm = t.rm := rfl
@[simp] theorem keepQueue_cwt (s t : State) : (keepQueue s t).cwt = t.cwt := rfl
@[simp] theorem keepQueue_cp (s t : State) : (keepQueue s t).cp = t.cp := rfl
@[simp] theorem keepQueue_kh (s t : State) : (keepQueue s t).kh = t.kh := rfl

end Sys2Proof.Machine
end

