-- ==== Sys2Proof/Laws/Host.lean ====
section
/-! SUPPORT. What the shared operations of the meanings can answer: the queue is kept, a host command that nothing holds back runs its body, and a slot that issues acts. -/

namespace Sys2Proof.Machine

/-- What a meaning that names a unit answers. -/
theorem withUnit_cases {s t u : State} {ok : Bool} (h : withUnit s ok t = .next u) : ok = true ∧ u = keepQueue s t := by
  unfold withUnit at h
  cases ok
  · simp at h
  · simp [nextOf] at h
    exact ⟨rfl, h.symm⟩

theorem withUnit_pending {s t u : State} {ok : Bool} (h : withUnit s ok t = .next u) : u.pending = s.pending := by
  rw [(withUnit_cases h).2]; rfl

theorem nextOf_pending {s t u : State} (h : nextOf s t = .next u) : u.pending = s.pending := by
  simp [nextOf] at h; rw [← h]; rfl

theorem runCommand_pending {s u : State} {o : Nat} {c : Cmd} {bad : State → List Byte → Bool} {body : Body}
    (h : runCommand s o c bad body = .next u) : u.pending = s.pending := by
  unfold runCommand at h
  split at h
  · exact nextOf_pending h
  · simp at h

@[simp] theorem cmdDesc_touch (s : State) (i : Nat) (c : Cmd) : cmdDesc (cacheTouch s i) c = cmdDesc s c := by
  unfold cmdDesc cacheTouch; split <;> rfl

@[simp] theorem touch_regs (s : State) (i : Nat) : (cacheTouch s i).regs = s.regs := by
  unfold cacheTouch; split <;> rfl

theorem startCmd_regs (s : State) (o : Nat) (c : Cmd) : (startCmd s o c).regs = s.regs := by
  unfold startCmd markTaken
  dsimp only
  split <;> split <;> rfl

/-- A host command that nothing holds back runs its body on the state in which it has begun. -/
theorem runCommand_ready {s : State} {o : Nat} {c : Cmd} {bad : State → List Byte → Bool} {body : Body}
    (h : hostReady s o c bad = true) :
    runCommand s o c bad body =
      .next (keepQueue s (match body (begun s o c) (cmdDesc s c) with | (t, some d) => completeCmd t o c d | (t, none) => t)) := by
  simp only [hostReady, Bool.and_eq_true, decide_eq_true_eq, Bool.not_eq_true', bne_iff_ne, ne_eq, Option.isNone_iff_eq_none,
    Bool.or_eq_true] at h
  obtain ⟨⟨⟨⟨⟨⟨hf, hs⟩, hw⟩, hp⟩, hn⟩, hc⟩, hr⟩ := h
  have hp' : (startCmd (cacheTouch s (bits c.handle 0 21)) o c).r Reg.PWR_STATE_STATE ≠ 3 := by
    simpa [State.r, startCmd_regs] using hp
  have hr' : ((startCmd (cacheTouch s (bits c.handle 0 21)) o c).role == roleUnassigned && !opUnassigned o) = false := by
    rcases hr with hr | hr <;> simp [hr, State.role, State.r, startCmd_regs] at *
    simp [hr]
  simp only [runCommand, hf, if_true, nextOf, hostCommand, hs, hw, hp, hn, false_and, or_false, if_false, cmdDesc_touch, hc, begun, hr',
    Bool.false_eq_true]
  simp only [beq_eq_false_iff_ne.mpr hp', Bool.false_and, Bool.false_eq_true, if_false]
  all_goals rfl

/-- A host command that nothing holds back and whose body ends it. -/
theorem runCommand_ends {s t : State} {o : Nat} {c : Cmd} {bad : State → List Byte → Bool} {body : Body} {d : Done}
    (h : hostReady s o c bad = true) (hb : body (begun s o c) (cmdDesc s c) = (t, some d)) : runCommand s o c bad body = endsWith s o c t d := by
  rw [runCommand_ready h, hb]; rfl

/-- A host command that nothing holds back and whose body leaves it to end later. -/
theorem runCommand_goesOn {s t : State} {o : Nat} {c : Cmd} {bad : State → List Byte → Bool} {body : Body}
    (h : hostReady s o c bad = true) (hb : body (begun s o c) (cmdDesc s c) = (t, none)) : runCommand s o c bad body = goesOn s t := by
  rw [runCommand_ready h, hb]; rfl

/-- A meaning that names a unit that exists goes on; one that names none stops. -/
theorem withUnit_there {s t : State} {ok : Bool} (h : ok = true) : withUnit s ok t = goesOn s t := by simp only [withUnit, h]; rfl
theorem withUnit_absent {s t : State} {ok : Bool} (h : ok = false) : withUnit s ok t = .fault .noSuchUnit := by simp [withUnit, h]

/-- A message is taken where the node does not stand in MIXED or sends it itself (R16). -/
theorem fromNode_taken {s t : State} {src : Nat} (h : s.role ≠ roleMixed ∨ src = s.nodeId) : fromNode s src t = t := by
  unfold fromNode
  rw [if_neg]
  rintro ⟨a, b⟩
  rcases h with h | h
  · exact h a
  · exact b h

/-- A map reads what it was set to. -/
theorem amGet_amSet_self {α : Type} (k : Nat) (v : α) (m : AMap α) : amGet k (amSet k v m) = some v := by
  induction m with
  | nil => simp [amSet, amGet]
  | cons e m ih =>
    obtain ⟨j, w⟩ := e
    simp only [amSet]
    split
    · simp [amGet]
    · split <;> simp_all [amGet]; omega

/-- A slot that issues, with its predicate 1, acts. -/
theorem runSlot_issues {s : State} {st k o f b : Nat} {F : Frame} {act : State → Nat → Frame → Nat → SlotEnd}
    (h : slotIssues s st k o f F b = true) (hp : predOf F b k = true) :
    runSlot s st k o act =
      match act s f (F.ran k) (slotBits b k) with
      | .fault dt => progFault s st f dt F.pc
      | .ok s' G => if (activeSlots b).all fun j => G.slotsRun.contains j then endBundle s' st f G (codeLen s st) else setFrame s' st f G := by
  simp only [slotIssues, Bool.and_eq_true, decide_eq_true_eq, Bool.not_eq_true', beq_iff_eq] at h
  obtain ⟨⟨⟨⟨⟨⟨⟨⟨⟨⟨hst, hr⟩, hF⟩, hb⟩, hfe⟩, hh⟩, hwd⟩, hl⟩, ho⟩, hk⟩, hheld⟩ := h
  simp only [runSlot, hr, hF, Option.bind_some, Option.map_some, hb, hfe, hh, hwd, hl, ho, hk, bne_self_eq_false,
    Bool.not_true, Bool.or_false, hheld, Bool.false_eq_true, if_false]
  simp only [predOf, Frame.p] at hp
  simp only [predOf, Frame.p, hp, if_true, codeLen, Frame.ran, hwd]
  all_goals rfl

/-- A slot that issues, with its predicate 0, has no effect of its own (R247). -/
theorem runSlot_off {s : State} {st k o f b : Nat} {F : Frame} {act : State → Nat → Frame → Nat → SlotEnd}
    (h : slotIssues s st k o f F b = true) (hp : predOf F b k = false) :
    runSlot s st k o act = slotDone s st f b (F.ran k) := by
  simp only [slotIssues, Bool.and_eq_true, decide_eq_true_eq, Bool.not_eq_true', beq_iff_eq] at h
  obtain ⟨⟨⟨⟨⟨⟨⟨⟨⟨⟨hst, hr⟩, hF⟩, hb⟩, hfe⟩, hh⟩, hwd⟩, hl⟩, ho⟩, hk⟩, hheld⟩ := h
  simp only [runSlot, hr, hF, Option.bind_some, Option.map_some, hb, hfe, hh, hwd, hl, ho, hk, bne_self_eq_false,
    Bool.not_true, Bool.or_false, hheld, Bool.false_eq_true, if_false]
  simp only [predOf, Frame.p] at hp
  simp only [predOf, Frame.p, hp, slotDone, codeLen, Frame.ran, hwd, Bool.false_eq_true, if_false]
  all_goals rfl

theorem slotIssues_lt {s : State} {st k o f b : Nat} {F : Frame} (h : slotIssues s st k o f F b = true) : st < 64 := by
  simp only [slotIssues, Bool.and_eq_true, decide_eq_true_eq] at h
  exact h.1.1.1.1.1.1.1.1.1.1

/-- A slot on registers alone that issues leaves its frame's result. -/
theorem runRegs_issues {s : State} {st k o f b : Nat} {F : Frame} {g : Frame → Nat → Frame}
    (h : slotIssues s st k o f F b = true) (hp : predOf F b k = true) :
    runRegs st k o s g = .next (keepQueue s (slotDone s st f b (g (F.ran k) (slotBits b k)))) := by
  simp only [runRegs, withUnit, slotIssues_lt h, decide_true, if_true, nextOf, runSlot_issues h hp, slotDone]

end Sys2Proof.Machine
end

