-- ==== Sys2Proof/Laws/Memory.lean ====
section
/-! SUPPORT. Maps and memory: a read after a write, the canonical form, and registers. -/

namespace Sys2Proof.Machine

/-! ### Maps -/

@[simp] theorem amGet_set_same {α : Type} (k : Nat) (v : α) (m : AMap α) : amGet k (amSet k v m) = some v := by
  induction m with
  | nil => simp [amSet, amGet]
  | cons e m ih =>
    obtain ⟨j, w⟩ := e
    unfold amSet
    split
    · simp [amGet]
    · split
      · simp [amGet]
      · rename_i h1 h2
        simp [amGet, Ne.symm h2, ih]

@[simp] theorem amGet_set_other {α : Type} {k j : Nat} (h : j ≠ k) (v : α) (m : AMap α) : amGet j (amSet k v m) = amGet j m := by
  induction m with
  | nil => simp [amSet, amGet, Ne.symm h]
  | cons e m ih =>
    obtain ⟨i, w⟩ := e
    unfold amSet
    split
    · simp [amGet, Ne.symm h]
    · split
      · rename_i h1 h2; subst h2; simp [amGet, Ne.symm h]
      · simp [amGet, ih]

@[simp] theorem amGet_erase_same {α : Type} (k : Nat) (m : AMap α) : amGet k (amErase k m) = none := by
  induction m with
  | nil => rfl
  | cons e m ih =>
    obtain ⟨j, w⟩ := e
    unfold amErase
    split
    · exact ih
    · rename_i h; simp [amGet, h, ih]

@[simp] theorem amGet_erase_other {α : Type} {k j : Nat} (h : j ≠ k) (m : AMap α) : amGet j (amErase k m) = amGet j m := by
  induction m with
  | nil => rfl
  | cons e m ih =>
    obtain ⟨i, w⟩ := e
    unfold amErase
    split
    · rename_i hi; subst hi; rw [ih]; simp [amGet, Ne.symm h]
    · simp [amGet, ih]

/-- Every key of the map is above `n`. -/
def amAbove {α : Type} (n : Nat) (m : AMap α) : Prop := ∀ e ∈ m, n < e.1

theorem amSorted_cons {α : Type} {e : Nat × α} {m : AMap α} : amSorted (e :: m) = true ↔ amAbove e.1 m ∧ amSorted m = true := by
  induction m generalizing e with
  | nil => simp [amSorted, amAbove]
  | cons f m ih =>
    obtain ⟨k, v⟩ := f
    obtain ⟨j, w⟩ := e
    simp only [amSorted, Bool.and_eq_true, decide_eq_true_eq]
    constructor
    · rintro ⟨h1, h2⟩
      refine ⟨?_, h2⟩
      have h3 := (ih.mp h2).1
      intro g hg
      rcases List.mem_cons.mp hg with rfl | hg
      · exact h1
      · exact Nat.lt_trans h1 (h3 g hg)
    · rintro ⟨h1, h2⟩
      exact ⟨h1 (k, v) (List.mem_cons_self ..), h2⟩

theorem amSet_above {α : Type} {n k : Nat} {v : α} {m : AMap α} (hk : n < k) (h : amAbove n m) : amAbove n (amSet k v m) := by
  induction m with
  | nil => intro e he; simp [amSet] at he; subst he; exact hk
  | cons f m ih =>
    obtain ⟨j, w⟩ := f
    have hm : amAbove n m := fun e he => h e (List.mem_cons_of_mem _ he)
    have hj : n < j := h (j, w) (List.mem_cons_self ..)
    unfold amSet
    split
    · intro e he
      rcases List.mem_cons.mp he with rfl | he
      · exact hk
      · exact h e he
    · split
      · intro e he
        rcases List.mem_cons.mp he with rfl | he
        · exact hk
        · exact hm e he
      · intro e he
        rcases List.mem_cons.mp he with rfl | he
        · exact hj
        · exact ih hm e he

theorem amSet_sorted {α : Type} (k : Nat) (v : α) {m : AMap α} (h : amSorted m = true) : amSorted (amSet k v m) = true := by
  induction m with
  | nil => rfl
  | cons f m ih =>
    obtain ⟨j, w⟩ := f
    obtain ⟨h1, h2⟩ := amSorted_cons.mp h
    unfold amSet
    split
    · rename_i hk
      exact amSorted_cons.mpr ⟨fun e he => by
        rcases List.mem_cons.mp he with rfl | he
        · exact hk
        · exact Nat.lt_trans hk (h1 e he), h⟩
    · split
      · rename_i hk; subst hk; exact amSorted_cons.mpr ⟨h1, h2⟩
      · rename_i hk hne
        exact amSorted_cons.mpr ⟨amSet_above (by simp only []; omega) h1, ih h2⟩

theorem amErase_mem {α : Type} {k : Nat} {m : AMap α} {e : Nat × α} (h : e ∈ amErase k m) : e ∈ m := by
  induction m with
  | nil => simp [amErase] at h
  | cons f m ih =>
    obtain ⟨j, w⟩ := f
    unfold amErase at h
    split at h
    · exact List.mem_cons_of_mem _ (ih h)
    · rcases List.mem_cons.mp h with rfl | h
      · exact List.mem_cons_self ..
      · exact List.mem_cons_of_mem _ (ih h)

theorem amErase_sorted {α : Type} (k : Nat) {m : AMap α} (h : amSorted m = true) : amSorted (amErase k m) = true := by
  induction m with
  | nil => rfl
  | cons f m ih =>
    obtain ⟨j, w⟩ := f
    obtain ⟨h1, h2⟩ := amSorted_cons.mp h
    unfold amErase
    split
    · exact ih h2
    · exact amSorted_cons.mpr ⟨fun e he => h1 e (amErase_mem he), ih h2⟩

/-! ### Memory -/

theorem noDefault_iff {m : Memory} : Memory.noDefault m = true ↔ ∀ e ∈ m, e.2 ≠ memDefault := by
  induction m with
  | nil => simp [Memory.noDefault]
  | cons e m ih => obtain ⟨a, b⟩ := e; simp [Memory.noDefault, ih]

theorem amSet_mem {α : Type} {k : Nat} {v : α} {m : AMap α} {e : Nat × α} (h : e ∈ amSet k v m) : e = (k, v) ∨ e ∈ m := by
  induction m with
  | nil => simp [amSet] at h; exact .inl h
  | cons f m ih =>
    obtain ⟨j, w⟩ := f
    unfold amSet at h
    split at h
    · rcases List.mem_cons.mp h with h | h
      · exact .inl h
      · exact .inr h
    · split at h
      · rcases List.mem_cons.mp h with h | h
        · exact .inl h
        · exact .inr (List.mem_cons_of_mem _ h)
      · rcases List.mem_cons.mp h with h | h
        · exact .inr (h ▸ List.mem_cons_self ..)
        · rcases ih h with h | h
          · exact .inl h
          · exact .inr (List.mem_cons_of_mem _ h)

/-- A store of one byte keeps the canonical form. -/
theorem memWrite_wf {m : Memory} (a : Nat) (b : Byte) (h : m.wf = true) : (memWrite m a b).wf = true := by
  unfold Memory.wf at *
  simp only [Bool.and_eq_true] at *
  unfold memWrite
  split
  · exact ⟨amErase_sorted a h.1, noDefault_iff.mpr fun e he => noDefault_iff.mp h.2 e (amErase_mem he)⟩
  · rename_i hb
    refine ⟨amSet_sorted a b h.1, noDefault_iff.mpr fun e he => ?_⟩
    rcases amSet_mem he with rfl | he
    · exact hb
    · exact noDefault_iff.mp h.2 e he

/-- A store of bytes keeps the canonical form. -/
theorem memWriteN_wf {m : Memory} (a : Nat) (l : List Byte) (h : m.wf = true) : (memWriteN m a l).wf = true := by
  induction l generalizing m a with
  | nil => exact h
  | cons b l ih => exact ih (a + 1) (memWrite_wf a b h)

/-- A little-endian store keeps the canonical form. -/
theorem memWriteLE_wf {m : Memory} (a n x : Nat) (h : m.wf = true) : (memWriteLE m a n x).wf = true := memWriteN_wf _ _ h

/-- Dropping cells keeps the canonical form. -/
theorem amFilter_wf {m : Memory} (p : Nat → Byte → Bool) (h : m.wf = true) : Memory.wf (amFilter p m) = true := by
  unfold Memory.wf at *
  simp only [Bool.and_eq_true] at *
  refine ⟨?_, noDefault_iff.mpr fun e he => noDefault_iff.mp h.2 e (List.mem_of_mem_filter he)⟩
  have hs := h.1
  clear h
  unfold amFilter
  induction m with
  | nil => rfl
  | cons e m ih =>
    obtain ⟨h1, h2⟩ := amSorted_cons.mp hs
    rw [List.filter_cons]
    split
    · exact amSorted_cons.mpr ⟨fun g hg => h1 g (List.mem_of_mem_filter hg), ih h2⟩
    · exact ih h2

theorem State.wr_wf {s : State} (a : Nat) (l : List Byte) (h : s.mem.wf = true) : (s.wr a l).mem.wf = true := memWriteN_wf a l h

theorem memRead_write_same (m : Memory) (a : Nat) (b : Byte) : memRead (memWrite m a b) a = b := by
  unfold memRead memWrite
  split
  · rename_i h; simp [h]
  · simp

theorem memRead_write_other {a x : Nat} (h : x ≠ a) (m : Memory) (b : Byte) : memRead (memWrite m a b) x = memRead m x := by
  unfold memRead memWrite
  split <;> simp [h]

/-- A store leaves every byte outside it alone. -/
theorem memRead_writeN_out {x : Nat} (m : Memory) (a : Nat) (l : List Byte) (h : x < a ∨ a + l.length ≤ x) :
    memRead (memWriteN m a l) x = memRead m x := by
  induction l generalizing m a with
  | nil => rfl
  | cons b l ih =>
    simp only [List.length_cons] at h
    unfold memWriteN
    rw [ih _ _ (by omega), memRead_write_other (by omega)]

/-- A read of the bytes just stored gives them. -/
theorem memReadN_writeN (m : Memory) (a : Nat) (l : List Byte) : memReadN (memWriteN m a l) a l.length = l := by
  induction l generalizing m a with
  | nil => rfl
  | cons b l ih =>
    simp only [List.length_cons, memReadN, memWriteN]
    rw [ih, memRead_writeN_out _ _ _ (by omega), memRead_write_same]

/-! ### Registers -/

theorem regGet_set_same (r : Regs) (f : Fld) (v : Nat) : regGet (regSet r f v) f = v % 2 ^ f.w := by
  simp [regGet, regSet]

theorem regGet_set_other {f g : Fld} (h : g.key ≠ f.key) (r : Regs) (v : Nat) : regGet (regSet r f v) g = regGet r g := by
  simp [regGet, regSet, h]

end Sys2Proof.Machine
end

