-- ==== Sys2Proof/Tests/Slice0.lean ====
section
/-! SUPPORT. Tests of the model and a witness for the hypotheses of every statement. -/

namespace Sys2Proof.Tests

open Sys2Proof Sys2Proof.Machine

/-- A command of function 0 on the admin queue with no operands. -/
def cmd0 : Cmd :=
  { fn := 0, sq := 0, fence := false, noCqe := false, rslotValid := false, rslot := 0, cq := 0, zero := 0, userTag := 7, descAddr := 0,
    descLen := 0, handle := 0, arg0 := 0, arg1 := 0, arg2 := 0, arg3 := 0 }

/-- A completion queue of 16 entries at 0x8000. -/
def cq16 (typ : Nat) : Cq :=
  { base := 0x8000, log2 := 4, typ := typ, vector := 0, coalCount := 1, coalUs := 0, written := 0, consumed := 0, held := [], unsig := 0, firstUnsig := none }

/-- A node in service: started, in mixed role with its role live, the admin pair of function 0 set up. -/
def live : State :=
  let s := State.reset
  let s := s.setR Reg.MGT_BOOT_STATUS_READY 1
  let s := s.setR Reg.MGT_ROLE_ROLE 4
  let s := s.setR Reg.MGT_ROLE_NODE_ID 0x100
  let s := s.setR Reg.MGT_MAP_EPOCH_ROLE_LIVE 1
  let s := s.setR Reg.HIF_ADMQ_CFG_ENABLE 1
  let s := { s with mgt := { s.mgt with coreUp := true, notUnfenced := 0 } }
  s.setFn 0 { Fn.reset with sqs := [(0, ⟨0x4000, 4, 0, 1, 1, 0⟩)], cqs := [(0, cq16 0)] }

/-- The live node with one context, in phase p, of handle 0x200000. -/
def ctx1 (p : Phase) : Ctx :=
  { handle := 0x200000, homeNode := 0x100, mapEpoch := 0, resumeAdmitted := false, model := 7, tenant := 5, endReason := 0, deterministic := false,
    lclass := 0, recovered := false, resumeDecode := false, released := false, taken := false, owner := true, phase := p, adapter := 0,
    peerNode := 0, peerHandle := 0, hseq := 0, recNode := 0x100, claimGen := 1, recKey := 0, recOffset := 0, tlogLen := 1, promptLen := 1, kvLen := 1,
    maxNew := 8, cutCount := 0, openFill := 1, tentCount := 0, tentRoot := 0, admitTime := 0, firstTime := 0, lastTime := 0, hostCq := 0,
    recoverId := 0, userTag := 9, counters := [], hasRecord := true, committed := p, committedLen := 1, log := [11], cuts := [], stepBusy := false,
    relWritten := false, layer := 0, chunkLen := 0, lookupBusy := false, handoffNode := 0, pd := 0, trailInsert := false, noLookup := false,
    selfPaused := false, autoResume := false, pausedAt := 0, pausePending := none, cancelPending := none, handoffTries := 0, unresolved := false, verifyN := 0,
    verifyTree := [], verifyDone := false, verifyCmd := none, handoffSent := 0, needCoppice := [], coppiceNode := 0, coppiceTries := 0,
    coppiceSent := 0, coppiceCmd := none, openSlot := none, tentSlot := none, ahead := [], reportedUpTo := 0, resumeWait := none,
    migrateWait := none, chunkDone := false, fillWait := false, pulled := [], pdPosted := false, cop := false, openWait := false, coppicing := false, seq := 0 }
def liveCtx (p : Phase) : State := { live.setCtx (ctx1 p) with sch := { (live.setCtx (ctx1 p)).sch with cache := [0] } }

/-- Witness of EmptyQueueLetsTimePass: an empty queue while POR_N holds the part. -/
theorem test_idle_witness :
    ({ State.reset with mgt := { State.reset.mgt with boot := ⟨true, false, true, []⟩ } } : State).pending = []
    ∧ inReset { State.reset with mgt := { State.reset.mgt with boot := ⟨true, false, true, []⟩ } } = true := by decide

/-- Witness of CommandsAreTakenInOrder: a queue of two commands. -/
theorem test_queue_witness : ({ State.reset with pending := [.tamper, .refLoss] } : State).pending <:+ [.tamper, .refLoss] := List.suffix_refl _

/-- Witness of StoresKeepMemoryCanonical: the empty memory is canonical, and so is one with a byte at address 5; addresses at either end of the range lie outside. -/
theorem test_memory_witness : Memory.wf [] = true ∧ Memory.wf [(5, 1)] = true ∧ ((4 < 5 ∨ 5 + 1 ≤ 4) ∧ (6 < 5 ∨ 5 + 1 ≤ 6)) := by decide

/-- Witness of FieldsHoldWhatIsSet: two fields of one register stand at different places. -/
theorem test_field_witness : Reg.MGT_ROLE_NODE_ID.key ≠ Reg.MGT_ROLE_ROLE.key := by decide

/-- Witness of QueuesAreCreated: the admin queue of a node in service creates each kind; number 1 is the lowest free one. -/
theorem test_create_witness :
    hostReady live Op.WQ_CREATE { cmd0 with arg0 := 0x10000, arg1 := 4 } noBad = true
    ∧ hostReady live Op.CQ_CREATE { cmd0 with arg0 := 0x10000, arg1 := 4 } noBad = true
    ∧ hostReady (live.setFn 0 { live.fn 0 with cqs := [(0, cq16 0), (1, cq16 1)] }) Op.RQ_CREATE { cmd0 with arg0 := 0x10000, arg1 := 0x10004 } noBad = true
    ∧ cqIsCommand (begun live Op.WQ_CREATE { cmd0 with arg0 := 0x10000, arg1 := 4 }) 0 0 = true
    ∧ queuesInUse (live.fn 0) < queueLimit live 0 ∧ amHas 1 (live.fn 0).sqs = false := by decide

/-- A node in service with submission queue 1, completion queue 2 and receive ring 3 beside the admin pair. -/
def liveQs : State :=
  live.setFn 0 { live.fn 0 with sqs := [(0, ⟨0x4000, 4, 0, 1, 1, 0⟩), (1, ⟨0x5000, 4, 0, 0, 0, 0⟩)], cqs := [(0, cq16 0), (2, cq16 1)], rqs := [(3, ⟨0x6000, 4, 2, 0, 0⟩)] }
/-- Witness of QueuesAreDestroyed: numbers 0, 1, 2 and 3 in turn. -/
theorem test_destroy_witness :
    hostReady liveQs Op.WQ_DESTROY cmd0 noBad = true ∧ hostReady liveQs Op.CQ_DESTROY cmd0 noBad = true
    ∧ hostReady liveQs Op.WQ_DESTROY { cmd0 with arg0 := 1 } noBad = true
    ∧ sqBusy (begun liveQs Op.WQ_DESTROY { cmd0 with arg0 := 1 }) 0 1 Op.WQ_DESTROY { cmd0 with arg0 := 1 } = false
    ∧ hostReady (live.setFn 0 { live.fn 0 with cqs := [(0, cq16 0), (2, cq16 1)] }) Op.CQ_DESTROY { cmd0 with arg0 := 2 } noBad = true
    ∧ cqNamed (begun (live.setFn 0 { live.fn 0 with cqs := [(0, cq16 0), (2, cq16 1)] }) Op.CQ_DESTROY { cmd0 with arg0 := 2 }) 0 2 Op.CQ_DESTROY { cmd0 with arg0 := 2 } = false
    ∧ hostReady liveQs Op.RQ_DESTROY { cmd0 with arg0 := 3 } noBad = true ∧ amHas 3 (liveQs.fn 0).rqs = true := by decide

/-- Witness of DoorbellsAreTaken: a tail a whole ring ahead, a head at all entries written, a finished slot, a context in DONE, and the last function of the port. -/
theorem test_doorbell_witness :
    ideOpen live = true ∧ (0x11 + 2 ^ 32 - 1 % 2 ^ 32) % 2 ^ 32 ≤ 2 ^ 4 ∧ (5 + 2 ^ 32 - 0) % 2 ^ 32 ≤ 5 - 0
    ∧ amGet 1023 ((live.setFn 63 { live.fn 63 with slots := [(1023, .done [])] }).fn 63).slots = some (.done [])
    ∧ (liveCtx .done).ctx 0x200000 = some (ctx1 .done) := by decide

/-- Witness of DoorbellsOutOfRangeAreCounted: one entry beyond a ring, one beyond what was written, an absent ring, a free slot, a slot beyond the last, and a handle that names nothing. -/
theorem test_bad_doorbell_witness :
    ideOpen live = true ∧ 2 ^ 4 < (0x12 + 2 ^ 32 - 1 % 2 ^ 32) % 2 ^ 32 ∧ 0 - 0 < (1 + 2 ^ 32 - 0) % 2 ^ 32 ∧ (amGet 3 (live.fn 0).rqs).isNone = true
    ∧ (amGet 1023 (live.fn 0).slots).isNone = true ∧ 1024 ≤ 1024 ∧ live.ctx 0 = none := by decide

/-- Witness of VectorsAndFunctionStates: function 63 with vector 31 pending, a CQ due, and virtual functions with nothing live. -/
theorem test_function_witness :
    ((live.setFn 63 { Fn.reset with msixPending := [31] }).fn 63).d3hot = false
    ∧ 0 + { cq16 0 with coalUs := 2, firstUnsig := some 0 }.coalUs * 1000 ≤ ({ live with now := 2000 } : State).now
    ∧ cleanDone live 1 = true ∧ cleanDone live 63 = true := by decide
/-- The other premise of VectorsAndFunctionStates: no virtual function has anything live after reset. -/
theorem test_function_witness_all : ∀ g, 1 ≤ g → g < 64 → cleanDone State.reset g = true := fun _ _ _ => rfl

/-- Witness of RegisterWritesReachTheirRegister: a 2-byte access and one at a hole, the 4-byte SCH_CTX_FALLOW, the 8-byte CWT_LEASE_BASE, and a covered address with no register. -/
theorem test_regwrite_witness :
    barAddr 0 0x10000000 = none ∧ barAddr 1 0x10 = none ∧ barAddr 0 0x4200304 = some 0x4200304 ∧ saAddr 0x4200304 = none ∧ (regAt 0x4200304).isSome = true
    ∧ saAddr 0x4600120 = none ∧ ((regAt 0x4600120).map fun r => r.1.width) = some 64 ∧ barAddr 0 0x4200FFC = some 0x4200FFC ∧ dwordReg 0x4200FFC = none
    ∧ 0x4200304 ∉ ownRegs := by decide +kernel

/-- Witness of FieldsAreWrittenByAccessType: a whole 4-byte write at an RW field, a W1C bit, an RWL field and another field. -/
theorem test_access_witness :
    0 ≤ Reg.SCH_CTX_FALLOW_FALLOW_US.lo ∧ Reg.SCH_CTX_FALLOW_FALLOW_US.lo + Reg.SCH_CTX_FALLOW_FALLOW_US.w ≤ 32 ∧ 0 < Reg.SCH_CTX_FALLOW_FALLOW_US.w
    ∧ regGet [] Reg.SCH_CTX_FALLOW_FALLOW_US < 2 ^ Reg.SCH_CTX_FALLOW_FALLOW_US.w ∧ Reg.SCH_CTX_FALLOW_FALLOW_US.acc = .rwl
    ∧ Reg.KEY_EVENT_TAMPER.acc = .w1c ∧ Reg.SCH_COPPICE_NODE_NODE.acc = .rw ∧ Reg.MGT_DEV_ID_PART.acc = .ro := by decide

/-- Witness of ControlWritesAct: stand 63, a target of one MiB, observer 255, no flush running, and a head of 0. -/
theorem test_control_witness :
    bit 0x80000000 31 = true ∧ bits 1 0 20 ≠ 0 ∧ (live.setR Reg.TIR_FELL_CFG_ENABLE 1).r Reg.TIR_FELL_CFG_ENABLE ≠ 0 ∧ live.tir.pass = none ∧ bit 1 0 = true
    ∧ live.r (Reg.CWT_OBS_SEL_KIND.at 4 255) ≠ bits 0x10000000 28 4 ∧ live.scb.flushing = false ∧ bit 2 1 = true
    ∧ live.r Reg.MGT_FLT_HEAD_HEAD ≤ 0 ∧ 0 ≤ live.mgt.fltTail := by decide

/-- Witness of PortWritesAct, clause by clause: a port that is up with no access and with one, an enabled window, a function to enable, the key, one ready queue, and nothing pending. -/
theorem test_portwrites_witness :
    live.r (Reg.HIF_FLEX_IND_CTL_BUSY.at 0x20 7) ≠ 1
    ∧ (live.setR (Reg.HIF_FLEX_IND_CTL_BUSY.at 0x20 7) 1).r (Reg.HIF_FLEX_IND_CTL_BUSY.at 0x20 7) ≠ 0
    ∧ winOn (live.setR (Reg.HIF_XW_CFG_ENABLE.at 0x40 63) 1) 63 = true ∧ bit 0 63 = false
    ∧ live.fr 63 Reg.HIF_FN_STATUS_CLEANING = 0 ∧ live.fr 63 Reg.HIF_ADMQ_CFG_ENABLE = 0 ∧ bit 0x80000000 31 = true ∧ pwr live ≠ 4
    ∧ sqReady (live.setFn 0 { live.fn 0 with sqs := [(0, ⟨0x4000, 4, 0, 2, 1, 0⟩)] }) 0 0 ⟨0x4000, 4, 0, 2, 1, 0⟩ = true
    ∧ live.dmaOk 0 (sqEntryAddr ⟨0x4000, 4, 0, 2, 1, 0⟩) 64 = true
    ∧ [0, 1, 2, 3].all (fun c => !causePending { live with regs := rowWrite (rwlLocked live) live.regs evtCfgRow 0 0 } c) = true := by decide

/-- The live node with port 2 in use and its two sub-ports up. -/
def livePort : State :=
  let s := live.setR (Reg.CWT_PORT_CFG_ENABLE.at 0x100 2) 1
  let s := s.setR (Reg.CWT_PORT_CFG_BREAKOUT.at 0x100 2) 1
  let s := s.setR (Reg.CWT_PORT_CFG_SUB_EN.at 0x100 2) 3
  s.setR (Reg.CWT_PORT_STATUS_UP.at 0x100 2) 3
/-- Witness of PathsNamePortsAndSubPorts: path 1 of a node on port 2 alone takes the second of its two sub-ports. -/
theorem test_paths_witness : (List.range 8).countP (fun q => bit 0xFF q && portUp livePort q) = 1 ∧ portUp livePort 2 = true
    ∧ (List.range 2).countP (fun q => bit 0xFF q && portUp livePort q) = 1 % 1 ∧ 1 < subPorts livePort 2
    ∧ (List.range 2).countP (fun j => bit (livePort.r (Reg.CWT_PORT_STATUS_UP.at 0x100 2)) j && bit (livePort.r (Reg.CWT_PORT_CFG_SUB_EN.at 0x100 2)) j) = 2
    ∧ (List.range 1).countP (fun j => bit (livePort.r (Reg.CWT_PORT_STATUS_UP.at 0x100 2)) j && bit (livePort.r (Reg.CWT_PORT_CFG_SUB_EN.at 0x100 2)) j) = 1 / 1 % 2
    ∧ bit (livePort.r (Reg.CWT_PORT_STATUS_UP.at 0x100 2)) 1 = true ∧ bit (livePort.r (Reg.CWT_PORT_CFG_SUB_EN.at 0x100 2)) 1 = true := by decide

/-- Witness of CompletionEntriesPhase: the 17th entry of a CQ of 16, which goes to slot 0 with PHASE 0 (R515). -/
theorem test_cq_entry_witness : (List.replicate 32 (1 : Byte)).length = 32 ∧ bit (leField (List.replicate 32 (2 : Byte)) 0x13 1) 0 = false
    ∧ live.dmaOk 0 (0x8000 + 32 * (16 % 2 ^ 4)) 32 = true ∧ 32 * (16 % 2 ^ 4) = 0 ∧ (16 / 2 ^ 4 + 1) % 2 = 0 := by decide

/-- Witness of SpareLaneMapping: at reset lane 8 of port 3 is the spare, lane 5 carries lane 5, no lane is retired; and a port with a retired lane. -/
theorem test_lane_witness : mapped State.reset 3 8 = 0xF ∧ mapped State.reset 3 5 = 5 ∧ retiredLane State.reset 3 = 0xF
    ∧ mapped (walkTo State.reset 3 4) 3 4 = 0xF ∧ mapped (walkTo State.reset 3 4) 3 7 = 6
    ∧ spareUsed (State.reset.setR (Reg.MGT_LANE_STATE_SPARE_USED.at 4 3) 1) 3 = true := by decide

/-- A node in service whose stand 0 runs frame 0 of task 3 on the bundle b, followed by an empty bundle, at DEPTH 2. -/
def onStand (b : Nat) : State :=
  let F : Frame := ⟨3, 0, Files.start 0, Files.start 0, [], 0, none, [], (0, 0, 0), (0, 0, 0), [], none, false, false⟩
  live.setStand 0 { Stand.reset with frames := [(0, F)], running := some 0, image := some ⟨1, 1, 15, [b, 0], []⟩ }
/-- The frame of onStand. -/
def frame0 : Frame := ⟨3, 0, Files.start 0, Files.start 0, [], 0, none, [], (0, 0, 0), (0, 0, 0), [], none, false, false⟩
/-- Witness of ScalarOperationsCompute: every operation with D 63, and with D 0, on a bundle of its own (R266, R267). -/
theorem test_scalar_witness :
    (scalarRows.all fun e => slotIssues (onStand (e.2.1 * 2 ^ 118 + 63 * 2 ^ 112)) 0 slotC e.2.1 0 frame0 (e.2.1 * 2 ^ 118 + 63 * 2 ^ 112)
      && slotIssues (onStand (e.2.1 * 2 ^ 118)) 0 slotC e.2.1 0 frame0 (e.2.1 * 2 ^ 118)) = true
    ∧ predOf frame0 0 slotC = true := by decide
/-- Witness of AddressAndPredicateOperationsCompute: every operation with a15, and with p7. -/
theorem test_address_witness :
    (addressRows.all fun e => slotIssues (onStand (e.2.1 * 2 ^ 118 + 15 * 2 ^ 112)) 0 slotC e.2.1 0 frame0 (e.2.1 * 2 ^ 118 + 15 * 2 ^ 112)) = true
    ∧ (predicateRows.all fun e => slotIssues (onStand (e.2.1 * 2 ^ 118 + 7 * 2 ^ 115)) 0 slotC e.2.1 0 frame0 (e.2.1 * 2 ^ 118 + 7 * 2 ^ 115)) = true := by decide

/-- Witness of PredicateZeroDoesNothing: p1, which a new frame reads as 0 (R246), on an operation of each slot. -/
theorem test_predicate_witness :
    slotIssues (onStand (2 ^ 125 + 2 ^ 118)) 0 slotC 1 0 frame0 (2 ^ 125 + 2 ^ 118) = true ∧ predOf frame0 (2 ^ 125 + 2 ^ 118) slotC = false
    ∧ slotIssues (onStand (2 ^ 85 + 2 ^ 82)) 0 slotM 1 0 frame0 (2 ^ 85 + 2 ^ 82) = true ∧ predOf frame0 (2 ^ 85 + 2 ^ 82) slotM = false
    ∧ slotIssues (onStand (2 ^ 53 + 2 ^ 48)) 0 slotA 1 0 frame0 (2 ^ 53 + 2 ^ 48) = true ∧ predOf frame0 (2 ^ 53 + 2 ^ 48) slotA = false
    ∧ slotIssues (onStand (2 ^ 21 + 2 ^ 16)) 0 slotV 1 0 frame0 (2 ^ 21 + 2 ^ 16) = true ∧ predOf frame0 (2 ^ 21 + 2 ^ 16) slotV = false := by decide

/-- Witness of DeckLoadsAndStores: every load and store on a bundle of its own; usable ranges at the edges of the reserved ones and of the window, and ranges just past them (R242, R243). -/
theorem test_deck_witness :
    (loadRows.all fun e => slotIssues (onStand (e.2.1 * 2 ^ 118 + 2 ^ 112)) 0 slotC e.2.1 0 frame0 (e.2.1 * 2 ^ 118 + 2 ^ 112)) = true
    ∧ (storeRows.all fun e => slotIssues (onStand (e.2.1 * 2 ^ 118)) 0 slotC e.2.1 0 frame0 (e.2.1 * 2 ^ 118)) = true
    ∧ slotIssues (onStand (0x50 * 2 ^ 118)) 0 slotC 0x50 0 frame0 (0x50 * 2 ^ 118) = true
    ∧ slotIssues (onStand (0x10 * 2 ^ 16)) 0 slotV 0x10 0 frame0 (0x10 * 2 ^ 16) = true
    ∧ slotIssues (onStand (0x11 * 2 ^ 16)) 0 slotV 0x11 0 frame0 (0x11 * 2 ^ 16) = true := by decide
theorem test_usable_witness :
    Usable 2 0xF8 8 ∧ ¬ Usable 2 0xF9 8 ∧ ¬ Usable 2 0x3FF 1 ∧ Usable 2 0x400 1 ∧ ¬ Usable 2 0x2800 1 ∧ Usable 2 0x4000 256 ∧ Usable 2 0x1FFF00 256 ∧ ¬ Usable 2 0x1FFF01 256 := by
  unfold Usable; decide

/-- Witness of BranchesHaltAndWaits: each operation on a bundle of its own, a bundle of no-ops, a reserved opcode, and tickets at the edges: 0, one beyond the last, 65 and 64 older. -/
theorem test_flow_witness :
    ([0x60, 0x61, 0x62, 0x64, 0x68, 0x69, 0x6A].all fun o => slotIssues (onStand (o * 2 ^ 118)) 0 slotC o 0 frame0 (o * 2 ^ 118)) = true
    ∧ activeSlots 0 = [] ∧ legalBundle 0 = true ∧ legalBundle (0x6F * 2 ^ 118) = false ∧ standFenced (onStand 0) 0 = false
    ∧ waitFor { frame0 with issued := (100, 0, 0) } .att 35 = .pass 3 ∧ waitFor { frame0 with issued := (100, 0, 0) } .att 101 = .unissued
    ∧ waitFor { frame0 with issued := (100, 0, 0), done := [(36, (8, 2))] } .att 36 = .pass (8 + 256 * 2) := by decide

/-- Witness of BundlesEnd: the last bundle address of an image of two bundles. -/
theorem test_bundle_end_witness : frame0.halted = none ∧ frame0.target.getD (frame0.pc + 1) < 2 := by decide

/-- Witness of VectorOperationsCompute: every operation on a bundle of its own; a usable range at the window's first bytes and one that is not. -/
theorem test_vector_witness :
    (vectorRows.all fun e => slotIssues (onStand (e.2.1 * 2 ^ 16 + 31 * 2 ^ 11)) 0 slotV e.2.1 0 frame0 (e.2.1 * 2 ^ 16 + 31 * 2 ^ 11)) = true
    ∧ ([0x0B, 0x0C, 0x0D, 0x12, 0x13].all fun o => slotIssues (onStand (o * 2 ^ 16)) 0 slotV o 0 frame0 (o * 2 ^ 16)) = true
    ∧ rangeOf 2 128 128 = .usable ∧ rangeOf 2 0x100 128 = .reserved := by decide

/-- A decode task of request 0x200000 on column 0, held by stand 0. -/
def task0 : Task :=
  ⟨1, 0x200000, 0, 0, 1, 0, 0, 0, false, [], [], [], 0, none, none, 0, some 0, false, none, false, false, false⟩
/-- onStand with that task as task 3. -/
def onTask (b : Nat) : State := { onStand b with xch := { (onStand b).xch with tasks := [(3, task0)] } }
/-- onStand with the deck bytes l at address 0 of frame 0's window. -/
def onDeck (b : Nat) (l : List Byte) : State := (onStand b).setStand 0 (((onStand b).stand 0).wr 0 0 l)
/-- A QUANT descriptor for one MXFP8 row of a dense bolt at 0x8000 into 0x4000 under job tag 0 (R255). -/
def quantDesc : List Byte :=
  [2, 2, 0, 0, 0, 0, 1, 0, 0, 0, 0, 0, 0, 0x80, 0, 0, 0, 0x40, 0, 0, 0, 0, 0, 0, 0] ++ leBytes 39 0
/-- A forward descriptor of one row over one bolt with scale 1.0, under job tag 0 (R92). -/
def attDesc1 : List Byte :=
  [1, 0, 0, 0, 1, 0, 1, 0] ++ leBytes 10 0 ++ leBytes 2 1 ++ leBytes 4 0x3F800000 ++ leBytes 8 0 ++ leBytes 4 0x8000 ++ leBytes 4 0x9000 ++ leBytes 4 0xA000 ++ leBytes 20 0
/-- Witness of EngineCommandsAreQueued: every operation on a bundle of its own; ranges usable and not; a codec descriptor that R255 accepts. -/
theorem test_engine_witness :
    (moverRows.all fun e => slotIssues (onTask (e.2.1 * 2 ^ 82)) 0 slotM e.2.1 0 frame0 (e.2.1 * 2 ^ 82)) = true
    ∧ (moverRanges (onTask 0) ((onTask 0).stand 0) 0 task0 1 0 0 0) = none
    ∧ (tileRows.all fun e => slotIssues (onStand (e.2.1 * 2 ^ 48)) 0 slotA e.2.1 0 frame0 (e.2.1 * 2 ^ 48)) = true
    ∧ ((tileUses 2 4 31 0 0 0).all fun r => rangeOf 2 r.1 r.2 == .usable) = true ∧ ((tileUses 2 8 0 0 0 32).any fun r => rangeOf 2 r.1 r.2 != .usable) = true := by decide
theorem test_codec_witness :
    slotIssues (onDeck (2 * 2 ^ 48) quantDesc) 0 slotA 2 0 frame0 (2 * 2 ^ 48) = true
    ∧ cdcCheck ((onDeck (2 * 2 ^ 48) quantDesc).stand 0) 0 0 (memReadN ((onDeck (2 * 2 ^ 48) quantDesc).stand 0).deck 0 64) = .accept
    ∧ slotIssues (onDeck (2 ^ 48) attDesc1) 0 slotA 1 0 frame0 (2 ^ 48) = true
    ∧ attCheck ((onDeck (2 ^ 48) attDesc1).stand 0) 0 (memReadN ((onDeck (2 ^ 48) attDesc1).stand 0).deck 0 64) = .accept := by decide

/-- Witness of SavedRegistersComeBack: a frame at the last bundle address. -/
theorem test_save_witness : ({ frame0 with pc := 16383 } : Frame).pc < 2 ^ 14 := by decide

/-- Witness of FramesSwitchAndTasksStart: frame 0 ready with none running; frame 1 running and held by a wait, with frame 0 ready; and one ready task for stand 0. -/
def twoFrames : Stand :=
  { Stand.reset with frames := [(0, frame0), (1, { frame0 with pc := 1, issued := (1, 0, 0), files := ⟨[(2, 1)], [], [(0, true)], []⟩ })], running := some 1,
                     image := some ⟨1, 1, 15, [0, 0x68 * 2 ^ 118 + 2 * 2 ^ 106, 0], []⟩ }
theorem test_switch_witness :
    (let S := { twoFrames with running := none, last := 3 }
     amGet ((S.last + 1 + 0) % 4) S.frames = some frame0 ∧ frameHeld S frame0 = false)
    ∧ frameHeld twoFrames { frame0 with pc := 1, issued := (1, 0, 0), files := ⟨[(2, 1)], [], [(0, true)], []⟩ } = true
    ∧ (1 + 1 + 2) % 4 = 0 ∧ frameHeld twoFrames frame0 = false := by decide
def onePlace : State :=
  let s := live.setStand 0 { Stand.reset with image := some ⟨1, 1, 15, [0], [0x80000000, 0x80000000]⟩ }
  { s with xch := { s.xch with tasks := [(3, { task0 with stand := none })] } }
theorem test_place_witness :
    onePlace.xch.layers = [] ∧ noStand onePlace = false ∧ readyTasks onePlace = [(3, { task0 with stand := none })]
    ∧ standFor onePlace { task0 with stand := none } = some (0, false) ∧ amGet 0 (onePlace.stand 0).frames = none ∧ bit 0x80000000 31 = true := by decide

/-- Witness of EngineCommandsComplete: stand 0 with a mover, a tile and a codec command of frame 0, on stand 0 and task 3. -/
def busyStand : State :=
  let c (b : CmdBody) (x : Bool) : EngCmd := ⟨0, 1, 0, b, 0, x, 0, [], 0, [], false⟩
  let s := onTask 0
  s.setStand 0 { s.stand 0 with mov := [c (.mover 1 0x4000 0 0x1000 64) false], att := [c (.tile 4 0 0 0 0) true], cdc := [c (.codec (1 :: leBytes 63 0)) false] }
theorem test_done_witness :
    amGet 0 (busyStand.stand 0).frames = some frame0 ∧ amGet 3 busyStand.xch.tasks = some task0 ∧ (extStop busyStand (busyStand.stand 0) (.mover 0 0 1) 0x1000 64 false).isNone = true
    ∧ ((busyStand.stand 0).mov.find? (fun x => x.frame == 0)).isSome = true ∧ ((busyStand.stand 0).att.find? (fun x => x.frame == 0)).isSome = true
    ∧ ((busyStand.stand 0).cdc.find? (fun x => x.frame == 0)).isSome = true
    ∧ (attReady busyStand { busyStand.stand 0 with att := [⟨0, 1, 0, .tile 4 0 0 0 0, 0, false, 0, [], 0, [], false⟩] }).length = 1 := by decide

/-- Witness of RequestCommandsAreGated: a node with a context in DONE, one it does not own, and one that is not there. -/
theorem test_gated_witness :
    (gatedRows.all fun e => hostReady (liveCtx .done) e.2 { cmd0 with handle := 0x200000 } noBad && hostReady live e.2 { cmd0 with handle := 0x200000 } noBad) = true
    ∧ ((begun live Op.PAUSE { cmd0 with handle := 0x200000 }).ctx 0x200000).isNone = true
    ∧ (begun (liveCtx .done) Op.PAUSE { cmd0 with handle := 0x200000 }).ctx 0x200000 = some (ctx1 .done) := by decide

/-- The live node with a request in decode that waits for nothing, and one paused, and one with a tentative tail. -/
def rq (p : Phase) : State := liveCtx p
def cmdH : Cmd := { cmd0 with handle := 0x200000 }
/-- Witness of RequestsAreReadPausedResumed, clause by clause. -/
theorem test_requests_witness :
    hostReady (rq .failed) Op.CTX_READ cmdH noBad = true
    ∧ ([Phase.admitted, .prefill, .decode, .paused, .handoff].all fun p =>
        hostReady (rq p) Op.PAUSE cmdH noBad && hostReady (rq p) Op.RESUME cmdH noBad && hostReady (rq p) Op.PARK cmdH noBad && hostReady (rq p) Op.ROLLBACK cmdH noBad) = true
    ∧ dropStep (begun (rq .decode) Op.PAUSE cmdH) 0x200000 = begun (rq .decode) Op.PAUSE cmdH
    ∧ fellingNow (begun (rq .paused) Op.RESUME cmdH) (ctx1 .paused) = false ∧ mayResume (begun (rq .paused) Op.RESUME cmdH) (ctx1 .paused) = true ∧ mustCoppice (ctx1 .paused) = false := by decide

/-- The commands of RequestCommandsCommit: for the request of liveCtx, to receiver 0x101. -/
def cmdC : Cmd := { cmd0 with handle := 0x200000, arg0 := 0x101 }
/-- A RECOVER or CLAIM with RECOVER_ID 5. -/
def cmdR : Cmd := { cmd0 with arg0 := 0x101, arg3 := 5 }
/-- A request in ADMITTED with a prompt of one token that no step has taken up. -/
def ctxA : Ctx := { ctx1 .admitted with kvLen := 0, openFill := 0 }
/-- Witness of RequestCommandsCommit, clause by clause. -/
theorem test_commits_witness :
    hostReady (liveCtx .decode) Op.TOKEN { cmdC with arg1 := 1 } noBad = true ∧ awaitsToken (begun (liveCtx .decode) Op.TOKEN { cmdC with arg1 := 1 }) (ctx1 .decode) = true
    ∧ hostReady (liveCtx .decode) Op.CANCEL { cmdC with arg0 := 0 } noBad = true ∧ dropStep (begun (liveCtx .decode) Op.CANCEL { cmdC with arg0 := 0 }) 0x200000 = begun (liveCtx .decode) Op.CANCEL { cmdC with arg0 := 0 }
    ∧ hostReady (liveCtx .decode) Op.MIGRATE cmdC noBad = true ∧ moveBusy (liveCtx .decode) 0x200000 = false
    ∧ hostReady (liveCtx .decode) Op.RECOVER cmdR noBad = true ∧ hostReady (liveCtx .decode) Op.CLAIM cmdR noBad = true
    ∧ roleEnables live [1, 2, 4] = true ∧ live.changing = false
    ∧ commitBusy (live.setCtx ctxA) 0x200000 = false ∧ cqHeld (live.setCtx ctxA) ctxA = false ∧ (live.setCtx ctxA).ctx 0x200000 = some ctxA := by decide

/-- A paused request of liveCtx, parked and its record in host memory. -/
def parkedX : State :=
  let s := (live.setR Reg.KEY_STATUS_STATE 1).wr (hostXA 0) (leBytes 0x11C 0 ++ leBytes 4 0x01000000)
  { s with sch := { s.sch with spill := [(0, ⟨1, ctx1 .paused, 0x01000000, leBytes 320 0, s.scb.mram.wrapEpoch, false⟩)] } }
set_option maxRecDepth 8000 in
/-- Witness of RequestsReturnAndVerify: the gates of VERIFY and COMMIT and the tree and path of three nodes. -/
theorem test_verify_witness :
    hostReady (liveCtx .decode) Op.VERIFY { cmd0 with handle := 0x200000, arg0 := 3, descAddr := 0x1000, descLen := 64 } noBad = true
    ∧ verifyRole live = true ∧ treeOk 3 [0xFF, 0, 0] = true ∧ treeOk 3 [0xFF, 2, 0] = false ∧ pathOk [0xFF, 0, 0] [0, 2] = true ∧ pathOk [0xFF, 0, 1] [0, 2] = false
    ∧ hostReady parkedX Op.UNPARK { cmd0 with arg0 := 0x01000000 } noBad = true ∧ keyUp parkedX = true ∧ parkedX.ctx 0x200000 = none
    ∧ leField (memReadN parkedX.mem (hostXA (spillAddr parkedX 0)) 320) 0x11C 4 = 0x01000000 ∧ (allocCtx parkedX).isSome = true ∧ adpThere parkedX 0 = true := by decide

/-- The descriptor of model 7: one layer, two query heads, one KV head, dimension 64, BF16. -/
def model7 : List Byte := leBytes 2 7 ++ leBytes 2 1 ++ leBytes 2 2 ++ leBytes 1 1 ++ leBytes 1 0 ++ leBytes 1 1 ++ leBytes 1 1 ++ leBytes 2 0 ++ leBytes 4 0 ++ leBytes 4 0x3F800000 ++ leBytes 12 0
/-- The live node with that descriptor in host memory, an admission in class 0, and fills and released indexes of index 1. -/
def admState : State :=
  let s := live.wr (hostXA 0x1000) model7
  { s with sch := { s.sch with queues := [(0, [⟨cmd0, leBytes 4 1 ++ leBytes 60 0, 0, false⟩])], filling := [1] } }
def cmdMod : Cmd := { cmd0 with descAddr := 0x1000, descLen := 32 }
set_option maxRecDepth 8000 in
/-- Witness of ModelsAndAdmissionsAreTaken: the gates of each command and of the scan. -/
theorem test_admission_witness :
    hostReady admState Op.MODEL_REG cmdMod noBad = true ∧ modelOk 7 (modelOfDesc model7) model7 = true ∧ hostReady live Op.MODEL_DEREG { cmd0 with arg0 := 9 } noBad = true
    ∧ hostReady live Op.ADMIT { cmd0 with descAddr := 0x1000, descLen := 64 } noBad = true ∧ admitQueued live < admitMax live
    ∧ ((List.range 8).find? fun c => !(admitQueue admState c).isEmpty && gates admState c) = some 0 ∧ (allocCtx admState).isSome = true
    ∧ admState.dmaOk 0 0 4 = true ∧ (cacheInsert admState 1).isSome = true ∧ (live.setR Reg.SCH_PAUSE_CTL_AUTO 0).r Reg.SCH_PAUSE_CTL_AUTO = 0 := by decide

/-- A cache-role node with one pool of one group of four slots, slot 0 in use. -/
def pool1 : Pool := { model := 7, format := 1, hdim := 0, layers := 1, kvHeads := 8, tier := 1, slices := 4, bases := List.replicate 8 0x1000, spare := [],
                      groups := [⟨{ IdPool.reset with fresh := 1 }, [(0, ⟨true, false, 1, 5, ⟨0, 0, 0⟩, 0, 1⟩)]⟩] }
def cacheNode : State :=
  let s := live.setR Reg.MGT_ROLE_ROLE 3
  { s with tir := { s.tir with pools := [(1, pool1)] }, now := 10 }
def slot10 : SlotName := ⟨1, 0, 0, 1⟩
set_option maxRecDepth 8000 in
/-- Witness of HomesKeepTheirSlots: a slot name that fits, an absent pool, a stale ring count, a full and a free group, and the gates of FREE and CUT_POOL. -/
theorem test_homes_witness :
    (findSlot cacheNode slot10).isSome = true ∧ (findSlot cacheNode { slot10 with ring := 2 }).isNone = true ∧ (amGet 9 cacheNode.tir.pools).isNone = true
    ∧ ((pool1.groups.getD 0 ⟨IdPool.reset, []⟩).ids.alloc 4 10).isSome = true ∧ ((pool1.groups.getD 0 ⟨IdPool.reset, []⟩).ids.alloc 1 10).isNone = true
    ∧ cacheNode.role ≠ 4 ∧ live.role = 4 ∧ (1 : Nat) ≠ live.nodeId
    ∧ hostReady cacheNode Op.FREE { cmd0 with arg0 := 1, arg1 := 0, arg2 := 1 } noBad = true := by decide

/-- A request in phase p with one local cut, RESIDENT in slot 0 of this node. -/
def ctxC (p : Phase) : Ctx := { ctx1 p with cuts := [⟨.resident, false, false, true, 0x100, 0, 0, 1⟩], cutCount := 1 }
def stC (p : Phase) : State := { live.setCtx (ctxC p) with sch := { (live.setCtx (ctxC p)).sch with cache := [0] } }
def cmdM : Cmd := { cmd0 with handle := 0x200000, arg1 := 1, arg2 := 0x10101 }
/-- A move of that cut under way. -/
def moveC (st : MoveStage) : Move := { handle := 0x200000, cut := 0, node := 0x101, pool := 1, tries := 0, pd := none, group := 0, slot := 0, ring := 1, old := ⟨.resident, false, false, true, 0x100, 0, 0, 1⟩, stage := st, deadline := 0, fell := false, job := false }
set_option maxRecDepth 8000 in
/-- Witness of OwnersMoveAndFellCuts: a request with a local cut, gates of the commands, and moves at each stage. -/
theorem test_owner_witness :
    hostReady (stC .decode) Op.MOVE cmdM noBad = true ∧ (stC .decode).ctx 0x200000 = some (ctxC .decode)
    ∧ hostReady (stC .paused) Op.FELL { cmdM with arg0 := 1, arg1 := 0, arg2 := 0 } noBad = true ∧ fellable (stC .paused) (ctxC .paused) 1 (fun _ => true) = [0] ∧ resuming (ctxC .paused) = false
    ∧ hostReady (stC .paused) Op.FELL_CUT { cmdM with arg1 := 0, arg2 := 0 } noBad = true ∧ findMove (stC .paused) 0x200000 0 = none
    ∧ (List.range 1).find? (cutToPlace (stC .paused) (ctxC .paused)) = some 0 ∧ readPd (stC .paused) 0 = none
    ∧ (moveC .reserving).stage = .reserving ∧ passPick (stC .decode) = none := by decide

/-- A request in PAUSED that waits for the coppicing of cut 0 at node 0x102, for a command, with a stall that began at 0. -/
def ctxK : Ctx := { ctx1 .paused with needCoppice := [0], coppiceNode := 0x102, coppiceCmd := some (Op.RESUME, cmd0), coppicing := true }
def stK (now : Nat) : State := { live.setCtx ctxK with sch := { (live.setCtx ctxK).sch with cache := [0] }, now := now, tir := { live.tir with stalls := [⟨0x200000, 2, 0, false, [2]⟩] } }
set_option maxRecDepth 8000 in
/-- Witness of CoppicingAndStallsGoOn, clause by clause. -/
theorem test_coppice_witness :
    (stK 0).ctx 0x200000 = some ctxK ∧ ctxK.coppiceSent + handoffTmo (stK 0) ≤ 10 ^ 12 ∧ 0 < handoffRetry (stK 0) ∧ (ctx1 .paused).coppicing = false ∧ (stallEnd (stK 0) 0x200000).ctx 0x200000 = some { ctxK with counters := listMod 6 (fun v => satAdd 32 v 0) [] }
    ∧ roleEnables live [1, 4] = true ∧ roleEnables (live.setR Reg.MGT_ROLE_ROLE 3) [1, 4] = false ∧ (live.tir.copJobs.find? fun j => j.msg.record == ⟨0, 0, 0⟩) = none := by decide

/-- A sender that owns a request in HANDOFF to node 0x101, one that has released it, and a receiver that has taken it. -/
def ctxS : Ctx := { ctx1 .handoff with peerNode := 0x101, peerHandle := 0x200005, hseq := 1 }
def ctxD : Ctx := { ctxS with owner := false, released := true }
def ctxT : Ctx := { ctxS with owner := false, taken := true, openFill := 0 }
def stH (x : Ctx) : State := { live.setCtx x with sch := { (live.setCtx x).sch with cache := [0] }, now := 10 ^ 12 }
/-- The same node in generation role, which takes messages from other nodes. -/
def genH (x : Ctx) : State := (stH x).setR Reg.MGT_ROLE_ROLE 2
def handS : HandMsg := ⟨0x101, 0x200000, 1, 0x200005⟩
set_option maxRecDepth 8000 in
/-- Witness of HandoffsAdvance: each context is found, each sender is heard, and every wait has run its time with and without tries left. -/
theorem test_handoff_witness :
    (genH ctxS).ctx 0x200000 = some ctxS ∧ (genH ctxD).ctx 0x200000 = some ctxD ∧ receiverOf (genH ctxT) 0x101 0x200005 = some ctxT ∧ receiverOf (genH ctxS) 0x101 7 = none
    ∧ (genH ctxS).role ≠ 4 ∧ roleEnables (genH ctxS) [2, 4] = true ∧ commitBusy (genH ctxS) 0x200000 = false ∧ waited (genH ctxS) ctxS = true ∧ 0 < handoffRetry (genH ctxS)
    ∧ epochView (genH ctxS) 0 = .current ∧ epochView (genH ctxS) 2 = .ahead ∧ epochView (genH ctxS) 65534 = .old ∧ adpThere (genH ctxS) 0 = true ∧ (allocCtx (genH ctxS)).isSome = true := by decide

/-- The live node in generation role with an index key, a probe and a request's lookup in flight, and one job of each use. -/
def trlS : State :=
  let s := ((live.setR Reg.MGT_ROLE_ROLE 2).setR Reg.TRL_BLAZE_CFG_ENABLE 1).setR Reg.TRL_TREE_CFG_ENABLE 1
  let s := s.setCtx { ctx1 .decode with tenant := 0 }
  let j : HoldJob := { use := .publish, handle := 0x200000, cmd := some (Op.BLAZE_PUBLISH, cmd0), cuts := [], answers := [none, none], block := 0, count := 1, node := 0, set := 0, refused := (0, 0) }
  { s with sch := { s.sch with cache := [0] },
           trl := { s.trl with key := some (leBytes 16 7), lookups := [(1, ⟨.probe cmd0, 0, [], 3, 0, 0⟩), (2, ⟨.request 0x200000, 0, [], 3, 0, 0⟩)], jobs := [(1, j), (2, { j with use := .attach })] } }
set_option maxRecDepth 8000 in
/-- Witness of TrailCommandsSearchAndHold: the gates of the commands, the lookups and the jobs. -/
theorem test_trail_witness :
    hostReady trlS Op.LOOKUP { cmd0 with descAddr := 0x1000, descLen := 4, arg0 := 0x10007, arg3 := 1 } noBad = true ∧ trailRole trlS = true
    ∧ hostReady trlS Op.BLAZE_RETIRE { cmd0 with arg0 := 5, arg1 := 7 } noBad = true ∧ hostReady trlS Op.TRAIL_REMOVE { cmd0 with arg0 := 5 } noBad = true ∧ rootOf trlS 5 = 0
    ∧ hostReady trlS Op.BLAZE_PUBLISH { cmd0 with handle := 0x200000 } noBad = true ∧ hostReady trlS Op.TRAIL_INSERT { cmd0 with handle := 0x200000 } noBad = true
    ∧ (trlS.ctx 0x200000).isSome = true ∧ treeBusy trlS 0 = false ∧ trlS.r Reg.TRL_EQ_CFG_ENABLE = 0 ∧ (amGet (0x100000 / 2 ^ 20) trlS.trl.jobs).isSome = true := by decide

/-- A cache-role node that is a data member, with one delta in flight, one lock and one unit in reconstruction. -/
def jobP : UnitJob := { unit := 3, par := false, lost := 8, use := .resync, asked := [1, 2], answers := [], tries := 0, begun := true, result := none }
def poolN : State :=
  let s := (live.setR Reg.MGT_ROLE_ROLE 3).setR Reg.TIR_CP_GROUP_D_EN 1
  { s with cp := { s.cp with deltas := [(4, ⟨[3], 0⟩)], locks := [(1, ⟨3, 9, false, true, 5⟩)], jobs := [jobP] }, now := 10 ^ 10 }
set_option maxRecDepth 8000 in
/-- Witness of PoolDeltasLocksAndRebuilds: deltas, locks and jobs, and the gates of the commands. -/
theorem test_pool_witness :
    amHas 4 poolN.cp.deltas = true ∧ dataMember poolN = true ∧ dataMember live = false ∧ poolN.r Reg.TIR_CP_GROUP_DEGRADED ≠ 1 ∧ (amGet 1 poolN.cp.locks).isSome = true
    ∧ hostReady poolN Op.REBUILD cmd0 noBad = true ∧ hostReady poolN Op.PAR_REBUILD cmd0 noBad = true ∧ hostReady poolN Op.RESYNC cmd0 noBad = true ∧ roleEnables poolN [3] = true ∧ roleEnables live [3] = false
    ∧ poolN.cp.rebuild.isNone = true ∧ poolN.cp.sweptAt / 10 ^ 9 < poolN.now / 10 ^ 9 ∧ pageTotal poolN = 0
    ∧ hostReady live Op.SEAL { cmd0 with arg0 := 0x1000, arg1 := 1, descAddr := 0x2000, descLen := 256 } noBad = true := by decide

/-- A map descriptor: epoch, node, role, flags, successor and tag. -/
def mapDesc (e n r f su : Nat) : List Byte := leBytes 2 e ++ leBytes 2 n ++ leBytes 1 r ++ leBytes 1 f ++ leBytes 2 su ++ leBytes 8 5 ++ leBytes 16 0
def mapCmd : Cmd := { cmd0 with descAddr := 0x1000, descLen := 32 }
/-- The live node with a map descriptor in host memory, and with a role change under way. -/
def mapSt (l : List Byte) : State := (live.setR Reg.MGT_MAP_EPOCH_JOINED 1).wr (hostXA 0x1000) l
def chg : State := (live.setR Reg.MGT_ROLE_CHANGING 1).setR Reg.MGT_ROLE_ROLE_NEXT 2
set_option maxRecDepth 8000 in
/-- Witness of MapsAndRolesChange: the gates of each command with and without a change under way. -/
theorem test_map_witness :
    hostReady (mapSt (mapDesc 1 0x100 4 0 7)) Op.MAP_INSTALL mapCmd noBad = true ∧ leField (cmdDesc (mapSt (mapDesc 1 0x100 4 0 7)) mapCmd) 0 2 = 1
    ∧ hostReady live Op.ROLE_BEGIN { cmd0 with arg0 := 2 } noBad = true ∧ rollOrActivation live = false ∧ live.changing = false ∧ chg.changing = true
    ∧ hostReady chg Op.ROLE_ABORT cmd0 noBad = true ∧ chg.r Reg.MGT_ROLE_DRAIN_QUIESCED = 0 ∧ hostReady chg Op.ROLE_COMMIT cmd0 noBad = true ∧ drainCond chg 7 = false
    ∧ hostReady live Op.PROG_LOAD { cmd0 with arg0 := 0, arg1 := 1 } noBad = true ∧ xaSpace 0 = 0 ∧ spaceOk live 0 128 = true := by decide

/-- A live node with a running column test that is due, and one with a lane under calibration. -/
def colSt : State := { live with now := 5, mgt := { live.mgt with colTest := some ⟨1, true, 5, cmd0⟩ } }
def calSt : State := { live with now := 20000000, mgt := { live.mgt with laneCal := some ⟨2, 3, 0, cmd0⟩ } }
def rollSt : State := { live with now := 9, mgt := { live.mgt with roll := some ⟨1, 0, 9, cmd0⟩ } }
set_option maxRecDepth 8000 in
/-- Witness of RollsTestsAndFences: the gates of each command and event. -/
theorem test_roll_witness :
    hostReady live Op.ROLL_COLUMN { cmd0 with arg0 := 7, arg2 := 100 } noBad = true ∧ rollOrActivation live = false ∧ live.changing = false ∧ live.mgt.trans = none ∧ live.mgt.colTest = none
    ∧ drained live 7 = true ∧ rollSt.mgt.roll = some ⟨1, 0, 9, cmd0⟩ ∧ live.mgt.roll = none
    ∧ hostReady live Op.SELFTEST { cmd0 with arg0 := 0x70 } noBad = true ∧ hostReady live Op.SELFTEST { cmd0 with arg0 := 0x871 } noBad = true ∧ live.mgt.laneCal = none ∧ spareUsed live 7 = false
    ∧ colSt.mgt.colTest = some ⟨1, true, 5, cmd0⟩ ∧ calSt.mgt.laneCal = some ⟨2, 3, 0, cmd0⟩
    ∧ hostReady live Op.STAND_UNFENCE { cmd0 with arg0 := 63 } noBad = true ∧ live.mgt.thermalTrip = false ∧ (gatedMask live).getLsbD 63 = false ∧ underTest live 63 = false ∧ live.mgt.lasting.getLsbD 63 = false
    ∧ hostReady (live.setR (Reg.MGT_LANE_STATE_RETIRED.at 4 7) 8) Op.LANE_RESTORE { cmd0 with arg0 := 0x807 } noBad = true
    ∧ hostReady live Op.STACK_QUIESCE { cmd0 with arg0 := 7 } noBad = true := by decide

/-- The live node with bank 1 staged, and one whose core restarts for an activation. -/
def fwSt : State := { live with mgt := { live.mgt with staged := some 1 } }
def actSt : State := { live with now := 2000000000, mgt := { live.mgt with coreUp := false, activating := some cmd0, activateStart := 0 } }
set_option maxRecDepth 8000 in
/-- Witness of FirmwareBanksChange: the gates of the three commands and of the restarts. -/
theorem test_fw_witness :
    hostReady live Op.FW_STAGE cmd0 noBad = true ∧ live.dmaOk 0 0 0 = true ∧ live.mgt.staged = none ∧ hostReady fwSt Op.FW_ACTIVATE cmd0 noBad = true ∧ fwSt.changing = false
    ∧ rollOrActivation fwSt = false ∧ fwSt.mgt.staged = some 1 ∧ live.r Reg.MGT_FW_STATUS_TRIAL ≠ 1
    ∧ hostReady (live.setR Reg.MGT_FW_STATUS_TRIAL 1) Op.FW_CONFIRM cmd0 noBad = true ∧ (live.setR Reg.MGT_FW_STATUS_TRIAL 1).r Reg.MGT_FW_STATUS_TRIAL = 1
    ∧ actSt.mgt.coreUp = false ∧ actSt.r Reg.MGT_BOOT_STATUS_READY ≠ 0 ∧ actSt.mgt.activating = some cmd0 ∧ live.mgt.coreUp = true := by decide

/-- The live node with a flexible port 0 in EXCHANGE mode, its link up, and table slot 3 loaded. -/
def cdcS : State :=
  let s := (live.setR (Reg.HIF_FLEX_CFG_MODE.at 0x20 0) 1).setR (Reg.HIF_FLEX_STATUS_LINK_UP.at 0x20 0) 1
  let s := s.wr (hostXA 0x1000) (leBytes 6 0x1000 ++ leBytes 2 0x101 ++ leBytes 4 9 ++ leBytes 16 0 ++ leBytes 1 1 ++ leBytes 35 0)
  { s with cdc := { s.cdc with adps := [(2, { word := 0x200007, state := .current, base := 0, size := 1, layers := [], pins := 0 })] } }
set_option maxRecDepth 8000 in
/-- Witness of StreamCommandsBegin: the gates of each command, a stream at node 0x101, an adapter of version 2 that is current, one older word and one newer. -/
theorem test_stream_witness :
    hostReady cdcS Op.EXPAND { cmd0 with descAddr := 0x1000, descLen := 64 } noBad = true ∧ expandRole cdcS = true ∧ expandRole (cdcS.setR Reg.MGT_ROLE_ROLE 3) = false
    ∧ expandDescOk (cmdDesc cdcS { cmd0 with descAddr := 0x1000, descLen := 64 }) = true ∧ leField (cmdDesc cdcS { cmd0 with descAddr := 0x1000, descLen := 64 }) 6 2 = 0x101
    ∧ portLive cdcS 0 = true ∧ portLive live 0 = false ∧ adpResident cdcS 5 = none ∧ (adpResident cdcS 0x200007).isSome = true
    ∧ hostReady cdcS Op.TABLE_LOAD { cmd0 with arg0 := 3, arg1 := 1, arg2 := 0x101 * 2 ^ 48, arg3 := 9 } noBad = true ∧ cdcS.changing = false ∧ (cdcS.setR Reg.MGT_ROLE_CHANGING 1).changing = true
    ∧ hostReady cdcS Op.TABLE_FREE { cmd0 with arg0 := 3 } noBad = true ∧ amGet 3 cdcS.cdc.tables = none
    ∧ hostReady cdcS Op.ADAPTER_LOAD { cmd0 with descAddr := 0x1000, descLen := 16, arg0 := 0x300007 } noBad = true ∧ adpResident cdcS 0x300007 = none ∧ adpResident cdcS 0x100007 = none
    ∧ (adpCurrent cdcS 7).isSome = true ∧ hostReady cdcS Op.ADAPTER_RETIRE { cmd0 with arg0 := 7 } noBad = true ∧ adpCurrent cdcS 8 = none := by decide

/-- A live node in generation role with queue pair 1, READY, on die, of node 0x101, with 128 units either way. -/
def qp1 : Qp := { qpOfDesc (List.replicate 128 0) 0x1000001 0 with state := .ready, mode := 7, peerNode := 0x101, peerQp := 9, sqLog2 := 4, rcvWindow := 128, rcvLimit := 128, sndLimit := 128, cq := 1 }
def qpS (q : Qp) : State :=
  let s := (live.setR Reg.MGT_ROLE_ROLE 2).setR Reg.CWT_REGION_COUNT_COUNT 16
  let s := s.setFn 0 { s.fn 0 with cqs := [(0, cq16 0), (1, cq16 1)] }
  { s with now := 10 ^ 12, cwt := { s.cwt with qps := [(1, q)], resident := [1] } }
/-- A packet of that queue pair's peer. -/
def pkt1 : Packet :=
  { port := 2, sec := none, sizesOk := true, ce := false, flags := 0, srcNode := 0x101, dstNode := 0x100, dstQp := 0x1000001, srcQp := 9, psn := 0, ackPsn := 0, epoch := 0,
    msg := 0, ext := [], payload := [], tag := [] }
/-- A packet of that peer awaiting its acknowledgement, and a request that has not started. -/
def tx1 : TxPkt :=
  { psn := 5, n := 1, op := Cw.write, flags := 0, ord := 0, off := 0, len := 64, units := 2, attempt := 0, path := 3, first := 0, last := 0, doublings := 0, due := false, dueAt := 0,
    sacked := false, creditWait := false, rnrAt := none, rnrSeen := false, got := [], atom := 0 }
def wr1 (op : Nat) : SendWr :=
  { ord := 0, time := 0, wr := leBytes 1 op ++ leBytes 63 0, fwd := none, fwdFlags := 0, fwdExt := [], data := [], started := false, next := 0, allSent := false, sentAny := false,
    bytes := 0, failed := none, result := 0, msg := 0, fwdOf := none }
/-- A region of 4,096 bytes at extended address 0x10000, open to every operation. -/
def reg1 : Region :=
  { key := 0x1000002, closing := false, closedAt := 0, access := 0x1F, kind := 0, base := 0x10000, length := 4096, tenant := 0, fn := 0, snagAddr := 0, dirKey := 0, dirIndex := 0,
    userTag := 0, openWrs := [], dereg := [] }
/-- A queue-pair descriptor of completion queue 1, one outstanding read, 2^4 send entries at 0x5000. -/
def qpDesc : List Byte := leBytes 10 0 ++ leBytes 1 1 ++ leBytes 1 4 ++ leBytes 14 0 ++ leBytes 2 1 ++ leBytes 4 0 ++ leBytes 8 (hostXA 0x5000) ++ leBytes 24 0
/-- A region descriptor of 64 lines at extended address 0. -/
def regDesc : List Byte := leBytes 5 0 ++ leBytes 1 3 ++ leBytes 10 0 ++ leBytes 8 4096 ++ leBytes 104 0
set_option maxRecDepth 8000 in
/-- Witness of QueuePairsRegionsAndTriggers: the gates of each command, queue pairs in each state, a choker that a trigger reaches, and a region that is closing. -/
theorem test_qp_witness :
    hostReady ((qpS qp1).wr (hostXA 0x1000) qpDesc) Op.QP_CREATE { cmd0 with descAddr := 0x1000, descLen := 64 } noBad = true
    ∧ qpDescOk (qpOfDesc qpDesc 0 0) 0 (leField qpDesc 0 4) (leField qpDesc 4 1) = true ∧ ((qpS qp1).cwt.ids.alloc (qpCount (qpS qp1)) 0).isSome = true ∧ (qpS qp1).cwt.resident.length < qpDie (qpS qp1)
    ∧ hostReady (qpS qp1) Op.QP_MODIFY { cmd0 with arg0 := 0x1000001, arg1 := 2 } noBad = true ∧ (qpS qp1).qp 0x1000001 = some (1, qp1) ∧ (qpS qp1).qp 7 = none
    ∧ hostReady (qpS { qp1 with state := .reset }) Op.QP_MODIFY { cmd0 with arg0 := 0x1000001, arg1 := 1, descAddr := 0x1000, descLen := 32 } noBad = true
    ∧ (qpS { qp1 with state := .error }).qp 0x1000001 = some (1, { qp1 with state := .error }) ∧ (QpState.ready, 0) ∉ qpMoves
    ∧ hostReady (qpS { qp1 with state := .reset }) Op.QP_DESTROY { cmd0 with arg0 := 0x1000001 } noBad = true
    ∧ hostReady (qpS qp1) Op.CHOKER_CANCEL { cmd0 with arg0 := 5 } noBad = true ∧ (qpS qp1).cwt.chokers = []
    ∧ hostReady (qpS qp1) Op.TRIG_ADD { cmd0 with arg0 := 4, arg1 := 9 } noBad = true ∧ pulls 9 9 = true ∧ pulls 8 9 = false
    ∧ hostReady (qpS qp1) Op.TRIG_SET { cmd0 with arg0 := 4, arg1 := 9 } noBad = true
    ∧ hostReady ((qpS qp1).wr (hostXA 0x1000) regDesc) Op.REGION_REG { cmd0 with descAddr := 0x1000, descLen := 128 } regionBad = true
    ∧ ((qpS qp1).rm.ids.alloc (regionCount (qpS qp1)) 0).isSome = true ∧ regionUnprotected (qpS qp1) 1 reg1 = false
    ∧ hostReady (qpS qp1) Op.REGION_DEREG { cmd0 with arg0 := 0x1000002 } noBad = true ∧ regionAt (qpS qp1) 0x1000002 = none
    ∧ reg1.closedAt + max 1000 ((qpS qp1).r Reg.CWT_TIMER2_GIVEUP_US) * 1000 ≤ (qpS qp1).now ∧ (qpS qp1).cwt.fetching.contains 1 = false := by decide

/-- A shaper descriptor: 10 Mb/s, a burst of 9,216 bytes, one unit of refill. -/
def shpDesc : List Byte := leBytes 4 0 ++ leBytes 4 10 ++ leBytes 4 9216 ++ leBytes 2 1 ++ leBytes 2 0
set_option maxRecDepth 8000 in
/-- Witness of ShapersLeasesAndHotLines: the gates of each command, and lease, line and sample times before and after their terms. -/
theorem test_shaper_witness :
    hostReady (live.setR Reg.CWT_SHP_CFG_COUNT 16) Op.SHAPER_SET { cmd0 with arg0 := 3, descAddr := 0x1000, descLen := 16 } noBad = true ∧ shaperDescOk shpDesc = true
    ∧ 3 < min 65536 ((live.setR Reg.CWT_SHP_CFG_COUNT 16).r Reg.CWT_SHP_CFG_COUNT) ∧ shaperDescOk (leBytes 16 0) = false
    ∧ live.cwt.shpWheel = [] ∧ live.cwt.wheel = [] ∧ (300000 : Nat) / 262144 * 262144 ≤ 300000 ∧ shpEligible (qpS qp1) qp1 = true
    ∧ hostReady live Op.LEASE_BREAK { cmd0 with arg0 := 0x101 } noBad = true ∧ live.rm.leases = []
    ∧ max 10 (live.r Reg.CWT_LEASE_CFG_TERM_MS) * 1000000 ≤ (qpS qp1).now ∧ max 1 (live.r Reg.CWT_HOT_CFG_COOL_US) * 1000 ≤ (qpS qp1).now
    ∧ (qpS qp1).now % 1000 = 0 ∧ (qpS qp1).cwt.obsAt ≠ some (10 ^ 12) := by decide

/-- The live node with the Keyhouse OPERATIONAL and its table of 16 keys, and key 3 live. -/
def keyE : KeyEnt := { live := true, kind := 1, tenant := 5, serial := 1, secret := List.replicate 32 7, print := [], epoch := 0, nonce := [], bad := false }
def keyS : State :=
  let s := (live.setR Reg.KEY_STATUS_STATE 1).setR Reg.KEY_TBL_COUNT_COUNT 16
  { s with kh := { s.kh with keys := [(3, keyE)], filling := [3, 4] } }
set_option maxRecDepth 16000 in
/-- Witness of KeyhouseServesAndZeroizes: the gates of each command, key 3 live and key 4 not, and entropy failures at each time. -/
theorem test_keyhouse_witness :
    hostReady keyS Op.KEY_IMPORT { cmd0 with descAddr := 0x1000, descLen := 6307 } noBad = true ∧ keyS.r Reg.KEY_STATUS_STATE = 1 ∧ live.r Reg.KEY_STATUS_STATE ≠ 1
    ∧ hostReady keyS Op.KEY_DESTROY { cmd0 with arg0 := 3 } noBad = true ∧ 4 < keyCount keyS ∧ keyLive keyS 3 = some keyE ∧ keyLive keyS 4 = none
    ∧ hostReady keyS Op.KEY_INFO { cmd0 with arg0 := 4 } noBad = true ∧ hostReady keyS Op.KEY_GET_KEM { cmd0 with descAddr := 0x1000, descLen := 1568 } noBad = true ∧ keyS.dmaOk 0 0x1000 1568 = true
    ∧ hostReady keyS Op.KEY_SALT cmd0 noBad = true ∧ hostReady keyS Op.KEY_ZEROIZE cmd0 noBad = true ∧ hostReady keyS Op.KEY_SELFTEST cmd0 noBad = true
    ∧ keyS.kh.healthAt = none ∧ keyS.kh.filling.contains 3 = true ∧ keyS.kh.filling.contains 5 = false ∧ keyS.kh.resident.length < 65536 := by decide

set_option maxRecDepth 16000 in
/-- Witness of PowerResetsAndStartup: PWR_STATE into the same state, into one that fails and one that may be entered; a transition at each target; each cause's state; start-up steps that may run and one that may not; power-fail flushes. -/
theorem test_power_witness :
    hostReady live Op.PWR_STATE cmd0 noBad = true ∧ live.r Reg.PWR_STATE_STATE = 0 ∧ hostReady live Op.PWR_STATE { cmd0 with arg0 := 1 } noBad = true ∧ pwrFails live 1 0 ≠ 0 ∧ pwrFails live 1 0x0F = 0
    ∧ live.mgt.trans = none ∧ (live.fn 0).d3hot = false ∧ (live.setR Reg.PWR_STATE_STATE 4).r Reg.PWR_STATE_STATE = 4 ∧ (live.setR Reg.PWR_STATE_STATE 3).r Reg.PWR_STATE_STATE = 3
    ∧ (1 ∉ State.reset.mgt.boot.done) ∧ State.reset.mgt.boot.por = false ∧ State.reset.mgt.boot.perst = false ∧ State.reset.mgt.boot.refOk = true ∧ stepNeeds 1 = [] ∧ stepNeeds 11 = [6, 7, 8, 9, 10]
    ∧ live.r Reg.MGT_BOOT_STATUS_RECOVERY ≠ 1 ∧ bit 1 (live.r Reg.MGT_FW_STATUS_ACTIVE_BANK) = true ∧ live.scb.pfailing = false ∧ live.scb.flushing = false := by decide

/-- The live node with window 2 enabled at port 15, two slots of 64 KiB, for model 7. -/
def winS : State :=
  let s := (live.setR (Reg.HIF_XW_CFG_ENABLE.at 0x40 2) 1).setR (Reg.HIF_XW_CFG_PORT.at 0x40 2) 15
  let s := s.setR (Reg.HIF_XW_CFG_MODEL.at 0x40 2) 7
  { s with sch := { s.sch with models := [(7, { layers := 1, qHeads := 2, kvHeads := 1, hdim := 0, format := 0, groups := 2, sinks := 0, window := 0, smScale := 0, end0 := 0, end1 := 0 })] } }
/-- A slot use with one entry that has its result, and with one that has none. -/
def useR (r : Option (Nat × Nat)) (fences : List Nat) : SlotUse :=
  { slot := 1, seq := 1, hdr := leBytes 256 0, bad := false, entries := [⟨0x200000, 0, 1, 0, r⟩], fences := fences, weightFail := false, counted := false }
set_option maxRecDepth 16000 in
/-- Witness of WindowsExchange: a window that is on and one that is not, bounds of its slots, the next doorbell, a repeated one and one far off, reads of the ring, a release that waits, and slot uses with and without results and fences. -/
theorem test_window_witness :
    winOn winS 2 = true ∧ winPort winS 2 = 15 ∧ winOn live 2 = false ∧ 0x10000 + 4 ≤ 0x10000 + winSlots winS 2 * winSlotSize winS 2
    ∧ (let v := 2 ^ 32 + 1; v < 2 ^ 64 ∧ bits v 8 24 = 0 ∧ bits v 32 32 = ((winS.win 2).dcount % 2 ^ 32 + 1) % 2 ^ 32 ∧ bits v 0 8 = ((winS.win 2).dcount + 1) % winSlots winS 2)
    ∧ amHas 1 (winS.win 2).uses = false ∧ amGet (winS.r (Reg.HIF_XW_CFG_MODEL.at 0x40 2)) live.sch.models = none ∧ (amGet (winS.r (Reg.HIF_XW_CFG_MODEL.at 0x40 2)) winS.sch.models).isSome = true
    ∧ ((winS.win 2).dcount % 2 ^ 32 + 2 ^ 32 - 0) % 2 ^ 32 < 2 ^ 31 ∧ 2 ^ 31 ≤ ((winS.win 2).dcount % 2 ^ 32 + 2 ^ 32 - 5) % 2 ^ 32
    ∧ (winS.win 2).waiting = [] ∧ (winS.win 2).rcount - (winS.win 2).rhead < winRing winS 2 ∧ winS.r (Reg.HIF_XW_REL_REL_DEST.at 0x40 2) = 0
    ∧ (∀ e ∈ (useR (some (1, 0)) []).entries, e.result ≠ none ∧ e.result ≠ some (0, 0)) ∧ (∃ e ∈ (useR none []).entries, e.result = none) ∧ leField (useR none []).hdr 0x18 8 = 0 := by decide

set_option maxRecDepth 16000 in
/-- Witness of SendersSendAndRetry: a request that has not started with and without a route, nothing to send, a packet whose timer has run and one whose has not, a credit request, an ACK that waits, and a path hold. -/
theorem test_sender_witness :
    (qpS qp1).qpAt 1 = some qp1 ∧ (qpS qp1).rm.mcasts = [] ∧ (qpS qp1).cwt.resident.contains 1 = true ∧ qp1.stream = []
    ∧ ({ qp1 with stream := [wr1 Cw.write] }.stream.find? fun w => !w.started) = some (wr1 Cw.write) ∧ wrOp (wr1 Cw.write).wr ≠ Cw.mcast ∧ routeOk (qpS qp1) 0x101 = false
    ∧ wrOp (wr1 Cw.mcast).wr = Cw.mcast ∧ mcastBad (qpS qp1) (leNat ((wrOperands (wr1 Cw.mcast).wr).take 2)) 0 = true ∧ fenceHeld (qpS qp1) qp1 (wr1 Cw.mcast) = false
    ∧ egrChoose (qpS qp1) 2 = none ∧ (qpS qp1).r Reg.CWT_SHP_CFG_ENABLE = 0
    ∧ ([tx1].find? fun t => t.psn == 5 && !t.due && !t.sacked && !t.creditWait && t.rnrAt.isNone) = some tx1 ∧ tx1.last + rtoNs (qpS qp1) qp1 * 2 ^ tx1.doublings ≤ (qpS qp1).now
    ∧ live.now < tx1.last + rtoNs live qp1 * 2 ^ tx1.doublings ∧ qp1.unaTime + max 1000 ((qpS qp1).r Reg.CWT_TIMER2_GIVEUP_US) * 1000 ≤ (qpS qp1).now
    ∧ qp1.toAckAt + max 1 ((qpS qp1).r Reg.CWT_TIMER_ACK_DELAY_100NS) * 100 ≤ (qpS qp1).now ∧ live.now < qp1.toAckAt + max 1 (live.r Reg.CWT_TIMER_ACK_DELAY_100NS) * 100
    ∧ amGet (32 * 0x101 + 3) (qpS qp1).cwt.holds = none := by decide

/-- The packets of that queue pair's peer in the form of each opcode: WRITE and MCAST of no bytes, a READ_REQ of 8 bytes, a fetch-and-add of a doubleword, a REDUCE of 16 bytes. -/
def pktR : Packet := { pkt1 with ext := leBytes 4 0x1000002 ++ leBytes 4 8 ++ leBytes 16 0 }
def pktA : Packet := { pkt1 with ext := leBytes 4 0x1000002 ++ leBytes 1 1 ++ leBytes 1 2 ++ leBytes 26 0 }
/-- The node with region 2 open to them. -/
def regS : State := let s := qpS qp1; { s with rm := { s.rm with regions := [(2, reg1)] } }
set_option maxRecDepth 16000 in
/-- Witness of ReceiversPerform: packets that are heard for a queue pair that is there and for one that is not, their forms, credit and PSN at each side of their bounds, and accesses that every check passes. -/
theorem test_receiver_witness :
    pkt1.port < 8 ∧ regS.r (Reg.CWT_PORT_CFG_MACSEC.at 0x100 2) = 0 ∧ pkt1.sizesOk = true ∧ pkt1.dstNode = regS.nodeId ∧ epochView regS pkt1.epoch = .current ∧ regS.role ≠ 4
    ∧ regS.r Reg.MGT_ROLE_DRAIN_QUIESCED ≠ 1 ∧ regS.r Reg.KEY_STATUS_STATE ≠ 2 ∧ regS.cwt.resident.contains (pkt1.dstQp % 2 ^ 24) = true ∧ regS.qp pkt1.dstQp = some (1, qp1) ∧ regS.qp 0x2000001 = none
    ∧ bit qp1.mode 1 = true ∧ bit qp1.mode 2 = true ∧ pkFormOk Cw.send pkt1 = true ∧ pkFormOk Cw.write { pkt1 with ext := leBytes 4 0x1000002 ++ leBytes 12 0 } = true ∧ pkFormOk Cw.readReq pktR = true
    ∧ pkFormOk Cw.mcast { pkt1 with ext := leBytes 16 0 } = true ∧ pkFormOk Cw.atomic pktA = true
    ∧ isDup (reachedQp pkt1 qp1) 0 = false ∧ isDup (reachedQp pkt1 qp1) 0xFFFFFFFF = true ∧ serGe (reachedQp pkt1 qp1).rcvLimit 1 = true ∧ serGe { qp1 with rcvLimit := 0 }.rcvLimit 1 = false
    ∧ serDist 0 qp1.rcvNxt < 1024 ∧ 1024 ≤ serDist 1024 qp1.rcvNxt ∧ openPacket (reached regS pkt1 1 qp1) (reachedQp pkt1 qp1) Cw.send pkt1 = some []
    ∧ (match checkRange regS 0x1000002 (askOf qp1 1 Cw.write { pkt1 with ext := leBytes 4 0x1000002 ++ leBytes 12 0 } 0 0 (some 0)) with | .ok e => e.1 == 2 | .error _ => false) = true
    ∧ doubleLost regS 0x10000 8 = false ∧ memWait regS 0x10000 8 true = none ∧ checkLines regS 2 reg1 (askOf qp1 1 Cw.atomic pktA 0 8 none) 0 8 false = none := by decide

set_option maxRecDepth 16000 in
/-- Witness of AnswersAndFramesArrive: the answers' forms, an address and a neighbour that are not this node's, and a frame of each length. -/
theorem test_answer_witness :
    pkFormOk Cw.ack { pkt1 with ext := leBytes 40 0 } = true ∧ pkFormOk Cw.nak { pkt1 with ext := leBytes 8 1 } = true ∧ pkFormOk Cw.creditReq pkt1 = true ∧ pkFormOk Cw.readResp pkt1 = true
    ∧ pkFormOk Cw.atomicResp { pkt1 with ext := leBytes 16 0 } = true ∧ (takeAckPsn (reached regS pkt1 1 qp1) 1 0).qpAt 1 = some (reachedQp pkt1 qp1)
    ∧ leField (leBytes 8 1) 0 1 = 1 ∧ leField (leBytes 8 9) 0 1 = 9 ∧ (reachedQp pkt1 qp1).unacked = [] ∧ amGet 5 regS.xch.reads = none ∧ amGet 5 regS.sch.commits = none ∧ subUp regS 2 0 = false
    ∧ (leBytes 10 0).length < 18 := by decide
/-- A frame that is too long for AnswersAndFramesArrive. -/
theorem test_long_frame_witness : ∃ f : List Byte, 9270 < f.length := ⟨List.replicate 9271 0, by rw [List.length_replicate]; exact Nat.lt_succ_self 9270⟩

/-- The live node in cache role with a step-layer of one remote shard of home 0x101 in merge slot 3, half of whose shards are in. -/
def shard0 (sv : Serve) (arr : Bool) (i : Nat) : Shard := { index := i, home := 0x101, cuts := [], sent := 0, serve := sv, backedUp := false, denied := false, arrived := arr, retryAt := 0, part := none }
def layer0 (sv : Serve) : StepLayer :=
  { handle := 0x200000, layer := 2, kind := 1, window := 0, slot := 0, entry := 0, row0 := 0, pos0 := 0, count := 1, formats := 0, tree := [], stage := .attending, merge := some 3, det := false,
    shards := [shard0 sv false 0, shard0 .home true 1], kvTasks := [] }
def splitS (sv : Serve) : State :=
  let s := stH (ctx1 .decode)
  { s with sch := { s.sch with models := winS.sch.models },
           xch := { s.xch with layers := [(0x200000, layer0 sv)], fetched := [(0x103, 5)],
                               merges := [(3, { use := 4, layer := 2, handle := 0x200000, rows := 2, d := 64, det := false, expect := 2, arrived := [1] })] } }
def att0 : AttendMsg :=
  { src := 0x100, epoch := 0, handle := 1, tenant := 5, model := 7, layer := 0, mergeKey := 0, mergeSlot := 0, mergeUse := 1, qPos0 := 0, window := 0, sinks := 0, shard := 0, nodes := 1, formats := 0,
    backup := false, backupFor := 0x102, smScale := 0, cuts := [], depth := [], q := [] }
set_option maxRecDepth 16000 in
/-- Witness of SplitServesAndFallsBack: ATTENDs of each epoch, statuses of a use, of another and of a shard that is in, the shard at home, as backup and lost, a straggler with and without credit, and a fetched mark that ends. -/
theorem test_split_witness :
    takesFrom (splitS .home) 0x100 = true ∧ epochView (splitS .home) 0 = .current ∧ epochView (splitS .home) 2 = .ahead ∧ epochView (splitS .home) 65534 = .old
    ∧ roleEnables (splitS .home) [3, 4] = true ∧ roleEnables ((splitS .home).setR Reg.MGT_ROLE_ROLE 2) [3, 4] = false ∧ attendStale (splitS .home) att0 = false
    ∧ attendStale (splitS .home) { att0 with cuts := [⟨0, 9, 0, 1⟩] } = true ∧ classCapped (splitS .home) 0 = false ∧ (amGet 7 (splitS .home).sch.models).isSome = true
    ∧ roleEnables ((splitS .home).setR Reg.MGT_ROLE_ROLE 3) [3] = true
    ∧ amGet 9 (splitS .home).xch.merges = none ∧ (shardOf (splitS .home) 3 0).isSome = true ∧ (shardOf (splitS .backup) 3 0).isSome = true
    ∧ (shard0 .home false 0).sent + max 5 ((splitS .home).r Reg.SCH_SPLIT_CFG_STRAGGLER_US) * 1000 ≤ (splitS .home).now
    ∧ ((layer0 .home).shards.filter fun q => decide (q.serve ≠ .here)).length ≤ 2 * ((layer0 .home).shards.filter fun q => decide (q.serve ≠ .here)).countP (fun q => q.arrived)
    ∧ live.layer 0x200000 = none ∧ amGet 0x103 (splitS .home).xch.fetched = some 5
    ∧ ((layer0 .lost).shards.any fun sh => sh.index == 0 && decide (sh.serve = .lost)) = true ∧ ((layer0 .lost).shards.any fun sh => sh.index == 0 && decide (sh.retryAt ≤ (splitS .lost).now)) = true := by decide

set_option maxRecDepth 16000 in
/-- Witness of ScaleBookPowerAndHealth: times at each side of a boundary and a wear day, a flush under way, temperatures in each band, points that exist and one that does not, and PAR_REBUILD's gates. -/
theorem test_scalebook_witness :
    live.now < nextBoundary live ∧ nextBoundary live ≤ (qpS qp1).now ∧ live.scb.flushing = false ∧ { live.scb with flushing := true }.flushing = true ∧ live.scb.pfailing = false
    ∧ live.now < live.scb.dayTime + 86400000000000 ∧ live.scb.dayTime + 86400000000000 ≤ 10 ^ 14
    ∧ (hottest (sixteen [])).1 < 840 ∧ 840 ≤ (hottest (sixteen [850])).1 ∧ (hottest (sixteen [850])).1 < 880 ∧ 880 ≤ (hottest (sixteen [-8, 900])).1 ∧ toSigned 16 (live.r Reg.PWR_THERM_TJ) < 840
    ∧ 880 ≤ toSigned 16 ((live.setR Reg.PWR_THERM_TJ 890).r Reg.PWR_THERM_TJ) ∧ errPointOk (.corrected 7 1) = true ∧ errPointOk (.stack 8 none) = false
    ∧ hostReady (live.setR Reg.MGT_ROLE_ROLE 3) Op.PAR_REBUILD cmd0 noBad = true ∧ roleEnables (live.setR Reg.MGT_ROLE_ROLE 3) [3] = true ∧ live.cp.rebuild = none ∧ parSize live < unitBytes := by decide

set_option maxRecDepth 16000 in
/-- Witness of PortsAndLinksChange: sub-ports that exist and one that does not, a module that is there and one that is not, and flexible ports that are up, down and off. -/
theorem test_ports_witness :
    (1 : Nat) < subPorts livePort 2 ∧ subPorts livePort 2 ≤ 2 ∧ livePort.r (ofPort 2 Reg.CWT_PORT_STATUS_LASER_PRES) ≠ 1
    ∧ (livePort.setR (ofPort 2 Reg.CWT_PORT_STATUS_LASER_PRES) 1).r (ofPort 2 Reg.CWT_PORT_STATUS_LASER_PRES) = 1 ∧ amGet 2 live.scb.mram.laserSerial = none
    ∧ cdcS.r (ofFlex 0 Reg.HIF_FLEX_STATUS_LINK_UP) = 1 ∧ live.r (ofFlex 0 Reg.HIF_FLEX_STATUS_LINK_UP) ≠ 1 ∧ cdcS.r (ofFlex 0 Reg.HIF_FLEX_CFG_MODE) = 1 ∧ live.r (ofFlex 0 Reg.HIF_FLEX_CFG_MODE) = 0
    ∧ (amGetD 0 (0, 0) (qpS qp1).cwt.flexDown).1 + 1000000000 ≤ (qpS qp1).now := by decide

/-- The live node with the Keyhouse OPERATIONAL, way 0 ready, and session 5 finished. -/
def spdmS : State := { keyS with kh := { keyS.kh with spdm := [(0, .ready)], sessions := [(5, ⟨true, 0⟩), (6, ⟨false, 0⟩)] } }
set_option maxRecDepth 16000 in
/-- Witness of SidebandAndSpdmAnswer: each stage of a way, sessions finished and not, streams that exist, and ranges of the sideband at their bounds. -/
theorem test_sideband_witness :
    spdmStage spdmS 0 = .ready ∧ spdmStage spdmS 1 = .start ∧ spdmS.r Reg.KEY_STATUS_STATE = 1 ∧ live.r Reg.KEY_STATUS_STATE ≠ 1 ∧ spdmLater 0 (.spdmFinish 0 6 true) = true ∧ spdmLater 1 (.spdmChallenge 1 0) = true
    ∧ amGet 5 spdmS.kh.sessions = some ⟨true, 0⟩ ∧ amGet 7 spdmS.kh.sessions = none ∧ spdmS.mgt.coreUp = true ∧ State.reset.mgt.coreUp = false
    ∧ (sidebandRanges.any fun r => decide (r.1 ≤ 0xFFC) && decide (0xFFC + 4 ≤ r.2 + 1)) = true ∧ (sidebandRanges.any fun r => decide (r.1 ≤ 0x1000) && decide (0x1000 + 4 ≤ r.2 + 1)) = false := by decide

/-! ### Further clauses, each with a state that meets its hypotheses -/

/-- A sender whose handoff ended unresolved. -/
def ctxU : Ctx := { ctx1 .handoff with owner := false, released := true, unresolved := true }
/-- More of DoorbellsAreTaken: that sender, and a queue pair of function 0 whose ring takes 16 entries, all posted. -/
theorem test_doorbell_more :
    (live.setCtx ctxU).ctx 0x200000 = some ctxU ∧ (bits ctxU.hostCq 16 6 = 63 ∨ 0 = 0) ∧ (qpS qp1).qp (bits (16 * 2 ^ 32 + 0x1000001) 0 32) = some (1, qp1) ∧ qp1.fn = 0
    ∧ serDist (bits (16 * 2 ^ 32 + 0x1000001) 32 32) qp1.sqHead ≤ 2 ^ qp1.sqLog2 := by decide

/-- More of VectorsAndFunctionStates: vector 31 pending in D3hot, vector 0 not pending, and a CQ with nothing held for its timer. -/
theorem test_function_more :
    0 ∉ (live.fn 0).msixPending ∧ 31 ∈ ((live.setFn 63 { Fn.reset with msixPending := [31], d3hot := true }).fn 63).msixPending
    ∧ ((live.setFn 63 { Fn.reset with msixPending := [31], d3hot := true }).fn 63).d3hot = true ∧ (cq16 0).firstUnsig = none ∧ amGet 0 (live.fn 0).cqs = some (cq16 0) := by decide

/-- More of ControlWritesAct: no copy and no sample at this time, and a copy at this time. -/
theorem test_control_more :
    live.cwt.obsSnapAt ≠ some live.now ∧ live.cwt.obsAt ≠ some live.now ∧ { live.cwt with obsSnapAt := some live.now }.obsSnapAt = some live.now := by decide

/-- A write of HIF_XW_CFG that opens a window of two slots of 64 KiB at port 15 for model 7, and of HIF_EVT_CFG that enables its cause 0. -/
def winWord : Nat := 2 ^ 63 + 15 * 2 ^ 56 + 2 * 2 ^ 48 + 2 ^ 32 + 7
def evtWord : Nat := 2 ^ (eventCfg 0).1.lo
/-- The live node with model 7 and a pending cause 0 that is not enabled. -/
def portS : State := { live with sch := { live.sch with models := [(7, { layers := 1, qHeads := 2, kvHeads := 1, hdim := 0, format := 0, groups := 2, sinks := 0, window := 0, smScale := 0, end0 := 0, end1 := 0 })] } }
/-- More of PortWritesAct: an access that is busy, a port that is enabled and one that is not, windows that fit, do not, may open and may not, an enabled function, and no queue ready. -/
theorem test_portwrites_more :
    (live.setR (Reg.HIF_FLEX_IND_CTL_BUSY.at 0x20 7) 1).r (Reg.HIF_FLEX_IND_CTL_BUSY.at 0x20 7) = 1 ∧ live.r (Reg.HIF_FLEX_IND_CTL_BUSY.at 0x20 7) = 0
    ∧ amGetD 7 0 live.cwt.indAt + 50000000 ≤ (qpS qp1).now ∧ live.now < amGetD 7 0 live.cwt.indAt + 50000000
    ∧ live.r (Reg.CWT_PORT_CFG_ENABLE.at 0x100 7) ≠ 1 ∧ livePort.r (Reg.CWT_PORT_CFG_ENABLE.at 0x100 2) = 1
    ∧ winOn portS 63 = false ∧ bit winWord 63 = true ∧ 0x10000 + min 64 (max 2 (bits winWord 48 8)) * (max 1 (bits winWord 32 16) * 65536) ≤ 0x10000000
    ∧ ¬ 0x10000 + min 64 (max 2 (bits (2 ^ 56 - 1) 48 8)) * (max 1 (bits (2 ^ 56 - 1) 32 16) * 65536) ≤ 0x10000000
    ∧ bits winWord 0 16 ≠ 0 ∧ amHas (bits winWord 0 16) portS.sch.models = true ∧ amHas (bits winWord 0 16) live.sch.models = false
    ∧ winPort (portS.setR (Reg.HIF_XW_CFG_PORT.at 0x40 63) (bits winWord 56 4)) 63 = 15
    ∧ (live.setR (Reg.HIF_ADMQ_CFG_ENABLE.ofFn 63) 1).fr 63 Reg.HIF_ADMQ_CFG_ENABLE = 1
    ∧ (let s := live.setR Reg.SCH_CTX_EVENT_ORPHAN 1; s.r (eventCfg 0).1 = 0 ∧ regGet (rowWrite (rwlLocked s) s.regs evtCfgRow 0 evtWord) (eventCfg 0).1 = 1 ∧ causePending { s with regs := rowWrite (rwlLocked s) s.regs evtCfgRow 0 evtWord } 0 = true)
    ∧ ((List.range 64).all fun f => (live.fn f).sqs.all fun e => !sqReady live f e.1 e.2) = true := by decide

/-- More of BranchesHaltAndWaits: a wait whose bundle has already issued a command counts by what was issued before it. -/
theorem test_flow_more :
    slotIssues (let s := onStand (0x68 * 2 ^ 118); s.setStand 0 { s.stand 0 with frames := [(0, { frame0 with slotsRun := [slotM], issued := (2, 0, 0), before := (1, 0, 0) })] }) 0 slotC 0x68 0
      { frame0 with slotsRun := [slotM], issued := (2, 0, 0), before := (1, 0, 0) } (0x68 * 2 ^ 118) = true
    ∧ ({ frame0 with slotsRun := [slotM], issued := (2, 0, 0), before := (1, 0, 0) } : Frame).slotsRun ≠ [] := by decide

/-- A request that an automatic resume is bringing back. -/
def ctxR : Ctx := { ctx1 .paused with resumeWait := some (0, none) }
/-- More of RequestsAreReadPausedResumed: a paused request on its way back, one with a cut in FELLING, a role that runs no decode, a free spill slot under an OPERATIONAL Keyhouse, and a request with a tail. -/
theorem test_requests_more :
    resuming ctxR = true ∧ resuming (ctx1 .paused) = false ∧ fellingNow live (ctxC .paused) = false
    ∧ fellingNow live { ctxC .paused with cuts := [⟨.felling, false, false, true, 0x100, 0, 0, 1⟩] } = true
    ∧ mayResume (live.setR Reg.MGT_ROLE_ROLE 3) { ctx1 .paused with resumeDecode := true } = false ∧ keyUp parkedX = true ∧ outstanding (begun (rq .paused) Op.PARK cmdH) 0x200000 = false
    ∧ ((parkedX.setR Reg.SCH_SPILL_SLOTS_SLOTS 4).sch.spillIds.alloc 4 0).isSome = true ∧ verifying (ctx1 .decode) = false ∧ verifyRole live = true ∧ { ctx1 .decode with tentCount := 3 }.tentCount ≠ 0 := by decide

/-- More of RequestsReturnAndVerify: a slot whose adapter is absent and one whose record does not match. -/
theorem test_verify_more :
    adpThere parkedX 0x200007 = false ∧ ((amGet 0 parkedX.sch.spill).map fun sp => (sp.busy, sp.ring)) = some (false, 1) ∧ bits 0x01000000 24 8 = 1
    ∧ leField (memReadN live.mem (hostXA (spillAddr live 0)) 320) 0x11C 4 ≠ 0x01000000 := by decide

/-- More of ModelsAndAdmissionsAreTaken: a pool of model 7 whose layout is not that of the descriptor, and a fill that no context set waits for. -/
theorem test_admission_more :
    (∃ e ∈ cacheNode.tir.pools, e.2.model = 7 ∧ ¬ (e.2.format = (modelOfDesc model7).format ∧ e.2.hdim = (modelOfDesc model7).hdim ∧ e.2.layers = (modelOfDesc model7).layers ∧ e.2.kvHeads = (modelOfDesc model7).kvHeads))
    ∧ amGet 7 portS.sch.models ≠ some (modelOfDesc model7) ∧ admState.sch.filling.contains 1 = true ∧ amGet 1 admState.sch.ctxs = none := by decide

/-- The cache-role node in a fleet of its own, and the slot in use. -/
def homeMsgs : List HomeMsg :=
  [.reserve ⟨0x101, 5, 1, ⟨0, 0, 0⟩, 8, 1⟩, .moveOut 0x101 slot10 ⟨0, 0, 0⟩ 0 1, .confirm 0x101 slot10, .free 0x101 5 0 slot10, .hold 0x101 5 slot10, .lease slot10 ⟨.resident, false, false, false, 0x100, 1, 0, 1⟩,
   .free 0x101 5 0 { slot10 with pool := 9 }, .hold 0x101 5 { slot10 with ring := 2 }]
set_option maxRecDepth 8000 in
/-- More of HomesKeepTheirSlots: a home that nothing keeps from each message, a role that is none, a lease that has run out, a unit that holds a FREE up, and pools that can be declared anew. -/
theorem test_homes_more :
    (homeMsgs.all fun m => isHome cacheNode m && !doubleLost cacheNode (homeRange cacheNode m).1 (homeRange cacheNode m).2 && (decide ((homeRange cacheNode m).2 = 0) || (memTrouble cacheNode (homeRange cacheNode m).1 (homeRange cacheNode m).2).isNone)
      && (homeBlocked cacheNode m).isEmpty && !cacheNode.cp.held.contains (.home m)) = true
    ∧ roleEnables (live.setR Reg.MGT_ROLE_ROLE 2) [3, 4] = false ∧ ((5 : Nat) ≤ cacheNode.now) ∧ ((amGet 0 (pool1.groups.getD 0 ⟨IdPool.reset, []⟩).slots).map (·.reserved)) = some true
    ∧ newDeltas cacheNode (unstage cacheNode none slot10) = [] ∧ cacheNode.changing = false ∧ poolIdle cacheNode pool1 = false ∧ sameDesc pool1 pool1 = true
    ∧ sameDesc pool1 { pool1 with slices := 5 } = false ∧ poolIdle cacheNode { pool1 with groups := [] } = true := by decide
/-- A data member whose slot table lies in protected area 0, with unit 0 locked: a FREE of slot 0 waits. -/
def homeLocked : State :=
  let s := ((cacheNode.setR Reg.TIR_CP_GROUP_D_EN 1).setR (Reg.TIR_CP_AREA_SIZE_2M.at 16 0) 1)
  { s with cp := { s.cp with locks := [(1, ⟨0, 9, true, false, 10 ^ 12⟩)] } }
set_option maxRecDepth 8000 in
/-- The clause of HomesKeepTheirSlots on a FREE that a unit holds up. -/
theorem test_homes_held :
    isHome homeLocked (.free 0x101 5 0 slot10) = true ∧ homeBlocked homeLocked (.free 0x101 5 0 slot10) ≠ [] ∧ doubleLost homeLocked (homeRange homeLocked (.free 0x101 5 0 slot10)).1 16 = false
    ∧ memTrouble homeLocked (homeRange homeLocked (.free 0x101 5 0 slot10)).1 16 = none := by decide

/-- A stand with a mover store of code 2, one of a count that is no multiple of 64, and one that is at its tail; a QUANT descriptor. -/
def busyStand2 : State :=
  let c (b : CmdBody) (x : Bool) : EngCmd := ⟨0, 1, 0, b, 0, x, 0, [], 0, [], false⟩
  let s := onTask 0
  s.setStand 0 { s.stand 0 with mov := [c (.mover 2 0x4000 0 0x1000 64) false], cdc := [c (.codec quantDesc) false] }
/-- More of EngineCommandsComplete: a store that nothing stops, counts out of range, a codec command with every tile issued, and one frame that runs. -/
theorem test_done_more :
    (let u := passSegments busyStand2 0 0 (segmentsLeft busyStand2);
     (extStop u (u.stand 0) (.mover 0 0 1) 0x1000 64 true).isNone = true ∧ (amGet 0 (u.stand 0).frames).isSome = true ∧ newDeltas u (putBytes u 0x1000 []) = [])
    ∧ 63 % 64 ≠ 0 ∧ 0x400000 < 0x400040
    ∧ (let V := (cdcPass busyStand2 0 0 (cdcTilesLeft busyStand2 0)).stand 0;
       (V.cdc.find? (fun x => x.frame == 0)).isSome = true ∧ leField quantDesc 0 1 ≠ 1)
    ∧ standFenced busyStand2 0 = false ∧ (∀ e ∈ (busyStand2.stand 0).frames, e.2.withdrawing = false) := by decide

/-- A felling pass with a target, one with a pick out, and a request it may pick: paused long ago with a cut to fell. -/
def passS (p : FellPass) : State := { (stC .paused).setR Reg.TIR_FELL_CFG_EXEMPT 0 with now := 10 ^ 15, tir := { (stC .paused).tir with pass := some p } }
/-- A move of a job in each stage for the request of stC, and one whose grace has ended. -/
def moveS (st : MoveStage) (loc : Bool) : Move := { moveC st with old := ⟨.resident, false, false, loc, 0x100, 3, 0, 1⟩ }
def stM (st : MoveStage) (loc : Bool) : State := { stC .decode with tir := { (stC .decode).tir with moves := [moveS st loc] } }
/-- A cut of pool 1 at another node, shared; no home of this node. -/
def ctxF : Ctx := { ctxC .decode with cuts := [⟨.felling, true, false, false, 0x101, 1, 0, 1⟩] }
set_option maxRecDepth 8000 in
/-- More of OwnersMoveAndFellCuts: passes in each state, an answered reservation, a copy to another node, an expired grace time, and a FELLING entry. -/
theorem test_owner_more :
    pickBusy (passS ⟨100, 0, 0x200000, 0, 0, [], []⟩) ⟨100, 0, 0x200000, 0, 0, [], []⟩ = false ∧ pickBusy (passS ⟨100, 0, 0, 0, 0, [3], [3]⟩) ⟨100, 0, 0, 0, 0, [3], [3]⟩ = true
    ∧ passPick (passS ⟨100, 0, 0, 0, 0, [], []⟩) = some (ctxC .paused) ∧ (passS ⟨100, 0, 0, 0, 0, [], []⟩).r Reg.TIR_FELL_CFG_MODE ≠ 1
    ∧ ((stM .reserving true).tir.moves.find? fun m => m.handle == 0x200000 && m.cut == 0 && decide (m.stage = .reserving) && m.pool == 1) = some (moveS .reserving true)
    ∧ findMove (stM .reserving true) 0x200000 0 = none ∧ heldByOthers (stM .reserving true) (ctxC .decode) 0 = false ∧ homedAt ((ctxC .decode).cut 0) 0x101 1 = false
    ∧ findMove (stM .copying true) 0x200000 0 = some (moveS .copying true) ∧ (stM .copying true).req 0x200000 = some (ctxC .decode)
    ∧ (match copyMove (stM .copying true) (ctxC .decode) (moveS .copying true) [] with | .done U => decide (U = stM .copying true) | _ => false) = true ∧ newDeltas (stM .copying true) (stM .copying true) = []
    ∧ (stM .grace false).tir.moves.find? (fun m => m.handle == 0x200000 && m.cut == 0 && decide (m.stage = .grace) && decide (m.deadline ≤ (stM .grace false).now)) = some (moveS .grace false)
    ∧ (moveS .grace true).old.isLocal = true ∧ (ctxF.cut 0).state = .felling
    ∧ (ctxC .decode).owner = true ∧ (ctxC .paused).phase = .paused ∧ (0 = 0 ∨ (4096 : Nat) < 0) ∧ needsFill (stC .decode) 0x200000 = false := by decide

set_option maxRecDepth 8000 in
/-- More of CoppicingAndStallsGoOn: a cut rebuilt and one not, a request of no job, and a stall past its time that is not yet reported. -/
theorem test_coppice_more :
    (let z := ([(0, (⟨.resident, false, false, false, 0x102, 1, 0, 1⟩ : CutEntry))].foldl (fun x e => if ctxK.needCoppice.contains e.1 then x.setCut e.1 e.2 else x) { ctxK with cuts := [⟨.felled, false, false, true, 0x100, 0, 0, 1⟩] });
     (z.needCoppice.filter fun k => decide ((z.cut k).state ≠ .resident)) = [] ∧ z.openWait = false)
    ∧ (ctxK.needCoppice.filter fun k => decide (({ ctxK with cuts := [⟨.felled, false, false, true, 0x100, 0, 0, 1⟩] }.cut k).state ≠ .resident)) ≠ []
    ∧ (stK 0).now < ctxK.coppiceSent + handoffTmo (stK 0) ∧ (stK (10 ^ 12)).tir.stalls.find? (fun t => t.handle == 0x200000) = some ⟨0x200000, 2, 0, false, [2]⟩
    ∧ 0 + max 1 ((stK (10 ^ 12)).r Reg.TIR_STALL_CFG_REPORT_MS) * 1000000 ≤ (stK (10 ^ 12)).now ∧ ([2].foldl min 0xF) = 2 ∧ Op.RESUME ≠ Op.RECOVER := by decide

/-- trlS with one blaze entry whose record is zeros. -/
def trlB : State := { trlS with trl := { trlS.trl with blaze := [(3, ⟨5, 1, 0⟩)] } }
set_option maxRecDepth 16000 in
/-- More of TrailCommandsSearchAndHold: one entry under the mask, roots that can be read, jobs of each kind. -/
theorem test_trail_more :
    (trlB.trl.blaze.filter fun e => (e.2.key &&& 7) == (5 &&& 7)) = [(3, ⟨5, 1, 0⟩)] ∧ onQuiesced trlB (recAddr trlB 0) = false
    ∧ onQuiesced trlS (rootAt trlS 5) = false ∧ (∀ e ∈ trlS.trl.blaze, e.2.key &&& 7 ≠ 5 &&& 7) ∧ ((amGet (1 * 2 ^ 20 / 2 ^ 20) trlS.trl.jobs).map (·.use)) = some .publish
    ∧ ((amGet ((2 * 2 ^ 20 + 1) / 2 ^ 20) trlS.trl.jobs).map fun j => (j.use, listSet ((2 * 2 ^ 20 + 1) % 2 ^ 20) (some true) j.answers)) = some (.attach, [none, some true])
    ∧ trlS.now ≤ trlS.now ∧ (amGet 1 trlS.trl.lookups).map (·.purpose) = some (.probe cmd0) ∧ (amGet 2 trlS.trl.lookups).map (·.purpose) = some (.request 0x200000) ∧ amGet 9 trlS.trl.lookups = none := by decide

/-- poolN with one delta that a command waits for alone, an idle data member, and a unit whose reconstruction has ended. -/
def poolW : State := { poolN with cp := { poolN.cp with waits := [([4], .command Op.SEAL cmd0 0)] } }
def poolI : State := { poolN with cp := { poolN.cp with deltas := [], locks := [], jobs := [] } }
def poolD (u : UnitFor) : State := { poolI with cp := { poolI.cp with jobs := [{ jobP with use := u, result := some [] }] } }
set_option maxRecDepth 16000 in
/-- More of PoolDeltasLocksAndRebuilds: a command that waits, a member that can lock, locks at each side of their term, jobs at each stage, units dirty and clean, and a node that SEAL can write. -/
theorem test_pool_more :
    poolW.cp.waits = [([4], .command Op.SEAL cmd0 0)] ∧ amHas 4 (amErase 4 poolW.cp.deltas) = false ∧ poolI.r Reg.MGT_ROLE_DRAIN_QUIESCED ≠ 1 ∧ poolI.cp.locks = [] ∧ unitUnbuilt poolI false 3 = false
    ∧ amGet 1 poolN.cp.locks = some ⟨3, 9, false, true, 5⟩ ∧ (5 : Nat) ≤ poolN.now ∧ ({ poolN with now := 4 } : State).now < 5 ∧ amGet 2 poolN.cp.locks = none
    ∧ poolN.cp.jobs = [jobP] ∧ jobP.begun = true ∧ 1 ∈ jobP.asked ∧ jobP.asked.length ≠ 1 ∧ jobP.lost = 8 ∧ ([7, 8].filter fun u => !([7].contains u)) = [8]
    ∧ ((poolD .rebuild).cp.jobs.find? fun j => j.unit == 3 && j.result.isSome).isSome = true ∧ ((poolD .repair).cp.jobs.find? fun j => j.unit == 3 && j.result.isSome).isSome = true
    ∧ roleEnables live [3, 4] = true ∧ live.changing = false ∧ doubleLost live 0x1000 512 = false ∧ memTrouble live 0x1000 512 = none ∧ blockedUnits live 0x1000 512 true = [] ∧ poolI.cp.rebuild = none := by decide

set_option maxRecDepth 8000 in
/-- More of MapsAndRolesChange: ranges a program image may be read from and one it may not, and a change whose commit is held. -/
theorem test_map_more :
    imageSpaceOk live 0 128 = true ∧ imageSpaceOk live (3 * 2 ^ 60 + 0x1000) 128 = true ∧ imageSpaceOk live (2 * 2 ^ 60) 128 = false ∧ live.dmaOk 0 0x1000 128 = true
    ∧ imageHdrOk (live.rd 0 128) = false ∧ memTrouble live 0 128 = none ∧ chg.role ≠ 3 ∧ rollOrActivation chg = false ∧ chg.r Reg.MGT_ROLE_ROLE_NEXT = 2
    ∧ (roleFence (begun chg Op.ROLE_COMMIT cmd0)).changing = true ∧ (65535 + 65536 - 0) % 65536 ≥ 32768 ∧ (1 + 65536 - 0) % 65536 = 1 := by decide

set_option maxRecDepth 8000 in
/-- More of StreamCommandsBegin: an adapter slot that is free, a table that is loading and one that is not, an adapter that is pinned, and one whose version is older. -/
theorem test_stream_more :
    (amFree cdcS.cdc.adps 0 4096).isSome = true ∧ amFree ([] : AMap Nat) 0 0 = none ∧ (adpCurrent cdcS 7).map (·.2.pins) = some 0
    ∧ (1 ≤ (2 + 4096 - 1) % 4096 ∧ (2 + 4096 - 1) % 4096 < 2048) ∧ ¬ (1 ≤ (2 + 4096 - 2) % 4096) ∧ bit 1 0 = true
    ∧ bits (0x101 * 2 ^ 48) 48 16 ≠ cdcS.nodeId ∧ 16 ≤ (leBytes 16 0).length := by decide

/-- qpS with a draining queue pair, an empty die, a choker, an open and a closing region. -/
def dieS : State := { qpS qp1 with cwt := { (qpS qp1).cwt with resident := [] } }
def chokS : State := { qpS qp1 with cwt := { (qpS qp1).cwt with chokers := [(0, ⟨leBytes 64 0, 0x1000001, 0, 4, 9, 0⟩)] } }
def closeS (r : Region) : State := { qpS qp1 with rm := { (qpS qp1).rm with regions := [(2, r)] } }
set_option maxRecDepth 16000 in
/-- More of QueuePairsRegionsAndTriggers: room on die and none, a queue pair that drains, a context under fetch, a choker that is reached, and regions open, closing and with requests begun. -/
theorem test_qp_more :
    (qpPlace dieS 1).isSome = true ∧ dieS.cwt.resident.length < qpDie dieS ∧ ({ qp1 with state := .draining, drainPosted := false } : Qp).stream.any (·.started) = false
    ∧ ({ dieS with cwt := { dieS.cwt with fetching := [1] } } : State).cwt.fetching.contains 1 = true ∧ (dieS.cwt.missq.all fun m => m.pkt.dstQp % 2 ^ 24 != 1) = true ∧ onQuiesced (qpRegs { dieS with cwt := { dieS.cwt with fetching := [], resident := [1] } }) (qpHome dieS 1) = false
    ∧ chokS.cwt.chokers = [(0, ⟨leBytes 64 0, 0x1000001, 0, 4, 9, 0⟩)] ∧ pulls ((trigCount chokS 4 + 9) % 2 ^ 32) 9 = true ∧ (9 + 2 ^ 32 - trigCount chokS 4) % 2 ^ 32 < 2 ^ 31 ∧ chokS.qp 0x1000001 = some (1, qp1)
    ∧ regionAt (closeS reg1) 0x1000002 = some (2, reg1) ∧ writeStop (closeS reg1) (regionTblAddr (closeS reg1) 2) 128 = none ∧ blockedUnits (closeS reg1) (regionTblAddr (closeS reg1) 2) 128 true = []
    ∧ amGet 2 (closeS { reg1 with closing := true }).rm.regions = some { reg1 with closing := true } ∧ (∀ e ∈ (closeS reg1).rm.leases, e.2.region ≠ 2) ∧ (QpState.ready, 2) ∈ qpMoves ∧ (QpState.error, 0) ∈ qpMoves := by decide

/-- qpS with a lease of region 2, a hot line, a shaper at its slot, and queue pair 1 on each wheel. -/
def leaseS : State := { closeS reg1 with rm := { (closeS reg1).rm with leases := [(7, ⟨1, 2, 0, 4, 0x101, 0⟩)], hot := [(0x400, ⟨0, leBytes 64 5⟩)] } }
def wheelS (c : Bool) : State := { qpS qp1 with cwt := { (qpS qp1).cwt with wheel := [(1, ⟨300000, c, 0⟩)] } }
set_option maxRecDepth 16000 in
/-- More of ShapersLeasesAndHotLines: a lease whose lines are free, lines and leases at each side of their terms, a shaper and a queue pair at a slot, and times to sample and not. -/
theorem test_shaper_more :
    amGet 7 leaseS.rm.leases = some ⟨1, 2, 0, 4, 0x101, 0⟩ ∧ leaseBlocked leaseS ⟨1, 2, 0, 4, 0x101, 0⟩ = [] ∧ amGet 2 leaseS.rm.regions = some reg1 ∧ (leaseS.rm.leases.filter fun e => e.2.lessee == 0x101) ≠ []
    ∧ amGet 0x400 leaseS.rm.hot = some ⟨0, leBytes 64 5⟩ ∧ ({ leaseS with now := 0 } : State).now < 0 + max 10 (leaseS.r Reg.CWT_LEASE_CFG_TERM_MS) * 1000000
    ∧ ({ qpS qp1 with cwt := { (qpS qp1).cwt with shpWheel := [(3, 5)] } } : State).cwt.shpWheel = [(3, 5)] ∧ (5 : Nat) ≤ (qpS qp1).now
    ∧ (wheelS true).cwt.wheel = [(1, ⟨300000, true, 0⟩)] ∧ 300000 / 262144 * 262144 ≤ (wheelS true).now ∧ (wheelS false).cwt.shpWheel = [] ∧ (300000 : Nat) ≤ (wheelS false).now ∧ (wheelS false).qpAt 1 = some qp1
    ∧ (10 ^ 12) % 1000 = 0 ∧ ({ live with now := 1 } : State).now % 1000 ≠ 0 := by decide

/-- The state before start-up step 3. -/
def bootS : State := { State.reset with mgt := { State.reset.mgt with boot := ⟨true, false, false, [1, 2]⟩ } }
set_option maxRecDepth 8000 in
/-- More of PowerResetsAndStartup: a start-up step whose needs are met, and a power-fail with a record to flush. -/
theorem test_power_more :
    bootS.mgt.boot.por = false ∧ bootS.mgt.boot.perst = false ∧ bootS.mgt.boot.refOk = true ∧ 3 ∉ bootS.mgt.boot.done ∧ (∀ k ∈ stepNeeds 3, k ∈ bootS.mgt.boot.done) ∧ bootS.r Reg.MGT_BOOT_STATUS_RECOVERY ≠ 1
    ∧ live.mgt.trans = none ∧ (live.fn 0).d3hot = false ∧ live.r Reg.PWR_STATE_STATE ≠ 3 := by decide

/-- qpS with a port that is up, the peer reachable through it, and the request wr1 in the stream. -/
def sendS : State :=
  let s := qpS { qp1 with stream := [wr1 Cw.write] }
  s.setR (Reg.CWT_PORT_CFG_ENABLE.at 0x100 2) 1
set_option maxRecDepth 16000 in
/-- More of SendersSendAndRetry: a request to start on a queue pair on die and off, a fenced multicast, credit waits and acknowledgements at each side of their times. -/
theorem test_sender_more :
    ({ qp1 with stream := [wr1 Cw.write] }.stream.find? fun w => !w.started && !(bit qp1.mode 0 && (wrOp w.wr == Cw.mcast && w.fwd.isNone) && fenceHeld sendS { qp1 with stream := [wr1 Cw.write] } w)) = some (wr1 Cw.write)
    ∧ localStop sendS (wr1 Cw.write).wr = none ∧ localBlocked sendS (wr1 Cw.write).wr = [] ∧ dieS.cwt.resident.contains 1 = false
    ∧ ({ qp1 with creditAt := some 0 } : Qp).creditAt = some 0 ∧ 0 + rtoNs (qpS qp1) qp1 ≤ (qpS qp1).now ∧ live.now < 0 + rtoNs live qp1 ∧ ({ qp1 with unacked := [tx1] } : Qp).unacked = [tx1] ∧ (∀ t ∈ [tx1], t.psn ≠ 6)
    ∧ 0 < ({ qp1 with toAck := 1 } : Qp).toAck := by decide

set_option maxRecDepth 16000 in
/-- More of ReceiversPerform: a key beyond the table and one whose entry can be read, and a region that is neither lost nor held. -/
theorem test_receiver_more :
    regionCount regS ≤ 0xFFFFF % 2 ^ 24 ∧ doubleLost regS (regionTblAddr regS 2) 128 = false ∧ blockedUnits regS (regionTblAddr regS 2) 128 false = [] ∧ regionLost regS reg1 0 8 = false
    ∧ regionWait regS reg1 0 8 true = none ∧ waitOn regS (regionBlocked regS reg1 0 8 false) 0 = none ∧ parityArea regS reg1 = false := by decide

/-- regS with a READ and an ATOMIC outstanding, and an own read and commit in flight. -/
def outS : State := qpS { qp1 with unacked := [{ tx1 with psn := 0, op := Cw.readReq, n := 1, len := 64 }, { tx1 with psn := 1, op := Cw.atomic }], stream := [wr1 Cw.readReq] }
set_option maxRecDepth 16000 in
/-- More of AnswersAndFramesArrive: what an answer finds outstanding, bytes that nothing stops, and codes of each kind. -/
theorem test_answer_more :
    (match outS.qpAt 1 with
     | some y => (y.unacked.find? fun t => t.op == Cw.readReq && decide (serDist 0 t.psn < t.n)).isSome && (y.unacked.find? fun t => t.op == Cw.atomic && t.psn == 1).isSome && (y.stream.find? fun w => w.ord == 0).isSome
     | none => false) = true
    ∧ writeStop outS (wrLocal (wr1 Cw.readReq).wr) 64 = none ∧ blockedUnits outS (wrLocal (wr1 Cw.readReq).wr) 64 true = []
    ∧ min cwMax (64 - 0 * cwMax) = 64 ∧ leField (leBytes 8 4) 0 1 = 4 ∧ leField (leBytes 8 5) 0 1 = 5 ∧ live.role = roleMixed ∧ pkt1.srcNode ≠ live.nodeId ∧ regS.role ≠ roleMixed := by decide

/-- The parity node of a group whose member 0 is node 0x102, with a backup whose slot entries are in. -/
def parS : State := ((splitS .home).setR Reg.MGT_ROLE_ROLE 3).setR Reg.TIR_CP_GROUP_P_EN 1
def bak0 (cuts : List AttCut) : Backup := { msg := { att0 with cuts := cuts }, lost := 0, need := [], got := [], tries := 0, bolts := false }
set_option maxRecDepth 16000 in
/-- More of SplitServesAndFallsBack: backups whose entries are there and not, units not lost, and shards lost and asked for. -/
theorem test_split_more :
    parS.r Reg.TIR_CP_GROUP_P_EN = 1 ∧ parS.r Reg.MGT_ROLE_DRAIN_QUIESCED ≠ 1 ∧ epochView parS 0 = .current ∧ roleEnables parS [roleCache] = true ∧ (backupEntryUnits att0).any (unitGone parS true) = false
    ∧ (bak0 []).bolts = false ∧ entryHolds (leBytes 16 0) 1 = false ∧ entryHolds (leBytes 16 0x101) 1 = true ∧ classCapped parS 0 = false ∧ ((bak0 []).msg.nodes = 1)
    ∧ 10000 ≤ ({ parS with xch := { parS.xch with credit := 10000 } } : State).xch.credit ∧ parS.xch.credit < 10000 + 1 + parS.xch.credit ∧ markedFetched live 0x105 = false := by decide

set_option maxRecDepth 16000 in
/-- Witness of HostCommandsArePerformed: every host command of function 0 on the admin queue that asks for no operands is ready at a node in service; those listed, with operands in the witnesses of their families. -/
theorem test_host_rows_witness :
    hostReady live Op.RESYNC cmd0 noBad = true ∧ (hostRows.all fun e => [1, 3, 5, 16, 27, 28, 32, 34, 38, 40, 48, 49, 52, 80, 83, 88, 96, 112, 115].contains e.2.1 || hostReady live e.2.1 cmd0 e.2.2.1) = true := by decide

/-- Witness of EventsTakeTheirEffect: numbers at the bounds of their ranges, an open port and a sender that is heard. -/
theorem test_events_witness :
    ideOpen live = true ∧ ((63 : Nat) < 64 ∧ (31 : Nat) < 32 ∧ (7 : Nat) < 8 ∧ (255 : Nat) < 256) ∧ (live.role ≠ 4 ∨ 0x100 = live.nodeId) ∧ ((live.setR Reg.MGT_ROLE_ROLE 2).role ≠ 4 ∨ 0x101 = live.nodeId) ∧ live.mgt.coreUp = true := by decide

end Sys2Proof.Tests
end

section
/-! PROOFS. The register map (R5, R8 to R10, R504): what a field holds once set, what a write leaves in a field of each access type, and which register a REGISTER_WRITE reaches. -/

namespace Sys2Proof.Machine

/-! ### Setting a field -/

theorem State.setR_r_same (s : State) (f : Fld) (v : Nat) : (s.setR f v).r f = v % 2 ^ f.w := regGet_set_same ..

theorem State.setR_r_other {f g : Fld} (h : g.key ≠ f.key) (s : State) (v : Nat) : (s.setR f v).r g = s.r g :=
  regGet_set_other h ..

/-- Settles O6, by the register file's read-after-write laws. -/
theorem fieldsHoldWhatIsSet : Obligations.FieldsHoldWhatIsSet :=
  fun s f _ v => ⟨s.setR_r_same f v, fun h => State.setR_r_other h s v, rfl⟩

/-! ### Fields by access type -/

theorem bits_lt (x lo w : Nat) : bits x lo w < 2 ^ w := Nat.mod_lt _ (Nat.two_pow_pos w)

theorem regGet_set_of_lt {r : Regs} {f : Fld} {v : Nat} (h : v < 2 ^ f.w) : regGet (regSet r f v) f = v := by
  rw [regGet_set_same, Nat.mod_eq_of_lt h]

/-- Taking from `a` what it shares with `b` borrows nothing: it clears the bits of `b`. -/
theorem testBit_sub_and (a b i : Nat) : (a - (a &&& b)).testBit i = (a.testBit i && !b.testBit i) := by
  induction i generalizing a b with
  | zero =>
    have hle : a &&& b ≤ a := Nat.and_le_left
    have hlow : (a &&& b) % 2 = 1 ↔ a % 2 = 1 ∧ b % 2 = 1 := Nat.and_mod_two_eq_one
    rw [Bool.eq_iff_iff]
    simp only [Nat.testBit_zero, Bool.and_eq_true, Bool.not_eq_true', decide_eq_true_eq, decide_eq_false_iff_not]
    omega
  | succ i ih =>
    have hle : a &&& b ≤ a := Nat.and_le_left
    have hlow : (a &&& b) % 2 = 1 ↔ a % 2 = 1 ∧ b % 2 = 1 := Nat.and_mod_two_eq_one
    have hhigh : (a &&& b) / 2 = a / 2 &&& b / 2 := Nat.and_div_two
    have hhalf : (a - (a &&& b)) / 2 = a / 2 - (a / 2 &&& b / 2) := by omega
    simp only [Nat.testBit_succ, hhalf, ih]

/-- A write that covers a whole field leaves in it what a write of the whole register does. -/
theorem partWrite_of_covers (locked : Bool) {r : Regs} {f : Fld} {lo hi : Nat} (v : Nat) (hlo : lo ≤ f.lo) (hhi : f.lo + f.w ≤ hi)
    (hw : 0 < f.w) (hr : regGet r f < 2 ^ f.w) : partWrite locked r f v lo hi = fieldWrite locked r f v := by
  have hbits : bits v f.lo f.w &&& (2 ^ f.w - 1) = bits v f.lo f.w := Nat.and_two_pow_sub_one_of_lt_two_pow (bits_lt ..)
  have hold : regGet r f &&& (2 ^ f.w - 1) = regGet r f := Nat.and_two_pow_sub_one_of_lt_two_pow hr
  have hne : ¬ f.lo + f.w ≤ f.lo := by omega
  cases hacc : f.acc <;>
    simp only [partWrite, fieldWrite, hacc, Nat.max_eq_right hlo, Nat.min_eq_right hhi, hne, if_false, Nat.add_sub_cancel_left, Nat.sub_self,
      Nat.shiftLeft_zero, hbits, hold, Nat.zero_add]

theorem partWrite_get_other {f g : Fld} (h : g.key ≠ f.key) (locked : Bool) (r : Regs) (v lo hi : Nat) :
    regGet (partWrite locked r f v lo hi) g = regGet r g := by
  simp only [partWrite]
  split
  · rfl
  · cases f.acc with
    | ro | wo => rfl
    | rw | w1c | w1s => exact regGet_set_other h ..
    | rwl => cases locked with
      | true => rfl
      | false => exact regGet_set_other h ..

section
variable {r : Regs} {f : Fld} {locked : Bool}

theorem fieldWrite_ro_wo (h : f.acc = .ro ∨ f.acc = .wo) (v : Nat) : fieldWrite locked r f v = r := by
  rcases h with h | h <;> simp only [fieldWrite, h]

theorem fieldWrite_rw (h : f.acc = .rw) (v : Nat) : regGet (fieldWrite locked r f v) f = bits v f.lo f.w := by
  simp only [fieldWrite, h, regGet_set_of_lt (bits_lt ..)]

theorem fieldWrite_w1c (h : f.acc = .w1c) (hr : regGet r f < 2 ^ f.w) (v i : Nat) :
    (regGet (fieldWrite locked r f v) f).testBit i = ((regGet r f).testBit i && !(bits v f.lo f.w).testBit i) := by
  simp only [fieldWrite, h, regGet_set_of_lt (Nat.lt_of_le_of_lt (Nat.sub_le ..) hr), testBit_sub_and]

theorem fieldWrite_w1s (h : f.acc = .w1s) (hr : regGet r f < 2 ^ f.w) (v i : Nat) :
    (regGet (fieldWrite locked r f v) f).testBit i = ((regGet r f).testBit i || (bits v f.lo f.w).testBit i) := by
  simp only [fieldWrite, h, regGet_set_of_lt (Nat.or_lt_two_pow hr (bits_lt ..)), Nat.testBit_or]

theorem fieldWrite_rwl_open (h : f.acc = .rwl) (v : Nat) : regGet (fieldWrite false r f v) f = bits v f.lo f.w := by
  simp only [fieldWrite, h, Bool.false_eq_true, if_false, regGet_set_of_lt (bits_lt ..)]

theorem fieldWrite_rwl_locked (h : f.acc = .rwl) (v : Nat) : fieldWrite true r f v = r := by
  simp only [fieldWrite, h, if_true]

end

/-- Settles O13: a write that covers the field is the whole-register write, and that has an equation for each access type. -/
theorem fieldsAreWrittenByAccessType : Obligations.FieldsAreWrittenByAccessType := by
  intro locked r f g v lo hi hlo hhi hw hr
  refine ⟨?_, ?_, ?_, ?_, ?_, ?_, fun h => partWrite_get_other h ..⟩ <;> rw [partWrite_of_covers locked v hlo hhi hw hr]
  · exact fun h => fieldWrite_ro_wo h v
  · exact fun h => fieldWrite_rw h v
  · exact fun h i _ => fieldWrite_w1c h hr v i
  · exact fun h i _ => fieldWrite_w1s h hr v i
  · rintro h rfl
    exact fieldWrite_rwl_open h v
  · rintro h rfl
    exact fieldWrite_rwl_locked h v

/-! ### The register that a REGISTER_WRITE reaches -/

theorem exec_registerWrite {fn : Nat} (h : fn < 64) (s : State) (off size v : Nat) :
    exec (.registerWrite fn off size v) s = goesOn s (registerWrite s fn off size v) :=
  withUnit_there (decide_eq_true h)

theorem registerWrite_unmapped {fn off size : Nat} (h : ¬ (size = 4 ∨ size = 8) ∨ off % size ≠ 0 ∨ barAddr fn off = none) (s : State) (v : Nat) :
    registerWrite s fn off size v = s.cnt (Reg.HIF_FN_ERR_UNMAPPED.ofFn fn) 1 := by
  unfold registerWrite
  split
  case isTrue hfits =>
    obtain ⟨hsize, halign⟩ := hfits
    have hbar : barAddr fn off = none := by tauto
    simp only [hbar, unmapped]
  case isFalse => rfl

section
variable {fn off a d : Nat} {row : RegRow}

theorem registerWrite_four (halign : off % 4 = 0) (hbar : barAddr fn off = some a) (hsa : saAddr a = none) (s : State) (v : Nat) :
    registerWrite s fn off 4 v = dwordWrite s fn a (v % 2 ^ 32) := by
  simp [registerWrite, halign, hbar, hsa]

theorem registerWrite_eight (halign : off % 8 = 0) (hbar : barAddr fn off = some a) (hsa : saAddr a = none)
    (hreg : regAt a = some (row, d)) (hwidth : row.width = 64) (s : State) (v : Nat) :
    registerWrite s fn off 8 v = registerPut s fn row d (v % 2 ^ 64) 0 64 := by
  simp [registerWrite, halign, hbar, hsa, hreg, hwidth]

theorem dwordReg_of_regAt (h : regAt a = some (row, d)) : dwordReg a = some (row, d, 0) := by
  simp only [dwordReg, h]

theorem dwordWrite_register (hmsix : ¬ (0x1020000 ≤ a ∧ a < 0x1021000)) (hreg : regAt a = some (row, d)) (s : State) (v : Nat) :
    dwordWrite s fn a v = registerPut s fn row d v 0 32 := by
  simp only [dwordWrite, hmsix, if_false, dwordReg_of_regAt hreg, Nat.mul_zero, Nat.shiftLeft_zero, Nat.zero_add]

theorem dwordWrite_noRegister (hmsix : ¬ (0x1020000 ≤ a ∧ a < 0x1021000)) (hreg : dwordReg a = none) (s : State) (v : Nat) :
    dwordWrite s fn a v = s := by
  simp only [dwordWrite, hmsix, if_false, hreg]

end

theorem registerPut_of_not_ownRegs {row : RegRow} (h : row.off ∉ ownRegs) (s : State) (fn d v lo hi : Nat) :
    registerPut s fn row d v lo hi = plainWrite s fn row d v lo hi := by
  simp only [ownRegs, List.mem_cons, not_or] at h
  simp only [registerPut, h, if_false]

/-- Settles O12: the access is decoded by its size, its alignment, the view of R504 and the register map, in that order. -/
theorem registerWritesReachTheirRegister : Obligations.RegisterWritesReachTheirRegister := by
  intro s fn off v hfn
  simp only [exec_registerWrite hfn]
  refine ⟨?unmapped, ?four, ?eight, ?noRegister, ?plain⟩
  case unmapped =>
    intro size h
    rw [registerWrite_unmapped h]
  case four =>
    intro a d row halign hbar hsa hmsix hreg
    rw [registerWrite_four halign hbar hsa, dwordWrite_register hmsix hreg]
  case eight =>
    intro a d row halign hbar hsa hreg hwidth
    rw [registerWrite_eight halign hbar hsa hreg hwidth]
  case noRegister =>
    intro a halign hbar hsa hmsix hreg
    rw [registerWrite_four halign hbar hsa, dwordWrite_noRegister hmsix hreg]
  case plain =>
    intro row d lo hi h
    exact registerPut_of_not_ownRegs h s fn d v lo hi

end Sys2Proof.Machine
end

section
/-! PROOFS. Host commands that name a request (spec/02): their dispatch, and the gates of R29, R46 and R47. -/

namespace Sys2Proof.Machine

/-! ### The block that performs each command -/

theorem exec_ctxRead (c : Cmd) (s : State) : exec (.ctxRead c) s = runPlain s Op.CTX_READ c (ctxReadBody c) := rfl
theorem exec_token (c : Cmd) (s : State) : exec (.token c) s = runPlain s Op.TOKEN c (tokenBody c) := rfl
theorem exec_pause (c : Cmd) (s : State) : exec (.pause c) s = runPlain s Op.PAUSE c (pauseBody c) := rfl
theorem exec_resume (c : Cmd) (s : State) : exec (.resume c) s = runPlain s Op.RESUME c (resumeBody c) := rfl
theorem exec_cancel (c : Cmd) (s : State) : exec (.cancel c) s = runPlain s Op.CANCEL c (cancelBody c) := rfl
theorem exec_park (c : Cmd) (s : State) : exec (.park c) s = runPlain s Op.PARK c (parkBody c) := rfl
theorem exec_unpark (c : Cmd) (s : State) : exec (.unpark c) s = runPlain s Op.UNPARK c (unparkBody c) := rfl
theorem exec_migrate (c : Cmd) (s : State) : exec (.migrate c) s = runPlain s Op.MIGRATE c (migrateBody c) := rfl
theorem exec_recover (c : Cmd) (s : State) : exec (.recover c) s = runPlain s Op.RECOVER c (recoverBody c) := rfl
theorem exec_claim (c : Cmd) (s : State) : exec (.claim c) s = runPlain s Op.CLAIM c (claimBody c) := rfl
theorem exec_verify (c : Cmd) (s : State) : exec (.verify c) s = runPlain s Op.VERIFY c (verifyBody c) := rfl
theorem exec_commit (c : Cmd) (s : State) : exec (.commit c) s = runPlain s Op.COMMIT c (commitBody c) := rfl
theorem exec_rollback (c : Cmd) (s : State) : exec (.rollback c) s = runPlain s Op.ROLLBACK c (rollbackBody c) := rfl

/-! ### Gates (R29, R46, R47) -/

section
variable {c : Cmd} {s : State} {x : Ctx} {k : Ctx → State × Option Done}

theorem withCtx_absent (h : s.ctx c.handle = none) : withCtx c s k = (s, some (Done.of .stale 0)) := by
  simp only [withCtx, h, fail]

theorem withCtx_ended (h : s.ctx c.handle = some x) (hp : x.phase = .done ∨ x.phase = .failed) :
    withCtx c s k = (s, some { Done.of .stale 0 with handle := c.handle }) := by
  simp only [withCtx, h, hp, if_true]

theorem withCtx_notOwned (h : s.ctx c.handle = some x) (hd : x.phase ≠ .done) (hf : x.phase ≠ .failed) (ho : x.owner = false) :
    withCtx c s k = (s, some { Done.of .redirect 0 with value := x.peerNode, handle := c.handle }) := by
  simp only [withCtx, h, hd, hf, ho, or_self, if_false, Bool.not_false, if_true]

theorem withCtx_owned (h : s.ctx c.handle = some x) (ho : x.owner = true) (hd : x.phase ≠ .done) (hf : x.phase ≠ .failed) : withCtx c s k = k x := by
  simp only [withCtx, h, hd, hf, ho, or_self, if_false, Bool.not_true, Bool.false_eq_true]

end

/-- Each of the gated commands is performed by a block that first asks for the request it names. -/
theorem exec_gatedRow {e : (Cmd → Instr) × Nat} (he : e ∈ gatedRows) (c : Cmd) :
    ∃ k : State → Ctx → State × Option Done, ∀ s, exec (e.1 c) s = runPlain s e.2 c fun t _ => withCtx c t (k t) := by
  simp only [gatedRows, List.mem_cons, List.not_mem_nil, or_false] at he
  rcases he with rfl | rfl | rfl | rfl | rfl | rfl
  all_goals exact ⟨_, fun _ => rfl⟩

/-- Settles O32: the gate answers before the command's own block, in each of its three cases. -/
theorem requestCommandsAreGated : Obligations.RequestCommandsAreGated := by
  intro e he s c
  obtain ⟨k, hexec⟩ := exec_gatedRow he c
  simp only [hexec]
  intro hready
  refine ⟨fun hnone => ?absent, fun x hx => ⟨fun hend => ?ended, fun hd hf ho => ?notOwned⟩⟩
  case absent => exact runCommand_ends hready (withCtx_absent hnone)
  case ended => exact runCommand_ends hready (withCtx_ended hx hend)
  case notOwned => exact runCommand_ends hready (withCtx_notOwned hx hd hf ho)

end Sys2Proof.Machine
end

section
/-! PROOFS. Reading, pausing, resuming, parking and rolling back a request (R35, R39, R46, R141, R142, R186): what each command's block answers for a request that passes its gates. -/

namespace Sys2Proof.Machine

/-! ### The pause and the resume themselves -/

/-- A pause of a request with no step to drop and no CANCEL that waits changes its context alone. -/
theorem pauseNow_idle {s : State} {x : Ctx} (hx : s.ctx x.handle = some x) (hdrop : dropStep s x.handle = s) (hcancel : x.cancelPending = none) (auto : Bool) :
    pauseNow s x auto = s.setCtx { x with
      phase := .paused, resumeAdmitted := decide (x.phase = .admitted), resumeDecode := decide (x.phase = .decode), pausedAt := s.now, selfPaused := auto,
      pausePending := none, migrateWait := x.migrateWait.filter (fun w => w.2.isSome), counters := listMod 5 (fun v => satAdd 32 v 1) x.counters } := by
  simp only [pauseNow, hdrop, hx, hcancel]
  rfl

theorem resuming_eq_false {x : Ctx} : resuming x = false ↔ x.resumeWait = none ∧ x.coppicing = false := by
  simp only [resuming, Bool.or_eq_false_iff, Option.isSome_eq_false_iff, Option.isNone_iff_eq_none]

/-- A paused request once a RESUME of software's has come for it (R186, R188). -/
def Ctx.forSoftware (x : Ctx) : Ctx := { x with selfPaused := false, autoResume := false }

/-- A paused request back in the phase it was paused from (R46). -/
def Ctx.unpaused (x : Ctx) : Ctx :=
  { x with phase := if x.resumeAdmitted then .admitted else if x.resumeDecode then .decode else .prefill, resumeAdmitted := false, resumeDecode := false }

/-- A RESUME marks the request as software's, then looks for a cut in FELLING (R82). -/
theorem resumeReq_software (s : State) (x : Ctx) (named : Nat) (c : Cmd) :
    resumeReq s x named (some c) =
      if fellingNow s x then s.setCtx { x.forSoftware with resumeWait := some (named, some c) }
      else resumeGo (s.setCtx x.forSoftware) x.forSoftware named (some c) := by
  simp only [resumeReq, Option.isNone_some, Bool.and_false]
  rfl

theorem Ctx.forSoftware_resumeWait_none {x : Ctx} (h : resuming x = false) : { x.forSoftware with resumeWait := none } = x.forSoftware := by
  rw [← (resuming_eq_false.mp h).1]
  rfl

theorem resumeNow_started (s : State) {x : Ctx} (hwait : x.resumeWait = none) (hself : x.selfPaused = false) (hprompt : promptComplete x.unpaused = false) :
    resumeNow s x = startDecode s x.unpaused := by
  have hback : ({ x with
      phase := if x.resumeAdmitted then .admitted else if x.resumeDecode then .decode else .prefill, resumeAdmitted := false, resumeDecode := false,
      selfPaused := false, resumeWait := none } : Ctx) = x.unpaused := by
    simp only [Ctx.unpaused, hwait, hself]
  simp only [resumeNow, hback, hprompt, Bool.false_eq_true, if_false]

section
variable {s : State} {x : Ctx} (hres : resuming x = false) (hfell : fellingNow s x = false) (named : Nat) (c : Cmd)
include hres hfell

theorem resumeReq_redirected (hmay : mayResume s x = false) :
    resumeReq s x named (some c) = completeCmd ((s.setCtx x.forSoftware).setCtx x.forSoftware) Op.RESUME c
      { Done.of .redirect 0 with value := s.redirectNode, handle := x.handle } := by
  have hmay' : mayResume (s.setCtx x.forSoftware) x.forSoftware = false := hmay
  simp only [resumeReq_software, hfell, Bool.false_eq_true, if_false, resumeGo, Ctx.forSoftware_resumeWait_none hres, hmay', Bool.not_false, if_true, resumeAnswer]
  rfl

theorem resumeReq_resumed (hmay : mayResume s x = true) (hcut : mustCoppice x = false) (hprompt : promptComplete x.forSoftware.unpaused = false) :
    resumeReq s x named (some c) = completeCmd (startDecode (s.setCtx x.forSoftware) x.forSoftware.unpaused) Op.RESUME c { Done.ok with handle := x.handle } := by
  have hmay' : mayResume (s.setCtx x.forSoftware) x.forSoftware = true := hmay
  have hcut' : mustCoppice x.forSoftware = false := hcut
  have hnow := resumeNow_started (s.setCtx x.forSoftware) (x := x.forSoftware) (resuming_eq_false.mp hres).1 rfl hprompt
  simp only [resumeReq_software, hfell, Bool.false_eq_true, if_false, resumeGo, Ctx.forSoftware_resumeWait_none hres, hmay', hcut', Bool.not_true, resumeAnswer, hnow]
  rfl

end

/-! ### What each block answers -/

theorem ctxReadBody_answers {T : State} {c : Cmd} {x : Ctx} (hx : T.ctx c.handle = some x) (d : List Byte) :
    ctxReadBody c T d = (T, some { Done.ok with handle := c.handle, record := x.image }) := by
  simp only [ctxReadBody, hx, answer]

section
variable {T : State} {c : Cmd} {x : Ctx} (hx : T.ctx c.handle = some x) (ho : x.owner = true) (hd : x.phase ≠ .done) (hf : x.phase ≠ .failed) (d : List Byte)
include hx ho hd hf

theorem pauseBody_paused (hp : x.phase = .paused) :
    pauseBody c T d = (T.setCtx { x with selfPaused := false }, some { Done.ok with handle := c.handle }) := by
  simp only [pauseBody, withCtx_owned hx ho hd hf, hp]

theorem pauseBody_handoff (hp : x.phase = .handoff) : pauseBody c T d = (T, some { Done.of .conflict 0 with handle := c.handle }) := by
  simp only [pauseBody, withCtx_owned hx ho hd hf, hp]

theorem pauseBody_runs (hp : x.phase ≠ .paused) (hh : x.phase ≠ .handoff) :
    pauseBody c T d = if verifying x then (T.setCtx { x with pausePending := some (some c) }, none)
      else (pauseNow T x false, some { Done.ok with handle := c.handle }) := by
  simp only [pauseBody, withCtx_owned hx ho hd hf]

theorem resumeBody_paused (hp : x.phase = .paused) :
    resumeBody c T d = if resuming x then (unstartCmd (T.setCtx { x with selfPaused := false }) Op.RESUME c, none)
      else (resumeReq T x c.arg0 (some c), none) := by
  simp only [resumeBody, withCtx_owned hx ho hd hf, hp]

theorem resumeBody_handoff (hp : x.phase = .handoff) : resumeBody c T d = (T, some { Done.of .conflict 0 with handle := c.handle }) := by
  simp only [resumeBody, withCtx_owned hx ho hd hf, hp]

theorem resumeBody_runs (hp : x.phase ≠ .paused) (hh : x.phase ≠ .handoff) :
    resumeBody c T d = (T, some { Done.ok with handle := c.handle }) := by
  simp only [resumeBody, withCtx_owned hx ho hd hf]

section
variable (htail : x.tentCount = 0)
include htail

theorem parkBody_notPaused (hp : x.phase ≠ .paused) : parkBody c T d = (T, some { Done.of .conflict 0 with handle := c.handle }) := by
  simp only [parkBody, withCtx_owned hx ho hd hf, htail, hp, ne_eq, not_true_eq_false, not_false_eq_true, if_false, if_true]

theorem parkBody_waits (hp : x.phase = .paused) (hbusy : resuming x = true ∨ fellingNow T x = true ∨ outstanding T c.handle = true) :
    parkBody c T d = (unstartCmd (T.setCtx { x with selfPaused := false }) Op.PARK c, none) := by
  simp only [parkBody, withCtx_owned hx ho hd hf, htail, hp, hbusy, ne_eq, not_true_eq_false, if_false, if_true]

/-- The state and completion of a PARK that seals its request into spill slot `i` (R35, R36). -/
theorem parkBody_parks {i : Nat} {ids : IdPool} (hp : x.phase = .paused) (hres : resuming x = false) (hfell : fellingNow T x = false)
    (hout : outstanding T c.handle = false) (hkey : keyUp T = true) (hdma : T.dmaOk (bits x.hostCq 16 6) (spillAddr T 0) 320 = true)
    (hslot : T.sch.spillIds.alloc (spillSlots T) T.now = some (i, ids)) :
    parkBody c T d =
      (let ticket := ids.ringOf i * 2 ^ 24 + i
       let img := spillImage T x ticket (drbg T 12)
       let v := unpinAdp (rebind T.takeFree x.handle (2 ^ 32 + ticket)) x.adapter
       let u := v.wr (hostXA (spillAddr v i)) img
       (releaseCtx { u with sch := { u.sch with spillIds := ids, spill := amSet i ⟨ids.ringOf i, { x with selfPaused := false }, ticket, img, u.scb.mram.wrapEpoch, false⟩ u.sch.spill } } x,
        some { Done.ok with handle := c.handle, result := ticket })) := by
  simp only [parkBody, withCtx_owned hx ho hd hf, htail, hp, hres, hfell, hout, hkey, hdma, hslot, ne_eq, not_true_eq_false, Bool.false_eq_true, or_self,
    Bool.not_true, if_false, parkName]

end

section
variable (hrole : verifyRole T = true)
include hrole

theorem rollbackBody_noTail (htail : x.tentCount = 0) : rollbackBody c T d = (T, some { Done.of .conflict Detail.SPEC_BUSY with handle := c.handle }) := by
  simp only [rollbackBody, hrole, withCtx_owned hx ho hd hf, htail, Bool.not_true, Bool.false_eq_true, if_false, if_true]

/-- A ROLLBACK of a request with no step to drop, no slot for its tail and no command that waits clears the tail and starts the next step (R141). -/
theorem rollbackBody_clears (htail : x.tentCount ≠ 0) (hdrop : dropStep T x.handle = T) (hh : x.handle = c.handle) (hslot : x.tentSlot = none)
    (hver : x.verifyCmd = none) (hcancel : x.cancelPending = none) :
    rollbackBody c T d =
      (retryLayers (startDecode T { x with tentCount := 0, tentRoot := 0, verifyN := 0, verifyTree := [], verifyDone := false, layer := 0 }),
       some { Done.ok with handle := c.handle }) := by
  simp only [rollbackBody, hrole, withCtx_owned hx ho hd hf, htail, hdrop, hh ▸ hx, hslot, hver, hcancel, Bool.not_true, Bool.false_eq_true, if_false]

end

end

/-- Settles O33: each command's block answers as its rules give for the request's phase. -/
theorem requestsAreReadPausedResumed : Obligations.RequestsAreReadPausedResumed := by
  intro s c x
  simp only [exec_ctxRead, exec_pause, exec_resume, exec_park, exec_rollback]
  refine ⟨fun hready hx => runCommand_ends hready (ctxReadBody_answers hx _), fun ho hd hf => ⟨?pause, ?resume, ?park, ?rollback⟩⟩
  case pause =>
    intro hready hx
    refine ⟨fun hp => ?_, fun hp => ?_, fun hp hh hv => ?_, fun hp hh hv hcancel hdrop hhandle => ?_⟩
    · exact runCommand_ends hready (pauseBody_paused hx ho hd hf _ hp)
    · exact runCommand_ends hready (pauseBody_handoff hx ho hd hf _ hp)
    · exact runCommand_goesOn hready (by rw [pauseBody_runs hx ho hd hf _ hp hh, if_pos hv])
    · refine runCommand_ends hready ?_
      rw [pauseBody_runs hx ho hd hf _ hp hh, if_neg (Bool.eq_false_iff.mp hv), pauseNow_idle (hhandle ▸ hx) hdrop hcancel]
  case resume =>
    intro hready hx
    refine ⟨⟨fun hp hres => ?_, fun hp hres hfell => ?_, fun hp hres hfell hmay => ?_, fun hp hres hfell hmay hcut hprompt => ?_⟩, fun hp => ?_, fun hp hh => ?_⟩
    · exact runCommand_goesOn hready (by rw [resumeBody_paused hx ho hd hf _ hp, if_pos hres])
    · exact runCommand_goesOn hready (by rw [resumeBody_paused hx ho hd hf _ hp, if_neg (Bool.eq_false_iff.mp hres), resumeReq_software, if_pos hfell]; rfl)
    · exact runCommand_goesOn hready (by rw [resumeBody_paused hx ho hd hf _ hp, if_neg (Bool.eq_false_iff.mp hres), resumeReq_redirected hres hfell _ _ hmay]; rfl)
    · exact runCommand_goesOn hready (by rw [resumeBody_paused hx ho hd hf _ hp, if_neg (Bool.eq_false_iff.mp hres), resumeReq_resumed hres hfell _ _ hmay hcut hprompt]; rfl)
    · exact runCommand_ends hready (resumeBody_handoff hx ho hd hf _ hp)
    · exact runCommand_ends hready (resumeBody_runs hx ho hd hf _ hp hh)
  case park =>
    intro i ids hready hx htail
    refine ⟨fun hp => ?_, fun hp hbusy => ?_, fun hp hres hfell hout hkey hdma hslot => ?_⟩
    · exact runCommand_ends hready (parkBody_notPaused hx ho hd hf _ htail hp)
    · exact runCommand_goesOn hready (parkBody_waits hx ho hd hf _ htail hp hbusy)
    · exact runCommand_ends hready (parkBody_parks hx ho hd hf _ htail hp hres hfell hout hkey hdma hslot)
  case rollback =>
    intro hready hrole hx
    refine ⟨fun htail => ?_, fun htail hdrop hh hslot hver hcancel => ?_⟩
    · exact runCommand_ends hready (rollbackBody_noTail hx ho hd hf _ hrole htail)
    · exact runCommand_ends hready (rollbackBody_clears hx ho hd hf _ hrole htail hdrop hh hslot hver hcancel)

end Sys2Proof.Machine
end

section
/-! PROOFS. What an operation leaves to the requests: the scheduler's state and the identity registers through accesses to memory and to the local area, and a request's context through the end of its stall. -/

namespace Sys2Proof.Machine

/-! ### The context of a handle (R27 to R29) -/

theorem State.ctx_congr {s t : State} (hctxs : t.sch.ctxs = s.sch.ctxs) (hcap : t.r Reg.MGT_FAMILY_CAP_CTX_LOG2 = s.r Reg.MGT_FAMILY_CAP_CTX_LOG2) (h : Nat) :
    t.ctx h = s.ctx h := by
  simp only [State.ctx, ctxCap, hctxs, hcap]
  rfl

/-- A handle names the context that stands at its index and bears it, where the index is one this member has. -/
theorem State.ctx_eq_some {s : State} {h : Nat} {x : Ctx} :
    s.ctx h = some x ↔ (bits h 29 3 = 0 ∧ bits h 0 21 < ctxCap s) ∧ amGet (bits h 0 21) s.sch.ctxs = some x ∧ x.handle = h := by
  by_cases hring : bits h 29 3 = 0
  · by_cases hcap : ctxCap s ≤ bits h 0 21
    · simp [State.ctx, hring, hcap]
    · cases hget : amGet (bits h 0 21) s.sch.ctxs with
      | none => simp [State.ctx, hring, hcap, hget]
      | some y =>
        by_cases hy : y.handle = h
        · simp only [State.ctx, hring, hcap, hget, hy, if_true, if_false, ne_eq, not_true_eq_false, Option.some.injEq, true_and, Nat.lt_of_not_le hcap]
          exact ⟨fun e => ⟨e, e ▸ hy⟩, And.left⟩
        · simp only [State.ctx, hring, hcap, hget, hy, if_false, ne_eq, not_true_eq_false, Option.some.injEq, true_and, Nat.lt_of_not_le hcap, reduceCtorEq, false_iff]
          rintro ⟨rfl, e⟩
          exact hy e
  · simp [State.ctx, hring]

theorem State.ctx_handle {s : State} {h : Nat} {x : Ctx} (hx : s.ctx h = some x) : x.handle = h := (State.ctx_eq_some.mp hx).2.2

theorem State.ctx_setCtx {s : State} {x y : Ctx} (hx : s.ctx y.handle = some x) : (s.setCtx y).ctx y.handle = some y := by
  obtain ⟨hin, -, -⟩ := State.ctx_eq_some.mp hx
  exact State.ctx_eq_some.mpr ⟨hin, amGet_set_same .., rfl⟩

/-! ### What stands still -/

/-- From s to t the scheduler's requests and commits stand still, and so do the identity registers: those below BAR0 offset 0x100, whose keys lie below 0x4000. -/
structure SameRequests (s t : State) : Prop where
  sch : t.sch = s.sch
  regs : ∀ f : Fld, f.key < 0x4000 → t.r f = s.r f

namespace SameRequests
variable {s t u : State}

theorem refl (s : State) : SameRequests s s := ⟨rfl, fun _ _ => rfl⟩

theorem trans (h : SameRequests s t) (k : SameRequests t u) : SameRequests s u :=
  ⟨k.sch.trans h.sch, fun f hf => (k.regs f hf).trans (h.regs f hf)⟩

theorem of_eq (hsch : t.sch = s.sch) (hregs : t.regs = s.regs) : SameRequests s t := ⟨hsch, fun f _ => by simp only [State.r, hregs]⟩

theorem ctx (h : SameRequests s t) (n : Nat) : t.ctx n = s.ctx n :=
  State.ctx_congr (by rw [h.sch]) (h.regs _ (by decide)) n

theorem nodeId (h : SameRequests s t) : t.nodeId = s.nodeId := h.regs _ (by decide)

theorem commitBusy (h : SameRequests s t) (n : Nat) : commitBusy t n = Machine.commitBusy s n := by simp only [Machine.commitBusy, h.sch]

theorem ite {p : Prop} [Decidable p] (ht : SameRequests s t) (hu : SameRequests s u) : SameRequests s (if p then t else u) := by
  split
  · exact ht
  · exact hu

theorem foldl {α : Type} {g : State → α → State} (hg : ∀ t a, SameRequests t (g t a)) (l : List α) (s : State) : SameRequests s (l.foldl g s) := by
  induction l generalizing s with
  | nil => exact refl s
  | cons a l ih => exact (hg s a).trans (ih (g s a))

end SameRequests

theorem Fld.key_at_le (f : Fld) (n i : Nat) : f.key ≤ (f.at n i).key := by
  simp only [Fld.key, Fld.at]
  omega

section
variable {s t : State} (h : SameRequests s t) {f : Fld} (hf : 0x4000 ≤ f.key)
include h

theorem SameRequests.wr (a : Nat) (l : List Byte) : SameRequests s (t.wr a l) := h.trans (.of_eq rfl rfl)

include hf

theorem SameRequests.setR (v : Nat) : SameRequests s (t.setR f v) := h.trans ⟨rfl, fun g hg => State.setR_r_other (by omega) t v⟩

theorem SameRequests.cnt (n : Nat) : SameRequests s (t.cnt f n) := h.setR hf _

theorem SameRequests.setR_at (n i v : Nat) : SameRequests s (t.setR (f.at n i) v) := h.setR (hf.trans (f.key_at_le n i)) v

theorem SameRequests.cnt_at (n i v : Nat) : SameRequests s (t.cnt (f.at n i) v) := h.setR_at hf n i _

theorem SameRequests.wrap_at (n i v : Nat) : SameRequests s (t.wrap (f.at n i) v) := h.setR_at hf n i _

end

/-! ### The protected write path and the accesses of the node's own movers -/

theorem hotDrop_same (s : State) (line : Nat) : SameRequests s (hotDrop s line) := by
  unfold hotDrop
  split
  · exact .refl s
  · dsimp only
    refine .setR ?_ (by decide) _
    exact .of_eq rfl rfl

theorem hotEvict_same (s : State) (a n : Nat) : SameRequests s (hotEvict s a n) := .foldl (fun t (e : Nat × HotLine) => hotDrop_same t e.1) _ _

theorem chargeClass_same (s : State) (c n : Nat) : SameRequests s (chargeClass s c n) := by
  unfold chargeClass
  dsimp only
  refine .ite (.refl s) (.ite (.wrap_at ?_ (by decide) _ _ _) ?_)
  all_goals exact .of_eq rfl rfl

theorem sendDelta_same (s : State) (x : Nat) (b : List Byte) : SameRequests s (sendDelta s x b).1 := .of_eq rfl rfl

theorem sendDeltas_same (l : List (Nat × List Byte)) (p : State × List Nat) :
    SameRequests p.1 (l.foldl (fun acc r => ((sendDelta acc.1 r.1 r.2).1, acc.2 ++ [(sendDelta acc.1 r.1 r.2).2])) p).1 := by
  induction l generalizing p with
  | nil => exact .refl _
  | cons r l ih => exact (sendDelta_same p.1 r.1 r.2).trans (ih ((sendDelta p.1 r.1 r.2).1, p.2 ++ [(sendDelta p.1 r.1 r.2).2]))

theorem protWrite_same (s : State) (a : Nat) (b : List Byte) : SameRequests s (protWrite s a b).1 := by
  unfold protWrite
  dsimp only
  split
  · exact .wr (.refl s) a b
  · split
    · have counted : SameRequests s ((s.wr a b).cnt Reg.TIR_CP_COUNT_DEGRADED 1) := .cnt (.wr (.refl s) a b) (by decide) 1
      exact counted.trans (.of_eq rfl rfl)
    · exact ((chargeClass_same s 1 b.length).wr a b).trans (sendDeltas_same _ (_, []))

theorem putBytes_same (s : State) (a : Nat) (b : List Byte) : SameRequests s (putBytes s a b) :=
  (hotEvict_same s a b.length).trans (protWrite_same _ a b)

theorem pageTouch_same (s : State) (a n : Nat) : SameRequests s (pageTouch s a n) := by
  unfold pageTouch
  split
  · exact .refl s
  · exact .foldl (fun t p => .wr (.refl t) _ _) _ _

theorem homeAccess_same (s : State) (a n : Nat) : SameRequests s (homeAccess s a n) := (pageTouch_same s a n).trans (hotEvict_same _ a n)

/-! ### Profile tables and the writing of rows -/

theorem tblRegs_same (s : State) (t : Nat) : SameRequests s (tblRegs s t) := by
  unfold tblRegs
  split <;>
  exact .setR_at (.setR_at (.setR_at (.setR_at (.setR_at (.setR_at (.refl s) (by decide) _ _ _) (by decide) _ _ _) (by decide) _ _ _) (by decide) _ _ _)
    (by decide) _ _ _) (by decide) _ _ _

theorem setTbl_same (s : State) (t : Nat) (T : TblSlot) : SameRequests s (setTbl s t T) :=
  .trans (t := { s with cdc := { s.cdc with tables := amSet t T s.cdc.tables } }) (.of_eq rfl rfl) (tblRegs_same _ t)

theorem tblUse_same (s : State) (t buf n : Nat) (add : Bool) : SameRequests s (tblUse s t buf n add) := by
  unfold tblUse
  split
  · exact .refl s
  · exact setTbl_same s t _

/-- The table of open bolts is no part of what stands still. -/
theorem openBolts_same (s : State) (bs : AMap (Nat × Nat)) : SameRequests s { s with cdc := { s.cdc with openBolts := bs } } := .of_eq rfl rfl

theorem boltUnuse_same (s : State) (a : Nat) : SameRequests s (boltUnuse s a) := by
  unfold boltUnuse
  split
  · exact .refl s
  · exact (openBolts_same s _).trans (tblUse_same _ _ _ _ _)

theorem boltUse_same (s : State) (a t ver : Nat) : SameRequests s (boltUse s a t ver) := by
  have used (b : Nat) : SameRequests s (tblUse { s with cdc := { s.cdc with openBolts := amSet a (t, b) s.cdc.openBolts } } t b 1 true) :=
    (openBolts_same s _).trans (tblUse_same _ _ _ _ _)
  unfold boltUse
  split
  · exact .refl s
  · split
    · exact .refl s
    · exact .ite (.refl s) (.ite (used _) (.ite (used _) (.refl s)))

theorem boltStored_same (s : State) (a : Nat) (h : BoltHdr) : SameRequests s (boltStored s a h) := by
  unfold boltStored
  split
  · exact boltUnuse_same s a
  · exact boltUse_same s a _ _

theorem ite_ok_cases {p : Prop} [Decidable p] {s t u : State} (h : (if p then .ok s else .ok t : Except (Status × Nat) State) = .ok u) : u = s ∨ u = t := by
  split at h
  · exact .inl (Except.ok.inj h).symm
  · exact .inr (Except.ok.inj h).symm

theorem writeRows_same {s t : State} {staged : List Byte} {addr tenant : Nat} (h : writeRows s staged addr tenant = .ok t) : SameRequests s t := by
  unfold writeRows at h
  dsimp only at h
  split at h
  · cases h
  · rcases ite_ok_cases h with rfl | rfl
    · exact .refl _
    · exact ((putBytes_same s _ _).trans (homeAccess_same _ _ _)).trans (boltStored_same _ _ _)

/-! ### Copies of tentative rows (R140) -/

/-- A step of a chain of copies: what it does after copies that went well keeps the requests, and a copy that stopped is passed on. -/
structure CopyStep {α : Type} (g : CopyEnd → α → CopyEnd) : Prop where
  same : ∀ s a t, g (.ok s) a = .ok t → SameRequests s t
  stops : ∀ e a, (∀ t, e ≠ .ok t) → g e a = e

section
variable {α : Type} {g : CopyEnd → α → CopyEnd} (hg : CopyStep g)
include hg

theorem CopyStep.foldl_stops (l : List α) {e : CopyEnd} (he : ∀ t, e ≠ .ok t) : l.foldl g e = e := by
  induction l with
  | nil => rfl
  | cons a l ih => rw [List.foldl_cons, hg.stops e a he, ih]

theorem CopyStep.foldl_same {l : List α} {s t : State} (h : l.foldl g (.ok s) = .ok t) : SameRequests s t := by
  induction l generalizing s with
  | nil => cases h; exact .refl _
  | cons a l ih =>
    rw [List.foldl_cons] at h
    by_cases hcopy : ∃ u, g (.ok s) a = .ok u
    · obtain ⟨u, hu⟩ := hcopy
      exact (hg.same s a u hu).trans (ih (hu ▸ h))
    · rw [hg.foldl_stops l fun u hu => hcopy ⟨u, hu⟩] at h
      exact absurd ⟨t, h⟩ hcopy

end

theorem copyPath_same {s t : State} {x : Ctx} {m : Model} {slots path : List Nat} {layer h : Nat}
    (hcopy : copyPath s x m slots path layer h = .ok t) : SameRequests s t := by
  unfold copyPath at hcopy
  dsimp only at hcopy
  split at hcopy
  · cases hcopy
  · refine CopyStep.foldl_same ⟨fun s i u hu => ?_, fun e i he => ?_⟩ hcopy
    · dsimp only at hu
      split at hu
      · rename_i hrows
        cases hu
        exact writeRows_same hrows
      · cases hu
    · cases e with
      | ok t => exact absurd rfl (he t)
      | unreadable | refused => rfl

theorem copyAll_same {s t : State} {x : Ctx} {m : Model} {slots path : List Nat} (hcopy : copyAll s x m slots path = .ok t) : SameRequests s t := by
  have heads (layer : Nat) : CopyStep fun (r : CopyEnd) (h : Nat) => match r with | .ok s => copyPath s x m slots path layer h | e => e :=
    ⟨fun _ _ _ => copyPath_same, fun e _ he => by
      cases e with
      | ok t => exact absurd rfl (he t)
      | unreadable | refused => rfl⟩
  have layers : CopyStep fun (r : CopyEnd) (layer : Nat) =>
      (List.range m.kvHeads).foldl (fun (r : CopyEnd) h => match r with | .ok s => copyPath s x m slots path layer h | e => e) r :=
    ⟨fun _ layer _ h => (heads layer).foldl_same h, fun _ layer he => (heads layer).foldl_stops _ he⟩
  exact layers.foldl_same hcopy

/-! ### Local slots and stalls -/

theorem allocLocal_same {s t : State} {bytes : List Nat} {i r : Nat} (h : allocLocal s bytes = some (t, i, r)) : SameRequests s t := by
  unfold allocLocal at h
  split at h
  · cases h
  · split at h
    · cases h
    · cases h
      exact .of_eq rfl rfl

theorem stallBegin_same (s : State) (h cause : Nat) : SameRequests s (stallBegin s h cause) := by
  unfold stallBegin
  split
  · exact .of_eq rfl rfl
  · have counted : SameRequests s (s.cnt (Reg.TIR_STALL_COUNT_EVENTS.at 8 cause) 1) := .cnt_at (.refl s) (by decide) _ _ _
    exact counted.trans (.of_eq rfl rfl)

theorem openCut_same (s : State) (x : Ctx) : SameRequests s (openCut s x).1 ∧ (openCut s x).2.handle = x.handle := by
  unfold openCut
  split
  · exact ⟨.refl s, rfl⟩
  · split
    · exact ⟨.refl s, rfl⟩
    · split
      · exact ⟨.refl s, rfl⟩
      · split
        · exact ⟨stallBegin_same _ _ _, rfl⟩
        · rename_i h
          exact ⟨allocLocal_same h, rfl⟩

theorem slotsAhead_same {m : Model} {n fuel : Nat} {s t : State} {x y : Ctx} (h : slotsAhead s x m n fuel = some (t, y)) :
    SameRequests s t ∧ y.handle = x.handle := by
  induction fuel generalizing s x with
  | zero => cases h; exact ⟨.refl _, rfl⟩
  | succ fuel ih =>
    unfold slotsAhead at h
    split at h
    · cases h
      exact ⟨.refl _, rfl⟩
    · split at h
      · cases h
      · rename_i hall
        obtain ⟨hs, hy⟩ := ih h
        exact ⟨(allocLocal_same hall).trans hs, hy⟩

/-- The request's context stands in the table as x but for its counters, and no commit of its word is in flight. -/
structure IdleAs (x : Ctx) (s : State) : Prop where
  ctx : ∃ n, s.ctx x.handle = some { x with counters := n }
  idle : commitBusy s x.handle = false

theorem IdleAs.same {x : Ctx} {s t : State} (hk : IdleAs x s) (h : SameRequests s t) : IdleAs x t :=
  ⟨by rw [h.ctx]; exact hk.ctx, by rw [h.commitBusy]; exact hk.idle⟩

/-- The end of a request's stall changes of its context the counters alone, and no commit. -/
theorem IdleAs.stallEnd {x : Ctx} {s : State} (hk : IdleAs x s) : IdleAs x (stallEnd s x.handle) := by
  unfold Machine.stallEnd
  split
  · exact hk
  · dsimp only
    generalize hs₁ : State.mk .. = s₁
    have ended : SameRequests s s₁ := by
      subst hs₁
      exact (SameRequests.cnt_at (f := Reg.TIR_STALL_COUNT_US) (.refl s) (by decide) 8 _ _).trans (.of_eq rfl rfl)
    obtain ⟨⟨n, hn⟩, hidle⟩ := hk.same ended
    rw [hn]
    exact ⟨⟨_, State.ctx_setCtx hn⟩, hidle⟩

theorem IdleAs.stallClear {x : Ctx} {s : State} (hk : IdleAs x s) (cause : Nat) : IdleAs x (stallClear s x.handle cause) := by
  unfold Machine.stallClear
  split
  · exact hk
  · split
    · exact hk.stallEnd
    · exact hk.same (.of_eq rfl rfl)

theorem IdleAs.stallClears {x : Ctx} {s : State} (hk : IdleAs x s) (causes : List Nat) :
    IdleAs x (causes.foldl (fun s c => Machine.stallClear s x.handle c) s) := by
  induction causes generalizing s with
  | nil => exact hk
  | cons c causes ih => exact ih (hk.stallClear c)

end Sys2Proof.Machine
end

section
/-! PROOFS. The commit word (R43 to R48, R54 to R57): how a commit of a request with none in flight goes out, and what the commands and the release that ask for one answer. -/

namespace Sys2Proof.Machine

/-! ### How a commit goes out (R44, R45) -/

theorem amSet_set_same {α : Type} (k : Nat) (v w : α) (m : AMap α) : amSet k v (amSet k w m) = amSet k v m := by
  induction m with
  | nil => simp [amSet]
  | cons e m ih =>
    obtain ⟨j, u⟩ := e
    by_cases hlt : k < j
    · simp [amSet, hlt]
    · by_cases heq : k = j
      · simp [amSet, heq]
      · simp [amSet, hlt, heq, ih]

/-- A commit whose request stands as it was when the commit was made goes out as made: its compare-and-set, or first its writes. -/
theorem commitStart_eq {s : State} {cm : Commit} {x : Ctx} (hx : s.ctx cm.handle = some x) (hword : cm.expected = x.word s.nodeId) (id : Nat) :
    commitStart s id cm =
      if cm.stores = [] then sendReq s id cm
      else cm.stores.foldl (fun s w => claimWrite s x (.store id) w.1 w.2 none)
        { s with sch := { s.sch with commits := amSet id { cm with stage := .storing cm.stores.length } s.sch.commits } } := by
  simp only [commitStart, hx, ← hword, List.isEmpty_iff]

/-- The commits that are part of a step or chunk (R45, R210). -/
theorem ofStep_iff (k : CommitKind) : k.ofStep = true ↔ k = .token ∨ k = .commitSpec ∨ k = .prefill ∨ k = .decode := by
  cases k <;> simp [CommitKind.ofStep]

/-- A commit of the word of a request with none in flight goes out at once. -/
theorem issueCommit_asked {s : State} {x : Ctx} (hk : IdleAs x s) {k : CommitKind} (hcut : k.cut = none) (hwrite : k.isWrite = false)
    (ph : Phase) (len : Nat) (toks : List Nat) (cmd : Option (Nat × Cmd)) : issueCommit s x k ph len toks cmd = asked s x k ph len toks cmd := by
  obtain ⟨⟨n, hx⟩, hidle⟩ := hk
  have hbegun : SameRequests s (if k.ofStep = true then stallBegin s x.handle St.record else s) := .ite (stallBegin_same ..) (.refl s)
  simp only [issueCommit, issueStored, hidle, Bool.false_eq_true, if_false, asked, ← ofStep_iff]
  generalize (if k.ofStep = true then stallBegin s x.handle St.record else s) = t at hbegun
  have hword : x.word s.nodeId = ({ x with counters := n } : Ctx).word t.nodeId := by
    rw [hbegun.nodeId]
    rfl
  rw [commitStart_eq (x := { x with counters := n })]
  case hx => exact (hbegun.ctx _).trans hx
  case hword => exact hword
  by_cases hstores : tokenStores ⟨x.recNode, x.recKey, x.recOffset⟩ toks.length x.committedLen toks = []
  case pos =>
    simp only [Ctx.record, hstores, sendReq, addCommit, commitOf, amSet_set_same, Commit.req, hcut, hwrite, hbegun.sch, Bool.false_eq_true, if_true, if_false, decide_true]
    rfl
  case neg =>
    simp only [Ctx.record, hstores, addCommit, commitOf, amSet_set_same, hbegun.sch, if_false, decide_false]
    rfl

theorem IdleAs.of_idle {s : State} {x : Ctx} (hx : s.ctx x.handle = some x) (hidle : commitBusy s x.handle = false) : IdleAs x s :=
  ⟨⟨x.counters, hx⟩, hidle⟩

theorem IdleAs.of_setCtx {s : State} {x y : Ctx} (hx : s.ctx y.handle = some x) (hidle : commitBusy s y.handle = false) : IdleAs y (s.setCtx y) :=
  .of_idle (State.ctx_setCtx hx) hidle

theorem awaitsToken_idle {s : State} {x : Ctx} (h : awaitsToken s x = true) : commitBusy s x.handle = false := by
  simp only [awaitsToken, Bool.and_eq_true, Bool.not_eq_true'] at h
  obtain ⟨⟨⟨-, hidle⟩, -⟩, -⟩ := h
  exact hidle

/-- A request as MIGRATE offers it to a receiver (R46). -/
def Ctx.handedTo (x : Ctx) (node : Nat) : Ctx :=
  { x with migrateWait := none, phase := .handoff, peerNode := node, resumeDecode := decide (x.phase = .paused), resumeAdmitted := false }

theorem beginHandoff_idle {s : State} {x : Ctx} (hmove : moveBusy s x.handle = false)
    (hdrop : dropWork (s.setCtx { x with migrateWait := none }) x.handle = s.setCtx { x with migrateWait := none })
    (hback : (s.setCtx { x with migrateWait := none }).ctx x.handle = some { x with migrateWait := none }) (dst : Nat) (cmd : Option Cmd) :
    beginHandoff s x dst cmd =
      issueCommit ((s.setCtx { x with migrateWait := none }).setCtx (x.handedTo dst)) (x.handedTo dst) .handoff .handoff x.committedLen []
        (cmd.map fun c => (Op.MIGRATE, c)) := by
  simp only [beginHandoff, hmove, Bool.false_eq_true, if_false, hdrop, hback]
  rfl

/-! ### What the commands that commit answer -/

section
variable {T : State} {c : Cmd} {x : Ctx} (hx : T.ctx c.handle = some x) (ho : x.owner = true) (hd : x.phase ≠ .done) (hf : x.phase ≠ .failed) (d : List Byte)
include hx ho hd hf

theorem tokenBody_refused (h : c.arg1 ≠ x.tlogLen ∨ awaitsToken T x = false) : tokenBody c T d = (T, some { Done.of .conflict 0 with handle := c.handle }) := by
  simp only [tokenBody, withCtx_owned hx ho hd hf, Bool.not_eq_true', h, if_true]

/-- TOKEN of the position that a step awaits asks for the log one longer (R45, R511). -/
theorem tokenBody_asks (hpos : c.arg1 = x.tlogLen) (hawaits : awaitsToken T x = true) :
    tokenBody c T d = (asked T x .token x.committed (x.committedLen + 1) [c.arg0] (some (Op.TOKEN, c)), none) := by
  have hk : IdleAs x T := .of_idle (State.ctx_handle hx ▸ hx) (awaitsToken_idle hawaits)
  simp only [tokenBody, withCtx_owned hx ho hd hf, hpos, hawaits, ne_eq, not_true_eq_false, Bool.not_true, Bool.false_eq_true, or_self, if_false]
  rw [issueCommit_asked hk rfl rfl]

theorem cancelBody_waits (hp : x.phase ≠ .handoff) (hstep : stepInFlight T x = true) :
    cancelBody c T d = (T.setCtx { x with cancelPending := some c }, none) := by
  simp only [cancelBody, withCtx_owned hx ho hd hf, hp, hstep, if_false, if_true]

theorem cancelBody_asks (hidle : commitBusy T x.handle = false) (hp : x.phase ≠ .handoff) (hstep : stepInFlight T x = false) :
    cancelBody c T d = (asked T x (.endDone endCancelled) .done x.committedLen [] (some (Op.CANCEL, c)), none) := by
  have hk : IdleAs x T := .of_idle (State.ctx_handle hx ▸ hx) hidle
  simp only [cancelBody, withCtx_owned hx ho hd hf, hp, hstep, Bool.false_eq_true, if_false, commitDone]
  rw [issueCommit_asked hk rfl rfl]

theorem cancelBody_released (hp : x.phase = .handoff) (hrel : x.released = true) : cancelBody c T d = (T, some { Done.of .conflict 0 with handle := c.handle }) := by
  simp only [cancelBody, withCtx_owned hx ho hd hf, hp, hrel, if_true]

/-- CANCEL of a sender that has not released sends ABORT to the receiver it has, and asks for the end (R53). -/
theorem cancelBody_aborts (hidle : commitBusy T x.handle = false) (hp : x.phase = .handoff) (hrel : x.released = false) :
    cancelBody c T d =
      (asked ((if x.peerNode ≠ 0 then told T x.peerNode (.abort ⟨T.nodeId, x.handle, x.hseq, x.peerHandle⟩) else T).setCtx { x with peerNode := 0 })
        { x with peerNode := 0 } (.endDone endCancelled) .done x.committedLen [] (some (Op.CANCEL, c)), none) := by
  have hto : SameRequests T (if x.peerNode ≠ 0 then told T x.peerNode (.abort ⟨T.nodeId, x.handle, x.hseq, x.peerHandle⟩) else T) :=
    .ite (.of_eq rfl rfl) (.refl T)
  have hk : IdleAs { x with peerNode := 0 } ((if x.peerNode ≠ 0 then told T x.peerNode (.abort ⟨T.nodeId, x.handle, x.hseq, x.peerHandle⟩) else T).setCtx { x with peerNode := 0 }) :=
    .of_setCtx ((hto.ctx _).trans (State.ctx_handle hx ▸ hx)) ((hto.commitBusy _).trans hidle)
  rw [← issueCommit_asked hk rfl rfl]
  simp only [cancelBody, withCtx_owned hx ho hd hf, hp, hrel, Bool.false_eq_true, if_true, if_false]
  rfl

section
variable (htail : x.tentCount = 0) (hp : x.phase = .decode ∨ (x.phase = .paused ∧ x.resumeDecode = true))
include htail hp

theorem migrateBody_nowhere (hto : c.arg0 = 0 ∨ c.arg0 = T.nodeId) : migrateBody c T d = (T, some { Done.of .fenced 0 with handle := c.handle }) := by
  simp only [migrateBody, withCtx_owned hx ho hd hf, htail, hp, hto, ne_eq, not_true_eq_false, if_false, if_true]

/-- MIGRATE of a request with no cut on the move and no work to drop names the receiver and asks for HANDOFF (R46, R206). -/
theorem migrateBody_asks (hidle : commitBusy T x.handle = false) (h0 : c.arg0 ≠ 0) (hself : c.arg0 ≠ T.nodeId) (hfell : fellingNow T x = false)
    (hmove : moveBusy T x.handle = false) (hh : x.handle = c.handle)
    (hdrop : dropWork (T.setCtx { x with migrateWait := none }) c.handle = T.setCtx { x with migrateWait := none })
    (hback : (T.setCtx { x with migrateWait := none }).ctx c.handle = some { x with migrateWait := none }) :
    migrateBody c T d =
      (asked ((T.setCtx { x with migrateWait := none }).setCtx (x.handedTo c.arg0)) (x.handedTo c.arg0) .handoff .handoff x.committedLen [] (some (Op.MIGRATE, c)), none) := by
  have hk : IdleAs (x.handedTo c.arg0) ((T.setCtx { x with migrateWait := none }).setCtx (x.handedTo c.arg0)) :=
    .of_setCtx ((congrArg _ hh).trans hback) hidle
  have hbegins : migrateBody c T d = (beginHandoff T x c.arg0 (some c), none) := by
    simp only [migrateBody, withCtx_owned hx ho hd hf, htail, hp, h0, hself, hfell, ne_eq, not_true_eq_false, or_self, Bool.false_eq_true, if_false, if_true]
  rw [hbegins, beginHandoff_idle hmove ((congrArg _ hh).trans hdrop) ((congrArg _ hh).trans hback), Option.map_some, issueCommit_asked hk rfl rfl]

end

end

/-! ### RECOVER and CLAIM -/

section
variable {T : State} {c : Cmd} (d : List Byte)

theorem recoverBody_noId (hid : recoverId c = 0) : recoverBody c T d = (T, some { Done.of .fenced 0 with reason := .format }) := by
  simp only [recoverBody, hid, if_true, answer]

theorem claimBody_noId (hid : recoverId c = 0) : claimBody c T d = (T, some { Done.of .fenced 0 with reason := .format }) := by
  simp only [claimBody, hid, if_true, answer]

section
variable (hid : recoverId c ≠ 0)
include hid

theorem recoverBody_notHere (hmay : mayRecover T c = false) : recoverBody c T d = (T, some { Done.of .redirect 0 with value := T.redirectNode }) := by
  simp only [recoverBody, hid, hmay, Bool.not_false, if_true, if_false, redirect]

theorem claimBody_notHere (hmay : mayRecover T c = false) : claimBody c T d = (T, some { Done.of .redirect 0 with value := T.redirectNode }) := by
  simp only [claimBody, hid, hmay, Bool.not_false, if_true, if_false, redirect]

section
variable (hmay : mayRecover T c = true)
include hmay

section
variable {x : Ctx} (hknown : (ctxOfRecord T (recoverLoc c) fun x => x.recoverId == recoverId c) = some x)
include hknown

theorem recoverBody_known : recoverBody c T d = (T, some { Done.ok with handle := x.handle }) := by
  simp only [recoverBody, hid, hmay, hknown, Bool.not_true, Bool.false_eq_true, if_false, answer]

theorem claimBody_known : claimBody c T d = (T, some { Done.ok with handle := x.handle }) := by
  simp only [claimBody, hid, hmay, hknown, Bool.not_true, Bool.false_eq_true, if_false, answer]

end

section
variable (hnew : (ctxOfRecord T (recoverLoc c) fun x => x.recoverId == recoverId c) = none) (hfirst : recovering T c = false)
include hnew hfirst

theorem recoverBody_reads : recoverBody c T d = (sendRecordRead T .recover c Op.RECOVER 0, none) := by
  simp only [recoverBody, hid, hmay, hnew, hfirst, Bool.not_true, Bool.false_eq_true, if_false]

theorem claimBody_noneTaken (htaken : (ctxOfRecord T (recoverLoc c) fun x => x.taken && !x.owner && decide (x.phase = .handoff)) = none) :
    claimBody c T d = (T, some (Done.of .conflict 0)) := by
  simp only [claimBody, hid, hmay, hnew, hfirst, htaken, Bool.not_true, Bool.false_eq_true, if_false, fail]

theorem claimBody_taken {x : Ctx} (htaken : (ctxOfRecord T (recoverLoc c) fun x => x.taken && !x.owner && decide (x.phase = .handoff)) = some x) :
    claimBody c T d =
      if bits c.arg2 23 3 ≠ 2 ∨ bits c.arg2 48 16 ≠ x.peerNode then (T, some { Done.of .stale 0 with handle := x.handle })
      else (sendRecordRead T .claim c Op.CLAIM x.handle, none) := by
  simp only [claimBody, hid, hmay, hnew, hfirst, htaken, Bool.not_true, Bool.false_eq_true, if_false, Phase.code]
  rfl

end

end

end

end

/-! ### The release of a prompt's first chunk -/

theorem exec_chunkRelease (h : Nat) (s : State) : exec (.chunkRelease h) s = goesOn s (chunkRelease s h) := rfl

/-- The first chunk of an admitted request, once nothing keeps it, asks for PREFILL and is queued (R46, R180, R181). -/
theorem chunkRelease_first {s : State} {x : Ctx} (hx : s.ctx x.handle = some x) (ho : x.owner = true) (hp : x.phase = .admitted) (hrec : x.hasRecord = true)
    (hstep : x.stepBusy = false) (hlook : x.lookupBusy = false) (hkv : x.kvLen < x.promptLen) (hlog : x.tlogLen = x.promptLen) (hneed : x.needCoppice = [])
    (hfelled : felledCuts x = []) (hsettle : settling s x.handle = false) (hidle : commitBusy s x.handle = false) (hcq : cqHeld s x = false)
    (hrole : roleEnables s [1, 2, 4] = true) (hfill : needsFill s x.handle = false) :
    chunkRelease s x.handle =
      (let y := { x with phase := .prefill }
       let U := asked (s.setCtx y) y .prefill .prefill x.committedLen [] none
       releaseWork U { y with fillWait := false } 2 (nextChunk U y)) := by
  have hk : IdleAs { x with phase := .prefill } (s.setCtx { x with phase := .prefill }) := .of_setCtx hx hidle
  have hrole' : roleEnables s [rolePrompt, roleGeneration, roleMixed] = true := hrole
  have hfirst : (x.phase == Phase.admitted) = true := beq_iff_eq.mpr hp
  unfold chunkRelease
  simp only [hx]
  rw [if_pos (by simp [*]), if_neg (Bool.eq_false_iff.mp hfill), if_pos hfirst, issueCommit_asked hk rfl rfl]

/-- Settles O34: each command's block asks for its commit, or answers as its rules give, and a commit with none before it goes out at once. -/
theorem requestCommandsCommit : Obligations.RequestCommandsCommit := by
  intro s c x
  simp only [exec_token, exec_cancel, exec_migrate, exec_chunkRelease]
  refine ⟨fun ho hd hf => ⟨?token, ?cancel, ?migrate, ?chunk⟩, fun r => ?record⟩
  case token =>
    intro hready hx
    refine ⟨fun hpos hawaits => ?_, fun hbad => ?_⟩
    · exact runCommand_goesOn hready (tokenBody_asks hx ho hd hf _ hpos hawaits)
    · exact runCommand_ends hready (tokenBody_refused hx ho hd hf _ hbad)
  case cancel =>
    intro hready hx hidle
    refine ⟨fun hp hstep => ?_, fun hp hstep _ => ?_, fun hp hrel => ?_, fun hp hrel _ => ?_⟩
    · exact runCommand_goesOn hready (cancelBody_waits hx ho hd hf _ hp hstep)
    · exact runCommand_goesOn hready (cancelBody_asks hx ho hd hf _ hidle hp hstep)
    · exact runCommand_ends hready (cancelBody_released hx ho hd hf _ hp hrel)
    · exact runCommand_goesOn hready (cancelBody_aborts hx ho hd hf _ hidle hp hrel)
  case migrate =>
    intro hready hx htail hidle hp
    refine ⟨fun hto => ?_, fun h0 hself hfell hmove hh hdrop hback => ?_⟩
    · exact runCommand_ends hready (migrateBody_nowhere hx ho hd hf _ htail hp hto)
    · exact runCommand_goesOn hready (migrateBody_asks hx ho hd hf _ htail hp hidle h0 hself hfell hmove hh hdrop hback)
  case chunk =>
    intro hx hp hrec hstep hlook hkv hlog hneed hfelled hsettle hidle hcq hrole hfill
    rw [chunkRelease_first hx ho hp hrec hstep hlook hkv hlog hneed hfelled hsettle hidle hcq hrole hfill]
    rfl
  case record =>
    cases r with
    | true =>
      intro hready
      refine ⟨fun hid => ?_, fun hid hmay => ?_, fun hid hmay => ⟨fun hknown => ?_, fun hnew hfirst => ⟨fun _ => ?_, fun h => ?_, fun h => ?_, fun h => ?_⟩⟩⟩
      · exact runCommand_ends hready (recoverBody_noId _ hid)
      · exact runCommand_ends hready (recoverBody_notHere _ hid hmay)
      · exact runCommand_ends hready (recoverBody_known _ hid hmay hknown)
      · exact runCommand_goesOn hready (recoverBody_reads _ hid hmay hnew hfirst)
      all_goals cases h
    | false =>
      intro hready
      refine ⟨fun hid => ?_, fun hid hmay => ?_, fun hid hmay => ⟨fun hknown => ?_, fun hnew hfirst =>
        ⟨fun h => ?_, fun _ htaken => ?_, fun _ htaken hword hnode => ?_, fun _ htaken hbad => ?_⟩⟩⟩
      · exact runCommand_ends hready (claimBody_noId _ hid)
      · exact runCommand_ends hready (claimBody_notHere _ hid hmay)
      · exact runCommand_ends hready (claimBody_known _ hid hmay hknown)
      · cases h
      · exact runCommand_ends hready (claimBody_noneTaken _ hid hmay hnew hfirst htaken)
      · exact runCommand_goesOn hready ((claimBody_taken _ hid hmay hnew hfirst htaken).trans (if_neg (by simp [hword, hnode])))
      · exact runCommand_ends hready ((claimBody_taken _ hid hmay hnew hfirst htaken).trans (if_pos hbad))

end Sys2Proof.Machine
end

section
/-! PROOFS. The return of a parked request (R35, R37, R237) and speculative verification (R137 to R142). -/

namespace Sys2Proof.Machine

/-! ### UNPARK -/

section
variable {T : State} {c : Cmd} (d : List Byte)

theorem unparkBody_noSlot (h : amGet (bits c.arg0 0 24) T.sch.spill = none) : unparkBody c T d = (T, some (Done.of .stale 0)) := by
  simp only [unparkBody, h, fail]

section
variable {sp : Spill} (hsp : amGet (bits c.arg0 0 24) T.sch.spill = some sp)
include hsp

theorem unparkBody_otherTicket (h : sp.busy = true ∨ sp.ring ≠ bits c.arg0 24 8) : unparkBody c T d = (T, some (Done.of .stale 0)) := by
  simp only [unparkBody, hsp, h, if_true, fail]

section
variable (hfree : sp.busy = false) (hring : sp.ring = bits c.arg0 24 8)
include hfree hring

theorem unparkBody_noAdapter (hadp : adpThere T sp.ctx.adapter = false) : unparkBody c T d = (T, some (Done.of .fenced Detail.CDC_ADP_ABSENT)) := by
  simp only [unparkBody, hsp, hfree, hring, hadp, ne_eq, not_true_eq_false, Bool.false_eq_true, or_self, if_false, Bool.not_false, if_true, fail]

section
variable (hadp : adpThere T sp.ctx.adapter = true)
include hadp

theorem unparkBody_badTag
    (hbad : leField (T.rd (hostXA (spillAddr T (bits c.arg0 0 24))) 320) 0x11C 4 ≠ c.arg0
      ∨ (T.rd (hostXA (spillAddr T (bits c.arg0 0 24))) 320).take 0x11C ≠ sp.image.take 0x11C ∨ sp.epoch ≠ T.scb.mram.wrapEpoch) :
    unparkBody c T d = (setEvent T Reg.SCH_CTX_EVENT_SPILL_TAG 0, some (Done.of .stale Detail.SPILL_TAG)) := by
  simp only [unparkBody, hsp, hfree, hring, hadp, ne_eq, not_true_eq_false, Bool.false_eq_true, or_self, if_false, Bool.not_true]
  by_cases hticket : leField (T.rd (hostXA (spillAddr T (bits c.arg0 0 24))) 320) 0x11C 4 = c.arg0
  · rw [if_neg (not_not.mpr hticket), if_pos (hbad.resolve_left (not_not.mpr hticket))]
    rfl
  · rw [if_pos hticket]
    rfl

section
variable (hticket : leField (T.rd (hostXA (spillAddr T (bits c.arg0 0 24))) 320) 0x11C 4 = c.arg0)
  (htag : (T.rd (hostXA (spillAddr T (bits c.arg0 0 24))) 320).take 0x11C = sp.image.take 0x11C) (hepoch : sp.epoch = T.scb.mram.wrapEpoch) (hkey : keyUp T = true)
include hticket htag hepoch hkey

theorem unparkBody_noIndex (halloc : allocCtx T = none) : unparkBody c T d = (T, some (Done.of .noCredit 0)) := by
  simp only [unparkBody, hsp, hfree, hring, hadp, hticket, htag, hepoch, hkey, halloc, ne_eq, not_true_eq_false, Bool.false_eq_true, or_self, if_false, Bool.not_true, fail]

/-- The state of an UNPARK whose record is intact: the context restored under its new handle, and the owner handle of its record on its way (R35, R237). -/
theorem unparkBody_restores {U : State} {h : Nat} (halloc : allocCtx T = some (U, h)) :
    unparkBody c T d =
      (let x := { sp.ctx with handle := h }
       let V := pinAdp ((rebind U (2 ^ 32 + c.arg0) h).setCtx x) x.adapter
       sendCommit { V with sch := { V.sch with spill := amSet (bits c.arg0 0 24) { sp with busy := true } V.sch.spill } }
         { commitOf x .unpark 0 0 (some (Op.UNPARK, c)) with off := x.recOffset + 8, bytes := leBytes 4 h, tokens := [bits c.arg0 0 24] }, none) := by
  unfold unparkBody
  simp only [hsp]
  rw [if_neg (by simp [hfree, hring]), if_neg (by simp [hadp]), if_neg (not_not.mpr hticket), if_neg (by simp [htag, hepoch]), if_neg (by simp [hkey])]
  simp only [halloc, parkName]

end

end

end

end

end

/-! ### VERIFY -/

section
variable {T : State} {c : Cmd} {x : Ctx} (hrole : verifyRole T = true) (hx : T.ctx c.handle = some x) (ho : x.owner = true) (hp : x.phase = .decode) (d : List Byte)
include hrole hx ho hp

/-- VERIFY and COMMIT of a request in DECODE pass the gates of R15, R29, R46 and R47. -/
theorem verifyGate_passes (k : Ctx → State × Option Done) : (if !verifyRole T then redirect T else withCtx c T k) = k x := by
  rw [hrole, withCtx_owned hx ho (by simp [hp]) (by simp [hp])]
  rfl

theorem verifyBody_tail (htail : x.tentCount ≠ 0) : verifyBody c T d = (T, some { Done.of .conflict Detail.SPEC_BUSY with handle := c.handle }) := by
  rw [verifyBody, verifyGate_passes hrole hx ho hp]
  exact if_pos htail

section
variable (htail : x.tentCount = 0) (hkv : x.kvLen < x.tlogLen)
include htail hkv

theorem verifyBody_badTree (htree : treeOk c.arg0 ((d.take c.arg0).map (·.toNat)) = false) :
    verifyBody c T d = (T, some { Done.of .fenced Detail.ATT_TREE with handle := c.handle }) := by
  rw [verifyBody, verifyGate_passes hrole hx ho hp]
  dsimp only
  rw [if_neg (not_not.mpr htail), if_neg (by simp [hp, hkv]), if_pos (by rw [htree]; rfl)]

/-- VERIFY of a tree with a place for its tail queues the release of its step (R137, R138). -/
theorem verifyBody_releases {m : Model} {U : State} {z : Ctx} (htree : treeOk c.arg0 ((d.take c.arg0).map (·.toNat)) = true)
    (htrouble : stepTrouble T x c.arg0 = none) (hdrop : dropStep T c.handle = T) (hh : x.handle = c.handle) (hmodel : modelOf T x = some m)
    (halloc : tentAlloc T { x with tentCount := c.arg0, verifyN := c.arg0, verifyTree := (d.take c.arg0).map (·.toNat), verifyDone := false, verifyCmd := some c, layer := 0 } m
      = some (U, z)) :
    verifyBody c T d = (releaseWork U z 3 c.arg0, none) := by
  have hdrop' : dropStep T x.handle = T := (congrArg _ hh).trans hdrop
  have hx' : T.ctx x.handle = some x := (congrArg _ hh).trans hx
  rw [verifyBody, verifyGate_passes hrole hx ho hp]
  dsimp only
  rw [if_neg (not_not.mpr htail), if_neg (by simp [hp, hkv]), if_neg (by rw [htree]; decide)]
  have hmodel' : modelOf T { x with tentCount := c.arg0, verifyN := c.arg0, verifyTree := (d.take c.arg0).map (·.toNat), verifyDone := false, verifyCmd := some c, layer := 0 }
      = some m := hmodel
  simp only [htrouble, hdrop', hx', hmodel', halloc, Option.getD_some]

end

end

/-! ### COMMIT -/

/-- A path of n tokens that COMMIT takes: no longer than the tree verified, from node 0 on along parents, within the tree (R139). -/
def GoodPath (x : Ctx) (n : Nat) (path : List Nat) : Prop :=
  1 ≤ n ∧ n ≤ x.verifyN ∧ pathOk x.verifyTree path = true ∧ ∀ k ∈ path, k < x.verifyN

/-- COMMIT refuses every other path. -/
theorem not_goodPath_iff {x : Ctx} {n : Nat} {path : List Nat} :
    (n = 0 ∨ x.verifyN < n ∨ (!pathOk x.verifyTree path) = true ∨ path.any (fun k => decide (x.verifyN ≤ k)) = true) ↔ ¬ GoodPath x n path := by
  simp only [GoodPath, Bool.not_eq_true', List.any_eq_true, decide_eq_true_eq, not_and_or, not_forall, Nat.not_le, Nat.not_lt, Nat.lt_one_iff,
    Bool.not_eq_true, exists_prop]

section
variable {T : State} {c : Cmd} {x : Ctx} (hrole : verifyRole T = true) (hx : T.ctx c.handle = some x) (ho : x.owner = true) (hp : x.phase = .decode) (d : List Byte)
  (htail : x.tentCount ≠ 0)
include hrole hx ho hp htail

theorem commitBody_badPath (hbad : ¬ GoodPath x c.arg0 ((d.take (min 64 c.arg0)).map (·.toNat))) :
    commitBody c T d = (T, some { Done.of .conflict Detail.SPEC_PATH with handle := c.handle }) := by
  rw [commitBody, verifyGate_passes hrole hx ho hp]
  dsimp only
  rw [if_neg htail, if_neg (by simp [hp]), if_pos (not_goodPath_iff.mpr hbad)]

/-- COMMIT of a good path whose rows have been copied asks for the log longer by the tokens kept (R139, R140, R142). -/
theorem commitBody_asks {m : Model} {i : Nat} {U V : State} {z : Ctx} (hidle : commitBusy T x.handle = false)
    (hgood : GoodPath x c.arg0 ((d.take (min 64 c.arg0)).map (·.toNat))) (hdone : x.verifyDone = true) (hmodel : modelOf T x = some m) :
    let toks := (List.range c.arg0).map fun i => leField d (64 + 4 * i) 4
    let n := keptTokens T x toks
    let want := (x.kvLen + n - 1) / 32 - x.cutCount
    (openCut T x).2.openSlot = some i → slotsAhead (openCut T x).1 (openCut T x).2 m want (want + 1) = some (U, z) →
    copyAll (U.setCtx z) z m (i :: z.ahead) (((d.take (min 64 c.arg0)).map (·.toNat)).take n) = .ok V →
    commitBody c T d =
      (asked ([8, 0, 1, 3, 5].foldl (fun U k => stallClear U z.handle k) V) z .commitSpec z.committed (z.committedLen + n) (toks.take n) (some (Op.COMMIT, c)), none) := by
  intro toks n want hslot hahead hcopy
  obtain ⟨hopen, hopenHandle⟩ := openCut_same T x
  obtain ⟨hslots, hslotsHandle⟩ := slotsAhead_same hahead
  have hsame : SameRequests T U := hopen.trans hslots
  have hhandle : z.handle = x.handle := hslotsHandle.trans hopenHandle
  have hz : U.ctx z.handle = some x := by rw [hhandle, hsame.ctx, State.ctx_handle hx, hx]
  have hwritten : IdleAs z (U.setCtx z) := .of_setCtx hz (by rw [hsame.commitBusy, hhandle, hidle])
  have hcleared := (hwritten.same (copyAll_same hcopy)).stallClears [8, 0, 1, 3, 5]
  rw [← issueCommit_asked hcleared rfl rfl, commitBody, verifyGate_passes hrole hx ho hp]
  dsimp only
  rw [if_neg htail, if_neg (by simp [hp]), if_neg (not_goodPath_iff.not.mpr (not_not.mpr hgood)), if_neg (by simp [hdone])]
  simp only [toks, n, want] at hahead hcopy
  simp only [hmodel, hslot, hahead, hcopy]
  rfl

end

/-- Settles O35: each command's block answers as its rules give; the commit that COMMIT asks for goes out at once, since copying rows and clearing stalls leaves the request's commits alone. -/
theorem requestsReturnAndVerify : Obligations.RequestsReturnAndVerify := by
  intro s c
  simp only [exec_unpark, exec_verify, exec_commit]
  refine ⟨fun hready => ⟨fun hnone => ?noSlot, fun sp hsp => ?unpark⟩, fun x ho hp => ⟨fun hready hrole hx => ?verify, fun hready hrole hx htail hidle hh => ?commit⟩⟩
  case noSlot => exact runCommand_ends hready (unparkBody_noSlot _ hnone)
  case unpark =>
    refine ⟨fun hstale => ?_, fun hfree hring hadp => ?_, fun hfree hring hadp hbad => ?_, fun hfree hring hticket hadp hkey htag hepoch => ⟨fun halloc => ?_, fun U h halloc => ?_⟩⟩
    · exact runCommand_ends hready (unparkBody_otherTicket _ hsp hstale)
    · exact runCommand_ends hready (unparkBody_noAdapter _ hsp hfree hring hadp)
    · exact runCommand_ends hready (unparkBody_badTag _ hsp hfree hring hadp hbad)
    · exact runCommand_ends hready (unparkBody_noIndex _ hsp hfree hring hadp hticket htag hepoch hkey halloc)
    · exact runCommand_goesOn hready (unparkBody_restores _ hsp hfree hring hadp hticket htag hepoch hkey halloc)
  case verify =>
    refine ⟨fun htail => ?_, fun htail hkv htree => ?_, fun m U z htail hkv htree htrouble hdrop hh hmodel halloc => ?_⟩
    · exact runCommand_ends hready (verifyBody_tail hrole hx ho hp _ htail)
    · exact runCommand_ends hready (verifyBody_badTree hrole hx ho hp _ htail hkv htree)
    · exact runCommand_goesOn hready (verifyBody_releases hrole hx ho hp _ htail hkv htree htrouble hdrop hh hmodel halloc)
  case commit =>
    refine ⟨fun hbad => ?_, fun m i U z V hgood hdone hmodel hslot hahead hcopy => ?_⟩
    · exact runCommand_ends hready (commitBody_badPath hrole hx ho hp _ htail hbad)
    · exact runCommand_goesOn hready (commitBody_asks hrole hx ho hp _ htail hidle hgood hdone hmodel hslot hahead hcopy)

end Sys2Proof.Machine
end

section
/-! PROOFS. The handoff (R46, R50 to R53): what each message and each timeout does at the node it reaches. -/

namespace Sys2Proof.Machine

/-! ### The block that performs each command -/

theorem exec_offer (m : OfferMsg) (s : State) : exec (.offer m) s = goesOn s (fromNode s m.sender (offerArrives s m)) := rfl
theorem exec_pullComplete (h : Nat) (ok : Bool) (v : Pulled) (s : State) : exec (.pullComplete h ok v) s = goesOn s (pullComplete s h ok v.record v.bolts) := rfl
theorem exec_taken (m : HandMsg) (s : State) : exec (.taken m) s = goesOn s (fromNode s m.src (takenArrives s m)) := rfl
theorem exec_release (m : HandMsg) (w : Nat) (s : State) : exec (.release m w) s = goesOn s (fromNode s m.src (releaseArrives s m w)) := rfl
theorem exec_releaseAck (m : HandMsg) (s : State) : exec (.releaseAck m) s = goesOn s (fromNode s m.src (releaseAckArrives s m)) := rfl
theorem exec_abort (m : HandMsg) (s : State) : exec (.abort m) s = goesOn s (fromNode s m.src (abortArrives s m)) := rfl
theorem exec_handoffOfferTimeout (h : Nat) (s : State) : exec (.handoffOfferTimeout h) s = goesOn s (offerTimeout s h) := rfl
theorem exec_handoffReleaseTimeout (h : Nat) (s : State) : exec (.handoffReleaseTimeout h) s = goesOn s (releaseTimeout s h) := rfl
theorem exec_handoffTakenTimeout (h w : Nat) (s : State) : exec (.handoffTakenTimeout h w) s = goesOn s (takenTimeout s h w) := rfl

/-! ### OFFER (R175, R237, R419, R421) -/

section
variable {s : State} {m : OfferMsg}

theorem offerArrives_ahead (h : epochView s m.epoch = .ahead) : offerArrives s m = s.cnt Reg.MGT_MAP_COUNT_AHEAD 1 := by
  simp only [offerArrives, h, if_true]

theorem offerArrives_old (h : epochView s m.epoch = .old) : offerArrives s m = s := by
  simp only [offerArrives, h, reduceCtorEq, if_false, decide_true, Bool.or_true, if_true]

theorem offerArrives_accepted {U : State} {g : Nat} (hepoch : epochView s m.epoch = .current) (hrole : roleEnables s [2, 4] = true) (hchange : s.changing = false)
    (hnew : receiverOf s m.sender m.handle = none) (hadp : adpThere s m.adapter = true) (halloc : allocCtx s = some (U, g)) :
    offerArrives s m = told (pinAdp (U.setCtx (offerCtx U g m)) m.adapter) m.sender (.pullTail m.handle m.hseq) := by
  have hrole' : roleEnables s [roleGeneration, roleMixed] = true := hrole
  simp only [offerArrives, hepoch, hrole', hchange, hnew, hadp, halloc, reduceCtorEq, if_false, decide_false, Bool.not_true, Bool.or_self, Bool.false_eq_true]
  rfl

end

/-! ### The pull of the hot tail (R50) -/

section
variable {s : State} {h : Nat} {x : Ctx} (hx : s.ctx h = some x) (v : RecView) (bolts : List (Nat × List Byte))
include hx

theorem pullComplete_failed : pullComplete s h false v bolts = s := by
  simp only [pullComplete, hx, Bool.not_false, true_or, if_true]

/-- A pull that ends well stores its bolts, marks the request TAKEN and says so to the sender. -/
theorem pullComplete_taken {V : State} (hp : x.phase = .handoff) (ho : x.owner = false) (ht : x.taken = false) (hr : x.released = false) :
    let z := { x with log := v.log, cuts := v.cuts }
    let p := pullSlots (if x.openFill = 0 then (s, z) else openCut s z)
    let y := { p.2 with taken := true, handoffTries := 0, handoffSent := V.now }
    (x.openFill = 0 ∨ p.2.openSlot ≠ none) → p.2.pulled.length = (tailCuts s z).length → storePulled p.1 p.2 bolts = .ok V →
    pullComplete s h true v bolts = told (V.setCtx y) y.peerNode (.taken (recvMsg V y)) := by
  intro z p y hslot hpulled hstored
  unfold pullComplete
  simp only [hx]
  have hall : ¬ ((x.openFill ≠ 0 ∧ p.2.openSlot = none) ∨ p.2.pulled.length ≠ (tailCuts s z).length) := by
    rintro (⟨hfill, hnone⟩ | hshort)
    · exact hslot.elim hfill (absurd hnone)
    · exact hshort hpulled
  simp only [p, z] at hall hstored
  rw [if_neg (by simp [hp, ho, ht, hr]), if_neg hall]
  simp only [hstored]
  rfl

end

/-! ### TAKEN, RELEASE, RELEASE_ACK and ABORT (R46, R51 to R53) -/

section
variable {s : State} {m : HandMsg} {x : Ctx}


theorem takenArrives_unknown (h : s.ctx m.handle = none) : takenArrives s m = told s m.src (.abort ⟨s.nodeId, m.handle, m.hseq, m.peerHandle⟩) := by
  simp only [takenArrives, h]
  rfl

theorem releaseAckArrives_unknown (h : s.ctx m.handle = none) : releaseAckArrives s m = s := by
  simp only [releaseAckArrives, h]

section
variable (hx : s.ctx m.handle = some x)
include hx

theorem takenArrives_otherSeq (hseq : x.hseq ≠ m.hseq) : takenArrives s m = told s m.src (.abort ⟨s.nodeId, m.handle, m.hseq, m.peerHandle⟩) := by
  simp only [takenArrives, hx, ne_eq, hseq, not_false_eq_true, true_or, or_true, if_true]
  rfl

theorem releaseAckArrives_otherSeq (hseq : x.hseq ≠ m.hseq) : releaseAckArrives s m = told s m.src (.abort ⟨s.nodeId, m.handle, m.hseq, m.peerHandle⟩) := by
  simp only [releaseAckArrives, hx, ne_eq, hseq, not_false_eq_true, if_true]
  rfl

section
variable (hp : x.phase = .handoff) (hseq : x.hseq = m.hseq)
include hp hseq

theorem takenArrives_current (hpeer : x.peerNode = m.src) (ho : x.owner = true) (hr : x.released = false) (hidle : commitBusy s x.handle = false) :
    takenArrives s m =
      (let y := { x with peerHandle := m.peerHandle }
       sendCommit (s.setCtx y) (commitOf y .ownerFlip (commitWord s.nodeId x.claimGen x.committed x.committedLen)
         (commitWord m.src (genNext x.claimGen) .decode x.committedLen) none)) := by
  simp only [takenArrives, hx]
  rw [if_neg (by simp [hp, hseq, hpeer, ho]), if_neg (by simp [hr]), if_neg (by simp [hidle])]
  rfl

theorem takenArrives_repeated (hpeer : x.peerNode = m.src) (hr : x.released = true) :
    takenArrives s m = told s m.src (.release ⟨s.nodeId, x.handle, x.hseq, x.peerHandle⟩ (commitWord m.src (genNext x.claimGen) .decode x.committedLen)) := by
  simp only [takenArrives, hx]
  rw [if_neg (by simp [hp, hseq, hpeer, hr]), if_pos hr]
  rfl

theorem releaseAckArrives_current (hr : x.released = true) : releaseAckArrives s m = endCtx s x .done endHandedOff := by
  simp only [releaseAckArrives, hx]
  rw [if_neg (not_not.mpr hseq), if_neg (by simp [hp, hr])]

end

end

theorem releaseArrives_answered (w : Nat) (hnone : receiverOf s m.src m.handle = none) (hx : s.ctx m.peerHandle = some x) (ho : x.owner = true) (hseq : x.hseq = m.hseq) :
    releaseArrives s m w = told s m.src (.releaseAck ⟨s.nodeId, m.handle, m.hseq, x.handle⟩) := by
  simp only [releaseArrives, hnone, hx, ho, hseq, and_self, if_true]
  rfl

section
variable (hx : receiverOf s m.src m.handle = some x)
include hx

theorem releaseArrives_otherSeq (w : Nat) (hseq : x.hseq ≠ m.hseq) :
    releaseArrives s m w = told s m.src (.abort ⟨s.nodeId, m.handle, m.hseq, m.peerHandle⟩) := by
  simp only [releaseArrives, hx, ne_eq, hseq, not_false_eq_true, if_true]
  rfl

theorem abortArrives_otherSeq (hseq : x.hseq ≠ m.hseq) : abortArrives s m = s := by
  simp only [abortArrives, hx, ne_eq, hseq, not_false_eq_true, true_or, if_true]

theorem releaseArrives_takes (w : Nat) (hseq : x.hseq = m.hseq) (ht : x.taken = true) (ho : x.owner = false) : releaseArrives s m w = takeOwnership s x w := by
  simp only [releaseArrives, hx]
  rw [if_neg (not_not.mpr hseq), if_pos (by simp [ht, ho])]

theorem abortArrives_drops (hseq : x.hseq = m.hseq) (ho : x.owner = false) (hslot : x.openSlot = none) :
    abortArrives s m = releaseCtx (x.pulled.foldl (fun U p => dropLocal U p.2.1) (unpinAdp (dropWork s x.handle) x.adapter)) x := by
  simp only [abortArrives, hx]
  rw [if_neg (by simp [hseq, ho])]
  simp only [hslot]

end

end

/-! ### The three timeouts (R53) -/

theorem waited_iff {s : State} {x : Ctx} : waited s x = true ↔ x.handoffSent + max 4000 (s.r Reg.SCH_CTX_CFG_HANDOFF_TMO_US) * 1000 ≤ s.now :=
  decide_eq_true_iff

section
variable {s : State} {h : Nat} {x : Ctx} (hx : s.ctx h = some x)
include hx

section
variable (hw : waited s x = false)
include hw

theorem offerTimeout_early : offerTimeout s h = s := by
  simp only [offerTimeout, hx, hw, Bool.not_false, or_true, if_true]

theorem releaseTimeout_early : releaseTimeout s h = s := by
  simp only [releaseTimeout, hx, hw, Bool.not_false, or_true, if_true]

theorem takenTimeout_early (w : Nat) : takenTimeout s h w = s := by
  simp only [takenTimeout, hx, hw, Bool.not_false, or_true, if_true]

end

variable (hp : x.phase = .handoff) (hw : waited s x = true)
include hp hw

theorem offerTimeout_due (hr : x.released = false) (ho : x.owner = true) (hpeer : x.peerNode ≠ 0) (hidle : commitBusy s h = false) :
    offerTimeout s h =
      if x.handoffTries < handoffRetry s then
        (let y := { x with hseq := (x.hseq + 1) % 2 ^ 32, handoffTries := x.handoffTries + 1, handoffSent := s.now }
         told (s.setCtx y) x.peerNode (.offer (offerOf s y x.resumeDecode)))
      else
        (let y := { x with peerNode := 0, peerHandle := 0 }
         postEvent ((told s x.peerNode (.abort ⟨s.nodeId, x.handle, x.hseq, x.peerHandle⟩)).setCtx y) y Ev.HANDOFF .ok Detail.HANDOFF_TIMEOUT 0 0) := by
  simp only [offerTimeout, hx]
  rw [if_neg (by simp [hp, hr, ho, hpeer, hidle, hw])]
  rfl

theorem releaseTimeout_due (hr : x.released = true) (hu : x.unresolved = false) :
    releaseTimeout s h =
      if x.handoffTries < handoffRetry s then
        told (s.setCtx { x with handoffTries := x.handoffTries + 1, handoffSent := s.now }) x.peerNode
          (.release ⟨s.nodeId, x.handle, x.hseq, x.peerHandle⟩ (commitWord x.peerNode (genNext x.claimGen) .decode x.committedLen))
      else
        (let y := { x with unresolved := true }
         postEvent (setEvent (s.setCtx y) Reg.SCH_CTX_EVENT_UNRESOLVED 0) y Ev.HANDOFF .ok Detail.HANDOFF_UNRESOLVED 0 0) := by
  simp only [releaseTimeout, hx]
  rw [if_neg (by simp [hp, hr, hu, hw])]
  rfl

theorem takenTimeout_due (w : Nat) (ht : x.taken = true) (ho : x.owner = false) (hu : x.unresolved = false) :
    takenTimeout s h w =
      if bits w 48 16 = s.nodeId then takeOwnership s x w
      else if x.handoffTries < handoffRetry s then
        told (s.setCtx { x with handoffTries := x.handoffTries + 1, handoffSent := s.now }) x.peerNode (.taken ⟨s.nodeId, x.peerHandle, x.hseq, x.handle⟩)
      else
        (let y := { x with unresolved := true }
         postEvent (setEvent (s.setCtx y) Reg.SCH_CTX_EVENT_ORPHAN 0) y Ev.HANDOFF .ok Detail.HANDOFF_ORPHAN 0 0) := by
  simp only [takenTimeout, hx]
  rw [if_neg (by simp [hp, ht, ho, hu, hw])]
  rfl

end

/-- Settles O40: each message and each timeout answers as its rules give at the side it reaches. -/
theorem handoffsAdvance : Obligations.HandoffsAdvance := by
  intro s h x
  simp only [exec_offer, exec_pullComplete, exec_taken, exec_release, exec_releaseAck, exec_abort, exec_handoffOfferTimeout, exec_handoffReleaseTimeout,
    exec_handoffTakenTimeout]
  refine ⟨fun m hfrom => ?offer, fun v hx => ⟨fun bolts => ?pullFailed, fun bolts V hp ho ht hr hslot hpulled hstored => ?pulled⟩, fun m hfrom => ?messages,
    fun hx hp => ?timeouts⟩
  case offer =>
    simp only [fromNode_taken hfrom]
    exact ⟨fun he => by rw [offerArrives_ahead he], fun he => by rw [offerArrives_old he],
      fun U g he hrole hchange hnew hadp halloc => by rw [offerArrives_accepted he hrole hchange hnew hadp halloc]⟩
  case pullFailed => rw [pullComplete_failed hx]
  case pulled => exact congrArg _ (pullComplete_taken hx v bolts hp ho ht hr hslot hpulled hstored)
  case messages =>
    simp only [fromNode_taken hfrom]
    refine ⟨fun hnone => ⟨?_, ?_⟩, fun hx hseq => ?_, fun hx hp hseq hpeer => ⟨fun ho hr hidle => ?_, fun hr => ?_⟩, fun w hx hseq => ?_, fun w hnone hx ho hseq => ?_,
      fun w hx hseq ht ho => ?_, fun hx hp hr => ⟨fun hseq => ?_, fun hseq => ?_⟩, fun hx hseq => ?_, fun hx hseq ho hslot => ?_⟩
    · rw [takenArrives_unknown hnone]
    · rw [releaseAckArrives_unknown hnone]
    · rw [takenArrives_otherSeq hx hseq]
    · rw [takenArrives_current hx hp hseq hpeer ho hr hidle]
    · rw [takenArrives_repeated hx hp hseq hpeer hr]
    · rw [releaseArrives_otherSeq hx w hseq]
    · rw [releaseArrives_answered w hnone hx ho hseq]
    · rw [releaseArrives_takes hx w hseq ht ho]
    · rw [releaseAckArrives_otherSeq hx hseq]
    · rw [releaseAckArrives_current hx hp hseq hr]
      rfl
    · rw [abortArrives_otherSeq hx hseq]
    · rw [abortArrives_drops hx hseq ho hslot]
  case timeouts =>
    refine ⟨fun w hearly => ?early, fun hdue hr ho hpeer hidle => ?offering, fun hdue hr hu => ?releasing, fun w hdue ht ho hu => ?taking⟩
    case early =>
      have hw : waited s x = false := by simpa only [← Bool.not_eq_true, waited_iff, Nat.not_le] using hearly
      rw [offerTimeout_early hx hw, releaseTimeout_early hx hw, takenTimeout_early hx hw]
      exact ⟨rfl, rfl, rfl⟩
    case offering =>
      rw [offerTimeout_due hx hp (waited_iff.mpr hdue) hr ho hpeer hidle]
      exact ⟨fun htry => by rw [if_pos htry], fun hlast => by rw [if_neg (Nat.not_lt.mpr hlast)]⟩
    case releasing =>
      rw [releaseTimeout_due hx hp (waited_iff.mpr hdue) hr hu]
      exact ⟨fun htry => by rw [if_pos htry], fun hlast => by rw [if_neg (Nat.not_lt.mpr hlast)]⟩
    case taking =>
      rw [takenTimeout_due hx hp (waited_iff.mpr hdue) w ht ho hu]
      exact ⟨fun hown => by rw [if_pos hown], fun hother htry => by rw [if_neg hother, if_pos htry],
        fun hother hlast => by rw [if_neg hother, if_neg (Nat.not_lt.mpr hlast)]⟩

end Sys2Proof.Machine
end

section
/-! PROOFS. The lease of a slot (R204): a slot name under the number of the local area is settled there, not in a pool. -/

namespace Sys2Proof.Machine

theorem keepQueue_of_goesOn {s t u : State} (h : goesOn s t = goesOn s u) : keepQueue s t = keepQueue s u := by
  injection h

/-- Under the number of the local area a lease expiry looks for a local slot, never for one of a pool: with none moved out there it changes nothing. -/
theorem exec_moveLeaseExpiry_localPool {s : State} {n : SlotName} (hpool : n.pool = localPool) (hout : amGet n.slot s.tir.localOut = none) (e : CutEntry) :
    exec (.moveLeaseExpiry n e) s = goesOn s s := by
  have hlocal : exec (.moveLeaseExpiry n e) s = goesOn s (if n.pool = localPool then localLeaseExpiry s n.slot e else moveLeaseExpiry s n e) := rfl
  rw [hlocal, if_pos hpool]
  simp only [localLeaseExpiry, hout]

/-- A slot reserved at time 0 with no lease left, in the one group of a pool of four slices. -/
def expiredSlot : CutSlot := ⟨true, false, 1, 0, ⟨0, 0, 0⟩, 0, 1⟩
def expiredGroup : CutGroup := ⟨{ IdPool.reset with fresh := 1 }, [(0, expiredSlot)]⟩
def expiredPool : Pool :=
  { model := 7, format := 1, hdim := 2, layers := 1, kvHeads := 8, tier := 1, slices := 4, bases := List.replicate 8 0, groups := [expiredGroup], spare := [] }
/-- That slot by the name under which the model knows the local area. -/
def expiredName : SlotName := ⟨localPool, 0, 0, 1⟩
/-- A state in which that pool is declared under the number of the local area. CUT_POOL cannot declare it, since its pool number has eight bits. -/
def expiredState : State := { State.reset with tir := { State.reset.tir with pools := [(localPool, expiredPool)] } }
/-- The entry of the cut, read at its record home: FELLED. -/
def felledEntry : CutEntry := { CutEntry.none with state := .felled }

theorem expiredState_ready : HomeReady expiredState (.lease expiredName felledEntry) := by
  unfold HomeReady
  decide

/-- Refutes O37: its clause on leases admits a slot name whose pool has the number 256 of the local area, for which MOVE_LEASE_EXPIRY settles a local slot in place of the pool's. -/
theorem not_homesKeepTheirSlots : ¬ Obligations.HomesKeepTheirSlots := by
  intro h
  obtain ⟨_, _, _, _, _, _, _, hlease, _⟩ := h expiredState expiredName expiredPool expiredGroup expiredSlot
  have hheld : SlotHeld expiredState expiredName expiredPool expiredGroup expiredSlot := ⟨rfl, rfl, rfl, rfl⟩
  obtain ⟨_, _, hfreed⟩ := hlease felledEntry hheld expiredState_ready (Nat.zero_le _) rfl
  have hgone := hfreed rfl
  rw [exec_moveLeaseExpiry_localPool rfl rfl] at hgone
  have hslot := congrArg (fun t => (findSlot t expiredName).isSome) (keepQueue_of_goesOn hgone)
  exact absurd hslot (by decide)

end Sys2Proof.Machine
end

section
/-! PROOFS. Moves, placement and felling at the owner (R79 to R82, R199 to R203, R206, R214 to R216, R447): what each command and each later event does to the move or the entry it names. -/

namespace Sys2Proof.Machine

/-! ### The block that performs each command -/

theorem exec_move (c : Cmd) (s : State) : exec (.move c) s = runPlain s Op.MOVE c (moveBody c) := rfl
theorem exec_fell (c : Cmd) (s : State) : exec (.fell c) s = runPlain s Op.FELL c (fellBody c) := rfl
theorem exec_fellCut (c : Cmd) (s : State) : exec (.fellCut c) s = runPlain s Op.FELL_CUT c (fellCutBody c) := rfl
theorem exec_fellPick (s : State) : exec .fellPick s = goesOn s (fellPick s) := rfl
theorem exec_cutFilled (h : Nat) (s : State) : exec (.cutFilled h) s = goesOn s (cutFilled s h) := rfl
theorem exec_placeRetry (h k : Nat) (s : State) : exec (.placeRetry h k) s = goesOn s (placeRetry s h k) := rfl
theorem exec_reserveAnswer (h k st dt : Nat) (n : SlotName) (s : State) : exec (.reserveAnswer h k st dt n) s = goesOn s (reserveAnswer s h k st dt n) := rfl
theorem exec_moveCopyDone (h : Nat) (cut : CutCopy) (crcOk retryOk : Bool) (s : State) :
    exec (.moveCopyDone h cut crcOk retryOk) s = goesOn s (moveCopyDone s h cut.cut crcOk retryOk cut.slot cut.bolts) := rfl
theorem exec_moveGraceExpiry (h k : Nat) (s : State) : exec (.moveGraceExpiry h k) s = goesOn s (moveGraceExpiry s h k) := rfl
theorem exec_freeAck (h k st dt : Nat) (s : State) : exec (.freeAck h k st dt) s = goesOn s (freeAck s h k) := rfl

/-! ### The format check of MOVE (R201, R508) -/

/-- A host command that nothing holds back but a check of R508 ends with that check's refusal, its body never run. -/
theorem runCommand_refused {s : State} {o : Nat} {c : Cmd} {bad : State → List Byte → Bool} {body : Body} {d : Done} (hfn : c.fn < 64)
    (hnew : isStarted s o c = false) (hturn : mustWait s o c = false) (hpwr : s.r Reg.PWR_STATE_STATE ≠ 3) (hfill : needsFill s c.handle = false)
    (hcheck : checkCommand (cacheTouch s (bits c.handle 0 21)) o c (bad (cacheTouch s (bits c.handle 0 21)) (cmdDesc s c)) = some d) :
    runCommand s o c bad body = endsWith s o c (cacheTouch s (bits c.handle 0 21)) d := by
  simp only [runCommand, hfn, if_true, hostCommand, hnew, hturn, hpwr, hfill, Bool.false_eq_true, false_and, or_self, if_false, cmdDesc_touch, hcheck]
  rfl

theorem checkCommand_format {o : Nat} {c : Cmd} (hdef : opDefined o = true) (hformat : formatOk o c = false) (s : State) (bad : Bool) :
    checkCommand s o c bad = refusal .format 0 := by
  simp only [checkCommand, hdef, hformat, Bool.not_true, Bool.not_false, Bool.false_eq_true, if_false, if_true]

/-- A MOVE that passes the format check names 1 to 4,096 cuts. -/
theorem formatOk_move {c : Cmd} (h : formatOk Op.MOVE c = true) : 1 ≤ c.arg1 ∧ c.arg1 ≤ 4096 := by
  simp only [formatOk, Bool.and_eq_true] at h
  obtain ⟨⟨⟨⟨⟨⟨_, _⟩, hrange⟩, _⟩, _⟩, _⟩, _⟩ := h
  have hmove : argsInRange Op.MOVE c = (decide (1 ≤ c.arg1) && decide (c.arg1 ≤ 4096)) := rfl
  simpa only [hmove, Bool.and_eq_true, decide_eq_true_eq] using hrange

theorem hostReady_formatOk {s : State} {o : Nat} {c : Cmd} {bad : State → List Byte → Bool} (hdef : opDefined o = true) (h : hostReady s o c bad = true) :
    formatOk o c = true := by
  by_contra hformat
  simp [hostReady, checkCommand_format hdef (Bool.not_eq_true _ ▸ hformat), refusal] at h

/-! ### MOVE (R201) -/

/-- The record of a MOVE command under way, with the cuts it still has to start. -/
def moveJobOf (c : Cmd) (todo : List Nat) : MoveJob :=
  { cmd := c, handle := c.handle, todo := todo, node := bits c.arg2 0 16, pool := bits c.arg2 16 8, moved := 0, stopped := none }

/-- The cuts of a request that a MOVE names. -/
def moveNames (c : Cmd) (x : Ctx) : List Nat := ((List.range c.arg1).map (c.arg0 + ·)).filter (· < x.cuts.length)

/-- The state with one more MOVE command under way. -/
def addMoveJob (s : State) (j : MoveJob) : State := { s with tir := { s.tir with moveJobs := s.tir.moveJobs ++ [j] } }

section
variable {T : State} {c : Cmd} {x : Ctx} (hx : T.ctx c.handle = some x) (ho : x.owner = true) (hd : x.phase ≠ .done) (hf : x.phase ≠ .failed) (d : List Byte)
include hx ho hd hf

theorem moveBody_answers (hlow : 1 ≤ c.arg1) (hhigh : c.arg1 ≤ 4096) :
    moveBody c T d = if x.phase = .handoff then (T, some { Done.of .conflict 0 with handle := c.handle })
      else (moveJobAdvance (addMoveJob T (moveJobOf c (moveNames c x))) c.handle, none) := by
  have hrange : ¬ (c.arg1 = 0 ∨ 4096 < c.arg1) := by omega
  simp only [moveBody, hrange, if_false, withCtx_owned hx ho hd hf]
  rfl

end

/-- The one cut a MOVE command still has to start is asked for, where nothing stands against it. -/
theorem moveJobStart_one {s : State} {j : MoveJob} {k : Nat} {x : Ctx} (htodo : j.todo = [k]) (hstop : j.stopped = none) (hx : s.ctx j.handle = some x)
    (hroom : jobMoves s j.handle = 0) (hstate : (x.cut k).state = .resident) (hmoves : findMove s j.handle k = none) (hthere : homedAt (x.cut k) j.node j.pool = false)
    (hheld : heldByOthers s x k = false) :
    moveJobStart s j (j.todo.length + 1) = (startMove s x k j.node j.pool 0 none false true, { j with todo := [] }) := by
  have hinflight : ¬ moveInflight s ≤ 0 := by simp only [moveInflight]; omega
  simp only [htodo, List.length_singleton, moveJobStart, hx, hstop, hroom, hinflight, hstate, hmoves, hthere, hheld, Option.isSome_none, ne_eq, not_true_eq_false,
    decide_false, Bool.or_self, Bool.false_eq_true, if_false]

/-- A MOVE command with moves of its cuts under way goes on. -/
theorem moveJobAdvance_goesOn {s t : State} {h : Nat} {j i : MoveJob} (hjob : s.tir.moveJobs.find? (fun j => j.handle == h) = some j)
    (hstart : moveJobStart s j (j.todo.length + 1) = (t, i)) (hmoves : jobMoves t h ≠ 0) :
    moveJobAdvance s h = { t with tir := { t.tir with moveJobs := t.tir.moveJobs.filter (fun j => j.handle != h) ++ [i] } } := by
  simp only [moveJobAdvance, hjob, hstart, hmoves, and_false, if_false]

theorem findMove_eq_none {s : State} {h : Nat} (hnone : ∀ m ∈ s.tir.moves, m.handle ≠ h) (k : Nat) : findMove s h k = none := by
  simp only [findMove, List.find?_eq_none]
  intro m hm
  simp [hnone m hm]

theorem jobMoves_eq_zero {s : State} {h : Nat} (hnone : ∀ m ∈ s.tir.moves, m.handle ≠ h) : jobMoves s h = 0 := by
  simp only [jobMoves, List.countP_eq_zero]
  intro m hm
  simp [hnone m hm]

theorem jobMoves_startMove (s : State) (x : Ctx) (k node pool tries : Nat) (pd : Option Pd) (fell : Bool) :
    jobMoves (startMove s x k node pool tries pd fell true) x.handle = jobMoves s x.handle + 1 := by
  simp [jobMoves, startMove, State.emit, List.countP_append]

/-- A MOVE of one cut of a request with no move and no MOVE under way sends RESERVE for it and waits. -/
theorem moveJobAdvance_one {T : State} {c : Cmd} {x : Ctx} {k : Nat} (hx : T.ctx c.handle = some x) (hstate : (x.cut k).state = .resident)
    (hheld : heldByOthers T x k = false) (hthere : homedAt (x.cut k) (bits c.arg2 0 16) (bits c.arg2 16 8) = false)
    (hmoves : ∀ m ∈ T.tir.moves, m.handle ≠ c.handle) (hjobs : ∀ j ∈ T.tir.moveJobs, j.handle ≠ c.handle) :
    moveJobAdvance (addMoveJob T (moveJobOf c [k])) c.handle =
      addMoveJob (startMove T x k (bits c.arg2 0 16) (bits c.arg2 16 8) 0 none false true) (moveJobOf c []) := by
  have hstart := moveJobStart_one (s := addMoveJob T (moveJobOf c [k])) (j := moveJobOf c [k]) rfl rfl hx (jobMoves_eq_zero hmoves) hstate (findMove_eq_none hmoves k)
    hthere hheld
  have hfind : (addMoveJob T (moveJobOf c [k])).tir.moveJobs.find? (fun j => j.handle == c.handle) = some (moveJobOf c [k]) := by
    have hnone : T.tir.moveJobs.find? (fun j => j.handle == c.handle) = none := List.find?_eq_none.mpr fun j hj => by simp [hjobs j hj]
    simp [addMoveJob, moveJobOf, hnone]
  have hcount : jobMoves (startMove (addMoveJob T (moveJobOf c [k])) x k (moveJobOf c [k]).node (moveJobOf c [k]).pool 0 none false true) c.handle ≠ 0 := by
    rw [← State.ctx_handle hx, jobMoves_startMove]
    exact Nat.succ_ne_zero _
  have hrest : (T.tir.moveJobs ++ [moveJobOf c [k]]).filter (fun j => j.handle != c.handle) = T.tir.moveJobs := by
    rw [List.filter_append, List.filter_eq_self.mpr fun j hj => by simp [hjobs j hj]]
    simp [moveJobOf]
  rw [moveJobAdvance_goesOn hfind hstart hcount]
  simp only [addMoveJob, startMove, State.emit, hrest]
  rfl

/-! ### FELL and FELL_CUT (R79 to R82, R447) -/

section
variable {T : State} {c : Cmd} {x : Ctx} (hx : T.ctx c.handle = some x) (ho : x.owner = true) (hd : x.phase ≠ .done) (hf : x.phase ≠ .failed) (d : List Byte)
include hx ho hd hf

theorem fellBody_conflict (h : x.phase ≠ .paused ∨ resuming x = true) : fellBody c T d = (T, some { Done.of .conflict 0 with handle := c.handle }) := by
  simp only [fellBody, withCtx_owned hx ho hd hf, h, if_true]

theorem fellCutBody_conflict (h : x.phase ≠ .paused ∨ resuming x = true ∨ (x.cut c.arg0).state ≠ .resident) :
    fellCutBody c T d = (T, some { Done.of .conflict 0 with handle := c.handle }) := by
  have h' : x.phase ≠ .paused ∨ resuming x = true ∨ (x.cut c.arg0).state ≠ .resident ∨ (findMove T x.handle c.arg0).isSome = true := by tauto
  simp only [fellCutBody, withCtx_owned hx ho hd hf, h', if_true]

section
variable (hp : x.phase = .paused) (hres : resuming x = false)
include hp hres

theorem fellBody_nothing (hnone : fellable T x c.arg0 (fun _ => true) = []) : fellBody c T d = (T, some { Done.ok with handle := c.handle }) := by
  simp only [fellBody, withCtx_owned hx ho hd hf, hp, hres, hnone, ne_eq, not_true_eq_false, Bool.false_eq_true, or_self, if_false]

theorem fellBody_fells (hsome : fellable T x c.arg0 (fun _ => true) ≠ []) :
    fellBody c T d = (fellCuts T x (fellable T x c.arg0 fun _ => true) (some (Op.FELL, c)), none) := by
  simp only [fellBody, withCtx_owned hx ho hd hf, hp, hres, ne_eq, not_true_eq_false, Bool.false_eq_true, or_self, if_false]

theorem fellCutBody_fells (hstate : (x.cut c.arg0).state = .resident) (hmove : findMove T x.handle c.arg0 = none) :
    fellCutBody c T d =
      (issueEntry T x (.cutFelled c.arg0) (x.cut c.arg0) { x.cut c.arg0 with state := .felled, shared := false } (some (Op.FELL_CUT, c)), none) := by
  simp only [fellCutBody, withCtx_owned hx ho hd hf, hp, hres, hstate, hmove, ne_eq, not_true_eq_false, Bool.false_eq_true, Option.isSome_none, or_self, if_false]

end

end

/-! ### Felling passes (R214 to R216) -/

/-- The cuts of a request that a pick takes (R215). -/
def pickCuts (s : State) (x : Ctx) : List Nat := fellable s x (max 1 (s.r Reg.TIR_FELL_CFG_PER_PICK)) (notLower (readPd s x.pd))

/-- The state once the pick of a request is counted and its event posted. -/
def pickReported (s : State) (x : Ctx) : State :=
  postEvent (s.cnt Reg.TIR_FELL_STATUS_PICKS 1) x Ev.TIER .ok Detail.TIR_FELL_PICK (pickCuts s x).length 0

/-- The pass has a request as its pick: the cuts that are out, and those it still has to move to a node's pool. -/
def passTakes (s : State) (p : FellPass) (x : Ctx) (node pool : Nat) (todo out : List Nat) : State :=
  { s with tir := { s.tir with pass := some { p with handle := x.handle, node := node, pool := pool, todo := todo, out := out } } }

section
variable {s : State}

theorem fellPick_noPass (hpass : s.tir.pass = none) : fellPick s = s := by simp only [fellPick, hpass]

variable {p : FellPass} (hpass : s.tir.pass = some p)
include hpass

theorem fellPick_busy (hbusy : pickBusy s p = true) : fellPick s = s := by simp only [fellPick, hpass, hbusy, if_true]

variable (hidle : pickBusy s p = false)
include hidle

theorem fellPick_ends (hend : p.target ≤ p.freed ∨ passPick s = none) : fellPick s = endPass s := by
  simp only [fellPick, hpass, hidle, Bool.false_eq_true, if_false]
  rcases hend with hreached | hnobody
  · rw [if_pos hreached]
  · simp only [hnobody, ite_self]

variable {x : Ctx} (htarget : p.freed < p.target) (hpick : passPick s = some x)
include htarget hpick

theorem fellPick_fells (hstay : (pickReported s x).r Reg.TIR_FELL_CFG_MODE ≠ 1 ∨ readPd s x.pd = none) :
    fellPick s = fellCuts (passTakes (pickReported s x) p x 0 0 [] (pickCuts s x)) x (pickCuts s x) none := by
  simp only [fellPick, hpass, hidle, Bool.false_eq_true, if_false, Nat.not_le.mpr htarget, hpick]
  cases hpd : readPd s x.pd with
  | none => simp only [passTakes, pickReported, pickCuts, hpd]
  | some d =>
    have hmode := hstay.resolve_right (by simp only [hpd, reduceCtorEq, not_false_eq_true])
    simp only [pickReported, pickCuts, hpd] at hmode
    simp only [hmode, false_and, if_false, passTakes, pickReported, pickCuts, hpd]

theorem fellPick_lowers {d : Pd} (hpd : readPd s x.pd = some d) (hmode : (pickReported s x).r Reg.TIR_FELL_CFG_MODE = 1) (hlower : d.lowerEn = true) :
    fellPick s = passGo (passTakes (pickReported s x) p x d.lowerNode d.lowerPool (pickCuts s x) (pickCuts s x)) := by
  simp only [pickReported, pickCuts, hpd] at hmode
  simp only [fellPick, hpass, hidle, Bool.false_eq_true, if_false, Nat.not_le.mpr htarget, hpick, hpd, hmode, hlower, and_self, if_true, passTakes, pickReported, pickCuts]

end

/-! ### Placement (R119, R199, R200) -/

section
variable {s : State} {x : Ctx} {k : Nat}

theorem placeCut_noPd (hpd : readPd s x.pd = none) :
    placeCut s x k = if x.pdPosted then s else postEvent (s.setCtx { x with pdPosted := true }) x Ev.TIER .fenced Detail.TIR_PD 0 0 := by
  simp only [placeCut, hpd]

theorem placeCut_first {pd : Pd} {n p : Nat} (hpd : readPd s x.pd = some pd)
    (htarget : pd.target[(pd.start + k / max 1 pd.run + 0) % max 1 pd.targets]? = some (n, p)) :
    placeCut s x k = startMove (s.setCtx { x with pdPosted := false }) x k n p 0 (some pd) false false := by
  simp only [placeCut, hpd, tryTarget, htarget]

theorem cutFilled_places {h : Nat} (hx : s.ctx h = some x) (ho : x.owner = true) (hd : x.phase ≠ .done) (hf : x.phase ≠ .failed) (hh : x.phase ≠ .handoff)
    (hstep : x.stepBusy = false) (hcut : (List.range x.cuts.length).find? (cutToPlace s x) = some k) : cutFilled s h = placeCut s x k := by
  simp only [cutFilled, hx, ho, hd, hf, hh, hstep, hcut, Bool.not_true, Bool.false_eq_true, and_false, or_self, if_false]

variable {h : Nat} {t : Nat × Nat × Nat} (hretry : s.tir.placeRetry.find? (fun t => t.1 == h && t.2.1 == k) = some t)
include hretry

theorem placeRetry_early (htime : s.now < t.2.2) : placeRetry s h k = s := by
  simp only [placeRetry, hretry, htime, if_true]

theorem placeRetry_due (htime : t.2.2 ≤ s.now) :
    let U := { s with tir := { s.tir with placeRetry := s.tir.placeRetry.filter (· ≠ t) } }
    U.ctx h = some x → cutToPlace U x k = true → placeRetry s h k = placeCut U x k := by
  intro U hx hcut
  simp only [U] at hx hcut
  simp only [placeRetry, hretry, Nat.not_lt.mpr htime, if_false, hx, hcut, if_true, U]

end

/-! ### The answer to a RESERVE (R164, R201, R202) -/

/-- Whether a move of a cut waits for the answer to its RESERVE. -/
def Move.asks (m : Move) (h k : Nat) : Bool := m.handle == h && m.cut == k && decide (m.stage = .reserving)

section
variable {s : State} {m : Move} {n : SlotName} {dt : Nat}

/-- The answer goes to the move that asked for the slot's pool, or where none did to the first that waits. -/
theorem reserveAnswer_move {h k : Nat} (st : Nat)
    (hmove : s.tir.moves.find? (fun m => m.asks h k && m.pool == n.pool) = some m ∨
      (s.tir.moves.find? (fun m => m.asks h k && m.pool == n.pool) = none ∧ s.tir.moves.find? (fun m => m.asks h k) = some m)) :
    reserveAnswer s h k st dt n = reserveAnswerOwner s m st dt n := by
  simp only [Move.asks] at hmove
  rcases hmove with hpool | ⟨hpool, hfirst⟩
  · simp only [reserveAnswer, hpool]
    rfl
  · simp only [reserveAnswer, hpool, hfirst]
    rfl

theorem reserveAnswerOwner_refused {st : Nat} (hst : st ≠ 0) : reserveAnswerOwner s m st dt n = reserveRefused s m st dt := by
  simp only [reserveAnswerOwner, hst, ne_eq, not_false_eq_true, if_true]

theorem reserveAnswerOwner_granted {x : Ctx} (hx : s.ctx m.handle = some x) (ho : x.owner = true) (hd : x.phase ≠ .done) (hf : x.phase ≠ .failed)
    (hstate : (x.cut m.cut).state = .resident) (hmove : findMove s m.handle m.cut = none) (hthere : homedAt (x.cut m.cut) m.node m.pool = false) :
    reserveAnswerOwner s m 0 dt n =
      if heldByOthers s x m.cut then reserveUnused s m n (some (Done.of .conflict Detail.TRL_SHARED))
      else issueEntry (setMove s m { m with slot := n.slot, ring := n.ring, stage := .marking, old := x.cut m.cut }) x (.cutMark m.cut) (x.cut m.cut)
        { x.cut m.cut with state := .moving } none := by
  simp only [reserveAnswerOwner, hx, ho, hd, hf, hstate, hmove, hthere, ne_eq, not_true_eq_false, not_false_eq_true, Option.isNone_none, Bool.not_false, and_self,
    if_false, if_true]

end

/-! ### The copy of a moving cut (R202, R203, R383) -/

section
variable {s : State} {h k : Nat} {m : Move} {x : Ctx} {n : SlotName} {bolts : List Byte}

theorem moveCopyDone_copying (hmove : findMove s h k = some m) (hstage : m.stage = .copying) (hx : s.req h = some x) (crcOk retryOk : Bool) :
    moveCopyDone s h k crcOk retryOk n bolts = copyEnded s x m crcOk retryOk bolts := by
  simp only [moveCopyDone, hmove, hx, hstage, if_true]

theorem copyEnded_done {U : State} (hcopy : copyMove s x m bolts = .done U) (retryOk : Bool) :
    copyEnded s x m true retryOk bolts =
      if newDeltas s U = [] then moveFlip U x m
      else waitDeltas (setMove U m { m with stage := .writing }) (newDeltas s U) (.copied m.handle m.cut ⟨m.pool, m.group, m.slot, m.ring⟩) := by
  simp only [copyEnded, Bool.true_or, if_true, hcopy, List.isEmpty_iff]

theorem copyEnded_waits {U : State} (hcopy : copyMove s x m bolts = .waits U) (retryOk : Bool) : copyEnded s x m true retryOk bolts = U := by
  simp only [copyEnded, Bool.true_or, if_true, hcopy]

theorem copyEnded_unreachable {dt : Nat} (hcopy : copyMove s x m bolts = .failed dt) (hdt : dt ≠ Detail.BOLT_CRC) (retryOk : Bool) :
    copyEnded s x m true retryOk bolts = copyFailed s x m dt := by
  simp only [copyEnded, Bool.true_or, if_true, hcopy, hdt, if_false]

theorem copyEnded_badCrc {mo : Model} (hmodel : modelOf s x = some mo) : copyEnded s x m false false bolts = copyFailed (moveFault s m mo false) x m Detail.BOLT_CRC := by
  simp only [copyEnded, Bool.or_self, Bool.false_eq_true, if_false, hmodel, Bool.false_and, if_true]

theorem copyFailed_back (hjob : m.job = false) (dt : Nat) :
    copyFailed s x m dt = issueEntry (setMove s m { m with stage := .flipping }) x (.cutBack m.cut) { m.old with state := .moving } m.old none := by
  simp only [copyFailed, hjob, Bool.false_eq_true, if_false]

end

/-! ### The end of the grace period (R202, R214, R216) -/

theorem moveGraceExpiry_due {s : State} {h k : Nat} {m : Move}
    (hmove : s.tir.moves.find? (fun m => m.handle == h && m.cut == k && decide (m.stage = .grace) && decide (m.deadline ≤ s.now)) = some m) :
    moveGraceExpiry s h k =
      (let U := dropMove s m
       let V := if m.old.isLocal then (if m.old.node = U.nodeId then dropLocal U m.old.slot else U)
         else told U m.old.node (.free h k ⟨m.old.pool, m.group, m.old.slot, m.old.ring⟩)
       ghostGone (if m.fell then passCut V h k (match V.req h with | some x => cutSize V x | none => 0) else V) h) := by
  simp only [moveGraceExpiry, hmove]
  rfl

/-! ### The acknowledgement of a FREE (R81) -/

theorem freeAck_eq {s : State} {h : Nat} {x : Ctx} (hx : s.ctx h = some x) (k : Nat) :
    freeAck s h k = if (x.cut k).state = .felling then issueEntry s x (.cutFelled k) (x.cut k) { x.cut k with state := .felled } none else s := by
  simp only [freeAck, hx]

/-- Settles O38: each command's block and each later event answers as its rules give for the move or the entry it names. -/
theorem ownersMoveAndFellCuts : Obligations.OwnersMoveAndFellCuts := by
  intro s x
  simp only [exec_move, exec_fell, exec_fellCut, exec_fellPick, exec_cutFilled, exec_placeRetry, exec_reserveAnswer, exec_moveCopyDone, exec_moveGraceExpiry, exec_freeAck]
  refine ⟨fun c => ⟨⟨?badCount, ?handoff, ?moveOne, ?moveMany⟩, fun ho hd hf => ⟨?fell, ?fellCut⟩⟩, ⟨?noPass, ?busy, ?passEnds, ?picks⟩,
    fun h k hx => ⟨?filled, ?retry, ?reserved, ?copied, ?freed⟩⟩
  case badCount =>
    intro hfn hnew hturn hpwr hfill hcount
    have hformat : formatOk Op.MOVE c = false := by
      rw [← Bool.not_eq_true]
      intro hok
      have := formatOk_move hok
      omega
    exact runCommand_refused hfn hnew hturn hpwr hfill (checkCommand_format (by decide) hformat _ _)
  case handoff =>
    intro hready hx ho hp
    obtain ⟨hlow, hhigh⟩ := formatOk_move (hostReady_formatOk (by decide) hready)
    exact runCommand_ends hready (by rw [moveBody_answers hx ho (by simp [hp]) (by simp [hp]) _ hlow hhigh, if_pos hp])
  case moveOne =>
    intro hready hone hx ho hd hf hh hlen hstate hheld hthere hmoves hjobs
    have hnames : moveNames c x = [c.arg0] := by simp [moveNames, hone, hlen]
    refine runCommand_goesOn hready ?_
    rw [moveBody_answers hx ho hd hf _ (by omega) (by omega), if_neg hh, hnames, moveJobAdvance_one hx hstate hheld hthere hmoves hjobs]
    rfl
  case moveMany =>
    intro hready hlow hhigh hx ho hd hf hh
    exact runCommand_goesOn hready (by rw [moveBody_answers hx ho hd hf _ hlow hhigh, if_neg hh]; rfl)
  case fell =>
    intro hready hx
    exact ⟨fun h => runCommand_ends hready (fellBody_conflict hx ho hd hf _ h), fun hp hres hnone => runCommand_ends hready (fellBody_nothing hx ho hd hf _ hp hres hnone),
      fun hp hres hsome => runCommand_goesOn hready (fellBody_fells hx ho hd hf _ hp hres hsome)⟩
  case fellCut =>
    intro hready hx
    exact ⟨fun h => runCommand_ends hready (fellCutBody_conflict hx ho hd hf _ h),
      fun hp hres hstate hmove => runCommand_goesOn hready (fellCutBody_fells hx ho hd hf _ hp hres hstate hmove)⟩
  case noPass => exact fun hpass => by rw [fellPick_noPass hpass]
  case busy => exact fun p hpass hbusy => by rw [fellPick_busy hpass hbusy]
  case passEnds => exact fun p hpass hidle hend => congrArg _ (fellPick_ends hpass hidle hend)
  case picks =>
    intro p hpass hidle htarget hpick
    exact ⟨fun hstay => congrArg _ (fellPick_fells hpass hidle htarget hpick hstay),
      fun d hpd hmode hlower => congrArg _ (fellPick_lowers hpass hidle htarget hpick hpd hmode hlower)⟩
  case filled =>
    intro ho hd hf hh hstep hcut
    rw [cutFilled_places hx ho hd hf hh hstep hcut]
    exact ⟨fun hpd hposted => by rw [placeCut_noPd hpd, hposted]; rfl, fun hpd hposted => by rw [placeCut_noPd hpd, hposted]; rfl,
      fun pd n p hpd htarget => by rw [placeCut_first hpd htarget]⟩
  case retry =>
    intro t hretry
    refine ⟨fun hearly => by rw [placeRetry_early hretry hearly], fun hdue hx hcut => ?_⟩
    rw [placeRetry_due hretry hdue hx hcut]
    exact ⟨fun hpd hposted => by rw [placeCut_noPd hpd, hposted]; rfl, fun pd n p hpd htarget => by rw [placeCut_first hpd htarget]⟩
  case reserved =>
    intro n m st dt hmove
    refine ⟨fun hst => by rw [reserveAnswer_move st hmove, reserveAnswerOwner_refused hst], fun hx ho hd hf hstate hnone hthere => ?_⟩
    rw [reserveAnswer_move 0 hmove, reserveAnswerOwner_granted hx ho hd hf hstate hnone hthere]
    exact ⟨fun hheld => by rw [hheld]; rfl, fun hheld => by rw [hheld]; rfl⟩
  case copied =>
    intro m b n bolts
    refine ⟨fun hmove hstage hreq => ?_, fun hmove => ?_⟩
    · simp only [moveCopyDone_copying hmove hstage hreq]
      refine ⟨fun U hcopy => ?_, fun U hcopy => by rw [copyEnded_waits hcopy], fun dt hcopy hdt hjob => ?_, fun mo hjob hmodel => ?_⟩
      · rw [copyEnded_done hcopy]
        exact ⟨fun hds => by rw [if_pos hds]; rfl, fun hds => by rw [if_neg hds]; rfl⟩
      · rw [copyEnded_unreachable hcopy hdt, copyFailed_back hjob]; rfl
      · rw [copyEnded_badCrc hmodel, copyFailed_back hjob]; rfl
    · rw [moveGraceExpiry_due hmove]
      refine ⟨fun hloc hfell => ?_, fun hloc hnode hfell => ?_, fun hloc hfell hreq => ?_⟩
      · simp only [hloc, hfell]; rfl
      · have hnode' : m.old.node = (dropMove s m).nodeId := hnode
        simp only [hloc, hfell, ← hnode']; rfl
      · have hreq' : (told (dropMove s m) m.old.node (.free h k ⟨m.old.pool, m.group, m.old.slot, m.old.ring⟩)).req h = some x := hreq
        simp only [hloc, hfell, if_true, Bool.false_eq_true, if_false, hreq']
        rfl
  case freed =>
    intro st dt
    rw [freeAck_eq hx]
    exact ⟨fun hstate => by rw [if_pos hstate]; rfl, fun hstate => by rw [if_neg hstate]⟩

end Sys2Proof.Machine
end

section
/-! PROOFS. COPPICE_DONE at the owner (R84, R158): beside what it ends, the request's cuts at their homes are inserted into its tenant's tree. -/

namespace Sys2Proof.Machine

theorem exec_coppiceDone (h : Nat) (full : List Nat) (st node : Nat) (entries : Rebuilt) (s : State) :
    exec (.coppiceDone h full st node entries) s = goesOn s (insertMoved (coppiceDone s h full st node entries.cuts entries.tail) h) := rfl

/-- COPPICE_DONE of a request that waits for none changes nothing by itself. -/
theorem coppiceDone_idle {s : State} {h : Nat} {x : Ctx} (hx : s.ctx h = some x) (hidle : x.coppicing = false) (full : List Nat) (st node : Nat)
    (entries : List (Nat × CutEntry)) (bolts : List Byte) : coppiceDone s h full st node entries bolts = s := by
  simp only [coppiceDone, hx, hidle, Bool.not_false, if_true]

/-- The conditions under which a request inserts the cuts that stand at their homes (R158). -/
def InsertsCuts (s : State) (x : Ctx) : Prop :=
  x.trailInsert = true ∧ x.owner = true ∧ (x.cuts.any fun e => decide (e.state = .resident) && !e.isLocal) = true ∧ s.trl.key ≠ none
  ∧ s.r Reg.TRL_TREE_CFG_ENABLE = 1 ∧ trailRole s = true

/-- The wait of a request's own insertion behind what runs in its tenant's tree. -/
def insertWait (x : Ctx) : TreeWait := ⟨x.tenant, x.handle, none, false⟩

theorem insertMoved_queues {s : State} {h : Nat} {x : Ctx} (hx : s.ctx h = some x) (hins : InsertsCuts s x) (hbusy : treeBusy s x.tenant = true)
    (hnew : s.trl.waiting.contains (insertWait x) = false) : insertMoved s h = treeQueue s (insertWait x) := by
  rw [insertWait] at hnew
  unfold InsertsCuts at hins
  simp only [insertMoved, hx, if_pos hins, hbusy, hnew, Bool.not_true, Bool.false_eq_true, if_false, insertWait]

/-- A request of tenant 5 admitted with TRAIL_INSERT, with one cut RESIDENT at another home, that waits for no coppicing. -/
def insertCtx : Ctx :=
  { Ctx.blank 0x200000 with tenant := 5, owner := true, phase := .paused, trailInsert := true, cutCount := 1, cuts := [⟨.resident, false, true, false, 0x101, 1, 0, 1⟩] }
/-- Its node: mixed role, an index key, TRAIL_INSERT enabled, and another request of the tenant that waits for the tree. -/
def insertState : State :=
  let s := ((((State.reset.setR Reg.MGT_ROLE_ROLE 4).setR Reg.MGT_ROLE_NODE_ID 0x100).setR Reg.MGT_MAP_EPOCH_ROLE_LIVE 1).setR Reg.TRL_TREE_CFG_ENABLE 1).setCtx insertCtx
  { s with trl := { s.trl with key := some (leBytes 16 7), waiting := [⟨5, 0x200001, none, false⟩] } }

theorem insertState_inserts : InsertsCuts insertState insertCtx := by
  unfold InsertsCuts
  decide

/-- Refutes O39: its clauses on COPPICE_DONE leave out that the request's cuts at their homes are inserted into its tenant's tree (R158). A request that waits for no coppicing has its insertion queued where they say that nothing changes. -/
theorem not_coppicingAndStallsGoOn : ¬ Obligations.CoppicingAndStallsGoOn := by
  intro h
  have hctx : insertState.ctx 0x200000 = some insertCtx := by decide
  obtain ⟨hunchanged, _⟩ := (h insertState).2 0x200000 insertCtx hctx
  have hsame := hunchanged [] 0 0 [] [] rfl
  rw [exec_coppiceDone, coppiceDone_idle hctx rfl, insertMoved_queues hctx insertState_inserts (by decide) (by decide)] at hsame
  have hwaits := congrArg (fun t => t.trl.waiting.length) (keepQueue_of_goesOn hsame)
  exact absurd hwaits (by decide)

end Sys2Proof.Machine
end

section
/-! PROOFS. Control writes (R94, R214, R255, R377, R449, R450, R490): what each register write that clears an error, starts work, takes a copy, consumes records or reports a fault does. -/

namespace Sys2Proof.Machine

/-! ### The block that performs each write -/

theorem exec_attErrorClear {st : Nat} (hst : st < 64) (v : Nat) (s : State) : exec (.attErrorClear st v) s = goesOn s (attErrorClear s st v) :=
  withUnit_there (decide_eq_true hst)
theorem exec_cdcErrorClear {st : Nat} (hst : st < 64) (v : Nat) (s : State) : exec (.cdcErrorClear st v) s = goesOn s (cdcErrorClear s st v) :=
  withUnit_there (decide_eq_true hst)
theorem exec_obsSelWrite {o : Nat} (ho : o < 256) (v : Nat) (s : State) : exec (.obsSelWrite o v) s = goesOn s (obsSelWrite s o v) :=
  withUnit_there (decide_eq_true ho)
theorem exec_tirFellKick (v : Nat) (s : State) :
    exec (.tirFellKick v) s = goesOn s (if bits v 0 20 = 0 then s else startPass s (bits v 0 20 * 2 ^ 20)) := rfl
theorem exec_obsSnap (v : Nat) (s : State) : exec (.obsSnap v) s = goesOn s (if bit v 0 then obsSnapshot s else s) := rfl
theorem exec_scbFlushWrite (v : Nat) (s : State) : exec (.scbFlushWrite v) s = goesOn s (if bit v 0 then scbStartFlush s else s) := rfl
theorem exec_circClear (v : Nat) (s : State) :
    exec (.circClear v) s = goesOn s (if bit v 1 then { s with scb := { s.scb with mram := { s.scb.mram with circArea := [] } } } else s) := rfl
theorem exec_faultHeadWrite (v : Nat) (s : State) : exec (.faultHeadWrite v) s = goesOn s (faultHeadWrite s v) := rfl
theorem exec_swreport (v : Nat) (s : State) : exec (.swreport v) s = goesOn s (swreport s v) := rfl

/-! ### Error bits of a stand's queues (R94, R255) -/

section
variable {s : State} {v : Nat}

theorem attErrorClear_reopens (hbit : bit v 31 = true) (st : Nat) :
    attErrorClear s st v =
      ((s.setStand st { s.stand st with attErr := false }).setR (Reg.STD_ATT_STATUS_ERROR.at 0x10000 st) 0).setR (Reg.STD_ATT_STATUS_DETAIL.at 0x10000 st) 0 := by
  rw [attErrorClear, if_pos hbit]

theorem cdcErrorClear_reopens (hbit : bit v 31 = true) (st : Nat) :
    cdcErrorClear s st v =
      ((s.setStand st { s.stand st with cdcErr := false }).setR (Reg.STD_CDC_STATUS_ERROR.at 0x10000 st) 0).setR (Reg.STD_CDC_STATUS_DETAIL.at 0x10000 st) 0 := by
  rw [cdcErrorClear, if_pos hbit]

/-! ### Work that a write starts (R214, R490) -/

theorem startPass_idle (henable : s.r Reg.TIR_FELL_CFG_ENABLE ≠ 0) (hpass : s.tir.pass = none) (target : Nat) :
    startPass s target =
      (({ s with tir := { s.tir with pass := some ⟨target, 0, 0, 0, 0, [], []⟩ } } : State).setR Reg.TIR_FELL_STATUS_RUNNING 1).wrap Reg.TIR_FELL_STATUS_PASSES 1 := by
  have hidle : ¬ (s.r Reg.TIR_FELL_CFG_ENABLE = 0 ∨ s.tir.pass.isSome) := by simp [henable, hpass]
  rw [startPass, if_neg hidle]

theorem scbStartFlush_idle (hidle : s.scb.flushing = false) : scbStartFlush s = { s with scb := { s.scb with flush := scbSelect s, flushing := true } } := by
  simp only [scbStartFlush, hidle, Bool.false_eq_true, if_false]

/-! ### Observers (R377) -/

/-- The banks once every live one is its observer's snapshot: the live ones stand at even keys, each snapshot at the key above. -/
def snapshotBanks (m : AMap ObsBank) : AMap ObsBank := (amFilter (fun k _ => k % 2 == 0) m).foldl (fun m e => amSet (e.1 + 1) e.2 m) []

theorem obsSnapshot_first (hsnap : s.cwt.obsSnapAt ≠ some s.now) (hsample : s.cwt.obsAt ≠ some s.now) :
    obsSnapshot s = ({ s with cwt := { s.cwt with obs := snapshotBanks s.cwt.obs, obsPrev := [], obsSnapAt := some s.now } } : State).setR
      Reg.CWT_OBS_SNAP_TIME_TIME s.now := by
  have hother : (s.cwt.obsAt == some s.now) = false := beq_false_of_ne hsample
  simp only [obsSnapshot, if_neg hsnap, hother, Bool.false_eq_true, if_false, snapshotBanks]

theorem obsSnapshot_again (hsnap : s.cwt.obsSnapAt = some s.now) : obsSnapshot s = s := if_pos hsnap

theorem obsSelWrite_changed {o : Nat} (hchange : s.r (Reg.CWT_OBS_SEL_KIND.at 4 o) ≠ bits v 28 4 ∨ s.r (Reg.CWT_OBS_SEL_INDEX.at 4 o) ≠ bits v 0 16) :
    obsSelWrite s o v =
      { (s.setR (Reg.CWT_OBS_SEL_KIND.at 4 o) (bits v 28 4)).setR (Reg.CWT_OBS_SEL_INDEX.at 4 o) (bits v 0 16) with
        cwt := { s.cwt with obsClear := if s.cwt.obsClear.contains o then s.cwt.obsClear else o :: s.cwt.obsClear } } :=
  if_neg (not_and_or.mpr hchange)

/-! ### The fault queue (R449) -/

theorem faultHeadWrite_between (hword : v < 2 ^ 32) (hhead : s.r Reg.MGT_FLT_HEAD_HEAD ≤ v) (htail : v ≤ s.mgt.fltTail) :
    faultHeadWrite s v = fltDrain (s.setR Reg.MGT_FLT_HEAD_HEAD v) s.mgt.fltHeld.length := by
  have hinside : ¬ (v < s.r Reg.MGT_FLT_HEAD_HEAD ∨ s.mgt.fltTail < v) := by omega
  simp only [faultHeadWrite, Nat.mod_eq_of_lt hword, if_neg hinside]

end

/-- Settles O14: each write reaches its register's operation, whose equation for the stated case says what it leaves. -/
theorem controlWritesAct : Obligations.ControlWritesAct := by
  intro s v
  refine ⟨?attention, ?codec, ?fellKick, ?snapshot, ?observerSelect, ?flush, ?circulating, ?faultHead, exec_swreport v s⟩
  case attention =>
    intro st hst hbit
    rw [exec_attErrorClear hst, attErrorClear_reopens hbit]
  case codec =>
    intro st hst hbit
    rw [exec_cdcErrorClear hst, cdcErrorClear_reopens hbit]
  case fellKick =>
    intro hsize henable hpass
    rw [exec_tirFellKick, if_neg hsize, startPass_idle henable hpass]
  case snapshot =>
    intro hbit
    rw [exec_obsSnap, if_pos hbit]
    refine ⟨fun hsnap hsample => ?_, fun hsnap => by rw [obsSnapshot_again hsnap]⟩
    rw [obsSnapshot_first hsnap hsample, snapshotBanks]
  case observerSelect =>
    intro o ho hchange
    rw [exec_obsSelWrite ho, obsSelWrite_changed hchange]
  case flush =>
    intro hbit hidle
    rw [exec_scbFlushWrite, if_pos hbit, scbStartFlush_idle hidle]
  case circulating =>
    intro hbit
    rw [exec_circClear, if_pos hbit]
  case faultHead =>
    intro hword hhead htail
    rw [exec_faultHeadWrite, faultHeadWrite_between hword hhead htail]

end Sys2Proof.Machine
end

section
/-! PROOFS. SHARD_STATUS at the requester (R127, R132): a refused shard is fetched, and served anew by the home of its own. -/

namespace Sys2Proof.Machine

theorem exec_shardStatus (m : ShardMsg) (s : State) : exec (.shardStatus m) s = goesOn s (fromNode s m.src (shardStatus s m)) := rfl

/-- A shard asked for at its home, which refuses it for no reason of its entries, is fetched and computed here (R132). -/
theorem shardStatus_fetches {s : State} {m : ShardMsg} {M : MSlot} {x : Ctx} {mo : Model} {L : StepLayer} {sh : Shard}
    (hslot : amGet m.slot s.xch.merges = some M) (huse : M.use = m.use) (hlayer : M.layer = m.layer) (hwaits : M.arrived.contains m.shard = false)
    (hshard : shardOf s m.slot m.shard = some (x, mo, L, sh)) (hserve : sh.serve = .home) (hhome : m.src = sh.home) (hentries : entriesOld m.status = false) :
    shardStatus s m = fetchShard (markFetched s sh.home) x mo L sh.index := by
  have hthis : ¬ (M.use ≠ m.use ∨ M.layer ≠ m.layer) := by simp [huse, hlayer]
  have hasked : ¬ (sh.serve ≠ .home ∨ m.src ≠ sh.home) := by simp [hserve, hhome]
  have hfirst : sh.serve ≠ .backup := by simp [hserve]
  simp only [shardStatus, hslot, if_neg hthis, hwaits, hshard, if_neg hfirst, if_neg hasked, hentries, Bool.false_eq_true, if_false]

/-- How each shard of a request's layer in progress is served. -/
def servesOf (s : State) (h : Nat) : Option (List Serve) := (s.layer h).map fun L => L.shards.map (·.serve)

/-- Shard 0 of a step: cut 0 at home 0x101, asked for there. -/
def remoteShard : Shard :=
  { index := 0, home := 0x101, cuts := [0], sent := 0, serve := .home, backedUp := false, denied := false, arrived := false, retryAt := 0, part := none }
/-- The local shard under the same number. `stepShards` numbers the shards of a step apart (R118), but the obligation speaks of every state. -/
def localShard : Shard := { remoteShard with home := 0x100, cuts := [], serve := .here }
def twinLayer : StepLayer :=
  { handle := 0x200000, layer := 0, kind := 1, window := 0, slot := 0, entry := 0, row0 := 0, pos0 := 32, count := 1, formats := 0, tree := [], stage := .attending,
    merge := some 3, det := false, shards := [remoteShard, localShard], kvTasks := [] }
def twinCtx : Ctx :=
  { Ctx.blank 0x200000 with owner := true, phase := .decode, model := 7, cutCount := 1, cuts := [⟨.resident, false, false, false, 0x101, 1, 0, 1⟩] }
def twinModel : Model :=
  { layers := 1, qHeads := 1, kvHeads := 1, hdim := 0, format := 0, groups := 1, sinks := 0, window := 0, smScale := 0, end0 := 0, end1 := 0 }
def twinSlot : MSlot := { use := 4, layer := 0, handle := 0x200000, rows := 1, d := 64, det := false, expect := 2, arrived := [] }
/-- Generation-role node 0x100 with that layer in progress. -/
def twinState : State :=
  let s := ((State.reset.setR Reg.MGT_ROLE_ROLE 2).setR Reg.MGT_ROLE_NODE_ID 0x100).setCtx twinCtx
  { s with sch := { s.sch with models := [(7, twinModel)] }, xch := { s.xch with layers := [(0x200000, twinLayer)], merges := [(3, twinSlot)] } }
/-- The answer of home 0x101: its serve class is at its cap. -/
def cappedStatus : ShardMsg := ⟨0x101, 3, 4, 0, 0, Status.noCredit.code, Detail.SERVE_OVER, 0⟩

theorem twinState_shard : shardOf twinState 3 0 = some (twinCtx, twinModel, twinLayer, remoteShard) := by decide

/-- The fetch leaves the local shard served here: its own home is this node. -/
theorem twinState_fetched_serves :
    servesOf (fetchShard (markFetched twinState remoteShard.home) twinCtx twinModel twinLayer remoteShard.index) 0x200000 = some [.fetch, .here] := by decide

/-- The obligation's state has it fetched: it serves every shard of the number by the home of the first. -/
theorem twinState_claimed_serves :
    servesOf (shardFetched twinState twinCtx twinModel twinLayer remoteShard) 0x200000 = some [.fetch, .fetch] := by decide

@[simp] theorem servesOf_keepQueue (s t : State) (h : Nat) : servesOf (keepQueue s t) h = servesOf t h := rfl

/-- Refutes O55: its clause on a status that has a shard fetched serves every shard under the number by the home of the shard found. Where a layer holds the local shard under the same number, the model goes on serving that one here, by the home of its own. -/
theorem not_splitServesAndFallsBack : ¬ Obligations.SplitServesAndFallsBack := by
  intro h
  obtain ⟨_, _, _, hstatus, _, _⟩ := h twinState
  obtain ⟨_, hfound⟩ := hstatus cappedStatus (by decide)
  obtain ⟨_, hwaiting⟩ := (hfound twinSlot rfl).2 rfl rfl
  obtain ⟨_, _, hfetched, _⟩ := hwaiting twinCtx twinModel twinLayer remoteShard rfl twinState_shard
  have hclaim := hfetched rfl rfl (by decide) (by decide)
  rw [exec_shardStatus, fromNode_taken (.inl (by decide)), shardStatus_fetches rfl rfl rfl rfl twinState_shard rfl rfl rfl] at hclaim
  have hserves := congrArg (servesOf · 0x200000) (keepQueue_of_goesOn hclaim)
  simp only [servesOf_keepQueue, twinState_fetched_serves, twinState_claimed_serves] at hserves
  exact absurd hserves (by decide)

end Sys2Proof.Machine
end

section
/-! PROOFS. The trail index (R144 to R166): what its commands, the release of a lookup and the answer to a HOLD do. -/

namespace Sys2Proof.Machine

/-! ### The block that performs each command -/

theorem exec_lookup (c : Cmd) (s : State) : exec (.lookup c) s = runPlain s Op.LOOKUP c (lookupBody c) := rfl
theorem exec_blazePublish (c : Cmd) (s : State) : exec (.blazePublish c) s = runPlain s Op.BLAZE_PUBLISH c (blazePublishBody c) := rfl
theorem exec_blazeRetire (c : Cmd) (s : State) : exec (.blazeRetire c) s = runPlain s Op.BLAZE_RETIRE c (blazeRetireBody c) := rfl
theorem exec_trailInsert (c : Cmd) (s : State) : exec (.trailInsert c) s = runPlain s Op.TRAIL_INSERT c (trailInsertBody c) := rfl
theorem exec_trailRemove (c : Cmd) (s : State) : exec (.trailRemove c) s = runPlain s Op.TRAIL_REMOVE c (trailRemoveBody c) := rfl
theorem exec_lookupRelease (id : Nat) (late : Bool) (s : State) : exec (.lookupRelease id late) s = goesOn s (lookupRelease s id late) := rfl
theorem exec_holdAnswer (id st dt : Nat) (s : State) : exec (.holdAnswer id st dt) s = goesOn s (holdAnswer s id st dt) := rfl

/-! ### LOOKUP and its release (R160, R165, R166) -/

theorem lookupBody_starts {T : State} (hrole : trailRole T = true) (c : Cmd) (d : List Byte) :
    lookupBody c T d =
      (startLookup T (.probe c) c.fn ⟨bits c.arg0 0 16, bits c.arg0 16 8, c.arg1, c.arg2, (List.range c.arg3).map fun i => leField d (4 * i) 4⟩, none) := by
  simp only [lookupBody, hrole, Bool.not_true, Bool.false_eq_true, if_false]

/-- The state once a lookup has left flight and is counted. -/
def lookupTaken (s : State) (id : Nat) : State :=
  { s with trl := { s.trl with lookups := amErase id s.trl.lookups } }.wrap Reg.TRL_LOOKUPS_LOOKUPS 1

section
variable {s : State} {id : Nat} (late : Bool)

theorem lookupRelease_absent (h : amGet id s.trl.lookups = none) : lookupRelease s id late = s := by
  simp only [lookupRelease, h]

section
variable {l : Lookup} (hl : amGet id s.trl.lookups = some l)
include hl

theorem lookupRelease_early (heq : s.r Reg.TRL_EQ_CFG_ENABLE = 1) (hpad : s.now < l.issued + eqPadding s l.searchable) : lookupRelease s id late = s := by
  simp only [lookupRelease, hl, heq, hpad, beq_self_eq_true, and_self, if_true]

section
variable (heq : s.r Reg.TRL_EQ_CFG_ENABLE = 0)
include heq

theorem lookupRelease_probe {c : Cmd} (hfor : l.purpose = .probe c) :
    lookupRelease s id late = completeCmd (lookupTaken s id) Op.LOOKUP c { Done.of .ok l.detail with record := lookupRecord (lookupTaken s id) l c.userTag } := by
  simp only [lookupRelease, hl, heq, Nat.reduceBEq, hfor, Bool.false_eq_true, false_and, Bool.false_and, if_false, lookupTaken]

theorem lookupRelease_noMatch {h : Nat} {x : Ctx} (hfor : l.purpose = .request h) (hx : (lookupTaken s id).ctx h = some x) (hcuts : l.cuts = []) :
    lookupRelease s id late = (lookupTaken s id).setCtx { x with lookupBusy := false } := by
  rw [lookupTaken] at hx
  simp only [lookupRelease, hl, heq, Nat.reduceBEq, hfor, hx, hcuts, List.isEmpty_nil, true_or, Bool.false_eq_true, false_and, Bool.false_and, if_false, if_true, lookupTaken]

end

end

end

/-! ### BLAZE_PUBLISH (R145, R146, R154) -/

@[simp] theorem addJob_number (s : State) (j : HoldJob) : (addJob s j).2 = s.trl.nextJob := rfl

section
variable {T : State} {c : Cmd} {x : Ctx} (hrole : trailRole T = true) (hx : T.ctx c.handle = some x) (ho : x.owner = true) (hd : x.phase ≠ .done)
  (hf : x.phase ≠ .failed) (d : List Byte)
include hrole hx ho hd hf

theorem blazePublishBody_otherClass (h : c.fn ≠ 0 ∨ x.tenant ≠ 0 ∨ bits x.hostCq 16 6 ≠ 0) :
    blazePublishBody c T d = (T, some { Done.of .fenced Detail.TRL_CLASS with handle := c.handle }) := by
  simp only [blazePublishBody, hrole, withCtx_owned hx ho hd hf, Bool.not_true, Bool.false_eq_true, if_false, if_pos h]

section
variable (hfn : c.fn = 0) (htenant : x.tenant = 0) (hcq : bits x.hostCq 16 6 = 0)
include hfn htenant hcq

theorem blazePublishBody_noKey (hkey : T.trl.key = none) :
    blazePublishBody c T d = (T, some { Done.of .fenced Detail.TRL_NO_KEY with handle := c.handle }) := by
  simp only [blazePublishBody, hrole, withCtx_owned hx ho hd hf, hfn, htenant, hcq, hkey, ne_eq, not_true_eq_false, or_self, Bool.not_true,
    Bool.false_eq_true, if_false, if_true]

theorem blazePublishBody_begins {j : HoldJob} (hkey : T.trl.key ≠ none) (hen : T.r Reg.TRL_BLAZE_CFG_ENABLE = 1)
    (hj : j = { use := .publish, handle := c.handle, cmd := some (Op.BLAZE_PUBLISH, c), cuts := [], answers := [], block := 0, count := c.arg1, node := 0,
                set := c.arg0, refused := (0, 0) }) :
    blazePublishBody c T d = (publishGo (keyServed (addJob T j).1 false) T.trl.nextJob j (c.arg1 + 1), none) := by
  subst hj
  simp only [blazePublishBody, hrole, withCtx_owned hx ho hd hf, hfn, htenant, hcq, hkey, hen, ne_eq, not_true_eq_false, or_self, Bool.not_true,
    Bool.false_eq_true, if_false, Nat.one_ne_zero, addJob_number]

end

/-! ### TRAIL_INSERT (R145, R158) -/

theorem trailInsertBody_noKey (hkey : T.trl.key = none) :
    trailInsertBody c T d = (T, some { Done.of .fenced Detail.TRL_NO_KEY with handle := c.handle }) := by
  simp only [trailInsertBody, hrole, withCtx_owned hx ho hd hf, hkey, Bool.not_true, Bool.false_eq_true, if_false, if_true]

theorem trailInsertBody_starts (hkey : T.trl.key ≠ none) (hen : T.r Reg.TRL_TREE_CFG_ENABLE = 1) (hfree : treeBusy T x.tenant = false) :
    trailInsertBody c T d = (startInsert T x (some (Op.TRAIL_INSERT, c)), none) := by
  simp only [trailInsertBody, hrole, withCtx_owned hx ho hd hf, hkey, hen, hfree, Bool.not_true, Bool.false_eq_true, if_false, Nat.one_ne_zero]

end

theorem ensureRoot_present {s : State} {tenant : Nat} (hread : onQuiesced s (rootAt s tenant) = false) (hroot : rootOf s tenant ≠ 0) :
    ensureRoot s tenant = .ok (s, rootOf s tenant) := by
  simp only [ensureRoot, hread, Bool.false_eq_true, if_false, if_pos hroot]

/-- An insertion in a tree that has its root begins there with block 0. The definition is unfolded before it meets its arguments: comparing the two
applied, the kernel would evaluate `ensureRoot`. -/
theorem startInsert_rooted {s : State} {x : Ctx} {cmd : Option (Nat × Cmd)} {j : HoldJob} (hread : onQuiesced s (rootAt s x.tenant) = false)
    (hroot : rootOf s x.tenant ≠ 0)
    (hj : j = { use := .insert, handle := x.handle, cmd := cmd, cuts := [], answers := [], block := 0, count := x.cutCount, node := rootOf s x.tenant,
                set := 0, refused := (0, 0) }) :
    startInsert s x cmd = insertGo (keyServed (addJob s j).1 false) s.trl.nextJob j (x.cutCount + 1) := by
  obtain ⟨f, hf⟩ : ∃ f, f = startInsert := ⟨_, rfl⟩
  rw [← hf]
  delta startInsert at hf
  rw [hf]
  beta_reduce
  rw [ensureRoot_present hread hroot, hj]
  rfl

/-! ### BLAZE_RETIRE (R151, R155) -/

/-- The entries whose key matches under the mask of a sweep (R155). -/
def blazeHits (s : State) (c : Cmd) : List (Nat × BlazeEntry) := s.trl.blaze.filter fun e => (e.2.key &&& c.arg1) == (c.arg0 &&& c.arg1)

theorem blazeHits_eq_nil {s : State} {c : Cmd} (h : ∀ e ∈ s.trl.blaze, e.2.key &&& c.arg1 ≠ c.arg0 &&& c.arg1) : blazeHits s c = [] :=
  List.filter_eq_nil_iff.mpr fun e he hkey => h e he (beq_iff_eq.mp hkey)

/-- Whether the record of an entry cannot be read: its CRC is wrong, or its stack is quiesced (R434, R445). -/
def recBad (s : State) (e : BlazeEntry) : Bool := !crcGood (s.rd (recAddr s e.record) 256) || onQuiesced s (recAddr s e.record)

theorem recBad_of_crc {s : State} {e : BlazeEntry} (hread : onQuiesced s (recAddr s e.record) = false) {b : Bool}
    (hcrc : crcGood (s.rd (recAddr s e.record) 256) = b) : recBad s e = !b := by
  simp only [recBad, hread, hcrc, Bool.or_false]

section
variable {T : State} {c : Cmd} (hrole : trailRole T = true) (d : List Byte)
include hrole

/-- A sweep all of whose matches have records that can be read removes them all. -/
theorem blazeRetireBody_removes (hgood : ∀ e ∈ blazeHits T c, recBad T e.2 = false) :
    blazeRetireBody c T d = ((blazeHits T c).foldl (fun U e => retireEntry U e.1 e.2) T, some Done.ok) := by
  have hall : ((blazeHits T c).filter fun e => !recBad T e.2) = blazeHits T c :=
    List.filter_eq_self.mpr fun e he => by rw [hgood e he]; rfl
  have hnone : ((blazeHits T c).find? fun e => recBad T e.2) = none :=
    List.find?_eq_none.mpr fun e he => by rw [hgood e he]; exact Bool.false_ne_true
  rw [blazeHits] at hall hnone ⊢
  simp only [recBad] at hall hnone
  simp only [blazeRetireBody, hrole, Bool.not_true, Bool.false_eq_true, if_false, hall, hnone]

theorem blazeRetireBody_removesOne {w : Nat} {e : BlazeEntry} (hhit : blazeHits T c = [(w, e)]) (hgood : recBad T e = false) :
    blazeRetireBody c T d = (retireEntry T w e, some Done.ok) := by
  rw [blazeRetireBody_removes hrole d (by rw [hhit]; exact List.forall_mem_singleton.mpr hgood), hhit, List.foldl_cons, List.foldl_nil]

theorem blazeRetireBody_noMatch (hhit : blazeHits T c = []) : blazeRetireBody c T d = (T, some Done.ok) := by
  rw [blazeRetireBody_removes hrole d (by rw [hhit]; exact List.forall_mem_nil _), hhit, List.foldl_nil]

/-- A lone match whose record fails its CRC stays, and is a lasting fault of the stack that holds it. -/
theorem blazeRetireBody_badRecord {w : Nat} {e : BlazeEntry} (hhit : blazeHits T c = [(w, e)]) (hread : onQuiesced T (recAddr T e.record) = false)
    (hbad : recBad T e = true) :
    blazeRetireBody c T d = (lastingAt T (recAddr T e.record) Detail.TRL_REC_CRC 0, some (Done.of .fenced Detail.TRL_REC_CRC)) := by
  have hdetail : trailDetail T (recAddr T e.record) = Detail.TRL_REC_CRC := by rw [trailDetail, hread, if_neg Bool.false_ne_true]
  rw [blazeHits] at hhit
  rw [recBad] at hbad
  simp only [blazeRetireBody, hrole, hhit, Bool.not_true, Bool.false_eq_true, if_false, List.filter_cons, List.filter_nil, List.find?_cons, hbad, if_true, hdetail, fail]
  rw [List.foldl_nil, List.foldl_cons, List.foldl_nil, trailFault]

end

/-! ### TRAIL_REMOVE (R158, R159) -/

section
variable {s : State} {tenant : Nat}

theorem clearTree_quiesced (h : onQuiesced s (rootAt s tenant) = true) : clearTree s tenant = (s, Done.of .fenced Detail.FLT_STACK) := by
  simp only [clearTree, h, if_true]

theorem clearTree_rootless (hread : onQuiesced s (rootAt s tenant) = false) (hroot : rootOf s tenant = 0) : clearTree s tenant = (s, Done.ok) := by
  simp only [clearTree, hread, hroot, Bool.false_eq_true, if_false, if_true]

/-- A tree whose nodes can all be used is removed leaves first, then its root with the root's extensions. -/
theorem clearTree_removes (hread : onQuiesced s (rootAt s tenant) = false) (hroot : rootOf s tenant ≠ 0)
    (hgood : ∀ o ∈ postOrder s (rootOf s tenant) 131073, chainBad s o = none) :
    clearTree s tenant =
      (let leafless := ((postOrder s (rootOf s tenant) 131073).filter (· ≠ rootOf s tenant)).foldl removeLeaf s
       let bare := (extChain leafless (rootOf s tenant) false treeFuel).foldl freeTreeSlot leafless
       ((freeTreeSlot bare (rootOf s tenant)).wr (rootAt bare tenant) (leBytes 8 0), Done.ok)) := by
  have hnone : (postOrder s (rootOf s tenant) 131073).findSome? (chainBad s) = none := List.findSome?_eq_none_iff.mpr hgood
  simp only [clearTree, hread, hroot, hnone, Bool.false_eq_true, if_false]

end

section
variable {T : State} {c : Cmd} (hrole : trailRole T = true) (d : List Byte)
include hrole

theorem trailRemoveBody_waits (hbusy : treeBusy T c.arg0 = true) :
    trailRemoveBody c T d = (treeQueue T ⟨c.arg0, 0, some (Op.TRAIL_REMOVE, c), true⟩, none) := by
  simp only [trailRemoveBody, hrole, hbusy, Bool.not_true, Bool.false_eq_true, if_false, if_true]

theorem trailRemoveBody_clears (hfree : treeBusy T c.arg0 = false) {U : State} {e : Done} (hclear : clearTree T c.arg0 = (U, e)) :
    trailRemoveBody c T d = (U, some e) := by
  simp only [trailRemoveBody, hrole, hfree, hclear, Bool.not_true, Bool.false_eq_true, if_false]

end

/-! ### HOLD_ANSWER (R154, R158, R161) -/

section
variable {s : State} {id : Nat} (st dt : Nat)

theorem holdAnswer_absent (h : amGet (id / 2 ^ 20) s.trl.jobs = none) : holdAnswer s id st dt = s := by
  simp only [holdAnswer, h]

section
variable {j : HoldJob} (hj : amGet (id / 2 ^ 20) s.trl.jobs = some j)
include hj

theorem holdAnswer_publishRefused (huse : j.use = .publish) (hst : st ≠ 0) :
    holdAnswer s id st dt = jobEnd s (id / 2 ^ 20) j (statusOf st) dt j.block := by
  simp only [holdAnswer, hj, huse, hst, if_false]

theorem holdAnswer_insertRefused (huse : j.use = .insert) (hst : st ≠ 0) :
    holdAnswer s id st dt = treeGo (jobEnd s (id / 2 ^ 20) j (statusOf st) dt 0) := by
  simp only [holdAnswer, hj, huse, hst, if_false]

/-- While an answer to one of a hit's holds is out, those that have come are noted. -/
theorem holdAnswer_attachNoted (huse : j.use = .attach) (hout : ∃ a ∈ listSet (id % 2 ^ 20) (some (st == 0)) j.answers, a = none) :
    holdAnswer s id st dt = setJob s (id / 2 ^ 20) { j with answers := listSet (id % 2 ^ 20) (some (st == 0)) j.answers } := by
  obtain ⟨_, hmem, rfl⟩ := hout
  have hnotAll : ¬ (listSet (id % 2 ^ 20) (some (st == 0)) j.answers).all (·.isSome) = true :=
    fun hall => Bool.false_ne_true (List.all_eq_true.mp hall none hmem)
  simp only [holdAnswer, hj, huse, if_neg hnotAll]

end

end

/-- A job of a host command ends with that command's completion. -/
theorem jobEnd_command {j : HoldJob} {o : Nat} {c : Cmd} (h : j.cmd = some (o, c)) (s : State) (n : Nat) (st : Status) (dt v : Nat) :
    jobEnd s n j st dt v = completeCmd (dropJob s n) o c { Done.of st dt with handle := j.handle, value := v } := by
  simp only [jobEnd, h, finish]

/-- Settles O41: each command's block, and each later event, answers as the lemma of its case says. -/
theorem trailCommandsSearchAndHold : Obligations.TrailCommandsSearchAndHold := by
  intro s
  simp only [exec_lookup, exec_blazePublish, exec_blazeRetire, exec_trailInsert, exec_trailRemove, exec_lookupRelease, exec_holdAnswer]
  refine ⟨fun c => ⟨?lookup, ?retire, ?remove, fun x ho hd hf => ⟨?publish, ?insert⟩⟩, fun id late => ⟨?unknown, ?release, ?answer⟩⟩
  case lookup =>
    intro hready hrole
    exact runCommand_goesOn hready (lookupBody_starts hrole c _)
  case retire =>
    intro hready hrole
    refine ⟨fun w e hhit hread => ⟨fun hcrc => ?_, fun hcrc => ?_⟩, fun hnone => ?_⟩
    · exact runCommand_ends hready (blazeRetireBody_removesOne hrole _ hhit (recBad_of_crc hread hcrc))
    · exact runCommand_ends hready (blazeRetireBody_badRecord hrole _ hhit hread (recBad_of_crc hread hcrc))
    · exact runCommand_ends hready (blazeRetireBody_noMatch hrole _ (blazeHits_eq_nil hnone))
  case remove =>
    intro hready hrole
    refine ⟨fun hfree hq => ?_, fun hfree hread hroot => ?_, fun hfree hread hroot hgood => ?_, fun hbusy => ?_⟩
    · exact runCommand_ends hready (trailRemoveBody_clears hrole _ hfree (clearTree_quiesced hq))
    · exact runCommand_ends hready (trailRemoveBody_clears hrole _ hfree (clearTree_rootless hread hroot))
    · exact runCommand_ends hready (trailRemoveBody_clears hrole _ hfree (clearTree_removes hread hroot hgood))
    · exact runCommand_goesOn hready (trailRemoveBody_waits hrole _ hbusy)
  case publish =>
    intro hready hrole hx
    refine ⟨fun hother => ?_, fun hfn htenant hcq => ⟨fun hkey => ?_, fun j hkey hen hj => ?_⟩⟩
    · exact runCommand_ends hready (blazePublishBody_otherClass hrole hx ho hd hf _ hother)
    · exact runCommand_ends hready (blazePublishBody_noKey hrole hx ho hd hf _ hfn htenant hcq hkey)
    · exact runCommand_goesOn hready (blazePublishBody_begins hrole hx ho hd hf _ hfn htenant hcq (Option.isSome_iff_ne_none.mp hkey) hen hj)
  case insert =>
    intro hready hrole hx
    refine ⟨fun hkey => ?_, fun j hkey hen hfree hread hroot hj => ?_⟩
    · exact runCommand_ends hready (trailInsertBody_noKey hrole hx ho hd hf _ hkey)
    · refine runCommand_goesOn hready ?_
      rw [trailInsertBody_starts hrole hx ho hd hf _ (Option.isSome_iff_ne_none.mp hkey) hen hfree, startInsert_rooted hread hroot hj]
  case unknown =>
    intro hnone
    rw [lookupRelease_absent late hnone]
  case release =>
    intro l hl
    refine ⟨fun heq hpad => ?_, fun heq => ⟨fun c hfor => ?_, fun h x hfor hx hcuts => ?_⟩⟩
    · rw [lookupRelease_early late hl heq (by rw [eqPadding]; omega)]
    · rw [lookupRelease_probe late hl heq hfor]
      rfl
    · rw [lookupRelease_noMatch late hl heq hfor hx hcuts]
      rfl
  case answer =>
    intro st dt
    refine ⟨fun hnone => ?_, fun j o c hj huse hcmd hst => ?_, fun j hj huse hout => ?_⟩
    · rw [holdAnswer_absent st dt hnone]
    · rcases huse with huse | huse
      · simp only [holdAnswer_publishRefused st dt hj huse hst, jobEnd_command hcmd, huse, reduceCtorEq, if_true, if_false]
        rfl
      · simp only [holdAnswer_insertRefused st dt hj huse hst, jobEnd_command hcmd, huse, reduceCtorEq, if_true, if_false]
        rfl
    · rw [holdAnswer_attachNoted st dt hj huse hout]
      rfl

end Sys2Proof.Machine
end

section
/-! PROOFS. Models, admission, the risk evaluation, the filling of the context cache and the end of fallow (R30, R33, R34, R41, R169 to R174, R187, R188, R510): what each command's block and each event answers in each of its cases. -/

namespace Sys2Proof.Machine

/-! ### The block that performs each command and event -/

theorem exec_modelReg (c : Cmd) (s : State) : exec (.modelReg c) s = runPlain s Op.MODEL_REG c modelRegBody := rfl
theorem exec_modelDereg (c : Cmd) (s : State) : exec (.modelDereg c) s = runPlain s Op.MODEL_DEREG c (modelDeregBody c) := rfl
theorem exec_admitCmd (c : Cmd) (s : State) : exec (.admitCmd c) s = runPlain s Op.ADMIT c (admitBody c) := rfl
theorem exec_admissionScan (s : State) : exec .admissionScan s = goesOn s (admissionScan s) := rfl
theorem exec_riskEvaluation (s : State) : exec .riskEvaluation s = goesOn s (riskEvaluation s) := rfl
theorem exec_ctxFillDone (i : Nat) (crcOk retryOk : Bool) (s : State) : exec (.ctxFillDone i crcOk retryOk) s = goesOn s (ctxFillDone s i crcOk retryOk) := rfl
theorem exec_fallowExpiry (i : Nat) (s : State) : exec (.fallowExpiry i) s = goesOn s (fallowExpiry s i) := rfl

/-! ### MODEL_REG (R169, R170) -/

/-- Whether a declared pool of model `id` has a storage format, head dimension, layer count or KV-head count other than `m`'s (R170). -/
def poolClash (s : State) (id : Nat) (m : Model) : Bool :=
  s.tir.pools.any fun e => e.2.model == id && !(e.2.format == m.format && e.2.hdim == m.hdim && e.2.layers == m.layers && e.2.kvHeads == m.kvHeads)

theorem poolClash_iff {s : State} {id : Nat} {m : Model} :
    poolClash s id m = true ↔
      ∃ e ∈ s.tir.pools, e.2.model = id ∧ ¬ (e.2.format = m.format ∧ e.2.hdim = m.hdim ∧ e.2.layers = m.layers ∧ e.2.kvHeads = m.kvHeads) := by
  simp only [poolClash, List.any_eq_true, Bool.and_eq_true, Bool.not_eq_true', beq_iff_eq, ← Bool.not_eq_true, and_assoc]

theorem poolClash_eq_false {s : State} {id : Nat} (h : ∀ e ∈ s.tir.pools, e.2.model ≠ id) (m : Model) : poolClash s id m = false :=
  Bool.eq_false_iff.mpr fun hclash =>
    have ⟨e, hmem, hid, _⟩ := poolClash_iff.mp hclash
    h e hmem hid

section
variable {T : State} {d : List Byte} (hok : modelOk (leField d 0 2) (modelOfDesc d) d = true)
include hok

theorem modelRegBody_same {old : Model} (hold : amGet (leField d 0 2) T.sch.models = some old) (h : old = modelOfDesc d) :
    modelRegBody T d = (T, some Done.ok) := by
  simp only [modelRegBody, hok, hold, h, Bool.not_true, Bool.false_eq_true, if_false, if_true, answer]

theorem modelRegBody_differs {old : Model} (hold : amGet (leField d 0 2) T.sch.models = some old) (h : old ≠ modelOfDesc d) :
    modelRegBody T d = (T, some (Done.of .conflict (if poolClash T (leField d 0 2) (modelOfDesc d) then Detail.SCH_MODEL else 0))) := by
  simp only [modelRegBody, hok, hold, h, Bool.not_true, Bool.false_eq_true, if_false, fail]
  rfl

theorem modelRegBody_free (hfree : amGet (leField d 0 2) T.sch.models = none) (hroom : T.sch.models.length < 1024) :
    modelRegBody T d = if poolClash T (leField d 0 2) (modelOfDesc d) then (T, some (Done.of .conflict Detail.SCH_MODEL))
      else ({ T with sch := { T.sch with models := amSet (leField d 0 2) (modelOfDesc d) T.sch.models } }, some Done.ok) := by
  simp only [modelRegBody, hok, hfree, Nat.not_le.mpr hroom, Bool.not_true, Bool.false_eq_true, if_false, fail]
  rfl

end

/-! ### MODEL_DEREG (R170) -/

section
variable {T : State} {c : Cmd} (d : List Byte)

theorem modelDeregBody_named (h : ∃ e ∈ T.sch.ctxs, e.2.model = c.arg0) : modelDeregBody c T d = (T, some (Done.of .conflict 0)) := by
  simp only [modelDeregBody, List.any_eq_true, beq_iff_eq, h, if_true, fail]

theorem modelDeregBody_removes (hctx : ∀ e ∈ T.sch.ctxs, e.2.model ≠ c.arg0)
    (hwin : ∀ w, w < 64 → winOn T w = false ∨ T.r (Reg.HIF_XW_CFG_MODEL.at 0x40 w) ≠ c.arg0) :
    modelDeregBody c T d = ({ T with sch := { T.sch with models := amErase c.arg0 T.sch.models } }, some Done.ok) := by
  have hnamed : ¬ ∃ e ∈ T.sch.ctxs, e.2.model = c.arg0 := fun ⟨e, hmem, hid⟩ => hctx e hmem hid
  have hbound : ¬ ∃ w < 64, winOn T w = true ∧ T.r (Reg.HIF_XW_CFG_MODEL.at 0x40 w) = c.arg0 := by
    rintro ⟨w, hw, hon, hid⟩
    rcases hwin w hw with hoff | hother
    · exact Bool.false_ne_true (hoff.symm.trans hon)
    · exact hother hid
  simp only [modelDeregBody, List.any_eq_true, List.mem_range, Bool.and_eq_true, beq_iff_eq, hnamed, hbound, if_false]

end

/-! ### ADMIT (R173, R234, R237, R510) -/

/-- The state with the queue of class `k` replaced. -/
def State.setQueue (s : State) (k : Nat) (q : List Admission) : State := { s with sch := { s.sch with queues := amSet k q s.sch.queues } }

section
variable {T : State} (c : Cmd) (d : List Byte) (hrole : roleEnables T [1, 2, 4] = true) (hchg : T.changing = false)
include hrole hchg

theorem admitBody_full (hfull : admitMax T ≤ admitQueued T) : admitBody c T d = (T, some (Done.of .noCredit Detail.SCH_ADMIT_FULL)) := by
  simp only [admitBody, rolePrompt, roleGeneration, roleMixed, hrole, hchg, hfull, Bool.not_true, Bool.or_self, Bool.false_eq_true, if_false, if_true, fail]

theorem admitBody_queues {m : Model} {ad : Nat} (hroom : admitQueued T < admitMax T) (hmodel : amGet (leField d 8 2) T.sch.models = some m)
    (hprof : profileMissing T m (leField d 8 2) = false) (hadp : admitAdapter T (leField d 0x10 4) = .ok ad) :
    admitBody c T d = (T.setQueue (descClass d) (admitQueue T (descClass d) ++ [⟨c, d, T.now, false⟩]), none) := by
  simp only [admitBody, rolePrompt, roleGeneration, roleMixed, hrole, hchg, Nat.not_le.mpr hroom, hmodel, hprof, hadp, Bool.not_true, Bool.or_self, Bool.false_eq_true,
    if_false, State.setQueue]

end

/-! ### The admission scan (R31, R41, R174) -/

/-- The state with HELD showing the classes whose head the third gate holds (R174). -/
def markHeld (s : State) : State :=
  s.setR Reg.SCH_RISK_STATUS_HELD (bitSet ((List.range 8).filter fun c => !(admitQueue s c).isEmpty && !riskGate s c))

/-- The first class whose head passes every gate (R174). -/
def scanHead (s : State) : Option Nat := (List.range 8).find? fun c => !(admitQueue s c).isEmpty && gates s c

theorem admissionScan_blocked {s : State} (h : scanHead (markHeld s) = none) : admissionScan s = markHeld s := by
  rw [scanHead, markHeld] at h
  simp only [admissionScan, h, markHeld]

section
variable {s : State} {k : Nat} {a : Admission} {rest : List Admission}
  (hhead : scanHead (markHeld s) = some k) (hq : admitQueue (markHeld s) k = a :: rest)
include hhead hq

/-- A head that passes its gates and finds no index out of fallow waits, and is counted the first time (R31). -/
theorem admissionScan_noIndex (hidx : allocCtx (markHeld s) = none) :
    admissionScan s = if a.counted then markHeld s
      else ((markHeld s).cnt Reg.SCH_CTX_STALL_NO_INDEX 1).setQueue k ({ a with counted := true } :: rest) := by
  rw [markHeld] at hq hidx
  rw [scanHead, markHeld] at hhead
  simp only [admissionScan, hhead, hq, hidx, markHeld, State.setQueue]
  rfl

theorem admissionScan_index {U : State} {h : Nat} (hidx : allocCtx (markHeld s) = some (U, h)) :
    admissionScan s = admitOne ((markHeld s).setQueue k rest) (U.setQueue k rest) h a := by
  rw [markHeld] at hq hidx
  rw [scanHead, markHeld] at hhead
  simp only [admissionScan, hhead, hq, hidx, markHeld, State.setQueue]

end

/-- The commit word of a new record: claim generation 1, ADMITTED, length 0 (R41, R43). -/
theorem commitWord_admitted (node : Nat) : commitWord node 1 .admitted 0 = node * 2 ^ 48 + 2 ^ 32 := by
  simp only [commitWord, Phase.code, one_mul, zero_mul, add_zero]

/-- An admission whose adapter may be used and whose prompt is in range and can be read gets its context, its pin and the commit of its record head (R41, R237). -/
theorem admitOne_admits {D V : State} {h ad : Nat} {a : Admission} (hadp : admitAdapter D (leField a.desc 0x10 4) = .ok ad)
    (hmin : 1 ≤ leField a.desc 0 4) (hmax : leField a.desc 0 4 < 4194304)
    (hdma : D.dmaOk a.cmd.fn (leField a.desc 0x28 8) (4 * leField a.desc 0 4) = true) :
    admitOne D V h a =
      (let x := admitCtx V h a ad
       let W := pinAdp (V.setCtx x) ad
       sendCommit W { commitOf x .recordHead 0 (W.nodeId * 2 ^ 48 + 2 ^ 32) (some (Op.ADMIT, a.cmd)) with
         tokens := promptTokens W (leField a.desc 0x28 8) (leField a.desc 0 4) }) := by
  have hlen : ¬ (leField a.desc 0 4 = 0 ∨ 4194304 ≤ leField a.desc 0 4) := by omega
  simp only [admitOne, hadp, if_neg hlen, hdma, Bool.not_true, Bool.false_eq_true, if_false, commitWord_admitted]

/-! ### The risk evaluation (R171, R187, R188) -/

/-- With automatic pausing and resuming off, an evaluation leaves the classes at risk in AT_RISK and counts the runs of clear evaluations. -/
theorem riskEvaluation_manual {s : State} (hpause : s.r Reg.SCH_PAUSE_CTL_AUTO = 0) (hresume : s.r Reg.SCH_PAUSE_CTL_AUTO_RESUME = 0) :
    riskEvaluation s =
      { s.setR Reg.SCH_RISK_STATUS_AT_RISK (bitSet ((List.range 8).filter (classAtRisk s))) with
        sch := { s.sch with clearRuns := if (List.range 8).filter (classAtRisk s) = [] then s.sch.clearRuns + 1 else 0 } } := by
  have hkept {f : Fld} (hf : f.key ≠ Reg.SCH_RISK_STATUS_AT_RISK.key) (v n : Nat) :
      ({ s.setR Reg.SCH_RISK_STATUS_AT_RISK v with sch := { s.sch with clearRuns := n } } : State).r f = s.r f := State.setR_r_other hf s v
  unfold riskEvaluation
  cases (List.range 8).filter (classAtRisk s) with
  | nil => simp only [State.setR_sch, hkept (f := Reg.SCH_PAUSE_CTL_AUTO_RESUME) (by decide), hresume, Nat.zero_ne_one, false_and, if_false, if_true]
  | cons c cs => simp only [State.setR_sch, hkept (f := Reg.SCH_PAUSE_CTL_AUTO) (by decide), hpause, Nat.zero_ne_one, if_false, reduceCtorEq]

/-! ### The context cache (R33, R34, R39) -/

/-- Placing an index in the cache leaves the contexts themselves. -/
theorem cacheInsert_ctxs {s U : State} {i : Nat} (h : cacheInsert s i = some U) : U.sch.ctxs = s.sch.ctxs := by
  unfold cacheInsert at h
  split at h
  case isTrue =>
    cases h
    unfold cacheTouch
    split <;> rfl
  case isFalse =>
    dsimp only at h
    split at h
    case isTrue => cases h; rfl
    case isFalse =>
      split at h
      · cases h
      · cases h; rfl

/-- The state once the fill of index `i` has ended and no context set waits for it. -/
def fillEnded (s : State) (i : Nat) : State :=
  { s with sch := { s.sch with filling := s.sch.filling.filter (· ≠ i), setWait := s.sch.setWait.filter (· ≠ i) } }

section
variable {s U : State} {i : Nat} (retryOk : Bool) (hfill : s.sch.filling.contains i = true) (hins : cacheInsert s i = some U)
include hfill hins

theorem ctxFillDone_absent (hx : amGet i s.sch.ctxs = none) : ctxFillDone s i true retryOk = fillEnded U i := by
  simp only [ctxFillDone, hfill, hins, cacheInsert_ctxs hins, hx, Bool.not_true, Bool.false_eq_true, if_false, fillEnded]

/-- A good fill of a live context goes on where the handle is of the index, and else ends the request (log 126). -/
theorem ctxFillDone_live {x : Ctx} (hx : amGet i s.sch.ctxs = some x) (hd : x.phase ≠ .done) (hf : x.phase ≠ .failed) :
    ctxFillDone s i true retryOk = if bits x.handle 0 21 = i then fillGo (fillEnded U i) x else endCtx (fillEnded U i) x .failed endFaultContext := by
  simp only [ctxFillDone, hfill, hins, cacheInsert_ctxs hins, hx, hd, hf, decide_false, Bool.or_self, Bool.not_true, Bool.false_eq_true, if_false, if_true, Bool.true_or, Bool.true_and,
    beq_iff_eq, fillEnded]

end

/-- Settles O36: each command's block, and each event, answers as the lemma of its case says. -/
theorem modelsAndAdmissionsAreTaken : Obligations.ModelsAndAdmissionsAreTaken := by
  intro s
  simp only [exec_modelReg, exec_modelDereg, exec_admitCmd, exec_admissionScan, exec_riskEvaluation, exec_ctxFillDone, exec_fallowExpiry]
  refine ⟨fun c => ⟨?register, ?deregister, ?enqueue⟩, ⟨?blocked, ?scan⟩, ?risk, fun i ok2 => ⟨?fill, rfl⟩⟩
  case register =>
    intro hready hok
    refine ⟨⟨fun old hold => ⟨fun hsame => ?_, fun hne hclash => ?_, fun hne hclash => ?_⟩, fun hfree hroom hclash => ?_⟩, fun hfree hroom hpools => ?_⟩
    · exact runCommand_ends hready (modelRegBody_same hok hold hsame)
    · exact runCommand_ends hready (by rw [modelRegBody_differs hok hold hne, if_pos (poolClash_iff.mpr hclash)])
    · exact runCommand_ends hready (by rw [modelRegBody_differs hok hold hne, if_neg (mt poolClash_iff.mp hclash)])
    · exact runCommand_ends hready (by rw [modelRegBody_free hok hfree hroom, if_pos (poolClash_iff.mpr hclash)])
    · exact runCommand_ends hready (by rw [modelRegBody_free hok hfree hroom, if_neg (Bool.eq_false_iff.mp (poolClash_eq_false hpools _))])
  case deregister =>
    intro hready
    refine ⟨fun hnamed => ?_, fun hctx hwin => ?_⟩
    · exact runCommand_ends hready (modelDeregBody_named _ hnamed)
    · exact runCommand_ends hready (modelDeregBody_removes _ hctx hwin)
  case enqueue =>
    intro hready hrole hchg
    refine ⟨fun hfull => ?_, fun m ad hroom hmodel hprof hadp => ?_⟩
    · exact runCommand_ends hready (admitBody_full c _ hrole hchg hfull)
    · exact runCommand_goesOn hready (admitBody_queues c _ hrole hchg hroom hmodel hprof hadp)
  case blocked =>
    intro hnone
    rw [admissionScan_blocked hnone]
    rfl
  case scan =>
    intro k a rest hhead hq
    refine ⟨fun hidx hcounted => ?_, fun hidx hcounted => ?_, fun U h ad hidx hadp hmin hmax hdma => ?_⟩
    · rw [admissionScan_noIndex hhead hq hidx, if_pos hcounted]
      rfl
    · rw [admissionScan_noIndex hhead hq hidx, if_neg (Bool.eq_false_iff.mp hcounted)]
      rfl
    · exact congrArg (goesOn s) ((admissionScan_index hhead hq hidx).trans (admitOne_admits hadp hmin hmax hdma))
  case risk =>
    intro hpause hresume
    rw [riskEvaluation_manual hpause hresume]
  case fill =>
    intro U hfill hins
    refine ⟨fun hnone => ?_, fun x hx hown hd hf => ?_, fun x hx hother hd hf => ?_⟩
    · rw [ctxFillDone_absent ok2 hfill hins hnone]
      rfl
    · rw [ctxFillDone_live ok2 hfill hins hx hd hf, if_pos hown]
      rfl
    · rw [ctxFillDone_live ok2 hfill hins hx hd hf, if_neg hother]
      rfl

end Sys2Proof.Machine
end

section
/-! PROOFS. The CRC-32C (R221) bit by bit, and its little-endian place at the end of a packet (R295). -/

namespace Sys2Proof.Machine

theorem crcByte_eq_foldl {w : Nat} (poly c : BitVec w) (b : Byte) :
    crcByte poly c b = (List.range 8).foldl (fun x _ => crcBit poly x) (c ^^^ b.setWidth w) := rfl

theorem leBytes_getD {n i : Nat} (hi : i < n) (x : Nat) : ((leBytes n x).getD i 0).toNat = x / 256 ^ i % 256 := by
  induction n generalizing i x with
  | zero => exact absurd hi (Nat.not_lt_zero i)
  | succ n ih =>
    cases i with
    | zero => simp [leBytes]
    | succ i => rw [leBytes, List.getD_cons_succ, ih (Nat.lt_of_succ_lt_succ hi), Nat.div_div_eq_div_mul, ← Nat.pow_succ']

/-- The check value that R221 gives for the ASCII bytes "123456789". -/
theorem crc32c_check : crc32c [0x31, 0x32, 0x33, 0x34, 0x35, 0x36, 0x37, 0x38, 0x39] = 0xE3069283 := by
  simp [crc32c, crcByte, crcBit]

/-- Settles O19: a byte is taken as eight steps of one bit each, and the trailer of a packet holds the bytes of the CRC in rising order. -/
theorem castagnoliCrc : Obligations.CastagnoliCrc := by
  refine ⟨fun l => ?bits, crc32c_check, fun p op i hi => ⟨rfl, leBytes_getD hi _⟩⟩
  case bits =>
    rw [crc32c, funext₂ (crcByte_eq_foldl (0x82F63B78#32))]
    rfl

end Sys2Proof.Machine
end

section
/-! PROOFS. The commands on stored streams, codec tables and adapters (R223, R228 to R232, R234 to R238): what each command's block answers, and how the read of a stream at another node begins. -/

namespace Sys2Proof.Machine

/-! ### The block that performs each command -/

theorem exec_expand (c : Cmd) (s : State) : exec (.expand c) s = runPlain s Op.EXPAND c (expandBody c) := rfl
theorem exec_tableLoad (c : Cmd) (s : State) : exec (.tableLoad c) s = runPlain s Op.TABLE_LOAD c (tableLoadBody c) := rfl
theorem exec_tableFree (c : Cmd) (s : State) : exec (.tableFree c) s = runPlain s Op.TABLE_FREE c (tableFreeBody c) := rfl
theorem exec_adapterLoad (c : Cmd) (s : State) : exec (.adapterLoad c) s = runPlain s Op.ADAPTER_LOAD c (adapterLoadBody c) := rfl
theorem exec_adapterRetire (c : Cmd) (s : State) : exec (.adapterRetire c) s = runPlain s Op.ADAPTER_RETIRE c (adapterRetireBody c) := rfl

/-! ### A job begins to read its stream (R223) -/

/-- The state once a job stands under the next number. -/
def withJob (T : State) (j : StreamJob) : State := { T with cdc := { T.cdc with jobs := amSet T.cdc.nextJob j T.cdc.jobs, nextJob := T.cdc.nextJob + 1 } }

/-- The state once a new job has read as far as pieces come at once. -/
def jobReads (T : State) (j : StreamJob) : State := streamRun streamFuel (withJob T j) T.cdc.nextJob

theorem newStream_eq (T : State) (o : Nat) (c : Cmd) (use : StreamUse) (desc : List Byte) (adp : Option Nat) (slot : Nat) :
    newStream T o c use desc adp slot = (withJob T (streamJob o c use desc adp slot), T.cdc.nextJob) := rfl

theorem withJob_job (T : State) (j : StreamJob) : amGet T.cdc.nextJob (withJob T j).cdc.jobs = some j := amGet_set_same ..

/-- Whatever its command, a new job first reads a header (R219). -/
theorem nextPiece_streamJob (o : Nat) (c : Cmd) (use : StreamUse) (desc : List Byte) (adp : Option Nat) (slot : Nat) :
    nextPiece (streamJob o c use desc adp slot) = some (0, 256) := by
  simp only [nextPiece, streamJob, List.isEmpty_nil, if_true, ite_self]

/-- The state once a piece has been asked of the node that holds the stream. -/
def pieceAsked (s : State) (n node key off len : Nat) : State :=
  { s with xch := { s.xch with reads := amSet s.xch.nextRead ⟨.stream n, 0, len⟩ s.xch.reads, nextRead := s.xch.nextRead + 1 } }.emit
    (.msg node (.readRegion s.xch.nextRead key off len))

theorem readPiece_away {s : State} {j : StreamJob} {node key base : Nat} (hat : streamAt s j = .region node key base) (haway : node ≠ s.nodeId) (n off len : Nat) :
    readPiece s n j off len = (pieceAsked s n node key (base + off) len, .later) := by
  simp only [readPiece, hat, haway, if_false]
  rfl

theorem streamRun_away {s : State} {n fuel off len node key base : Nat} {j : StreamJob} (hj : amGet n s.cdc.jobs = some j) (hheld : j.held = none)
    (hnext : nextPiece j = some (off, len)) (hat : streamAt s j = .region node key base) (haway : node ≠ s.nodeId) :
    streamRun (fuel + 1) s n = pieceAsked s n node key (base + off) len := by
  simp only [streamRun, hj, hheld, hnext, readPiece_away hat haway, Option.isSome_none, Bool.false_eq_true, if_false]

theorem jobReads_away {T : State} {o slot node key off : Nat} {c : Cmd} {use : StreamUse} {desc : List Byte} {adp : Option Nat}
    (hat : streamAt (withJob T (streamJob o c use desc adp slot)) (streamJob o c use desc adp slot) = .region node key off) (haway : node ≠ T.nodeId) :
    jobReads T (streamJob o c use desc adp slot) = streamBegun T (streamJob o c use desc adp slot) node key off :=
  show streamRun (2 ^ 30 - 1 + 1) _ _ = _ from streamRun_away (withJob_job ..) rfl (nextPiece_streamJob ..) hat haway

/-! ### Where the stream of each command lies (R228, R232, R236) -/

theorem streamAt_expand {d : List Byte} (hadp : leField d 0x34 4 = 0) (T : State) (c : Cmd) :
    streamAt T (streamJob Op.EXPAND c .expand d none 0) = .region (leField d 6 2) (leField d 8 4) (leField d 0 6) := by
  simp only [streamAt, streamJob, hadp, if_true]

theorem streamAt_table (T : State) (c : Cmd) :
    streamAt T (streamJob Op.TABLE_LOAD c .table [] none c.arg0) = .region (bits c.arg2 48 16) c.arg3 (bits c.arg2 0 48) := rfl

/-- An ADAPTER_LOAD begins at its first locator. -/
theorem streamAt_adapter (T : State) (c : Cmd) (d : List Byte) :
    streamAt T (streamJob Op.ADAPTER_LOAD c .adapter d none 0) = .region (leField d 6 2) (leField d 8 4) (leField d 0 6) :=
  congrArg (locator d) (ite_self 0)

/-! ### EXPAND (R228 to R230, R238, R546) -/

section
variable {T : State} {c : Cmd} {d : List Byte}

theorem expandBody_noCodec (hrole : expandRole T = false) : expandBody c T d = (T, some (Done.of .fenced 0)) := by
  simp only [expandBody, hrole, Bool.not_false, if_true, fail]

section
variable (hrole : expandRole T = true) (hdesc : expandDescOk d = true)
  (hmode : T.r (Reg.HIF_FLEX_CFG_MODE.at 0x20 (leField d 0x1D 1)) = 1 ∨ T.r (Reg.HIF_FLEX_CFG_MODE.at 0x20 (leField d 0x1D 1)) = 3)
  (htenant : leField d 0x30 4 = 0 ∨ tenantInRange T c.fn (leField d 0x30 4) = true)
include hrole hdesc hmode htenant

/-- An EXPAND whose role, descriptor, port mode and tenant are in order is left with its port and its adapter to pass. -/
theorem expandBody_inOrder :
    expandBody c T d =
      if portLive T (leField d 0x1D 1) = false then fail T .fenced Detail.FLT_LINK
      else if leField d 0x34 4 = 0 then (jobReads T (streamJob Op.EXPAND c .expand d none 0), none)
      else
        match adpResident T (leField d 0x34 4) with
        | none => fail T .fenced Detail.CDC_ADP_ABSENT
        | some (k, a) =>
          if a.layers.length ≤ leField d 0x38 2 then fail T .fenced Detail.CDC_FORMAT
          else (jobReads { T with cdc := { T.cdc with adps := amSet k { a with pins := a.pins + 1 } T.cdc.adps } } (streamJob Op.EXPAND c .expand d (some k) 0), none) := by
  have hexchange : [0, 2].contains (T.r (Reg.HIF_FLEX_CFG_MODE.at 0x20 (leField d 0x1D 1))) = false := by
    rcases hmode with h | h <;> rw [h] <;> rfl
  have hown : ¬ (leField d 0x30 4 ≠ 0 ∧ tenantInRange T c.fn (leField d 0x30 4) = false) :=
    fun ⟨hne, hout⟩ => Bool.false_ne_true (hout.symm.trans (htenant.resolve_left hne))
  simp only [expandBody, hrole, hdesc, hexchange, newStream_eq, Bool.not_true, Bool.false_eq_true, if_false, Bool.not_eq_true', if_neg hown]
  rfl

theorem expandBody_linkDown (hport : portLive T (leField d 0x1D 1) = false) : expandBody c T d = (T, some (Done.of .fenced Detail.FLT_LINK)) := by
  rw [expandBody_inOrder hrole hdesc hmode htenant, if_pos hport, fail]

section
variable (hport : portLive T (leField d 0x1D 1) = true)
include hport

theorem expandBody_stored (hadp : leField d 0x34 4 = 0) : expandBody c T d = (jobReads T (streamJob Op.EXPAND c .expand d none 0), none) := by
  rw [expandBody_inOrder hrole hdesc hmode htenant, if_neg (Bool.not_eq_false _ ▸ hport), if_pos hadp]

theorem expandBody_adapter {k : Nat} {a : AdpSlot} (hadp : leField d 0x34 4 ≠ 0) (hres : adpResident T (leField d 0x34 4) = some (k, a))
    (hlayer : leField d 0x38 2 < a.layers.length) :
    expandBody c T d =
      (jobReads { T with cdc := { T.cdc with adps := amSet k { a with pins := a.pins + 1 } T.cdc.adps } } (streamJob Op.EXPAND c .expand d (some k) 0), none) := by
  simp only [expandBody_inOrder hrole hdesc hmode htenant, hport, hadp, hres, Nat.not_le.mpr hlayer, Bool.true_eq_false, if_false]

theorem expandBody_absent (hadp : leField d 0x34 4 ≠ 0) (hres : adpResident T (leField d 0x34 4) = none) :
    expandBody c T d = (T, some (Done.of .fenced Detail.CDC_ADP_ABSENT)) := by
  simp only [expandBody_inOrder hrole hdesc hmode htenant, hport, hadp, hres, Bool.true_eq_false, if_false, fail]

end

end

end

/-! ### TABLE_LOAD and TABLE_FREE (R232, R234) -/

section
variable {T : State} {c : Cmd} (d : List Byte)

theorem tableLoadBody_changing (hchg : T.changing = true) : tableLoadBody c T d = (T, some (Done.of .conflict Detail.ROLE_BUSY)) := by
  simp only [tableLoadBody, hchg, if_true, fail]

theorem tableLoadBody_reads (hchg : T.changing = false) : tableLoadBody c T d = (jobReads T (streamJob Op.TABLE_LOAD c .table [] none c.arg0), none) := by
  simp only [tableLoadBody, hchg, newStream_eq, Bool.false_eq_true, if_false]
  rfl

theorem tableFreeBody_empty (hslot : amGet c.arg0 T.cdc.tables = none) : tableFreeBody c T d = (T, some Done.ok) := by
  simp only [tableFreeBody, hslot, answer]

/-- What keeps a table in its slot: users of either buffer, a load under way, or a live request of the model whose profile it is (R234). -/
def TblSlot.Kept (T : State) (t : TblSlot) : Prop := t.curUsers ≠ 0 ∨ t.otherUsers ≠ 0 ∨ t.loading = true ∨ (t.kind = 1 ∧ ∃ e ∈ T.sch.ctxs, e.2.model = t.model)

theorem TblSlot.not_kept_iff {T : State} {t : TblSlot} :
    ¬ t.Kept T ↔ t.curUsers = 0 ∧ t.otherUsers = 0 ∧ t.loading = false ∧ (t.kind ≠ 1 ∨ ∀ e ∈ T.sch.ctxs, e.2.model ≠ t.model) := by
  simp only [TblSlot.Kept, not_or, not_not, Bool.not_eq_true, not_exists, not_and, imp_iff_not_or (a := t.kind = 1), ne_eq]

section
variable {t : TblSlot} (hslot : amGet c.arg0 T.cdc.tables = some t)
include hslot

theorem tableFreeBody_kept (h : t.Kept T) : tableFreeBody c T d = (T, some (Done.of .conflict 0)) := by
  simp only [TblSlot.Kept] at h
  simp only [tableFreeBody, hslot, Bool.and_eq_true, List.any_eq_true, beq_iff_eq, h, if_true, fail]

theorem tableFreeBody_frees (h : ¬ t.Kept T) :
    tableFreeBody c T d = (tblRegs { T with cdc := { T.cdc with tables := amErase c.arg0 T.cdc.tables } } c.arg0, some Done.ok) := by
  simp only [TblSlot.Kept] at h
  simp only [tableFreeBody, hslot, Bool.and_eq_true, List.any_eq_true, beq_iff_eq, h, if_false, answer]

end

end

/-! ### ADAPTER_LOAD (R235, R236) -/

theorem adpOlder_iff {v w : Nat} : adpOlder v w = true ↔ 1 ≤ (w + 4096 - v) % 4096 ∧ (w + 4096 - v) % 4096 < 2048 := by
  simp only [adpOlder, Bool.and_eq_true, decide_eq_true_eq]

section
variable {T : State} {c : Cmd} (d : List Byte) (hchg : T.changing = false)
include hchg

theorem adapterLoadBody_badWord (h : c.arg0 / 2 ^ 20 = 0 ∨ c.arg0 % 2 ^ 20 = 0) : adapterLoadBody c T d = (T, some (Done.of .fenced Detail.CDC_FORMAT)) := by
  simp only [adapterLoadBody, hchg, if_pos h, Bool.false_eq_true, if_false, fail]

section
variable (hver : c.arg0 / 2 ^ 20 ≠ 0) (hid : c.arg0 % 2 ^ 20 ≠ 0)
include hver hid

theorem adapterLoadBody_resident {e : Nat × AdpSlot} (hres : adpResident T c.arg0 = some e) : adapterLoadBody c T d = (T, some Done.ok) := by
  simp only [adapterLoadBody, hchg, hver, hid, hres, or_self, Option.isSome_some, Bool.false_eq_true, if_false, if_true, answer]

section
variable (hres : adpResident T c.arg0 = none)
include hres

theorem adapterLoadBody_older {k : Nat} {a : AdpSlot} (hpin : bit c.arg1 0 = false) (hcur : adpCurrent T (c.arg0 % 2 ^ 20) = some (k, a))
    (hold : adpOlder (c.arg0 / 2 ^ 20) (a.word / 2 ^ 20) = true) : adapterLoadBody c T d = (T, some (Done.of .stale 0)) := by
  simp only [adapterLoadBody, hchg, hver, hid, hres, hpin, hcur, hold, or_self, Option.isSome_none, Bool.not_false, Bool.and_self, Bool.false_eq_true, if_false, if_true, fail]

/-- A word that is pinned, or no older than the version that is current, is loaded where a slot is free. -/
theorem adapterLoadBody_wanted
    (hnew : bit c.arg1 0 = true ∨ ∀ k a, adpCurrent T (c.arg0 % 2 ^ 20) = some (k, a) → adpOlder (c.arg0 / 2 ^ 20) (a.word / 2 ^ 20) = false) :
    adapterLoadBody c T d =
      if amFree T.cdc.adps 0 4096 = none then (T, some (Done.of .noCredit Detail.CDC_ADP_SLOTS))
      else (jobReads T (streamJob Op.ADAPTER_LOAD c .adapter d none 0), none) := by
  simp only [adapterLoadBody, hchg, hver, hid, hres, or_self, Option.isSome_none, Option.isNone_iff_eq_none, newStream_eq, Bool.false_eq_true, if_false]
  rcases hnew with hpin | hnewer
  · simp only [hpin, Bool.not_true, Bool.false_and, Bool.false_eq_true, if_false]
    rfl
  · cases hcur : adpCurrent T (c.arg0 % 2 ^ 20) with
    | none =>
      simp only [Bool.and_false, Bool.false_eq_true, if_false]
      rfl
    | some e =>
      simp only [hnewer e.1 e.2 hcur, Bool.and_false, Bool.false_eq_true, if_false]
      rfl

end

end

end

/-! ### ADAPTER_RETIRE (R238) -/

section
variable {s : State} {k : Nat} {a : AdpSlot} (hslot : amGet k s.cdc.adps = some a)
include hslot

theorem adpSettle_pinned (hpins : a.pins ≠ 0) : adpSettle s k = s := by
  simp only [adpSettle, hslot, hpins, false_and, if_false]

theorem adpSettle_idle (hpins : a.pins = 0) (hstate : a.state = .held ∨ a.state = .draining) :
    adpSettle s k = adpRegs { s with cdc := { s.cdc with adps := amErase k s.cdc.adps } } := by
  simp only [adpSettle, hslot, hpins, hstate, and_self, if_true]

end

section
variable {T : State} {c : Cmd} (d : List Byte)

theorem adapterRetireBody_absent (hcur : adpCurrent T c.arg0 = none) : adapterRetireBody c T d = (T, some (Done.of .fenced Detail.CDC_ADP_ABSENT)) := by
  simp only [adapterRetireBody, hcur, fail]

section
variable {k : Nat} {a : AdpSlot} (hcur : adpCurrent T c.arg0 = some (k, a))
include hcur

theorem adapterRetireBody_drains (hpins : a.pins ≠ 0) :
    adapterRetireBody c T d = ({ T with cdc := { T.cdc with adps := amSet k { a with state := .draining } T.cdc.adps } }, some Done.ok) := by
  simp only [adapterRetireBody, hcur, answer]
  rw [adpSettle_pinned (a := { a with state := .draining }) (amGet_set_same ..) hpins]

theorem adapterRetireBody_frees (hpins : a.pins = 0) :
    adapterRetireBody c T d =
      (adpRegs { T with cdc := { T.cdc with adps := amErase k (amSet k { a with state := .draining } T.cdc.adps) } }, some Done.ok) := by
  simp only [adapterRetireBody, hcur, answer]
  rw [adpSettle_idle (a := { a with state := .draining }) (amGet_set_same ..) hpins (.inr rfl)]

end

end

/-- Settles O46: each command's block answers as the lemma of its case says, and a job whose stream lies at another node asks that node for the header. -/
theorem streamCommandsBegin : Obligations.StreamCommandsBegin := by
  intro s c
  simp only [exec_expand, exec_tableLoad, exec_tableFree, exec_adapterLoad, exec_adapterRetire]
  refine ⟨?expand, ?tableLoad, ?tableFree, ?adapterLoad, ?adapterRetire⟩
  case expand =>
    intro hready
    refine ⟨fun hnone => ?_, fun hrole ⟨hdesc, hmode, htenant⟩ =>
      ⟨fun hdown => ?_, fun hport hadp haway => ?_, fun hport hadp => ?_, fun k a hport hadp hres hlayer => ?_, fun hport hadp hres => ?_⟩⟩
    · exact runCommand_ends hready (expandBody_noCodec hnone)
    · exact runCommand_ends hready (expandBody_linkDown hrole hdesc hmode htenant hdown)
    · rw [← jobReads_away (streamAt_expand hadp _ c) haway]
      exact runCommand_goesOn hready (expandBody_stored hrole hdesc hmode htenant hport hadp)
    · exact runCommand_goesOn hready (expandBody_stored hrole hdesc hmode htenant hport hadp)
    · exact runCommand_goesOn hready (expandBody_adapter hrole hdesc hmode htenant hport hadp hres hlayer)
    · exact runCommand_ends hready (expandBody_absent hrole hdesc hmode htenant hport hadp hres)
  case tableLoad =>
    intro hready
    refine ⟨fun hchg => ?_, fun hchg haway => ?_, fun hchg => ?_⟩
    · exact runCommand_ends hready (tableLoadBody_changing _ hchg)
    · rw [← jobReads_away (streamAt_table _ c) haway]
      exact runCommand_goesOn hready (tableLoadBody_reads _ hchg)
    · exact runCommand_goesOn hready (tableLoadBody_reads _ hchg)
  case tableFree =>
    intro hready
    refine ⟨fun hempty => ?_, fun t hslot => ⟨fun hkept => ?_, fun hcur hother hload hnamed => ?_⟩⟩
    · exact runCommand_ends hready (tableFreeBody_empty _ hempty)
    · exact runCommand_ends hready (tableFreeBody_kept _ hslot hkept)
    · exact runCommand_ends hready (tableFreeBody_frees _ hslot (TblSlot.not_kept_iff.mpr ⟨hcur, hother, hload, hnamed⟩))
  case adapterLoad =>
    intro hready hchg
    refine ⟨fun hbad => ?_, fun hver hid => ⟨fun e hres => ?_, fun hres => ⟨fun k a hpin hcur hold => ?_, fun hnew => ?_⟩⟩⟩
    · exact runCommand_ends hready (adapterLoadBody_badWord _ hchg hbad)
    · exact runCommand_ends hready (adapterLoadBody_resident _ hchg hver hid hres)
    · exact runCommand_ends hready (adapterLoadBody_older _ hchg hver hid hres hpin hcur (adpOlder_iff.mpr hold))
    · have hbody := adapterLoadBody_wanted (cmdDesc s c) hchg hver hid hres
        (hnew.imp_right fun h k a hcur => Bool.eq_false_iff.mpr fun hold => h k a hcur (adpOlder_iff.mp hold))
      refine ⟨fun hfull => ?_, fun hfree => ?_, fun hfree _ haway => ?_⟩
      · exact runCommand_ends hready (hbody.trans (if_pos hfull))
      · exact runCommand_goesOn hready (hbody.trans (if_neg hfree))
      · rw [← jobReads_away (streamAt_adapter _ c _) haway]
        exact runCommand_goesOn hready (hbody.trans (if_neg hfree))
  case adapterRetire =>
    intro hready
    refine ⟨fun hnone => ?_, fun k a hcur => ⟨fun hpins => ?_, fun hpins => ?_⟩⟩
    · exact runCommand_ends hready (adapterRetireBody_absent _ hnone)
    · exact runCommand_ends hready (adapterRetireBody_drains _ hcur hpins)
    · exact runCommand_ends hready (adapterRetireBody_frees _ hcur hpins)

end Sys2Proof.Machine
end

section
/-! PROOFS. Stands and bundles (R241, R247, R250, R254, R275, R283): what a stand reads once it is written, a slot that its predicate leaves out, and the end of a bundle whose stores an unfinished command still has to read. -/

namespace Sys2Proof.Machine

/-! ### Bytes of memory (R254) -/

/-- Settles O5, by the laws of a store of bytes: the canonical form, the read of what was stored, and the read outside it. -/
theorem storesKeepMemoryCanonical : Obligations.StoresKeepMemoryCanonical :=
  fun m a l hm => ⟨memWriteN_wf a l hm, memReadN_writeN m a l, fun _ hx => memRead_writeN_out m a l hx⟩

/-! ### A stand that is written (R241) -/

@[simp] theorem State.stand_setStand_same (s : State) (i : Nat) (S : Stand) : (s.setStand i S).stand i = S := by
  simp only [State.stand, State.setStand_xch, amGet_set_same, Option.getD_some]

@[simp] theorem State.stand_setStand_other {i j : Nat} (h : j ≠ i) (s : State) (S : Stand) : (s.setStand i S).stand j = s.stand j := by
  simp only [State.stand, State.setStand_xch, amGet_set_other h]

@[simp] theorem State.stand_setR (s : State) (f : Fld) (v i : Nat) : (s.setR f v).stand i = s.stand i := rfl
@[simp] theorem State.stand_wrap (s : State) (f : Fld) (n i : Nat) : (s.wrap f n).stand i = s.stand i := rfl
@[simp] theorem keepQueue_stand (s t : State) (i : Nat) : (keepQueue s t).stand i = t.stand i := rfl

theorem setFrame_eq (s : State) (st f : Nat) (F : Frame) :
    setFrame s st f F = s.setStand st { s.stand st with frames := amSet f F (s.stand st).frames } := rfl

/-! ### A slot that its predicate leaves out (R247, R267) -/

/-- A command is an operation of slot k with opcode o: on a stand that exists, it acts in that slot of the bundle. -/
def ActsInSlot (e : Nat → Instr) (k o : Nat) : Prop :=
  ∀ (st : Nat) (s : State), ∃ act, exec (e st) s = withUnit s (st < 64) (runSlot s st k o act)

theorem ops_act : ∀ g ∈ [(slotC, cOps), (slotM, mOps), (slotA, aOps), (slotV, vOps)], ∀ e ∈ g.2, ActsInSlot e.1 g.1 e.2 := by
  simp only [cOps, mOps, aOps, vOps, List.forall_mem_cons, List.not_mem_nil, false_implies, implies_true, and_true]
  and_intros <;> exact fun _ _ => ⟨_, rfl⟩

theorem ActsInSlot.off {e : Nat → Instr} {k o : Nat} (hact : ActsInSlot e k o) {s : State} {st f b : Nat} {F : Frame}
    (hissues : slotIssues s st k o f F b = true) (hpred : predOf F b k = false) :
    exec (e st) s = goesOn s (slotDone s st f b (F.ran k)) := by
  obtain ⟨act, hexec⟩ := hact st s
  rw [hexec, withUnit_there (decide_eq_true (slotIssues_lt hissues)), runSlot_off hissues hpred]

/-- Settles O23: every operation acts in its slot, and a slot whose predicate reads 0 only counts as run. -/
theorem predicateZeroDoesNothing : Obligations.PredicateZeroDoesNothing :=
  fun g hg e he _ _ _ _ _ hissues hpred => (ops_act g hg e he).off hissues hpred

/-! ### The end of a bundle (R247, R250, R275) -/

/-- A bundle with one store leaves the attention queue with, in the commands of its frame, the bytes that the store replaces. -/
theorem endBundle_att {F : Frame} {k a n : Nat} {l : List Byte} (hrun : F.halted = none) (hnext : F.target.getD (F.pc + 1) < n)
    (hstore : F.stores = [(k, a, l)]) (s : State) (st f : Nat) :
    ((endBundle s st f F n).stand st).att = ((s.stand st).keep f a l.length).att := by
  simp only [endBundle, hstore, isort, insertOrd, List.foldl_cons, List.foldl_nil, hrun, Option.isSome_none, Bool.false_eq_true, if_false,
    Nat.not_le.mpr hnext, setFrame_eq, State.stand_setStand_same, Stand.wr]

/-- A tile command of frame 0 that waits in the attention queue. -/
def waitingTile : EngCmd := ⟨0, 1, 0, .tile 4 0 0 0 0, 0, false, 0, [], 0, [], false⟩

/-- Frame 0 at bundle 0, whose C slot has stored the byte 1 at window offset 0x4000. -/
def storingFrame : Frame :=
  { task := 0, jobTag := 0, files := Files.start 0, next := Files.start 0, stores := [(slotC, 0x4000, [1])], pc := 0, target := none,
    slotsRun := [slotC], issued := (1, 0, 0), before := (1, 0, 0), done := [], halted := none, withdrawing := false, saved := false }

/-- A stand that runs that frame, with its tile command not yet begun. -/
def storingStand : Stand := { Stand.reset with frames := [(0, storingFrame)], running := some 0, att := [waitingTile] }

/-- Refutes O26: where a command of the frame waits in a queue, the end of the bundle keeps for it the byte that the store replaces (R250), so the queue is not as before. -/
theorem not_bundlesEnd : ¬ Obligations.BundlesEnd := by
  intro h
  have hnext : storingFrame.target.getD (storingFrame.pc + 1) < 2 := by decide
  obtain ⟨-, -, -, -, -, -, -, hatt, -⟩ := h (State.reset.setStand 0 storingStand) 0 0 2 storingFrame rfl hnext
  rw [endBundle_att rfl hnext rfl, State.stand_setStand_same] at hatt
  exact absurd hatt (by decide)

end Sys2Proof.Machine
end

section
/-! PROOFS. The save area (R248, R259): the bytes of a frame's registers and the files that they give back. -/

namespace Sys2Proof.Machine

/-! ### Little-endian fields (R6, R7) -/

theorem leBytes_length (n x : Nat) : (leBytes n x).length = n := by
  induction n generalizing x with
  | zero => rfl
  | succ n ih => simp only [leBytes, List.length_cons, ih]

theorem leNat_leBytes (n x : Nat) : leNat (leBytes n x) = x % 256 ^ n := by
  induction n generalizing x with
  | zero => simp only [leBytes, leNat, Nat.pow_zero, Nat.mod_one]
  | succ n ih =>
    rw [leBytes, leNat, ih, Nat.pow_succ', Nat.mod_mul, BitVec.toNat_ofNat]

theorem leBytes_take {k n : Nat} (h : k ≤ n) (x : Nat) : (leBytes n x).take k = leBytes k x := by
  induction k generalizing n x with
  | zero => rfl
  | succ k ih =>
    obtain ⟨n, rfl⟩ : ∃ m, n = m + 1 := ⟨n - 1, by omega⟩
    rw [leBytes, List.take_succ_cons, ih (by omega), leBytes]

/-- The low bytes of a number stored little-endian give it modulo what they hold. -/
theorem leField_leBytes {k n : Nat} (h : k ≤ n) (x : Nat) : leField (leBytes n x) 0 k = x % 256 ^ k := by
  rw [leField, List.drop_zero, leBytes_take h, leNat_leBytes]

theorem leField_append_left {l m : List Byte} {o n : Nat} (h : o + n ≤ l.length) : leField (l ++ m) o n = leField l o n := by
  rw [leField, leField, List.drop_append_of_le_length (by omega), List.take_append_of_le_length (by rw [List.length_drop]; omega)]

theorem leField_append_right {l : List Byte} (m : List Byte) (o n : Nat) : leField (l ++ m) (l.length + o) n = leField m o n := by
  rw [leField, leField, List.drop_append, List.drop_eq_nil_of_le (by omega), Nat.add_sub_cancel_left, List.nil_append]

/-! ### Rows of equal size -/

section
variable {g : Nat → List Byte} {w : Nat} (hw : ∀ i, (g i).length = w)
include hw

theorem rows_length (n : Nat) : ((List.range n).flatMap g).length = n * w := by
  simp only [List.length_flatMap, hw, List.map_const', List.length_range, List.sum_replicate, smul_eq_mul]

/-- A field inside row i of rows laid one after the other is that field of the row. -/
theorem leField_rows {i n o k : Nat} (hi : i < n) (ho : o + k ≤ w) : leField ((List.range n).flatMap g) (i * w + o) k = leField (g i) o k := by
  induction n with
  | zero => omega
  | succ n ih =>
    rw [List.range_succ, List.flatMap_append, List.flatMap_singleton]
    rcases Nat.lt_succ_iff_lt_or_eq.mp hi with hlt | rfl
    · rw [leField_append_left, ih hlt]
      rw [rows_length hw]
      nlinarith
    · rw [← rows_length hw i, leField_append_right]

end

/-! ### Bits of a number -/

theorem bit_eq_testBit (x n : Nat) : bit x n = x.testBit n := by
  simp only [bit, bits, Nat.testBit_eq_decide_div_mod_eq, Nat.shiftRight_eq_div_pow, pow_one, beq_eq_decide]

theorem testBit_bitSet (l : List Nat) (i : Nat) : (bitSet l).testBit i = decide (i ∈ l) := by
  induction l with
  | nil => simp only [bitSet, Nat.zero_testBit, List.not_mem_nil, decide_false]
  | cons n l ih =>
    rw [bitSet, Nat.testBit_or, ih, Nat.one_shiftLeft, Nat.testBit_two_pow]
    simp [Bool.or_comm, eq_comm, List.mem_cons]

/-! ### Maps filled in key order -/

/-- A map filled for the keys below n reads there what it was filled with. -/
theorem amGet_fill {α : Type} (g : Nat → α) (n k : Nat) :
    amGet k ((List.range n).foldl (fun m i => amSet i (g i) m) []) = if k < n then some (g k) else none := by
  induction n with
  | zero => rfl
  | succ n ih =>
    rw [List.range_succ, List.foldl_append, List.foldl_cons, List.foldl_nil]
    rcases eq_or_ne k n with rfl | hne
    · rw [amGet_set_same, if_pos (Nat.lt_succ_self k)]
    · rw [amGet_set_other hne, ih]
      congr 1
      exact propext (by omega)

theorem amGetD_fill {α : Type} {k n : Nat} (h : k < n) (g : Nat → α) (d : α) :
    amGetD k d ((List.range n).foldl (fun m i => amSet i (g i) m) []) = g k := by
  rw [amGetD, amGet_fill, if_pos h, Option.getD_some]

/-! ### The parts of a save area (R259) -/

def scalarBytes (F : Frame) : List Byte := (List.range 64).flatMap fun i => leBytes 8 (F.s i).toNat
def addressBytes (F : Frame) : List Byte := (List.range 16).flatMap fun i => leBytes 4 (F.a i).toNat
def predicateBytes (F : Frame) : List Byte := leBytes 8 (bitSet ((List.range 8).filter fun i => F.p i))
def placeBytes (s : State) (F : Frame) : List Byte := leBytes 8 (F.pc % 2 ^ 14 + 2 ^ 14 * Config.freeNat s.free)
def laneBytes (F : Frame) (n : Nat) : List Byte := (List.range 64).flatMap fun i => leBytes 4 (F.v n i).toNat
def vectorBytes (F : Frame) : List Byte := (List.range 32).flatMap (laneBytes F)

theorem saveImage_eq (s : State) (F : Frame) :
    saveImage s F = scalarBytes F ++ (addressBytes F ++ (predicateBytes F ++ (placeBytes s F ++ (leBytes 432 0 ++ vectorBytes F)))) := by
  simp only [saveImage, scalarBytes, addressBytes, predicateBytes, placeBytes, vectorBytes, List.append_assoc]
  congr

theorem scalarBytes_length (F : Frame) : (scalarBytes F).length = 0x200 := rows_length (fun _ => leBytes_length ..) 64
theorem addressBytes_length (F : Frame) : (addressBytes F).length = 0x40 := rows_length (fun _ => leBytes_length ..) 16
theorem predicateBytes_length (F : Frame) : (predicateBytes F).length = 8 := leBytes_length ..
theorem placeBytes_length (s : State) (F : Frame) : (placeBytes s F).length = 8 := leBytes_length ..
theorem laneBytes_length (F : Frame) (n : Nat) : (laneBytes F n).length = 256 := rows_length (fun _ => leBytes_length ..) 64
theorem vectorBytes_length (F : Frame) : (vectorBytes F).length = 0x2000 := rows_length (laneBytes_length F) 32

theorem saveImage_length (s : State) (F : Frame) : (saveImage s F).length = 9216 := by
  simp only [saveImage_eq, List.length_append, scalarBytes_length, addressBytes_length, predicateBytes_length, placeBytes_length, leBytes_length,
    vectorBytes_length]

theorem leField_skip {l : List Byte} {k : Nat} (h : l.length = k) (m : List Byte) (o n : Nat) : leField (l ++ m) (k + o) n = leField m o n :=
  h ▸ leField_append_right m o n

section
variable (s : State) (F : Frame)

theorem saveImage_scalar {n : Nat} (h : n < 64) : leField (saveImage s F) (8 * n) 8 = (F.s n).toNat := by
  have hrow := leField_rows (g := fun i => leBytes 8 (F.s i).toNat) (fun _ => leBytes_length ..) h (o := 0) (k := 8) (by omega)
  rw [saveImage_eq, leField_append_left (by rw [scalarBytes_length]; omega), Nat.mul_comm, ← Nat.add_zero (n * 8), scalarBytes, hrow,
    leField_leBytes (by omega)]
  exact Nat.mod_eq_of_lt (F.s n).isLt

theorem saveImage_address {n : Nat} (h : n < 16) : leField (saveImage s F) (0x200 + 4 * n) 4 = (F.a n).toNat := by
  have hrow := leField_rows (g := fun i => leBytes 4 (F.a i).toNat) (fun _ => leBytes_length ..) h (o := 0) (k := 4) (by omega)
  rw [saveImage_eq, leField_skip (scalarBytes_length F), leField_append_left (by rw [addressBytes_length]; omega), Nat.mul_comm,
    ← Nat.add_zero (n * 4), addressBytes, hrow, leField_leBytes (by omega)]
  exact Nat.mod_eq_of_lt (F.a n).isLt

theorem saveImage_predicate {n : Nat} (h : n < 8) : bit (leField (saveImage s F) 0x240 1) n = F.p n := by
  rw [saveImage_eq, show 0x240 = 0x200 + (0x40 + 0) from rfl, leField_skip (scalarBytes_length F), leField_skip (addressBytes_length F),
    leField_append_left (by rw [predicateBytes_length]; omega), predicateBytes, leField_leBytes (by omega), show 256 ^ 1 = 2 ^ 8 from rfl,
    bit_eq_testBit, Nat.testBit_mod_two_pow, testBit_bitSet]
  simp only [h, List.mem_filter, List.mem_range, true_and, decide_true, Bool.true_and, Bool.decide_eq_true]

theorem saveImage_pc : leField (saveImage s F) 0x248 2 % 2 ^ 14 = F.pc % 2 ^ 14 := by
  rw [saveImage_eq, show 0x248 = 0x200 + (0x40 + (8 + 0)) from rfl, leField_skip (scalarBytes_length F), leField_skip (addressBytes_length F),
    leField_skip (predicateBytes_length F), leField_append_left (by rw [placeBytes_length]; omega), placeBytes, leField_leBytes (by omega),
    Nat.mod_mod_of_dvd _ (by decide), Nat.add_mul_mod_self_left, Nat.mod_mod]

theorem saveImage_lane {n i : Nat} (hn : n < 32) (hi : i < 64) : leField (saveImage s F) (0x400 + 4 * (64 * n + i)) 4 = (F.v n i).toNat := by
  have hrow := leField_rows (laneBytes_length F) hn (o := i * 4 + 0) (k := 4) (by omega)
  have hlane := leField_rows (g := fun i => leBytes 4 (F.v n i).toNat) (fun _ => leBytes_length ..) hi (o := 0) (k := 4) (by omega)
  rw [saveImage_eq, show 0x400 + 4 * (64 * n + i) = 0x200 + (0x40 + (8 + (8 + (432 + (n * 256 + (i * 4 + 0)))))) by omega,
    leField_skip (scalarBytes_length F), leField_skip (addressBytes_length F), leField_skip (predicateBytes_length F),
    leField_skip (placeBytes_length s F), leField_skip (leBytes_length 432 0), vectorBytes, hrow, laneBytes, hlane, leField_leBytes (by omega)]
  exact Nat.mod_eq_of_lt (F.v n i).isLt

end

/-! ### The files of a save area -/

theorem ofNat_toNat_ite {w : Nat} (p : Prop) [Decidable p] (x : BitVec w) :
    BitVec.ofNat w (if p then 0 else x.toNat) = if p then 0 else x := by
  split
  · rfl
  · exact (BitVec.ofNat_toNat w x).trans x.setWidth_eq

section
variable {s : State} {F G : Frame} (hfiles : G.files = filesOf (saveImage s F))
include hfiles

theorem restored_scalar {n : Nat} (h : n < 64) : G.s n = if n = 0 then 0 else F.s n := by
  rw [Frame.s, hfiles, filesOf, amGetD_fill h]
  simp only [saveImage_scalar s F h, ofNat_toNat_ite]

theorem restored_address {n : Nat} (h : n < 16) : G.a n = if n = 0 then 0 else F.a n := by
  rw [Frame.a, hfiles, filesOf, amGetD_fill h]
  simp only [saveImage_address s F h, ofNat_toNat_ite]

theorem restored_predicate {n : Nat} (h : n < 8) : G.p n = if n = 0 then true else F.p n := by
  rw [Frame.p, hfiles, filesOf, amGetD_fill h, saveImage_predicate s F h]
  by_cases h0 : n = 0 <;> simp [h0]

theorem restored_lane {n i : Nat} (hn : n < 32) (hi : i < 64) : G.v n i = F.v n i := by
  rw [Frame.v, hfiles, filesOf, amGetD_fill (show 64 * n + i < 2048 by omega)]
  simp only [saveImage_lane s F hn hi, BitVec.ofNat_toNat, BitVec.setWidth_eq]

end

/-- Settles O29: each register's bytes lie in their part of the save area, and the files that are read back are filled from there. -/
theorem savedRegistersComeBack : Obligations.SavedRegistersComeBack := by
  intro s F hpc
  refine ⟨saveImage_length s F, (saveImage_pc s F).trans (Nat.mod_eq_of_lt hpc), fun G hfiles => ⟨?_, ?_, ?_, ?_⟩⟩
  · exact fun n hn => restored_scalar hfiles hn
  · exact fun n hn => restored_address hfiles hn
  · exact fun n hn => restored_predicate hfiles hn
  · exact fun n i hn hi => restored_lane hfiles hn hi

end Sys2Proof.Machine
end

section
/-! PROOFS. The issue of engine commands (R93, R94, R242, R243, R249 to R255, R277 to R280): tickets, the ranges of a window, and what an issue leaves in its queue and its frame. -/

namespace Sys2Proof.Machine

/-! ### A slot that acts (R247) -/

theorem codeLen_congr {s t : State} {st : Nat} (h : (t.stand st).image = (s.stand st).image) : codeLen t st = codeLen s st := by
  simp only [codeLen, h]

section
variable {s : State} {st k o f b : Nat} {F : Frame} {act : State → Nat → Frame → Nat → SlotEnd}
  (hissues : slotIssues s st k o f F b = true) (hpred : predOf F b k = true)
include hissues hpred

theorem runAct_ok {t : State} {G : Frame} (hact : act s f (F.ran k) (slotBits b k) = .ok t G)
    (himage : (t.stand st).image = (s.stand st).image) : runAct st k o s act = goesOn s (slotDone t st f b G) := by
  rw [runAct, withUnit_there (decide_eq_true (slotIssues_lt hissues)), runSlot_issues hissues hpred, hact, slotDone, codeLen_congr himage]

theorem runAct_fault {dt : Nat} (hact : act s f (F.ran k) (slotBits b k) = .fault dt) :
    runAct st k o s act = goesOn s (progFault s st f dt F.pc) := by
  rw [runAct, withUnit_there (decide_eq_true (slotIssues_lt hissues)), runSlot_issues hissues hpred, hact]

end

/-! ### Tickets (R249, R286) -/

/-- The ticket that a frame's next command of an engine takes. -/
def Frame.nextTicket (F : Frame) (e : Engine) : Nat := F.count e % 65535 + 1

theorem issue_ticket (F : Frame) (e : Engine) : (F.issue e).2 = F.nextTicket e := by
  simp only [Frame.issue, ticketOf, Nat.succ_ne_zero, if_false, Nat.add_sub_cancel, Frame.nextTicket]

theorem issue_setS (F : Frame) (e : Engine) (reg : Nat) :
    (F.issue e).1.setS reg (BitVec.ofNat 64 (F.nextTicket e)) = F.issued1 e (F.nextTicket e) reg := by
  simp only [Frame.setS, Frame.issued1, ← issue_ticket]
  split <;> cases e <;> rfl

/-! ### Ranges of a window (R242, R243) -/

theorem rangeOf_usable_iff {d a n : Nat} : rangeOf d a n = .usable ↔ Usable d a n := by
  simp only [rangeOf, meets, Usable]
  split
  case isTrue hpast =>
    simp only [reduceCtorEq, false_iff]
    omega
  case isFalse hin =>
    simp only [ite_eq_right_iff, reduceCtorEq, imp_false, Bool.or_eq_true, Bool.and_eq_true, decide_eq_true_eq]
    omega

theorem deckOk_iff {s : State} {st a n : Nat} : deckOk s st a n = true ↔ Usable (s.stand st).depth a n := by
  rw [deckOk, beq_iff_eq, rangeOf_usable_iff]

section
variable {d past : Nat} {rs : List (Nat × Nat)}

theorem rangesEnd_usable (h : ∀ r ∈ rs, rangeOf d r.1 r.2 = .usable) : rangesEnd d past rs = .accept := by
  have hres : ¬ ∃ r ∈ rs, rangeOf d r.1 r.2 = .reserved := fun ⟨r, hr, he⟩ => by simp [h r hr] at he
  have hpast : ¬ ∃ r ∈ rs, rangeOf d r.1 r.2 = .past := fun ⟨r, hr, he⟩ => by simp [h r hr] at he
  simp only [rangesEnd, List.any_eq_true, beq_iff_eq, hres, hpast, if_false]

theorem rangesEnd_reserved (h : ∃ r ∈ rs, rangeOf d r.1 r.2 = .reserved) : rangesEnd d past rs = .fault Detail.STD_WINDOW := by
  simp only [rangesEnd, List.any_eq_true, beq_iff_eq, h, if_true]

theorem rangesEnd_unreserved (h : ∀ r ∈ rs, rangeOf d r.1 r.2 ≠ .reserved) :
    rangesEnd d past rs = if ∃ r ∈ rs, rangeOf d r.1 r.2 = .past then .refuse past else .accept := by
  have hres : ¬ ∃ r ∈ rs, rangeOf d r.1 r.2 = .reserved := fun ⟨r, hr, he⟩ => h r hr he
  simp only [rangesEnd, List.any_eq_true, beq_iff_eq, hres, if_false]

end

/-! ### The mover slot (R253, R277) -/

theorem exec_moverRow : ∀ e ∈ moverRows, ∀ (st : Nat) (s : State),
    exec (e.1 st) s = runAct st slotM e.2.1 s (moverIssue st e.2.1 e.2.2.1 e.2.2.2.1 e.2.2.2.2.1 e.2.2.2.2.2) := by
  simp only [moverRows, List.forall_mem_cons, List.not_mem_nil, false_implies, implies_true, and_true]
  and_intros <;> exact fun _ _ => rfl

/-- The operands of a mover instruction are registers that the bundle's other slots have not changed (R248, R283). -/
theorem moverRow_ran : ∀ e ∈ moverRows, ∀ (F : Frame) (k w : Nat),
    e.2.2.1 (F.ran k) w = e.2.2.1 F w ∧ e.2.2.2.1 (F.ran k) w = e.2.2.2.1 F w ∧ e.2.2.2.2.1 (F.ran k) w = e.2.2.2.2.1 F w
    ∧ e.2.2.2.2.2 (F.ran k) w = e.2.2.2.2.2 F w := by
  intro e he F k w
  simp only [moverRows, List.mem_cons, List.not_mem_nil, or_false] at he
  rcases he with rfl | rfl | rfl | rfl | rfl <;> exact ⟨rfl, rfl, rfl, rfl⟩

theorem moverIssue_queues {s : State} {st f code w : Nat} {F : Frame} {d q ext n : Frame → Nat → Nat} {T : Task}
    (htask : amGet F.task s.xch.tasks = some T)
    (hranges : ∀ l, moverRanges s (s.stand st) f T code (d F w) (q F w) (n F w) = some l → ∀ r ∈ l, rangeOf (s.stand st).depth r.1 r.2 = .usable) :
    moverIssue st code d q ext n s f F w =
      .ok (s.setStand st { s.stand st with
             mov := (s.stand st).mov ++ [newCmd s f (F.nextTicket .mov) F.jobTag (.mover code (d F w) (q F w) (ext F w) (n F w))] })
        (F.issued1 .mov (F.nextTicket .mov) (bits w 20 6)) := by
  simp only [moverIssue, frameTask, htask, mT, issue_ticket, issue_setS]
  cases hl : moverRanges s (s.stand st) f T code (d F w) (q F w) (n F w) with
  | none => rfl
  | some l =>
    have hgood : (l.any fun r => rangeOf (s.stand st).depth r.1 r.2 != .usable) = false := by
      simp only [List.any_eq_false, bne_iff_ne, ne_eq, not_not]
      exact hranges l hl
    simp only [hgood, Bool.false_eq_true, if_false]

/-! ### The queues of the attention and the codec engine (R94, R249, R255) -/

section
variable {s : State} {st f reg : Nat} {F : Frame} {x : CmdBody}

theorem engIssue_att_queues (herr : (s.stand st).attErr = false) :
    engIssue s st f F .att reg .accept x =
      .ok (s.setStand st { s.stand st with att := (s.stand st).att ++ [newCmd s f (F.nextTicket .att) F.jobTag x] })
        (F.issued1 .att (F.nextTicket .att) reg) := by
  simp only [engIssue, herr, if_true, Bool.false_eq_true, if_false, issue_setS, issue_ticket]

theorem engIssue_cdc_queues (herr : (s.stand st).cdcErr = false) :
    engIssue s st f F .cdc reg .accept x =
      .ok (s.setStand st { s.stand st with cdc := (s.stand st).cdc ++ [newCmd s f (F.nextTicket .cdc) F.jobTag x] })
        (F.issued1 .cdc (F.nextTicket .cdc) reg) := by
  simp only [engIssue, herr, reduceCtorEq, Bool.false_eq_true, if_false, issue_setS, issue_ticket]

/-- The frame once a command of the attention queue has ended as it was issued, flushed with a detail (R94). -/
def Frame.flushed (F : Frame) (reg dt : Nat) : Frame :=
  let G := F.issued1 .att (F.nextTicket .att) reg
  { G with done := amSet (doneKey .att (F.nextTicket .att)) (Status.errorFlushed.code, dt) G.done }

theorem engIssue_att_refused (dt : Nat) (herr : (s.stand st).attErr = false) :
    engIssue s st f F .att reg (.refuse dt) x = .ok (queueError s st .att dt F.jobTag) (F.flushed reg dt) := by
  simp only [engIssue, herr, if_true, Bool.false_eq_true, if_false, issue_setS, issue_ticket, Frame.flushed]

/-- In its error state the queue flushes what it would take and what it would refuse. -/
theorem engIssue_att_flushes {c : DescEnd} (hc : c = .accept ∨ ∃ dt, c = .refuse dt) (herr : (s.stand st).attErr = true) :
    engIssue s st f F .att reg c x = .ok s (F.flushed reg 0) := by
  rcases hc with rfl | ⟨dt, rfl⟩ <;> simp only [engIssue, herr, if_true, issue_setS, issue_ticket, Frame.flushed]

end

theorem queueError_image (s : State) (st dt tag : Nat) : ((queueError s st .att dt tag).stand st).image = (s.stand st).image := by
  simp only [queueError, State.stand_setR, State.stand_setStand_same]

/-! ### Tile instructions (R242, R278 to R280) -/

theorem exec_tileRow : ∀ e ∈ tileRows, ∀ (st : Nat) (s : State),
    exec (e.1 st) s = runAct st slotA e.2.1 s (tileIssue st e.2.1 opTD e.2.2.1 e.2.2.2.1 fun _ => e.2.2.2.2) := by
  simp only [tileRows, List.forall_mem_cons, List.not_mem_nil, false_implies, implies_true, and_true]
  and_intros <;> exact fun _ _ => rfl

theorem tileRow_ran : ∀ e ∈ tileRows, ∀ (F : Frame) (k w : Nat), e.2.2.1 (F.ran k) w = e.2.2.1 F w ∧ e.2.2.2.1 (F.ran k) w = e.2.2.2.1 F w := by
  intro e he F k w
  simp only [tileRows, List.mem_cons, List.not_mem_nil, or_false] at he
  rcases he with rfl | rfl | rfl | rfl | rfl | rfl | rfl <;> exact ⟨rfl, rfl⟩

/-- A tmma operand of a depth that is a multiple of 32 takes its rows and, in the MX formats, its scales (R66, R279). -/
theorem tmmaBytes_eq {op : Nat} (hop : 8 ≤ op ∧ op ≤ 0xC) (c : Nat) : tmmaBytes (tmmaFmt op) (32 * (c + 1)) = operandBytes op (32 * (c + 1)) := by
  obtain rfl | rfl | rfl | rfl | rfl : op = 8 ∨ op = 9 ∨ op = 0xA ∨ op = 0xB ∨ op = 0xC := by omega
  all_goals simp [tmmaBytes, tmmaFmt, tmmaRow, operandBytes]
  all_goals omega

theorem tileRow_ranges : ∀ e ∈ tileRows, ∀ d t a b w : Nat, tileRanges d e.2.1 t a b (e.2.2.2.2 w) = tileUses d e.2.1 t a b (e.2.2.2.2 w) := by
  simp only [tileRows, List.forall_mem_cons, List.not_mem_nil, false_implies, implies_true, and_true]
  and_intros
  all_goals
    intro d t a b w
    simp [tileRanges, tileUses, tileAt, tmmaBytes_eq]

/-- The issue of a tile instruction, in the terms of its row. -/
theorem tileIssue_row {e : (Nat → Instr) × Nat × (Frame → Nat → Nat) × (Frame → Nat → Nat) × (Nat → Nat)} (he : e ∈ tileRows) (s : State)
    (st f k w : Nat) (F : Frame) :
    tileIssue st e.2.1 opTD e.2.2.1 e.2.2.2.1 (fun _ => e.2.2.2.2) s f (F.ran k) w =
      engIssue s st f (F.ran k) .att (bits w 18 6)
        (rangesEnd (s.stand st).depth Detail.ATT_ADDR (tileUses (s.stand st).depth e.2.1 (bits w 13 5) (e.2.2.1 F w) (e.2.2.2.1 F w) (e.2.2.2.2 w)))
        (.tile e.2.1 (bits w 13 5) (e.2.2.1 F w) (e.2.2.2.1 F w) (e.2.2.2.2 w)) := by
  obtain ⟨ha, hb⟩ := tileRow_ran e he F k w
  simp only [tileIssue, ha, hb, tileRow_ranges e he, opTD, aTD, aT]

/-! ### Descriptors (R92, R93, R250, R255) -/

section
variable {s : State} {st f w : Nat} {F : Frame}

theorem attIssueAct_fault (h : ¬ Usable (s.stand st).depth (F.a (bits w 14 4)).toNat 64) : attIssueAct st s f F w = .fault Detail.STD_WINDOW := by
  rw [← deckOk_iff, Bool.not_eq_true] at h
  simp only [attIssueAct, aA, h, Bool.not_false, if_true]

theorem cdcIssueAct_fault (h : ¬ Usable (s.stand st).depth (F.a (bits w 14 4)).toNat 64) : cdcIssueAct st s f F w = .fault Detail.STD_WINDOW := by
  rw [← deckOk_iff, Bool.not_eq_true] at h
  simp only [cdcIssueAct, aA, h, Bool.not_false, if_true]

section
variable (h : Usable (s.stand st).depth (F.a (bits w 14 4)).toNat 64)
include h

theorem attIssueAct_accepted (hmode : (AttDesc.ofBytes ((s.stand st).rd f (F.a (bits w 14 4)).toNat 64)).mode ≠ 2 ∨ roleEnables s [1, 2, 4] = true)
    (hcheck : attCheck (s.stand st) F.jobTag ((s.stand st).rd f (F.a (bits w 14 4)).toNat 64) = .accept) :
    attIssueAct st s f F w = engIssue s st f F .att (bits w 18 6) .accept (.attention ((s.stand st).rd f (F.a (bits w 14 4)).toNat 64)) := by
  rw [← deckOk_iff] at h
  have hrole : ¬ ((AttDesc.ofBytes ((s.stand st).rd f (F.a (bits w 14 4)).toNat 64)).mode = 2
      ∧ (!roleEnables s [rolePrompt, roleGeneration, roleMixed]) = true) := by
    rintro ⟨htwo, hno⟩
    exact hmode.elim (· htwo) fun hyes => by simp only [rolePrompt, roleGeneration, roleMixed, hyes, Bool.not_true, Bool.false_eq_true] at hno
  simp only [attIssueAct, aA, aT, h, Bool.not_true, Bool.false_eq_true, if_false, if_neg hrole, hcheck]

theorem cdcIssueAct_accepted (hcheck : cdcCheck (s.stand st) f F.jobTag ((s.stand st).rd f (F.a (bits w 14 4)).toNat 64) = .accept) :
    cdcIssueAct st s f F w = engIssue s st f F .cdc (bits w 18 6) .accept (.codec ((s.stand st).rd f (F.a (bits w 14 4)).toNat 64)) := by
  rw [← deckOk_iff] at h
  simp only [cdcIssueAct, aA, aT, h, Bool.not_true, Bool.false_eq_true, if_false, hcheck]

end

end

/-- Settles O28: each command is issued from registers that its bundle has not changed, and its check decides between the queue, the refusal and the fault. -/
theorem engineCommandsAreQueued : Obligations.EngineCommandsAreQueued := by
  intro s st f b F
  dsimp only
  refine ⟨?mover, ?tile, ?descriptor⟩
  case mover =>
    intro e he T hissues hpred htask hranges
    obtain ⟨hd, hq, hx, hn⟩ := moverRow_ran e he F slotM (slotBits b slotM)
    rw [exec_moverRow e he]
    rw [← hd, ← hq, ← hn] at hranges
    rw [← hd, ← hq, ← hx, ← hn]
    exact runAct_ok hissues hpred (moverIssue_queues htask hranges) (by rw [State.stand_setStand_same])
  case tile =>
    intro e he hissues hpred
    have hact := tileIssue_row he s st f slotA (slotBits b slotA) F
    rw [exec_tileRow e he]
    refine ⟨fun herr husable => ?_, fun hres => ?_, fun hunres => ⟨fun herr hpast => ?_, fun herr => ?_⟩⟩
    · rw [rangesEnd_usable husable, engIssue_att_queues herr] at hact
      exact runAct_ok hissues hpred hact (by rw [State.stand_setStand_same])
    · rw [rangesEnd_reserved hres] at hact
      exact runAct_fault hissues hpred hact
    · rw [rangesEnd_unreserved hunres, if_pos hpast, engIssue_att_refused _ herr] at hact
      exact runAct_ok hissues hpred hact (queueError_image ..)
    · rw [engIssue_att_flushes (by rw [rangesEnd_unreserved hunres]; split <;> simp) herr] at hact
      exact runAct_ok hissues hpred hact rfl
  case descriptor =>
    intro hpred
    refine ⟨fun hissues => ⟨fun hout => ?_, fun hin herr hmode hcheck => ?_⟩, fun hissues => ⟨fun hout => ?_, fun hin herr hcheck => ?_⟩⟩
    · exact runAct_fault hissues hpred (attIssueAct_fault hout)
    · exact runAct_ok hissues hpred ((attIssueAct_accepted (F := F.ran slotA) hin hmode hcheck).trans (engIssue_att_queues herr)) (by rw [State.stand_setStand_same])
    · exact runAct_fault hissues hpred (cdcIssueAct_fault hout)
    · exact runAct_ok hissues hpred ((cdcIssueAct_accepted (F := F.ran slotA) hin hcheck).trans (engIssue_cdc_queues herr)) (by rw [State.stand_setStand_same])

end Sys2Proof.Machine
end

section
/-! PROOFS. The end of engine commands (R94, R229, R249, R252 to R255, R277, R279, R280): how a command leaves its queue, what a copy, a tile command and a codec command do, and the turn of the only command that is ready (R183, R190). -/

namespace Sys2Proof.Machine

/-! ### A command leaves its queue (R252) -/

/-- The stand once a frame's command with a ticket has left an engine's queue; the frame's next command there begins its wait (R190). -/
def Stand.dropped (S : Stand) (e : Engine) (f t now : Nat) : Stand :=
  match e with
  | .att => { S with att := headSince (dropCmd S.att f t) f now }
  | .cdc => { S with cdc := headSince (dropCmd S.cdc f t) f now }
  | .mov => { S with mov := headSince (dropCmd S.mov f t) f now }

section
variable {s : State} {st f : Nat} {F : Frame} (hframe : amGet f (s.stand st).frames = some F) (hrun : F.halted = none) (hkeep : F.withdrawing = false)
include hframe hrun hkeep

theorem settleFrame_runs : settleFrame s st f = s := by
  simp only [settleFrame, hframe, hrun, hkeep, Bool.false_eq_true, if_false]

/-- A command of a frame that runs on ends: it leaves its queue and its outcome stands under its ticket, and nothing else changes. -/
theorem finishCmd_runs (e : Engine) (t code dt : Nat) :
    finishCmd s st f e t code dt = s.setStand st { (s.stand st).dropped e f t s.now with
      frames := amSet f { F with done := amSet (doneKey e t) (code, dt) F.done } (s.stand st).frames } := by
  cases e <;>
    · simp only [finishCmd, hframe, Stand.dropped]
      exact settleFrame_runs (F := { F with done := amSet _ (code, dt) F.done }) (by rw [State.stand_setStand_same, amGet_set_same]) hrun hkeep

end

/-! ### The oldest command of a frame -/

theorem find?_of_find? {α : Type} {p q : α → Bool} {l : List α} {c : α} (h : l.find? p = some c) (hc : q c = true) (hpq : ∀ x, q x = true → p x = true) :
    l.find? q = some c := by
  obtain ⟨-, as, bs, rfl, has⟩ := List.find?_eq_some_iff_append.mp h
  refine List.find?_eq_some_iff_append.mpr ⟨hc, as, bs, rfl, fun a ha => ?_⟩
  cases hq : q a with
  | false => rfl
  | true => simpa [hpq a hq] using has a ha

theorem oldest_with_ticket {l : List EngCmd} {f : Nat} {c : EngCmd} (h : l.find? (fun x => x.frame == f) = some c) :
    l.find? (fun x => x.frame == f && x.ticket == c.ticket) = some c := by
  have hf : (c.frame == f) = true := List.find?_some (p := fun x : EngCmd => x.frame == f) h
  exact find?_of_find? h (by simp [hf]) fun x hx => (Bool.and_eq_true_iff.mp hx).1

/-! ### Mover commands (R253, R254, R277) -/

theorem newDeltas_self (s : State) : newDeltas s s = [] := by
  simp only [newDeltas, Nat.sub_self, List.range_zero, List.map_nil, List.filter_nil]

/-- A count of bytes that a copy takes (R253). -/
def CopyCount (n : Nat) : Prop := n % 64 = 0 ∧ 1 ≤ n ∧ n ≤ 0x400000

section
variable {s : State} {S : Stand} {f d q ext n : Nat} {T : Task} {h : HeldWork} {kept : AMap Byte}

theorem moverRun_badCount {o : Nat} (ho : o = 1 ∨ o = 2) (hn : ¬ CopyCount n) :
    moverRun s S f T h kept o d q ext n = .done s S Status.fenced.code Detail.STD_WINDOW := by
  have hcopy : (n % 64 == 0 && decide (1 ≤ n) && decide (n ≤ 0x400000)) = false := by
    simpa only [CopyCount, ← and_assoc, ← Bool.not_eq_true, Bool.and_eq_true, beq_iff_eq, decide_eq_true_eq] using hn
  rcases ho with rfl | rfl <;> simp [moverRun, moverRanges, hcopy]

section
variable (hn : CopyCount n)
include hn

theorem moverRun_load (hstop : extStop s S h ext n false = none) :
    moverRun s S f T h kept 1 d q ext n =
      .done (homeAccess s ext n) { S with deck := memWriteN S.deck (winAt S.depth f + d) (memReadN (homeAccess s ext n).mem ext n) } 0 0 := by
  obtain ⟨hmod, hlow, hhigh⟩ := hn
  simp [moverRun, moverRanges, hmod, hlow, hhigh, hstop, Stand.wr, State.rd]

theorem moverRun_store (hstop : extStop s S h ext n true = none) :
    moverRun s S f T h kept 2 d q ext n = .done (putBytes (homeAccess s ext n) ext (S.rdKept f kept q n)) S 0 0 := by
  obtain ⟨hmod, hlow, hhigh⟩ := hn
  simp [moverRun, moverRanges, hmod, hlow, hhigh, hstop]

end

end

/-- A copy ends as any command does. -/
theorem moverEnd_copy {s : State} {st f t code dt d q ext n o : Nat} {c : EngCmd}
    (hcmd : (s.stand st).mov.find? (fun x => x.frame == f && x.ticket == t) = some c) (hbody : c.body = .mover o d q ext n) (ho : o = 1 ∨ o = 2) :
    moverEnd s st f t code dt = finishCmd s st f .mov t code dt := by
  simp only [moverEnd, hcmd, hbody]
  rcases ho with rfl | rfl <;> cases amGet f (s.stand st).frames <;> simp

/-- Once the column arbiters have passed its segments, the oldest mover command of a frame runs, and ends where no parity delta of it is out. -/
theorem moverDone_copy {s u t : State} {st f o d q ext n code dt : Nat} {F : Frame} {T : Task} {c : EngCmd} {S : Stand}
    (hu : passSegments s st f (segmentsLeft s) = u) (hframe : amGet f (u.stand st).frames = some F) (hkeep : F.withdrawing = false)
    (htask : amGet F.task u.xch.tasks = some T) (hcmd : (u.stand st).mov.find? (fun x => x.frame == f) = some c) (hwait : c.started = false)
    (hbody : c.body = .mover o d q ext n) (ho : o = 1 ∨ o = 2)
    (hrun : moverRun u (u.stand st) f T (.mover st f c.ticket) c.kept o d q ext n = .done t S code dt)
    (hdeltas : newDeltas u t = []) (hmov : S.mov = (u.stand st).mov) :
    moverDone s st f = finishCmd ((unhold t (.mover st f c.ticket)).setStand st S) st f .mov c.ticket code dt := by
  simp only [moverDone, hu, hcmd, hframe, hwait, hkeep, frameTask, htask, hbody, hrun, hdeltas, List.isEmpty_nil, Bool.false_eq_true, if_false, if_true]
  exact moverEnd_copy (by rw [State.stand_setStand_same, hmov]; exact oldest_with_ticket hcmd) hbody ho

/-! ### Tile commands (R242, R279, R280) -/

/-- A tile command whose turn has run has its effect and ends. -/
theorem attDone_tile {s : State} {st f o td a b k : Nat} {c : EngCmd} (hcmd : (s.stand st).att.find? (fun x => x.frame == f) = some c)
    (hturn : c.started = true) (hbody : c.body = .tile o td a b k) :
    attDone s st f = finishCmd (s.setStand st (tileDone (s.stand st) f c.kept o td a b k)) st f .att c.ticket 0 0 := by
  simp only [attDone, hcmd, hbody, hturn, if_true]

theorem tileDone_zero (S : Stand) (f : Nat) (kept : AMap Byte) (td a b k : Nat) :
    tileDone S f kept 4 td a b k =
      { S with deck := memWriteN S.deck (winAt S.depth f + (winBytes S.depth - 0x80000 + 0x4000 * td)) (leBytes 0x4000 0) } := by
  simp only [tileDone, if_true, Stand.wr, tileAt]

theorem tileDone_pack (S : Stand) (f : Nat) (kept : AMap Byte) (td a b k : Nat) :
    tileDone S f kept 0x10 td a b k =
      { S with deck := memWriteN S.deck (winAt S.depth f + a) ((List.range 4096).flatMap fun i =>
          leBytes 2 (FV.of32 (leField (memReadN S.deck (winAt S.depth f + (winBytes S.depth - 0x80000 + 0x4000 * td)) 0x4000) (4 * i) 4)).to16) } := by
  simp only [tileDone, Nat.reduceEqDiff, if_false, if_true, Stand.wr, Stand.rd, tileAt]

/-! ### Codec commands (R229, R252, R255) -/

section
variable {s u : State} {st f : Nat} {F : Frame} {T : Task} {c : EngCmd} {l : List Byte}
  (hu : cdcPass s st f (cdcTilesLeft s st) = u) (hframe : amGet f (u.stand st).frames = some F) (hkeep : F.withdrawing = false)
  (htask : amGet F.task u.xch.tasks = some T) (hcmd : (u.stand st).cdc.find? (fun x => x.frame == f) = some c) (hbody : c.body = .codec l)
include hframe hkeep htask hcmd hbody

theorem cdcLeft_oldest : cdcLeft u st f = some (c, T.kind, (cdcTiles (u.stand st) f c.kept l).drop c.tile) := by
  simp only [cdcLeft, hcmd, hframe, frameTask, htask, hbody, hkeep, Bool.false_eq_true, if_false]

include hu

theorem cdcDone_expand (hleft : (cdcTiles (u.stand st) f c.kept l).drop c.tile = []) (hop : leField l 0 1 = 1) :
    cdcDone s st f = finishCmd (u.setStand st (expandRun u (u.stand st) f T c.kept l)) st f .cdc c.ticket 0 0 := by
  simp only [cdcDone, hu, hcmd, hframe, frameTask, htask, hbody, cdcLeft_oldest hframe hkeep htask hcmd hbody, hleft, hop, if_true]

theorem cdcDone_quant {U : State} {W : Stand} {code dt : Nat} (hleft : (cdcTiles (u.stand st) f c.kept l).drop c.tile = []) (hop : leField l 0 1 ≠ 1)
    (hquant : quantRun u (u.stand st) f c.kept l = some (U, W, code, dt)) :
    cdcDone s st f = finishCmd (U.setStand st W) st f .cdc c.ticket code dt := by
  simp only [cdcDone, hu, hcmd, hframe, frameTask, htask, hbody, cdcLeft_oldest hframe hkeep htask hcmd hbody, hleft, hop, hquant, if_false]

theorem cdcDone_waits (hleft : (cdcTiles (u.stand st) f c.kept l).drop c.tile ≠ []) : cdcDone s st f = u := by
  obtain ⟨n, ns, htiles⟩ := List.exists_cons_of_ne_nil hleft
  simp only [cdcDone, hu, hcmd, hframe, frameTask, htask, hbody, cdcLeft_oldest hframe hkeep htask hcmd hbody, htiles, hkeep, Bool.false_eq_true, if_false]

end

/-! ### The turn of the only command that is ready (R183, R190) -/

/-- An arbiter to which one input alone offers an item serves that input. -/
theorem Arb.select_single (a : Arb) (o : Offer) (q age now : Nat) : ∃ arb aged, a.select [o] q age now = some (o, arb, aged) := by
  have hmem : o.input ∈ (a.refresh [o]).active := by
    by_cases h : o.input ∈ a.active <;> simp [Arb.refresh, isort, insertOrd, h]
  simp only [Arb.select, Arb.pick, arbAged, List.foldl_cons, List.foldl_nil]
  by_cases hage : o.since + age ≤ now
  · simp only [hage, if_true]
    exact ⟨_, _, rfl⟩
  · simp only [hage, if_false]
    cases hdrop : (a.refresh [o]).active.dropWhile fun i => !([o].any fun x => x.input == i) with
    | nil =>
      have hnone := List.dropWhile_eq_nil_iff.mp hdrop o.input hmem
      simp at hnone
    | cons i rest =>
      have hhead := List.head?_dropWhile_not (fun i => !([o].any fun x => x.input == i)) (a.refresh [o]).active
      rw [hdrop] at hhead
      obtain rfl : o.input = i := by simpa using hhead
      simp only [List.find?_cons, beq_self_eq_true]
      exact ⟨_, _, rfl⟩

theorem setAtt_eq (s : State) (st : Nat) (c : EngCmd) :
    setAtt s st c = s.setStand st { s.stand st with att := (s.stand st).att.map fun q => if q.frame = c.frame ∧ q.ticket = c.ticket then c else q } := by
  simp only [setAtt, Bool.and_eq_true, beq_iff_eq]

@[simp] theorem chargeArray_stand (s : State) (e i : Nat) : (chargeArray s e).stand i = s.stand i := rfl
@[simp] theorem chargeArray_mem (s : State) (e : Nat) : (chargeArray s e).mem = s.mem := rfl
@[simp] theorem chargeArray_sent (s : State) (e : Nat) : (chargeArray s e).sent = s.sent := rfl

/-- Issue cycles count on their stand (STD_ATT_CYCLES). -/
@[simp] theorem issueCycles_stand (s : State) (st : Nat) (ps : List (Nat × Nat)) :
    (issueCycles s st ps).stand st = { s.stand st with attCycles := (s.stand st).attCycles + ps.foldl (fun n p => n + p.2) 0 } := by
  simp only [issueCycles, chargeArray_stand, State.stand_setR, State.stand_setStand_same]

@[simp] theorem issueCycles_mem (s : State) (st : Nat) (ps : List (Nat × Nat)) : (issueCycles s st ps).mem = s.mem := by
  simp only [issueCycles, chargeArray_mem, State.setR_mem, State.setStand_mem]

@[simp] theorem issueCycles_sent (s : State) (st : Nat) (ps : List (Nat × Nat)) : (issueCycles s st ps).sent = s.sent := by
  simp only [issueCycles, chargeArray_sent, State.setR_sent, State.setStand_sent]

/-- The state once the engine arbiter of a stand has chosen, by age or not. -/
def granted (s : State) (st : Nat) (arb : Arb) (aged : Bool) : State :=
  let t := s.setStand st { s.stand st with arb := arb }
  if aged then t.wrap (Reg.SCH_ARB_AGED_ITEMS.at 4 0) 1 else t

theorem granted_same (s : State) (st : Nat) (arb : Arb) (aged : Bool) :
    (granted s st arb aged).stand st = { s.stand st with arb := arb } ∧ (granted s st arb aged).mem = s.mem
    ∧ (granted s st arb aged).sent = s.sent ∧ (granted s st arb aged).now = s.now := by
  cases aged <;> simp [granted]

/-- The state once a tile command has had its turn. -/
def tileTurn (s : State) (st : Nat) (c : EngCmd) (p : Nat × Nat) : State :=
  setAtt (issueCycles s st [p]) st { c with started := true, since := s.now }

theorem tileTurn_stand (s : State) (st : Nat) (c : EngCmd) (p : Nat × Nat) :
    (tileTurn s st c p).stand st = { s.stand st with
      att := (s.stand st).att.map fun x => if x.frame = c.frame ∧ x.ticket = c.ticket then { c with started := true, since := s.now } else x
      attCycles := (s.stand st).attCycles + p.2 } := by
  simp only [tileTurn, setAtt_eq, issueCycles_stand, State.stand_setStand_same, List.foldl_cons, List.foldl_nil, Nat.zero_add]

theorem tileTurn_mem (s : State) (st : Nat) (c : EngCmd) (p : Nat × Nat) : (tileTurn s st c p).mem = s.mem := by
  simp only [tileTurn, setAtt_eq, State.setStand_mem, issueCycles_mem]

theorem tileTurn_sent (s : State) (st : Nat) (c : EngCmd) (p : Nat × Nat) : (tileTurn s st c p).sent = s.sent := by
  simp only [tileTurn, setAtt_eq, State.setStand_sent, issueCycles_sent]

/-- At a kerf point a tile command that alone is ready is chosen and has its turn. -/
theorem kerfPoint_single {s : State} {st o td a b k : Nat} {c : EngCmd} (hfence : standFenced s st = false)
    (hkeep : ∀ e ∈ (s.stand st).frames, e.2.withdrawing = false) (hready : attReady s (s.stand st) = [c]) (hbody : c.body = .tile o td a b k) :
    ∃ arb aged, kerfPoint s st =
      (let u := tileTurn (granted s st arb aged) st c (tilePass o k)
       u.setStand st { u.stand st with arb := (u.stand st).arb.settle ((attReady u (u.stand st)).map (·.frame)) }) := by
  have hany : ((s.stand st).frames.any fun e => e.2.withdrawing) = false := by
    simpa only [List.any_eq_false, Bool.not_eq_true] using hkeep
  obtain ⟨arb, aged, hpick⟩ := (s.stand st).arb.select_single ⟨c.frame, 1, headCost (s.stand st) c, c.since⟩
    (max 1 (s.r Reg.SCH_ARB_Q_ENG_Q) * 256) (arbAge s) s.now
  refine ⟨arb, aged, ?_⟩
  obtain ⟨frame, ticket, jobTag, body, since, started, tile, rows, preNan, kept, retried⟩ := c
  subst hbody
  simp only [kerfPoint, hany, hfence, Bool.false_eq_true, if_false, hready, List.map_cons, List.map_nil, hpick, List.find?_cons, beq_self_eq_true]
  rfl

/-- Settles O31: each command that is done runs as the lemma of its kind says, and its end is that of a frame that runs on. -/
theorem engineCommandsComplete : Obligations.EngineCommandsComplete := by
  intro s st f F c hst hframe hrun hkeep
  have hthere : decide (st < 64) = true := decide_eq_true hst
  dsimp only
  refine ⟨?mover, ?tile, ?codec, ?ending, ?kerf⟩
  case mover =>
    intro T d q ext n hframe' htask hcmd hwait
    refine ⟨fun hbody hmod hlow hhigh hstop hdeltas => ?_, fun hbody hmod hlow hhigh hstop hdeltas => ?_, fun o ho hbody hcount => ?_⟩
    · refine (withUnit_there hthere).trans (congrArg _ ?_)
      exact moverDone_copy rfl hframe' hkeep htask hcmd hwait hbody (.inl rfl) (moverRun_load ⟨hmod, hlow, hhigh⟩ hstop) hdeltas rfl
    · refine (withUnit_there hthere).trans (congrArg _ ?_)
      exact moverDone_copy rfl hframe' hkeep htask hcmd hwait hbody (.inr rfl) (moverRun_store ⟨hmod, hlow, hhigh⟩ hstop) hdeltas rfl
    · refine (withUnit_there hthere).trans (congrArg _ ?_)
      have hbad : ¬ CopyCount n := by
        rintro ⟨hmod, hlow, hhigh⟩
        omega
      exact moverDone_copy rfl hframe' hkeep htask hcmd hwait hbody ho (moverRun_badCount ho hbad) (newDeltas_self _) rfl
  case tile =>
    intro td a b k hcmd hturn
    refine ⟨fun hbody => ?_, fun hbody => ?_⟩
    · rw [← tileDone_zero (s.stand st) f c.kept td a b k, ← attDone_tile hcmd hturn hbody]
      exact withUnit_there hthere
    · rw [← tileDone_pack (s.stand st) f c.kept td a b k, ← attDone_tile hcmd hturn hbody]
      exact withUnit_there hthere
  case codec =>
    intro T l hframe' htask hcmd hbody
    refine ⟨fun hleft hop => ?_, fun U W code dt hleft hop hquant => ?_, fun hleft => ?_⟩
    · rw [← cdcDone_expand rfl hframe' hkeep htask hcmd hbody hleft hop]
      exact withUnit_there hthere
    · rw [← cdcDone_quant rfl hframe' hkeep htask hcmd hbody hleft hop hquant]
      exact withUnit_there hthere
    · exact (withUnit_there hthere).trans (congrArg _ (cdcDone_waits rfl hframe' hkeep htask hcmd hbody hleft))
  case ending =>
    intro e code dt
    rw [finishCmd_runs hframe hrun hkeep, State.stand_setStand_same]
    refine ⟨amGet_set_same .., fun g hg => amGet_set_other hg .., ?_, ⟨?_, ?_, ?_⟩, State.setStand_mem .., State.setStand_sent ..,
      fun j hj => State.stand_setStand_other hj ..⟩ <;> cases e <;> rfl
  case kerf =>
    intro code td a b k hfence hkeep' hready hbody
    obtain ⟨arb, aged, hkerf⟩ := kerfPoint_single hfence hkeep' hready hbody
    obtain ⟨hstand, hmem, hsent, hnow⟩ := granted_same s st arb aged
    refine ⟨_, withUnit_there hthere, ?_, ?_, ?_, ?_, ?_⟩
    · rw [keepQueue_stand, hkerf, State.stand_setStand_same, tileTurn_stand, hstand, hnow]
    · rw [keepQueue_stand, hkerf, State.stand_setStand_same, tileTurn_stand, hstand]
    · rw [keepQueue_stand, hkerf, State.stand_setStand_same, tileTurn_stand, hstand]
    · exact (congrArg State.mem hkerf).trans ((State.setStand_mem ..).trans ((tileTurn_mem ..).trans hmem))
    · exact (congrArg State.sent hkerf).trans ((State.setStand_sent ..).trans ((tileTurn_sent ..).trans hsent))

end Sys2Proof.Machine
end

section
/-! PROOFS. Frame switches and the placing of tasks (R176 to R179, R190, R241, R245, R246, R251, R258, R259, R263): the next ready frame, the choice of the chip arbiter where one task alone is ready, and the frame that a task starts in. -/

namespace Sys2Proof.Machine

/-! ### The next ready frame (R258) -/

theorem find?_map_range {p : Nat → Bool} {g : Nat → Nat} {n k : Nat} (hk : k < n) (hp : p (g k) = true) (hbefore : ∀ j, j < k → p (g j) = false) :
    ((List.range n).map g).find? p = some (g k) := by
  have hfind : (List.range n).find? (p ∘ g) = some k :=
    List.find?_range_eq_some.mpr ⟨hp, List.mem_range.mpr hk, fun j hj => by simp [hbefore j hj]⟩
  rw [List.find?_map, hfind, Option.map_some]

/-- The stand once its frame g runs: with its registers from its save area where it has been saved. -/
def Stand.switched (S : Stand) (g : Nat) (G : Frame) (now : Nat) : Stand :=
  { S with
    frames := amSet g (if G.saved then { G with files := filesOf (S.rd g 0x400 9216), next := filesOf (S.rd g 0x400 9216), pc := leField (S.rd g 0x400 9216) 0x248 2 % 2 ^ 14 } else G) S.frames
    running := some g, since := now, last := g }

/-- The stand once the registers of its frame f are stored at its save area (R259). -/
def Stand.saving (S : Stand) (f : Nat) (F : Frame) (img : List Byte) : Stand :=
  let T := S.wr f 0x400 img
  { T with frames := amSet f { F with saved := true } T.frames }

section
variable {s : State} {st k : Nat} {G : Frame} (hk : k < 4)
include hk

theorem frameSwitch_idle (hidle : (s.stand st).running = none) (hframe : amGet (((s.stand st).last + 1 + k) % 4) (s.stand st).frames = some G)
    (hready : frameHeld (s.stand st) G = false)
    (hheld : ∀ j, j < k → ∀ H, amGet (((s.stand st).last + 1 + j) % 4) (s.stand st).frames = some H → frameHeld (s.stand st) H = true) :
    frameSwitch s st = (s.takeFree.setStand st ((s.stand st).switched (((s.stand st).last + 1 + k) % 4) G s.now)).wrap (Reg.STD_SEQ_COUNT_SWITCHES.at 0x10000 st) 1 := by
  simp only [frameSwitch, hidle, Option.bind_none, if_true]
  rw [find?_map_range hk]
  · simp only [hframe, Stand.switched]
  · simp only [hframe, hready, Bool.not_false, Bool.true_and, ne_eq, reduceCtorEq, not_false_eq_true, decide_true]
  · intro j hj
    cases hH : amGet (((s.stand st).last + 1 + j) % 4) (s.stand st).frames with
    | none => rfl
    | some H => simp only [hheld j hj H hH, Bool.not_true, Bool.false_and]

theorem frameSwitch_held {f : Nat} {F : Frame} (hrunning : (s.stand st).running = some f) (hcur : amGet f (s.stand st).frames = some F)
    (hbound : F.slotsRun = []) (hwait : frameHeld (s.stand st) F = true) (hother : (f + 1 + k) % 4 ≠ f)
    (hframe : amGet ((f + 1 + k) % 4) (s.stand st).frames = some G) (hready : frameHeld (s.stand st) G = false)
    (hheld : ∀ j, j < k → (f + 1 + j) % 4 ≠ f → ∀ H, amGet ((f + 1 + j) % 4) (s.stand st).frames = some H → frameHeld (s.stand st) H = true) :
    frameSwitch s st = (s.takeFree.setStand st (((s.stand st).saving f F (saveImage s F)).switched ((f + 1 + k) % 4) G s.now)).wrap
      (Reg.STD_SEQ_COUNT_SWITCHES.at 0x10000 st) 1 := by
  have hempty : F.slotsRun.isEmpty = true := List.isEmpty_iff.mpr hbound
  simp only [frameSwitch, hrunning, Option.bind_some, hcur, Option.map_some, hempty, hwait, Bool.true_or, Bool.and_self, if_true]
  rw [find?_map_range hk]
  · simp only [hframe, Stand.switched, Stand.saving]
  · simp only [hframe, hready, Bool.not_false, Bool.true_and, decide_eq_true_eq, ne_eq, Option.some.injEq]
    exact Ne.symm hother
  · intro j hj
    rcases eq_or_ne ((f + 1 + j) % 4) f with hsame | hne
    · simp only [hsame, ne_eq, not_true_eq_false, decide_false, Bool.and_false]
    · cases hH : amGet ((f + 1 + j) % 4) (s.stand st).frames with
      | none => rfl
      | some H => simp only [hheld j hj hne H hH, Bool.not_true, Bool.false_and]

end

/-! ### One ready task (R178, R190) -/

theorem retryLayers_none {s : State} (h : s.xch.layers = []) : retryLayers s = s := by
  simp only [retryLayers, h, List.filter_nil, List.foldl_nil]

theorem retryMerges_none {s : State} (h : s.xch.layers = []) : retryMerges s = s := by
  simp only [retryMerges, h, List.filter_nil, List.foldl_nil]

theorem countWaits_found {s : State} {t : Nat} {T : Task} (hready : readyTasks s = [(t, T)]) (hstand : (standFor s T).isSome = true) : countWaits s = s := by
  simp only [countWaits, hready, List.foldl_cons, List.foldl_nil, hstand, Bool.or_true, if_true]

theorem flowOffers_single (e : Nat × Task) : flowOffers [e] = [(offerOfTask e.2.flowKey 1 e, e)] := by
  simp [flowOffers, isort, insertOrd, List.eraseDups_cons]

/-- The state once the chip arbiter has chosen, by age or not. -/
def chosen (s : State) (arb : Arb) (subs : AMap Arb) (aged : Bool) : State :=
  let t := { s with xch := { s.xch with arb := arb, subArbs := subs } }
  if aged then t.wrap (Reg.SCH_ARB_AGED_ITEMS.at 4 2) 1 else t

theorem chipChoose_single (s : State) (e : Nat × Task) : ∃ arb subs aged, chipChoose s [e] [e] = some (e, chosen s arb subs aged) := by
  obtain ⟨sub, aged', hsub⟩ := (amGetD (chipInput s e.2) Arb.empty s.xch.subArbs).select_single (offerOfTask e.2.flowKey 1 e) (chipQ s) (arbAge s) s.now
  obtain ⟨arb, aged, harb⟩ := s.xch.arb.select_single (offerOfTask (chipInput s e.2) (chipWeight s (chipInput s e.2) 1) e) (chipQ s) (arbAge s) s.now
  rw [Arb.select] at hsub harb
  simp only [chipChoose, List.map_cons, List.map_nil, List.eraseDups_cons, List.filter_nil, List.eraseDups_nil, List.filterMap_cons, List.filterMap_nil,
    List.filter_cons, beq_self_eq_true, if_true, flowOffers_single, List.length_singleton, List.getElem?_cons_zero, Option.map_some, hsub, List.find?_cons,
    harb]
  rw [show (offerOfTask (chipInput s e.2) (chipWeight s (chipInput s e.2) 1) e).input = chipInput s e.2 from rfl, beq_self_eq_true]
  exact ⟨_, _, aged, rfl⟩

/-! ### Where a task may go (R177, R178) -/

/-- The arbiter's choice leaves what a task's stand is chosen by. -/
theorem standFor_chosen (s : State) (arb : Arb) (subs : AMap Arb) (aged : Bool) (T : Task) : standFor (chosen s arb subs aged) T = standFor s T := by
  cases aged with
  | false => rfl
  | true =>
    have hreg (g : Fld) (hg : g.key ≠ (Reg.SCH_ARB_AGED_ITEMS.at 4 2).key) : (chosen s arb subs true).r g = s.r g := regGet_set_other hg ..
    have hfree (st : Nat) : standFree (chosen s arb subs true) T st = standFree s T st := by
      simp only [standFree, standFenced, standFence, gatedMask, depthAt, placeDepth, mixStands, State.role,
        hreg Reg.MGT_FAMILY_PARAM_STANDS (by decide), hreg Reg.PWR_STATE_GATED (by decide), hreg Reg.SCH_PLACE_CFG_DEPTH (by decide),
        hreg Reg.SCH_PLACE_CFG_MIX_STANDS (by decide), hreg Reg.MGT_ROLE_ROLE (by decide)]
      rfl
    have hfun : standFree (chosen s arb subs true) T = standFree s T := funext hfree
    simp only [standFor, hfun, hreg Reg.SCH_PLACE_CFG_OVERFLOW (by decide)]

theorem taskPlace_single {s : State} {t st : Nat} {T : Task} (hlayers : s.xch.layers = []) (hopen : noStand s = false)
    (hready : readyTasks s = [(t, T)]) (hstand : standFor s T = some (st, false)) :
    ∃ arb subs aged, taskPlace s = dispatchTask (chosen s arb subs aged) t T st := by
  obtain ⟨arb, subs, aged, hchoice⟩ := chipChoose_single s (t, T)
  refine ⟨arb, subs, aged, ?_⟩
  simp only [taskPlace, retryLayers_none hlayers, retryMerges_none hlayers, hopen, Bool.false_eq_true, if_false,
    countWaits_found hready (by rw [hstand]; rfl), hready, List.filter_cons, List.filter_nil, hstand, Option.isSome_some, if_true, hchoice,
    standFor_chosen]

/-! ### The frame that a task starts in (R241, R242, R245, R246, R251) -/

theorem fit_length (n : Nat) (l : List Byte) : (fit n l).length = n := by
  simp only [fit, List.length_take, List.length_append, List.length_replicate]
  omega

section
variable {l b : List Byte} {o : Nat} (hfit : o + b.length ≤ l.length)
include hfit

theorem splice_length : (splice l o b).length = l.length := by
  simp only [splice, List.length_append, List.length_take, List.length_drop]
  omega

/-- A field before the bytes replaced is as it was. -/
theorem leField_splice_before {i n : Nat} (h : i + n ≤ o) : leField (splice l o b) i n = leField l i n := by
  have hlen : i + n ≤ (l.take o).length := by rw [List.length_take]; omega
  rw [splice, List.append_assoc, leField_append_left hlen, ← leField_append_left (m := l.drop o) hlen, List.take_append_drop]

/-- The bytes replaced are a field of their own. -/
theorem leField_splice_same : leField (splice l o b) o b.length = leNat b := by
  have hlen : (l.take o).length = o := by rw [List.length_take]; omega
  have hskip := leField_skip hlen (b ++ l.drop (o + b.length)) 0 b.length
  rw [splice, List.append_assoc, ← Nat.add_zero o]
  rw [Nat.add_zero] at hskip ⊢
  rw [hskip, leField_append_left (by omega), leField, List.drop_zero, List.take_length]

end

/-- A task record with its job tag. -/
def taggedRecord (T : Task) (f : Nat) : List Byte := splice (fit 256 T.record) 0 (leBytes 4 (jobTagOf T f))
/-- A task record with its job tag and frame number. -/
def framedRecord (T : Task) (f : Nat) : List Byte := splice (taggedRecord T f) 0xF (leBytes 1 f)
/-- The task record as it stands at window offset 0: the tag is in the attention template too, where the kind has one. -/
def startRecord (T : Task) (f : Nat) : List Byte :=
  if T.kind = 4 ∨ T.kind = 5 then framedRecord T f else splice (framedRecord T f) 0x58 (leBytes 4 (jobTagOf T f))

theorem jobTagOf_lt (T : Task) (f : Nat) : jobTagOf T f < 256 ^ 4 := by
  unfold jobTagOf
  omega

section
variable (T : Task) (f : Nat)

theorem taggedRecord_length : (taggedRecord T f).length = 256 := by
  rw [taggedRecord, splice_length (by rw [leBytes_length, fit_length]; omega), fit_length]

theorem framedRecord_length : (framedRecord T f).length = 256 := by
  rw [framedRecord, splice_length (by rw [leBytes_length, taggedRecord_length]; omega), taggedRecord_length]

theorem startRecord_length : (startRecord T f).length = 256 := by
  unfold startRecord
  split
  · exact framedRecord_length T f
  · rw [splice_length (by rw [leBytes_length, framedRecord_length]; omega), framedRecord_length]

theorem startRecord_head {o n : Nat} (h : o + n ≤ 0x58) : leField (startRecord T f) o n = leField (framedRecord T f) o n := by
  unfold startRecord
  split
  · rfl
  · exact leField_splice_before (by rw [leBytes_length, framedRecord_length]; omega) h

theorem startRecord_tag : leField (startRecord T f) 0 4 = jobTagOf T f := by
  have htag := leField_splice_same (l := fit 256 T.record) (o := 0) (b := leBytes 4 (jobTagOf T f)) (by rw [leBytes_length, fit_length]; omega)
  rw [leBytes_length, leNat_leBytes, Nat.mod_eq_of_lt (jobTagOf_lt T f)] at htag
  rw [startRecord_head T f (by omega), framedRecord, leField_splice_before (by rw [leBytes_length, taggedRecord_length]; omega) (by omega)]
  exact htag

theorem startRecord_frame (hf : f < 4) : leField (startRecord T f) 0xF 1 = f := by
  have hframe := leField_splice_same (l := taggedRecord T f) (o := 0xF) (b := leBytes 1 f) (by rw [leBytes_length, taggedRecord_length]; omega)
  rw [leBytes_length, leNat_leBytes, Nat.mod_eq_of_lt (by omega)] at hframe
  rw [startRecord_head T f (by omega)]
  exact hframe

end

/-- The frame that a task starts in, at an entry (R246, R263). -/
def startFrame (T : Task) (t f entry : Nat) : Frame :=
  { task := t, jobTag := jobTagOf T f, files := Files.start (jobTagOf T f), next := Files.start (jobTagOf T f), stores := [], pc := entry % 2 ^ 14,
    target := none, slotsRun := [], issued := (0, 0, 0), before := (0, 0, 0), done := [], halted := none, withdrawing := false, saved := false }

/-- A stand under a DEPTH once a task has started in frame f: the frame runs where none did. -/
def Stand.started (S : Stand) (depth : Nat) (T : Task) (t f entry now : Nat) : Stand :=
  { S with
    depth := depth, deck := memWriteN S.deck (winAt depth f + 0) (startRecord T f), frames := amSet f (startFrame T t f entry) S.frames
    running := if S.running.isNone then some f else S.running, since := if S.running.isNone then now else S.since
    last := if S.running.isNone then f else S.last }

theorem dispatchTask_starts {s : State} {t st f : Nat} {T : Task} {im : Image} (hf : f < 4) (hfree : amGet f (s.stand st).frames = none)
    (hlow : ∀ j, j < f → amHas j (s.stand st).frames = true) (himage : (s.stand st).image = some im) (hentry : bit (im.entries.getD T.kind 0) 31 = true) :
    dispatchTask s t T st =
      ({ s with xch := { s.xch with tasks := amSet t { T with stand := some st, front := false } s.xch.tasks } } : State).setStand st
        ((s.stand st).started (depthAt s (s.stand st)) T t f (im.entries.getD T.kind 0) s.now) := by
  have hfind : (List.range 4).find? (fun f => !amHas f (s.stand st).frames) = some f :=
    List.find?_range_eq_some.mpr ⟨by simp only [amHas, hfree, Option.isSome_none, Bool.not_false], List.mem_range.mpr hf,
      fun j hj => by simp only [hlow j hj, Bool.not_true, Bool.not_false]⟩
  simp only [dispatchTask, hfind, himage, hentry, if_true]
  rw [← himage]
  rfl

theorem chosen_same (s : State) (arb : Arb) (subs : AMap Arb) (aged : Bool) (i : Nat) :
    (chosen s arb subs aged).stand i = s.stand i ∧ (chosen s arb subs aged).xch.tasks = s.xch.tasks ∧ (chosen s arb subs aged).mem = s.mem
    ∧ (chosen s arb subs aged).sent = s.sent := by
  cases aged <;> exact ⟨rfl, rfl, rfl, rfl⟩

section
variable (T : Task) (t f entry n : Nat)

theorem startFrame_scalar : (startFrame T t f entry).s n = if n = 1 then BitVec.ofNat 64 (jobTagOf T f) else 0 := by
  rcases eq_or_ne n 1 with rfl | hne
  · rfl
  · simp [Frame.s, startFrame, Files.start, amGetD, amSet, amGet, hne, hne.symm]

theorem startFrame_predicate : (startFrame T t f entry).p n = decide (n = 0) := by
  rcases eq_or_ne n 0 with rfl | hne
  · rfl
  · simp [Frame.p, startFrame, Files.start, amGetD, amSet, amGet, hne, hne.symm]

end

/-- The record that a started stand reads at window offset 0 of the frame. -/
theorem started_record (S : Stand) (depth : Nat) (T : Task) (t f entry now : Nat) :
    (S.started depth T t f entry now).rd f 0 256 = startRecord T f := by
  have hread := memReadN_writeN S.deck (winAt depth f + 0) (startRecord T f)
  rwa [startRecord_length] at hread

/-- Settles O30: the next ready frame is found in frame order, and the chip arbiter chooses the only task there is. -/
theorem framesSwitchAndTasksStart : Obligations.FramesSwitchAndTasksStart := by
  refine ⟨fun s st k G hst hk => ⟨?idle, ?held⟩, ?place⟩
  case idle =>
    intro hidle hframe hready hheld
    exact (withUnit_there (decide_eq_true hst)).trans (congrArg _ (frameSwitch_idle hk hidle hframe hready hheld))
  case held =>
    intro f F hrunning _ hcur hbound hwait hother hframe hready hheld
    exact (withUnit_there (decide_eq_true hst)).trans (congrArg _ (frameSwitch_held hk hrunning hcur hbound hwait hother hframe hready hheld))
  case place =>
    intro s t st f T im hlayers hopen hready hstand hf hfree hlow himage hentry
    obtain ⟨arb, subs, aged, hplace⟩ := taskPlace_single hlayers hopen hready hstand
    obtain ⟨hS, htasks, hmem, hsent⟩ := chosen_same s arb subs aged st
    rw [dispatchTask_starts hf (by rw [hS]; exact hfree) (by rw [hS]; exact hlow) (by rw [hS]; exact himage) hentry, hS, htasks] at hplace
    have htag : jobTagOf T f = T.kind % 16 * 2 ^ 28 + f * 2 ^ 26 + T.flow % 2 ^ 26 := by rw [jobTagOf, Nat.mod_eq_of_lt hf]
    refine ⟨_, startFrame T t f (im.entries.getD T.kind 0), congrArg (nextOf s) hplace, ?_, rfl, htag, rfl, startFrame_scalar T t f _, fun _ => rfl,
      startFrame_predicate T t f _, fun _ _ => rfl, rfl, rfl, rfl, ?_, ?_, ?_, ?_, ?_⟩
    · rw [keepQueue_stand, State.stand_setStand_same]
      exact amGet_set_same ..
    · rw [keepQueue_stand, State.stand_setStand_same, started_record]
      exact startRecord_tag T f
    · rw [keepQueue_stand, State.stand_setStand_same, started_record, startRecord_frame T f hf]
    · rw [keepQueue_xch, State.setStand_xch]
      exact amGet_set_same ..
    · rw [keepQueue_mem, State.setStand_mem]
      exact hmem
    · rw [keepQueue_sent, State.setStand_sent]
      exact hsent

end Sys2Proof.Machine
end

section
/-! PROOFS. Scalar, address and predicate operations of slot C (R247, R270 to R272): the exact integer that each row names, modulo two to the width of its register, is the bit vector that the model writes. -/

namespace Sys2Proof.Machine

/-! ### Bit vectors as integers modulo two to their width (R270) -/

section
variable {n : Nat} (x y : BitVec n)

theorem ofNat_toNat_self : BitVec.ofNat n x.toNat = x := by rw [BitVec.ofNat_toNat, BitVec.setWidth_eq]

theorem ofInt_toNat : BitVec.ofInt n x.toNat = x := by rw [BitVec.ofInt_natCast, ofNat_toNat_self]

theorem ofInt_toNat_add (i : Int) : BitVec.ofInt n (x.toNat + i) = x + BitVec.ofInt n i := by rw [BitVec.ofInt_add, ofInt_toNat]

theorem ofInt_toNat_sub : BitVec.ofInt n (x.toNat - y.toNat) = x - y := by
  rw [Int.sub_eq_add_neg, ofInt_toNat_add, BitVec.ofInt_neg, ofInt_toNat, BitVec.sub_eq_add_neg]

theorem ofInt_toNat_mul : BitVec.ofInt n (x.toNat * y.toNat) = x * y := by rw [BitVec.ofInt_mul, ofInt_toNat, ofInt_toNat]

theorem ofInt_toNat_and : BitVec.ofInt n (x.toNat &&& y.toNat : Nat) = x &&& y := by
  rw [BitVec.ofInt_natCast, BitVec.ofNat_and, ofNat_toNat_self, ofNat_toNat_self]

theorem ofInt_toNat_or : BitVec.ofInt n (x.toNat ||| y.toNat : Nat) = x ||| y := by
  rw [BitVec.ofInt_natCast, BitVec.ofNat_or, ofNat_toNat_self, ofNat_toNat_self]

theorem ofInt_toNat_xor : BitVec.ofInt n (x.toNat ^^^ y.toNat : Nat) = x ^^^ y := by
  rw [BitVec.ofInt_natCast, BitVec.ofNat_xor, ofNat_toNat_self, ofNat_toNat_self]

theorem ofInt_toNat_mul_two_pow (k : Nat) : BitVec.ofInt n (x.toNat * 2 ^ k) = x <<< k := by
  apply BitVec.eq_of_toNat_eq
  rw [← Nat.cast_ofNat, ← Nat.cast_pow, ← Nat.cast_mul, BitVec.ofInt_natCast, BitVec.toNat_ofNat, BitVec.toNat_shiftLeft, Nat.shiftLeft_eq]

theorem ofInt_toNat_div_two_pow (k : Nat) : BitVec.ofInt n (x.toNat / 2 ^ k) = x >>> k := by
  apply BitVec.eq_of_toNat_eq
  have hlt : x.toNat / 2 ^ k < 2 ^ n := (Nat.div_le_self ..).trans_lt x.isLt
  rw [← Nat.cast_ofNat, ← Nat.cast_pow, ← Int.natCast_div, BitVec.ofInt_natCast, BitVec.toNat_ofNat, Nat.mod_eq_of_lt hlt, BitVec.toNat_ushiftRight,
    Nat.shiftRight_eq_div_pow]

theorem ofInt_toInt_div_two_pow (k : Nat) : BitVec.ofInt n (x.toInt / 2 ^ k) = x.sshiftRight k := by
  rw [BitVec.sshiftRight_eq, Int.shiftRight_eq_div_pow, Nat.cast_pow, Nat.cast_ofNat]

theorem ofInt_min_toInt : BitVec.ofInt n (Min.min x.toInt y.toInt) = if y.slt x then y else x := by
  rw [BitVec.slt_eq_decide, min_comm, min_def_lt]
  simp only [decide_eq_true_eq, apply_ite (BitVec.ofInt n), BitVec.ofInt_toInt]

theorem ofInt_max_toInt : BitVec.ofInt n (Max.max x.toInt y.toInt) = if x.slt y then y else x := by
  rw [BitVec.slt_eq_decide, max_def_lt]
  simp only [decide_eq_true_eq, apply_ite (BitVec.ofInt n), BitVec.ofInt_toInt]

theorem ofInt_min_toNat : BitVec.ofInt n (Min.min (x.toNat : Int) y.toNat) = if y.ult x then y else x := by
  rw [BitVec.ult_eq_decide, min_comm, min_def_lt]
  simp only [decide_eq_true_eq, apply_ite (BitVec.ofInt n), ofInt_toNat, Nat.cast_lt]

theorem ofInt_max_toNat : BitVec.ofInt n (Max.max (x.toNat : Int) y.toNat) = if x.ult y then y else x := by
  rw [BitVec.ult_eq_decide, max_def_lt]
  simp only [decide_eq_true_eq, apply_ite (BitVec.ofInt n), ofInt_toNat, Nat.cast_lt]

theorem ofInt_toNat_setWidth (m : Nat) : BitVec.ofInt m x.toNat = x.setWidth m := by rw [BitVec.ofInt_natCast, BitVec.ofNat_toNat]

end

/-- A number whose low k bits are free takes a number of k bits there. -/
theorem ofInt_toNat_append {n k i : Nat} (x : BitVec n) (hi : i < 2 ^ k) :
    BitVec.ofInt n (x.toNat * 2 ^ k + i : Nat) = x <<< k ||| BitVec.ofNat n i := by
  rw [BitVec.ofInt_natCast, ← Nat.shiftLeft_eq, Nat.shiftLeft_add_eq_or_of_lt hi, BitVec.ofNat_or]
  congr 1

theorem toInt_ofNat_eq_sx {n v : Nat} (hn : 0 < n) (hv : v < 2 ^ n) : (BitVec.ofNat n v).toInt = sx n v := by
  obtain ⟨n, rfl⟩ := Nat.exists_eq_succ_of_ne_zero hn.ne'
  have hpow : 2 ^ (n + 1) = 2 * 2 ^ n := Nat.pow_succ'
  simp only [BitVec.toInt_eq_toNat_cond, BitVec.toNat_ofNat, Nat.mod_eq_of_lt hv, sx, Nat.succ_eq_add_one, Nat.add_sub_cancel]
  by_cases hsign : v < 2 ^ n
  · rw [if_pos (by omega), if_pos hsign]
  · rw [if_neg (by omega), if_neg hsign, Nat.cast_pow, Nat.cast_ofNat]

theorem ofInt_sx {n m v : Nat} (hn : 0 < n) (hv : v < 2 ^ n) : BitVec.ofInt m (sx n v) = (BitVec.ofNat n v).signExtend m := by
  rw [← toInt_ofNat_eq_sx hn hv]; rfl

/-! ### Immediates and shift amounts (R270, R271) -/

theorem toInt_immS (w : Nat) : (immS w).toInt = sx 16 (bits w 0 16) := by
  rw [immS, BitVec.toInt_signExtend_of_le (by decide), toInt_ofNat_eq_sx (by decide) (bits_lt ..)]

theorem ofInt_imm16 (w : Nat) : BitVec.ofInt 64 (sx 16 (bits w 0 16)) = immS w := ofInt_sx (by decide) (bits_lt ..)
theorem ofInt_imm24 (w : Nat) : BitVec.ofInt 64 (sx 24 (bits w 0 24)) = imm24 w := ofInt_sx (by decide) (bits_lt ..)

theorem setWidth_ofInt {m n : Nat} (h : m ≤ n) (i : Int) : (BitVec.ofInt n i).setWidth m = BitVec.ofInt m i := by
  have hpos : ((2 ^ n : Nat) : Int) ≠ 0 := by positivity
  have hdvd : ((2 ^ m : Nat) : Int) ∣ ((2 ^ n : Nat) : Int) := Int.natCast_dvd_natCast.mpr (Nat.pow_dvd_pow 2 h)
  rw [← ofInt_toNat_setWidth, BitVec.toNat_ofInt, Int.toNat_of_nonneg (Int.emod_nonneg i hpos)]
  apply BitVec.eq_of_toNat_eq
  rw [BitVec.toNat_ofInt, BitVec.toNat_ofInt, Int.emod_emod_of_dvd i hdvd]

theorem immZ_toNat (w : Nat) : (immZ w).toNat = bits w 0 16 := by
  rw [immZ, BitVec.toNat_ofNat, Nat.mod_eq_of_lt ((bits_lt w 0 16).trans (by decide))]

theorem sh6_immZ (w : Nat) : sh6 (immZ w) = bits w 0 6 := by
  rw [sh6, immZ_toNat]
  exact Nat.mod_mod_of_dvd _ (by decide)

/-! ### Operations with result sD (R271, R272) -/

/-- A command acts in slot k of the bundle by what it leaves in its frame alone. -/
def WritesSlot (k : Nat) (e : Nat → Instr) (o : Nat) (set : State → Frame → Nat → Frame) : Prop :=
  ∀ (st : Nat) (s : State), exec (e st) s = runAct st k o s fun s _ F w => .ok s (set s F w)

theorem WritesSlot.completes {k o : Nat} {e : Nat → Instr} {set : State → Frame → Nat → Frame} (hwrites : WritesSlot k e o set) {s : State}
    {st f b : Nat} {F : Frame} (hissues : slotIssues s st k o f F b = true) (hpred : predOf F b k = true) :
    exec (e st) s = goesOn s (slotDone s st f b (set s (F.ran k) (slotBits b k))) := by
  rw [hwrites, runAct_ok hissues hpred rfl rfl]

/-- Where a row's value is the one that its operation writes, the operation writes the row's value. -/
theorem writesSlot_of_value {α : Type} {k o : Nat} {e : Nat → Instr} (set : Frame → Nat → α → Frame) {v g : State → Frame → Nat → α}
    (hexec : WritesSlot k e o fun s F w => set F w (g s F w)) (hvalue : ∀ s F w, v s F w = g s F w) : WritesSlot k e o fun s F w => set F w (v s F w) := by
  simpa only [hvalue] using hexec

theorem scalarRegRows_write : ∀ e ∈ scalarRegRows, WritesSlot slotC e.1 e.2.1 fun s F w => F.setS (fD w) (BitVec.ofInt 64 (e.2.2 s F w)) := by
  simp only [scalarRegRows, List.forall_mem_cons, List.not_mem_nil, false_implies, implies_true, and_true]
  refine ⟨?add, ?sub, ?and, ?or, ?xor, ?shl, ?shr, ?sar, ?mul, ?min, ?max, ?minu, ?maxu⟩ <;>
    refine writesSlot_of_value (fun F w => F.setS (fD w)) (fun _ _ => rfl) fun _ _ _ => ?_
  case add => rw [ofInt_toNat_add, ofInt_toNat]
  case sub => exact ofInt_toNat_sub ..
  case and => exact ofInt_toNat_and ..
  case or => exact ofInt_toNat_or ..
  case xor => exact ofInt_toNat_xor ..
  case shl => exact ofInt_toNat_mul_two_pow ..
  case shr => exact ofInt_toNat_div_two_pow ..
  case sar => exact ofInt_toInt_div_two_pow ..
  case mul => exact ofInt_toNat_mul ..
  case min => exact ofInt_min_toInt ..
  case max => exact ofInt_max_toInt ..
  case minu => exact ofInt_min_toNat ..
  case maxu => exact ofInt_max_toNat ..

theorem scalarImmRows_write : ∀ e ∈ scalarImmRows, WritesSlot slotC e.1 e.2.1 fun s F w => F.setS (fD w) (BitVec.ofInt 64 (e.2.2 s F w)) := by
  simp only [scalarImmRows, List.forall_mem_cons, List.not_mem_nil, false_implies, implies_true, and_true]
  refine ⟨?addi, ?andi, ?ori, ?xori, ?shli, ?shri, ?sari, ?li, ?lsh, ?movs, ?rdtime⟩ <;>
    refine writesSlot_of_value (fun F w => F.setS (fD w)) (fun _ _ => rfl) fun _ _ _ => ?_
  case addi => rw [ofInt_toNat_add, ofInt_imm16]
  case andi => rw [← immZ_toNat, ofInt_toNat_and]
  case ori => rw [← immZ_toNat, ofInt_toNat_or]
  case xori => rw [← immZ_toNat, ofInt_toNat_xor]
  case shli => rw [← sh6_immZ, ofInt_toNat_mul_two_pow]
  case shri => rw [← sh6_immZ, ofInt_toNat_div_two_pow]
  case sari => rw [← sh6_immZ, ofInt_toInt_div_two_pow]
  case li => exact ofInt_imm24 ..
  case lsh => exact ofInt_toNat_append _ (bits_lt ..)
  case movs => exact ofInt_toNat_setWidth ..
  case rdtime => exact BitVec.ofInt_natCast ..

/-- The result of a row is one of registers that the bundle's other slots have not changed (R248, R283). -/
theorem scalarRow_ran : ∀ e ∈ scalarRows, ∀ (s : State) (F : Frame) (k w : Nat), e.2.2 s (F.ran k) w = e.2.2 s F w := by
  simp only [scalarRows, scalarRegRows, scalarImmRows, List.forall_mem_append, List.forall_mem_cons, List.not_mem_nil, false_implies, implies_true, true_and, and_true]
  and_intros <;> exact fun _ _ _ _ => rfl

/-- Settles O21: each row's exact integer modulo 2^64 is the bit vector that its operation writes. -/
theorem scalarOperationsCompute : Obligations.ScalarOperationsCompute := by
  intro e he s st f b F hissues hpred
  have hwrites := (List.forall_mem_append.mpr ⟨scalarRegRows_write, scalarImmRows_write⟩) e he
  rw [hwrites.completes hissues hpred, scalarRow_ran e he]
  rfl

/-! ### Operations with result aD or pD (R268, R271, R272) -/

theorem ofInt_imm24_low (w : Nat) : BitVec.ofInt 32 (sx 24 (bits w 0 24)) = (imm24 w).setWidth 32 := by
  rw [← ofInt_imm24, setWidth_ofInt (by decide)]

theorem ofInt_imm16_low (w : Nat) : BitVec.ofInt 32 (sx 16 (bits w 0 16)) = (immS w).setWidth 32 := by
  rw [← ofInt_imm16, setWidth_ofInt (by decide)]

theorem addressRows_write : ∀ e ∈ addressRows, WritesSlot slotC e.1 e.2.1 fun _ F w => F.setA (fD w) (BitVec.ofInt 32 (e.2.2 F w)) := by
  simp only [addressRows, List.forall_mem_cons, List.not_mem_nil, false_implies, implies_true, and_true]
  refine ⟨?liA, ?adda, ?mova⟩ <;>
    refine writesSlot_of_value (fun F w => F.setA (fD w)) (fun _ _ => rfl) fun _ _ _ => ?_
  case liA => exact ofInt_imm24_low ..
  case adda => rw [ofInt_toNat_add, ofInt_imm16_low]
  case mova => exact ofInt_toNat_setWidth ..

section
variable {n : Nat} (x y : BitVec n)

theorem decide_toNat_eq : decide (x.toNat = y.toNat) = (x == y) := decide_eq_decide.mpr BitVec.toNat_inj
theorem decide_toNat_ne : decide (x.toNat ≠ y.toNat) = (x != y) := by rw [bne, ← decide_toNat_eq, decide_not]
theorem decide_toInt_eq : decide (x.toInt = y.toInt) = (x == y) := decide_eq_decide.mpr BitVec.toInt_inj
theorem decide_toInt_ne : decide (x.toInt ≠ y.toInt) = (x != y) := by rw [bne, ← decide_toInt_eq, decide_not]
theorem decide_toInt_le : decide (y.toInt ≤ x.toInt) = !x.slt y := by
  rw [BitVec.slt_eq_decide, ← decide_not]
  exact decide_eq_decide.mpr Int.not_lt.symm
theorem decide_toNat_le : decide (y.toNat ≤ x.toNat) = !x.ult y := by
  rw [BitVec.ult_eq_decide, ← decide_not]
  exact decide_eq_decide.mpr Nat.not_lt.symm

end

theorem predicateRows_write : ∀ e ∈ predicateRows, WritesSlot slotC e.1 e.2.1 fun _ F w => F.setP (fPD w) (e.2.2 F w) := by
  simp only [predicateRows, List.forall_mem_cons, List.not_mem_nil, false_implies, implies_true, and_true]
  refine ⟨?eq, ?ne, ?lt, ?ge, ?ltu, ?geu, ?eqi, ?nei, ?lti, ?gei, ?and, ?or, ?andn, ?xor⟩ <;>
    refine writesSlot_of_value (fun F w => F.setP (fPD w)) (fun _ _ => rfl) fun _ _ _ => ?_
  case eq => exact decide_toNat_eq ..
  case ne => exact decide_toNat_ne ..
  case lt => exact BitVec.slt_eq_decide.symm
  case ge => exact decide_toInt_le ..
  case ltu => exact BitVec.ult_eq_decide.symm
  case geu => exact decide_toNat_le ..
  case eqi => rw [← toInt_immS, decide_toInt_eq]
  case nei => rw [← toInt_immS, decide_toInt_ne]
  case lti =>
    rw [← toInt_immS]
    exact BitVec.slt_eq_decide.symm
  case gei => rw [← toInt_immS, decide_toInt_le]
  all_goals rfl

theorem addressRow_ran : ∀ e ∈ addressRows, ∀ (F : Frame) (k w : Nat), e.2.2 (F.ran k) w = e.2.2 F w := by
  simp only [addressRows, List.forall_mem_cons, List.not_mem_nil, false_implies, implies_true, true_and, and_true]
  and_intros <;> exact fun _ _ _ => rfl

theorem predicateRow_ran : ∀ e ∈ predicateRows, ∀ (F : Frame) (k w : Nat), e.2.2 (F.ran k) w = e.2.2 F w := by
  simp only [predicateRows, List.forall_mem_cons, List.not_mem_nil, false_implies, implies_true, and_true]
  and_intros <;> exact fun _ _ _ => rfl

/-- Settles O22: each address row's integer modulo 2^32, and each predicate row's Boolean, is what its operation writes. -/
theorem addressAndPredicateOperationsCompute : Obligations.AddressAndPredicateOperationsCompute := by
  refine ⟨fun e he s st f b F hissues hpred => ?address, fun e he s st f b F hissues hpred => ?predicate⟩
  case address =>
    rw [(addressRows_write e he).completes hissues hpred, addressRow_ran e he]
    rfl
  case predicate =>
    rw [(predicateRows_write e he).completes hissues hpred, predicateRow_ran e he]
    rfl

end Sys2Proof.Machine
end

section
/-! PROOFS. Deck loads and stores (R242, R243, R271 to R274, R281, R283): the addresses of the access formats, the number that a load reads, and the bytes that a store records. -/

namespace Sys2Proof.Machine

/-! ### Bytes read and stored (R6, R7) -/

theorem memReadN_length (m : Memory) (a n : Nat) : (memReadN m a n).length = n := by
  induction n generalizing a with
  | zero => rfl
  | succ n ih => rw [memReadN, List.length_cons, ih]

theorem leNat_lt (l : List Byte) : leNat l < 256 ^ l.length := by
  induction l with
  | nil => exact Nat.one_pos
  | cons b l ih =>
    have hb := b.isLt
    rw [leNat, List.length_cons, Nat.pow_succ']
    omega

/-- A store of n bytes takes the low n bytes of its number. -/
theorem leBytes_mod (n x : Nat) : leBytes n (x % 256 ^ n) = leBytes n x := by
  induction n generalizing x with
  | zero => rfl
  | succ n ih =>
    rw [leBytes, leBytes, Nat.pow_succ', Nat.mod_mul_right_div_self, ih]
    congr 1
    apply BitVec.eq_of_toNat_eq
    rw [BitVec.toNat_ofNat, BitVec.toNat_ofNat, Nat.mod_mul_right_mod]

/-! ### Addresses (R270, R272) -/

theorem memAddr_eq (F : Frame) (w : Nat) : memAddr F w = cmAddr F w := by
  rw [memAddr, cmAddr, ← ofInt_imm16_low, ← ofInt_toNat_add, BitVec.toNat_ofInt]
  rfl

theorem toNat_add_ofNat (x : Word32) (i : Nat) : (x + BitVec.ofNat 32 i).toNat = (x.toNat + i) % 2 ^ 32 := by
  rw [BitVec.toNat_add, BitVec.toNat_ofNat, Nat.add_mod_mod]

theorem stiAddr_eq (F : Frame) (w : Nat) : stiAddr F w = csiAddr F w := toNat_add_ofNat ..

theorem vecAddr_eq (F : Frame) (w unit : Nat) : vecAddr F w unit = ((F.a (vA w)).toNat + unit * vOff w) % 2 ^ 32 := toNat_add_ofNat ..

/-! ### An access within the window, and one that is not (R243, R273, R283) -/

section
variable {s : State} {st k a : Nat} {F : Frame} {l : List Byte}

theorem storeAt_usable (h : Usable (s.stand st).depth a l.length) : storeAt s st k F a l = .ok s { F with stores := F.stores ++ [(k, a, l)] } := by
  rw [storeAt, if_pos (deckOk_iff.mpr h)]

theorem storeAt_fault (h : ¬ Usable (s.stand st).depth a l.length) : storeAt s st k F a l = .fault Detail.STD_WINDOW := by
  rw [storeAt, if_neg (mt deckOk_iff.mp h)]

end

section
variable {s : State} {st k o f b : Nat} {F : Frame} {act : State → Nat → Frame → Nat → SlotEnd}
  (hissues : slotIssues s st k o f F b = true) (hpred : predOf F b k = true)
include hissues hpred

/-- A slot that stores bytes records them where their range may be used, and is a program fault elsewhere. -/
theorem runAct_store {a n : Nat} {l : List Byte} (hlen : l.length = n) (hact : act s f (F.ran k) (slotBits b k) = storeAt s st k (F.ran k) a l) :
    (Usable (s.stand st).depth a n → runAct st k o s act = goesOn s (slotDone s st f b { F.ran k with stores := F.stores ++ [(k, a, l)] }))
    ∧ (¬ Usable (s.stand st).depth a n → runAct st k o s act = goesOn s (progFault s st f Detail.STD_WINDOW F.pc)) := by
  subst hlen
  exact ⟨fun h => runAct_ok hissues hpred (hact.trans (storeAt_usable h)) rfl, fun h => runAct_fault hissues hpred (hact.trans (storeAt_fault h))⟩

/-- A slot that reads a range leaves its frame's result where the range may be used, and is a program fault elsewhere. -/
theorem runAct_read {a n : Nat} {G : Frame} (hact : act s f (F.ran k) (slotBits b k) = if deckOk s st a n then .ok s G else .fault Detail.STD_WINDOW) :
    (Usable (s.stand st).depth a n → runAct st k o s act = goesOn s (slotDone s st f b G))
    ∧ (¬ Usable (s.stand st).depth a n → runAct st k o s act = goesOn s (progFault s st f Detail.STD_WINDOW F.pc)) :=
  ⟨fun h => runAct_ok hissues hpred (hact.trans (if_pos (deckOk_iff.mpr h))) rfl,
    fun h => runAct_fault hissues hpred (hact.trans (if_neg (mt deckOk_iff.mp h)))⟩

end

/-! ### Loads of slot C (R271, R273) -/

/-- Each load extends the number it reads as its row gives. -/
theorem loadRows_load : ∀ e ∈ loadRows, ∃ ext : Nat → Word64, (∀ st s, exec (e.1 st) s = runAct st slotC e.2.1 s (loadAct st e.2.2.1 ext))
    ∧ ∀ x, x < 256 ^ e.2.2.1 → ext x = BitVec.ofInt 64 (e.2.2.2 x) := by
  simp only [loadRows, List.forall_mem_cons, List.not_mem_nil, false_implies, implies_true, and_true]
  refine ⟨?ldB, ?ldH, ?ldW, ?ldD, ?ldWs⟩
  case ldWs => exact ⟨_, fun _ _ => rfl, fun _ hx => (ofInt_sx (by decide) hx).symm⟩
  all_goals exact ⟨_, fun _ _ => rfl, fun _ _ => (BitVec.ofInt_natCast ..).symm⟩

theorem loadAct_eq (s : State) (st f n w : Nat) (F : Frame) (ext : Nat → Word64) :
    loadAct st n ext s f (F.ran slotC) w = if deckOk s st (cmAddr F w) n then
      .ok s ((F.ran slotC).setS (fD w) (ext (leNat (memReadN (s.stand st).deck (winAt (s.stand st).depth f + cmAddr F w) n)))) else .fault Detail.STD_WINDOW := by
  simp only [loadAct, memAddr_eq, Stand.rd]
  rfl

/-! ### Stores of slot C (R271, R273, R283) -/

/-- Each store of slot C takes its row's address and the little-endian bytes of its row's value. -/
theorem storeRows_store : ∀ e ∈ storeRows, ∃ act : Nat → State → Nat → Frame → Nat → SlotEnd,
    (∀ st s, exec (e.1 st) s = runAct st slotC e.2.1 s (act st))
    ∧ ∀ st s f F w, act st s f F w = storeAt s st slotC F (e.2.2.1 F w) (leBytes e.2.2.2.1 (e.2.2.2.2 F w)) := by
  simp only [storeRows, List.forall_mem_cons, List.not_mem_nil, false_implies, implies_true, and_true]
  refine ⟨?stB, ?stH, ?stW, ?stD, ?stiB, ?stiH, ?stiW⟩ <;> refine ⟨_, fun _ _ => rfl, fun _ _ _ F w => ?_⟩
  case stB =>
    rw [storeAct, memAddr_eq]
    exact congrArg _ (leBytes_mod 1 _).symm
  case stH =>
    rw [storeAct, memAddr_eq]
    exact congrArg _ (leBytes_mod 2 _).symm
  case stW =>
    rw [storeAct, memAddr_eq]
    exact congrArg _ (leBytes_mod 4 _).symm
  case stD => rw [storeAct, memAddr_eq]
  case stiB =>
    have hlow : bits w 0 16 % 256 ^ 1 = bits w 0 8 := Nat.mod_mod_of_dvd _ (by decide)
    rw [stiAct, stiAddr_eq, ← leBytes_mod, hlow]
  case stiH => rw [stiAct, stiAddr_eq]
  case stiW => rw [stiAct, stiAddr_eq]

/-- A store takes registers that the bundle's other slots have not changed (R248, R283). -/
theorem storeRow_ran : ∀ e ∈ storeRows, ∀ (F : Frame) (k w : Nat), e.2.2.1 (F.ran k) w = e.2.2.1 F w ∧ e.2.2.2.2 (F.ran k) w = e.2.2.2.2 F w := by
  intro e he F k w
  simp only [storeRows, List.mem_cons, List.not_mem_nil, or_false] at he
  rcases he with rfl | rfl | rfl | rfl | rfl | rfl | rfl <;> exact ⟨rfl, rfl⟩

/-! ### DCPY (R274) -/

/-- The source address and the bytes of a DCPY. -/
def dcpySrc (F : Frame) (w : Nat) : Nat := ((F.a (bits w 22 4)).toNat + bits w 8 14) % 2 ^ 32
def dcpyLen (w : Nat) : Nat := 8 * (bits w 0 8 + 1)

section
variable {s : State} {st f w : Nat} {F : Frame}

theorem dcpyAct_eq (hsrc : Usable (s.stand st).depth (dcpySrc F w) (dcpyLen w)) :
    dcpyAct st s f F w = storeAt s st slotC F (F.a (bits w 26 4)).toNat
      (memReadN (s.stand st).deck (winAt (s.stand st).depth f + dcpySrc F w) (dcpyLen w)) := by
  rw [← deckOk_iff, dcpySrc, dcpyLen] at hsrc
  simp only [dcpyAct, toNat_add_ofNat, hsrc, if_true, Stand.rd, dcpySrc, dcpyLen]

theorem dcpyAct_fault (hsrc : ¬ Usable (s.stand st).depth (dcpySrc F w) (dcpyLen w)) :
    dcpyAct st s f F w = .fault Detail.STD_WINDOW := by
  rw [← deckOk_iff, dcpySrc, dcpyLen] at hsrc
  simp only [dcpyAct, toNat_add_ofNat, hsrc, if_false, Bool.false_eq_true]

end

/-! ### Loads and stores of slot V (R272, R273, R281) -/

section
variable (s : State) (st f w : Nat) (F : Frame)

theorem vldAct_fp32 :
    vldAct st 4 s f F w = if deckOk s st (((F.a (vA w)).toNat + 256 * vOff w) % 2 ^ 32) 256 then
      .ok s (F.setV (vD w) fun i => BitVec.ofNat 32
        (leField (memReadN (s.stand st).deck (winAt (s.stand st).depth f + ((F.a (vA w)).toNat + 256 * vOff w) % 2 ^ 32) 256) (4 * i) 4))
      else .fault Detail.STD_WINDOW := by
  simp only [vldAct, vecAddr_eq, Stand.rd, Nat.reduceMul, Nat.reduceEqDiff, if_false, Nat.mul_one]

theorem vldAct_bf16 :
    vldAct st 2 s f F w = if deckOk s st (((F.a (vA w)).toNat + 128 * vOff w) % 2 ^ 32) 128 then
      .ok s (F.setV (vD w) fun i => BitVec.ofNat 32
        (leField (memReadN (s.stand st).deck (winAt (s.stand st).depth f + ((F.a (vA w)).toNat + 128 * vOff w) % 2 ^ 32) 128) (2 * i) 2 * 2 ^ 16))
      else .fault Detail.STD_WINDOW := by
  simp only [vldAct, vecAddr_eq, Stand.rd, Nat.reduceMul, if_true]

theorem vstAct_fp32 :
    vstAct st 4 s f F w = storeAt s st slotV F (((F.a (vA w)).toNat + 256 * vOff w) % 2 ^ 32)
      ((List.range 64).flatMap fun i => leBytes 4 (F.v (vD w) i).toNat) := by
  simp only [vstAct, vecAddr_eq, Nat.reduceMul, Nat.reduceEqDiff, if_false]

theorem vstAct_bf16 :
    vstAct st 2 s f F w = storeAt s st slotV F (((F.a (vA w)).toNat + 128 * vOff w) % 2 ^ 32)
      ((List.range 64).flatMap fun i => leBytes 2 (FV.of32 (F.v (vD w) i).toNat).to16) := by
  simp only [vstAct, vecAddr_eq, Nat.reduceMul, if_true, Frame.fv]

end

/-- Settles O24: each access reads or records the bytes of its address where `Usable` holds of it, and is a program fault elsewhere. -/
theorem deckLoadsAndStores : Obligations.DeckLoadsAndStores := by
  refine ⟨?loads, ?stores, ?dcpy, ?vector⟩
  case loads =>
    intro e he s st f b F hissues hpred
    obtain ⟨ext, hexec, hext⟩ := loadRows_load e he
    have hlt := leNat_lt (memReadN (s.stand st).deck (winAt (s.stand st).depth f + cmAddr F (slotBits b slotC)) e.2.2.1)
    rw [memReadN_length] at hlt
    dsimp only
    rw [hexec, ← hext _ hlt]
    exact runAct_read hissues hpred (loadAct_eq ..)
  case stores =>
    intro e he s st f b F hissues hpred
    obtain ⟨act, hexec, hact⟩ := storeRows_store e he
    obtain ⟨haddr, hvalue⟩ := storeRow_ran e he F slotC (slotBits b slotC)
    dsimp only
    rw [hexec, ← haddr, ← hvalue]
    exact runAct_store hissues hpred (leBytes_length ..) (hact ..)
  case dcpy =>
    intro s st f b F hissues hpred
    dsimp only
    refine ⟨fun hsrc => (runAct_store hissues hpred (memReadN_length ..) (dcpyAct_eq (F := F.ran slotC) hsrc)).1, fun hout => ?_⟩
    by_cases hsrc : Usable (s.stand st).depth (dcpySrc F (slotBits b slotC)) (dcpyLen (slotBits b slotC))
    · exact (runAct_store hissues hpred (memReadN_length ..) (dcpyAct_eq (F := F.ran slotC) hsrc)).2 fun hdst => hout ⟨hsrc, hdst⟩
    · exact runAct_fault hissues hpred (dcpyAct_fault (F := F.ran slotC) hsrc)
  case vector =>
    intro s st f b F hpred
    have hload (hissues : slotIssues s st slotV 0x10 f F b = true) := runAct_read hissues hpred (vldAct_fp32 s st f (slotBits b slotV) (F.ran slotV))
    have hstore (hissues : slotIssues s st slotV 0x11 f F b = true) :=
      runAct_store hissues hpred (rows_length (fun _ => leBytes_length ..) 64) (vstAct_fp32 s st f (slotBits b slotV) (F.ran slotV))
    exact ⟨fun hissues => (hload hissues).1, fun hissues => (hstore hissues).1,
      fun hout => ⟨fun hissues => (hload hissues).2 hout, fun hissues => (hstore hissues).2 hout⟩⟩

end Sys2Proof.Machine
end

section
/-! PROOFS. Branches, HALT, waits and whole bundles (R252, R256, R267, R275, R284 to R286): where a branch goes, what a wait finds by the count of commands issued, a bundle of no-ops, and one that is not legal. -/

namespace Sys2Proof.Machine

/-! ### Branches and HALT (R256, R271, R275) -/

theorem exec_br : WritesSlot slotC Instr.br 0x60 fun _ F w => branch (fun _ => true) F w := fun _ _ => rfl
theorem exec_bz : WritesSlot slotC Instr.bz 0x61 fun _ F w => branch (fun x => x == 0) F w := fun _ _ => rfl
theorem exec_bnz : WritesSlot slotC Instr.bnz 0x62 fun _ F w => branch (fun x => x != 0) F w := fun _ _ => rfl

theorem exec_halt : WritesSlot slotC Instr.halt 0x64 fun _ F w =>
    { F with halted := some ((F.s (fS1 w)).toNat % 256, (F.s (fS1 w)).toNat / 256 % 256) } := by
  intro st s
  have hdetail : ∀ x, x / 256 % 256 = bits x 8 8 := fun x => congrArg (· % 256) (Nat.shiftRight_eq_div_pow x 8).symm
  simp only [hdetail]
  rfl

/-! ### Waits (R252, R286) -/

section
variable {F : Frame} {e : Engine} {t : Nat}

theorem waitFor_zero : waitFor F e 0 = .pass 0 := by rw [waitFor]; exact if_pos rfl

section
variable (hcount : F.count e < 65535)
include hcount

theorem waitFor_unissued (ht : F.count e < t) : waitFor F e t = .unissued := by
  simp only [waitFor, if_neg (Nat.ne_zero_of_lt ht), if_pos (And.intro hcount ht)]

/-- Before the ticket numbers begin again, the age of an issued ticket is how many commands have been issued after it. -/
theorem ticket_age (hlow : 1 ≤ t) (ht : t ≤ F.count e) : (ticketOf (F.count e) + 65535 - t) % 65535 = F.count e - t := by
  rw [ticketOf, if_neg (by omega)]
  omega

theorem waitFor_stale (hlow : 1 ≤ t) (hold : t + 64 < F.count e) : waitFor F e t = .pass Status.stale.code := by
  have hage := ticket_age hcount hlow (by omega)
  simp only [waitFor, hage, if_neg (Nat.ne_zero_of_lt hlow), if_neg (show ¬(F.count e < 65535 ∧ F.count e < t) by omega),
    if_pos (show 64 < F.count e - t by omega)]

theorem waitFor_done {c d : Nat} (hlow : 1 ≤ t) (ht : t ≤ F.count e) (hnew : F.count e ≤ t + 64) (hdone : amGet (doneKey e t) F.done = some (c, d)) :
    waitFor F e t = .pass (c + 256 * d) := by
  have hage := ticket_age hcount hlow ht
  simp only [waitFor, hage, hdone, if_neg (Nat.ne_zero_of_lt hlow), if_neg (show ¬(F.count e < 65535 ∧ F.count e < t) by omega),
    if_neg (show ¬ 64 < F.count e - t by omega)]

end

end

/-- The frame by which a wait of the bundle goes: what it had issued before the bundle (R283). -/
def Frame.waiting (F : Frame) : Frame := { F.ran slotC with issued := (F.ran slotC).before }

theorem waiting_issued (F : Frame) : F.waiting.issued = if F.slotsRun = [] then F.issued else F.before := by
  simp only [Frame.waiting, Frame.ran, List.isEmpty_iff]

theorem waiting_wait (F : Frame) (e : Engine) (w : Nat) :
    waitFor { F.ran slotC with issued := (F.ran slotC).before } e (bits ((F.ran slotC).s (fS1 w)).toNat 0 16) =
      waitFor F.waiting e ((F.s (fS1 w)).toNat % 65536) := rfl

section
variable {s : State} {st f b o : Nat} {F : Frame} {e : Engine} (hissues : slotIssues s st slotC o f F b = true) (hpred : predOf F b slotC = true)
include hissues hpred

theorem waitAct_passes {v : Nat} (hwait : waitFor F.waiting e ((F.s (fS1 (slotBits b slotC))).toNat % 65536) = .pass v) :
    runAct st slotC o s (waitAct e) = goesOn s (slotDone s st f b ((F.ran slotC).setS (fD (slotBits b slotC)) (BitVec.ofNat 64 v))) := by
  exact runAct_ok hissues hpred (by simp only [waitAct, waiting_wait, hwait]) rfl

theorem waitAct_faults (hwait : waitFor F.waiting e ((F.s (fS1 (slotBits b slotC))).toNat % 65536) = .unissued) :
    runAct st slotC o s (waitAct e) = goesOn s (progFault s st f Detail.STD_TICKET F.pc) := by
  exact runAct_fault hissues hpred (by simp only [waitAct, waiting_wait, hwait])

/-- A wait goes by how many commands of its engine the frame had issued before the bundle. -/
theorem wait_ends {i : Nat → Instr} {n : Nat} (hexec : exec (i st) s = runAct st slotC o s (waitAct e)) (hcount : F.waiting.count e = n) :
    let w := slotBits b slotC
    let t := (F.s (fS1 w)).toNat % 65536
    let ends (v : Nat) : Host.Outcome State Fault Refusal := goesOn s (slotDone s st f b ((F.ran slotC).setS (fD w) (BitVec.ofNat 64 v)))
    (t = 0 → exec (i st) s = ends 0)
    ∧ (n < 65535 → n < t → exec (i st) s = goesOn s (progFault s st f Detail.STD_TICKET F.pc))
    ∧ (n < 65535 → 1 ≤ t → t + 64 < n → exec (i st) s = ends Status.stale.code)
    ∧ (∀ c d, n < 65535 → 1 ≤ t → t ≤ n → n ≤ t + 64 → amGet (doneKey e t) F.done = some (c, d) → exec (i st) s = ends (c + 256 * d)) := by
  subst hcount
  dsimp only
  rw [hexec]
  refine ⟨fun hzero => ?_, fun hn ht => ?_, fun hn hlow hold => ?_, fun c d hn hlow ht hnew hdone => ?_⟩
  · exact waitAct_passes hissues hpred (by rw [hzero, waitFor_zero])
  · exact waitAct_faults hissues hpred (waitFor_unissued hn ht)
  · exact waitAct_passes hissues hpred (waitFor_stale hn hlow hold)
  · exact waitAct_passes hissues hpred (waitFor_done hn hlow ht hnew hdone)

end

/-! ### Bundles as a whole (R267, R275, R285) -/

section
variable {s : State} {st f b : Nat} {F : Frame} (hrunning : (s.stand st).running = some f) (hframe : amGet f (s.stand st).frames = some F)
  (hfence : standFenced s st = false) (hrun : F.halted = none) (hstay : F.withdrawing = false) (hbundle : bundleAt (s.stand st) F = some b)
include hrunning hframe hfence hrun hstay hbundle

theorem nopBundle_ends (hlegal : legalBundle b = true) (hidle : activeSlots b = []) : nopBundle s st = endBundle s st f F (codeLen s st) := by
  simp only [nopBundle, hrunning, hframe, Option.bind_some, Option.map_some, hbundle, hfence, hrun, hstay, hlegal, hidle, Option.isSome_none,
    List.isEmpty_nil, Bool.not_true, Bool.or_false, Bool.false_eq_true, if_false]
  rfl

theorem illegalBundle_faults (hbad : legalBundle b = false) : illegalBundle s st = progFault s st f Detail.STD_ILLEGAL F.pc := by
  simp only [illegalBundle, hrunning, hframe, Option.bind_some, Option.map_some, hbundle, hfence, hrun, hstay, hbad, Option.isSome_none,
    Bool.not_false, Bool.not_true, Bool.or_false, Bool.false_eq_true, if_false]

end

/-- Settles O25: a branch and HALT change the frame alone, a wait goes by what the frame had issued, and a bundle of no-ops or one that is not legal is taken as a whole. -/
theorem branchesHaltAndWaits : Obligations.BranchesHaltAndWaits := by
  intro s st f b F
  refine ⟨fun hpred => ⟨?br, ?bz, ?bnz, ?halt, ?waits⟩, fun hst hrunning hframe hfence hrun hstay => ⟨?nop, ?illegal⟩⟩
  case br => exact fun hissues => exec_br.completes hissues hpred
  case bz =>
    intro hissues
    rw [exec_bz.completes hissues hpred]
    simp only [branch, beq_iff_eq]
    rfl
  case bnz =>
    intro hissues
    rw [exec_bnz.completes hissues hpred]
    simp only [branch, bne_iff_ne, ne_eq, ite_not]
    rfl
  case halt => exact fun hissues => exec_halt.completes hissues hpred
  case waits =>
    simp only [← waiting_issued, List.forall_mem_cons, List.not_mem_nil, false_implies, implies_true, and_true]
    exact ⟨fun hissues => wait_ends hissues hpred rfl rfl, fun hissues => wait_ends hissues hpred rfl rfl, fun hissues => wait_ends hissues hpred rfl rfl⟩
  case nop =>
    intro hbundle hlegal hidle
    exact (withUnit_there (decide_eq_true hst)).trans (congrArg _ (nopBundle_ends hrunning hframe hfence hrun hstay hbundle hlegal hidle))
  case illegal =>
    intro hbundle hbad
    exact (withUnit_there (decide_eq_true hst)).trans (congrArg _ (illegalBundle_faults hrunning hframe hfence hrun hstay hbundle hbad))

end Sys2Proof.Machine
end

section
/-! PROOFS. Vector operations (R61, R110, R268, R273, R281, R282): each row's lanes are what its operation writes, and the values of the corner cases. -/

namespace Sys2Proof.Machine

/-! ### Lanes (R281) -/

theorem vectorRows_write : ∀ e ∈ vectorRows,
    WritesSlot slotV e.1 e.2.1 fun _ F w => F.setFv (vD w) (e.2.2 (F.fv (vD w)) (F.fv (vS1 w)) (F.fv (vS2 w))) := by
  simp only [vectorRows, List.forall_mem_cons, List.not_mem_nil, false_implies, implies_true, and_true]
  and_intros <;> exact fun _ _ => rfl

theorem exec_vmov : WritesSlot slotV Instr.vmov 0x0B fun _ F w => F.setV (vD w) (F.v (vS1 w)) := fun _ _ => rfl
theorem exec_vzero : WritesSlot slotV Instr.vzero 0x0D fun _ F w => F.setV (vD w) fun _ => 0 := fun _ _ => rfl

theorem exec_vbcast : WritesSlot slotV Instr.vbcast 0x0C fun _ F w => F.setV (vD w) fun _ => BitVec.ofNat 32 (F.s (vS w)).toNat := by
  intro st s
  simp only [BitVec.ofNat_toNat]
  rfl

/-! ### Corner cases of the values (R61, R110, R282) -/

namespace FV

theorem nan_r32 : nan.r32 = nan := by decide

section
variable {x y : FV} (h : x = nan ∨ y = nan)
include h

theorem maxZ_nan : x.maxZ y = nan := by rcases h with rfl | rfl <;> simp [maxZ, isNan]
theorem minZ_nan : x.minZ y = nan := by rcases h with rfl | rfl <;> simp [minZ, isNan]
theorem add_nan : x.add y = nan := by
  rcases h with rfl | rfl
  · rfl
  · cases x <;> rfl
theorem mul_nan : x.mul y = nan := by
  rcases h with rfl | rfl
  · rfl
  · cases x <;> rfl

end

theorem at_zero (neg : Bool) (e q : Int) : at_ neg 0 e q = 0 := by
  cases neg <;> simp [at_]

/-- Zeros of either sign are equal in the order of values. -/
theorem lt_zeros (a b : Bool) (e f : Int) : (fin a 0 e).lt (fin b 0 f) = false := by
  simp [lt, at_zero]

theorem maxZ_zeros (e f : Int) : (fin true 0 e).maxZ (fin false 0 f) = fin false 0 f := by
  simp [maxZ, isNan, lt_zeros, negZero, isZero]

theorem minZ_zeros (e f : Int) : (fin false 0 e).minZ (fin true 0 f) = fin true 0 f := by
  simp [minZ, isNan, lt_zeros, negZero, isZero]

theorem div_zero {m : Nat} (hm : m ≠ 0) (a c : Bool) (e f : Int) : (fin a m e).div (fin c 0 f) = inf (a != c) := by
  simp only [div, if_true, if_neg hm]

theorem zero_div_zero (a c : Bool) (e f : Int) : (fin a 0 e).div (fin c 0 f) = nan := rfl

end FV

theorem exp2_positive {m : Nat} (hm : m ≠ 0) (e : Int) : exp2 (.fin false m e) = .nan := by
  simp only [exp2, if_neg hm, Bool.false_eq_true, if_false]

theorem exp2_zero (a : Bool) (e : Int) : exp2 (.fin a 0 e) = FV.one := rfl

theorem one_to32 : FV.one.to32 = 0x3F800000 := by decide

/-- Settles O27: each row's lanes are what its operation writes, the deck accesses are those of VLD and VST with BF16 lanes, and the corner cases are values of the functions of the rows. -/
theorem vectorOperationsCompute : Obligations.VectorOperationsCompute := by
  refine ⟨?rows, ?others, ?values⟩
  case rows => exact fun e he s st f b F hissues hpred => (vectorRows_write e he).completes hissues hpred
  case others =>
    intro s st f b F hpred
    have hload (hissues : slotIssues s st slotV 0x12 f F b = true) := runAct_read hissues hpred (vldAct_bf16 s st f (slotBits b slotV) (F.ran slotV))
    have hstore (hissues : slotIssues s st slotV 0x13 f F b = true) :=
      runAct_store hissues hpred (rows_length (fun _ => leBytes_length ..) 64) (vstAct_bf16 s st f (slotBits b slotV) (F.ran slotV))
    exact ⟨fun hissues => exec_vmov.completes hissues hpred, fun hissues => exec_vbcast.completes hissues hpred,
      fun hissues => exec_vzero.completes hissues hpred,
      fun hin => ⟨fun hissues => (hload hissues).1 hin, fun hissues => (hstore hissues).1 hin⟩,
      fun hout => ⟨fun hissues => (hload hissues).2 hout, fun hissues => (hstore hissues).2 hout⟩⟩
  case values =>
    intro x y
    refine ⟨rfl, fun hnan => ⟨FV.maxZ_nan hnan, FV.minZ_nan hnan, ?_, ?_⟩, fun e f => ⟨FV.maxZ_zeros e f, FV.minZ_zeros e f⟩,
      fun a c m e f hm => FV.div_zero hm a c e f, FV.zero_div_zero, rfl, rfl, rfl, fun m e hm => exp2_positive hm e, fun a e => ?_⟩
    · rw [FV.add_nan hnan, FV.nan_r32]
      rfl
    · rw [FV.mul_nan hnan, FV.nan_r32]
      rfl
    · rw [exp2_zero, one_to32]

end Sys2Proof.Machine
end

section
/-! PROOFS. Credit units of a packet (R288, R292, R294). -/

namespace Sys2Proof.Machine

/-- Rounding up by division is the least count of 512-byte pieces that hold `n` bytes. -/
theorem roundUp_div_iff (n k : Nat) : (n + 511) / 512 = k ↔ n ≤ 512 * k ∧ 512 * k < n + 512 := by omega

theorem cwUnits_credited {op : Nat} (h : cwCredited op = true) (len : Nat) : cwUnits op len = 1 + (len + 511) / 512 := if_pos h

theorem cwUnits_uncredited {op : Nat} (h : cwCredited op = false) (len : Nat) : cwUnits op len = 0 := by
  simp only [cwUnits, h, Bool.false_eq_true, if_false]

/-- Settles O16: the packets that take credit are those of `cwCredited`, and a full one is 17 pieces of 512 bytes. -/
theorem packetCreditUnits : Obligations.PacketCreditUnits := by
  refine ⟨fun op hop len u => ?credited, fun len => ⟨cwUnits_uncredited rfl len, cwUnits_uncredited rfl len⟩⟩
  case credited =>
    have hcredit : ∀ op ∈ [Cw.send, Cw.write, Cw.readReq, Cw.atomic, Cw.reduce, Cw.mcast], cwCredited op = true := by decide
    simp only [cwUnits_credited (hcredit op hop), ← roundUp_div_iff]
    exact ⟨⟨fun h => ⟨_, h.symm, rfl⟩, fun ⟨k, hu, hk⟩ => hk ▸ hu.symm⟩, rfl⟩

end Sys2Proof.Machine
end

section
/-! PROOFS. A packet of a queue pair arrives (R297): the checks of steps 1 to 7 that a packet heard and taken passes, and the queue pair it has then reached. -/

namespace Sys2Proof.Machine

/-! ### The row that each packet comes in -/

theorem exec_dataRow : ∀ row ∈ dataRows, ∀ (s : State) (p : Packet), p.port < 8 → exec (row.1 p) s = goesOn s (receive s row.2 p) := by
  intro row hrow s p hport
  simp only [dataRows, List.mem_cons, List.not_mem_nil, or_false] at hrow
  rcases hrow with rfl | rfl | rfl | rfl | rfl | rfl | rfl
  all_goals exact withUnit_there (decide_eq_true hport)

/-- Every opcode that takes credit is defined (R292). -/
theorem cwKnown_of_credited {op : Nat} (h : cwCredited op = true) : cwKnown op = true := by
  simp only [cwCredited, Bool.or_eq_true, beq_iff_eq] at h
  simp only [cwKnown, Bool.or_eq_true, Bool.and_eq_true, decide_eq_true_eq]
  omega

theorem dataRow_credited : ∀ row ∈ dataRows, cwCredited row.2 = true := by decide

/-- The packets that take no credit: the command and its opcode (R292). -/
def answerRows : List ((Packet → Instr) × Nat) :=
  [(Instr.ack, Cw.ack), (Instr.nak, Cw.nak), (Instr.creditReq, Cw.creditReq), (Instr.readResp none, Cw.readResp), (Instr.atomicResp none, Cw.atomicResp)]

theorem exec_answerRow : ∀ row ∈ answerRows, ∀ (s : State) (p : Packet), p.port < 8 → exec (row.1 p) s = goesOn s (receive s row.2 p) := by
  intro row hrow s p hport
  simp only [answerRows, List.mem_cons, List.not_mem_nil, or_false] at hrow
  rcases hrow with rfl | rfl | rfl | rfl | rfl
  all_goals exact withUnit_there (decide_eq_true hport)

theorem answerRow_uncredited : ∀ row ∈ answerRows, cwKnown row.2 = true ∧ cwCredited row.2 = false := by decide

/-! ### Steps 1 to 4 (R297, R419, R536) -/

section
variable {s : State} {op : Nat} {p : Packet}

theorem macsecPass_clear (h : s.r (Reg.CWT_PORT_CFG_MACSEC.at 0x100 p.port) = 0) : macsecPass s p = some s := if_pos h

/-- A packet heard goes to its queue pair, as one of this node's present epoch. -/
theorem receive_heard (h : Heard s op p) : receive s op p = atQp s op p false := by
  obtain ⟨hlow, hext, heven, hpay⟩ := h.sizes
  have hsizes : ¬ (!p.sizesOk ∨ 64 < p.ext.length ∨ p.ext.length % 8 ≠ 0 ∨ cwMax < p.payload.length) := by
    simp only [hlow, heven, Bool.not_true, Bool.false_eq_true, ne_eq, not_true, false_or, not_or, not_lt]
    exact ⟨hext, hpay⟩
  have hnode : ownNode s p.dstNode = true := by simp only [ownNode, h.node, beq_self_eq_true, Bool.true_or]
  have hahead : (!(anyEpoch op || begunHere s p) && epochView s p.epoch == .ahead) = false := by
    rcases h.epoch with hany | hcur
    · simp only [hany, Bool.true_or, Bool.not_true, Bool.false_and]
    · simp only [hcur, beq_eq_false_iff_ne.mpr (show EpochView.current ≠ .ahead by decide), Bool.and_false]
  have hold : (!(anyEpoch op || begunHere s p) && (epochView s p.epoch == .old || s.r Reg.MGT_ROLE_DRAIN_QUIESCED == 1)) = false := by
    rcases h.epoch with hany | hcur
    · simp only [hany, Bool.true_or, Bool.not_true, Bool.false_and]
    · simp only [hcur, beq_eq_false_iff_ne.mpr (show EpochView.current ≠ .old by decide), beq_eq_false_iff_ne.mpr h.serving, Bool.or_self, Bool.and_false]
  have hrole : ¬ (s.role = roleMixed ∧ p.srcNode ≠ s.nodeId) := fun ⟨hmixed, hother⟩ => h.role.elim (absurd hmixed) (absurd · hother)
  simp only [receive, macsecPass_clear h.clear, receiveIn, h.unmarked, hsizes, hnode, hahead, hrole, h.keys, hold, h.onDie, Bool.false_eq_true, Bool.not_true,
    false_and, if_false, if_true]

theorem receive_unnamed (h : Heard s op p) (hnone : s.qp p.dstQp = none) : receive s op p = s.cnt Reg.CWT_DROP_STALE_QP 1 := by
  rw [receive_heard h, atQp, hnone]

end

/-! ### The queue pair that a packet reaches (R301, R324) -/

section
variable (s : State) (i : Nat)

theorem Qp.count_state (q : Qp) (k : Nat) : (q.count k).state = q.state := rfl
theorem Qp.count_mode (q : Qp) (k : Nat) : (q.count k).mode = q.mode := rfl

@[simp] theorem qpTouch_qps : (qpTouch s i).cwt.qps = s.cwt.qps := by unfold qpTouch; split <;> rfl
@[simp] theorem qpTouch_nextRx : (qpTouch s i).cwt.nextRx = s.cwt.nextRx := by unfold qpTouch; split <;> rfl
@[simp] theorem qpTouch_now : (qpTouch s i).now = s.now := by unfold qpTouch; split <;> rfl
@[simp] theorem qpAt_qpTouch (j : Nat) : (qpTouch s i).qpAt j = s.qpAt j := congrArg (amGet j) (qpTouch_qps s i)
@[simp] theorem qpAt_setQp_same (q : Qp) : (s.setQp i q).qpAt i = some q := amGet_set_same ..

variable (p : Packet) (q : Qp)

theorem reached_qpAt : (reached s p i q).qpAt i = some (reachedQp p q) := by simp only [reached, qpAt_qpTouch, qpAt_setQp_same]
theorem reached_now : (reached s p i q).now = s.now := qpTouch_now ..
theorem reached_nextRx : (reached s p i q).cwt.nextRx = s.cwt.nextRx := qpTouch_nextRx ..

end

/-! ### Steps 5 to 7 (R297, R302) -/

section
variable {s : State} {op i : Nat} {p : Packet} {q : Qp} (h : TakenBy s op p i q)
include h

/-- What a queue pair does with a packet it takes, the packet being of a known opcode. -/
theorem receive_taken (hknown : cwKnown op = true) :
    receive s op p =
      qpSettle (mcastSettle (if cwCredited op then dataPacket (reached s p i q) i (reachedQp p q) op p false
        else controlPacket (reached s p i q) i (reachedQp p q) op p)) i := by
  obtain ⟨hnode, hqp⟩ := h.peer
  obtain ⟨hatomic, hsend⟩ := h.mode
  have hreset : q.state ≠ .reset := by rcases h.state with h | h <;> simp only [h, ne_eq, reduceCtorEq, not_false_eq_true]
  have herror : q.state ≠ .error := by rcases h.state with h | h <;> simp only [h, ne_eq, reduceCtorEq, not_false_eq_true]
  have hmode : ¬ ((op = Cw.atomic ∧ !bit q.mode 1) ∨ (op = Cw.send ∧ !bit q.mode 2)) := by
    rintro (⟨hop, hbit⟩ | ⟨hop, hbit⟩)
    · simp only [hatomic hop, Bool.not_true, Bool.false_eq_true] at hbit
    · simp only [hsend hop, Bool.not_true, Bool.false_eq_true] at hbit
  have hstale : ¬ (p.srcNode ≠ q.peerNode ∨ p.srcQp ≠ q.peerQp ∨ q.state = .reset) := by
    simp only [hnode, hqp, hreset, ne_eq, not_true, or_self, not_false_eq_true]
  rw [receive_heard h.heard, atQp, h.named]
  simp only [hstale, h.heard.unmarked, Qp.count_state, Qp.count_mode, herror, hknown, hmode, h.form, Bool.not_true, Bool.false_eq_true, if_false]
  rfl

theorem receive_data (hcredit : cwCredited op = true) :
    receive s op p = qpSettle (mcastSettle (dataPacket (reached s p i q) i (reachedQp p q) op p false)) i := by
  rw [receive_taken h (cwKnown_of_credited hcredit), if_pos hcredit]

theorem receive_control (hknown : cwKnown op = true) (hcredit : cwCredited op = false) :
    receive s op p = qpSettle (mcastSettle (controlPacket (reached s p i q) i (reachedQp p q) op p)) i := by
  rw [receive_taken h hknown, hcredit, if_neg Bool.false_ne_true]

end

theorem settled_congr {s t u : State} {i : Nat} (h : t = u) : goesOn s (qpSettle (mcastSettle t) i) = goesOn s (qpSettle (mcastSettle u) i) := by rw [h]

end Sys2Proof.Machine
end

section
/-! PROOFS. Answers (R312, R313, R326, R335, R345): what a queue pair does with an ACK, a NAK, a credit request and the responses to its reads and atomics. -/

namespace Sys2Proof.Machine

/-! ### ACK and credit request (R308, R310, R312) -/

/-- The state once what a packet acknowledges has been taken, where its ACKV bit says that it acknowledges. -/
def ackShown (s : State) (i : Nat) (p : Packet) : State := if pkAckv p then takeAckPsn s i p.ackPsn else s

section
variable (s : State) (i : Nat) (q : Qp) (p : Packet)

theorem controlPacket_ack :
    controlPacket s i q Cw.ack p = takeSack (takeAckPsn (takeGrant s i (leField p.ext 0 4)) i p.ackPsn) i p.ackPsn (leField p.ext 8 32) := rfl
theorem controlPacket_nak : controlPacket s i q Cw.nak p = takeNak s i p := rfl
theorem controlPacket_creditReq : controlPacket s i q Cw.creditReq p = sendAck (ackShown s i p) i := rfl

end

/-! ### NAK (R326) -/

/-- The detail that stands for the one a NAK_RESULT does not carry is one of those that refusals have (R364, log 61). -/
theorem nakDetail_mem (s : State) : nakDetail s ∈ refusalDetails := by
  have hlow : Config.freeNat s.free % refusalDetails.length < refusalDetails.length := Nat.mod_lt _ (by decide)
  rw [nakDetail, List.getD_eq_getElem _ _ hlow]
  exact List.getElem_mem hlow

section
variable {s : State} {i : Nat} {p : Packet}

/-- Only a result or a redirect ends a request. -/
theorem nakEnds_other {code : Nat} (hresult : code ≠ nakResult) (hredirect : code ≠ nakRedirect) (st psn home : Nat) :
    nakEnds s i code st psn home = s := by simp only [nakEnds, if_neg hresult, if_neg hredirect]

section
variable {y : Qp} (hy : (takeAckPsn s i p.ackPsn).qpAt i = some y)
include hy

theorem takeNak_seq (hcode : leField p.ext 0 1 = nakSeq) :
    takeNak s i p = txMod (takeAckPsn s i p.ackPsn) i fun t =>
      if !t.sacked && decide (serDist t.psn p.ackPsn < 2 ^ 31) then { t with due := true, dueAt := (takeAckPsn s i p.ackPsn).now, rnrAt := none } else t := by
  simp only [takeNak, hcode, nakEnds_other (show nakSeq ≠ nakResult by decide) (show nakSeq ≠ nakRedirect by decide), hy, if_true]

theorem takeNak_credit (hcode : leField p.ext 0 1 = nakCredit) :
    takeNak s i p = txMod (takeAckPsn s i p.ackPsn) i fun t => if t.psn = leField p.ext 4 4 then { t with creditWait := true, due := false } else t := by
  simp only [takeNak, hcode, nakEnds_other (show nakCredit ≠ nakResult by decide) (show nakCredit ≠ nakRedirect by decide), hy,
    show nakCredit ≠ nakSeq by decide, if_true, if_false]

theorem takeNak_rnr (hcode : leField p.ext 0 1 = nakRnr) :
    takeNak s i p = txMod (takeAckPsn s i p.ackPsn) i fun t =>
      if t.psn = leField p.ext 4 4 then
        { t with rnrAt := some ((takeAckPsn s i p.ackPsn).now + rnrNs (takeAckPsn s i p.ackPsn)), rnrSeen := true, sacked := false, due := false }
      else t := by
  simp only [takeNak, hcode, nakEnds_other (show nakRnr ≠ nakResult by decide) (show nakRnr ≠ nakRedirect by decide), hy,
    show nakRnr ≠ nakSeq by decide, show nakRnr ≠ nakCredit by decide, if_true, if_false]

theorem takeNak_auth (hcode : leField p.ext 0 1 = nakAuth) :
    takeNak s i p = qpError (authNote (takeAckPsn s i p.ackPsn) i) i Detail.CWT_AUTH := by
  simp only [takeNak, hcode, nakEnds_other (show nakAuth ≠ nakResult by decide) (show nakAuth ≠ nakRedirect by decide), hy, if_true]
  rfl

/-- A code past NAK_AUTH is fatal. -/
theorem takeNak_fatal (hcode : nakAuth < leField p.ext 0 1) : takeNak s i p = qpError (takeAckPsn s i p.ackPsn) i Detail.CWT_REMOTE_ERR := by
  simp only [nakAuth] at hcode
  have hother : ∀ n ≤ 8, leField p.ext 0 1 ≠ n := fun n hn h => absurd hcode (by omega)
  simp only [takeNak, nakEnds_other (hother nakResult (by decide)) (hother nakRedirect (by decide)), hy, hother nakSeq (by decide), hother nakCredit (by decide),
    hother nakRnr (by decide), hother nakResult (by decide), hother nakRedirect (by decide), hother nakAuth (by decide), or_self, if_false]

end

section
variable {z : Qp} (hz : s.qpAt i = some z)
include hz

theorem takeNak_result (hcode : leField p.ext 0 1 = nakResult) :
    takeNak s i p =
      takeAckPsn (txDone s.takeFree i (z.unacked.filter fun t => t.psn == leField p.ext 4 4) (some (leField p.ext 1 1, nakDetail s)) none) i p.ackPsn := by
  simp only [takeNak, nakEnds, hcode, hz, if_true]
  split <;> rfl

theorem takeNak_redirect (hcode : leField p.ext 0 1 = nakRedirect) :
    takeNak s i p =
      takeAckPsn (txDone s i (z.unacked.filter fun t => t.psn == leField p.ext 4 4) (some (Status.redirect.code, 0)) (some (leField p.ext 2 2))) i p.ackPsn := by
  simp only [takeNak, nakEnds, hcode, hz, show nakRedirect ≠ nakResult by decide, if_true, if_false]
  split <;> rfl

end

end

/-! ### ATOMIC_RESP and READ_RESP (R312, R313, R343, R345) -/

section
variable {s : State} {i : Nat} {q y : Qp} {p : Packet} {b : List Byte}

/-- A response that opens acknowledges what it shows before it acts. -/
theorem controlPacket_response {op : Nat} (hop : op ≠ Cw.ack ∧ op ≠ Cw.nak ∧ op ≠ Cw.creditReq) (hopen : openPacket s q op p = some b)
    (hy : (ackShown s i p).qpAt i = some y) :
    controlPacket s i q op p = if op = Cw.readResp then takeRead (ackShown s i p) i y p b else takeAtomic (ackShown s i p) i y p := by
  obtain ⟨hack, hnak, hreq⟩ := hop
  rw [ackShown] at hy
  simp only [controlPacket, ackShown, hack, hnak, hreq, hopen, hy, if_false]

theorem controlPacket_atomicResp (hopen : openPacket s q Cw.atomicResp p = some b) (hy : (ackShown s i p).qpAt i = some y) :
    controlPacket s i q Cw.atomicResp p = takeAtomic (ackShown s i p) i y p := controlPacket_response (by decide) hopen hy

theorem controlPacket_readResp (hopen : openPacket s q Cw.readResp p = some b) (hy : (ackShown s i p).qpAt i = some y) :
    controlPacket s i q Cw.readResp p = takeRead (ackShown s i p) i y p b := controlPacket_response (by decide) hopen hy

theorem takeAtomic_late (hnone : ∀ t ∈ q.unacked, t.op = Cw.atomic → t.psn ≠ p.psn) : takeAtomic s i q p = s := by
  have hfind : (q.unacked.find? fun t => t.op == Cw.atomic && t.psn == p.psn) = none := by
    simpa only [List.find?_eq_none, Bool.and_eq_true, beq_iff_eq, not_and] using hnone
  rw [takeAtomic, hfind]

theorem takeAtomic_ends {t : TxPkt} (hfind : (q.unacked.find? fun t => t.op == Cw.atomic && t.psn == p.psn) = some t) :
    takeAtomic s i q p =
      txDone (s.modQp i fun z => rttSample s z [t]) i [t] (if leField p.ext 0 1 = 0 then none else some (leField p.ext 0 1, leField p.ext 1 1))
        (some (leField p.ext 8 8)) := by
  rw [takeAtomic, hfind]

theorem takeRead_late (hnone : ∀ t ∈ q.unacked, t.op = Cw.readReq → t.n ≤ serDist p.psn t.psn) : takeRead s i q p b = s := by
  have hfind : (q.unacked.find? fun t => t.op == Cw.readReq && decide (serDist p.psn t.psn < t.n)) = none := by
    simpa only [List.find?_eq_none, Bool.and_eq_true, beq_iff_eq, decide_eq_true_eq, not_and, not_lt] using hnone
  rw [takeRead, hfind]

theorem takeRead_lands {t : TxPkt} {w : SendWr} (hfind : (q.unacked.find? fun t => t.op == Cw.readReq && decide (serDist p.psn t.psn < t.n)) = some t)
    (hext : p.ext = []) (hlen : b.length = min cwMax (t.len - serDist p.psn t.psn * cwMax)) (hnew : t.got.contains (serDist p.psn t.psn) = false)
    (hw : (q.stream.find? fun w => w.ord == t.ord) = some w) :
    takeRead s i q p b =
      readLand s i t { p with payload := b } (serDist p.psn t.psn) (wrLocal w.wr + t.off + serDist p.psn t.psn * cwMax) b := by
  simp only [takeRead, hfind, hext, hlen, hnew, hw, List.isEmpty_nil, Bool.not_true, bne_self_eq_false, Bool.or_self, Bool.false_eq_true, if_false]

end

section
variable {s : State} {i : Nat} {t : TxPkt} {p : Packet} {k a : Nat} {b : List Byte}

theorem readLand_stopped {dt : Nat} (hstop : writeStop s a b.length = some dt) :
    readLand s i t p k a b = txDone (unhold s (.resp i p)) i [t] (some (Status.fenced.code, dt)) none := by rw [readLand, hstop]

section
variable (hstop : writeStop s a b.length = none)
include hstop

theorem readLand_held (hheld : blockedUnits s a b.length true ≠ []) :
    readLand s i t p k a b = holdWork s (blockedUnits s a b.length true) (.resp i p) := by
  simp only [readLand, hstop, List.isEmpty_eq_false_iff.mpr hheld, Bool.not_false, if_true]

/-- The bytes of a response that nothing holds up are stored; they count as come once the store's deltas are acknowledged. -/
theorem readLand_stores (hfree : blockedUnits s a b.length true = []) :
    let U := unhold s (.resp i p)
    let V := chargeClass (putBytes (pageTouch U a b.length) a b) 1 b.length
    readLand s i t p k a b = if newDeltas U V = [] then respGot V i t.psn k else waitDeltas V (newDeltas U V) (.resp i t.psn k) := by
  simp only [readLand, hstop, hfree, List.isEmpty_nil, Bool.not_true, Bool.false_eq_true, if_false, List.isEmpty_iff]

end

end

/-- The last of a request's responses ends it. -/
theorem respGot_new {s : State} {i psn k : Nat} {y : Qp} {t : TxPkt} (hy : s.qpAt i = some y)
    (hfind : (y.unacked.find? fun t => t.op == Cw.readReq && t.psn == psn) = some t) (hnew : t.got.contains k = false) :
    let g : TxPkt := { t with got := t.got ++ [k] }
    let V := txMod s i fun u => if u.psn = psn then g else u
    respGot s i psn k = if g.got.length = g.n then qpSettle (txDone (V.modQp i fun q => rttSample V q [g]) i [g] none none) i else V := by
  simp only [respGot, hy, hfind, hnew, Bool.false_eq_true, if_false]

/-! ### Answers to the controller's own reads and commits (R16, R44, R132, R223) -/

theorem exec_ownRead (o : OwnResp) (p : Packet) (s : State) : exec (.readResp (some o) p) s = goesOn s (fromNode s p.srcNode (ownRead s o)) := rfl
theorem exec_ownCommit (a : AtomicResp) (p : Packet) (s : State) : exec (.atomicResp (some a) p) s = goesOn s (fromNode s p.srcNode (ownCommit s a)) := rfl

theorem fromNode_rejected {s : State} {src : Nat} (hmixed : s.role = roleMixed) (hother : src ≠ s.nodeId) (t : State) :
    fromNode s src t = s.cnt Reg.CWT_DROP_MAP_REJECT 1 := if_pos ⟨hmixed, hother⟩

theorem ownRead_unasked {s : State} {o : OwnResp} (h : amGet o.read s.xch.reads = none) : ownRead s o = s := by rw [ownRead, h]

theorem ownRead_asked {s : State} {o : OwnResp} {r : OwnRead} (h : amGet o.read s.xch.reads = some r) :
    let U : State := { s with xch := { s.xch with reads := amErase o.read s.xch.reads } }
    ownRead s o =
      match r.use with
      | .staged h layer => stagedAnswer U h layer o.read o.status (decide (o.bytes.length = r.len)) o.bytes
      | .stream j => streamAnswer U j ((Status.ofCode o.status).getD .fenced) o.detail o.bytes
      | .unit u lost => unitParity U u lost (if o.status = 0 ∧ decide (o.bytes.length = r.len) = true then some o.bytes else none) := by
  simp only [ownRead, h]
  cases r.use with
  | staged | stream => rfl
  | unit u lost => simp only [Bool.and_eq_true, beq_iff_eq]

theorem ownCommit_unasked {s : State} {a : AtomicResp} (h : amGet a.commit s.sch.commits = none) : ownCommit s a = s := by rw [ownCommit, h]

theorem ownCommit_away {s : State} {a : AtomicResp} {cm : Commit} (h : amGet a.commit s.sch.commits = some cm) (haway : cm.record.node ≠ s.nodeId) :
    ownCommit s a = recordAnswer s a.commit a := by simp only [ownCommit, h, if_pos haway]

/-! ### ARP and neighbours (R291) -/

section
variable {s : State} {port sub : Nat} {mac ip target : List Byte}

theorem exec_arpRequest (hport : port < 8) (hsub : sub < 8) :
    exec (.arpRequest port sub mac ip target) s = goesOn s (arpRequest s port sub mac ip target) :=
  withUnit_there (Bool.and_eq_true_iff.mpr ⟨decide_eq_true hport, decide_eq_true hsub⟩)

theorem exec_neighborSolicitation (hport : port < 8) (hsub : sub < 8) :
    exec (.neighborSolicitation port sub mac ip target) s = goesOn s (neighborSolicitation s port sub mac ip target) :=
  withUnit_there (Bool.and_eq_true_iff.mpr ⟨decide_eq_true hport, decide_eq_true hsub⟩)

/-- An ARP request is for this node: on a sub-port that is up, for the IPv4 address of its own valid entry. -/
def ArpMine (s : State) (port sub : Nat) (target : List Byte) : Prop :=
  subUp s port sub = true ∧ (nodeEnt s s.nodeId).valid = true ∧ (nodeEnt s s.nodeId).v4 = true ∧ (nodeEnt s s.nodeId).ip.drop 12 = target

/-- A solicitation is for this node: on a sub-port that is up, for the IPv6 address of its own valid entry. -/
def SolicitMine (s : State) (port sub : Nat) (target : List Byte) : Prop :=
  subUp s port sub = true ∧ (nodeEnt s s.nodeId).valid = true ∧ (nodeEnt s s.nodeId).v4 = false ∧ (nodeEnt s s.nodeId).ip = target

theorem arpRequest_other (h : ¬ ArpMine s port sub target) : arpRequest s port sub mac ip target = s := by
  refine if_neg fun hmine => h ?_
  simpa only [ArpMine, Bool.and_eq_true, beq_iff_eq, and_assoc] using hmine

theorem arpRequest_mine (h : ArpMine s port sub target) :
    arpRequest s port sub mac ip target = sendFrame s port sub (fit 6 mac) (fit 48 (beBytes 2 0x0806
      ++ (beBytes 2 1 ++ beBytes 2 0x0800 ++ beBytes 1 6 ++ beBytes 1 4 ++ beBytes 2 2 ++ subMac s port sub ++ fit 4 target ++ fit 6 mac ++ fit 4 ip))) := by
  refine if_pos ?_
  simpa only [ArpMine, Bool.and_eq_true, beq_iff_eq, and_assoc] using h

theorem neighborSolicitation_other (h : ¬ SolicitMine s port sub target) : neighborSolicitation s port sub mac ip target = s := by
  refine if_neg fun hmine => h ?_
  simpa only [SolicitMine, Bool.and_eq_true, beq_iff_eq, Bool.not_eq_true', and_assoc] using hmine

theorem neighborSolicitation_mine (h : SolicitMine s port sub target) (hknown : allZero ip = false) :
    let e := nodeEnt s s.nodeId
    let body := beBytes 1 0x60 ++ beBytes 3 0 ++ e.ip ++ beBytes 1 2 ++ beBytes 1 1 ++ subMac s port sub
    let head := beBytes 1 136 ++ beBytes 1 0
    neighborSolicitation s port sub mac ip target = sendFrame s port sub (fit 6 mac) (beBytes 2 0x86DD ++ (beBytes 4 (6 * 2 ^ 28) ++ beBytes 2 32 ++ beBytes 1 58
      ++ beBytes 1 255 ++ e.ip ++ fit 16 ip ++ (head ++ beBytes 2 (inetSum (pseudo false e.ip (fit 16 ip) 58 32 ++ head ++ beBytes 2 0 ++ body)) ++ body))) := by
  have hmine : (subUp s port sub && (nodeEnt s s.nodeId).valid && !(nodeEnt s s.nodeId).v4 && (nodeEnt s s.nodeId).ip == target) = true := by
    simpa only [SolicitMine, Bool.and_eq_true, beq_iff_eq, Bool.not_eq_true', and_assoc] using h
  simp only [neighborSolicitation, hmine, hknown, if_true, Bool.false_eq_true, if_false]

end

/-! ### Frames as bytes (R290, R528, R536) -/

section
variable {s : State} {port : Nat} {f : List Byte}

theorem exec_nonCelwaldFrame (hport : port < 8) : exec (.nonCelwaldFrame port f) s = goesOn s (frameArrives s port f) :=
  withUnit_there (decide_eq_true hport)

theorem frameArrives_oversize (h : 9270 < f.length) : frameArrives s port f = s.cnt (Reg.CWT_PORT_DROP_OVERSIZE.at 0x100 port) 1 := if_pos h

theorem frameArrives_badFcs (hsize : f.length ≤ 9270) (h : f.length < 18 ∨ leNat (f.drop (f.length - 4)) ≠ fcs32 (f.take (f.length - 4))) :
    frameArrives s port f = s.cnt (Reg.CWT_PORT_DROP_FCS_ERR.at 0x100 port) 1 := by
  simp only [frameArrives, Nat.not_lt.mpr hsize, h, if_true, if_false]

/-- A frame whole and undamaged is taken for what it holds. -/
theorem frameArrives_good (hlong : 18 ≤ f.length) (hsize : f.length ≤ 9270) (hfcs : leNat (f.drop (f.length - 4)) = fcs32 (f.take (f.length - 4)))
    {U : State} {r : Except FrameDrop (Nat × Packet)} (hin : frameIn s port (f.take (f.length - 4)) = (U, r)) :
    frameArrives s port f = match r with
      | .error .macsec => U.cnt (Reg.CWT_PORT_DROP_MACSEC_DROP.at 0x100 port) 1
      | .error .check => U.cnt Reg.CWT_DROP_CHECK_CHECK 1
      | .error .nonCelwald => U.cnt Reg.CWT_DROP_CHECK_NON_CELWALD 1
      | .ok (op, k) => receiveIn U op k := by
  have hgood : ¬ (f.length < 18 ∨ leNat (f.drop (f.length - 4)) ≠ fcs32 (f.take (f.length - 4))) := by
    simp only [Nat.not_lt.mpr hlong, hfcs, ne_eq, not_true, or_self, not_false_eq_true]
  simp only [frameArrives, Nat.not_lt.mpr hsize, hgood, hin, if_false]
  rcases r with (_ | _ | _) | ⟨op, k⟩ <;> rfl

end

/-- Settles O54: each packet's answer rows reach their queue pair, which acts as the lemma of its case says; what no queue pair takes is answered or counted. -/
theorem answersAndFramesArrive : Obligations.AnswersAndFramesArrive := by
  intro s p
  refine ⟨?ofQp, ?lastResponse, ?ownAnswers, ?rejected, ?neighbours, ?frames⟩
  case ofQp =>
    intro row hrow
    refine ⟨fun hheard hnone => ?unnamed, fun i q htaken => ?taken⟩
    case unnamed => rw [exec_answerRow row hrow s p hheard.port, receive_unnamed hheard hnone]
    case taken =>
      obtain ⟨hknown, hcredit⟩ := answerRow_uncredited row hrow
      have hz := reached_qpAt s i p q
      rw [exec_answerRow row hrow s p htaken.heard.port, receive_control htaken hknown hcredit]
      refine ⟨fun hop => ?ack, fun hop => ?creditReq, fun y hop hy => ?nak, fun b y hop hopen hy => ?atomicResp, fun b y hop hopen hy => ?readResp⟩
      case ack => exact settled_congr (hop ▸ controlPacket_ack ..)
      case creditReq => exact settled_congr (hop ▸ controlPacket_creditReq ..)
      case nak =>
        rw [hop, controlPacket_nak]
        exact ⟨fun hcode => settled_congr (takeNak_seq hy hcode), fun hcode => settled_congr (takeNak_credit hy hcode),
          fun hcode => settled_congr (takeNak_rnr hy hcode), fun hcode => ⟨nakDetail_mem _, settled_congr (takeNak_result (z := reachedQp p q) hz hcode)⟩,
          fun hcode => settled_congr (takeNak_redirect (z := reachedQp p q) hz hcode), fun hcode => settled_congr (takeNak_auth hy hcode),
          fun hcode => settled_congr (takeNak_fatal hy hcode)⟩
      case atomicResp =>
        rw [hop] at hopen ⊢
        rw [controlPacket_atomicResp hopen hy]
        exact ⟨fun hnone => settled_congr (takeAtomic_late hnone), fun t hfind => settled_congr (takeAtomic_ends hfind)⟩
      case readResp =>
        rw [hop] at hopen ⊢
        rw [controlPacket_readResp hopen hy]
        refine ⟨fun hnone => settled_congr (takeRead_late hnone), fun t w hfind hext => ?_⟩
        intro k hlen hnew hw at_ hold U V
        rw [takeRead_lands hfind hext hlen hnew hw]
        exact ⟨fun dt hstop => settled_congr (readLand_stopped hstop), fun hstop hheld => settled_congr (readLand_held hstop hheld),
          fun hstop hfree => ⟨fun hds => settled_congr ((readLand_stores hstop hfree).trans (if_neg hds)),
            fun hds => settled_congr ((readLand_stores hstop hfree).trans (if_pos hds))⟩⟩
  case lastResponse => exact fun W i y t psn k => respGot_new
  case ownAnswers =>
    intro hrole
    simp only [exec_ownRead, exec_ownCommit, fromNode_taken hrole]
    refine ⟨fun o => ⟨fun h => ?_, fun r h => ?_⟩, fun a => ⟨fun h => ?_, fun cm h haway => ?_⟩⟩
    · rw [ownRead_unasked h]
    · exact congrArg (goesOn s) (ownRead_asked h)
    · rw [ownCommit_unasked h]
    · rw [ownCommit_away h haway]
  case rejected =>
    intro hmixed hother
    simp only [exec_ownRead, exec_ownCommit, fromNode_rejected hmixed hother, implies_true, and_self]
  case neighbours =>
    intro port sub mac ip target hport hsub
    simp only [exec_arpRequest hport hsub, exec_neighborSolicitation hport hsub]
    refine ⟨fun h => ?_, fun h => ?_, fun h => ?_, fun h hknown => ?_⟩
    · rw [arpRequest_other h]
    · rw [arpRequest_mine h]
    · rw [neighborSolicitation_other h]
    · rw [neighborSolicitation_mine h hknown]
  case frames =>
    intro port f hport
    simp only [exec_nonCelwaldFrame hport]
    refine ⟨fun h => ?_, fun hsize h => ?_, fun U hlong hsize hfcs => ⟨fun hin => ?_, fun hin => ?_, fun hin => ?_, fun op k hin => ?_⟩⟩
    · rw [frameArrives_oversize h]
    · rw [frameArrives_badFcs hsize h]
    all_goals rw [frameArrives_good hlong hsize hfcs hin]

end Sys2Proof.Machine
end

section
/-! PROOFS. Packets that take credit (R293, R316 to R319, R326, R334 to R348): what an arrival comes to, the turn of the only packet waiting, and WRITE, READ_REQ and arithmetic atomics. -/

namespace Sys2Proof.Machine

/-! ### Steps 8 to 10 (R293, R316, R318, R326) -/

section
variable {s : State} {i op : Nat} {q : Qp} {p : Packet}

/-- A repeat of a packet that asks for nothing again is acknowledged. -/
theorem dataPacket_repeat (hdup : isDup q p.psn = true) (hkept : q.redirected = []) (hatomic : op ≠ Cw.atomic) (hread : op ≠ Cw.readReq) :
    dataPacket s i q op p false = sendAck s i := by
  simp only [dataPacket, hdup, duplicate, hkept, hatomic, hread, List.find?_nil, if_true, if_false]

section
variable (hnew : isDup q p.psn = false) (huncounted : q.counted.contains p.psn = false)
include hnew huncounted

theorem dataPacket_overCredit (hlimit : serGe q.rcvLimit ((q.rcvUnits + cwUnits op p.payload.length) % 2 ^ 32) = false) :
    dataPacket s i q op p false = nakOpen s i nakCredit p.psn := by
  simp only [dataPacket, hnew, huncounted, hlimit, Bool.not_false, Bool.and_self, Bool.false_eq_true, if_true, if_false]

variable (hlimit : serGe q.rcvLimit ((q.rcvUnits + cwUnits op p.payload.length) % 2 ^ 32) = true)
include hlimit

theorem dataPacket_ahead (hfar : 1024 ≤ serDist p.psn q.rcvNxt) : dataPacket s i q op p false = nakOpen s i nakSeq p.psn := by
  simp only [dataPacket, hnew, huncounted, hlimit, hfar, Bool.not_true, Bool.and_false, Bool.false_eq_true, if_true, if_false]

theorem dataPacket_badTag (hnear : serDist p.psn q.rcvNxt < 1024) (hopen : openPacket s q op p = none) :
    dataPacket s i q op p false = authFail s i p.psn := by
  simp only [dataPacket, hnew, huncounted, hlimit, Nat.not_le.mpr hnear, hopen, Bool.not_true, Bool.and_false, Bool.false_eq_true, if_false]

end

end

/-- A packet accepted is acknowledged as it asks, once those whose turn has come have been performed. -/
theorem dataPacket_accepted {s : State} {i op : Nat} {q : Qp} {p : Packet} {b : List Byte} (hnew : isDup (reachedQp p q) p.psn = false)
    (huncounted : (reachedQp p q).counted.contains p.psn = false)
    (hlimit : serGe (reachedQp p q).rcvLimit (((reachedQp p q).rcvUnits + cwUnits op p.payload.length) % 2 ^ 32) = true)
    (hnear : serDist p.psn (reachedQp p q).rcvNxt < 1024) (hopen : openPacket (reached s p i q) (reachedQp p q) op p = some b) :
    dataPacket (reached s p i q) i (reachedQp p q) op p false = ackAfter (rxRun (accepted s op p i q b) i) i (pkAckReq p) := by
  simp only [dataPacket, hnew, huncounted, hlimit, Nat.not_le.mpr hnear, hopen, Bool.not_true, Bool.and_false, Bool.false_eq_true, if_false]
  simp only [accepted, acceptedPkt, ← reached_now s i p q, ← reached_nextRx s i p q]

/-! ### The turn of the only packet that waits (R319) -/

theorem serDist_self (n : Nat) : serDist n n = 0 := by
  have hdiv := Nat.div_add_mod n (2 ^ 32)
  rw [serDist, show n + 2 ^ 32 - n % 2 ^ 32 = 2 ^ 32 * (n / 2 ^ 32 + 1) by omega, Nat.mul_mod_right]

section
variable {s : State} {i : Nat} {q : Qp} {x : RxPkt} (hq : s.qpAt i = some q) (hrx : q.rx = [x])
include hq hrx

theorem rxRun_single : rxRun s i = rxTry s i x.psn := by simp only [rxRun, hq, hrx, List.map_cons, List.map_nil, List.foldl_cons, List.foldl_nil]

variable (hstage : x.stage = .waiting) (hnext : q.rcvNxt = x.psn)
include hstage hnext

/-- At its turn a packet of a contribution is taken up with the others of it (R348). -/
theorem rxTry_lsem (hop : x.op = Cw.reduce) (hrop : leField x.pkt.ext 4 1 = 5) : rxTry s i x.psn = rxLsem s i q x := by
  simp [rxTry, hq, hrx, hstage, hnext, hop, hrop, Cw.reduce, Cw.send]

section
variable (hlsem : x.op ≠ Cw.reduce ∨ leField x.pkt.ext 4 1 ≠ 5) (hsend : x.op = Cw.send → sendTurn q x.pkt = true)
include hlsem hsend

/-- At its turn any other packet is performed, and its outcome decides what becomes of it. -/
theorem rxTry_performs :
    rxTry s i x.psn =
      match perform s i q x.op x.pkt with
      | (W, .wait us) => rxMod (blockOn W us) i x.psn fun x => { x with stage := .held }
      | (W, .rnr) => nakOpen (W.modQp i fun q => { q with rx := q.rx.filter fun (y : RxPkt) => y.psn != x.psn, counted := q.counted ++ [x.psn] }) i nakRnr x.psn
      | (W, .ended [] ans) => rxFinish W i x.psn ans
      | (W, .ended ds ans) => rxMod W i x.psn fun x => { x with stage := .acking ds ans }
      | (W, .branching k) =>
        let V := rxMod W i x.psn fun x => { x with stage := .branching k }
        match (amGet k V.rm.mcasts).bind (Mcast.outcome V) with
        | some o => rxFinish { V with rm := { V.rm with mcasts := amErase k V.rm.mcasts } } i x.psn (if o.1 = 0 then .ok else .refused o.1 o.2)
        | none => V := by
  have hturn : ¬ (x.op = Cw.send ∧ !sendTurn q x.pkt) := fun ⟨hop, hout⟩ => by simp only [hsend hop, Bool.not_true, Bool.false_eq_true] at hout
  have hwhole : ¬ (x.op = Cw.reduce ∧ leField x.pkt.ext 4 1 = 5) := fun ⟨hop, hrop⟩ => hlsem.elim (absurd hop) (absurd hrop)
  have hfind : (q.rx.find? fun y => y.psn == x.psn && (y.stage == .waiting || y.stage == .held)) = some x := by
    rw [hrx, List.find?_cons_of_pos]
    simp only [hstage, beq_self_eq_true, Bool.true_or, Bool.and_self]
  simp only [rxTry, hq, hfind, hnext, bne_self_eq_false, Bool.and_false, Bool.false_eq_true, if_false, hturn, hwhole]
  rcases perform s i q x.op x.pkt with ⟨W, us | _ | ⟨_ | ⟨d, ds⟩, ans⟩ | k⟩
  · simp only [hstage, reduceCtorEq, if_false]
  all_goals rfl

section
variable {W : State}

theorem rxTry_ended {ans : Answer} (hout : perform s i q x.op x.pkt = (W, .ended [] ans)) : rxTry s i x.psn = rxFinish W i x.psn ans := by
  rw [rxTry_performs hq hrx hstage hnext hlsem hsend, hout]

theorem rxTry_waits {us : List Nat} (hout : perform s i q x.op x.pkt = (W, .wait us)) :
    rxTry s i x.psn = rxMod (blockOn W us) i x.psn fun x => { x with stage := .held } := by
  rw [rxTry_performs hq hrx hstage hnext hlsem hsend, hout]

theorem rxTry_deltas {d : Nat} {ds : List Nat} {ans : Answer} (hout : perform s i q x.op x.pkt = (W, .ended (d :: ds) ans)) :
    rxTry s i x.psn = rxMod W i x.psn fun x => { x with stage := .acking (d :: ds) ans } := by
  rw [rxTry_performs hq hrx hstage hnext hlsem hsend, hout]

theorem rxTry_rnr (hout : perform s i q x.op x.pkt = (W, .rnr)) :
    rxTry s i x.psn =
      nakOpen (W.modQp i fun q => { q with rx := q.rx.filter fun (y : RxPkt) => y.psn != x.psn, counted := q.counted ++ [x.psn] }) i nakRnr x.psn := by
  rw [rxTry_performs hq hrx hstage hnext hlsem hsend, hout]

/-- A multicast waits for its branches (R351). -/
theorem rxTry_branching {k : Nat} (hout : perform s i q x.op x.pkt = (W, .branching k)) :
    let V := rxMod W i x.psn fun x => { x with stage := .branching k }
    (amGet k V.rm.mcasts).bind (Mcast.outcome V) = none → rxTry s i x.psn = V := by
  intro V hbranches
  rw [rxTry_performs hq hrx hstage hnext hlsem hsend, hout]
  show (match (amGet k V.rm.mcasts).bind (Mcast.outcome V) with | some _ => _ | none => V) = V
  rw [hbranches]

end

end

end

/-! ### A contribution of one packet (R348) -/

section
variable {s : State} {i : Nat} {q : Qp} {x : RxPkt} (hrx : q.rx = [x]) (hstage : x.stage = .waiting) (hop : x.op = Cw.reduce)
  (hrop : leField x.pkt.ext 4 1 = 5) (hfirst : pkFirst x.pkt = true) (hlast : pkLast x.pkt = true)

theorem lsemWhole_single (hfirst : pkFirst x.pkt = true) (hlast : pkLast x.pkt = true) : lsemWhole [x] = true := by
  simp only [lsemWhole, hfirst, hlast, List.getLast?_singleton, serDist_self, List.length_singleton, Nat.zero_add, beq_self_eq_true, Bool.and_self]

include hrx hstage hop hrop

theorem lsemMine_single : lsemMine q (pkMseq x.pkt) = [x] := by
  simp only [lsemMine, hrx, hop, hrop, hstage, beq_self_eq_true, Bool.and_self, Bool.true_or, List.filter_cons, List.filter_nil, if_true]

include hfirst hlast

theorem rxLsem_refused {e : Status × Nat} (hcheck : lsemCheck s i q x.pkt = some e) :
    rxLsem s i q x = rxFinish (countRefusal s e) i x.psn (.refused e.1.code e.2) := by
  simp only [rxLsem, lsemMine_single hrx hstage hop hrop, lsemWhole_single hfirst hlast, if_true, List.findSome?_cons, hcheck, List.foldl_cons, List.foldl_nil]

theorem rxLsem_applied (hcheck : lsemCheck s i q x.pkt = none) :
    rxLsem s i q x = rxFinish
      (remoteContribution s x.pkt.srcNode (leField x.pkt.ext 8 8) (leField x.pkt.ext 6 2) (leField x.pkt.ext 0x10 2) (leField x.pkt.ext 0x12 1)
        (lsemRows (hdimOf (leField x.pkt.ext 0x13 1)) [x])) i x.psn .ok := by
  simp only [rxLsem, lsemMine_single hrx hstage hop hrop, lsemWhole_single hfirst hlast, if_true, List.findSome?_cons, List.findSome?_nil, hcheck,
    List.foldl_cons, List.foldl_nil]

end

/-! ### The operations themselves (R334 to R345) -/

section
variable {s : State} {i : Nat} {q : Qp} {p : Packet} (hopen : EntryOpen s (leField p.ext 0 4))
include hopen

/-- An operation whose region's table entry can be read is performed. -/
theorem entryGate_open {op : Nat} (hkey : opKey s op p = some (leField p.ext 0 4)) (k : State → State × Performed) : entryGate s op p k = k s := by
  simp only [entryGate, hkey]
  rcases hopen with hbeyond | ⟨hthere, hfree⟩
  · exact if_pos hbeyond
  · simp only [hthere, hfree, List.isEmpty_nil, Bool.false_eq_true, if_false, if_true, ite_self]

theorem perform_write : perform s i q Cw.write p = doWrite s i q p := entryGate_open hopen rfl _
theorem perform_readReq : perform s i q Cw.readReq p = doRead s i q p := entryGate_open hopen rfl _
theorem perform_atomic : perform s i q Cw.atomic p = doAtomic s i q p := entryGate_open hopen rfl _

end

section
variable {s : State} {i k : Nat} {q : Qp} {p : Packet} {r : Region}

/-- A WRITE that every check passes stores its payload. -/
theorem doWrite_stores {a : Ask} (ha : a = askOf q i Cw.write p (leField p.ext 8 8) p.payload.length (some (leField p.ext 4 4)))
    (hrange : checkRange s (leField p.ext 0 4) a = .ok (k, r)) (hthere : regionLost s r (leField p.ext 8 8) p.payload.length = false)
    (hfree : regionWait s r (leField p.ext 8 8) p.payload.length true = none)
    (hlines : checkLines s k r a (leField p.ext 8 8) p.payload.length true = none) :
    let off := leField p.ext 8 8
    let n := p.payload.length
    let w := regionStore s r off p.payload true
    doWrite s i q p = (regionTouch (hotOps (begin_ w.1 i k p) (r.base + off) n) r off n 1 n, .ended w.2 .ok) := by
  subst ha
  simp only [doWrite, hrange, hthere, hfree, hlines, Bool.false_eq_true, if_false]

theorem readPieces_one {len : Nat} (hpos : 0 < len) (hmax : len ≤ cwMax) : readPieces len 0 = [(0, 0, len)] := by
  have hone : (len + cwMax - 1) / cwMax = 1 := by simp only [cwMax] at hmax ⊢; omega
  simp only [readPieces, pieces, Nat.pos_iff_ne_zero.mp hpos, hone, Nat.min_eq_right hmax, if_true, if_false, List.range_one, List.map_cons, List.map_nil,
    Nat.zero_mul, Nat.sub_zero]

/-- A READ_REQ of one packet, of no slots, that every check passes queues its response. -/
theorem doRead_answers {a : Ask} (ha : a = { askOf q i Cw.readReq p (leField p.ext 8 8) (leField p.ext 4 4) none with slot := false })
    (hslot : leField p.ext 0x10 2 = 0) (hmax : leField p.ext 4 4 ≤ cwMax) (hpos : 0 < leField p.ext 4 4)
    (hrange : checkRange s (leField p.ext 0 4) a = .ok (k, r)) (hthere : regionLost s r (leField p.ext 8 8) (leField p.ext 4 4) = false)
    (hfree : waitOn s (regionBlocked s r (leField p.ext 8 8) (leField p.ext 4 4) false) (if parityArea s r then 2 else 0) = none)
    (hlines : checkLines s k r a (leField p.ext 8 8) (leField p.ext 4 4) false = none) :
    let off := leField p.ext 8 8
    let len := leField p.ext 4 4
    let U := hotReads (chargeClass (pageTouch s (r.base + off) len) (if parityArea s r then 2 else 0) len) (r.base + off) len
    doRead s i q p = (pushResp U i ⟨Cw.readResp, p.psn % 2 ^ 32, [], U.opRd (r.base + off) len, U.now⟩, .ended [] .ok) := by
  subst ha
  simp only [doRead, hslot, Nat.mul_zero, bne_self_eq_false, hrange, hthere, hfree, hlines, Bool.false_eq_true, if_false, if_true, readPages,
    readPieces_one hpos hmax, List.zipIdx_cons, List.zipIdx_nil, List.foldl_cons, List.foldl_nil, Nat.add_zero]

/-- An arithmetic atomic that every check passes is applied (R339). -/
theorem doAtomic_applies {m : Nat} (hm : m = aopBits (leField p.ext 5 1) / 8) {a : Ask}
    (ha : a = askOf q i Cw.atomic p (if m = 0 then 0 else leField p.ext 8 8) m none) (hlow : 1 ≤ leField p.ext 4 1) (hhigh : leField p.ext 4 1 ≤ 10)
    (hrange : checkRange s (leField p.ext 0 4) a = .ok (k, r)) (halign : leField p.ext 8 8 % m = 0) (hthere : regionLost s r (leField p.ext 8 8) m = false)
    (hfree : regionWait s r (leField p.ext 8 8) m true = none) (hlines : checkLines s k r a (leField p.ext 8 8) m false = none) :
    let off := leField p.ext 8 8
    let old := leNat (s.opRd (r.base + off) (min m 8))
    let w := regionStore s r off (leBytes m (aopValue (leField p.ext 4 1) (leField p.ext 5 1) old (leField p.ext 0x10 8) (leField p.ext 0x18 8))) false
    doAtomic s i q p =
      (countRefusal (regionTouch (hotOps w.1 (r.base + off) m) r off m 1 (modifyBytes s (r.base + off) m)) (.ok, 0), .ended w.2 (.atomic 0 0 old)) := by
  subst hm ha
  have hput : (leField p.ext 4 1 == 0x10) = false := beq_eq_false_iff_ne.mpr (by omega)
  have hcas : (leField p.ext 4 1 == 0x11) = false := beq_eq_false_iff_ne.mpr (by omega)
  have hlen : aopLen (leField p.ext 4 1) (leField p.ext 5 1) p.payload.length = aopBits (leField p.ext 5 1) / 8 := by
    simp only [aopLen, beq_eq_false_iff_ne.mp hput, beq_eq_false_iff_ne.mp hcas, show leField p.ext 4 1 < 0x10 by omega, if_true, if_false]
  have hlease : decide (0x18 ≤ leField p.ext 4 1) = false := decide_eq_false (by omega)
  have hpublish : leField p.ext 4 1 ≠ 0x20 := by omega
  rw [regionWait, if_pos rfl] at hfree
  simp only [doAtomic, hlen, hrange, hput, hcas, hlease, hpublish, halign, hthere, hfree, hlines, atomApply, atomEnd, beq_eq_false_iff_ne.mp hput,
    beq_eq_false_iff_ne.mp hcas, List.append_nil, Bool.or_self, Bool.false_and,
    Bool.false_eq_true, ne_eq, not_true, and_false, false_and, or_self, if_false, Option.orElse_none]
  rfl

end

theorem acked_congr {s t u : State} {i : Nat} {req : Bool} (h : t = u) :
    goesOn s (qpSettle (mcastSettle (ackAfter t i req)) i) = goesOn s (qpSettle (mcastSettle (ackAfter u i req)) i) := by rw [h]

/-- Settles O53: a packet that its queue pair takes is answered at once or accepted; the only one waiting has its turn, and ends as its operation does. -/
theorem receiversPerform : Obligations.ReceiversPerform := by
  intro s p row hrow
  have hcredit := dataRow_credited row hrow
  refine ⟨fun hheard hnone => ?unnamed, fun i q htaken => ?taken, fun i q k r => ?operations⟩
  case unnamed => rw [exec_dataRow row hrow s p hheard.port, receive_unnamed hheard hnone]
  case taken =>
    rw [exec_dataRow row hrow s p htaken.heard.port, receive_data htaken hcredit]
    refine ⟨fun hdup hkept hatomic hread => ?_, fun hnew huncounted hlimit => ?_, fun hnew huncounted hlimit =>
      ⟨fun hfar => ?_, fun hnear hopen => ?_, fun b hnear hopen => ?accepted⟩⟩
    · exact settled_congr (dataPacket_repeat hdup hkept hatomic hread)
    · exact settled_congr (dataPacket_overCredit hnew huncounted hlimit)
    · exact settled_congr (dataPacket_ahead hnew huncounted hlimit hfar)
    · exact settled_congr (dataPacket_badTag hnew huncounted hlimit hnear hopen)
    case accepted =>
      rw [dataPacket_accepted hnew huncounted hlimit hnear hopen]
      refine ⟨rfl, fun y hy hrx hnext => ?_⟩
      rw [rxRun_single hy hrx]
      refine ⟨fun hlsem hsend => ?performs, fun hop hrop hfirst hlast => ?contribution⟩
      case performs =>
        exact ⟨fun W ans hout => acked_congr (rxTry_ended hy hrx rfl hnext hlsem hsend hout),
          fun W us hout => acked_congr (rxTry_waits hy hrx rfl hnext hlsem hsend hout),
          fun W d ds ans hout => acked_congr (rxTry_deltas hy hrx rfl hnext hlsem hsend hout),
          fun W hout => acked_congr (rxTry_rnr hy hrx rfl hnext hlsem hsend hout),
          fun W k hout hbranches => acked_congr (rxTry_branching hy hrx rfl hnext hlsem hsend hout hbranches)⟩
      case contribution =>
        rw [rxTry_lsem hy hrx rfl hnext hop hrop]
        exact ⟨fun e hcheck => acked_congr (rxLsem_refused hrx rfl hop hrop hfirst hlast hcheck),
          fun hcheck => acked_congr (rxLsem_applied hrx rfl hop hrop hfirst hlast hcheck)⟩
  case operations =>
    intro off n hopen
    refine ⟨fun hrange hthere hfree hlines => ?write, ?readReq, ?atomic⟩
    case write => rw [perform_write hopen, doWrite_stores rfl hrange hthere hfree hlines]
    case readReq =>
      intro len a hslot hmax hpos hrange hthere hfree hlines
      rw [perform_readReq hopen, doRead_answers rfl hslot hmax hpos hrange hthere hfree hlines]
      rfl
    case atomic =>
      intro aop width m a hlow hhigh hrange halign hthere hfree hlines
      rw [perform_atomic hopen, doAtomic_applies rfl rfl hlow hhigh hrange halign hthere hfree hlines]

end Sys2Proof.Machine
end

section
/-! PROOFS. The sending side (R303 to R314, R317, R320, R326, R349, R370): the start of a work request, the packet that a port's arbiter chose, and the timers. -/

namespace Sys2Proof.Machine

/-! ### The events whose rows are rewritten by name -/

theorem exec_workRequestStart (i : Nat) (s : State) : exec (.workRequestStart i) s = goesOn s (qpSettle (rootSettle (wrStart s i)) i) := rfl
theorem exec_packetTransmit {port : Nat} (hport : port < 8) (s : State) : exec (.packetTransmit port) s = goesOn s (packetTransmit s port) :=
  withUnit_there (decide_eq_true hport)
theorem exec_rtoExpiry (i psn : Nat) (s : State) : exec (.rtoExpiry i psn) s = goesOn s (rtoExpiry s i psn) := rfl
theorem exec_pathHoldExpiry (node path : Nat) (s : State) : exec (.pathHoldExpiry node path) s = goesOn s (pathHoldExpiry s node path) := rfl

/-! ### The start of a work request (R296, R303, R320, R349) -/

/-- A multicast posted here, which this node performs as the root of its group. -/
def atRoot (w : SendWr) : Bool := wrOp w.wr == Cw.mcast && w.fwd.isNone

/-- The request that a queue pair starts next: the first that has not started and that no fence holds back. -/
def nextStart (s : State) (q : Qp) : Option SendWr := q.stream.find? fun w => !w.started && !(bit q.mode 0 && atRoot w && fenceHeld s q w)

/-- The state once a request has started, under the next message number. -/
def msgStarted (s : State) (i : Nat) (q : Qp) (w : SendWr) : State :=
  let p := startMsg q w
  s.setQp i { p.1 with stream := p.1.stream.map fun x => if x.ord = w.ord then { x with started := true, msg := p.2 } else x }

theorem fwd_of_atRoot {w : SendWr} (h : atRoot w = true) : w.fwd = none := by
  simp only [atRoot, Bool.and_eq_true, Option.isNone_iff_eq_none] at h
  exact h.2

/-- A request posted here that fails before it has sent anything ends FENCED with its detail. -/
theorem failWr_posted {w : SendWr} (hfwd : w.fwd = none) (s : State) (i : Nat) (q : Qp) (dt : Nat) :
    failWr s i q w dt =
      postWc (s.setQp i { q with stream := q.stream.filter fun x => x.ord != w.ord }) q (wrId w.wr) w.bytes Status.fenced.code dt (wrOp w.wr) w.result := by
  rw [failWr, hfwd]; rfl

section
variable {s : State} {i : Nat} {q : Qp} (hq : s.qpAt i = some q)
include hq

theorem wrStart_notReady (h : q.state ≠ .ready) : wrStart s i = s := by simp only [wrStart, hq, h, ne_eq, not_false_eq_true, if_true]

section
variable (hready : q.state = .ready)
include hready

theorem wrStart_offDie (hoff : s.cwt.resident.contains i = false) (hwork : q.stream ≠ []) : wrStart s i = qpFetch s i := by
  simp only [wrStart, hq, hready, hoff, ne_eq, not_true, Bool.not_false, if_true, if_false, List.isEmpty_iff, hwork]

variable (hdie : s.cwt.resident.contains i = true)
include hdie

/-- What starts on die is the next request, at the root or towards the peer. -/
theorem wrStart_onDie :
    wrStart s i =
      match nextStart s q with
      | none => s
      | some w =>
        if atRoot w then (if fenceHeld s q w then s else mcastRoot s i q w)
        else if !routeOk s q.peerNode then failWr s i q w Detail.CWT_NO_ROUTE
        else
          match (if w.fwd.isSome then none else localStop s w.wr) with
          | some dt => failWr s i q w dt
          | none =>
            let us := if w.fwd.isSome then [] else localBlocked s w.wr
            if !us.isEmpty then blockOn s us
            else msgStarted s i q w := by
  simp only [wrStart, hq, hready, hdie, ne_eq, not_true, Bool.not_true, Bool.false_eq_true, if_false]
  rfl

theorem wrStart_nothing (hstarted : ∀ w ∈ q.stream, w.started = true) : wrStart s i = s := by
  have hnext : nextStart s q = none :=
    List.find?_eq_none.mpr fun w hw => by simp only [hstarted w hw, Bool.not_true, Bool.false_and, Bool.false_eq_true, not_false_eq_true]
  rw [wrStart_onDie hq hready hdie, hnext]

section
variable {w : SendWr} (hnext : nextStart s q = some w)
include hnext

theorem wrStart_held (hroot : atRoot w = true) (hfence : fenceHeld s q w = true) : wrStart s i = s := by
  simp only [wrStart_onDie hq hready hdie, hnext, hroot, hfence, if_true]

theorem wrStart_root (hroot : atRoot w = true) (hfence : fenceHeld s q w = false) : wrStart s i = mcastRoot s i q w := by
  simp only [wrStart_onDie hq hready hdie, hnext, hroot, hfence, if_true, Bool.false_eq_true, if_false]

variable (hroot : atRoot w = false)
include hroot

theorem wrStart_noRoute (hroute : routeOk s q.peerNode = false) : wrStart s i = failWr s i q w Detail.CWT_NO_ROUTE := by
  simp only [wrStart_onDie hq hready hdie, hnext, hroot, hroute, Bool.not_false, if_true, Bool.false_eq_true, if_false]

variable (hroute : routeOk s q.peerNode = true)
include hroute

theorem wrStart_waits (hfwd : w.fwd = none) (hstop : localStop s w.wr = none) (hblocked : localBlocked s w.wr ≠ []) :
    wrStart s i = blockOn s (localBlocked s w.wr) := by
  simp only [wrStart_onDie hq hready hdie, hnext, hroot, hroute, hfwd, hstop, List.isEmpty_eq_false_iff.mpr hblocked, Option.isSome_none, Bool.not_true,
    Bool.not_false, Bool.false_eq_true, if_false, if_true]

theorem wrStart_starts (hlocal : w.fwd = none → localStop s w.wr = none ∧ localBlocked s w.wr = []) :
    wrStart s i = msgStarted s i q w := by
  have hstop : (if w.fwd.isSome then none else localStop s w.wr) = none := by
    split
    case isTrue => rfl
    case isFalse hown => exact (hlocal (Option.not_isSome_iff_eq_none.mp hown)).1
  have hfree : (if w.fwd.isSome then [] else localBlocked s w.wr) = [] := by
    split
    case isTrue => rfl
    case isFalse hown => exact (hlocal (Option.not_isSome_iff_eq_none.mp hown)).2
  simp only [wrStart_onDie hq hready hdie, hnext, hroot, hroute, hstop, hfree, List.isEmpty_nil, Bool.not_true, Bool.false_eq_true, if_false]

end

end

end

/-- A multicast whose group entry is bad fails at its root (R350). -/
theorem mcastRoot_badGroup {s : State} {i : Nat} {q : Qp} {w : SendWr} (hbad : mcastBad s (leNat ((wrOperands w.wr).take 2)) 0 = true) :
    mcastRoot s i q w = failWr s i q w Detail.MEM_GROUP := by simp only [mcastRoot, hbad, if_true]

theorem started_congr {s t u : State} {i : Nat} (h : t = u) : goesOn s (qpSettle (rootSettle t) i) = goesOn s (qpSettle (rootSettle u) i) := by rw [h]

/-! ### PACKET_TRANSMIT (R307, R369, R370) -/

/-- A port begins a cycle: requests with no route have ended, and every shaper has been refilled. -/
def cycleBegun (s : State) (port : Nat) : State :=
  let S := cycleStep (s.cwt.qps.foldl (fun T e => routeLost T e.1) s) port
  S.cwt.qps.foldl (fun T e => (qpShapers T e.2).foldl shpConsult T) S

/-- What the arbiter chose leaves its queue pair. -/
def sendChosen (s : State) (i : Nat) (q : Qp) : Sendable → State
  | .again t path _ => sendAgain s i q t path
  | .resp r path _ => sendResp s i q r path
  | .fresh p path _ => sendFresh s i q p path

section
variable {s : State} {port : Nat}

theorem packetTransmit_idle (h : egrChoose (cycleBegun s port) port = none) : packetTransmit s port = cycleBegun s port := by
  simp only [cycleBegun] at h ⊢
  simp only [packetTransmit, h]

section
variable {o : EgrOffer} {U : State} {q : Qp} (hchoice : egrChoose (cycleBegun s port) port = some (o, U)) (hq : U.qpAt o.qp = some q)
include hchoice hq

theorem packetTransmit_refused {d : Nat} (hseal : sealRefused U q o.what = some d) : packetTransmit s port = qpError U o.qp d := by
  simp only [cycleBegun] at hchoice
  simp only [packetTransmit, hchoice, hq, hseal]

variable (hseal : sealRefused U q o.what = none)
include hseal

theorem packetTransmit_stopped {d : Nat} (hstop : sendStopped U q o.what = some d) :
    packetTransmit s port = egrSettle (qpSettle (sendFails U o.qp q o.what d) o.qp) port o := by
  simp only [cycleBegun] at hchoice
  simp only [packetTransmit, hchoice, hq, hseal, hstop]

/-- What was chosen is charged to its shapers and sent. -/
theorem packetTransmit_sends (hstop : sendStopped U q o.what = none) :
    let X := sendChosen (qpTouch (shpCharge U q o.cost) o.qp) o.qp q o.what
    packetTransmit s port = egrSettle (wheelAll (qpSettle X o.qp) (qpShapers X q)) port o := by
  simp only [cycleBegun] at hchoice
  simp only [packetTransmit, hchoice, hq, hseal, hstop]
  cases o.what <;> rfl

end

end

section
variable {s : State} {i : Nat} {q : Qp} {path : Nat}

theorem sendResp_sends {r : TxResp} (hattempt : q.respAttempt r.psn ≤ 255) :
    let W : State := { s with cwt := { s.cwt with rotor := amSet q.peerNode ((path + 1) % 32) s.cwt.rotor } }
    sendResp s i q r path = sendPacket (W.setQp i { q.count 0 with
      resp := q.resp.drop 1, respSent := amSet r.psn (q.respAttempt r.psn + 1) q.respSent, waitSince := none }) r.op q.dscp path (respBuild W q r) := by
  simp only [sendResp, Nat.not_lt.mpr hattempt, if_false]

/-- A new packet of a request that is no forward and no read (R307, R313, R317). -/
theorem sendFresh_sends {p : NewPkt} (hsent : q.newSent < 4294901760) (hfwd : p.wr.fwd = none) (hread : wrOp p.wr.wr ≠ Cw.readReq) :
    let last := decide (wrPayload p.wr.wr ≤ p.wr.next + p.len)
    let z := freshQp s q p path last
    let W : State := { s with cwt := { s.cwt with rotor := amSet q.peerNode ((path + 1) % 32) s.cwt.rotor } }
    sendFresh s i q p path = sendPacket (W.setQp i (z.count 0)) (wrOp p.wr.wr) q.dscp path (txBuild W z p.wr (freshTx s q p path last)) := by
  have hown : p.wr.fwd.isSome = false := Option.isSome_eq_false_iff.mpr (Option.isNone_iff_eq_none.mpr hfwd)
  simp only [sendFresh, Nat.not_le.mpr hsent, hown, hread, Bool.false_eq_true, if_false]
  rfl

end

/-! ### Timers (R310 to R314, R326) -/

section
variable {s : State} {i : Nat} {q : Qp} (hq : s.qpAt i = some q)
include hq

section
variable {psn : Nat} {t : TxPkt} (hfind : (q.unacked.find? fun t => t.psn == psn && !t.due && !t.sacked && !t.creditWait && t.rnrAt.isNone) = some t)
include hfind

theorem rtoExpiry_early (htime : s.now < t.last + rtoNs s q * 2 ^ t.doublings) : rtoExpiry s i psn = s := by
  simp only [rtoExpiry, hq, hfind, Nat.not_le.mpr htime, if_false]

theorem rtoExpiry_due (htime : t.last + rtoNs s q * 2 ^ t.doublings ≤ s.now) :
    let U := clearHolds { s with cwt := { s.cwt with holds := amSet (32 * q.peerNode + t.path) (s.now + pathHoldNs s) s.cwt.holds } } q.peerNode
    rtoExpiry s i psn = qpSettle ((U.setQp i
      { q with unacked := q.unacked.map fun x => if x.psn = psn then { x with due := true, dueAt := U.now, doublings := x.doublings + 1 } else x }).cnt Reg.CWT_RETX_TIMEOUT 1) i := by
  simp only [rtoExpiry, hq, hfind, htime, if_true]

end

section
variable {psn at_ : Nat} (hnone : ∀ t ∈ q.unacked, t.psn ≠ psn) (hcredit : q.creditAt = some at_)
include hnone hcredit

/-- With no such PSN outstanding the timer is that of a credit request. -/
theorem rtoExpiry_credit : rtoExpiry s i psn = if at_ + rtoNs s q ≤ s.now then qpSettle (s.setQp i { q with creditAt := none }) i else s := by
  have hfind : (q.unacked.find? fun t => t.psn == psn && !t.due && !t.sacked && !t.creditWait && t.rnrAt.isNone) = none :=
    List.find?_eq_none.mpr fun t ht => by simp only [beq_eq_false_iff_ne.mpr (hnone t ht), Bool.false_and, Bool.false_eq_true, not_false_eq_true]
  simp only [rtoExpiry, hq, hfind, hcredit]

end

theorem giveUp_early (h : q.unacked = [] ∨ s.now < q.unaTime + giveUpNs s) : giveUp s i = s := by
  rw [giveUp, hq]
  rcases h with hnone | htime
  · simp only [hnone]
  · cases hun : q.unacked with
    | nil => simp only [hun]
    | cons t l => simp only [hun, Nat.not_le.mpr htime, and_false, if_false]

theorem giveUp_due {t : TxPkt} {l : List TxPkt} (hun : q.unacked = t :: l) (hstate : q.state = .ready ∨ q.state = .draining)
    (htime : q.unaTime + giveUpNs s ≤ s.now) :
    giveUp s i = qpError (setEvent s Reg.CWT_QP_EVENT_GIVE_UP 1) i (if t.rnrSeen then Detail.CWT_RNR else Detail.CWT_GIVE_UP) := by
  simp only [giveUp, hq, hun, hstate, htime, and_self, if_true]

theorem ackDelayExpiry_early (h : q.toAck = 0 ∨ s.now < q.toAckAt + ackDelayNs s) : ackDelayExpiry s i = s := by
  have hwait : ¬ (0 < q.toAck ∧ q.toAckAt + ackDelayNs s ≤ s.now) := by omega
  simp only [ackDelayExpiry, hq, hwait, if_false]

theorem ackDelayExpiry_due (hack : 0 < q.toAck) (htime : q.toAckAt + ackDelayNs s ≤ s.now) : ackDelayExpiry s i = sendAck s i := by
  simp only [ackDelayExpiry, hq, hack, htime, and_self, if_true]

/-- An ACK carries the grant, RCV_NXT and the receive map (R308, R312). -/
theorem sendAck_sends :
    let z := { grant s q with toAck := 0 }
    sendAck s i = sendOnRotor (s.setQp i (z.count 0)) Cw.ack z.dscp
      (ctlPacket s z z.sndNxt z.rcvNxt 16 (leBytes 4 z.rcvLimit ++ leBytes 4 0 ++ leBytes 32 (rcvMap z))) := by
  simp only [sendAck, hq]

theorem rnrRetry_due (psn : Nat) :
    let due (t : TxPkt) : Bool := t.psn == psn && (match t.rnrAt with | some at_ => decide (at_ ≤ s.now) | none => false)
    rnrRetry s i psn =
      qpSettle (s.setQp i { q with unacked := q.unacked.map fun t => if due t then { t with due := true, dueAt := s.now, rnrAt := none } else t }) i := by
  simp only [rnrRetry, hq] <;> rfl

end

section
variable {s : State} {node path : Nat}

theorem pathHoldExpiry_free (hnone : amGet (32 * node + path) s.cwt.holds = none) : pathHoldExpiry s node path = s := by rw [pathHoldExpiry, hnone]

section
variable {t : Nat} (hhold : amGet (32 * node + path) s.cwt.holds = some t)
include hhold

theorem pathHoldExpiry_early (htime : s.now < t) : pathHoldExpiry s node path = s := by
  simp only [pathHoldExpiry, hhold, Nat.not_le.mpr htime, and_false, if_false]

theorem pathHoldExpiry_due (hpath : path < 32) (htime : t ≤ s.now) :
    pathHoldExpiry s node path = { s with cwt := { s.cwt with holds := amErase (32 * node + path) s.cwt.holds } } := by
  simp only [pathHoldExpiry, hhold, hpath, htime, and_self, if_true]

end

end

/-- Settles O52: each event of the sending side acts as the lemma of its case says. -/
theorem sendersSendAndRetry : Obligations.SendersSendAndRetry := by
  intro s i q hq
  refine ⟨?start, ?transmit, ?rto, ?credit, ?giveUpEarly, ?giveUpDue, ?ackEarly, ?ackDue, ?hold, ?rnr⟩
  case start =>
    simp only [exec_workRequestStart]
    refine ⟨fun h => ?_, fun hready hoff hwork => ?_, fun w hready hdie hnext => ⟨fun hroot hroute hlocal => ?_, fun hroot hfwd hroute hstop hblocked => ?_,
      fun hroot hfwd hroute => ?_, fun hroot hfence => ?_, fun hroot hfence hbad => ?_, fun hroot hfence => ?_⟩⟩
    · have hnothing : wrStart s i = s := by
        by_cases hready : q.state = .ready
        · obtain ⟨hdie, hstarted⟩ := h.resolve_left (absurd hready)
          exact wrStart_nothing hq hready hdie hstarted
        · exact wrStart_notReady hq hready
      rw [hnothing]
    · rw [wrStart_offDie hq hready hoff hwork]
    · exact started_congr (wrStart_starts hq hready hdie hnext hroot hroute hlocal)
    · exact started_congr (wrStart_waits hq hready hdie hnext hroot hroute hfwd hstop hblocked)
    · exact started_congr ((wrStart_noRoute hq hready hdie hnext hroot hroute).trans (failWr_posted hfwd ..))
    · exact started_congr (wrStart_held hq hready hdie hnext hroot hfence)
    · exact started_congr ((wrStart_root hq hready hdie hnext hroot hfence).trans
        ((mcastRoot_badGroup hbad).trans (failWr_posted (fwd_of_atRoot hroot) ..)))
    · exact started_congr (wrStart_root hq hready hdie hnext hroot hfence)
  case transmit =>
    intro port hport S P
    simp only [exec_packetTransmit hport]
    refine ⟨fun hidle => congrArg (goesOn s) (packetTransmit_idle hidle), fun o U q hchoice hqp => ⟨fun d hseal => ?_, fun d hseal hstop => ?_, fun hseal hstop => ?_⟩⟩
    · exact congrArg (goesOn s) (packetTransmit_refused hchoice hqp hseal)
    · exact congrArg (goesOn s) (packetTransmit_stopped hchoice hqp hseal hstop)
    · have hsends := packetTransmit_sends hchoice hqp hseal hstop
      refine ⟨fun t path frame hwhat => ?_, fun r path frame hwhat hattempt => ?_, fun p path frame hwhat => ⟨?_, fun hsent hfwd hread => ?_⟩⟩
      all_goals rw [hsends, hwhat, sendChosen]
      · rw [sendResp_sends hattempt]
      · rw [sendFresh_sends hsent hfwd hread]
  case rto =>
    intro psn t hfind
    simp only [exec_rtoExpiry]
    exact ⟨fun htime => congrArg (goesOn s) (rtoExpiry_early hq hfind htime), fun htime => congrArg (goesOn s) (rtoExpiry_due hq hfind htime)⟩
  case credit =>
    intro psn at_ hnone hcredit
    simp only [exec_rtoExpiry, rtoExpiry_credit hq hnone hcredit]
    exact ⟨fun htime => congrArg (goesOn s) (if_neg (Nat.not_le.mpr htime)), fun htime => congrArg (goesOn s) (if_pos htime)⟩
  case giveUpEarly => exact fun h => congrArg (goesOn s) (giveUp_early hq h)
  case giveUpDue => exact fun t l hun hstate htime => congrArg (goesOn s) (giveUp_due hq hun hstate htime)
  case ackEarly => exact fun h => congrArg (goesOn s) (ackDelayExpiry_early hq h)
  case ackDue => exact fun hack htime => congrArg (goesOn s) ((ackDelayExpiry_due hq hack htime).trans (sendAck_sends hq))
  case hold =>
    intro node path
    simp only [exec_pathHoldExpiry]
    exact ⟨fun hnone => congrArg (goesOn s) (pathHoldExpiry_free hnone), fun t hhold hpath =>
      ⟨fun htime => congrArg (goesOn s) (pathHoldExpiry_early hhold htime), fun htime => congrArg (goesOn s) (pathHoldExpiry_due hhold hpath htime)⟩⟩
  case rnr => exact fun psn => congrArg (goesOn s) (rnrRetry_due hq psn)

end Sys2Proof.Machine
end

section
/-! PROOFS. Queue pairs made, moved between states, fetched and drained (R298 to R302, R309, R324, R325, R344, R366, R466). -/

namespace Sys2Proof.Machine

/-! ### The block that performs each command, and each event -/

theorem exec_qpCreate (c : Cmd) (s : State) : exec (.qpCreate c) s = runPlain s Op.QP_CREATE c (qpCreateBody c) := rfl
theorem exec_qpModify (c : Cmd) (s : State) : exec (.qpModify c) s = runPlain s Op.QP_MODIFY c (qpModifyBody c) := rfl
theorem exec_qpDestroy (c : Cmd) (s : State) : exec (.qpDestroy c) s = runPlain s Op.QP_DESTROY c (qpDestroyBody c) := rfl
theorem exec_qpCtxFetched (i : Nat) (crcOk retryOk : Bool) (s : State) : exec (.qpCtxFetched i crcOk retryOk) s = goesOn s (qpCtxFetched s i crcOk retryOk) := rfl
theorem exec_qpDrained (i : Nat) (s : State) : exec (.qpDrained i) s = goesOn s (qpDrained s i) := rfl

/-! ### QP_CREATE (R299, R301, R302, R324) -/

/-- The state once a queue pair has an index and its name, not yet placed. -/
def qpMade (T : State) (q : Qp) (i : Nat) (p : IdPool) : State :=
  { T with cwt := { T.cwt with ids := p, qps := amSet i { q with qpn := p.ringOf i * 2 ^ 24 + i } T.cwt.qps } }

theorem qpPlace_room {s : State} {i : Nat} (hout : s.cwt.resident.contains i = false) (hroom : s.cwt.resident.length < qpDie s) :
    qpPlace s i = some (qpRegs { s with cwt := { s.cwt with resident := s.cwt.resident ++ [i] } }) := by
  simp only [qpPlace, hout, hroom, Bool.false_eq_true, if_false, if_true]

section
variable {T : State} {c : Cmd} {d : List Byte} (hdesc : qpDescOk (qpOfDesc d 0 c.arg0) c.fn (leField d 0 4) (leField d 4 1) = true)
  {k : Cq} (hcq : amGet (qpOfDesc d 0 c.arg0).cq (T.fn (qpOfDesc d 0 c.arg0).fn).cqs = some k) (htyp : k.typ = 1)
include hdesc hcq htyp

theorem qpCreateBody_noIndex (halloc : T.cwt.ids.alloc (qpCount T) T.now = none) : qpCreateBody c T d = (T, some (Done.of .noCredit 0)) := by
  simp only [qpCreateBody, hdesc, hcq, htyp, halloc, beq_self_eq_true, Bool.not_true, Bool.false_eq_true, if_false, fail]

theorem qpCreateBody_makes {i : Nat} {p : IdPool} (halloc : T.cwt.ids.alloc (qpCount T) T.now = some (i, p)) :
    let U := qpMade T (qpOfDesc d 0 c.arg0) i p
    qpCreateBody c T d = ((qpPlace U i).getD (qpStore (qpRegs U) i), some { Done.ok with result := p.ringOf i * 2 ^ 24 + i }) := by
  simp only [qpCreateBody, hdesc, hcq, htyp, halloc, beq_self_eq_true, Bool.not_true, Bool.false_eq_true, if_false]
  rfl

end

/-! ### The queue pair that a command names (R298) -/

section
variable {T : State} {c : Cmd} {g : Nat → Qp → State × Option Done}

theorem withQp_unknown (h : T.qp c.arg0 = none) : withQp c T g = (T, some (Done.of .stale 0)) := by simp only [withQp, h, fail]

theorem withQp_named {i : Nat} {q : Qp} (h : T.qp c.arg0 = some (i, q)) (hmay : c.fn = 0 ∨ q.fn = c.fn) : withQp c T g = g i q := by
  have hown : ¬ (c.fn ≠ 0 ∧ q.fn ≠ c.fn) := fun ⟨hfn, hother⟩ => hmay.elim hfn hother
  simp only [withQp, h, hown, if_false]

end

/-! ### QP_MODIFY (R302) -/

section
variable {T : State} {c : Cmd} {d : List Byte} {i : Nat} {q : Qp}

theorem qpModifyBody_unknown (h : T.qp c.arg0 = none) : qpModifyBody c T d = (T, some (Done.of .stale 0)) := withQp_unknown h

section
variable (hqp : T.qp c.arg0 = some (i, q)) (hmay : c.fn = 0 ∨ q.fn = c.fn)
include hqp hmay

theorem qpModifyBody_noMove (h : (q.state, c.arg1) ∉ qpMoves) : qpModifyBody c T d = (T, some (Done.of .conflict Detail.CWT_QP_STATE)) := by
  refine (withQp_named hqp hmay).trans ?_
  split
  case h_7 => rfl
  all_goals
    rename_i hstate harg
    rw [hstate, harg] at h
    exact absurd (by decide) h

theorem qpModifyBody_drains (hstate : q.state = .ready) (harg : c.arg1 = 2) :
    qpModifyBody c T d = (qpSave (T.setQp i { q with state := .draining, drainPosted := false }) i, some Done.ok) := by
  refine (withQp_named hqp hmay).trans ?_
  simp only [hstate, harg]

theorem qpModifyBody_resumes (hstate : q.state = .draining) (harg : c.arg1 = 1) :
    qpModifyBody c T d = (qpSave (T.setQp i { q with state := .ready }) i, some Done.ok) := by
  refine (withQp_named hqp hmay).trans ?_
  simp only [hstate, harg]

theorem qpModifyBody_fails (hstate : q.state = .ready ∨ q.state = .draining) (harg : c.arg1 = 3) : qpModifyBody c T d = (qpError T i 0, some Done.ok) := by
  refine (withQp_named hqp hmay).trans ?_
  rcases hstate with hstate | hstate <;> simp only [hstate, harg]

theorem qpModifyBody_resets (hstate : q.state = .error) (harg : c.arg1 = 0) : qpModifyBody c T d = (toReset T i q, some Done.ok) := by
  refine (withQp_named hqp hmay).trans ?_
  simp only [hstate, harg]

theorem qpModifyBody_opens (hstate : q.state = .reset) (harg : c.arg1 = 1) : qpModifyBody c T d = toReady T i q d := by
  refine (withQp_named hqp hmay).trans ?_
  simp only [hstate, harg]

end

/-- With no ring of atomic results to give up, the key's pin goes alone (R344, R455). -/
theorem toReset_noRing (harc : q.arc = none) :
    toReset T i q = qpSave ((if q.rcvWindow = 0 then T else keyUnpin T q.keySlot).setQp i
      { q with state := .reset, rcvUnits := 0, rcvWindow := 0, rcvLimit := 0, sndUsed := 0, sndLimit := 0, shaper := none, arc := none,
               redirected := [], sqHead := q.sqTail, posts := [], errStatus := 0, errDetail := 0 }) i := by
  simp only [toReset, harc]

section
variable (hzero : leField d 2 2 = 0)
include hzero

theorem toReady_saltReused (hsalt : amGet i T.cwt.salts = some ((d.drop 0x10).take 16)) :
    toReady T i q d = (T, some (Done.of .conflict Detail.KEY_SALT_REUSE)) := by
  simp only [toReady, hzero, hsalt, ne_eq, not_true, if_false, if_true, fail]

variable (hsalt : amGet i T.cwt.salts ≠ some ((d.drop 0x10).take 16))
include hsalt

theorem toReady_keyRefused {e : Status × Nat} (hkey : keyUse T q.keySlot q.tenant false = .error e) : toReady T i q d = (T, some (Done.of e.1 e.2)) := by
  simp only [toReady, hzero, hsalt, hkey, ne_eq, not_true, if_false, fail]

section
variable {e : KeyEnt} {x : Option Nat} (hkey : keyUse T q.keySlot q.tenant false = .ok e) (hbind : shaperBind T q = .ok x)
include hkey hbind

theorem toReady_noGrant (hgrant : grantFits T { q with peerNode := leField d 0 2, rcvUnits := 0, rcvLimit := 0 } 128 = false) :
    toReady T i q d = (T, some (Done.of .noCredit 0)) := by
  simp only [toReady, hzero, hsalt, hkey, hbind, hgrant, ne_eq, not_true, Bool.not_false, if_false, if_true, fail]

variable (hgrant : grantFits T { q with peerNode := leField d 0 2, rcvUnits := 0, rcvLimit := 0 } 128 = true)
include hgrant

theorem toReady_plain (hmode : bit q.mode 1 = false) : toReady T i q d = (readyQp T i q d x none, some Done.ok) := by
  simp only [toReady, hzero, hsalt, hkey, hbind, hgrant, hmode, ne_eq, not_true, Bool.not_true, Bool.false_eq_true, if_false]

theorem toReady_noRing (hmode : bit q.mode 1 = true) (hring : amFree T.rm.arc 0 4096 = none) :
    toReady T i q d = (T, some (Done.of .noCredit Detail.MEM_ARC_FULL)) := by
  simp only [toReady, hzero, hsalt, hkey, hbind, hgrant, hmode, arcRings, hring, ne_eq, not_true, Bool.not_true, Bool.false_eq_true, if_false, if_true, fail]

theorem toReady_ring {k : Nat} (hmode : bit q.mode 1 = true) (hring : amFree T.rm.arc 0 4096 = some k) :
    toReady T i q d = (readyQp T i q d x (some k), some Done.ok) := by
  simp only [toReady, hzero, hsalt, hkey, hbind, hgrant, hmode, arcRings, hring, ne_eq, not_true, Bool.not_true, Bool.false_eq_true, if_false, if_true]

end

end

/-! ### QP_DESTROY (R302) -/

theorem qpDestroyBody_unknown (h : T.qp c.arg0 = none) : qpDestroyBody c T d = (T, some (Done.of .stale 0)) := withQp_unknown h

section
variable (hqp : T.qp c.arg0 = some (i, q)) (hmay : c.fn = 0 ∨ q.fn = c.fn)
include hqp hmay

theorem qpDestroyBody_notReset (hstate : q.state ≠ .reset) : qpDestroyBody c T d = (T, some (Done.of .conflict Detail.CWT_QP_STATE)) :=
  (withQp_named hqp hmay).trans (if_neg hstate)

theorem qpDestroyBody_drops (hstate : q.state = .reset) : qpDestroyBody c T d = (dropQp T i, some Done.ok) :=
  (withQp_named hqp hmay).trans (if_pos hstate)

end

end

/-! ### QP_CTX_FETCHED and QP_DRAINED (R302, R325) -/

/-- The state once the fetch of a context is over, the context not yet placed. -/
def fetchEnded (s : State) (i : Nat) : State := { s with cwt := { s.cwt with fetching := s.cwt.fetching.filter (· ≠ i) } }

section
variable {s : State} {i : Nat}

theorem qpCtxFetched_unasked (crcOk retryOk : Bool) (h : s.cwt.fetching.contains i = false) : qpCtxFetched s i crcOk retryOk = s := by
  simp only [qpCtxFetched, h, Bool.not_false, if_true]

section
variable {q : Qp} (hq : s.qpAt i = some q)
include hq

/-- A context that reads well, with room for it and no packet parked, is on die. -/
theorem qpCtxFetched_placed (hfetch : s.cwt.fetching.contains i = true) (hout : s.cwt.resident.contains i = false)
    (hroom : s.cwt.resident.length < qpDie s) (hparked : (s.cwt.missq.all fun m => m.pkt.dstQp % 2 ^ 24 != i) = true) (retryOk : Bool) :
    let P := qpRegs { s with cwt := { s.cwt with fetching := s.cwt.fetching.filter (· ≠ i), resident := s.cwt.resident ++ [i] } }
    onQuiesced P (qpHome P i) = false → qpCtxFetched s i true retryOk = qpSettle (missRegs P) i := by
  intro P hread
  have hplace : qpPlace (fetchEnded s i) i = some P := qpPlace_room hout hroom
  have hmine : (s.cwt.missq.filter fun m => m.pkt.dstQp % 2 ^ 24 == i) = [] := List.filter_eq_nil_iff.mpr fun m hm => by
    simpa using List.all_eq_true.mp hparked m hm
  have hrest : (P.cwt.missq.filter fun m => m.pkt.dstQp % 2 ^ 24 != i) = P.cwt.missq := List.filter_eq_self.mpr (List.all_eq_true.mp hparked)
  rw [fetchEnded] at hplace
  cases hstack : stackAt P (qpHome P i) <;>
    simp only [qpCtxFetched, hfetch, hq, hplace, hread, hmine, hstack, hrest, Bool.not_true, Bool.not_false, Bool.true_or, Bool.or_false, Bool.and_self,
      Bool.false_eq_true, if_false, if_true, List.foldl_nil]

theorem qpDrained_notYet (h : q.state ≠ .draining ∨ q.drainPosted = true ∨ q.stream.any (·.started) = true) : qpDrained s i = s := by
  have hnot : ¬ (q.state = .draining ∧ (!q.drainPosted) = true ∧ (!q.stream.any (·.started)) = true) := by
    rintro ⟨hstate, hposted, hstarted⟩
    simp only [Bool.not_eq_true'] at hposted hstarted
    simp only [hstate, hposted, hstarted, ne_eq, not_true, Bool.false_eq_true, or_self] at h
  simp only [qpDrained, hq, hnot, if_false]

theorem qpDrained_posts (hstate : q.state = .draining) (hposted : q.drainPosted = false) (hstarted : q.stream.any (·.started) = false) :
    qpDrained s i =
      setEvent (postWc (s.setQp i { q with drainPosted := true }).takeFree { q with drainPosted := true } (Config.freeNat s.free) 0 0 Detail.CWT_DRAINED
        (Config.freeNat s.free % 256) 0) Reg.CWT_QP_EVENT_DRAINED 1 := by
  simp only [qpDrained, hq, hstate, hposted, hstarted, Bool.not_false, and_self, if_true]
  rfl

end

end

end Sys2Proof.Machine
end

section
/-! PROOFS. Chokers and trigger counters (R321 to R323), and regions registered, deregistered and freed (R330 to R333, R380, R383). -/

namespace Sys2Proof.Machine

/-! ### The block that performs each command, and the event -/

theorem exec_chokerCancel (c : Cmd) (s : State) : exec (.chokerCancel c) s = runPlain s Op.CHOKER_CANCEL c (chokerCancelBody c) := rfl
theorem exec_trigAdd (c : Cmd) (s : State) : exec (.trigAdd c) s = runPlain s Op.TRIG_ADD c (trigAddBody c) := rfl
theorem exec_trigSet (c : Cmd) (s : State) : exec (.trigSet c) s = runPlain s Op.TRIG_SET c (trigSetBody c) := rfl
theorem exec_regionReg (c : Cmd) (s : State) : exec (.regionReg c) s = runCommand s Op.REGION_REG c regionBad (regionRegBody c) := rfl
theorem exec_regionDereg (c : Cmd) (s : State) : exec (.regionDereg c) s = runPlain s Op.REGION_DEREG c (regionDeregBody c) := rfl
theorem exec_regionFreed (i : Nat) (s : State) : exec (.regionFreed i) s = goesOn s (regionFreed s i) := rfl

/-! ### Chokers and trigger counters (R321 to R323) -/

theorem isort_one {α : Type} (le : α → α → Bool) (a : α) : isort le [a] = [a] := rfl

section
variable {T : State} {c : Cmd} {d : List Byte}

section
variable {mine : List (Nat × Choker)} (hmine : (T.cwt.chokers.filter fun e => wrId e.2.wr == c.arg0 && (c.fn == 0 || e.2.fn == c.fn)) = mine)
include hmine

theorem chokerCancelBody_none (h : mine = []) : chokerCancelBody c T d = (T, some (Done.of .conflict 0)) := by
  simp only [chokerCancelBody, hmine, h, isort, fail]

theorem chokerCancelBody_one {k i : Nat} {ch : Choker} {q : Qp} (h : mine = [(k, ch)]) (hq : T.qp ch.qpn = some (i, q)) :
    chokerCancelBody c T d =
      (wrEnds { T with cwt := { T.cwt with chokers := amErase k T.cwt.chokers } } q ch.wr 0 .errorFlushed Detail.CWT_NOT_SENT, some Done.ok) := by
  have hq' : State.qp { T with cwt := { T.cwt with chokers := amErase k T.cwt.chokers } } ch.qpn = some (i, q) := hq
  simp only [chokerCancelBody, hmine, h, isort_one, hq']

end

/-- What a counter holds once it is set (R321: 32 bits). -/
theorem trigCount_trigHeld (T : State) (t v : Nat) : trigCount (trigHeld T t v) t = v % 2 ^ 32 := by
  rw [trigCount, amGetD, trigHeld, amGet_set_same, Option.getD_some]

theorem pullChokers_none {t : Nat} (h : ∀ e ∈ T.cwt.chokers, e.2.trig = t → pulls (trigCount T t) e.2.threshold = false) : pullChokers T t = T := by
  have hgo : (T.cwt.chokers.filter fun e => e.2.trig == t && pulls (trigCount T t) e.2.threshold) = [] :=
    List.filter_eq_nil_iff.mpr fun e he => by
      simp only [Bool.and_eq_true, beq_iff_eq, not_and, Bool.not_eq_true]
      exact h e he
  simp only [pullChokers, hgo, isort, List.foldl_nil]

theorem pullChokers_one {t k i : Nat} {ch : Choker} {q : Qp} (hall : T.cwt.chokers = [(k, ch)]) (htrig : ch.trig = t)
    (hpull : pulls (trigCount T t) ch.threshold = true) (hq : T.qp ch.qpn = some (i, q)) : pullChokers T t = chokerGone T k ch i := by
  have hgo : (T.cwt.chokers.filter fun e => e.2.trig == t && pulls (trigCount T t) e.2.threshold) = [(k, ch)] := by
    simp only [hall, List.filter_cons, htrig, beq_self_eq_true, hpull, Bool.and_self, if_true, List.filter_nil]
  have hq' : State.qp { T with cwt := { T.cwt with chokers := amErase k T.cwt.chokers } } ch.qpn = some (i, q) := hq
  simp only [pullChokers, hgo, isort_one, List.foldl_cons, List.foldl_nil, hq']
  rfl

/-- A counter set to a value that reaches no choker pulls none. -/
theorem trigHeld_pullsNone {t v : Nat} (h : ∀ e ∈ T.cwt.chokers, e.2.trig = t → pulls (v % 2 ^ 32) e.2.threshold = false) :
    pullChokers (trigHeld T t v) t = trigHeld T t v :=
  pullChokers_none (by rwa [trigCount_trigHeld])

/-- A counter set to a value that reaches the one choker that waits pulls it. -/
theorem trigHeld_pullsOne {t v k i : Nat} {ch : Choker} {q : Qp} (hall : T.cwt.chokers = [(k, ch)]) (htrig : ch.trig = t)
    (hpull : pulls (v % 2 ^ 32) ch.threshold = true) (hq : T.qp ch.qpn = some (i, q)) :
    pullChokers (trigHeld T t v) t = chokerGone (trigHeld T t v) k ch i :=
  pullChokers_one (T := trigHeld T t v) hall htrig (by rwa [trigCount_trigHeld]) hq

theorem trigAddBody_eq : trigAddBody c T d = (pullChokers (trigHeld T c.arg0 (trigCount T c.arg0 + c.arg1)) c.arg0, some Done.ok) := rfl

theorem trigSetBody_backward (h : ¬ (c.arg1 + 2 ^ 32 - trigCount T c.arg0) % 2 ^ 32 < 2 ^ 31) :
    trigSetBody c T d = (trigHeld T c.arg0 c.arg1, some Done.ok) := by
  simp only [trigSetBody, h, decide_false, Bool.false_eq_true, if_false]
  rfl

theorem trigSetBody_forward (h : (c.arg1 + 2 ^ 32 - trigCount T c.arg0) % 2 ^ 32 < 2 ^ 31) :
    trigSetBody c T d = (pullChokers (trigHeld T c.arg0 c.arg1) c.arg0, some Done.ok) := by
  simp only [trigSetBody, h, decide_true, if_true]
  rfl

end

/-! ### What the end of a wait leaves unchanged -/

section
variable (s : State) (w : HeldWork)

theorem unhold_r (f : Fld) : (unhold s w).r f = s.r f := by rw [unhold]; split <;> rfl
theorem unhold_rm : (unhold s w).rm = s.rm := by rw [unhold]; split <;> rfl
theorem regionTblAddr_unhold (i : Nat) : regionTblAddr (unhold s w) i = regionTblAddr s i := by rw [regionTblAddr, unhold_r, ← regionTblAddr]

end

/-- An ending that needs no acknowledgement comes at once, with its result (R383). -/
theorem okWhenAcked_now {old t : State} (h : newDeltas old t = []) (o : Nat) (c : Cmd) (n : Nat) :
    okWhenAcked old t o c n = (t, some { Done.ok with result := n }) := by
  simp only [okWhenAcked, h, List.isEmpty_nil, if_true]

theorem okWhenAcked_later {old t : State} (h : newDeltas old t ≠ []) (o : Nat) (c : Cmd) (n : Nat) :
    okWhenAcked old t o c n = (waitDeltas t (newDeltas old t) (.command o c n), none) := by
  simp only [okWhenAcked, List.isEmpty_iff, h, if_false]

/-! ### REGION_REG (R331, R332, R380, R423) -/

/-- The snag map's bytes of a region: one bit per line where ACCESS asks for snags (R331). -/
def snagBytes (r : Region) : Nat := if r.can 5 then (r.length / 64 + 7) / 8 else 0

/-- The units that hold up the registration of a region: those of its table entry and of its snag map (R385, R388). -/
def regUnits (T : State) (i : Nat) (r : Region) : List Nat :=
  blockedUnits T (regionTblAddr T i) 128 true ++ (if snagBytes r = 0 then [] else blockedUnits T r.snagAddr (snagBytes r) true)

/-- The state once a region stands in the table as live under its key, its snag map clear. -/
def registered (U : State) (p : IdPool) (i : Nat) (r : Region) (addr : Nat) : State :=
  let V := putBytes { U with rm := { U.rm with ids := p, regions := amSet i { r with key := p.ringOf i * 2 ^ 24 + i } U.rm.regions } } addr
    (regionImage { r with key := p.ringOf i * 2 ^ 24 + i } 1)
  if r.can 5 then putZeros V r.snagAddr (snagBytes r) else V

/-- What REGION_REG writes: the region, live, and its snag map. -/
theorem registered_setRegion {T U : State} {i : Nat} (haddr : regionTblAddr T i = regionTblAddr U i) {r : Region} (hlive : r.closing = false) (p : IdPool) :
    (let z := setRegion { U with rm := { U.rm with ids := p } } i { r with key := p.ringOf i * 2 ^ 24 + i }
     if r.can 5 then putZeros z r.snagAddr (snagBytes r) else z) = registered U p i r (regionTblAddr T i) := by
  rw [haddr, registered]
  simp only [setRegion, hlive]
  rfl

section
variable {T : State} {c : Cmd} {d : List Byte}

theorem regionRegBody_changing (h : T.changing = true) : regionRegBody c T d = fail T .conflict Detail.ROLE_BUSY := by
  simp only [regionRegBody, h, if_true]

section
variable {i : Nat} {p : IdPool} (hstill : T.changing = false)
  (hmay : c.fn = 0 ∨ ((regionOf d 0 c.fn).kind = 0 ∧ xaSpace (regionOf d 0 c.fn).base = 3 ∧ (regionOf d 0 c.fn).can 5 = false))
  (halloc : T.rm.ids.alloc (regionCount T) T.now = some (i, p))

include hmay in
theorem regionReg_allowed :
    ¬ (c.fn ≠ 0 ∧ ((regionOf d 0 c.fn).kind ≠ 0 ∨ xaSpace (regionOf d 0 c.fn).base ≠ 3 ∨ (regionOf d 0 c.fn).can 5 = true)) := by
  rintro ⟨hfn, hbad⟩
  obtain ⟨hkind, hspace, hsnag⟩ := hmay.resolve_left hfn
  simp only [hkind, hspace, hsnag, ne_eq, not_true, Bool.false_eq_true, or_self] at hbad

include hstill hmay halloc

theorem regionRegBody_unprotected (h : regionUnprotected T i (regionOf d 0 c.fn) = true) : regionRegBody c T d = fail T .fenced Detail.CP_UNPROTECTED := by
  simp only [regionRegBody, hstill, regionReg_allowed hmay, halloc, h, Bool.false_eq_true, if_false, if_true]

variable (hprot : regionUnprotected T i (regionOf d 0 c.fn) = false) (hreach : writeStop T (regionTblAddr T i) 128 = none)
  (hsnag : writeStop T (regionOf d 0 c.fn).snagAddr (snagBytes (regionOf d 0 c.fn)) = none)
include hprot hreach hsnag

theorem regionRegBody_held (hus : regUnits T i (regionOf d 0 c.fn) ≠ []) :
    regionRegBody c T d = holdCmd T (regUnits T i (regionOf d 0 c.fn)) Op.REGION_REG c := by
  rw [regUnits, snagBytes] at *
  simp only [regionRegBody, hstill, regionReg_allowed hmay, halloc, hprot, hreach, hsnag, Option.orElse_none, Bool.false_eq_true, if_false,
    List.isEmpty_eq_false_iff.mpr hus, Bool.not_false, if_true]

theorem regionRegBody_registers (hus : regUnits T i (regionOf d 0 c.fn) = []) :
    regionRegBody c T d = okWhenAcked (unhold T (.command Op.REGION_REG c))
      (registered (unhold T (.command Op.REGION_REG c)) p i (regionOf d 0 c.fn) (regionTblAddr T i)) Op.REGION_REG c (p.ringOf i * 2 ^ 24 + i) := by
  rw [← registered_setRegion (regionTblAddr_unhold T (.command Op.REGION_REG c) i).symm (r := regionOf d 0 c.fn) rfl p]
  rw [regUnits, snagBytes] at *
  simp only [regionRegBody, hstill, regionReg_allowed hmay, halloc, hprot, hreach, hsnag, Option.orElse_none, Bool.false_eq_true, if_false,
    hus, List.isEmpty_nil, Bool.not_true]

end

end

/-! ### REGION_DEREG and REGION_FREED (R333) -/

section
variable {T : State} {c : Cmd} {d : List Byte}

theorem regionDeregBody_unknown (h : regionAt T c.arg0 = none) : regionDeregBody c T d = (T, some (Done.of .stale Detail.MEM_KEY)) := by
  simp only [regionDeregBody, h, fail]

section
variable {i : Nat} {r : Region} (hr : regionAt T c.arg0 = some (i, r)) (hmay : c.fn = 0 ∨ r.fn = c.fn)

include hmay in
theorem regionDereg_allowed : ¬ (c.fn ≠ 0 ∧ r.fn ≠ c.fn) := fun ⟨hfn, hother⟩ => hmay.elim hfn hother

include hr hmay

theorem regionDeregBody_joins (hclosing : r.closing = true) :
    regionDeregBody c T d = ({ T with rm := { T.rm with regions := amSet i { r with dereg := r.dereg ++ [c] } T.rm.regions } }, none) := by
  simp only [regionDeregBody, hr, regionDereg_allowed hmay, hclosing, if_false, if_true]

variable (hlive : r.closing = false) (hreach : writeStop T (regionTblAddr T i) 128 = none)
include hlive hreach

theorem regionDeregBody_held (hus : blockedUnits T (regionTblAddr T i) 128 true ≠ []) :
    regionDeregBody c T d = holdCmd T (blockedUnits T (regionTblAddr T i) 128 true) Op.REGION_DEREG c := by
  simp only [regionDeregBody, hr, regionDereg_allowed hmay, hlive, hreach, List.isEmpty_eq_false_iff.mpr hus, Bool.false_eq_true, Bool.not_false, if_false,
    if_true]

theorem regionDeregBody_begins (hus : blockedUnits T (regionTblAddr T i) 128 true = []) :
    regionDeregBody c T d =
      (regionFreed (setRegion (unhold T (.command Op.REGION_DEREG c)) i { r with closing := true, closedAt := T.now, dereg := [c] }) i, none) := by
  simp only [regionDeregBody, hr, regionDereg_allowed hmay, hlive, hreach, hus, List.isEmpty_nil, Bool.false_eq_true, Bool.not_true, if_false]

end

end

section
variable {s : State} {i : Nat} {r : Region}

section
variable (hr : amGet i s.rm.regions = some r)
include hr

theorem regionFreed_notYet (h : r.closing = false ∨ (r.openWrs ≠ [] ∧ s.now < r.closedAt + giveUpNs s)) : regionFreed s i = s := by
  have hnot : regionDone s r = false := by
    rcases h with hopen | ⟨hwrs, htime⟩
    · simp only [regionDone, hopen, Bool.false_and]
    · simp only [regionDone, List.isEmpty_eq_false_iff.mpr hwrs, Nat.not_le.mpr htime, decide_false, Bool.or_self, Bool.and_false]
  simp only [regionFreed, hr, hnot, Bool.not_false, if_true]

section
variable (hclosing : r.closing = true) (hended : r.openWrs = [] ∨ r.closedAt + giveUpNs s ≤ s.now)
include hclosing hended

omit hr in
theorem regionDone_ended : regionDone s r = true := by
  simp only [regionDone, hclosing, Bool.true_and, Bool.or_eq_true, List.isEmpty_iff, decide_eq_true_eq]
  exact hended

theorem regionFreed_held (hus : blockedUnits s (regionTblAddr s i) 128 true ≠ []) (hreach : writeStop s (regionTblAddr s i) 128 = none) :
    regionFreed s i = holdWork s (blockedUnits s (regionTblAddr s i) 128 true) (.regionFree i) := by
  simp only [regionFreed, hr, regionDone_ended hclosing hended, List.isEmpty_iff, hus, hreach, Bool.not_true, Option.isSome_none, Bool.false_eq_true,
    or_self, if_false]

theorem regionFreed_frees (h : blockedUnits s (regionTblAddr s i) 128 true = [] ∨ writeStop s (regionTblAddr s i) 128 ≠ none) :
    regionFreed s i = freeRegion (unhold s (.regionFree i)) i r := by
  have hgo : (blockedUnits s (regionTblAddr s i) 128 true).isEmpty = true ∨ (writeStop s (regionTblAddr s i) 128).isSome = true := by
    rwa [List.isEmpty_iff, ← Option.ne_none_iff_isSome]
  simp only [regionFreed, hr, regionDone_ended hclosing hended, hgo, Bool.not_true, Bool.false_eq_true, if_false, if_true]

end

end

/-- Where no lease covers any of its lines, a region that is freed leaves the leases as they are. -/
theorem freeRegion_unleased (h : ∀ e ∈ s.rm.leases, e.2.region ≠ i) :
    let U : State := { s with rm := { s.rm with
      regions := amErase i s.rm.regions, ids := s.rm.ids.release i s.now (cwtFallowUs s), hotBad := s.rm.hotBad.filter (· ≠ i) } }
    let V := putBytes U (regionTblAddr U i) (regionImage r 0)
    let ds := newDeltas s V
    freeRegion s i r =
      r.dereg.foldl (fun W c => if ds.isEmpty then completeCmd W Op.REGION_DEREG c Done.ok else waitDeltas W ds (.command Op.REGION_DEREG c 0)) V := by
  have hnone : (s.rm.leases.filter fun e => e.2.region == i) = [] := List.filter_eq_nil_iff.mpr fun e he => by
    rw [beq_iff_eq]; exact h e he
  have hall : amFilter (fun _ l => l.region != i) s.rm.leases = s.rm.leases := List.filter_eq_self.mpr fun e he => bne_iff_ne.mpr (h e he)
  simp only [freeRegion, hnone, hall, List.foldl_nil]

end

/-! ### The obligation -/

/-- Settles O47: each command by the equation of its body in each case, each event by the equation of its function. -/
theorem queuePairsRegionsAndTriggers : Obligations.QueuePairsRegionsAndTriggers := by
  unfold Obligations.QueuePairsRegionsAndTriggers
  intro s c
  refine ⟨?create, ?modify, ?destroy, ?cancel, ?add, ?set, ?register, ?deregister, ?freed, ?fetched, ?drained⟩
  case create =>
    rw [exec_qpCreate]
    intro T d q hready hdesc k hcq htyp
    refine ⟨fun halloc => runCommand_ends hready (qpCreateBody_noIndex hdesc hcq htyp halloc), ?_⟩
    intro i p halloc n U
    have hmakes : qpCreateBody c T d = ((qpPlace U i).getD (qpStore (qpRegs U) i), some { Done.ok with result := n }) :=
      qpCreateBody_makes hdesc hcq htyp halloc
    refine ⟨fun hroom hout => runCommand_ends hready ?_, fun V hplace => runCommand_ends hready ?_, fun hplace => runCommand_ends hready ?_⟩
    · rw [hmakes, qpPlace_room (s := U) hout hroom, Option.getD_some]
    · rw [hmakes, hplace, Option.getD_some]
    · rw [hmakes, hplace, Option.getD_none]
  case modify =>
    rw [exec_qpModify]
    intro T d hready
    refine ⟨fun hqp => runCommand_ends hready (qpModifyBody_unknown hqp), fun i q hqp hmay => ?_⟩
    refine ⟨fun hmove => runCommand_ends hready (qpModifyBody_noMove hqp hmay hmove),
      fun hstate harg => runCommand_ends hready (qpModifyBody_drains hqp hmay hstate harg),
      fun hstate harg => runCommand_ends hready (qpModifyBody_resumes hqp hmay hstate harg),
      fun hstate harg => runCommand_ends hready (qpModifyBody_fails hqp hmay hstate harg),
      fun hstate harg harc => runCommand_ends hready ?_,
      fun hstate harg => runCommand_ends hready (qpModifyBody_resets hqp hmay hstate harg), fun hstate harg hzero => ?_⟩
    · rw [qpModifyBody_resets hqp hmay hstate harg, toReset_noRing harc]
    · have hopens := qpModifyBody_opens (d := d) hqp hmay hstate harg
      refine ⟨fun hsalt => runCommand_ends hready (hopens.trans (toReady_saltReused hzero hsalt)),
        fun e hsalt hkey => runCommand_ends hready (hopens.trans (toReady_keyRefused hzero hsalt hkey)), fun e x hsalt hkey hbind => ⟨?_, ?_, ?_⟩⟩
      · exact fun hgrant => runCommand_ends hready (hopens.trans (toReady_noGrant hzero hsalt hkey hbind hgrant))
      · exact fun hgrant hmode => runCommand_ends hready (hopens.trans (toReady_plain hzero hsalt hkey hbind hgrant hmode))
      · exact fun hgrant hmode => ⟨fun hring => runCommand_ends hready (hopens.trans (toReady_noRing hzero hsalt hkey hbind hgrant hmode hring)),
          fun k hring => runCommand_ends hready (hopens.trans (toReady_ring hzero hsalt hkey hbind hgrant hmode hring))⟩
  case destroy =>
    rw [exec_qpDestroy]
    intro T hready
    exact ⟨fun hqp => runCommand_ends hready (qpDestroyBody_unknown hqp), fun i q hqp hmay =>
      ⟨fun hstate => runCommand_ends hready (qpDestroyBody_notReset hqp hmay hstate),
        fun hstate => runCommand_ends hready (qpDestroyBody_drops hqp hmay hstate)⟩⟩
  case cancel =>
    rw [exec_chokerCancel]
    intro T mine hready
    exact ⟨fun hnone => runCommand_ends hready (chokerCancelBody_none (T := T) (mine := mine) rfl hnone),
      fun k ch i q hone hqp => runCommand_ends hready (chokerCancelBody_one (T := T) (mine := mine) rfl hone hqp)⟩
  case add =>
    rw [exec_trigAdd]
    intro T v hready
    refine ⟨fun hnone => runCommand_ends hready ?_, fun k ch i q hall htrig hpull hqp => runCommand_ends hready ?_⟩
    · rw [trigAddBody_eq, trigHeld_pullsNone hnone]
    · rw [trigAddBody_eq, trigHeld_pullsOne hall htrig hpull hqp]
  case set =>
    rw [exec_trigSet]
    intro T v fwd hready
    refine ⟨fun hnone => runCommand_ends hready ?_, fun k ch i q hfwd hall htrig hpull hqp => runCommand_ends hready ?_⟩
    · by_cases hfwd : fwd
      · rw [trigSetBody_forward hfwd, trigHeld_pullsNone (hnone.resolve_left (not_not_intro hfwd))]
      · exact trigSetBody_backward hfwd
    · rw [trigSetBody_forward hfwd, trigHeld_pullsOne hall htrig hpull hqp]
  case register =>
    rw [exec_regionReg]
    intro T r hready
    refine ⟨fun hchanging => runCommand_ends hready (regionRegBody_changing hchanging), fun i p hstill hmay halloc => ?_⟩
    refine ⟨fun hprot => runCommand_ends hready (regionRegBody_unprotected hstill hmay halloc hprot), ?_⟩
    intro map us hprot hreach hsnag
    refine ⟨fun hus => runCommand_goesOn hready (regionRegBody_held hstill hmay halloc hprot hreach hsnag hus), fun hus => ?_⟩
    intro key z U V X
    have hdone := regionRegBody_registers hstill hmay halloc hprot hreach hsnag hus
    exact ⟨fun hds => runCommand_ends hready (hdone.trans (okWhenAcked_now hds _ _ _)),
      fun hds => runCommand_goesOn hready (hdone.trans (okWhenAcked_later hds _ _ _))⟩
  case deregister =>
    rw [exec_regionDereg]
    intro T hready
    refine ⟨fun hr => runCommand_ends hready (regionDeregBody_unknown hr), fun i r hr hmay => ?_⟩
    exact ⟨fun hclosing => runCommand_goesOn hready (regionDeregBody_joins hr hmay hclosing), fun hlive hreach =>
      ⟨fun hus => runCommand_goesOn hready (regionDeregBody_held hr hmay hlive hreach hus),
        fun hus => runCommand_goesOn hready (regionDeregBody_begins hr hmay hlive hreach hus)⟩⟩
  case freed =>
    intro i r hr
    rw [exec_regionFreed]
    refine ⟨fun h => congrArg (goesOn s) (regionFreed_notYet hr h), fun hclosing hended => ?_⟩
    intro us S
    refine ⟨fun hus hreach => congrArg (goesOn s) (regionFreed_held hr hclosing hended hus hreach), fun h => ?_⟩
    refine ⟨congrArg (goesOn s) (regionFreed_frees hr hclosing hended h), fun hleases => freeRegion_unleased ?_⟩
    rwa [unhold_rm]
  case fetched =>
    intro i crcOk retryOk
    rw [exec_qpCtxFetched]
    exact ⟨fun h => congrArg (goesOn s) (qpCtxFetched_unasked crcOk retryOk h), fun q hfetch hq hout hroom hparked hread =>
      congrArg (goesOn s) (qpCtxFetched_placed hq hfetch hout hroom hparked retryOk hread)⟩
  case drained =>
    intro i q hq
    rw [exec_qpDrained]
    exact ⟨fun h => congrArg (goesOn s) (qpDrained_notYet hq h),
      fun hstate hposted hstarted => congrArg (goesOn s) (qpDrained_posts hq hstate hposted hstarted)⟩

end Sys2Proof.Machine
end

section
/-! PROOFS. The queue of commands that wait: a step takes its first command and adds, drops and reorders none, and a host command that nothing holds back runs its block's body (R507, log 1). -/

namespace Sys2Proof.Machine

/-- An answer that leaves the queue as it found it, where it goes on. -/
def KeepsQueue (s : State) (o : Host.Outcome State Fault Refusal) : Prop := ∀ t, o = .next t → t.pending = s.pending

theorem nextOf_keepsQueue (s t : State) : KeepsQueue s (nextOf s t) := fun _ => nextOf_pending

theorem withUnit_keepsQueue (s t : State) (ok : Bool) : KeepsQueue s (withUnit s ok t) := fun _ => withUnit_pending

theorem runCommand_keepsQueue (s : State) (o : Nat) (c : Cmd) (bad : State → List Byte → Bool) (body : Body) :
    KeepsQueue s (runCommand s o c bad body) := fun _ => runCommand_pending

/-- Every command answers in one of three ways: as a host command, as an event, or as an event of a unit that need not exist. -/
theorem exec_keepsQueue (i : Instr) (s : State) : KeepsQueue s (exec i s) := by
  cases i with
  | powerTransitionDone | commandFetch | vfEnableClear | hifEvtCfgWrite | tirFellKick | obsSnap | scbFlushWrite | circClear | faultHeadWrite | swreport
  | pwrReset | admissionScan | riskEvaluation | chunkRelease | taskPlace | workRequestStart | qpCtxFetched | qpDrained | rtoExpiry | giveUp
  | ackDelayExpiry | pathHoldExpiry | rnrRetry | regionFreed | leaseTermExpiry | hotLineCool | shaperWheelSlot | observerSample | offer | pullComplete
  | taken | release | releaseAck | abort | handoffOfferTimeout | handoffReleaseTimeout | handoffTakenTimeout | attend | shardStatus | stragglerTimeout
  | shardHoldExpiry | coppice | coppiceDone | coppiceTimeout | cutFilled | placeRetry | reserve | moveOut | moveCopyDone | confirm | moveGraceExpiry
  | moveLeaseExpiry | freeMsg | hold | fellPick | lookupRelease | stallReport | ctxFillDone | keySlotFillDone | fallowExpiry | deltaAcked
  | degradeTimeout | unitLock | unitUnlock | unitLockExpiry | rebuildUnitDone | accessSweep | intervalBoundary | scbFlushDone | borerMeasure
  | wearDayEnd | arrayBudgetRefill | thermalSample | tamper | entropyHealthFail | mctpControl | mctpRead | mctpIdent | porRelease | perst | hotReset
  | linkDown | pfFlr | refLoss | pfail | mgtWatchdog | fwTrialTimeout | freeAck | reserveAnswer | holdAnswer | unitLockAnswer | selftestEnd
  | columnDrainExpiry | mgtCoreReady | refclkStable | perstRelease | porAssert => exact nextOf_keepsQueue _ _
  | readResp own p =>
    cases own with
    | none => exact withUnit_keepsQueue _ _ _
    | some r => exact nextOf_keepsQueue _ _
  | atomicResp own p =>
    cases own with
    | none => exact withUnit_keepsQueue _ _ _
    | some a => exact nextOf_keepsQueue _ _
  | sqTailDoorbell | cqHeadDoorbell | qpSqDoorbell | rqDoorbell | resultConsume | consume | cqCoalesceTimer | msixUnmask | admqEnableWrite | vfFlr
  | d3hotChange | registerWrite | attErrorClear | cdcErrorClear | obsSelWrite | xwEnableWrite | flexIndStart | flexIndDone | macsecSaWrite
  | laserEnWrite | windowWrite | xwDoorbell | rhead | releaseRecordWrite | slotFlagWrite | frameSwitch | kerfPoint | attCommandDone
  | cdcCommandDone | moverCommandDone | illegalBundle | nop | add | sub | and | or | xor | shl | shr | sar | mul | min | max | minu | maxu | addi
  | andi | ori | xori | shli | shri | sari | li | liA | lsh | adda | mova | movs | cmpEq | cmpNe | cmpLt | cmpGe | cmpLtu | cmpGeu | cmpiEq
  | cmpiNe | cmpiLt | cmpiGe | pand | por | pandn | pxor | ldB | ldH | ldW | ldD | ldWs | stB | stH | stW | stD | stiB | stiH | stiW | dcpy | br
  | bz | bnz | halt | waitA | waitC | waitM | rdtime | mvLd | mvSt | mvGather | mvBwrite | mvReduce | attIssue | cdcIssue | tzero | tmmaBf16
  | tmmaE4m3 | tmmaE5m2 | tmmaMx8 | tmmaMx4 | tpackBf16 | vadd | vsub | vmul | vfma | vmax | vmin | vdiv | vexp2 | vrmax | vrsum | vmov | vbcast
  | vzero | vld | vst | vldBf16 | vstBf16 | packetTransmit | send | write | readReq | atomic | reduce | reduceLsem | mcast | ack | nak | creditReq
  | arpRequest | neighborSolicitation | nonCelwaldFrame | detectedError | stackFault | subportUp | subportDown | spareRotate | laserPoll | cwLoss
  | flexLinkDown | flexRetrain | spdmGetVersion | spdmGetCapabilities | spdmNegotiateAlgorithms | spdmGetDigests | spdmGetCertificate
  | spdmChallenge | spdmGetMeasurements | spdmKeyExchange | spdmFinish | spdmKeyUpdate | spdmEndSession | startupStep | ideKm
  | deviceUnsupportedRequest =>
    exact withUnit_keepsQueue _ _ _
  | _ => exact runCommand_keepsQueue _ _ _ _ _

/-- Settles O1. -/
theorem stepRunsFrontCommand : Obligations.StepRunsFrontCommand := fun _ _ _ => rfl

theorem step_empty {s : State} (h : s.pending = []) : step s = nextOf s (tick s) := by rw [step, h]

theorem step_front {s : State} {c : Instr} {rest : List Instr} (h : s.pending = c :: rest) : step s = exec c { s with pending := rest } := by
  rw [step, h]

/-- A step that goes on leaves the queue without its first command. -/
theorem step_pending {s t : State} (h : step s = .next t) : t.pending = s.pending.drop 1 := by
  cases hq : s.pending with
  | nil => rw [nextOf_keepsQueue s (tick s) t (step_empty hq ▸ h), hq, List.drop_nil]
  | cons c rest => exact exec_keepsQueue c _ t (step_front hq ▸ h)

theorem runTo_pending (n : Nat) {s t : State} (h : runTo n s = some t) : t.pending = s.pending.drop n := by
  induction n generalizing s with
  | zero => rw [runTo, Option.some_inj] at h; rw [h, List.drop_zero]
  | succ n ih =>
    rw [runTo] at h
    cases hstep : step s with
    | next u => rw [hstep] at h; rw [ih h, step_pending hstep, List.drop_drop, Nat.add_comm]
    | fault _ => rw [hstep] at h; exact nomatch h
    | refused _ => rw [hstep] at h; exact nomatch h

/-- Settles O3, by the three ways in which a command can answer and by induction on the length of the run. -/
theorem commandsAreTakenInOrder : Obligations.CommandsAreTakenInOrder :=
  ⟨fun _ _ _ hq h => step_pending h ▸ (List.drop_suffix 1 _).trans hq, fun n _ _ h => runTo_pending n h⟩

/-- Settles O4. -/
theorem resetLeavesEmptyQueue : Obligations.ResetLeavesEmptyQueue := ⟨fun _ => List.nil_suffix, rfl, rfl⟩

/-- A host command is its row's body under the checks of its row. -/
theorem exec_hostRow : ∀ e ∈ hostRows, ∀ (c : Cmd) (s : State), exec (e.1 c) s = runCommand s e.2.1 c e.2.2.1 (e.2.2.2 c) := by
  simp only [hostRows, List.cons_append, List.nil_append, List.forall_mem_cons, List.not_mem_nil, IsEmpty.forall_iff, implies_true, and_true]
  repeat' apply And.intro
  all_goals exact fun _ _ => rfl

theorem exec_resync (c : Cmd) (units : List Nat) (s : State) : exec (.resync c units) s = runPlain s Op.RESYNC c (resyncBody c units) := rfl

/-- Settles O59: every host command is its block's body under the checks, whose ending is posted where there is one. -/
theorem hostCommandsArePerformed : Obligations.HostCommandsArePerformed := by
  refine ⟨fun e he s t c hready => ?row, fun s t c units hready => ?resync⟩
  case row =>
    rw [exec_hostRow e he]
    exact ⟨fun _ => runCommand_ends hready, runCommand_goesOn hready⟩
  case resync =>
    rw [exec_resync]
    exact ⟨fun _ => runCommand_ends hready, runCommand_goesOn hready⟩

end Sys2Proof.Machine
end

section
/-! PROOFS. The queues of a function: made, removed, moved by their doorbells and written (R505, R512 to R517, R521, R522). -/

namespace Sys2Proof.Machine

/-! ### The lowest free number -/

/-- The search finds the first number not listed, if its fuel reaches it. -/
theorem amFree_eq_some {α : Type} {m : AMap α} {q n fuel : Nat} (hn : n ≤ q) (hfuel : q < n + fuel) (hfree : amHas q m = false)
    (hbelow : ∀ p, n ≤ p → p < q → amHas p m = true) : amFree m n fuel = some q := by
  induction fuel generalizing n with
  | zero => omega
  | succ fuel ih =>
    rcases Nat.eq_or_lt_of_le hn with rfl | hlt
    · simp only [amFree, hfree, Bool.false_eq_true, if_false]
    · rw [amFree, if_pos (hbelow n (le_refl n) hlt)]
      exact ih hlt (by omega) fun p hp => hbelow p (by omega)

theorem LowestFree.amFree {α : Type} {m : AMap α} {q : Nat} (h : LowestFree m q) : amFree m 1 16383 = some q := by
  obtain ⟨hlow, hhigh, hfree, hbelow⟩ := h
  exact amFree_eq_some hlow (by omega) hfree hbelow

/-! ### Queues made and removed (R505) -/

section
variable {c : Cmd} {T : State} {d : List Byte} {q : Nat}

theorem wqCreateBody_makes (hcq : cqIsCommand T c.fn (bits c.arg1 16 16) = true) (hroom : queuesInUse (T.fn c.fn) < queueLimit T c.fn)
    (hfree : LowestFree (T.fn c.fn).sqs q) :
    wqCreateBody c T d =
      (T.setFn c.fn { T.fn c.fn with sqs := amSet q ⟨c.arg0, bits c.arg1 0 5, bits c.arg1 16 16, 0, 0, T.now⟩ (T.fn c.fn).sqs },
       some { Done.ok with value := q }) := by
  simp only [wqCreateBody, hcq, Bool.not_true, Bool.false_eq_true, if_false, Nat.not_le.mpr hroom, hfree.amFree]

theorem cqCreateBody_makes (hroom : queuesInUse (T.fn c.fn) < queueLimit T c.fn) (hfree : LowestFree (T.fn c.fn).cqs q) :
    cqCreateBody c T d =
      (T.setFn c.fn { T.fn c.fn with
        cqs := amSet q (Cq.mk c.arg0 (bits c.arg1 0 5) (bits c.arg1 8 1) (bits c.arg1 16 5) (bits c.arg1 24 8) (bits c.arg1 32 16) 0 0 [] 0 none) (T.fn c.fn).cqs },
       some { Done.ok with value := q }) := by
  simp only [cqCreateBody, Nat.not_le.mpr hroom, if_false, hfree.amFree]

theorem rqCreateBody_makes {Q : Cq} (hcq : amGet (bits c.arg1 16 16) (T.fn c.fn).cqs = some Q) (htyp : Q.typ = 1)
    (hfree : LowestFree (T.fn c.fn).rqs q) :
    rqCreateBody c T d =
      (T.setFn c.fn { T.fn c.fn with rqs := amSet q ⟨c.arg0, bits c.arg1 0 5, bits c.arg1 16 16, 0, 0⟩ (T.fn c.fn).rqs },
       some { Done.ok with value := q }) := by
  simp only [rqCreateBody, hcq, htyp, ne_eq, not_true_eq_false, if_false, hfree.amFree]

theorem wqDestroyBody_admin (h0 : c.arg0 = 0) : wqDestroyBody c T d = (T, some (Done.of .conflict 0)) := by
  simp only [wqDestroyBody, h0, if_true, fail]

theorem wqDestroyBody_removes (h0 : c.arg0 ≠ 0) (hthere : amHas c.arg0 (T.fn c.fn).sqs = true)
    (hidle : sqBusy T c.fn c.arg0 Op.WQ_DESTROY c = false) :
    wqDestroyBody c T d = (T.setFn c.fn { T.fn c.fn with sqs := amErase c.arg0 (T.fn c.fn).sqs }, some Done.ok) := by
  simp only [wqDestroyBody, h0, hthere, hidle, if_false, Bool.not_true, Bool.false_eq_true]

theorem cqDestroyBody_admin (h0 : c.arg0 = 0) : cqDestroyBody c T d = (T, some (Done.of .conflict 0)) := by
  simp only [cqDestroyBody, h0, if_true, fail]

theorem cqDestroyBody_removes {Q : Cq} (h0 : c.arg0 ≠ 0) (hthere : amGet c.arg0 (T.fn c.fn).cqs = some Q) (hown : c.cq ≠ c.arg0)
    (hheld : Q.held = []) (hnamed : cqNamed T c.fn c.arg0 Op.CQ_DESTROY c = false) :
    cqDestroyBody c T d = (T.setFn c.fn { T.fn c.fn with cqs := amErase c.arg0 (T.fn c.fn).cqs }, some Done.ok) := by
  simp only [cqDestroyBody, h0, hthere, hown, hheld, hnamed, if_false, List.isEmpty_nil, Bool.not_true, Bool.or_self, Bool.false_eq_true]

theorem rqDestroyBody_removes (hthere : amHas c.arg0 (T.fn c.fn).rqs = true) :
    rqDestroyBody c T d = (T.setFn c.fn { T.fn c.fn with rqs := amErase c.arg0 (T.fn c.fn).rqs }, some Done.ok) := by
  simp only [rqDestroyBody, hthere, Bool.not_true, Bool.false_eq_true, if_false]

end

/-- Settles O7. -/
theorem queuesAreCreated : Obligations.QueuesAreCreated := by
  intro s c q
  refine ⟨?wq, ?cq, ?rq⟩
  case wq => exact fun hready hcq hroom hfree => runCommand_ends hready (wqCreateBody_makes hcq hroom hfree)
  case cq => exact fun hready hroom hfree => runCommand_ends hready (cqCreateBody_makes hroom hfree)
  case rq => exact fun Q hready hcq htyp hfree => runCommand_ends hready (rqCreateBody_makes hcq htyp hfree)

/-- Settles O8. -/
theorem queuesAreDestroyed : Obligations.QueuesAreDestroyed := by
  intro s c
  refine ⟨fun hready => ⟨fun h0 => ?wqAdmin, fun h0 hthere hidle => ?wq⟩,
    fun hready => ⟨fun h0 => ?cqAdmin, fun Q h0 hthere hown hheld hnamed => ?cq⟩, fun hready hthere => ?rq⟩
  case wqAdmin => exact runCommand_ends hready (wqDestroyBody_admin h0)
  case wq => exact runCommand_ends hready (wqDestroyBody_removes h0 hthere hidle)
  case cqAdmin => exact runCommand_ends hready (cqDestroyBody_admin h0)
  case cq => exact runCommand_ends hready (cqDestroyBody_removes h0 hthere hown hheld hnamed)
  case rq => exact runCommand_ends hready (rqDestroyBody_removes hthere)

/-! ### Doorbells (R512, R513, R521, R522) -/

theorem ideGate_open {s : State} (h : ideOpen s = true) (k : State) : ideGate s k = k := by
  rw [ideGate, if_neg]
  simpa only [ideOpen, Bool.not_eq_true', Bool.not_eq_true] using h

section
variable {s : State} {f : Nat} (hf : f < 64) (hopen : ideOpen s = true)
include hf hopen

/-- A doorbell of a function of the port, through an open host port, acts. -/
theorem doorbell_acts (t : State) : withUnit s (f < 64) (ideGate s t) = goesOn s t := by
  rw [withUnit_there (decide_eq_true hf), ideGate_open hopen]

theorem exec_sqTailDoorbell (q v : Nat) : exec (.sqTailDoorbell f q v) s = goesOn s (sqTailDoorbell s f q v) := doorbell_acts hf hopen _
theorem exec_cqHeadDoorbell (q v : Nat) : exec (.cqHeadDoorbell f q v) s = goesOn s (cqHeadDoorbell s f q v) := doorbell_acts hf hopen _
theorem exec_rqDoorbell (v : Nat) : exec (.rqDoorbell f v) s = goesOn s (rqDoorbell s f v) := doorbell_acts hf hopen _
theorem exec_resultConsume (v : Nat) : exec (.resultConsume f v) s = goesOn s (resultConsume s f v) := doorbell_acts hf hopen _
theorem exec_consume (v : Nat) : exec (.consume f v) s = goesOn s (consume s f v) := doorbell_acts hf hopen _
theorem exec_qpSqDoorbell (v : Nat) : exec (.qpSqDoorbell f v) s = goesOn s (qpDoorbell s f v) := doorbell_acts hf hopen _

end

section
variable {s : State} {f q v : Nat}

/-- How far ahead of a count n a doorbell's 32-bit value v names its place. -/
def dbAhead (v n : Nat) : Nat := (v + 2 ^ 32 - n % 2 ^ 32) % 2 ^ 32

theorem sqTailDoorbell_posts {w : Sq} (hq : amGet q (s.fn f).sqs = some w) (hv : v < 2 ^ 32) (hring : dbAhead v w.head ≤ 2 ^ w.log2) :
    sqTailDoorbell s f q v = s.setFn f { s.fn f with
      sqs := amSet q { w with tail := w.head + dbAhead v w.head, since := if w.head = w.tail then s.now else w.since } (s.fn f).sqs } := by
  simp only [sqTailDoorbell, hq]
  exact if_pos ⟨hv, hring⟩

theorem sqTailDoorbell_counts
    (h : amGet q (s.fn f).sqs = none ∨ ∃ w, amGet q (s.fn f).sqs = some w ∧ (2 ^ 32 ≤ v ∨ 2 ^ w.log2 < dbAhead v w.head)) :
    sqTailDoorbell s f q v = dbErr s f := by
  rcases h with hq | ⟨w, hq, hbad⟩
  · simp only [sqTailDoorbell, hq]
  · simp only [sqTailDoorbell, hq]
    exact if_neg fun ⟨hv, hring⟩ => hbad.elim (Nat.not_le.mpr hv) (Nat.not_lt.mpr hring)

theorem cqHeadDoorbell_consumes {c : Cq} (hq : amGet q (s.fn f).cqs = some c) (hv : v < 2 ^ 32)
    (hring : dbAhead v c.consumed ≤ c.written - c.consumed) :
    cqHeadDoorbell s f q v =
      cqDrain (s.setFn f { s.fn f with cqs := amSet q { c with consumed := c.consumed + dbAhead v c.consumed } (s.fn f).cqs }) f q c.held.length := by
  simp only [cqHeadDoorbell, hq]
  exact if_pos ⟨hv, hring⟩

theorem cqHeadDoorbell_counts
    (h : amGet q (s.fn f).cqs = none ∨ ∃ c, amGet q (s.fn f).cqs = some c ∧ (2 ^ 32 ≤ v ∨ c.written - c.consumed < dbAhead v c.consumed)) :
    cqHeadDoorbell s f q v = dbErr s f := by
  rcases h with hq | ⟨c, hq, hbad⟩
  · simp only [cqHeadDoorbell, hq]
  · simp only [cqHeadDoorbell, hq]
    exact if_neg fun ⟨hv, hring⟩ => hbad.elim (Nat.not_le.mpr hv) (Nat.not_lt.mpr hring)

theorem rqDoorbell_posts {w : Rq} (hq : amGet (bits v 0 32) (s.fn f).rqs = some w) (hring : dbAhead (bits v 32 32) w.taken ≤ 2 ^ w.log2) :
    rqDoorbell s f v =
      s.setFn f { s.fn f with rqs := amSet (bits v 0 32) { w with posted := w.taken + dbAhead (bits v 32 32) w.taken } (s.fn f).rqs } := by
  simp only [rqDoorbell, hq]
  exact if_pos hring

theorem rqDoorbell_counts
    (h : amGet (bits v 0 32) (s.fn f).rqs = none
      ∨ ∃ w, amGet (bits v 0 32) (s.fn f).rqs = some w ∧ 2 ^ w.log2 < dbAhead (bits v 32 32) w.taken) : rqDoorbell s f v = dbErr s f := by
  rcases h with hq | ⟨w, hq, hbad⟩
  · simp only [rqDoorbell, hq]
  · simp only [rqDoorbell, hq]
    exact if_neg (Nat.not_le.mpr hbad)

theorem resultConsume_frees {img : List Byte} (hv : v < 1024) (hslot : amGet v (s.fn f).slots = some (.done img)) :
    resultConsume s f v = s.setFn f { s.fn f with slots := amErase v (s.fn f).slots } := by
  simp only [resultConsume, if_pos hv, hslot]

theorem resultConsume_counts (h : 1024 ≤ v ∨ amGet v (s.fn f).slots = none ∨ amGet v (s.fn f).slots = some .named) :
    resultConsume s f v = dbErr s f := by
  rcases Nat.lt_or_ge v 1024 with hv | hv
  · rcases h with hv' | hslot | hslot
    · omega
    · simp only [resultConsume, if_pos hv, hslot]
    · simp only [resultConsume, if_pos hv, hslot]
  · simp only [resultConsume, if_neg (Nat.not_lt.mpr hv)]

theorem consume_counts (h : 2 ^ 32 ≤ v ∨ s.ctx v = none) : consume s f v = dbErr s f := by
  rcases Nat.lt_or_ge v (2 ^ 32) with hv | hv
  · simp only [consume, Nat.not_le.mpr hv, if_false, h.resolve_left (Nat.not_le.mpr hv), dbErr]
  · simp only [consume, hv, if_true, dbErr]

/-- What a release leaves of a request whose cut-map entries are still being changed (R49). -/
def ghostKept (T : State) (v : Nat) (x : Ctx) : State :=
  if outstanding T v = true then { T with sch := { T.sch with ghosts := amSet v x T.sch.ghosts } } else T

section
variable {x : Ctx} (hv : v < 2 ^ 32) (hx : s.ctx v = some x) (hmine : f = 0 ∨ bits x.hostCq 16 6 = f)
include hv hx hmine

theorem consume_ended (hp : x.phase = .done ∨ x.phase = .failed) : consume s f v = releaseCtx (unbind (ghostKept s v x) x.handle) x := by
  have hcons : consumable x = true := by rcases hp with hp | hp <;> simp [consumable, hp]
  have hhand : x.phase ≠ .handoff := by rcases hp with hp | hp <;> simp [hp]
  simp only [consume, Nat.not_le.mpr hv, if_false, hx, hmine, hcons, and_self, if_true, if_neg hhand, ghostKept]

theorem consume_unresolved (hp : x.phase = .handoff) (hrel : x.released = true) (hunres : x.unresolved = true) :
    consume s f v = releaseCtx (unbind (ghostKept (freeLocals (unpinAdp (dropWork s v) x.adapter) x) v x) x.handle) x := by
  have hcons : consumable x = true := by simp only [consumable, hrel, hunres, Bool.and_self, Bool.or_true]
  simp only [consume, Nat.not_le.mpr hv, if_false, hx, hmine, hcons, and_self, if_true, if_pos hp, ghostKept]

end

/-- A queue pair with the entries of a doorbell posted, n of them not taken yet. -/
def sqPosted (s : State) (i : Nat) (q : Qp) (tail n : Nat) : State :=
  ({ s with cwt := { s.cwt with nextOrd := s.cwt.nextOrd + (n - q.posts.length) } } : State).setQp i
    { q with sqTail := tail, posts := (q.posts ++ (List.range (n - q.posts.length)).map fun j => (s.cwt.nextOrd + j, s.now)).take n }

theorem qpDoorbell_posts {i : Nat} {q : Qp} (hq : s.qp (bits v 0 32) = some (i, q)) (howner : q.fn = f)
    (hring : serDist (bits v 32 32) q.sqHead ≤ 2 ^ q.sqLog2) :
    qpDoorbell s f v = sqRun (qpSave (sqPosted s i q (bits v 32 32) (serDist (bits v 32 32) q.sqHead)) i) i := by
  have hgood : ¬ (q.fn ≠ f ∨ 2 ^ q.sqLog2 < serDist (bits v 32 32) q.sqHead) := by simp only [howner]; omega
  simp only [qpDoorbell, hq, if_neg hgood, List.length_map, List.length_range, sqPosted]

end

/-- Settles O9. -/
theorem doorbellsAreTaken : Obligations.DoorbellsAreTaken := by
  intro s f v hf hopen
  refine ⟨fun q w hq hv hring => ?sq, fun w hq hring => ?rq, fun q c hq hv hring => ?cq, fun img hv hslot => ?slot,
    fun x hv hx hmine => ⟨fun hp => ?ended, fun hp hrel hunres => ?unresolved⟩, fun i q hq howner hring => ?qp⟩
  case sq => rw [exec_sqTailDoorbell hf hopen, sqTailDoorbell_posts hq hv hring]; rfl
  case rq => rw [exec_rqDoorbell hf hopen, rqDoorbell_posts hq hring]; rfl
  case cq => rw [exec_cqHeadDoorbell hf hopen, cqHeadDoorbell_consumes hq hv hring]; rfl
  case slot => rw [exec_resultConsume hf hopen, resultConsume_frees hv hslot]
  case ended => rw [exec_consume hf hopen, consume_ended hv hx hmine hp]; rfl
  case unresolved => rw [exec_consume hf hopen, consume_unresolved hv hx hmine hp hrel hunres]; rfl
  case qp => rw [exec_qpSqDoorbell hf hopen, qpDoorbell_posts hq howner hring]; rfl

/-- Settles O10. -/
theorem doorbellsOutOfRangeAreCounted : Obligations.DoorbellsOutOfRangeAreCounted := by
  intro s f v hf hopen
  refine ⟨fun q h => ?sq, fun q h => ?cq, fun h => ?rq, fun h => ?slot, fun h => ?ctx⟩
  case sq => rw [exec_sqTailDoorbell hf hopen, sqTailDoorbell_counts h, dbErr]
  case cq => rw [exec_cqHeadDoorbell hf hopen, cqHeadDoorbell_counts h, dbErr]
  case rq => rw [exec_rqDoorbell hf hopen, rqDoorbell_counts h, dbErr]
  case slot => rw [exec_resultConsume hf hopen, resultConsume_counts h, dbErr]
  case ctx => rw [exec_consume hf hopen, consume_counts h, dbErr]

end Sys2Proof.Machine
end

section
/-! PROOFS. What a completion leaves in its queue (R515), the port and sub-port of a path (R311, R530), and the lanes that the spare leaves its port (R532 to R534). -/

namespace Sys2Proof.Machine

/-! ### Completion entries (R515) -/

theorem memReadN_getElem? {n i : Nat} (hi : i < n) (m : Memory) (a : Nat) : (memReadN m a n)[i]? = some (memRead m (a + i)) := by
  induction n generalizing a i with
  | zero => omega
  | succ n ih =>
    cases i with
    | zero => rfl
    | succ i => rw [memReadN, List.getElem?_cons_succ, ih (by omega), Nat.add_assoc, Nat.add_comm 1 i]

/-- A byte inside a stored range is the byte stored there. -/
theorem memRead_writeN_in {l : List Byte} {i : Nat} (hi : i < l.length) (m : Memory) (a : Nat) :
    memRead (memWriteN m a l) (a + i) = l.getD i 0 := by
  have h := memReadN_getElem? hi (memWriteN m a l) a
  rw [memReadN_writeN] at h
  rw [List.getD_eq_getElem?_getD, h, Option.getD_some]

@[simp] theorem State.fn_setFn_same (s : State) (f : Nat) (F : Fn) : (s.setFn f F).fn f = F := by
  simp only [State.fn, State.setFn, amGet_set_same, Option.getD_some]

@[simp] theorem State.fn_setFn_other {f g : Nat} (h : g ≠ f) (s : State) (F : Fn) : (s.setFn f F).fn g = s.fn g := by
  simp only [State.fn, State.setFn, amGet_set_other h]

theorem sendMsix_mem (s : State) (f vec : Nat) : (sendMsix s f vec).mem = s.mem := by
  rw [sendMsix]; split <;> rfl

theorem sendMsix_cqs (s : State) (f vec : Nat) : ((sendMsix s f vec).fn f).cqs = (s.fn f).cqs := by
  rw [sendMsix]; split
  · rfl
  · rw [State.fn_setFn_same]

/-- The entry of a CQ counted as written, and toward its interrupt. -/
def Cq.wrote (c : Cq) (now : Nat) : Cq :=
  { c with written := c.written + 1, unsig := c.unsig + 1, firstUnsig := if c.unsig = 0 then some now else c.firstUnsig }

section
variable {s : State} {f : Nat} {c : Cq} (hreach : s.dmaOk f (c.base + 32 * (c.written % 2 ^ c.log2)) 32 = true)
include hreach

/-- A completion that the host lets through is stored and counted, whether or not it signals its CQ. -/
theorem cqWrite_stores (q : Nat) (img : List Byte) :
    ∃ t C, cqWrite s f q c img = t ∧ C.written = c.written + 1 ∧ amGet q (t.fn f).cqs = some C
      ∧ t.mem = memWriteN s.mem (hostXA (c.base + 32 * (c.written % 2 ^ c.log2))) (withPhase img ((c.written / 2 ^ c.log2 + 1) % 2)) := by
  simp only [cqWrite, hreach, Bool.not_true, Bool.false_eq_true, if_false]
  split
  case isTrue =>
    refine ⟨_, { c.wrote s.now with unsig := 0, firstUnsig := none }, rfl, rfl, ?_, ?_⟩
    · rw [cqSignal, sendMsix_cqs, State.fn_setFn_same, amGet_set_same]; rfl
    · rw [cqSignal, sendMsix_mem]; rfl
  case isFalse =>
    refine ⟨_, c.wrote s.now, rfl, rfl, ?_, rfl⟩
    rw [State.fn_setFn_same, amGet_set_same]; rfl

end

section
variable {img : List Byte} (hlen : img.length = 32)
include hlen

theorem withPhase_length (ph : Nat) : (withPhase img ph).length = 32 := by
  simp only [withPhase, List.length_append, List.length_take, leBytes_length, List.length_drop, hlen]; omega

theorem withPhase_other {i : Nat} (hi : i < 32) (hne : i ≠ 0x13) (ph : Nat) : (withPhase img ph).getD i 0 = img.getD i 0 := by
  simp only [withPhase, List.getD_eq_getElem?_getD, List.getElem?_append, List.length_append, List.length_take, leBytes_length, hlen,
    List.getElem?_take, List.getElem?_drop]
  rcases Nat.lt_or_gt_of_ne hne with h | h
  · simp only [show i < min 19 32 + 1 by omega, show i < min 19 32 by omega, if_true, h]
  · simp only [show ¬ i < min 19 32 + 1 by omega, if_false, show 20 + (i - (min 19 32 + 1)) = i by omega]

theorem withPhase_phase (ph : Nat) : (withPhase img ph).getD 0x13 0 = BitVec.ofNat 8 (leField img 0x13 1 + ph) := by
  simp [withPhase, List.getD_eq_getElem?_getD, leBytes, hlen]

end

/-- PHASE has its bit to itself: a completion's byte leaves it clear. -/
theorem phase_fits {b ph : Nat} (hb : b < 256) (hclear : bit b 0 = false) (hph : ph < 2) : (BitVec.ofNat 8 (b + ph)).toNat = b + ph := by
  have heven : b % 2 = 0 := by
    rw [bit_eq_testBit, Nat.testBit_zero, decide_eq_false_iff_not] at hclear; omega
  rw [BitVec.toNat_ofNat]; omega

theorem leField_lt (l : List Byte) (o : Nat) : leField l o 1 < 256 := by
  rw [leField]
  rcases (l.drop o) with _ | ⟨b, m⟩
  · decide
  · simpa [leNat] using b.isLt

/-- Settles O18. -/
theorem completionEntriesPhase : Obligations.CompletionEntriesPhase := by
  intro s f q c img hlen hclear hreach
  obtain ⟨t, C, hwrite, hwritten, hcq, hmem⟩ := cqWrite_stores hreach q img
  simp only [hwrite, hmem, hcq]
  have hin {i : Nat} (hi : i < 32) := memRead_writeN_in (hi.trans_eq (withPhase_length hlen ((c.written / 2 ^ c.log2 + 1) % 2)).symm)
    s.mem (hostXA (c.base + 32 * (c.written % 2 ^ c.log2)))
  refine ⟨fun i hi hne => ?other, ?phase, fun x hx => ?frame, congrArg some hwritten⟩
  case other => rw [hin hi, withPhase_other hlen hi hne]
  case phase => rw [hin (by omega), withPhase_phase hlen, phase_fits (leField_lt img 0x13) hclear (Nat.mod_lt _ (by omega))]
  case frame => exact memRead_writeN_out _ _ _ (by rwa [withPhase_length hlen])

/-! ### The port of a path (R311, R530) -/

/-- In an ascending list of what satisfies p below n, an element stands at the place of those below it. -/
theorem getElem?_filter_range {p : Nat → Bool} {j n : Nat} (hj : j < n) (hp : p j = true) :
    ((List.range n).filter p)[(List.range j).countP p]? = some j := by
  obtain ⟨k, rfl⟩ := Nat.exists_eq_add_of_lt hj
  rw [Nat.add_assoc, List.range_add, List.filter_append, List.getElem?_append_right (List.countP_eq_length_filter (p := p) ▸ le_rfl),
    List.countP_eq_length_filter, Nat.sub_self, List.range_succ_eq_map, List.map_cons, Nat.add_zero, List.filter_cons_of_pos hp,
    List.getElem?_cons_zero]

/-- Settles O17. -/
theorem pathsNamePortsAndSubPorts : Obligations.PathsNamePortsAndSubPorts := by
  intro s e path p sub up k subUp u _ hp hup hplace hsub hsubUp hsubPlace
  have hports : (portsUp s e.mask).length = k := List.countP_eq_length_filter.symm
  have hsubs : (subsUp s p).length = u := List.countP_eq_length_filter.symm
  have hport : (portsUp s e.mask)[path % k]? = some p := hplace ▸ getElem?_filter_range hp hup
  have hsubPort : (subsUp s p)[path / k % u]? = some sub := hsubPlace ▸ getElem?_filter_range hsub hsubUp
  simp only [pathPort, hports, hport, hsubs, List.getD_eq_getElem?_getD, hsubPort, Option.getD_some]

/-! ### The spare lane (R532 to R534) -/

/-- Lane c of a port is its spare: it carries nothing, and each logical lane goes on the lane of its number below c and on the next from c on. -/
def Spare (s : State) (p c : Nat) : Prop := mapped s p c = 0xF ∧ ∀ L, L < 8 → mapped s p (if L < c then L else L + 1) = L

theorem spare_reset {p : Nat} (hp : p < 8) : Spare State.reset p 8 := by
  have hall : ∀ p < 8, mapped State.reset p 8 = 0xF ∧ ∀ L < 8, mapped State.reset p (if L < 8 then L else L + 1) = L := by decide
  exact hall p hp

theorem laneKey_ne {p c d : Nat} (h : c ≠ d) :
    ((Reg.CWT_PORT_LANE_MAPPED.at 0x100 p).at 4 c).key ≠ ((Reg.CWT_PORT_LANE_MAPPED.at 0x100 p).at 4 d).key := by
  simp only [Fld.key, Fld.at]; omega

theorem mapped_setMapped_same (s : State) (p l v : Nat) : mapped (setMapped s p l v) p l = v % 16 := State.setR_r_same ..
theorem mapped_setMapped_other {p l m : Nat} (h : m ≠ l) (s : State) (v : Nat) : mapped (setMapped s p l v) p m = mapped s p m :=
  State.setR_r_other (laneKey_ne h) ..

theorem mapped_spareMove {p c d : Nat} (s : State) (l : Nat) :
    mapped (spareMove s p c d) p l = if l = d then 0xF else if l = c then mapped s p d % 16 else mapped s p l := by
  change mapped (setMapped (setMapped s p c (mapped s p d)) p d 0xF) p l = _
  split
  · next h => rw [h, mapped_setMapped_same]
  · next h =>
    rw [mapped_setMapped_other h]
    split
    · next h' => rw [h', mapped_setMapped_same]
    · next h' => rw [mapped_setMapped_other h']

namespace Spare
variable {s : State} {p c : Nat} (h : Spare s p c)
include h

theorem below {l : Nat} (hl : l < c) (hc : c < 9) : mapped s p l = l := by
  have hrule := h.2 l (by omega)
  rwa [if_pos hl] at hrule

theorem above {l : Nat} (hl : c < l) (hl9 : l < 9) : mapped s p l = l - 1 := by
  have hrule := h.2 (l - 1) (by omega)
  rwa [if_neg (by omega), Nat.sub_add_cancel (by omega)] at hrule

/-- A move of the spare to a lane beside it. -/
theorem move {d : Nat} (hc : c < 9) (hd : d < 9) (hbeside : d = c + 1 ∨ c = d + 1) : Spare (spareMove s p c d) p d := by
  refine ⟨by rw [mapped_spareMove, if_pos rfl], fun L hL => ?_⟩
  rw [mapped_spareMove, if_neg (by split <;> omega)]
  rcases hbeside with rfl | rfl
  · rcases Nat.lt_trichotomy L c with hlt | rfl | hgt
    · rw [if_pos (show L < c + 1 by omega), if_neg hlt.ne, h.below hlt hc]
    · rw [if_pos (show L < L + 1 by omega), if_pos rfl, h.above (by omega) hd, Nat.add_sub_cancel, Nat.mod_eq_of_lt (by omega)]
    · rw [if_neg (show ¬ L < c + 1 by omega), if_neg (by omega), h.above (by omega) (by omega), Nat.add_sub_cancel]
  · rcases Nat.lt_trichotomy L d with hlt | rfl | hgt
    · rw [if_pos hlt, if_neg (by omega), h.below (by omega) hc]
    · rw [if_neg (lt_irrefl L), if_pos rfl, h.below (by omega) hc, Nat.mod_eq_of_lt (by omega)]
    · rw [if_neg (show ¬ L < d by omega), if_neg (by omega), h.above (by omega) (by omega), Nat.add_sub_cancel]

/-- A walk with moves enough to reach its lane. -/
theorem walk {l n : Nat} (hc : c < 9) (hl : l < 9) (hup : l ≤ c + n) (hdown : c ≤ l + n) : Spare (spareWalk s p c l n) p l := by
  induction n generalizing s c with
  | zero =>
    obtain rfl : c = l := by omega
    exact h
  | succ n ih =>
    rw [spareWalk]
    split
    · next heq => exact heq ▸ h
    · next hne =>
      rcases Nat.lt_or_gt_of_ne hne with hlt | hgt
      · simp only [if_pos hlt]
        exact ih (h.move hc (by omega) (.inl rfl)) (by omega) (by omega) (by omega)
      · simp only [if_neg (Nat.not_lt.mpr hgt.le)]
        exact ih (h.move hc (by omega) (.inr (by omega))) (by omega) (by omega) (by omega)

/-- The port finds its spare as the one lane that carries nothing. -/
theorem found (hc : c < 9) (hretired : retiredLane s p ≠ c) : spareLane s p = some c := by
  refine List.find?_range_eq_some.mpr ⟨?_, List.mem_range.mpr hc, fun j hj => ?_⟩
  · simp only [h.1, beq_self_eq_true, Bool.true_and, bne_iff_ne, ne_eq, hretired, not_false_eq_true]
  · have hother : (mapped s p j == 0xF) = false := by rw [h.below hj hc, beq_eq_false_iff_ne]; omega
    rw [hother, Bool.false_and, Bool.not_false]

theorem walkTo {l : Nat} (hc : c < 9) (hl : l < 9) (hretired : retiredLane s p ≠ c) : Spare (walkTo s p l) p l := by
  simp only [Machine.walkTo, h.found hc hretired]
  exact h.walk hc hl (by omega) (by omega)

end Spare

theorem spareRotate_retired {s : State} {p : Nat} (h : spareUsed s p = true) (a b : Bool) : spareRotate s p a b = s := by
  simp only [spareRotate, h, Bool.true_or, if_true]

/-- Settles O20. -/
theorem spareLaneMapping : Obligations.SpareLaneMapping := by
  refine ⟨fun p hp => ?reset, fun s p c d _ hc hd hbeside h => ?move, fun s p c l _ hc hl hretired h => ?walk, fun s p a b hp hused => ?rotate⟩
  case reset => exact spare_reset hp
  case move => exact Spare.move h hc hd hbeside
  case walk => exact Spare.walkTo h hc hl hretired
  case rotate => exact (withUnit_there (decide_eq_true hp)).trans (congrArg (goesOn s) (spareRotate_retired hused a b))

end Sys2Proof.Machine
end

section
/-! PROOFS. Vectors, coalescing, D3hot and the clean-up of functions (R498 to R500, R524). -/

namespace Sys2Proof.Machine

theorem exec_msixUnmask {f vec : Nat} (hf : f < 64) (hvec : vec < 32) (s : State) : exec (.msixUnmask f vec) s = goesOn s (msixUnmask s f vec) :=
  withUnit_there (by simp only [hf, hvec, decide_true, Bool.and_self])
theorem exec_cqCoalesceTimer {f : Nat} (hf : f < 64) (q : Nat) (s : State) : exec (.cqCoalesceTimer f q) s = goesOn s (cqCoalesce s f q) :=
  withUnit_there (decide_eq_true hf)
theorem exec_d3hotChange {f : Nat} (hf : f < 64) (enter : Bool) (s : State) : exec (.d3hotChange f enter) s = goesOn s (d3hotChange s f enter) :=
  withUnit_there (decide_eq_true hf)
theorem exec_vfFlr {f : Nat} (hpos : 1 ≤ f) (hf : f < 64) (s : State) : exec (.vfFlr f) s = goesOn s (vfFlr s f) :=
  withUnit_there (by simp only [hpos, hf, decide_true, Bool.and_self])
theorem exec_vfEnableClear (s : State) : exec .vfEnableClear s = goesOn s ((List.range 63).foldl (fun t i => cleanFn t (i + 1)) s) := rfl

theorem keepQueue_fn (s t : State) (f : Nat) : (keepQueue s t).fn f = t.fn f := by rw [State.fn, keepQueue_hif, State.fn]
theorem keepQueue_fr (s t : State) (f : Nat) (x : Fld) : (keepQueue s t).fr f x = t.fr f x := by
  rw [State.fr, State.r, keepQueue_regs, State.fr, State.r]

/-! ### Vectors and coalescing (R524) -/

/-- A function with a vector unmasked and its pending bit clear. -/
def Fn.unmask (F : Fn) (vec : Nat) : Fn :=
  { F with unmasked := if F.unmasked.contains vec then F.unmasked else vec :: F.unmasked, msixPending := F.msixPending.filter (· ≠ vec) }

section
variable {s : State} {f vec : Nat}

theorem msixUnmask_quiet (hpend : vec ∉ (s.fn f).msixPending) : msixUnmask s f vec = s.setFn f ((s.fn f).unmask vec) := by
  have hnone : (s.fn f).msixPending.contains vec = false := by simpa using hpend
  simp only [msixUnmask, hnone, Bool.false_and, Bool.false_eq_true, if_false, Fn.unmask]

theorem msixUnmask_sends (hpend : vec ∈ (s.fn f).msixPending) (hawake : (s.fn f).d3hot = false) :
    msixUnmask s f vec = (s.setFn f ((s.fn f).unmask vec)).emit (.msix f vec) := by
  have hsome : (s.fn f).msixPending.contains vec = true := by simpa using hpend
  simp only [msixUnmask, hsome, hawake, Bool.not_false, Bool.and_self, if_true, Fn.unmask]

theorem msixUnmask_asleep (hpend : vec ∈ (s.fn f).msixPending) (hasleep : (s.fn f).d3hot = true) :
    msixUnmask s f vec = s.setFn f { (s.fn f).unmask vec with msixPending := (s.fn f).msixPending } := by
  have hsome : (s.fn f).msixPending.contains vec = true := by simpa using hpend
  simp only [msixUnmask, hsome, hasleep, Bool.not_true, Bool.and_false, Bool.false_eq_true, if_false, if_true, Fn.unmask]

end

section
variable {s : State} {f q : Nat}

theorem cqCoalesce_due {c : Cq} {t : Nat} (hq : amGet q (s.fn f).cqs = some c) (hfirst : c.firstUnsig = some t) (hcoal : c.coalUs ≠ 0)
    (htime : t + c.coalUs * 1000 ≤ s.now) : cqCoalesce s f q = cqSignal s f q c := by
  simp only [cqCoalesce, hq, hfirst]
  exact if_pos ⟨hcoal, htime⟩

theorem cqCoalesce_early
    (h : ∀ (c : Cq) (t : Nat), amGet q (s.fn f).cqs = some c → c.firstUnsig = some t → c.coalUs = 0 ∨ s.now < t + c.coalUs * 1000) :
    cqCoalesce s f q = s := by
  cases hq : amGet q (s.fn f).cqs with
  | none => simp only [cqCoalesce, hq]
  | some c =>
    cases hfirst : c.firstUnsig with
    | none => simp only [cqCoalesce, hq, hfirst]
    | some t =>
      simp only [cqCoalesce, hq, hfirst]
      exact if_neg fun ⟨hcoal, htime⟩ => (h c t hq hfirst).elim hcoal (Nat.not_lt.mpr htime)

end

/-! ### Clean-up (R500) -/

theorem Fld.ofFn_off (x : Fld) (f : Nat) : (x.ofFn f).off = x.off + f * 2 ^ 32 := rfl
theorem Fld.ofFn_lo (x : Fld) (f : Nat) : (x.ofFn f).lo = x.lo := by rw [Fld.ofFn]
theorem Fld.ofFn_key (x : Fld) (f : Nat) : (x.ofFn f).key = (x.off + f * 2 ^ 32) * 64 + x.lo := by rw [Fld.key, Fld.ofFn_off, Fld.ofFn_lo]

/-- Places in banks of one size differ where the banks do or the places within them do. -/
theorem bankPlace_ne {a b c d f g bank : Nat} (ha : a < bank) (hb : b < bank) (hc : c < 64) (hd : d < 64) (h : g ≠ f ∨ a ≠ b) :
    (b + g * bank) * 64 + d ≠ (a + f * bank) * 64 + c := by
  have hstep {i j : Nat} (hij : i < j) : i * bank + bank ≤ j * bank := Nat.succ_mul i bank ▸ Nat.mul_le_mul_right bank hij
  rcases Nat.lt_trichotomy g f with hlt | rfl | hgt
  · have := hstep hlt; omega
  · omega
  · have := hstep hgt; omega

theorem ofFn_key_ne {f g : Nat} {x y : Fld} (hx : x.off < 2 ^ 32) (hy : y.off < 2 ^ 32) (hlx : x.lo < 64) (hly : y.lo < 64)
    (h : g ≠ f ∨ x.off ≠ y.off) : (y.ofFn g).key ≠ (x.ofFn f).key := by
  rw [Fld.ofFn_key, Fld.ofFn_key]
  exact bankPlace_ne hx hy hlx hly h

/-- What the clean-up of a function with nothing live leaves (R500): its queues, rings and slots gone, its two register fields 0, and the other functions and what they own as they were. -/
structure Cleaned (s : State) (f : Nat) (t : State) : Prop where
  fn_same : t.fn f = { s.fn f with sqs := [], cqs := [], rqs := [], slots := [], msixPending := [], arb := Arb.empty }
  fn_other : ∀ g, g ≠ f → t.fn g = s.fn g
  enable : t.fr f Reg.HIF_ADMQ_CFG_ENABLE = 0
  cleaning : t.fr f Reg.HIF_FN_STATUS_CLEANING = 0
  enable_other : ∀ g, g ≠ f → t.fr g Reg.HIF_ADMQ_CFG_ENABLE = s.fr g Reg.HIF_ADMQ_CFG_ENABLE
  cleaning_other : ∀ g, g ≠ f → t.fr g Reg.HIF_FN_STATUS_CLEANING = s.fr g Reg.HIF_FN_STATUS_CLEANING
  ctxs : t.sch.ctxs = s.sch.ctxs
  qps : t.cwt.qps = s.cwt.qps
  regions : t.rm.regions = s.rm.regions
  taken : t.hif.taken ⊆ s.hif.taken
  mem : t.mem = s.mem
  sent : t.sent = s.sent

/-- The clean-up as it begins: the function is off, its commands that have not started are gone. -/
def cleanBegun (s : State) (f : Nat) : State :=
  let s := (s.setR (Reg.HIF_ADMQ_CFG_ENABLE.ofFn f) 0).setR (Reg.HIF_FN_STATUS_CLEANING.ofFn f) 1
  let mine (c : Cmd) (o : Nat) : Bool :=
    s.sch.queues.any fun (q : Nat × List Admission) => q.2.any fun (a : Admission) => a.cmd == c && o == Op.ADMIT
  { s with
    hif := { s.hif with taken := s.hif.taken.filter fun t => !(t.cmd.fn == f && (!t.started || mine t.cmd t.op)) },
    sch := { s.sch with queues := amMap (fun _ (l : List Admission) => l.filter fun (a : Admission) => a.cmd.fn != f) s.sch.queues } }

theorem cleanBegun_r (s : State) (f : Nat) (x : Fld) :
    (cleanBegun s f).r x = ((s.setR (Reg.HIF_ADMQ_CFG_ENABLE.ofFn f) 0).setR (Reg.HIF_FN_STATUS_CLEANING.ofFn f) 1).r x := rfl

theorem State.setR_fn (s : State) (x : Fld) (v g : Nat) : (s.setR x v).fn g = s.fn g := by rw [State.fn, State.setR_hif, State.fn]

theorem cleanBegun_fn (s : State) (f g : Nat) : (cleanBegun s f).fn g = s.fn g := by
  simp only [State.fn, cleanBegun, State.setR_hif]

theorem State.setFn_r (s : State) (f : Nat) (F : Fn) (x : Fld) : (s.setFn f F).r x = s.r x := rfl

theorem cleanDone_iff {s : State} {f : Nat} : cleanDone s f = true ↔
    (∀ e ∈ s.sch.ctxs, bits e.2.hostCq 16 6 ≠ f) ∧ (∀ e ∈ s.cwt.qps, e.2.fn ≠ f) ∧ (∀ e ∈ s.rm.regions, e.2.fn ≠ f) ∧ ∀ t ∈ s.hif.taken, t.cmd.fn ≠ f := by
  simp only [cleanDone, Bool.and_eq_true, Bool.not_eq_true', List.any_eq_false, beq_iff_eq, and_assoc, ne_eq]

/-- What a state needs of another to be as much done with a function's clean-up. -/
theorem cleanDone_mono {s t : State} {f : Nat} (hctxs : t.sch.ctxs = s.sch.ctxs) (hqps : t.cwt.qps = s.cwt.qps)
    (hregions : t.rm.regions = s.rm.regions) (htaken : t.hif.taken ⊆ s.hif.taken) (h : cleanDone s f = true) : cleanDone t f = true := by
  obtain ⟨hc, hq, hr, ht⟩ := cleanDone_iff.mp h
  exact cleanDone_iff.mpr ⟨hctxs ▸ hc, hqps ▸ hq, hregions ▸ hr, fun t hmem => ht t (htaken hmem)⟩

/-- With nothing live the clean-up ends as it begins. -/
theorem cleanFn_ends {s : State} {f : Nat} (h : cleanDone s f = true) :
    cleanFn s f = ((cleanBegun s f).setFn f { (cleanBegun s f).fn f with
      sqs := [], cqs := [], rqs := [], slots := [], msixPending := [], arb := Arb.empty }).setR (Reg.HIF_FN_STATUS_CLEANING.ofFn f) 0 := by
  obtain ⟨hc, hq, hr, -⟩ := cleanDone_iff.mp h
  have hdone : cleanDone (cleanBegun s f) f = true := cleanDone_mono (s := s) rfl rfl rfl (List.filter_subset_self _) h
  have hctxs : ((cleanBegun s f).sch.ctxs.filter fun e => bits e.2.hostCq 16 6 == f) = [] :=
    List.filter_eq_nil_iff.mpr fun e he => by simpa using hc e he
  have hqps : ((cleanBegun s f).cwt.qps.filter fun e => e.2.fn == f) = [] := List.filter_eq_nil_iff.mpr fun e he => by simpa using hq e he
  have hregions : ((cleanBegun s f).rm.regions.filter fun e => e.2.fn == f) = [] :=
    List.filter_eq_nil_iff.mpr fun e he => by simpa using hr e he
  change (let t := (((cleanBegun s f).sch.ctxs.filter fun e => bits e.2.hostCq 16 6 == f).map fun e => e.2.handle).foldl (cleanCtx f) (cleanBegun s f)
    let t := ((t.cwt.qps.filter fun e => e.2.fn == f).map (·.1)).foldl cleanQp t
    let t := ((t.rm.regions.filter fun e => e.2.fn == f).map (·.1)).foldl cleanRegion t
    if cleanDone t f then (t.setFn f { t.fn f with sqs := [], cqs := [], rqs := [], slots := [], msixPending := [], arb := Arb.empty }).setR
      (Reg.HIF_FN_STATUS_CLEANING.ofFn f) 0 else t) = _
  simp only [hctxs, hqps, hregions, List.map_nil, List.foldl_nil, hdone, if_true]

theorem cleanFn_cleaned {s : State} {f : Nat} (h : cleanDone s f = true) : Cleaned s f (cleanFn s f) := by
  have hkey (g : Nat) (hg : g ≠ f) : (Reg.HIF_ADMQ_CFG_ENABLE.ofFn g).key ≠ (Reg.HIF_FN_STATUS_CLEANING.ofFn f).key
      ∧ (Reg.HIF_ADMQ_CFG_ENABLE.ofFn g).key ≠ (Reg.HIF_ADMQ_CFG_ENABLE.ofFn f).key
      ∧ (Reg.HIF_FN_STATUS_CLEANING.ofFn g).key ≠ (Reg.HIF_FN_STATUS_CLEANING.ofFn f).key
      ∧ (Reg.HIF_FN_STATUS_CLEANING.ofFn g).key ≠ (Reg.HIF_ADMQ_CFG_ENABLE.ofFn f).key := by
    refine ⟨?_, ?_, ?_, ?_⟩
    all_goals exact ofFn_key_ne (by decide) (by decide) (by decide) (by decide) (.inl hg)
  have hown : (Reg.HIF_ADMQ_CFG_ENABLE.ofFn f).key ≠ (Reg.HIF_FN_STATUS_CLEANING.ofFn f).key :=
    ofFn_key_ne (by decide) (by decide) (by decide) (by decide) (.inr (by decide))
  rw [cleanFn_ends h]
  constructor
  case fn_same => rw [State.setR_fn, State.fn_setFn_same, cleanBegun_fn]
  case fn_other => exact fun g hg => by rw [State.setR_fn, State.fn_setFn_other hg, cleanBegun_fn]
  case enable => rw [State.fr, State.setR_r_other hown, State.setFn_r, cleanBegun_r, State.setR_r_other hown, State.setR_r_same, Nat.zero_mod]
  case cleaning => rw [State.fr, State.setR_r_same, Nat.zero_mod]
  case enable_other =>
    intro g hg
    obtain ⟨hother, hsame, -, -⟩ := hkey g hg
    rw [State.fr, State.setR_r_other hother, State.setFn_r, cleanBegun_r, State.setR_r_other hother, State.setR_r_other hsame, State.fr]
  case cleaning_other =>
    intro g hg
    obtain ⟨-, -, hsame, hother⟩ := hkey g hg
    rw [State.fr, State.setR_r_other hsame, State.setFn_r, cleanBegun_r, State.setR_r_other hsame, State.setR_r_other hother, State.fr]
  case ctxs => simp only [State.setR_sch, State.setFn_sch, cleanBegun]
  case qps => simp only [State.setR_cwt, State.setFn_cwt, cleanBegun]
  case regions => simp only [State.setR_rm, State.setFn_rm, cleanBegun]
  case taken =>
    simp only [State.setR_hif, State.setFn, cleanBegun]
    exact List.filter_subset_self _
  case mem => simp only [State.setR_mem, State.setFn_mem, cleanBegun]
  case sent => simp only [State.setR_sent, State.setFn_sent, cleanBegun]

namespace Cleaned
variable {s t : State} {f : Nat} (h : Cleaned s f t)
include h

theorem cleanDone {g : Nat} (hg : cleanDone s g = true) : cleanDone t g = true := cleanDone_mono h.ctxs h.qps h.regions h.taken hg

end Cleaned

/-- What clearing VF Enable has left when it has cleaned up the functions up to n, where none of them has anything live. -/
structure VfsCleaned (s : State) (n : Nat) (t : State) : Prop where
  pf : t.fn 0 = s.fn 0
  mem : t.mem = s.mem
  sent : t.sent = s.sent
  done : ∀ g, cleanDone s g = true → cleanDone t g = true
  empty : ∀ g, 1 ≤ g → g ≤ n → (t.fn g).sqs = [] ∧ (t.fn g).cqs = [] ∧ (t.fn g).rqs = [] ∧ (t.fn g).slots = []
    ∧ t.fr g Reg.HIF_ADMQ_CFG_ENABLE = 0 ∧ t.fr g Reg.HIF_FN_STATUS_CLEANING = 0

theorem VfsCleaned.next {s t u : State} {n : Nat} (h : VfsCleaned s n t) (hu : Cleaned t (n + 1) u) : VfsCleaned s (n + 1) u where
  pf := (hu.fn_other 0 (Nat.succ_ne_zero n).symm).trans h.pf
  mem := hu.mem.trans h.mem
  sent := hu.sent.trans h.sent
  done g hg := hu.cleanDone (h.done g hg)
  empty g hlow hhigh := by
    rcases Nat.eq_or_lt_of_le hhigh with rfl | hlt
    · refine ⟨?_, ?_, ?_, ?_, hu.enable, hu.cleaning⟩
      all_goals rw [hu.fn_same]
    · rw [hu.fn_other g hlt.ne, hu.enable_other g hlt.ne, hu.cleaning_other g hlt.ne]
      exact h.empty g hlow (by omega)

theorem vfEnableClear_cleans {s : State} {n : Nat} (hdone : ∀ g, 1 ≤ g → g ≤ n → cleanDone s g = true) :
    VfsCleaned s n ((List.range n).foldl (fun t i => cleanFn t (i + 1)) s) := by
  induction n with
  | zero => exact ⟨rfl, rfl, rfl, fun _ => id, fun g hlow hhigh => absurd hhigh (by omega)⟩
  | succ n ih =>
    rw [List.range_succ, List.foldl_append, List.foldl_cons, List.foldl_nil]
    have hbefore := ih fun g hlow hhigh => hdone g hlow (by omega)
    exact hbefore.next (cleanFn_cleaned (hbefore.done (n + 1) (hdone (n + 1) (by omega) le_rfl)))

/-- Settles O11: with nothing live the lists that a clean-up goes through are empty, and it leaves the other functions alone. -/
theorem vectorsAndFunctionStates : Obligations.VectorsAndFunctionStates := by
  intro s f
  refine ⟨fun vec hf hvec => ⟨fun hpend => ?quiet, fun hpend hawake => ?sends, fun hpend hasleep => ?asleep⟩,
    fun q t c hf hq hfirst hcoal htime => ?due, fun q hf h => ?early, fun hf => ⟨?enter, ?leave⟩, fun hpos hf => ?flr, ?clear,
    fun hpos hf hdone => ?flrDone, fun hdone => ?clearDone⟩
  case quiet => rw [exec_msixUnmask hf hvec, msixUnmask_quiet hpend]; rfl
  case sends => rw [exec_msixUnmask hf hvec, msixUnmask_sends hpend hawake]; rfl
  case asleep => rw [exec_msixUnmask hf hvec, msixUnmask_asleep hpend hasleep]; rfl
  case due => rw [exec_cqCoalesceTimer hf, cqCoalesce_due hq hfirst hcoal htime]
  case early => rw [exec_cqCoalesceTimer hf, cqCoalesce_early h]
  case enter => exact exec_d3hotChange hf true s
  case leave => exact exec_d3hotChange hf false s
  case flr => exact exec_vfFlr hpos hf s
  case clear => exact exec_vfEnableClear s
  case flrDone =>
    have hclean := cleanFn_cleaned (s := s.setFn f { s.fn f with d3hot := false, unmasked := [], msixPending := [] }) (f := f)
      (cleanDone_mono rfl rfl rfl (List.Subset.refl _) hdone)
    refine ⟨_, exec_vfFlr hpos hf s, ?_, ?_, ?_, ?_, ?_, fun g hg => ?_⟩
    · rw [keepQueue_fn, vfFlr, hclean.fn_same, State.fn_setFn_same]; rfl
    · rw [keepQueue_fr, vfFlr, hclean.enable]
    · rw [keepQueue_fr, vfFlr, hclean.cleaning]
    · rw [keepQueue_mem, vfFlr, hclean.mem, State.setFn_mem]
    · rw [keepQueue_sent, vfFlr, hclean.sent, State.setFn_sent]
    · rw [keepQueue_fn, vfFlr, hclean.fn_other g hg, State.fn_setFn_other hg]
  case clearDone =>
    have hclean := vfEnableClear_cleans (s := s) (n := 63) fun g hlow hhigh => hdone g hlow (by omega)
    refine ⟨_, exec_vfEnableClear s, ?_, ?_, ?_, fun g hlow hhigh => ?_⟩
    · rw [keepQueue_fn, hclean.pf]
    · rw [keepQueue_mem, hclean.mem]
    · rw [keepQueue_sent, hclean.sent]
    · rw [keepQueue_fn, keepQueue_fr, keepQueue_fr]
      exact hclean.empty g hlow (by omega)

end Sys2Proof.Machine
end

section
/-! PROOFS. Exchange windows: slot writes, doorbells, releases and completion flags (R398 to R414). -/

namespace Sys2Proof.Machine

section
variable {w : Nat} (hw : w < 64)
include hw

theorem exec_windowWrite (off path : Nat) (bs : List Byte) (s : State) : exec (.windowWrite w off path bs) s = goesOn s (windowWrite s w off path bs) :=
  withUnit_there (decide_eq_true hw)
theorem exec_xwDoorbell (path v : Nat) (s : State) : exec (.xwDoorbell w path v) s = goesOn s (xwDoorbell s w path v) :=
  withUnit_there (decide_eq_true hw)
theorem exec_rhead (path v : Nat) (s : State) : exec (.rhead w path v) s = goesOn s (xwRhead s w path v) := withUnit_there (decide_eq_true hw)
theorem exec_releaseRecordWrite (s : State) : exec (.releaseRecordWrite w) s = goesOn s (releaseRecordWrite s w) :=
  withUnit_there (decide_eq_true hw)
theorem exec_slotFlagWrite (slot : Nat) (s : State) : exec (.slotFlagWrite w slot) s = goesOn s (slotFlagWrite s w slot) :=
  withUnit_there (decide_eq_true hw)

end

/-! ### What reaches a window (R398 to R400) -/

/-- A write on a path reaches a window that is on and served by its port. -/
def Reached (s : State) (w path : Nat) : Prop := winOn s w = true ∧ path = winPort s w

theorem xwReached_iff {s : State} {w path : Nat} : xwReached s w path = true ↔ Reached s w path := by
  simp only [xwReached, Reached, Bool.and_eq_true, beq_iff_eq]

theorem not_xwReached {s : State} {w path : Nat} (h : ¬ Reached s w path) : xwReached s w path = false :=
  Bool.eq_false_iff.mpr fun h' => h (xwReached_iff.mp h')

/-- The first byte past the slots of a window. -/
def slotsEnd (s : State) (w : Nat) : Nat := 0x10000 + winSlots s w * winSlotSize s w

section
variable {s : State} {w path : Nat}

theorem windowWrite_misuse {off : Nat} {bs : List Byte}
    (h : ¬ Reached s w path ∨ off < 0x1000 ∨ (0x2000 ≤ off ∧ off < 0x10000) ∨ (0x2000 ≤ off ∧ slotsEnd s w < off + bs.length)) :
    windowWrite s w off path bs = xwCounted s w := by
  by_cases hreach : Reached s w path
  · simp only [windowWrite, xwReached_iff.mpr hreach, Bool.not_true, Bool.false_eq_true, if_false]
    by_cases hlow : off < 0x1000
    · exact if_pos hlow
    · have hslots : 0x2000 ≤ off ∧ (off < 0x10000 ∨ slotsEnd s w < off + bs.length) := by tauto
      rw [if_neg hlow, if_neg (Nat.not_lt.mpr hslots.1)]
      exact if_pos hslots.2
  · simp only [windowWrite, not_xwReached hreach, Bool.not_false, if_true]
    rfl

section
variable (hreach : Reached s w path)
include hreach

theorem windowWrite_stores {off : Nat} {bs : List Byte} (hlow : 0x10000 ≤ off) (hhigh : off + bs.length ≤ slotsEnd s w) :
    windowWrite s w off path bs = s.wr (winBase s w + off) bs := by
  simp only [windowWrite, xwReached_iff.mpr hreach, Bool.not_true, Bool.false_eq_true, if_false]
  rw [if_neg (by omega), if_neg (by omega), if_neg]
  rw [slotsEnd] at hhigh
  omega

/-! ### The ring's head (R403) -/

theorem xwRhead_moves {v : Nat} (hv : v < 2 ^ 32) (hring : dbAhead v (s.win w).rhead ≤ (s.win w).rcount - (s.win w).rhead) :
    xwRhead s w path v = s.setWin w { s.win w with rhead := (s.win w).rhead + dbAhead v (s.win w).rhead } := by
  simp only [xwRhead, xwReached_iff.mpr hreach, Bool.not_true, Bool.false_eq_true, if_false]
  exact if_neg fun h => h.elim (Nat.not_le.mpr hv) (Nat.not_lt.mpr hring)

theorem xwRhead_bad {v : Nat} (h : 2 ^ 32 ≤ v ∨ (s.win w).rcount - (s.win w).rhead < dbAhead v (s.win w).rhead) :
    xwRhead s w path v = xwBad s w := by
  simp only [xwRhead, xwReached_iff.mpr hreach, Bool.not_true, Bool.false_eq_true, if_false]
  exact if_pos h

/-! ### Doorbells (R406, R407) -/

/-- A doorbell is the next one, for the next slot, and that slot is free. -/
def NextBell (s : State) (w v : Nat) : Prop :=
  v < 2 ^ 64 ∧ bits v 8 24 = 0 ∧ bits v 32 32 = ((s.win w).dcount % 2 ^ 32 + 1) % 2 ^ 32
  ∧ bits v 0 8 = ((s.win w).dcount + 1) % winSlots s w ∧ amHas (bits v 0 8) (s.win w).uses = false

theorem xwDoorbell_next {v : Nat} (hnext : NextBell s w v) : xwDoorbell s w path v = acceptSlot s w (bits v 0 8) (bits v 32 32) := by
  simp only [xwDoorbell, xwReached_iff.mpr hreach, Bool.not_true, Bool.false_eq_true, if_false, Bool.not_eq_true']
  exact if_pos hnext

theorem xwDoorbell_other {v : Nat} (hnext : ¬ NextBell s w v) :
    xwDoorbell s w path v =
      if ((s.win w).dcount % 2 ^ 32 + 2 ^ 32 - bits v 32 32) % 2 ^ 32 < 2 ^ 31 then s.cnt (Reg.HIF_XW_COUNT_DUP.at 0x40 w) 1 else xwBad s w := by
  simp only [xwDoorbell, xwReached_iff.mpr hreach, Bool.not_true, Bool.false_eq_true, if_false, Bool.not_eq_true']
  exact if_neg hnext

end

theorem xwDoorbell_unreached (h : ¬ Reached s w path) (v : Nat) : xwDoorbell s w path v = xwCounted s w := by
  simp only [xwDoorbell, not_xwReached h, Bool.not_false, if_true]
  rfl

theorem xwRhead_unreached (h : ¬ Reached s w path) (v : Nat) : xwRhead s w path v = xwCounted s w := by
  simp only [xwRhead, not_xwReached h, Bool.not_false, if_true]
  rfl

end

/-- What an accepted doorbell leaves of its slot before its entries are taken. -/
def bellUse (s : State) (w slot seq : Nat) (bad : Bool) : SlotUse :=
  { slot := slot, seq := seq, hdr := xwHeader s w slot, bad := bad, entries := xwEntries s w slot,
    fences := if bad then [] else slotFences s w (xwHeader s w slot), weightFail := false, counted := false }

/-- The window once a doorbell is accepted: DSEQ has advanced and the slot is in use. -/
def bellTaken (s : State) (w slot seq : Nat) (bad : Bool) : State :=
  s.setWin w { s.win w with dcount := (s.win w).dcount + 1, uses := amSet slot (bellUse s w slot seq bad) (s.win w).uses }

section
variable {s : State} {w slot seq : Nat}

theorem xwEntries_eq : xwEntries s w slot =
    if decide (1 ≤ leField (xwHeader s w slot) 8 2) && decide (leField (xwHeader s w slot) 8 2 ≤ 4096) then
      slotEntries s (slotAddr s w slot) (leField (xwHeader s w slot) 8 2) else [] := by
  simp only [xwEntries, Bool.and_eq_true, decide_eq_true_eq]

theorem acceptSlot_noModel (hmodel : amGet (s.r (Reg.HIF_XW_CFG_MODEL.at 0x40 w)) s.sch.models = none) :
    acceptSlot s w slot seq =
      (List.range (xwEntries s w slot).length).foldl (fun U i => setResult U w slot i Status.fenced.code Detail.XCH_SLOT) (bellTaken s w slot seq true) := by
  simp only [acceptSlot, hmodel, Bool.not_false, Bool.false_eq_true, if_false, bellTaken, bellUse, if_true, xwEntries_eq]
  rfl

theorem acceptSlot_one {m : Model} {e : SlotEntry} (hmodel : amGet (s.r (Reg.HIF_XW_CFG_MODEL.at 0x40 w)) s.sch.models = some m)
    (hok : headerOk s w m seq (xwHeader s w slot) (xwEntries s w slot) = true) (hone : xwEntries s w slot = [e]) :
    acceptSlot s w slot seq = takeEntry (bellTaken s w slot seq false) w slot (leField (xwHeader s w slot) 6 1) (leField (xwHeader s w slot) 4 2)
      (leField (xwHeader s w slot) 7 1) 0 e false := by
  have hes : (if decide (1 ≤ leField (s.rd (slotAddr s w slot) 256) 8 2) && decide (leField (s.rd (slotAddr s w slot) 256) 8 2 ≤ 4096) then
      slotEntries s (slotAddr s w slot) (leField (s.rd (slotAddr s w slot) 256) 8 2) else []) = [e] := xwEntries_eq.symm.trans hone
  have hok' : headerOk s w m seq (s.rd (slotAddr s w slot) 256) [e] = true := hone ▸ hok
  simp only [acceptSlot, hmodel, hes, hok', Bool.not_true, if_true, List.zipIdx_cons, List.zipIdx_nil, List.foldl_cons, List.foldl_nil,
    List.take_zero, List.any_nil, bellTaken, bellUse, hone, xwHeader, Bool.false_eq_true, if_false]

theorem takeEntry_ends {U : State} {kind layer formats i : Nat} {e : SlotEntry} {r : Nat × Nat}
    (hcheck : entryCheck U w kind layer e false = .error r) : takeEntry U w slot kind layer formats i e false = setResult U w slot i r.1 r.2 := by
  simp only [takeEntry, hcheck]

/-- The layer that an accepted entry of request y begins. -/
def entryLayer (y : Ctx) (w slot kind layer formats i : Nat) (e : SlotEntry) : StepLayer :=
  { handle := y.handle, layer := layer, kind := kind, window := w, slot := slot, entry := i, row0 := e.row0, pos0 := e.pos0, count := e.count,
    formats := formats, tree := if kind = 3 then y.verifyTree else [], stage := .writing, merge := none, det := y.deterministic, shards := [], kvTasks := [] }

theorem takeEntry_begins {U V : State} {kind layer formats i : Nat} {e : SlotEntry} {x y : Ctx} {m : Model}
    (hcheck : entryCheck U w kind layer e false = .ok (x, m)) (hV : stallClear (U.setCtx { x with layer := x.layer + 1 }) x.handle St.exchange = V)
    (hy : V.ctx x.handle = some y) (hidle : (V.layer y.handle).isSome = false) :
    takeEntry U w slot kind layer formats i e false = beginLayer V y m (entryLayer y w slot kind layer formats i e) := by
  simp only [takeEntry, hcheck, hV, hy, Option.getD_some, hidle, Bool.false_eq_true, if_false, entryLayer]

end

/-! ### Releases (R402, R403) -/

section
variable {s : State} {w : Nat}

theorem releaseRecordWrite_idle (h : (s.win w).waiting = [] ∨ winOn s w = false) : releaseRecordWrite s w = s := by
  cases hwait : (s.win w).waiting with
  | nil => simp only [releaseRecordWrite, hwait]
  | cons r rest =>
    have hoff : winOn s w = false := h.resolve_left (by rw [hwait]; exact List.cons_ne_nil r rest)
    simp only [releaseRecordWrite, hwait, hoff, Bool.not_false, if_true]

/-- The window once its oldest release has been written in the inline ring. -/
def releaseWritten (s : State) (w : Nat) (r : Release) (rest : List Release) : State :=
  (s.wr (winBase s w + 0x2000 + 32 * ((s.win w).rcount % winRing s w))
    (releaseBytes (((s.win w).rcount + 1) % 2 ^ 32) r.kind r.lclass (s.r (Reg.HIF_XW_CFG_MODEL.at 0x40 w)) r.handle r.pos0 r.count r.tag)).setWin w
      { s.win w with rcount := (s.win w).rcount + 1, waiting := rest }

theorem releaseRecordWrite_writes {r : Release} {rest : List Release} (hwait : (s.win w).waiting = r :: rest) (hon : winOn s w = true)
    (hroom : (s.win w).rcount - (s.win w).rhead < winRing s w) (hinline : s.r (Reg.HIF_XW_REL_REL_DEST.at 0x40 w) = 0) :
    releaseRecordWrite s w =
      if r.kind = 4 then releaseWritten s w r rest else modCtx (releaseWritten s w r rest) r.handle fun x => { x with relWritten := true } := by
  simp only [releaseRecordWrite, hwait, hon, Bool.not_true, Bool.false_eq_true, if_false, Nat.not_le.mpr hroom, relSlot, hinline, if_true,
    Nat.add_sub_cancel, releaseWritten]

theorem modCtx_there {T : State} {h : Nat} {x : Ctx} (hx : T.ctx h = some x) (f : Ctx → Ctx) : modCtx T h f = T.setCtx (f x) := by
  simp only [modCtx, hx]

end

/-! ### Completion flags (R410 to R412) -/

section
variable {s : State} {w slot : Nat}

theorem slotFlagWrite_free (h : amGet slot (s.win w).uses = none) : slotFlagWrite s w slot = s := by simp only [slotFlagWrite, h]

variable {u : SlotUse} (hu : amGet slot (s.win w).uses = some u)
include hu

theorem slotFlagWrite_pending (hopen : ∃ e ∈ u.entries, e.result = none) : slotFlagWrite s w slot = s := by
  have hany : (u.entries.any fun e => e.result.isNone) = true := by simpa using hopen
  simp only [slotFlagWrite, hu, hany, if_true]

theorem flagHeld_again (hcounted : u.counted = true) : flagHeld s w slot = s := by simp only [flagHeld, hu, hcounted, true_or, if_true]

variable (hdone : ∀ e ∈ u.entries, e.result ≠ none)
include hdone

omit hu in
theorem entries_ended : (u.entries.any fun e => e.result.isNone) = false := by simpa using hdone

theorem slotFlagWrite_fenced (hfence : u.fences ≠ []) : slotFlagWrite s w slot = flagHeld s w slot := by
  have hheld : u.fences.isEmpty = false := by simpa using hfence
  simp only [slotFlagWrite, hu, entries_ended hdone, hheld, Bool.not_false, Bool.false_eq_true, if_false, if_true]

theorem flagHeld_counts (hfence : u.fences ≠ []) (hnew : u.counted = false) (hnone : ∀ e ∈ u.entries, e.result ≠ some (0, 0)) :
    flagHeld s w slot =
      (s.cnt (Reg.HIF_XW_COUNT_FENCE_WAIT.at 0x40 w) 1).setWin w { s.win w with uses := amSet slot { u with counted := true } (s.win w).uses } := by
  have hheld : u.fences.isEmpty = false := by simpa using hfence
  have hok : (u.entries.filter fun e => e.result == some (0, 0)) = [] := List.filter_eq_nil_iff.mpr fun e he => by simpa using hnone e he
  simp only [flagHeld, hu, hnew, hheld, entries_ended hdone, Bool.false_eq_true, or_self, if_false, hok, List.foldl_nil]

theorem slotFlagWrite_writes (hfence : u.fences = []) (hnew : u.counted = false) (hdest : leField u.hdr 0x18 8 = 0 ∨ u.bad = true) :
    slotFlagWrite s w slot =
      (let U := s.wr (slotAddr s w slot + 0x40) (flagBytes u)
       U.setWin w { U.win w with uses := amErase slot (U.win w).uses }) := by
  have hhome : ¬ (leField u.hdr 0x18 8 ≠ 0 ∧ (!u.bad) = true) := by
    rintro ⟨hfar, hgood⟩
    rcases hdest with h | h
    · exact hfar h
    · rw [h] at hgood; exact nomatch hgood
  simp only [slotFlagWrite, hu, entries_ended hdone, hfence, List.isEmpty_nil, Bool.not_true, Bool.false_eq_true, if_false, if_neg hhome, hnew,
    List.foldl_fixed]

end

/-- Settles O51. -/
theorem windowsExchange : Obligations.WindowsExchange := by
  intro s w hw
  refine ⟨fun off path bs => ⟨fun h => ?misuse, fun hreach hlow hhigh => ?stores⟩, fun path v => ?bell, ?release, fun slot => ⟨fun h => ?free, fun u hu => ?flag⟩⟩
  case misuse => rw [exec_windowWrite hw]; exact congrArg (goesOn s) (windowWrite_misuse h)
  case stores => rw [exec_windowWrite hw]; exact congrArg (goesOn s) (windowWrite_stores hreach hlow hhigh)
  case bell =>
    simp only [exec_xwDoorbell hw, exec_rhead hw]
    refine ⟨fun h => ⟨?bellUnreached, ?headUnreached⟩, fun hreach hnext hdup => ?dup, fun hreach hnext hfar => ?far, fun hreach hnext hmodel => ?noModel,
      fun m e hreach hnext hmodel hok hone => ⟨fun r hcheck => ?ends, fun x mo y hcheck hy hidle => ?begins⟩, fun hreach hv hring => ?head,
      fun hreach hbad => ?headBad⟩
    case bellUnreached => exact congrArg (goesOn s) (xwDoorbell_unreached h v)
    case headUnreached => exact congrArg (goesOn s) (xwRhead_unreached h v)
    case dup => exact congrArg (goesOn s) ((xwDoorbell_other hreach hnext).trans (if_pos hdup))
    case far => exact congrArg (goesOn s) ((xwDoorbell_other hreach hnext).trans (if_neg (Nat.not_lt.mpr hfar)))
    case noModel => exact congrArg (goesOn s) ((xwDoorbell_next hreach hnext).trans (acceptSlot_noModel hmodel))
    case ends =>
      exact congrArg (goesOn s) ((xwDoorbell_next hreach hnext).trans ((acceptSlot_one hmodel hok hone).trans (takeEntry_ends hcheck)))
    case begins =>
      exact congrArg (goesOn s) ((xwDoorbell_next hreach hnext).trans ((acceptSlot_one hmodel hok hone).trans (takeEntry_begins hcheck rfl hy hidle)))
    case head => exact congrArg (goesOn s) (xwRhead_moves hreach hv hring)
    case headBad => exact congrArg (goesOn s) (xwRhead_bad hreach hbad)
  case release =>
    simp only [exec_releaseRecordWrite hw]
    refine ⟨fun h => congrArg (goesOn s) (releaseRecordWrite_idle h), fun r rest hwait hon hroom hinline => ?_⟩
    rw [releaseRecordWrite_writes hwait hon hroom hinline]
    exact ⟨fun hkind => congrArg (goesOn s) (if_pos hkind),
      fun x hkind hx => congrArg (goesOn s) ((if_neg hkind).trans (modCtx_there hx _))⟩
  case free => rw [exec_slotFlagWrite hw, slotFlagWrite_free h]
  case flag =>
    simp only [exec_slotFlagWrite hw]
    refine ⟨fun hopen => ?pending, fun hdone hfence hcounted => ?again, fun hended hfence hnew => ?counts, fun hdone hfence hnew hdest => ?writes⟩
    case pending => rw [slotFlagWrite_pending hu hopen]
    case again => rw [slotFlagWrite_fenced hu hdone hfence, flagHeld_again hu hcounted]
    case counts =>
      have hdone : ∀ e ∈ u.entries, e.result ≠ none := fun e he => (hended e he).1
      rw [slotFlagWrite_fenced hu hdone hfence, flagHeld_counts hu hdone hfence hnew fun e he => (hended e he).2]
    case writes => rw [slotFlagWrite_writes hu hdone hfence hnew hdest]

end Sys2Proof.Machine
end

section
/-! PROOFS. Shapers and their wheels (R365 to R373), leases and snags (R355 to R360), hot lines (R352) and observers (R375). -/

namespace Sys2Proof.Machine

theorem exec_shaperWheelSlot (s : State) : exec .shaperWheelSlot s = goesOn s (shaperWheelSlot s) := rfl
theorem exec_leaseTermExpiry (i : Nat) (s : State) : exec (.leaseTermExpiry i) s = goesOn s (leaseTermExpiry s i) := rfl
theorem exec_hotLineCool (line : Nat) (s : State) : exec (.hotLineCool line) s = goesOn s (hotLineCool s line) := rfl
theorem exec_observerSample (s : State) : exec .observerSample s = goesOn s (observerSample s) := rfl

/-! ### SHAPER_SET (R368, R372) -/

section
variable {c : Cmd} {T : State} {d : List Byte}

/-- A shaper that SHAPER_SET may name, and fields in range. -/
def ShaperSetOk (T : State) (c : Cmd) (d : List Byte) : Prop :=
  c.arg0 ≠ 0 ∧ c.arg0 < min 65536 (T.r Reg.CWT_SHP_CFG_COUNT) ∧ shaperDescOk d = true

theorem shaperSetBody_refuses (h : ¬ ShaperSetOk T c d) : shaperSetBody c T d = (T, some (Done.of .fenced Detail.SHP_RANGE)) := by
  have hbad : c.arg0 = 0 ∨ shpCount T ≤ c.arg0 ∨ (!shaperDescOk d) = true := by
    simpa only [ShaperSetOk, not_and_or, not_not, Nat.not_lt, Bool.not_eq_true, ← Bool.not_eq_true', shpCount] using h
  rw [shaperSetBody, if_pos hbad, fail]

/-- The entry with the 16 bytes of SHAPER_SET waiting, and its slot armed at the shaper's next boundary. -/
def shaperStaged (T : State) (k : Nat) (d : List Byte) : State :=
  let x := shpGet T k
  let U := shpPut T k { x with staged := fit 16 d, pending := true }
  { U with cwt := { U.cwt with shpWheel := amSet k (x.last + ((T.now - x.last) / x.interval + 1) * x.interval) U.cwt.shpWheel } }

theorem shaperSetBody_stages (h : ShaperSetOk T c d) : shaperSetBody c T d = (shaperStaged T c.arg0 d, some Done.ok) := by
  obtain ⟨h0, hcount, hdesc⟩ := h
  have hgood : ¬ (c.arg0 = 0 ∨ shpCount T ≤ c.arg0 ∨ (!shaperDescOk d) = true) := by
    rw [shpCount, hdesc]
    rintro (h | h | h)
    · exact h0 h
    · exact Nat.not_le.mpr hcount h
    · exact nomatch h
  rw [shaperSetBody, if_neg hgood, shaperStaged]
  rfl

end

/-! ### The wheels (R372, R373) -/

section
variable {s : State}

theorem shpBlocked_free (h : s.cwt.blocked = []) (k : Nat) : shpBlocked s k = s := by rw [shpBlocked, h]; rfl

/-- A shaper that holds nothing back is refilled when it is consulted. -/
theorem shpConsult_free (h : s.cwt.blocked = []) (k : Nat) : shpConsult s k = shpPut s k ((shpGet s k).refilled s.now) := by
  rw [shpConsult, shpBlocked_free h]
  dsimp only
  split
  · have hnone : amErase k (shpPut s k ((shpGet s k).refilled s.now)).cwt.blocked = (shpPut s k ((shpGet s k).refilled s.now)).cwt.blocked := by
      simp only [shpPut, State.wr_cwt, h]; rfl
    rw [hnone]
  · rfl

@[simp] theorem shpBlocked_wheel (s : State) (k : Nat) : (shpBlocked s k).cwt.wheel = s.cwt.wheel := by
  unfold shpBlocked
  split <;> rfl

@[simp] theorem shpConsult_wheel (s : State) (k : Nat) : (shpConsult s k).cwt.wheel = s.cwt.wheel := by
  simp only [shpConsult]
  split
  · exact shpBlocked_wheel s k
  · exact shpBlocked_wheel s k

theorem shaperWheelSlot_none (hshp : ∀ e ∈ s.cwt.shpWheel, s.now < e.2) :
    shaperWheelSlot s = s.cwt.wheel.foldl (fun s e => wheelReached s e.1 e.2) s := by
  have hdue : (s.cwt.shpWheel.filter fun e => e.2 ≤ s.now) = [] :=
    List.filter_eq_nil_iff.mpr fun e he => by simpa using hshp e he
  rw [shaperWheelSlot, hdue]
  rfl

theorem shaperWheelSlot_shaper {k t : Nat} (hshp : s.cwt.shpWheel = [(k, t)]) (htime : t ≤ s.now) (hwheel : s.cwt.wheel = []) :
    shaperWheelSlot s = shpConsult { s with cwt := { s.cwt with shpWheel := [] } } k := by
  have hgone : amErase k [(k, t)] = [] := by simp only [amErase, if_true]
  simp only [shaperWheelSlot, hshp, List.filter_cons, htime, decide_true, if_true, List.filter_nil, List.foldl_cons, List.foldl_nil, hgone,
    shpConsult_wheel, hwheel]

theorem shaperWheelSlot_queuePair {i : Nat} {w : WheelEnt} (hshp : s.cwt.shpWheel = []) (hwheel : s.cwt.wheel = [(i, w)]) :
    shaperWheelSlot s = wheelReached s i w := by
  rw [shaperWheelSlot_none (by rw [hshp]; exact fun e he => nomatch he), hwheel]
  rfl

variable {i : Nat} {w : WheelEnt}

theorem wheelReached_coarseEarly (hcoarse : w.coarse = true) (htime : s.now < w.wake / 262144 * 262144) : wheelReached s i w = s := by
  simp only [wheelReached, hcoarse, if_true, fineHorizon, Nat.not_le.mpr htime, if_false]

theorem wheelReached_toFine (hcoarse : w.coarse = true) (htime : w.wake / 262144 * 262144 ≤ s.now) (hwheel : s.cwt.wheel = [(i, w)]) :
    wheelReached s i w = wheelRegs { s with cwt := { s.cwt with wheel := [(i, { w with coarse := false })] } } := by
  have hset : amSet i { w with coarse := false } [(i, w)] = [(i, { w with coarse := false })] := by simp [amSet]
  simp only [wheelReached, hcoarse, if_true, fineHorizon, htime, hwheel, hset]

theorem wheelReached_fineEarly (hfine : w.coarse = false) (htime : s.now < w.wake) : wheelReached s i w = s := by
  simp only [wheelReached, hfine, Bool.false_eq_true, if_false, htime, if_true]

theorem wheelReached_fine {q : Qp} (hfine : w.coarse = false) (htime : w.wake ≤ s.now) (hq : s.qpAt i = some q) :
    wheelReached s i w =
      (let V := (qpShapers s q).foldl shpConsult s
       if shpEligible V q then wheelLeave V i else wheelPlace V i q V.now) := by
  simp only [wheelReached, hfine, Bool.false_eq_true, if_false, Nat.not_lt.mpr htime, hq]

end

/-! ### Leases (R357, R358) -/

section
variable {T : State} {c : Cmd} {d : List Byte}

/-- The leases of the node that LEASE_BREAK names, and the units that hold up their snags. -/
def brokenLeases (T : State) (c : Cmd) : List (Nat × Lease) := T.rm.leases.filter fun e => e.2.lessee == c.arg0
def brokenUnits (T : State) (c : Cmd) : List Nat := (brokenLeases T c).flatMap fun e => leaseBlocked T e.2

/-- The state once the leases of a node have ended. -/
def leasesBroken (T : State) (c : Cmd) : State := (brokenLeases T c).foldl (fun W e => snagLease W e.1 e.2) (unhold T (.command Op.LEASE_BREAK c))

theorem leaseBreakBody_held (h : brokenUnits T c ≠ []) :
    leaseBreakBody c T d = (unstartCmd (holdWork T (brokenUnits T c) (.command Op.LEASE_BREAK c)) Op.LEASE_BREAK c, none) := by
  have hsome : (!(brokenUnits T c).isEmpty) = true := by simpa using h
  exact if_pos hsome

theorem leaseBreakBody_breaks (h : brokenUnits T c = []) :
    leaseBreakBody c T d = okWhenAcked (unhold T (.command Op.LEASE_BREAK c)) (leasesBroken T c) Op.LEASE_BREAK c 0 := by
  have hnone : ¬ (!(brokenUnits T c).isEmpty) = true := by simpa using h
  exact if_neg hnone

theorem leaseBreakBody_none (h : brokenLeases T c = []) :
    leaseBreakBody c T d = (unhold T (.command Op.LEASE_BREAK c), some { Done.ok with result := 0 }) := by
  have hstay : leasesBroken T c = unhold T (.command Op.LEASE_BREAK c) := by rw [leasesBroken, h]; rfl
  rw [leaseBreakBody_breaks (by rw [brokenUnits, h]; rfl), hstay, okWhenAcked_now (newDeltas_self _)]

end

section
variable {s : State} {i : Nat} {l : Lease} (hl : amGet i s.rm.leases = some l)
include hl

theorem leaseTermExpiry_early (htime : s.now < l.since + leaseTermNs s) : leaseTermExpiry s i = s := by
  simp only [leaseTermExpiry, hl, htime, if_true]

variable (htime : l.since + leaseTermNs s ≤ s.now)
include htime

theorem leaseTermExpiry_snags (hfree : leaseBlocked s l = []) : leaseTermExpiry s i = snagLease (unhold s (.snag i)) i l := by
  simp only [leaseTermExpiry, hl, Nat.not_lt.mpr htime, if_false, hfree, List.isEmpty_nil, if_true]

theorem leaseTermExpiry_held (hblocked : leaseBlocked s l ≠ []) : leaseTermExpiry s i = holdWork s (leaseBlocked s l) (.snag i) := by
  simp only [leaseTermExpiry, hl, Nat.not_lt.mpr htime, if_false, List.isEmpty_iff, hblocked]

end

theorem snagLease_region {s : State} {l : Lease} {r : Region} (hr : amGet l.region s.rm.regions = some r) (i : Nat) :
    snagLease s i l = setEvent (dropLease ((List.range l.count).foldl (fun U k => (setSnag U r (l.line + k) true).1) s) i) Reg.CWT_MEM_EVENT_SNAGGED 1 := by
  simp only [snagLease, hr]

/-! ### Hot lines (R352) -/

section
variable {s : State} {k : Nat}

theorem hotLineCool_absent (h : amGet k s.rm.hot = none) : hotLineCool s k = s := by simp only [hotLineCool, h]

variable {t : HotLine} (ht : amGet k s.rm.hot = some t)
include ht

theorem hotLineCool_early (htime : s.now < t.at_ + max 1 (s.r Reg.CWT_HOT_CFG_COOL_US) * 1000) : hotLineCool s k = s := by
  simp only [hotLineCool, ht, Nat.not_le.mpr htime, if_false]

theorem hotLineCool_due (htime : t.at_ + max 1 (s.r Reg.CWT_HOT_CFG_COOL_US) * 1000 ≤ s.now) :
    hotLineCool s k = (({ s with rm := { s.rm with hot := amErase k s.rm.hot } } : State).wr (64 * k) t.bytes).setR Reg.CWT_HOT_STATUS_LINES
      (amErase k s.rm.hot).length := by
  simp only [hotLineCool, ht, htime, if_true, hotDrop, State.wr_rm]

end

/-! ### Observers (R375, R377) -/

/-- The observers before a sample: those selected anew start from clear bins. -/
def observersReady (s : State) : State :=
  let U : State := { s with cwt := { s.cwt with obs := amFilter (fun k _ => !(k % 2 == 0 && s.cwt.obsClear.contains (k / 2))) s.cwt.obs, obsClear := [], obsAt := some s.now, obsLast := [] } }
  { U with cwt := { U.cwt with obsPrev := amFilter (fun k _ => k % 2 == 0) U.cwt.obs } }

theorem observerSample_again {s : State} (h : s.now % 1000 ≠ 0 ∨ s.cwt.obsAt = some s.now) : observerSample s = s := if_pos h

theorem observerSample_samples {s : State} (htime : s.now % 1000 = 0) (hnew : s.cwt.obsAt ≠ some s.now) :
    observerSample s = rxRetry ((List.range 256).foldl obsSample (observersReady s)) := if_neg fun h => h.elim (· htime) hnew

/-- Settles O48. -/
theorem shapersLeasesAndHotLines : Obligations.ShapersLeasesAndHotLines := by
  intro s c
  refine ⟨fun hready => ⟨fun hbad => ?refuses, fun hok => ?stages⟩, ?wheels, fun hready => ⟨fun hnone => ?noLease, fun hus => ?held, fun hus hds => ?breaks, fun hus hds => ?waits⟩,
    fun i l hl => ⟨fun htime => ?termEarly, fun htime => ⟨fun hfree => ?termSnags, fun hblocked => ?termHeld⟩⟩, fun i l r hr => snagLease_region hr i, ?hot,
    fun h => ?again, fun htime hnew => ?samples⟩
  case refuses => exact runCommand_ends hready (shaperSetBody_refuses hbad)
  case stages => exact runCommand_ends hready (shaperSetBody_stages hok)
  case wheels =>
    simp only [exec_shaperWheelSlot]
    refine ⟨fun hshp hwheel => ?none, fun k t hshp htime hwheel => ⟨?shaper, fun hfree => ?refill⟩, fun i w hshp hwheel => ?queuePair⟩
    case none => rw [shaperWheelSlot_none hshp, hwheel]; rfl
    case shaper => rw [shaperWheelSlot_shaper hshp htime hwheel]
    case refill => exact shpConsult_free (s := { s with cwt := { s.cwt with shpWheel := [] } }) hfree k
    case queuePair =>
      rw [shaperWheelSlot_queuePair hshp hwheel]
      refine ⟨fun hcoarse htime => ?_, fun hcoarse htime => ?_, fun hfine htime => ?_, fun q hfine htime hq => ?_⟩
      · rw [wheelReached_coarseEarly hcoarse htime]
      · rw [wheelReached_toFine hcoarse htime hwheel]
      · rw [wheelReached_fineEarly hfine htime]
      · rw [wheelReached_fine hfine htime hq]
        exact ⟨fun hgo => congrArg (goesOn s) (if_pos hgo), fun hstay => congrArg (goesOn s) (if_neg (Bool.eq_false_iff.mp hstay))⟩
  case noLease => exact runCommand_ends hready (leaseBreakBody_none hnone)
  case held => exact runCommand_goesOn hready (leaseBreakBody_held hus)
  case breaks => exact runCommand_ends hready ((leaseBreakBody_breaks hus).trans (okWhenAcked_now hds ..))
  case waits => exact runCommand_goesOn hready ((leaseBreakBody_breaks hus).trans (okWhenAcked_later hds ..))
  case termEarly => rw [exec_leaseTermExpiry, leaseTermExpiry_early hl htime]
  case termSnags => rw [exec_leaseTermExpiry, leaseTermExpiry_snags hl htime hfree]
  case termHeld => rw [exec_leaseTermExpiry, leaseTermExpiry_held hl htime hblocked]
  case hot =>
    intro k
    rw [exec_hotLineCool]
    exact ⟨fun h => congrArg (goesOn s) (hotLineCool_absent h), fun t ht =>
      ⟨fun htime => congrArg (goesOn s) (hotLineCool_early ht htime), fun htime => congrArg (goesOn s) (hotLineCool_due ht htime)⟩⟩
  case again => rw [exec_observerSample, observerSample_again h]
  case samples => rw [exec_observerSample, observerSample_samples htime hnew]; rfl

end Sys2Proof.Machine
end

section
/-! PROOFS. The fleet map and the change of a role (R417, R423 to R427), and the loading of programs (R264). -/

namespace Sys2Proof.Machine

theorem exec_progLoad (c : Cmd) (s : State) : exec (.progLoad c) s = runPlain s Op.PROG_LOAD c fun t d => progLoadBody c (roleFence t) d := rfl

/-! ### MAP_INSTALL (R417) -/

section
variable {c : Cmd} {T : State} {d : List Byte}

/-- A map that R417 refuses before it looks at the node. -/
def MapBad (d : List Byte) : Prop :=
  leField d 2 2 = 0 ∨ 4 < leField d 4 1 ∨ 4 ≤ leField d 5 1 ∨ allZero (d.drop 0x10) = false ∨ (bit (leField d 5 1) 0 = true ∧ bit (leField d 5 1) 1 = true)

/-- How MAP_INSTALL ends: with its tag as RESULT. -/
def mapEnd (d : List Byte) (st : Status) (dt : Nat) : Done := { Done.of st dt with result := leField d 8 8 }

theorem mapInstallBody_bad (hbad : MapBad d) : mapInstallBody c T d = (T, some (mapEnd d .fenced Detail.MAP_SEQ)) := by
  rw [mapInstallBody]
  dsimp only
  exact if_pos (by simpa only [MapBad, Bool.not_eq_true'] using hbad)

/-- A map that is not bad goes on to the rows of R417 that speak of the node. -/
theorem mapInstallBody_good (hgood : ¬ MapBad d) : mapInstallBody c T d =
    if bit (leField d 5 1) 0 = true ∧ T.nodeId ≠ 0 then
      if leField d 0 2 = T.r Reg.MGT_MAP_EPOCH_EPOCH ∧ leField d 2 2 = T.nodeId ∧ leField d 4 1 = T.role ∧ leField d 6 2 = T.r Reg.MGT_MAP_SUCC_SUCC then
        (T, some (mapEnd d .ok 0))
      else (T, some (mapEnd d .conflict Detail.MAP_SEQ))
    else if (!bit (leField d 5 1) 0) = true ∧ ((!(T.r Reg.MGT_MAP_EPOCH_JOINED == 1)) = true ∨ leField d 2 2 ≠ T.nodeId) then
      (T, some (mapEnd d .conflict Detail.MAP_SEQ))
    else if leField d 4 1 ≠ T.role then (T, some (mapEnd d .conflict Detail.MAP_ROLE))
    else if bit (leField d 5 1) 0 = true then
      (((((T.setR Reg.MGT_ROLE_NODE_ID (leField d 2 2)).setR Reg.MGT_MAP_EPOCH_EPOCH (leField d 0 2)).setR Reg.MGT_MAP_EPOCH_JOINED 1).setR
        Reg.MGT_MAP_EPOCH_ROLE_LIVE 1).setR Reg.MGT_MAP_SUCC_SUCC (leField d 6 2), some (mapEnd d .ok 0))
    else if bit (leField d 5 1) 1 = true then
      if leField d 4 1 = roleUnassigned then
        ((((T.setR Reg.MGT_ROLE_NODE_ID 0).setR Reg.MGT_MAP_EPOCH_EPOCH 0).setR Reg.MGT_MAP_EPOCH_JOINED 0).setR
          Reg.MGT_MAP_EPOCH_ROLE_LIVE 0, some (mapEnd d .ok 0))
      else (T, some (mapEnd d .conflict Detail.MAP_ROLE))
    else if (leField d 0 2 + 65536 - T.r Reg.MGT_MAP_EPOCH_EPOCH) % 65536 = 0 then
      if leField d 6 2 = T.r Reg.MGT_MAP_SUCC_SUCC then (T, some (mapEnd d .ok 0)) else (T, some (mapEnd d .conflict Detail.MAP_SEQ))
    else if (leField d 0 2 + 65536 - T.r Reg.MGT_MAP_EPOCH_EPOCH) % 65536 = 1 then
      (((T.setR Reg.MGT_MAP_EPOCH_EPOCH (leField d 0 2)).setR Reg.MGT_MAP_SUCC_SUCC (leField d 6 2)).setR Reg.MGT_MAP_EPOCH_ROLE_LIVE 1,
        some (mapEnd d .ok 0))
    else if (leField d 0 2 + 65536 - T.r Reg.MGT_MAP_EPOCH_EPOCH) % 65536 < 32768 then (T, some (mapEnd d .conflict Detail.MAP_SEQ))
    else (T, some (mapEnd d .stale 0)) := by
  rw [mapInstallBody]
  dsimp only
  exact if_neg (by simpa only [MapBad, Bool.not_eq_true'] using hgood)

section
variable (hgood : ¬ MapBad d) (hjoin : bit (leField d 5 1) 0 = true) (hnew : T.nodeId = 0)
include hgood hjoin hnew

theorem mapInstallBody_joinOther (hrole : leField d 4 1 ≠ T.role) : mapInstallBody c T d = (T, some (mapEnd d .conflict Detail.MAP_ROLE)) := by
  simp only [mapInstallBody_good hgood, hjoin, hnew, hrole, ne_eq, not_true_eq_false, and_false, if_false, Bool.not_true, Bool.false_eq_true,
    false_and, not_false_eq_true, if_true]

theorem mapInstallBody_joins (hrole : leField d 4 1 = T.role) : mapInstallBody c T d =
    (((((T.setR Reg.MGT_ROLE_NODE_ID (leField d 2 2)).setR Reg.MGT_MAP_EPOCH_EPOCH (leField d 0 2)).setR Reg.MGT_MAP_EPOCH_JOINED 1).setR
      Reg.MGT_MAP_EPOCH_ROLE_LIVE 1).setR Reg.MGT_MAP_SUCC_SUCC (leField d 6 2), some (mapEnd d .ok 0)) := by
  simp only [mapInstallBody_good hgood, hjoin, hnew, hrole, ne_eq, not_true_eq_false, and_false, if_false, Bool.not_true, Bool.false_eq_true,
    false_and, if_true]

end

section
variable (hgood : ¬ MapBad d) (hplain : leField d 5 1 = 0) (hjoined : T.r Reg.MGT_MAP_EPOCH_JOINED = 1) (hnode : leField d 2 2 = T.nodeId)
  (hrole : leField d 4 1 = T.role)
include hgood hplain hjoined hnode hrole

/-- A plain map for a joined node goes by how far ahead its epoch is. -/
theorem mapInstallBody_plain : mapInstallBody c T d =
    if (leField d 0 2 + 65536 - T.r Reg.MGT_MAP_EPOCH_EPOCH) % 65536 = 0 then
      if leField d 6 2 = T.r Reg.MGT_MAP_SUCC_SUCC then (T, some (mapEnd d .ok 0)) else (T, some (mapEnd d .conflict Detail.MAP_SEQ))
    else if (leField d 0 2 + 65536 - T.r Reg.MGT_MAP_EPOCH_EPOCH) % 65536 = 1 then
      (((T.setR Reg.MGT_MAP_EPOCH_EPOCH (leField d 0 2)).setR Reg.MGT_MAP_SUCC_SUCC (leField d 6 2)).setR Reg.MGT_MAP_EPOCH_ROLE_LIVE 1,
        some (mapEnd d .ok 0))
    else if (leField d 0 2 + 65536 - T.r Reg.MGT_MAP_EPOCH_EPOCH) % 65536 < 32768 then (T, some (mapEnd d .conflict Detail.MAP_SEQ))
    else (T, some (mapEnd d .stale 0)) := by
  have hflags : bit (leField d 5 1) 0 = false ∧ bit (leField d 5 1) 1 = false := by rw [hplain]; decide
  simp only [mapInstallBody_good hgood, hflags, Bool.false_eq_true, false_and, if_false, hjoined, beq_self_eq_true, Bool.not_true, hnode, hrole,
    ne_eq, not_true_eq_false, or_self, and_false]

theorem mapInstallBody_next (hdist : (leField d 0 2 + 65536 - T.r Reg.MGT_MAP_EPOCH_EPOCH) % 65536 = 1) : mapInstallBody c T d =
    (((T.setR Reg.MGT_MAP_EPOCH_EPOCH (leField d 0 2)).setR Reg.MGT_MAP_SUCC_SUCC (leField d 6 2)).setR Reg.MGT_MAP_EPOCH_ROLE_LIVE 1,
      some (mapEnd d .ok 0)) := by
  rw [mapInstallBody_plain hgood hplain hjoined hnode hrole, if_neg (by omega), if_pos hdist]

theorem mapInstallBody_repeat (hdist : (leField d 0 2 + 65536 - T.r Reg.MGT_MAP_EPOCH_EPOCH) % 65536 = 0)
    (hsucc : leField d 6 2 = T.r Reg.MGT_MAP_SUCC_SUCC) : mapInstallBody c T d = (T, some (mapEnd d .ok 0)) := by
  rw [mapInstallBody_plain hgood hplain hjoined hnode hrole, if_pos hdist, if_pos hsucc]

theorem mapInstallBody_behind (hdist : 32768 ≤ (leField d 0 2 + 65536 - T.r Reg.MGT_MAP_EPOCH_EPOCH) % 65536) :
    mapInstallBody c T d = (T, some (mapEnd d .stale 0)) := by
  rw [mapInstallBody_plain hgood hplain hjoined hnode hrole, if_neg (by omega), if_neg (by omega), if_neg (by omega)]

end

/-! ### ROLE_BEGIN, ROLE_ABORT and ROLE_COMMIT (R423 to R427) -/

/-- What ROLE_BEGIN does beside its own answer: the stand fence of a change that begins is due again, and the node quiesces where it can. -/
def roleBegun (T : State) (p : State × Option Done) : State × Option Done :=
  (roleFence (quiesceCheck (if p.1.changing && !T.changing then { p.1 with mgt := { p.1.mgt with drainFenced := false } } else p.1)), p.2)

theorem exec_roleBegin (c : Cmd) (s : State) : exec (.roleBegin c) s = runPlain s Op.ROLE_BEGIN c fun t d => roleBegun t (roleBeginBody c t d) := rfl

theorem roleBegun_under {p : State × Option Done} (hchange : T.changing = true) : roleBegun T p = (roleFence (quiesceCheck p.1), p.2) := by
  simp only [roleBegun, hchange, Bool.not_true, Bool.and_false, Bool.false_eq_true, if_false]

theorem roleBegun_first {p : State × Option Done} (hchange : T.changing = false) (hnow : p.1.changing = true) :
    roleBegun T p = (roleFence (quiesceCheck { p.1 with mgt := { p.1.mgt with drainFenced := false } }), p.2) := by
  simp only [roleBegun, hchange, hnow, Bool.not_false, Bool.and_self, if_true]

section
variable (hrange : bits c.arg0 0 3 ≤ 4)
include hrange

theorem roleBeginBody_notCache (hq : bit c.arg0 8 = true) (hrole : T.role ≠ 3) : roleBeginBody c T d = (T, some (Done.of .fenced Detail.DRAIN_PENDING)) := by
  rw [roleBeginBody, if_neg (by omega)]
  exact if_pos ⟨hq, hrole⟩

variable (hcache : bit c.arg0 8 = true → T.role = 3) (hfree : rollOrActivation T = false)
include hcache hfree

/-- A ROLE_BEGIN that nothing of the node is against goes by whether a change is under way. -/
theorem roleBeginBody_open : roleBeginBody c T d =
    if T.changing = true then
      if bits c.arg0 0 3 = T.r Reg.MGT_ROLE_ROLE_NEXT ∧ bit c.arg0 8 = (T.r Reg.MGT_ROLE_DRAIN_QUIESCE == 1) then (T, some Done.ok)
      else (T, some (Done.of .conflict Detail.ROLE_BUSY))
    else (((T.setR Reg.MGT_ROLE_ROLE_NEXT (bits c.arg0 0 3)).setR Reg.MGT_ROLE_CHANGING 1).setR Reg.MGT_ROLE_DRAIN_QUIESCE (if bit c.arg0 8 = true then 1 else 0), some Done.ok) := by
  have hquiesce : ¬ (bit c.arg0 8 = true ∧ T.role ≠ roleCache) := fun ⟨hq, hrole⟩ => hrole (hcache hq)
  simp only [roleBeginBody, Nat.not_lt.mpr hrange, if_false, hquiesce, hfree, Bool.false_eq_true, b2n]
  rfl

theorem roleBeginBody_repeat (hchange : T.changing = true) (hnext : bits c.arg0 0 3 = T.r Reg.MGT_ROLE_ROLE_NEXT)
    (hquiesce : bit c.arg0 8 = (T.r Reg.MGT_ROLE_DRAIN_QUIESCE == 1)) : roleBeginBody c T d = (T, some Done.ok) := by
  rw [roleBeginBody_open hrange hcache hfree, if_pos hchange, if_pos ⟨hnext, hquiesce⟩]

theorem roleBeginBody_begins (hchange : T.changing = false) : roleBeginBody c T d =
    (((T.setR Reg.MGT_ROLE_ROLE_NEXT (bits c.arg0 0 3)).setR Reg.MGT_ROLE_CHANGING 1).setR Reg.MGT_ROLE_DRAIN_QUIESCE (if bit c.arg0 8 = true then 1 else 0), some Done.ok) := by
  rw [roleBeginBody_open hrange hcache hfree, if_neg (Bool.eq_false_iff.mp hchange)]

end

theorem changing_begun (T : State) (n q : Nat) :
    (((T.setR Reg.MGT_ROLE_ROLE_NEXT n).setR Reg.MGT_ROLE_CHANGING 1).setR Reg.MGT_ROLE_DRAIN_QUIESCE q).changing = true := by
  rw [State.changing, State.setR_r_other (by decide), State.setR_r_same]
  rfl

/-- ROLE_BEGIN where no change is under way: the change is noted and its fence due. -/
theorem roleBegun_begins (hrange : bits c.arg0 0 3 ≤ 4) (hcache : bit c.arg0 8 = true → T.role = 3) (hfree : rollOrActivation T = false)
    (hchange : T.changing = false) : roleBegun T (roleBeginBody c T d) =
      (let U := ((T.setR Reg.MGT_ROLE_ROLE_NEXT (bits c.arg0 0 3)).setR Reg.MGT_ROLE_CHANGING 1).setR Reg.MGT_ROLE_DRAIN_QUIESCE
        (if bit c.arg0 8 = true then 1 else 0)
       (roleFence (quiesceCheck { U with mgt := { U.mgt with drainFenced := false } }), some Done.ok)) := by
  rw [roleBeginBody_begins hrange hcache hfree hchange]
  exact roleBegun_first hchange (changing_begun ..)

theorem roleAbortBody_none (hchange : T.changing = false) : roleAbortBody c T d = (T, some (Done.of .conflict Detail.ROLE_BUSY)) := by
  rw [roleAbortBody, if_neg fun h => Bool.eq_false_iff.mp hchange h.1, fail]

theorem roleAbortBody_aborts (hchange : T.changing = true) (hopen : T.r Reg.MGT_ROLE_DRAIN_QUIESCED = 0) :
    roleAbortBody c T d = (((T.setR Reg.MGT_ROLE_ROLE_NEXT T.role).setR Reg.MGT_ROLE_CHANGING 0).setR Reg.MGT_ROLE_DRAIN_QUIESCE 0, some Done.ok) := by
  rw [roleAbortBody, if_pos ⟨hchange, hopen⟩]

theorem roleCommitBody_none (hchange : (roleFence T).changing = false) : roleCommitBody c T d = (roleFence T, some Done.ok) := by
  simp only [roleCommitBody, hchange, Bool.not_false, if_true, answer]

theorem roleCommitBody_pending {i : Nat} (hi : i < 8) (hchange : (roleFence T).changing = true) (hopen : drainCond (roleFence T) i = false) :
    roleCommitBody c T d = (roleFence T, some (Done.of .conflict Detail.DRAIN_PENDING)) := by
  have hnot : (List.range 8).all (drainCond (roleFence T)) = false :=
    List.all_eq_false.mpr ⟨i, List.mem_range.mpr hi, Bool.eq_false_iff.mp hopen⟩
  simp only [roleCommitBody, hchange, Bool.not_true, Bool.false_eq_true, if_false, hnot, Bool.not_false, true_or, if_true, fail]

theorem roleCommitBody_commits (hchange : (roleFence T).changing = true) (hmet : ∀ i, i < 8 → drainCond (roleFence T) i = true)
    (himages : imagesReady (roleFence T) = true) (hnext : (roleFence T).r Reg.MGT_ROLE_ROLE_NEXT ≠ 0) :
    roleCommitBody c T d = ((((((roleFence T).setR Reg.MGT_ROLE_ROLE ((roleFence T).r Reg.MGT_ROLE_ROLE_NEXT)).setR Reg.MGT_ROLE_CHANGING 0).setR
      Reg.MGT_MAP_EPOCH_ROLE_LIVE 0).setR Reg.MGT_ROLE_DRAIN_QUIESCE 0).setR Reg.MGT_ROLE_DRAIN_QUIESCED 0, some Done.ok) := by
  have hall : (List.range 8).all (drainCond (roleFence T)) = true := List.all_eq_true.mpr fun i hi => hmet i (List.mem_range.mp hi)
  have hassigned : (roleFence T).r Reg.MGT_ROLE_ROLE_NEXT ≠ roleUnassigned := hnext
  simp only [roleCommitBody, hchange, hall, himages, Bool.not_true, Bool.false_eq_true, or_self, if_false, hassigned, answer]

end

/-! ### PROG_LOAD (R264) -/

/-- The columns that PROG_LOAD names, and the bytes of the image at its address. -/
def loadCols (c : Cmd) : List Nat := (List.range 8).filter fun i => bit c.arg1 i
def loadBytes (T : State) (c : Cmd) : Nat := 128 + (if imageHdrOk (T.rd c.arg0 128) = true then 16 * leField (T.rd c.arg0 128) 6 2 else 0)

section
variable {c : Cmd} {T : State} {d : List Byte} (hhead : imageSpaceOk T c.arg0 128 = true) (hwhole : imageSpaceOk T c.arg0 (loadBytes T c) = true)
  (hreach : xaSpace c.arg0 = 3 → T.dmaOk c.fn (xaAddr c.arg0) 128 = true ∧ T.dmaOk c.fn (xaAddr c.arg0) (loadBytes T c) = true)
include hhead hwhole hreach

/-- An image that can be read is checked against the columns, then against the memory and its own header. -/
theorem progLoadBody_readable : progLoadBody c T d =
    if (loadCols c).any fun k => (colStands k).any fun st => !standFenced T st then fail T .conflict 0
    else
      match (if xaSpace c.arg0 = 3 then none else memTrouble T c.arg0 (loadBytes T c)).orElse fun _ => memTrouble T (imageBase T) 0x200000 with
      | some dt => fail T .fenced dt
      | none =>
        match imageAt T c.arg0 with
        | none => fail T .fenced Detail.STD_IMAGE
        | some (im, body) =>
          if !imageRole T im then fail T .fenced Detail.STD_IMAGE
          else answer ((loadCols c).foldl (fun s k => loadColumn s im body k) T) Done.ok := by
  have hread {n : Nat} (h : xaSpace c.arg0 = 3 → T.dmaOk c.fn (xaAddr c.arg0) n = true) : (xaSpace c.arg0 == 3 && !T.dmaOk c.fn (xaAddr c.arg0) n) = false := by
    by_cases h3 : xaSpace c.arg0 = 3
    · rw [h h3]; simp
    · simp [h3]
  rw [loadBytes] at *
  simp only [progLoadBody, hhead, hwhole, hread fun h => (hreach h).1, hread fun h => (hreach h).2, Bool.not_true, Bool.false_eq_true, if_false, loadCols]
  rfl

theorem progLoadBody_unfenced (hopen : ∃ k ∈ loadCols c, ∃ st ∈ colStands k, standFenced T st = false) :
    progLoadBody c T d = (T, some (Done.of .conflict 0)) := by
  have hany : ((loadCols c).any fun k => (colStands k).any fun st => !standFenced T st) = true := by
    simpa only [List.any_eq_true, Bool.not_eq_true'] using hopen
  rw [progLoadBody_readable hhead hwhole hreach, if_pos hany, fail]

theorem progLoadBody_loads {im : Image} {body : List Byte} (hfenced : ∀ k ∈ loadCols c, ∀ st ∈ colStands k, standFenced T st = true)
    (hmem : xaSpace c.arg0 = 3 ∨ memTrouble T c.arg0 (loadBytes T c) = none) (hstore : memTrouble T (imageBase T) 0x200000 = none)
    (himage : imageAt T c.arg0 = some (im, body)) (hrole : imageRole T im = true) :
    progLoadBody c T d = ((loadCols c).foldl (fun s k => loadColumn s im body k) T, some Done.ok) := by
  have hnone : ((loadCols c).any fun k => (colStands k).any fun st => !standFenced T st) = false := by
    simpa only [List.any_eq_false, List.any_eq_true, not_exists, not_and, Bool.not_eq_true', Bool.not_eq_false] using hfenced
  have hsound : (if xaSpace c.arg0 = 3 then none else memTrouble T c.arg0 (loadBytes T c)) = none := by
    rcases hmem with h | h
    · rw [if_pos h]
    · rw [h, ite_self]
  rw [progLoadBody_readable hhead hwhole hreach, if_neg (Bool.eq_false_iff.mp hnone), hsound]
  simp only [Option.orElse_none, hstore, himage, hrole, Bool.not_true, Bool.false_eq_true, if_false, answer]

end

/-- Settles O43. -/
theorem mapsAndRolesChange : Obligations.MapsAndRolesChange := by
  intro s c
  refine ⟨fun hready => ⟨fun hbad => ?mapBad, fun hgood hjoin hnew => ⟨fun hrole => ?joinOther, fun hrole => ?joins⟩,
      fun hgood hplain hjoined hnode hrole => ⟨fun hdist => ?next, fun hdist hsucc => ?repeat_, fun hdist => ?behind⟩⟩,
    fun hready hrange => ⟨fun hchange hq hrole => ?notCache, fun hchange hcache hfree hnext hquiesce => ?again, fun hchange hcache hfree => ?begins⟩,
    fun hready => ⟨fun hchange => ?abortNone, fun hchange hopen => ?aborts⟩,
    fun hready => ⟨fun hchange => ?commitNone, fun i hi hchange hopen => ?pending, fun hchange hmet himages hnext => ?commits⟩,
    fun hready hhead hwhole hreach => ⟨fun hopen => ?unfenced, fun im body hfenced hmem hstore himage hrole => ?loads⟩⟩
  case mapBad => exact runCommand_ends hready (mapInstallBody_bad hbad)
  case joinOther => exact runCommand_ends hready (mapInstallBody_joinOther hgood hjoin hnew hrole)
  case joins => exact runCommand_ends hready (mapInstallBody_joins hgood hjoin hnew hrole)
  case next => exact runCommand_ends hready (mapInstallBody_next hgood hplain hjoined hnode hrole hdist)
  case repeat_ => exact runCommand_ends hready (mapInstallBody_repeat hgood hplain hjoined hnode hrole hdist hsucc)
  case behind => exact runCommand_ends hready (mapInstallBody_behind hgood hplain hjoined hnode hrole hdist)
  case notCache => exact runCommand_ends hready ((roleBegun_under hchange).trans (by rw [roleBeginBody_notCache hrange hq hrole]))
  case again => exact runCommand_ends hready ((roleBegun_under hchange).trans (by rw [roleBeginBody_repeat hrange hcache hfree hchange hnext hquiesce]))
  case begins => rw [exec_roleBegin]; exact runCommand_ends hready (roleBegun_begins hrange hcache hfree hchange)
  case abortNone => exact runCommand_ends hready (roleAbortBody_none hchange)
  case aborts => exact runCommand_ends hready (roleAbortBody_aborts hchange hopen)
  case commitNone => exact runCommand_ends hready (roleCommitBody_none hchange)
  case pending => exact runCommand_ends hready (roleCommitBody_pending hi hchange hopen)
  case commits => exact runCommand_ends hready (roleCommitBody_commits hchange hmet himages hnext)
  case unfenced => exact runCommand_ends hready (progLoadBody_unfenced hhead hwhole hreach hopen)
  case loads =>
    have hbody := progLoadBody_loads (d := cmdDesc s c) hhead hwhole hreach hfenced hmem hstore himage hrole
    simp only [loadColumn] at hbody
    rw [exec_progLoad]
    exact runCommand_ends hready hbody

end Sys2Proof.Machine
end

section
/-! PROOFS. Rolls, self-tests and fences (R428, R440 to R448) and the management firmware (R430 to R432, R472 to R474). -/

namespace Sys2Proof.Machine

theorem exec_columnDrainExpiry (s : State) : exec .columnDrainExpiry s = goesOn s (drainExpiry s) := rfl
theorem exec_selftestEnd_column (pass : Nat) (s : State) : exec (.selftestEnd false pass) s = goesOn s (columnTested s pass) := rfl
theorem exec_selftestEnd_lane (pass : Nat) (s : State) : exec (.selftestEnd true pass) s = goesOn s (laneTested s (bit pass 0)) := rfl
theorem exec_stackFault {k : Nat} (hk : k < 8) (s : State) : exec (.stackFault k) s = goesOn s (quiesceStack s k) := withUnit_there (decide_eq_true hk)
theorem exec_mgtCoreReady (s : State) : exec .mgtCoreReady s = goesOn s (coreReady s) := rfl
theorem exec_fwTrialTimeout (s : State) : exec .fwTrialTimeout s = goesOn s (trialTimeout s) := rfl
theorem exec_mgtWatchdog (s : State) : exec .mgtWatchdog s = goesOn s (coreWatchdog s) := rfl

/-! ### Drains (R428, R448) -/

section
variable {s : State} (htrans : s.mgt.trans = none)
include htrans

/-- With a roll alone under way only its column can have drained. -/
theorem drainCheck_roll {r : Roll} (htest : s.mgt.colTest = none) (hroll : s.mgt.roll = some r) :
    drainCheck s = if drained s r.col then rollLoad s r else s := by
  simp only [drainCheck, htrans, htest, hroll]

/-- With a column test alone under way only its column can have drained. -/
theorem drainCheck_test {t : ColTest} (htest : s.mgt.colTest = some t) (hnew : t.running = false) (hroll : s.mgt.roll = none) :
    drainCheck s = if drained s t.col then testBegin s t else s := by
  have hdecks (U : State) (l : List Nat) : (l.foldl (fun s st => s.setStand st { s.stand st with deck := [] }) U).mgt = U.mgt := by
    induction l generalizing U with
    | nil => rfl
    | cons st l ih => rw [List.foldl_cons, ih, State.setStand_mgt]
  have hbegun : (testBegin s t).mgt.roll = none := by
    simp only [testBegin, hdecks]
    exact hroll
  simp only [drainCheck, htrans, htest, hnew, Bool.not_false, true_and]
  by_cases hdrained : drained s t.col = true
  · simp only [if_pos hdrained, hbegun]
  · simp only [if_neg hdrained, hroll]

end

section
variable {s : State} {r : Roll} (hroll : s.mgt.roll = some r) (htrans : s.mgt.trans = none) (htest : s.mgt.colTest = none)
include hroll htrans htest

theorem drainExpiry_due (htime : r.deadline ≤ s.now) : drainExpiry s = drainCheck (clearStands s (colStands r.col)) := by
  simp only [drainExpiry, hroll, htrans, htest, htime, decide_true, if_true, List.append_nil, List.foldl_cons, List.foldl_nil]

theorem drainExpiry_early (htime : s.now < r.deadline) (hlive : drained s r.col = false) : drainExpiry s = s := by
  simp only [drainExpiry, hroll, htrans, htest, Nat.not_le.mpr htime, decide_false, Bool.false_eq_true, if_false, List.append_nil, List.foldl_nil,
    drainCheck_roll htrans htest hroll, hlive]

end

/-! ### ROLL_COLUMN (R428) -/

section
variable {c : Cmd} {T : State} {d : List Byte}

/-- The roll of a ROLL_COLUMN command, and the state that shows it running. -/
def rollOf (T : State) (c : Cmd) : Roll := ⟨c.arg0, c.arg1, T.now + c.arg2 * 1000, c⟩
def rollNoted (T : State) (c : Cmd) : State :=
  (({ T with mgt := { T.mgt with roll := some (rollOf T c) } } : State).setR Reg.MGT_ROLL_STATUS_RUNNING 1).setR Reg.MGT_ROLL_STATUS_COLUMN c.arg0

section
variable (hdrain : 100 ≤ c.arg2) (hcol : c.arg0 < T.r Reg.MGT_FAMILY_PARAM_STACKS)
include hdrain hcol

theorem rollBody_busy (hbusy : rollOrActivation T = true ∨ T.changing = true) : rollBody c T d = (T, some (Done.of .conflict Detail.ROLE_BUSY)) := by
  rw [rollBody, if_neg (Nat.not_lt.mpr hdrain), if_neg (Nat.not_le.mpr hcol), if_pos hbusy, fail]

theorem rollBody_begins (hfree : rollOrActivation T = false) (hsame : T.changing = false) (htrans : T.mgt.trans = none) (htest : T.mgt.colTest = none) :
    rollBody c T d = (if drained (rollNoted T c) c.arg0 then rollLoad (rollNoted T c) (rollOf T c) else rollNoted T c, none) := by
  have hidle : ¬ (rollOrActivation T = true ∨ T.changing = true) := by rw [hfree, hsame]; decide
  have hcheck := drainCheck_roll (s := rollNoted T c) (r := rollOf T c)
    (by simp only [rollNoted, State.setR_mgt, htrans]) (by simp only [rollNoted, State.setR_mgt, htest]) (by simp only [rollNoted, State.setR_mgt])
  rw [rollBody, if_neg (Nat.not_lt.mpr hdrain), if_neg (Nat.not_le.mpr hcol), if_neg hidle]
  exact congrArg (·, none) hcheck

end

/-! ### SELFTEST (R448) -/

/-- The column test of a SELFTEST command, and the state that shows it. -/
def testOf (T : State) (c : Cmd) : ColTest := ⟨bits c.arg0 4 3, false, T.now + 1000000000, c⟩
def testNoted (T : State) (c : Cmd) : State :=
  (({ T with mgt := { T.mgt with colTest := some (testOf T c) } } : State).setR Reg.MGT_SELFTEST_COL_RUNNING 1).setR Reg.MGT_SELFTEST_COL (bits c.arg0 4 3)

theorem selftestBody_column (hcolumn : bit c.arg0 0 = false) (hcol : bits c.arg0 4 3 < T.r Reg.MGT_FAMILY_PARAM_STACKS)
    (htest : T.mgt.colTest = none) (hfree : rollOrActivation T = false) (hsame : T.changing = false) (htrans : T.mgt.trans = none)
    (hroll : T.mgt.roll = none) : selftestBody c T d =
      (if drained (testNoted T c) (bits c.arg0 4 3) then testBegin (testNoted T c) (testOf T c) else testNoted T c, none) := by
  have hidle : ¬ (rollOrActivation T = true ∨ T.changing = true) := by rw [hfree, hsame]; decide
  have hcheck := drainCheck_test (s := testNoted T c) (t := testOf T c)
    (by simp only [testNoted, State.setR_mgt, htrans]) (by simp only [testNoted, State.setR_mgt]) rfl (by simp only [testNoted, State.setR_mgt, hroll])
  simp only [selftestBody, hcolumn, Bool.not_false, if_true, Nat.not_le.mpr hcol, if_false, htest, Option.isSome_none, Bool.false_eq_true, if_neg hidle]
  exact congrArg (·, none) hcheck

section
variable (hlane : bit c.arg0 0 = true) (hport : bits c.arg0 4 3 < T.r Reg.MGT_FAMILY_PARAM_ETH_PORTS) (hl : bits c.arg0 8 4 < 9)
  (hcal : T.mgt.laneCal = none)
include hlane hport hl hcal

theorem selftestBody_spareUsed (hspare : spareUsed T (bits c.arg0 4 3) = true) : selftestBody c T d = (T, some (Done.of .fenced Detail.FLT_LANE)) := by
  simp only [selftestBody, hlane, Bool.not_true, Bool.false_eq_true, if_false, Nat.not_le.mpr hport, Nat.not_le.mpr hl, or_self, hcal,
    Option.isSome_none, hspare, if_true, fail]

theorem selftestBody_lane (hspare : spareUsed T (bits c.arg0 4 3) = false) : selftestBody c T d =
    (let W : State := { walkTo T (bits c.arg0 4 3) (bits c.arg0 8 4) with
      mgt := { T.mgt with laneCal := some ⟨bits c.arg0 4 3, bits c.arg0 8 4, T.now, c⟩ } }
     ((W.setR Reg.MGT_SELFTEST_LANE_RUNNING 1).setR Reg.MGT_SELFTEST_PORT (bits c.arg0 4 3)).setR Reg.MGT_SELFTEST_LANE (bits c.arg0 8 4), none) := by
  simp only [selftestBody, hlane, Bool.not_true, Bool.false_eq_true, if_false, Nat.not_le.mpr hport, Nat.not_le.mpr hl, or_self, hcal,
    Option.isSome_none, hspare]

end

theorem columnTested_ends {s : State} {t : ColTest} (htest : s.mgt.colTest = some t) (hrun : t.running = true) (htime : t.deadline ≤ s.now) (pass : Nat) :
    columnTested s pass =
      (let U := (List.range 8).foldl (fun U k => standTested U (8 * t.col + k) (bit pass k)) s
       completeCmd
        (((giveColumn { U with mgt := { U.mgt with colTest := none } } t.col).setR Reg.MGT_SELFTEST_COL_RUNNING 0).wrap Reg.MGT_SELFTEST_COMPLETED 1)
        Op.SELFTEST t.cmd (if pass % 256 = 255 then Done.ok else Done.of .fenced Detail.FLT_SELFTEST)) := by
  simp only [columnTested, htest, hrun, Bool.not_true, Bool.false_eq_true, false_or, Nat.not_lt.mpr htime, if_false, testDone, beq_iff_eq]

theorem laneTested_ends {s : State} {t : LaneCal} (hcal : s.mgt.laneCal = some t) (htime : t.since + 20000000 ≤ s.now) (pass : Bool) :
    laneTested s pass =
      (let k := laneNo t.port t.lane
       let U : State := { s with mgt := { s.mgt with laneCal := none, lanePass := s.mgt.lanePass.filter (· ≠ k) ++ (if pass then [k] else []) } }
       completeCmd
        (((laneCalibrated (testRecord U k pass) t.port t.lane pass).setR Reg.MGT_SELFTEST_LANE_RUNNING 0).wrap Reg.MGT_SELFTEST_COMPLETED 1)
        Op.SELFTEST t.cmd (if pass then Done.ok else Done.of .fenced Detail.FLT_SELFTEST)) := by
  simp only [laneTested, hcal, Nat.not_lt.mpr htime, if_false, testDone]

/-! ### STAND_UNFENCE, LANE_RESTORE and stacks (R440, R443, R444) -/

theorem standUnfenceBody_absent (h : T.r Reg.MGT_FAMILY_PARAM_STANDS ≤ c.arg0) : standUnfenceBody c T d = (T, some (Done.of .fenced 0)) := by
  simp only [standUnfenceBody, h, if_true, fail]

section
variable (hstand : c.arg0 < T.r Reg.MGT_FAMILY_PARAM_STANDS) (htrip : T.mgt.thermalTrip = false) (hgate : (gatedMask T).getLsbD c.arg0 = false)
  (htest : underTest T c.arg0 = false)
include hstand htrip hgate htest

theorem standUnfenceBody_lasting (hlast : T.mgt.lasting.getLsbD c.arg0 = true) : standUnfenceBody c T d = (T, some (Done.of .conflict Detail.FLT_SELFTEST)) := by
  simp only [standUnfenceBody, Nat.not_le.mpr hstand, htrip, hgate, htest, hlast, Bool.false_eq_true, if_false, if_true, fail]

theorem standUnfenceBody_unfences (hlast : T.mgt.lasting.getLsbD c.arg0 = false) : standUnfenceBody c T d =
    ({ T with mgt := { T.mgt with notUnfenced := T.mgt.notUnfenced &&& ~~~(1#64 <<< c.arg0) } }, some Done.ok) := by
  simp only [standUnfenceBody, Nat.not_le.mpr hstand, htrip, hgate, htest, hlast, Bool.false_eq_true, if_false, answer]

end

section
variable (hport : bits c.arg0 0 3 < T.r Reg.MGT_FAMILY_PARAM_ETH_PORTS) (hl : bits c.arg0 8 4 < 9) (hretired : retiredLane T (bits c.arg0 0 3) = bits c.arg0 8 4)
include hport hl hretired

theorem laneRestoreBody_failed (hpass : T.mgt.lanePass.contains (laneNo (bits c.arg0 0 3) (bits c.arg0 8 4)) = false) :
    laneRestoreBody c T d = (T, some (Done.of .conflict Detail.FLT_SELFTEST)) := by
  simp only [laneRestoreBody, Nat.not_le.mpr hport, Nat.not_le.mpr hl, or_self, if_false, hretired, ne_eq, not_true_eq_false, hpass, Bool.not_false,
    if_true, fail]

theorem laneRestoreBody_restores (hpass : T.mgt.lanePass.contains (laneNo (bits c.arg0 0 3) (bits c.arg0 8 4)) = true) :
    laneRestoreBody c T d =
      ((({ T with cwt := { T.cwt with spareAt := amSet (bits c.arg0 0 3) T.now T.cwt.spareAt } } : State).setR
          (Reg.MGT_LANE_STATE_RETIRED.at 4 (bits c.arg0 0 3)) 0xF).setR (Reg.MGT_LANE_STATE_SPARE_USED.at 4 (bits c.arg0 0 3)) 0, some Done.ok) := by
  simp only [laneRestoreBody, Nat.not_le.mpr hport, Nat.not_le.mpr hl, or_self, if_false, hretired, ne_eq, not_true_eq_false, hpass, Bool.not_true,
    Bool.false_eq_true, answer]

end

theorem stackQuiesceBody_quiesces (h : c.arg0 < T.r Reg.MGT_FAMILY_PARAM_STACKS) : stackQuiesceBody c T d = (quiesceStack T c.arg0, some Done.ok) := by
  simp only [stackQuiesceBody, Nat.not_le.mpr h, if_false, answer]

end

/-- Settles O44. -/
theorem rollsTestsAndFences : Obligations.RollsTestsAndFences := by
  intro s c
  refine ⟨fun hready hdrain hcol => ⟨fun hbusy => ?rollBusy, fun hfree hsame htrans htest => ?roll⟩,
    fun r hroll htrans htest => ⟨fun htime => ?drainDue, fun htime hlive => ?drainEarly⟩,
    fun hready => ⟨fun hcolumn hcol htest hfree hsame htrans hroll => ?column, fun hlane hport hl hcal => ⟨fun hspare => ?spareUsed, fun hspare => ?lane⟩⟩,
    fun t pass htest hrun htime => ?columnEnd, fun t pass hcal htime => ?laneEnd,
    fun hready => ⟨fun habsent => ?standAbsent, fun hstand htrip hgate htest => ⟨fun hlast => ?lasting, fun hlast => ?unfences⟩⟩,
    fun hready hport hl hretired => ⟨fun hpass => ?restoreFailed, fun hpass => ?restores⟩, fun hready hstack => ?quiesce, fun k hk => exec_stackFault hk s⟩
  case rollBusy => exact runCommand_ends hready (rollBody_busy hdrain hcol hbusy)
  case roll =>
    have hbody := runCommand_goesOn hready (rollBody_begins (d := cmdDesc s c) hdrain hcol hfree hsame htrans htest)
    exact ⟨fun hlive => hbody.trans (congrArg (goesOn s) (if_neg (Bool.eq_false_iff.mp hlive))), fun hgone => hbody.trans (congrArg (goesOn s) (if_pos hgone))⟩
  case drainDue => rw [exec_columnDrainExpiry, drainExpiry_due hroll htrans htest htime]
  case drainEarly => rw [exec_columnDrainExpiry, drainExpiry_early hroll htrans htest htime hlive]
  case column =>
    have hbody := runCommand_goesOn hready (selftestBody_column (d := cmdDesc s c) hcolumn hcol htest hfree hsame htrans hroll)
    exact ⟨fun hlive => hbody.trans (congrArg (goesOn s) (if_neg (Bool.eq_false_iff.mp hlive))), fun hgone => hbody.trans (congrArg (goesOn s) (if_pos hgone))⟩
  case spareUsed => exact runCommand_ends hready (selftestBody_spareUsed hlane hport hl hcal hspare)
  case lane => exact runCommand_goesOn hready (selftestBody_lane hlane hport hl hcal hspare)
  case columnEnd => rw [exec_selftestEnd_column, columnTested_ends htest hrun htime]
  case laneEnd => rw [exec_selftestEnd_lane, laneTested_ends hcal htime]
  case standAbsent => exact runCommand_ends hready (standUnfenceBody_absent habsent)
  case lasting => exact runCommand_ends hready (standUnfenceBody_lasting hstand htrip hgate htest hlast)
  case unfences => exact runCommand_ends hready (standUnfenceBody_unfences hstand htrip hgate htest hlast)
  case restoreFailed => exact runCommand_ends hready (laneRestoreBody_failed hport hl hretired hpass)
  case restores => exact runCommand_ends hready (laneRestoreBody_restores hport hl hretired hpass)
  case quiesce => exact runCommand_ends hready (stackQuiesceBody_quiesces hstack)

/-! ### Firmware banks (R430 to R432, R472 to R474) -/

section
variable {c : Cmd} {T : State} {d : List Byte}

/-- The image that FW_STAGE brings, whether it is staged already, and whether the boot ROM accepts it. -/
def stagedImage (T : State) (c : Cmd) : List Byte := T.rd (hostXA c.arg0) c.arg1
def AlreadyStaged (T : State) (c : Cmd) : Prop :=
  T.mgt.staged = some (otherBank T) ∧ (T.mgt.banks[otherBank T]?).any (fun b => b.image == some (stagedImage T c)) = true
def ImageFits (T : State) (c : Cmd) : Prop := 8192 ≤ c.arg1 ∧ c.arg1 ≤ 0x2000000 ∧ fwOk T (stagedImage T c) = true

section
variable (hreach : T.dmaOk c.fn c.arg0 c.arg1 = true)
include hreach

theorem fwStageBody_again (hheld : AlreadyStaged T c) : fwStageBody c T d = (T, some Done.ok) := by
  simp only [fwStageBody, hreach, Bool.not_true, Bool.false_eq_true, if_false]
  exact if_pos hheld

theorem fwStageBody_new (hnew : ¬ AlreadyStaged T c) : fwStageBody c T d =
    if 8192 ≤ c.arg1 ∧ c.arg1 ≤ 0x2000000 ∧ fwOk T (stagedImage T c) = true then
      (setBank T (otherBank T) ⟨some (stagedImage T c), leField (stagedImage T c) 4 2⟩ (some (otherBank T)), some Done.ok)
    else (setBank T (otherBank T) ⟨none, 0⟩ none, some (Done.of .fenced Detail.FW_IMAGE)) := by
  simp only [fwStageBody, hreach, Bool.not_true, Bool.false_eq_true, if_false]
  exact if_neg hnew

theorem fwStageBody_stages (hnew : ¬ AlreadyStaged T c) (hfits : ImageFits T c) : fwStageBody c T d =
    (setBank T (otherBank T) ⟨some (stagedImage T c), leField (stagedImage T c) 4 2⟩ (some (otherBank T)), some Done.ok) :=
  (fwStageBody_new hreach hnew).trans (if_pos hfits)

theorem fwStageBody_refuses (hnew : ¬ AlreadyStaged T c) (hfits : ¬ ImageFits T c) :
    fwStageBody c T d = (setBank T (otherBank T) ⟨none, 0⟩ none, some (Done.of .fenced Detail.FW_IMAGE)) :=
  (fwStageBody_new hreach hnew).trans (if_neg hfits)

end

theorem fwActivateBody_busy (hbusy : T.changing = true ∨ rollOrActivation T = true) : fwActivateBody c T d = (T, some (Done.of .conflict Detail.ROLE_BUSY)) := by
  rw [fwActivateBody, if_pos hbusy, fail]

section
variable (hsame : T.changing = false) (hfree : rollOrActivation T = false)
include hsame hfree

theorem fwActivateBody_idle : fwActivateBody c T d =
    match T.mgt.staged with
    | none => if T.r Reg.MGT_FW_STATUS_TRIAL = 1 then (T, some Done.ok) else (T, some (Done.of .conflict Detail.ROLE_BUSY))
    | some k => (fwRegs (coreRestart { T with mgt := { T.mgt with staged := none, activating := some c, activateStart := T.now } } k true), none) := by
  rw [fwActivateBody, if_neg (by rw [hsame, hfree]; decide)]
  rfl

theorem fwActivateBody_trial (hstaged : T.mgt.staged = none) (htrial : T.r Reg.MGT_FW_STATUS_TRIAL = 1) : fwActivateBody c T d = (T, some Done.ok) := by
  simp only [fwActivateBody_idle hsame hfree, hstaged, htrial, if_true]

theorem fwActivateBody_nothing (hstaged : T.mgt.staged = none) (htrial : T.r Reg.MGT_FW_STATUS_TRIAL ≠ 1) :
    fwActivateBody c T d = (T, some (Done.of .conflict Detail.ROLE_BUSY)) := by
  simp only [fwActivateBody_idle hsame hfree, hstaged, htrial, if_false]

theorem fwActivateBody_restarts {k : Nat} (hstaged : T.mgt.staged = some k) : fwActivateBody c T d =
    (fwRegs ((({ T with mgt := { T.mgt with staged := none, activating := some c, activateStart := T.now, coreUp := false } } : State).setR
      Reg.MGT_FW_STATUS_ACTIVE_BANK k).setR Reg.MGT_FW_STATUS_TRIAL 1), none) := by
  simp only [fwActivateBody_idle hsame hfree, hstaged, coreRestart, b2n, if_true]

end

theorem fwConfirmBody_none (htrial : T.r Reg.MGT_FW_STATUS_TRIAL = 0) : fwConfirmBody c T d = (T, some Done.ok) := by
  rw [fwConfirmBody, if_pos htrial, answer]

theorem fwConfirmBody_confirms {b : FwBank} {l : List Byte} (htrial : T.r Reg.MGT_FW_STATUS_TRIAL ≠ 0)
    (hbank : T.mgt.banks[activeBank T]? = some b) (hbytes : b.bytes = some l) : fwConfirmBody c T d =
      (({ T with mgt := { T.mgt with minSvn := max T.mgt.minSvn (leField l 2 2) } } : State).setR Reg.MGT_FW_STATUS_TRIAL 0, some Done.ok) := by
  simp only [fwConfirmBody, htrial, if_false, hbank, hbytes, Option.getD_some, answer]

end

section
variable {s : State}

theorem coreStarted_quiet (h : s.mgt.activating = none) : coreStarted s = { s with mgt := { s.mgt with coreUp := true } } := by
  simp only [coreStarted, h]

theorem coreStarted_activates {c : Cmd} (h : s.mgt.activating = some c) :
    coreStarted s = completeCmd { s with mgt := { s.mgt with coreUp := true, activating := none } } Op.FW_ACTIVATE c Done.ok := by
  simp only [coreStarted, h]

section
variable (hdown : s.mgt.coreUp = false) (hready : s.r Reg.MGT_BOOT_STATUS_READY ≠ 0) (hrec : s.r Reg.MGT_BOOT_STATUS_RECOVERY ≠ 1)
include hdown hready hrec

theorem coreReady_boots : coreReady s =
    if bankOk s (activeBank s) then coreStarted s
    else if s.r Reg.MGT_FW_STATUS_TRIAL = 1 then s
    else if bankOk s (otherBank s) then coreStarted (s.setR Reg.MGT_FW_STATUS_ACTIVE_BANK (otherBank s)) else romRecovery s := by
  simp only [coreReady, hdown, hready, hrec, Bool.false_eq_true, or_self, if_false]

theorem coreReady_accepted (hbank : bankOk s (activeBank s) = true) : coreReady s = coreStarted s := by
  rw [coreReady_boots hdown hready hrec, if_pos hbank]

variable (hbank : bankOk s (activeBank s) = false)
include hbank

theorem coreReady_trial (htrial : s.r Reg.MGT_FW_STATUS_TRIAL = 1) : coreReady s = s := by
  simp only [coreReady_boots hdown hready hrec, hbank, htrial, Bool.false_eq_true, if_false, if_true]

theorem coreReady_other (htrial : s.r Reg.MGT_FW_STATUS_TRIAL ≠ 1) (hother : bankOk s (otherBank s) = true) :
    coreReady s = coreStarted (s.setR Reg.MGT_FW_STATUS_ACTIVE_BANK (otherBank s)) := by
  simp only [coreReady_boots hdown hready hrec, hbank, htrial, hother, Bool.false_eq_true, if_false, if_true]

theorem coreReady_recovery (htrial : s.r Reg.MGT_FW_STATUS_TRIAL ≠ 1) (hother : bankOk s (otherBank s) = false) : coreReady s = romRecovery s := by
  simp only [coreReady_boots hdown hready hrec, hbank, htrial, hother, Bool.false_eq_true, if_false]

end

theorem trialTimeout_due {c : Cmd} (hdown : s.mgt.coreUp = false) (hact : s.mgt.activating = some c) (htime : s.mgt.activateStart + 2000000000 ≤ s.now) :
    trialTimeout s = completeCmd (fwFallBack { s with mgt := { s.mgt with activating := none } }) Op.FW_ACTIVATE c (Done.of .fenced Detail.FW_FALLBACK) := by
  simp only [trialTimeout, hact, hdown, Nat.not_lt.mpr htime, Bool.false_eq_true, or_self, if_false]

theorem coreWatchdog_trial (hup : s.mgt.coreUp = true) (htrial : s.r Reg.MGT_FW_STATUS_TRIAL = 1) : coreWatchdog s = fwFallBack s := by
  simp only [coreWatchdog, hup, htrial, Bool.not_true, Bool.false_eq_true, if_false, if_true]

theorem coreWatchdog_plain (hup : s.mgt.coreUp = true) (htrial : s.r Reg.MGT_FW_STATUS_TRIAL ≠ 1) :
    coreWatchdog s = coreRestart s (activeBank s) false := by
  simp only [coreWatchdog, hup, htrial, Bool.not_true, Bool.false_eq_true, if_false]

end

/-- Settles O45. -/
theorem firmwareBanksChange : Obligations.FirmwareBanksChange := by
  intro s c
  refine ⟨fun hready hreach => ⟨fun hheld => ?again, fun hnew hfits => ?stages, fun hnew hfits => ?refuses⟩,
    fun hready => ⟨fun hbusy => ?busy, fun hsame hfree => ⟨fun hstaged htrial => ?trial, fun hstaged htrial => ?nothing, fun k hstaged => ?restarts⟩⟩,
    fun hready => ⟨fun htrial => ?noTrial, fun b l htrial hbank hbytes => ?confirms⟩,
    fun hdown hboot => ⟨fun hrec => ⟨fun hbank => ⟨fun hact => ?runs, fun hact => ?activates⟩,
      fun hbank => ⟨fun htrial => ?refusedTrial, fun htrial hother hact => ?other, fun htrial hother => ?recovery⟩⟩, fun hact htime => ?timeout⟩,
    fun hup => ⟨fun htrial => ?dogTrial, fun htrial => ?dogPlain⟩⟩
  case again => exact runCommand_ends hready (fwStageBody_again hreach hheld)
  case stages => exact runCommand_ends hready (fwStageBody_stages hreach hnew hfits)
  case refuses => exact runCommand_ends hready (fwStageBody_refuses hreach hnew hfits)
  case busy => exact runCommand_ends hready (fwActivateBody_busy hbusy)
  case trial => exact runCommand_ends hready (fwActivateBody_trial hsame hfree hstaged htrial)
  case nothing => exact runCommand_ends hready (fwActivateBody_nothing hsame hfree hstaged htrial)
  case restarts => exact runCommand_goesOn hready (fwActivateBody_restarts hsame hfree hstaged)
  case noTrial => exact runCommand_ends hready (fwConfirmBody_none htrial)
  case confirms => exact runCommand_ends hready (fwConfirmBody_confirms htrial hbank hbytes)
  case runs => rw [exec_mgtCoreReady, coreReady_accepted hdown hboot hrec hbank, coreStarted_quiet hact]
  case activates => rw [exec_mgtCoreReady, coreReady_accepted hdown hboot hrec hbank, coreStarted_activates hact]; rfl
  case refusedTrial => rw [exec_mgtCoreReady, coreReady_trial hdown hboot hrec hbank htrial]
  case other => rw [exec_mgtCoreReady, coreReady_other hdown hboot hrec hbank htrial hother, coreStarted_quiet (by rw [State.setR_mgt, hact])]
  case recovery => rw [exec_mgtCoreReady, coreReady_recovery hdown hboot hrec hbank htrial hother]
  case timeout => rw [exec_fwTrialTimeout, trialTimeout_due hdown hact htime]; rfl
  case dogTrial => rw [exec_mgtWatchdog, coreWatchdog_trial hup htrial]; rfl
  case dogPlain => rw [exec_mgtWatchdog, coreWatchdog_plain hup htrial]; rfl

end Sys2Proof.Machine
end

section
/-! PROOFS. The cache pool: deltas and degradation (R383, R384), unit locks (R385), rebuilds and repairs (R387 to R389), SEAL (R218 to R222) and the access sweep (R391, R392). -/

namespace Sys2Proof.Machine

theorem exec_deltaAcked (n : Nat) (s : State) : exec (.deltaAcked n) s = goesOn s (deltaAcked s n) := rfl
theorem exec_degradeTimeout (q : Bool) (s : State) : exec (.degradeTimeout q) s = goesOn s (degrade s q) := rfl
theorem exec_unitLockExpiry (g : Nat) (s : State) : exec (.unitLockExpiry g) s = goesOn s (unitLockExpiry s g) := rfl
theorem exec_rebuildUnitDone (u : Nat) (s : State) : exec (.rebuildUnitDone u) s = goesOn s (unitDone s u) := rfl
theorem exec_accessSweep (s : State) : exec .accessSweep s = goesOn s (accessSweep s) := rfl

section
variable {s : State} {node : Nat} (hsrc : s.role ≠ 4 ∨ node = s.nodeId)
include hsrc

theorem exec_unitLock (u : Nat) : exec (.unitLock node u) s = goesOn s (unitLockArrives s node u) := congrArg (goesOn s) (fromNode_taken hsrc)
theorem exec_unitUnlock (u g : Nat) (r : Bool) : exec (.unitUnlock node u g r) s = goesOn s (unitUnlockArrives s node u g r) :=
  congrArg (goesOn s) (fromNode_taken hsrc)
theorem exec_unitLockAnswer (u : Nat) (a : UnitAns) : exec (.unitLockAnswer node u a) s = goesOn s (unitAnswer s node u a) := by
  have htaken : (if a = .lost then unitAnswer s node u a else fromNode s node (unitAnswer s node u a)) = unitAnswer s node u a := by
    rw [fromNode_taken hsrc, ite_self]
  exact congrArg (goesOn s) htaken

end

/-! ### Deltas (R383) -/

section
variable {s : State} {n : Nat}

theorem deltaAcked_unknown (h : amHas n s.cp.deltas = false) : deltaAcked s n = s := by simp only [deltaAcked, h, Bool.false_eq_true, if_false]

theorem deltaAcked_known (h : amHas n s.cp.deltas = true) :
    deltaAcked s n = deltasSettled { s with cp := { s.cp with deltas := amErase n s.cp.deltas } } := by simp only [deltaAcked, h, if_true]

/-- With nothing that waits for deltas there is nothing to go on with. -/
theorem deltasSettled_idle (hqps : s.cwt.qps = []) (hmcasts : s.rm.mcasts = []) (hwaits : s.cp.waits = []) (hlocks : s.cp.locks = [])
    (hjobs : s.cp.jobs = []) (hsame : s.changing = false) : deltasSettled s = s := by
  have hacks : settleAcks s = s := by rw [settleAcks, hqps]; rfl
  have hroot : rootSettle s = s := by rw [rootSettle, hmcasts]; rfl
  have hcasts : mcastSettle s = s := by rw [mcastSettle, hroot, hmcasts]; rfl
  have hwaiting : settleWaits s = s := by rw [settleWaits, hwaits]; rfl
  have hreturns : returnLocks s = s := by rw [returnLocks, hlocks]; rfl
  have hbegins : unitsBegin s = s := by rw [unitsBegin, hjobs]; rfl
  have hquiesces : quiesceCheck s = s := if_neg fun h => Bool.eq_false_iff.mp hsame h.1
  rw [deltasSettled, hacks, hcasts, hwaiting, hreturns, hbegins, hquiesces]

theorem settleWaits_one {o r : Nat} {c : Cmd} (hwaits : s.cp.waits = [([n], .command o c r)]) (hgone : amHas n s.cp.deltas = false) :
    settleWaits s = completeCmd { s with cp := { s.cp with waits := [] } } o c { Done.ok with result := r } := by
  simp only [settleWaits, hwaits, List.foldl_cons, List.foldl_nil, List.any_cons, List.any_nil, hgone, Bool.or_self, Bool.false_eq_true, if_false,
    afterDeltas, List.filter_cons, List.filter_nil, ne_eq, not_true_eq_false, decide_false]

/-! ### Degradation (R384) -/

theorem degrade_nothing (q : Bool) (h : dataMember s = false ∨ s.r Reg.TIR_CP_GROUP_DEGRADED = 1) : degrade s q = s := by
  have hstop : (!dataMember s) = true ∨ s.r Reg.TIR_CP_GROUP_DEGRADED = 1 := by simpa only [Bool.not_eq_true'] using h
  exact if_pos (hstop.imp_right .inl)

/-- The deltas disregarded, and their units dirty. -/
def deltasDropped (s : State) : State :=
  { s with cp := { s.cp with deltas := [], dirty := (s.cp.dirty ++ s.cp.deltas.flatMap (fun (d : Nat × Delta) => d.2.units)).eraseDups } }

theorem degrade_failed (hmember : dataMember s = true) (hsound : s.r Reg.TIR_CP_GROUP_DEGRADED ≠ 1) :
    degrade s true = deltasSettled (scbNote ((deltasDropped s).setR Reg.TIR_CP_GROUP_DEGRADED 1)
      (faultRec Src.tier Act.recorded 5 (s.r Reg.TIR_CP_GROUP_D_IDX) 0 0)) := by
  have hgo : ¬ ((!dataMember s) = true ∨ s.r Reg.TIR_CP_GROUP_DEGRADED = 1
      ∨ (!(s.cp.deltas.any (fun d => decide (d.2.sent + max 1 (s.r Reg.TIR_CP_GROUP_DEGRADE_MS) * 1000000 ≤ s.now)) || true)) = true) := by
    rw [hmember, Bool.or_true]
    rintro (h | h | h)
    · exact nomatch h
    · exact hsound h
    · exact nomatch h
  exact if_neg hgo

end

/-! ### Unit locks (R385, R425) -/

section
variable {s : State} {node u g : Nat}

/-- The count of windows at the cap is a register alone. -/
theorem cappedWindow_cp (b : Bool) (t : State) (r : Fld) : (if b = true then t.wrap r 1 else t).cp = t.cp := by
  cases b <;> rfl

theorem chargeClass_locks (s : State) (k n : Nat) : (chargeClass s k n).cp.locks = s.cp.locks := by
  unfold chargeClass
  split
  · rfl
  · rw [cappedWindow_cp]

theorem chargeClass_clean (s : State) (k n : Nat) : (chargeClass s k n).cp.clean = s.cp.clean := by
  unfold chargeClass
  split
  · rfl
  · rw [cappedWindow_cp]

theorem unitLockArrives_ignored (h : dataMember s = false ∨ s.r Reg.MGT_ROLE_DRAIN_QUIESCED = 1) : unitLockArrives s node u = s := by
  have hstop : (!dataMember s) = true ∨ s.r Reg.MGT_ROLE_DRAIN_QUIESCED = 1 := by simpa only [Bool.not_eq_true'] using h
  exact if_pos hstop

/-- The lock that a UNIT_LOCK takes, and the state that holds it alone. -/
def newLock (s : State) (node u : Nat) : UnitLock :=
  { unit := u, node := node, returned := false, released := false, until_ := s.now + max 1 (s.r Reg.TIR_CP_GROUP_LOCK_US) * 1000 }
def lockTaken (s : State) (node u : Nat) : State := { s with cp := { s.cp with locks := [(s.cp.nextGen, newLock s node u)], nextGen := s.cp.nextGen + 1 } }

/-- The one lock of a member that can return its unit's data. -/
theorem returnLocks_one {l : UnitLock} (hlocks : s.cp.locks = [(g, l)]) (hreturned : l.returned = false) (hheld : l.released = false)
    (hfree : ∀ d ∈ s.cp.deltas, l.unit ∉ d.2.units) (hbuilt : unitUnbuilt s false l.unit = false) :
    returnLocks s =
      (let V := (chargeClass s 2 unitBytes).emit (.msg l.node (.unitData l.unit g (s.cp.dirty.contains l.unit) (unitRead s l.unit)))
       { V with cp := { V.cp with
          locks := [(g, { l with returned := true })],
          clean := if s.cp.dirty.contains l.unit = true ∧ s.cp.clean.contains l.unit = false then s.cp.clean ++ [l.unit] else s.cp.clean } }) := by
  have hnone : (s.cp.deltas.any fun d => d.2.units.contains l.unit) = false := by simpa using hfree
  have hlost : unitLost s l.unit = false := by rw [unitLost, unitGone, hbuilt, Bool.and_false]
  have hset (x : UnitLock) : amSet g x [(g, l)] = [(g, x)] := by simp only [amSet, lt_irrefl, if_false, if_true]
  simp only [returnLocks, hlocks, List.foldl_cons, List.foldl_nil, hreturned, hnone, hlost, hbuilt, hheld, Bool.or_self, Bool.false_eq_true, if_false,
    State.emit_cp, chargeClass_locks, chargeClass_clean, hset, Bool.and_eq_true, Bool.not_eq_true']

theorem unitLockArrives_takes (hmember : dataMember s = true) (hopen : s.r Reg.MGT_ROLE_DRAIN_QUIESCED ≠ 1) (hlocks : s.cp.locks = [])
    (hfree : ∀ d ∈ s.cp.deltas, u ∉ d.2.units) (hbuilt : unitUnbuilt s false u = false) :
    unitLockArrives s node u =
      (let V := (chargeClass (lockTaken s node u) 2 unitBytes).emit (.msg node (.unitData u s.cp.nextGen (s.cp.dirty.contains u) (unitRead (lockTaken s node u) u)))
       { V with cp := { V.cp with
          locks := [(s.cp.nextGen, { newLock s node u with returned := true })],
          clean := if s.cp.dirty.contains u = true ∧ s.cp.clean.contains u = false then s.cp.clean ++ [u] else s.cp.clean } }) := by
  have hgo : ¬ ((!dataMember s) = true ∨ s.r Reg.MGT_ROLE_DRAIN_QUIESCED = 1) := by
    rw [hmember]
    rintro (h | h)
    · exact nomatch h
    · exact hopen h
  have htaken : unitLockArrives s node u = returnLocks (lockTaken s node u) := by
    rw [unitLockArrives, if_neg hgo, hlocks]
    rfl
  rw [htaken]
  exact returnLocks_one (s := lockTaken s node u) rfl rfl rfl hfree hbuilt

theorem unitUnlockArrives_resynced : unitUnlockArrives s node u g true =
    (let left := s.cp.dirty.filter fun u => !s.cp.clean.contains u
     let U := { s with cp := { s.cp with dirty := left, clean := [] } }
     if left = [] then U.setR Reg.TIR_CP_GROUP_DEGRADED 0 else U) := by
  simp only [unitUnlockArrives, if_true, resyncedHere, List.isEmpty_iff]

theorem unitUnlockArrives_unheld (h : amGet g s.cp.locks = none) : unitUnlockArrives s node u g false = told s node (.unitStale u g) := by
  simp only [unitUnlockArrives, Bool.false_eq_true, if_false, h]
  rfl

theorem unitLockExpiry_unheld (h : amGet g s.cp.locks = none) : unitLockExpiry s g = s := by simp only [unitLockExpiry, h]

variable {l : UnitLock} (hl : amGet g s.cp.locks = some l)
include hl

theorem unitUnlockArrives_releases (hunit : l.unit = u) (hheld : l.released = false) :
    unitUnlockArrives s node u g false = unitsSettled { s with cp := { s.cp with locks := amErase g s.cp.locks } } := by
  simp only [unitUnlockArrives, Bool.false_eq_true, if_false, hl, hunit, hheld, Bool.not_false, and_self, if_true]

theorem unitUnlockArrives_released (hgone : l.released = true) : unitUnlockArrives s node u g false = told s node (.unitStale u g) := by
  simp only [unitUnlockArrives, Bool.false_eq_true, if_false, hl, hgone, Bool.not_true, and_false]
  rfl

theorem unitLockExpiry_early (htime : s.now < l.until_) : unitLockExpiry s g = s := by
  simp only [unitLockExpiry, hl, htime, true_or, if_true]

theorem unitLockExpiry_due (htime : l.until_ ≤ s.now) (hheld : l.released = false) : unitLockExpiry s g =
    unitsSettled { s with cp := { s.cp with locks := if l.returned then amErase g s.cp.locks else amSet g { l with released := true } s.cp.locks } } := by
  simp only [unitLockExpiry, hl, Nat.not_lt.mpr htime, hheld, Bool.false_eq_true, or_self, if_false]

end

/-! ### The reconstructor (R385, R387, R389) -/

section
variable {s : State} {node u : Nat}

theorem unitDone_none (h : s.cp.jobs = []) : unitDone s u = s := by simp only [unitDone, h, List.find?_nil]

theorem unitAnswer_none (h : s.cp.jobs = []) (a : UnitAns) : unitAnswer s node u a = s := by
  cases a with
  | data g d b => simp only [unitAnswer, h, List.find?_nil]
  | stale => simp only [unitAnswer, h, List.find?_nil]
  | lost => simp only [unitAnswer, h, List.find?_nil]

section
variable {j : UnitJob} (hjobs : s.cp.jobs = [j]) (hbegun : j.begun = true) (hunit : j.unit = u) (hasked : node ∈ j.asked) (hopen : j.result = none)
include hjobs hbegun hunit hasked

/-- The one job, of this unit, that waits for the answer of a survivor. -/
theorem find_job {p : UnitJob → Bool} (hp : p j = true) :
    (s.cp.jobs.find? fun j => j.begun && j.unit == u && j.asked.contains node && p j) = some j := by
  have hmem : j.asked.contains node = true := List.contains_iff_mem.mpr hasked
  rw [hjobs]
  exact List.find?_cons_of_pos (by simp only [hbegun, hunit, hmem, hp, beq_self_eq_true, Bool.and_self])

include hopen

theorem unitAnswer_first {gen : Nat} {d : Bool} {b : List Byte} (hfirst : j.answers = []) (hmore : j.asked.length ≠ 1) (hclean : d = false ∨ j.lost = 8) :
    unitAnswer s node u (.data gen d b) = { s with cp := { s.cp with jobs := [{ j with answers := [(node, gen, fit unitBytes b)] }] } } := by
  have hfind := find_job hjobs hbegun hunit hasked (p := fun j => j.result.isNone && !(j.answers.any fun a => a.1 == node))
    (by simp only [hopen, hfirst, Option.isNone_none, List.any_nil, Bool.not_false, Bool.and_self])
  have hgood : ¬ (d = true ∧ j.lost ≠ 8) := by
    rintro ⟨hdirty, hother⟩
    rcases hclean with h | h
    · rw [h] at hdirty; exact nomatch hdirty
    · exact hother h
  have hone : ¬ [(node, gen, fit unitBytes b)].length = j.asked.length := fun h => hmore h.symm
  have hmod : modUnit s j (fun _ => { j with answers := [(node, gen, fit unitBytes b)] }) =
      { s with cp := { s.cp with jobs := [{ j with answers := [(node, gen, fit unitBytes b)] }] } } := by
    simp only [modUnit, hjobs, List.map_cons, List.map_nil, sameUnit, beq_self_eq_true, Bool.and_self, if_true]
  simp only [unitAnswer, hfind, if_neg hgood, hfirst, List.nil_append, if_neg hone, hmod]

theorem unitAnswer_lost : unitAnswer s node u .lost = unitsSettled (unitFail s j Detail.CP_DOUBLE) := by
  simp only [unitAnswer, find_job hjobs hbegun hunit hasked (p := fun j => j.result.isNone) (by simp only [hopen, Option.isNone_none])]

end

section
variable {j : UnitJob} {b : List Byte} (hfind : s.cp.jobs.find? (fun j => j.unit == u && j.result.isSome) = some j) (hresult : j.result = some b)
include hfind hresult

theorem unitDone_rebuilt (huse : j.use = .rebuild) : unitDone s u =
    (let U := dropUnit s j
     let V := if j.lost = 8 then U.wr (parAddr U u) b else loadUnit (U.wr (protAddr U (u * unitBytes)) b) u
     let W := rebRegs { V with cp := { V.cp with built := V.cp.built ++ [u], front := V.cp.front.filter (· ≠ u) } }
     unitsSettled (if W.cp.unTo ≤ W.cp.built.length then rebuildEnd W Done.ok else W)) := by
  by_cases hlost : j.lost = 8
  · simp only [unitDone, hfind, hresult, huse, Option.getD_some, if_pos hlost]
  · simp only [unitDone, hfind, hresult, huse, Option.getD_some, if_neg hlost]

theorem unitDone_repaired (huse : j.use = .repair) : unitDone s u =
    (let U := dropUnit s j
     let V := U.wr (protAddr U (u * unitBytes)) b
     unitsSettled { V with cp := { V.cp with repairs := amMap (fun _ (r : Repair) => { r with need := r.need.filter (· ≠ u) }) V.cp.repairs } }) := by
  simp only [unitDone, hfind, hresult, huse, Option.getD_some]

end

end

/-! ### REBUILD, PAR_REBUILD and RESYNC (R384, R387) -/

section
variable {c : Cmd} {T : State} {d : List Byte} {o : Nat} {p : Bool} {n : State → Nat}

/-- A rebuild begun: every one of its units unbuilt. -/
def rebuildBegun (T : State) (o : Nat) (c : Cmd) (p : Bool) (n : State → Nat) : State :=
  rebRegs ({ T with cp := { T.cp with rebuild := some ⟨o, c, p, []⟩, unPar := p, unTo := n T, built := [], front := [] } }.setR Reg.TIR_CP_REB_STATUS_DONE 0)

theorem rebuildBody_otherRole (hrole : roleEnables T [3] = false) : rebuildBody o c p n T d = (T, some (Done.of .fenced 0)) := by
  have hno : (!roleEnables T [roleCache]) = true := congrArg Bool.not hrole
  rw [rebuildBody, if_pos hno, fail]

variable (hrole : roleEnables T [3] = true)
include hrole

theorem not_otherRole : ¬ (!roleEnables T [roleCache]) = true := by
  rw [show roleEnables T [roleCache] = true from hrole]; decide

theorem rebuildBody_running (hbusy : T.cp.rebuild.isSome = true) : rebuildBody o c p n T d = (T, some (Done.of .conflict 0)) := by
  rw [rebuildBody, if_neg (not_otherRole hrole), if_pos hbusy, fail]

variable (hidle : T.cp.rebuild = none)
include hidle

theorem rebuildBody_begins : rebuildBody o c p n T d =
    if n (rebuildBegun T o c p n) = 0 then
      (rebRegs ({ rebuildBegun T o c p n with cp := { (rebuildBegun T o c p n).cp with rebuild := none } }.setR Reg.TIR_CP_REB_STATUS_DONE 1), some Done.ok)
    else (rebuildGo (rebuildBegun T o c p n), none) := by
  rw [rebuildBody, if_neg (not_otherRole hrole), if_neg (by rw [hidle]; decide)]
  rfl

theorem rebuildBody_starts (hsome : n (rebuildBegun T o c p n) ≠ 0) : rebuildBody o c p n T d = (rebuildGo (rebuildBegun T o c p n), none) := by
  rw [rebuildBody_begins hrole hidle, if_neg hsome]

theorem rebuildBody_empty (hnone : n (rebuildBegun T o c p n) = 0) : rebuildBody o c p n T d =
    (rebRegs ({ rebuildBegun T o c p n with cp := { (rebuildBegun T o c p n).cp with rebuild := none } }.setR Reg.TIR_CP_REB_STATUS_DONE 1), some Done.ok) := by
  rw [rebuildBody_begins hrole hidle, if_pos hnone]

theorem resyncBody_clean : resyncBody c [] T d =
    ((List.range 8).foldl (fun U k => told U (U.r (Reg.TIR_CP_MEMBER_NODE.at 4 (k + 9))) .resynced) T, some Done.ok) := by
  rw [resyncBody, if_neg (not_otherRole hrole), if_neg (by rw [hidle]; decide)]
  rfl

theorem resyncBody_starts {us : List Nat} (hus : us ≠ []) : resyncBody c us T d =
    (rebuildGo (rebRegs { T with cp := { T.cp with rebuild := some ⟨Op.RESYNC, c, true, us.eraseDups⟩ } }), none) := by
  rw [resyncBody, if_neg (not_otherRole hrole), if_neg (by rw [hidle]; decide), if_neg (by rwa [List.isEmpty_iff])]

end

theorem resyncBody_otherRole {c : Cmd} {T : State} {d : List Byte} (us : List Nat) (hrole : roleEnables T [3] = false) :
    resyncBody c us T d = (T, some (Done.of .fenced 0)) := by
  have hno : (!roleEnables T [roleCache]) = true := congrArg Bool.not hrole
  rw [resyncBody, if_pos hno, fail]

/-! ### SEAL (R218 to R222) -/

section
variable {c : Cmd} {T : State} {d : List Byte} {a : Nat} (hrole : roleEnables T [3, 4] = true) (hsame : T.changing = false)
  (hhdr : streamHdrOk (StreamHdr.ofBytes d) d = true) (hat : regionAddr T c.arg1 c.arg2 (streamStored (StreamHdr.ofBytes d)) = .ok a)
  (hprot : dataMember T = true → inProt T a (streamStored (StreamHdr.ofBytes d)) = true)
  (hsound : doubleLost T a (streamStored (StreamHdr.ofBytes d)) = false) (hreach : memTrouble T a (streamStored (StreamHdr.ofBytes d)) = none)
include hrole hsame hhdr hat hprot hsound hreach

/-- The units that hold a SEAL up. -/
def sealUnits (T : State) (d : List Byte) (a : Nat) : List Nat := blockedUnits T a (streamStored (StreamHdr.ofBytes d)) true

theorem sealBody_held (hus : sealUnits T d a ≠ []) :
    sealBody c T d = (unstartCmd (holdWork T (sealUnits T d a) (.command Op.SEAL c)) Op.SEAL c, none) := by
  have hrole' : roleEnables T [roleCache, roleMixed] = true := hrole
  have hinside : ¬ (dataMember T = true ∧ (!inProt T a (streamStored (StreamHdr.ofBytes d))) = true) := fun ⟨hm, hout⟩ => by
    rw [hprot hm] at hout; exact nomatch hout
  have hsome : (!(sealUnits T d a).isEmpty) = true := by simpa using hus
  simp only [sealBody, hrole', hsame, hhdr, hat, if_neg hinside, hsound, hreach, Bool.not_true, Bool.false_eq_true, if_false]
  exact if_pos hsome

/-- The state once the sealed stream is written. -/
def sealWritten (T : State) (c : Cmd) (d stream : List Byte) (a : Nat) : State :=
  pageTouch (chargeClass (putBytes (unhold T.takeFree (.command Op.SEAL c)) a stream) 1 (streamStored (StreamHdr.ofBytes d))) a (streamStored (StreamHdr.ofBytes d))

theorem sealBody_writes {k : KeyEnt} (hus : sealUnits T d a = []) (hread : T.dmaOk c.fn c.arg0 (StreamHdr.ofBytes d).plainLen = true)
    (hkey : keyUse T (StreamHdr.ofBytes d).keySlot (StreamHdr.ofBytes d).tenant false = .ok k) :
    sealBody c T d = okWhenAcked (unhold T.takeFree (.command Op.SEAL c))
      (sealWritten T c d (sealedStream d (drbg T 8) k.stream (T.rd (hostXA c.arg0) (StreamHdr.ofBytes d).plainLen)) a) Op.SEAL c 0 := by
  have hrole' : roleEnables T [roleCache, roleMixed] = true := hrole
  have hinside : ¬ (dataMember T = true ∧ (!inProt T a (streamStored (StreamHdr.ofBytes d))) = true) := fun ⟨hm, hout⟩ => by
    rw [hprot hm] at hout; exact nomatch hout
  rw [sealUnits] at hus
  simp only [sealBody, hrole', hsame, hhdr, hat, if_neg hinside, hsound, hreach, hus, hread, hkey, List.isEmpty_nil, Bool.not_true, Bool.false_eq_true,
    if_false, sealWritten]

end

/-! ### The access sweep (R391, R392) -/

section
variable {s : State}

/-- The generation of the next list bank, its place, and the memory once its lists are written. -/
def sweepGen (s : State) : Nat := (s.r Reg.TIR_CP_LIST_GEN_GEN + 1) % 2 ^ 32
def sweepBank (s : State) : Nat := s.r Reg.TIR_CP_ACC_BASE_BASE * 2 ^ 21 + 0x800000 + sweepGen s % 2 * 0x80000
def hotPages (s : State) : List Nat := pagesBy s ((List.range (65536 - s.r Reg.TIR_CP_ACC_CFG_HOT_THRESH)).map (65535 - ·))
def coldPages (s : State) : List Nat := pagesBy s (List.range (s.r Reg.TIR_CP_ACC_CFG_COLD_THRESH + 1))
def pagesListed (s : State) : State :=
  s.wr (sweepBank s) (leBytes 8 (sweepGen s) ++ leBytes 8 s.now ++ leBytes 4 (hotPages s).length ++ leBytes 4 (coldPages s).length ++ leBytes 40 0
    ++ (hotPages s ++ coldPages s).flatMap (pageEntry s))
def pagesHalved (s : State) : State :=
  (List.range (pageTotal (pagesListed s))).foldl (fun U p => U.wr (pageAt U p) (leBytes 2 (pageCount U p / 2))) (pagesListed s)
def swept (s : State) : State :=
  { pagesHalved s with cp := { (pagesHalved s).cp with sweptAt := (pagesHalved s).now } }.setR Reg.TIR_CP_LIST_GEN_GEN (sweepGen s)

theorem accessSweep_idle (h : s.role ≠ 3 ∨ s.now / 10 ^ 9 ≤ s.cp.sweptAt / 10 ^ 9) : accessSweep s = s := if_pos h

theorem accessSweep_sweeps (hrole : s.role = 3) (htime : s.cp.sweptAt / 10 ^ 9 < s.now / 10 ^ 9) : accessSweep s = swept s :=
  if_neg fun h => h.elim (· hrole) (Nat.not_le.mpr htime)

/-- With no pages the bank that is written lists none, and no counter is halved. -/
theorem pagesHalved_empty (hpages : pageTotal s = 0) :
    pagesHalved s = s.wr (sweepBank s) (leBytes 8 (sweepGen s) ++ leBytes 8 s.now ++ leBytes 48 0) := by
  have hnone (vs : List Nat) : pagesBy s vs = [] := by simp [pagesBy, hpages]
  have hzeros : leBytes 4 0 ++ leBytes 4 0 ++ leBytes 40 0 = leBytes 48 0 := by decide
  have hlisted : pagesListed s = s.wr (sweepBank s) (leBytes 8 (sweepGen s) ++ leBytes 8 s.now ++ leBytes 48 0) := by
    rw [pagesListed, hotPages, coldPages, hnone, hnone, List.append_nil, List.flatMap_nil, List.append_nil, List.length_nil, List.append_assoc,
      List.append_assoc, ← List.append_assoc (leBytes 4 0), hzeros, List.append_assoc]
  have htotal : pageTotal (pagesListed s) = 0 := hpages
  rw [pagesHalved, htotal, hlisted]
  rfl

theorem swept_empty (hpages : pageTotal s = 0) :
    (swept s).cp = { s.cp with sweptAt := s.now } ∧ (swept s).r Reg.TIR_CP_LIST_GEN_GEN = sweepGen s ∧ (swept s).sent = s.sent
      ∧ (swept s).mem = memWriteN s.mem (sweepBank s) (leBytes 8 (sweepGen s) ++ leBytes 8 s.now ++ leBytes 48 0) := by
  simp only [swept, pagesHalved_empty hpages, State.setR_cp, State.setR_sent, State.setR_mem, State.wr_cp, State.wr_sent, State.wr_mem, State.wr_now,
    State.setR_r_same, true_and, and_true]
  exact Nat.mod_eq_of_lt (Nat.mod_lt _ (by decide))

end

/-- Settles O42. -/
theorem poolDeltasLocksAndRebuilds : Obligations.PoolDeltasLocksAndRebuilds := by
  intro s
  refine ⟨fun n => ⟨fun h => ?unknown, fun h => ⟨?acked, fun hqps hmcasts hwaits hlocks hjobs hsame => ?idle, fun o c r hwaits hgone => ?waited⟩⟩,
    fun q => ⟨fun h => ?noDegrade, fun hmember hsound hq => ?degrades⟩, fun node u g hsrc => ?locks, fun u j b hfind hresult => ⟨fun huse => ?rebuilt, fun huse => ?repaired⟩,
    fun c => ⟨?starts, fun hready => ⟨fun us hrole => ?resyncRole, fun hrole hidle => ⟨?resyncClean, fun us hus => ?resyncs⟩⟩,
      fun a hready hrole hsame hhdr hat hprot hsound hreach => ⟨fun hus => ?sealHeld, fun k hus hread hkey => ?seals⟩⟩,
    fun h => ?noSweep, fun hrole htime => ⟨?sweeps, fun hpages => ?sweepsNone⟩⟩
  case unknown => rw [exec_deltaAcked, deltaAcked_unknown h]
  case acked => rw [exec_deltaAcked, deltaAcked_known h]
  case idle => exact deltasSettled_idle hqps hmcasts hwaits hlocks hjobs hsame
  case waited => exact settleWaits_one (s := { s with cp := { s.cp with deltas := amErase n s.cp.deltas } }) hwaits hgone
  case noDegrade => rw [exec_degradeTimeout, degrade_nothing q h]
  case degrades => rw [hq, exec_degradeTimeout, degrade_failed hmember hsound]; rfl
  case locks =>
    simp only [exec_unitLock hsrc, exec_unitUnlock hsrc, exec_unitLockAnswer hsrc, exec_unitLockExpiry, exec_rebuildUnitDone]
    refine ⟨fun h => ?ignored, fun hmember hopen hlocks hfree hbuilt => ?takes, ?resynced, fun h => ⟨?stale, ?noExpiry⟩,
      fun l hl => ⟨fun hunit hheld => ?releases, fun hgone => ?released, fun htime => ?early, fun htime hheld => ?due⟩, fun hjobs => ⟨?doneNone, fun a => ?answerNone⟩,
      fun j gen d b hjobs hbegun hunit hasked hopen => ⟨fun hfirst hmore hclean => ?first, ?lost⟩⟩
    case ignored => rw [unitLockArrives_ignored h]
    case takes => rw [unitLockArrives_takes hmember hopen hlocks hfree hbuilt]; rfl
    case resynced => rw [unitUnlockArrives_resynced]
    case stale => rw [unitUnlockArrives_unheld h]
    case noExpiry => rw [unitLockExpiry_unheld h]
    case releases => rw [unitUnlockArrives_releases hl hunit hheld]
    case released => rw [unitUnlockArrives_released hl hgone]
    case early => rw [unitLockExpiry_early hl htime]
    case due => rw [unitLockExpiry_due hl htime hheld]
    case doneNone => rw [unitDone_none hjobs]
    case answerNone => rw [unitAnswer_none hjobs]
    case first => rw [unitAnswer_first hjobs hbegun hunit hasked hopen hfirst hmore hclean]
    case lost => rw [unitAnswer_lost hjobs hbegun hunit hasked hopen]
  case rebuilt => rw [exec_rebuildUnitDone, unitDone_rebuilt hfind hresult huse]
  case repaired => rw [exec_rebuildUnitDone, unitDone_repaired hfind hresult huse]
  case starts =>
    refine ⟨fun hready => ⟨fun hrole => ?_, fun hrole hbusy => ?_, fun hrole hidle => ⟨fun hsome => ?_, fun hnone => ?_⟩⟩,
      fun hready => ⟨fun hrole => ?_, fun hrole hbusy => ?_, fun hrole hidle => ⟨fun hsome => ?_, fun hnone => ?_⟩⟩⟩
    · exact runCommand_ends hready (rebuildBody_otherRole hrole)
    · exact runCommand_ends hready (rebuildBody_running hrole hbusy)
    · exact runCommand_goesOn hready (rebuildBody_starts hrole hidle hsome)
    · exact runCommand_ends hready (rebuildBody_empty hrole hidle hnone)
    · exact runCommand_ends hready (rebuildBody_otherRole hrole)
    · exact runCommand_ends hready (rebuildBody_running hrole hbusy)
    · exact runCommand_goesOn hready (rebuildBody_starts hrole hidle hsome)
    · exact runCommand_ends hready (rebuildBody_empty hrole hidle hnone)
  case resyncRole => exact runCommand_ends hready (resyncBody_otherRole us hrole)
  case resyncClean => exact runCommand_ends hready (resyncBody_clean hrole hidle)
  case resyncs => exact runCommand_goesOn hready (resyncBody_starts hrole hidle hus)
  case sealHeld => exact runCommand_goesOn hready (sealBody_held hrole hsame hhdr hat hprot hsound hreach hus)
  case seals =>
    have hbody := sealBody_writes hrole hsame hhdr hat hprot hsound hreach hus hread hkey
    exact ⟨fun hds => runCommand_ends hready (hbody.trans (okWhenAcked_now hds ..)),
      fun hds => runCommand_goesOn hready (hbody.trans (okWhenAcked_later hds ..))⟩
  case noSweep => rw [exec_accessSweep, accessSweep_idle h]
  case sweeps => rw [exec_accessSweep, accessSweep_sweeps hrole htime]; rfl
  case sweepsNone =>
    refine ⟨swept s, ?_, swept_empty hpages⟩
    rw [exec_accessSweep, accessSweep_sweeps hrole htime]
    rfl

end Sys2Proof.Machine
end

section
/-! PROOFS. The end of a key-slot fill (R457): the segments that streams hold for a key go on with it, also where no fill of the index was under way. -/

namespace Sys2Proof.Machine

theorem exec_keySlotFillDone (i : Nat) (s : State) : exec (.keySlotFillDone i) s = goesOn s (keyFillDone s i) := rfl

theorem keySlotFillDone_none {s : State} {i : Nat} (h : s.kh.filling.contains i = false) : keySlotFillDone s i = s := by
  rw [keySlotFillDone, h, Bool.not_false, if_pos rfl]

/-- A stream that has ended reads no further. -/
theorem streamRun_ended {s : State} {n : Nat} (h : amGet n s.cdc.jobs = none) (fuel : Nat) : streamRun fuel s n = s := by
  cases fuel with
  | zero => rfl
  | succ fuel => rw [streamRun, h]

/-- The one stream, its segment held for a key that keeps it no longer, goes on with that segment. -/
theorem keyFillDone_goesOn {s : State} {i n : Nat} {j : StreamJob} {b : List Byte} (hfill : s.kh.filling.contains i = false) (hjobs : s.cdc.jobs = [(n, j)])
    (hheld : j.held = some b) (hready : keyReady s (StreamHdr.ofBytes j.hdr).keySlot = true) :
    keyFillDone s i = streamRun streamFuel (takeSegment s n { j with held := none } b) n := by
  simp only [keyFillDone, keySlotFillDone_none hfill, hjobs, List.filter_cons, List.filter_nil, hheld, hready, Option.isSome_some, Bool.and_self, if_true,
    List.foldl_cons, List.foldl_nil]

/-- A segment whose key no service may use ends its command. -/
theorem takeSegment_keyRefused {s : State} {n : Nat} {j : StreamJob} {b : List Byte} {e : Status × Nat} (hsound : segBad b = [])
    (hfields : leField b 0x50 4 = j.seg ∧ leField b 0x54 4 = segLen (StreamHdr.ofBytes j.hdr) j.seg)
    (hready : keyReady s (StreamHdr.ofBytes j.hdr).keySlot = true)
    (hkey : keyUse s (StreamHdr.ofBytes j.hdr).keySlot (StreamHdr.ofBytes j.hdr).tenant false = .error e) :
    takeSegment s n j b = streamEnd s n j e.1 (streamKeyDetail e.2) := by
  obtain ⟨hseg, hlen⟩ := hfields
  simp only [takeSegment, hsound, hseg, hlen, hready, hkey, ne_eq, not_true_eq_false, or_self, if_false, Bool.not_true, Bool.false_eq_true]

/-- A TABLE_LOAD, and its stream with an empty segment that waits for its key. -/
def tableLoadCmd : Cmd :=
  { fn := 0, sq := 0, fence := false, noCqe := true, rslotValid := false, rslot := 0, cq := 0, zero := 0, userTag := 0, descAddr := 0, descLen := 0,
    handle := 0, arg0 := 0, arg1 := 0, arg2 := 0, arg3 := 0 }
def waitingStream : StreamJob :=
  { op := Op.TABLE_LOAD, cmd := tableLoadCmd, use := .table, desc := [], layer := 0, heads := [], copied := [], hdr := [3], seg := 0, prevTag := [],
    retried := [], plain := [], stored := [], held := some [], scanned := 0, blocks := [], seen := [], users := [], adp := none, same := none }

/-- The state after reset with that stream: no slot is being filled, and the Keyhouse is not OPERATIONAL. -/
def waitingState : State := { State.reset with cdc := { State.reset.cdc with jobs := [(0, waitingStream)] } }

theorem waitingState_ready : keyReady waitingState (StreamHdr.ofBytes waitingStream.hdr).keySlot = true := by decide

theorem waitingState_ends : keyFillDone waitingState 0 =
    streamRun streamFuel (streamEnd waitingState 0 { waitingStream with held := none } .fenced Detail.KEY_STATE) 0 := by
  have hends := takeSegment_keyRefused (s := waitingState) (n := 0) (j := { waitingStream with held := none }) (b := []) (e := (.fenced, Detail.KEY_STATE))
    (by decide) (by decide) waitingState_ready rfl
  rw [keyFillDone_goesOn (b := []) rfl rfl rfl waitingState_ready]
  exact congrArg (fun t => streamRun streamFuel t 0) hends

/-- Refutes O49: its clause for an index that no fill is under way for says that KEY_SLOT_FILL_DONE changes nothing, but a segment that a stream holds for its key goes on then (R457), here to end its command, since the Keyhouse is not OPERATIONAL. -/
theorem not_keyhouseServesAndZeroizes : ¬ Obligations.KeyhouseServesAndZeroizes := by
  intro h
  obtain ⟨-, -, -, -, -, -, -, -, -, hfills⟩ := h waitingState tableLoadCmd
  obtain ⟨hnone, -, -⟩ := hfills 0
  have hsame := hnone rfl
  rw [exec_keySlotFillDone, waitingState_ends, streamRun_ended rfl] at hsame
  have hjobs := congrArg (fun t : State => t.cdc.jobs.length) (keepQueue_of_goesOn hsame)
  exact absurd hjobs (by decide)

end Sys2Proof.Machine
end

section
/-! PROOFS. The sideband and the ways of SPDM (R469 to R471, R526): a request on an open way is answered, on the sideband while the management core does not run it is not, on a way the chip has not it stops. -/

namespace Sys2Proof.Machine

/-! ### Ways (R526) -/

section
variable {s : State} {way : Nat}

theorem spdmOn_open (h : wayOpen s way) (k : State) : spdmOn way s k = goesOn s k := by
  rcases h with rfl | ⟨rfl, hup⟩
  · rfl
  · simp only [spdmOn, hup, Bool.not_true, Bool.and_false, Bool.false_eq_true, if_false]; rfl

theorem spdmOn_silent (h : s.mgt.coreUp = false) (k : State) : spdmOn 1 s k = goesOn s s := by
  simp only [spdmOn, h, beq_self_eq_true, Bool.not_false, Bool.and_true, if_true]; rfl

theorem spdmOn_absent (h : 2 ≤ way) (k : State) : spdmOn way s k = .fault .noSuchUnit := withUnit_absent (decide_eq_false (Nat.not_lt.mpr h))

/-! ### The requests before the algorithms are agreed (R469) -/

theorem exec_spdmGetVersion (s : State) (way : Nat) : exec (.spdmGetVersion way) s = spdmOn way s (spdmSaid (atStage s way .version) way 0 0) := rfl
theorem exec_spdmGetCapabilities (s : State) (way : Nat) : exec (.spdmGetCapabilities way) s =
    spdmOn way s (if spdmStage s way = .version then spdmSaid (atStage s way .capabilities) way 0 1 else spdmSaid s way 0 12) := rfl
theorem exec_spdmNegotiateAlgorithms (s : State) (way : Nat) : exec (.spdmNegotiateAlgorithms way) s =
    spdmOn way s (if spdmStage s way = .capabilities then spdmSaid (atStage s way .ready) way 0 2 else spdmSaid s way 0 12) := rfl

/-! ### The requests that need agreed algorithms (R469, R470) -/

theorem keyUp_of_operational (h : s.r Reg.KEY_STATUS_STATE = 1) : keyUp s = true := by rw [keyUp, h]; rfl
theorem keyUp_of_other (h : s.r Reg.KEY_STATUS_STATE ≠ 1) : keyUp s = false := by rw [keyUp]; exact beq_eq_false_iff_ne.mpr h

theorem spdmReady_agreed (hup : s.r Reg.KEY_STATUS_STATE = 1) (hstage : spdmStage s way = .ready) (k : State) : spdmReady s way k = k := by
  rw [spdmReady, keyUp_of_operational hup, hstage]; rfl

theorem spdmReady_refused (h : s.r Reg.KEY_STATUS_STATE ≠ 1 ∨ spdmStage s way ≠ .ready) (k : State) : spdmReady s way k = spdmSaid s way 0 12 := by
  have hno : (keyUp s && spdmStage s way == .ready) = false := by
    rcases h with h | h
    · rw [keyUp_of_other h, Bool.false_and]
    · rw [beq_eq_false_iff_ne.mpr h, Bool.and_false]
  rw [spdmReady, hno, if_neg Bool.false_ne_true]; rfl

variable (s way)

/-- An answer whose kind hangs on a condition. -/
theorem spdmAnswer_ite {p : Prop} [Decidable p] (session : Nat) (k k' : SpdmKind) :
    spdmAnswer s way session (if p then k else k') = spdmSaid s way session (if p then k.code else k'.code) := by
  split <;> rfl

theorem spdmFinish_does (n : Nat) (good : Bool) : spdmFinish s way n good = spdmDoes s way (.spdmFinish way n good) := by
  dsimp only [spdmFinish, withSession, spdmDoes]
  cases amGet n s.kh.sessions with
  | none => cases good <;> rfl
  | some x =>
    obtain ⟨finished, keyGen⟩ := x
    cases finished <;> cases good <;> rfl

/-- A request of a finished session, and its answer. -/
theorem withSession_finished (n : Nat) (k : SpdmKind) (f : SpdmSession → Option SpdmSession) : withSession s way n true k f =
    match amGet n s.kh.sessions with
    | some x =>
      if x.finished then spdmSaid { s with kh := { s.kh with sessions := match f ⟨true, x.keyGen⟩ with | some y => amSet n y s.kh.sessions | none => amErase n s.kh.sessions } } way n k.code
      else spdmSaid s way n 12
    | none => spdmSaid s way n 12 := by
  dsimp only [withSession]
  cases amGet n s.kh.sessions with
  | none => rfl
  | some x =>
    obtain ⟨finished, keyGen⟩ := x
    cases finished <;> rfl

variable {s way}

/-- Every later request is that of a ready way. -/
theorem exec_spdmLater {i : Instr} (h : spdmLater way i = true) : exec i s = spdmOn way s (spdmReady s way (spdmDoes s way i)) := by
  unfold spdmLater at h
  split at h
  case h_1 => obtain rfl := eq_of_beq h; rfl
  case h_2 w slot =>
    obtain rfl := eq_of_beq h
    exact congrArg (fun k => spdmOn w s (spdmReady s w k)) (spdmAnswer_ite s w 0 .certificate .error)
  case h_3 w slot =>
    obtain rfl := eq_of_beq h
    exact congrArg (fun k => spdmOn w s (spdmReady s w k)) (spdmAnswer_ite s w 0 .challenge .error)
  case h_4 => obtain rfl := eq_of_beq h; rfl
  case h_5 => obtain rfl := eq_of_beq h; rfl
  case h_6 w n good =>
    obtain rfl := eq_of_beq h
    exact congrArg (fun k => spdmOn w s (spdmReady s w k)) (spdmFinish_does s w n good)
  case h_7 w n =>
    obtain rfl := eq_of_beq h
    exact congrArg (fun k => spdmOn w s (spdmReady s w k)) (withSession_finished s w n .keyUpdate fun x => some { x with keyGen := x.keyGen + 1 })
  case h_8 w n =>
    obtain rfl := eq_of_beq h
    exact congrArg (fun k => spdmOn w s (spdmReady s w k)) (withSession_finished s w n .endSession fun _ => none)
  case h_9 => exact nomatch h

end

/-! ### IDE_KM (R471) -/

section
variable {s : State} {way n port stream op : Nat}

theorem exec_ideKm (hway : wayOpen s way) (hport : port < 8 ∨ port = 15) :
    exec (.ideKm way n port stream op) s = goesOn s (ideKm s way n port stream op) := by
  have hthere : (decide (port < 8) || port == 15) = true := by simpa only [Bool.or_eq_true, decide_eq_true_eq, beq_iff_eq] using hport
  have hexec : exec (.ideKm way n port stream op) s =
      withUnit s (way < 2 && (port < 8 || port == 15)) (if way == 1 && !s.mgt.coreUp then s else ideKm s way n port stream op) := rfl
  rw [hexec, hthere, Bool.and_true]
  exact spdmOn_open hway _

theorem exec_ideKm_absent (h : 2 ≤ way ∨ (8 ≤ port ∧ port ≠ 15)) : exec (.ideKm way n port stream op) s = .fault .noSuchUnit := by
  refine withUnit_absent ?_
  rcases h with hway | ⟨hbig, hother⟩
  · rw [decide_eq_false (Nat.not_lt.mpr hway), Bool.false_and]
  · rw [decide_eq_false (Nat.not_lt.mpr hbig), beq_eq_false_iff_ne.mpr hother, Bool.or_self, Bool.and_false]

theorem ideKm_noSession (h : amGet n s.kh.sessions = none) : ideKm s way n port stream op = spdmSaid s way n 12 := by
  rw [ideKm, h]; rfl

section
variable {x : SpdmSession} (hx : amGet n s.kh.sessions = some x)
include hx

theorem ideKm_refused (h : x.finished = false ∨ s.r Reg.KEY_STATUS_STATE ≠ 1 ∨ (if port = 15 then 5 else 2) ≤ stream) :
    ideKm s way n port stream op = spdmSaid s way n 12 := by
  have hno : (!x.finished) = true ∨ (!keyUp s) = true ∨ ideStreams port ≤ stream :=
    h.imp (congrArg Bool.not ·) (Or.imp (fun hup => congrArg Bool.not (keyUp_of_other hup)) id)
  simp only [ideKm, hx, if_pos hno]; rfl

/-- The state once a stream's keys stand as given, with the answer. -/
def idePut (s : State) (way n k : Nat) (i : IdeStream) : State := spdmSaid { s with kh := { s.kh with ide := amSet k i s.kh.ide } } way n 11

variable (hfinished : x.finished = true) (hup : s.r Reg.KEY_STATUS_STATE = 1) (hstream : stream < (if port = 15 then 5 else 2))
include hfinished hup hstream

theorem ideKm_served : ideKm s way n port stream op =
    (let k := 16 * port + stream
     let cur := (amGet k s.kh.ide).getD ⟨false, false⟩
     if op = 0 then idePut s way n k ⟨true, cur.secure⟩
     else if op = 1 then if cur.keyed then idePut s way n k ⟨true, true⟩ else spdmSaid s way n 12
     else idePut s way n k ⟨false, false⟩) := by
  have hgo : ¬ ((!x.finished) = true ∨ (!keyUp s) = true ∨ ideStreams port ≤ stream) := by
    rw [hfinished, keyUp_of_operational hup]
    rintro (h | h | h)
    · exact nomatch h
    · exact nomatch h
    · exact Nat.not_lt.mpr h hstream
  simp only [ideKm, hx, if_neg hgo]; rfl

end
end

/-! ### MCTP (R526) -/

section
variable {s : State} (hup : s.mgt.coreUp = true)
include hup

theorem sideband_up (kind : Nat) (ok : Bool) (body : List Byte) : sideband s kind ok body = s.emit (.mctp kind ok body) := if_pos hup

theorem mctpRead_reads {off len : Nat} (hmin : 4 ≤ len) (hmax : len ≤ 64) (hlen : len % 4 = 0) (hoff : off % 4 = 0)
    (hrange : (sidebandRanges.any fun r => decide (r.1 ≤ off) && decide (off + len ≤ r.2 + 1)) = true) :
    mctpRead s off len = s.emit (.mctp 1 true ((List.range (len / 4)).flatMap fun i => leBytes 4 (dwordRead s 0 (off + 4 * i)))) := by
  rw [mctpRead, if_pos ⟨hmin, hmax, hlen, hoff, hrange⟩, sideband_up hup]

theorem mctpRead_refused {off len : Nat} (h : len < 4 ∨ 64 < len ∨ len % 4 ≠ 0 ∨ off % 4 ≠ 0
      ∨ (sidebandRanges.any fun r => decide (r.1 ≤ off) && decide (off + len ≤ r.2 + 1)) = false) :
    mctpRead s off len = s.emit (.mctp 1 false []) := by
  rw [mctpRead, if_neg, sideband_up hup]
  rintro ⟨hmin, hmax, hlen, hoff, hrange⟩
  rcases h with h | h | h | h | h
  · exact Nat.not_le.mpr h hmin
  · exact Nat.not_le.mpr h hmax
  · exact h hlen
  · exact h hoff
  · rw [h] at hrange; exact nomatch hrange

theorem mctpIdent_answers : mctpIdent s = s.emit (.mctp 2 true (identBody s)) := by
  rw [mctpIdent, sideband_up hup, identBody]
  simp only [List.flatMap_cons, List.flatMap_nil, List.append_nil, List.append_assoc]

end

theorem exec_mctpControl (cmd : Nat) (s : State) : exec (.mctpControl cmd) s = goesOn s (mctpControl s cmd) := rfl
theorem exec_mctpRead (off len : Nat) (s : State) : exec (.mctpRead off len) s = goesOn s (mctpRead s off len) := rfl
theorem exec_mctpIdent (s : State) : exec .mctpIdent s = goesOn s (mctpIdent s) := rfl

/-- Settles O58. -/
theorem sidebandAndSpdmAnswer : Obligations.SidebandAndSpdmAnswer := by
  intro s
  refine ⟨fun way hway => ⟨?version, fun hstage => ?capabilities, fun hstage => ?capabilitiesEarly, fun hstage => ?algorithms, fun hstage => ?algorithmsEarly,
      fun i hi => ⟨fun hup hstage => ?later, fun hno => ?laterRefused⟩, fun n port stream op hport => ⟨fun hnone => ?noSession, fun x hx => ⟨fun hno => ?ideRefused,
        fun hfinished hup hstream => ?ide⟩⟩⟩,
    fun hdown i hi => ?silent, fun hup => ⟨fun cmd => ?control, fun off len hmin hmax hlen hoff hrange => ?reads, fun off len hno => ?readRefused, ?ident⟩,
    fun way i n port stream op hway hi => ?noWay, fun way n port stream op hbig hother => ?noPort⟩
  case version => rw [exec_spdmGetVersion, spdmOn_open hway]
  case capabilities => rw [exec_spdmGetCapabilities, spdmOn_open hway, if_pos hstage]
  case capabilitiesEarly => rw [exec_spdmGetCapabilities, spdmOn_open hway, if_neg hstage]
  case algorithms => rw [exec_spdmNegotiateAlgorithms, spdmOn_open hway, if_pos hstage]
  case algorithmsEarly => rw [exec_spdmNegotiateAlgorithms, spdmOn_open hway, if_neg hstage]
  case later => rw [exec_spdmLater hi, spdmOn_open hway, spdmReady_agreed hup hstage]
  case laterRefused => rw [exec_spdmLater hi, spdmOn_open hway, spdmReady_refused hno]
  case noSession => rw [exec_ideKm hway hport, ideKm_noSession hnone]
  case ideRefused => rw [exec_ideKm hway hport, ideKm_refused hx hno]
  case ide =>
    rw [exec_ideKm hway hport, ideKm_served hx hfinished hup hstream]
    refine ⟨fun h0 => ?_, fun h1 hkeyed => ?_, fun h1 hkeyed => ?_, fun h2 => ?_⟩
    · exact congrArg (goesOn s) (if_pos h0)
    · subst h1; exact congrArg (goesOn s) (if_pos hkeyed)
    · subst h1; exact congrArg (goesOn s) (if_neg (ne_true_of_eq_false hkeyed))
    · exact congrArg (goesOn s) ((if_neg (by omega)).trans (if_neg (by omega)))
  case silent =>
    rcases hi with hi | rfl | rfl | rfl
    · rw [exec_spdmLater hi, spdmOn_silent hdown]
    · rw [exec_spdmGetVersion, spdmOn_silent hdown]
    · rw [exec_spdmGetCapabilities, spdmOn_silent hdown]
    · rw [exec_spdmNegotiateAlgorithms, spdmOn_silent hdown]
  case control => rw [exec_mctpControl, mctpControl, sideband_up hup]
  case reads => rw [exec_mctpRead, mctpRead_reads hup hmin hmax hlen hoff hrange]
  case readRefused => rw [exec_mctpRead, mctpRead_refused hup hno]
  case ident => rw [exec_mctpIdent, mctpIdent_answers hup]
  case noWay =>
    rcases hi with hi | rfl | rfl | rfl | rfl
    · rw [exec_spdmLater hi, spdmOn_absent hway]
    · rw [exec_spdmGetVersion, spdmOn_absent hway]
    · rw [exec_spdmGetCapabilities, spdmOn_absent hway]
    · rw [exec_spdmNegotiateAlgorithms, spdmOn_absent hway]
    · exact exec_ideKm_absent (.inl hway)
  case noPort => exact exec_ideKm_absent (.inr ⟨hbig, hother⟩)

end Sys2Proof.Machine
end

section
/-! PROOFS. The scale book's interval and flush (R488, R491), the ageing monitors (R494 to R496), the array budget (R561), thermal samples (R563, R564) and detected errors (R434). -/

namespace Sys2Proof.Machine

theorem exec_intervalBoundary (ser : List (Nat × Nat × Nat)) (s : State) : exec (.intervalBoundary ser) s = goesOn s (intervalBoundary s ser) := rfl
theorem exec_scbFlushDone (s : State) : exec .scbFlushDone s = goesOn s (scbFlushDone s) := rfl
theorem exec_borerMeasure (l : List (Nat × Nat × Nat)) (s : State) : exec (.borerMeasure l) s = goesOn s (l.foldl borerOne s) := rfl
theorem exec_wearDayEnd (s : State) : exec .wearDayEnd s = goesOn s (wearDayEnd s) := rfl
theorem exec_arrayBudgetRefill (s : State) : exec .arrayBudgetRefill s = goesOn s (budgetRefill s) := rfl
theorem exec_thermalSample (temps : List Int) (watts : Nat) (s : State) : exec (.thermalSample temps watts) s = goesOn s (thermalSample s temps watts) := rfl
theorem exec_detectedError (p : ErrPoint) (retryOk : Bool) (s : State) : exec (.detectedError p retryOk) s = withUnit s (errPointOk p) (detectedError s p retryOk) := rfl

/-! ### The interval (R488) -/

theorem intervalBoundary_early {s : State} (h : s.now < nextBoundary s) (ser : List (Nat × Nat × Nat)) : intervalBoundary s ser = s := if_pos h

/-- A state with nothing gathered in the interval, which began at t. -/
def intervalBegun (U : State) (t : Nat) : State :=
  ({ U with scb := { U.scb with tjSamples := [], powerSamples := [], stallLens := [], sensorExt := [], intervalStart := t, intervalNs := intervalCfg U },
            mgt := { U.mgt with transient := [], stackCount := [] } } : State).setR Reg.MGT_STACK_STATE_LASTING 0

theorem intervalBoundary_ends {s : State} (h : nextBoundary s ≤ s.now) (ser : List (Nat × Nat × Nat)) :
    ∃ U, intervalBoundary s ser = intervalBegun U (nextBoundary s) := by
  rw [intervalBoundary, if_neg (Nat.not_lt.mpr h)]
  exact ⟨_, rfl⟩

/-! ### Flushes (R491) -/

theorem sendMsix_scb (s : State) (f vec : Nat) : (sendMsix s f vec).scb = s.scb := by
  unfold sendMsix
  dsimp only
  split
  · rfl
  · rfl

theorem setEvent_scb (s : State) (f : Fld) (cause : Nat) : (setEvent s f cause).scb = s.scb := by
  unfold setEvent eventMessage
  dsimp only
  split
  · split
    · rw [sendMsix_scb, State.setR_scb]
    · rfl
  · rfl

theorem flushAll_pfailing (l : List Nat) (sc : Scb) : (flushAll sc l).pfailing = sc.pfailing := by
  induction l generalizing sc with
  | nil => rfl
  | cons k l ih =>
    rw [flushAll]
    split
    · exact ih sc
    · exact ih _

theorem flushedState_pfailing (s : State) : (flushedState s).scb.pfailing = s.scb.pfailing := by
  rw [flushedState, setEvent_scb]
  exact flushAll_pfailing ..

theorem flushedState_flushing (s : State) : (flushedState s).scb.flushing = false := by rw [flushedState, setEvent_scb]

section
variable {s : State}

theorem scbFlushDone_none (h : s.scb.flushing = false) : scbFlushDone s = s := by rw [scbFlushDone, h, Bool.not_false, if_pos rfl]

theorem scbFlushDone_flushed (h : s.scb.flushing = true) : scbFlushDone s =
    if !s.scb.pfailing && !(scbSelect (flushedState s)).isEmpty then scbStartFlush (flushedState s) else flushedState s := by
  have hdone : scbFlushDone s =
      if !(flushedState s).scb.pfailing && !(scbSelect (flushedState s)).isEmpty then scbStartFlush (flushedState s) else flushedState s := by
    rw [scbFlushDone, h, Bool.not_true, if_neg Bool.false_ne_true]; rfl
  rw [hdone, flushedState_pfailing]

theorem scbFlushDone_stops (h : s.scb.flushing = true) (hno : s.scb.pfailing = true ∨ scbSelect (flushedState s) = []) :
    scbFlushDone s = flushedState s := by
  rw [scbFlushDone_flushed h]
  rcases hno with hno | hno
  · rw [hno, Bool.not_true, Bool.false_and, if_neg Bool.false_ne_true]
  · rw [hno, List.isEmpty_nil, Bool.not_true, Bool.and_false, if_neg Bool.false_ne_true]

theorem scbFlushDone_again (h : s.scb.flushing = true) (hpower : s.scb.pfailing = false) (hmore : scbSelect (flushedState s) ≠ []) :
    scbFlushDone s = { flushedState s with scb := { (flushedState s).scb with flush := scbSelect (flushedState s), flushing := true } } := by
  have hsome : (!(scbSelect (flushedState s)).isEmpty) = true := by simpa using hmore
  rw [scbFlushDone_flushed h, hpower, hsome, Bool.not_false, Bool.and_self, if_pos rfl, scbStartFlush, flushedState_flushing, if_neg Bool.false_ne_true]

end

/-! ### Monitors (R494 to R496) -/

/-- The loss over a baseline, which is none where the reference has counted nothing. -/
theorem degr_eq (stressed ref q0s q0r : Nat) : degr stressed ref q0s q0r =
    if ref * q0s ≤ stressed * q0r then 0 else (ref * q0s - stressed * q0r) * 100000 / (ref * q0s) := by
  unfold degr
  dsimp only
  split
  · next hzero => rw [if_pos (hzero ▸ Nat.zero_le _)]
  · rfl

theorem borerOne_eq_pairMeasured (s : State) (m : Nat × Nat × Nat) : borerOne s m = pairMeasured s m := by
  unfold borerOne pairMeasured
  by_cases h : m.1 < 128
  · rw [if_neg (Nat.not_le.mpr h), if_pos h]
    simp only [degr_eq]
    cases amGet m.1 s.scb.mram.baseline with
    | none => rfl
    | some b => rfl
  · rw [if_pos (Nat.not_lt.mp h), if_neg h]

theorem wearDayEnd_early {s : State} (h : s.now < s.scb.dayTime + 86400000000000) : wearDayEnd s = s := if_pos h

theorem wearDayEnd_ends {s : State} (h : s.scb.dayTime + 86400000000000 ≤ s.now) : wearDayEnd s =
    (let T := (List.range 144).foldl wearOne s
     { T with scb := { T.scb with daySum := [], dayN := [], dayTime := T.now } }) := if_neg (Nat.not_lt.mpr h)

/-! ### The array budget (R561) -/

theorem budgetRefill_eq (s : State) : budgetRefill s =
    if (refilled s).mgt.spentAt + 1000000 ≤ (refilled s).now then
      ({ refilled s with mgt := { (refilled s).mgt with spent := 0, spentAt := (refilled s).now } } : State).setR Reg.PWR_ARRAY_STATUS_AVG_W
        (min 65535 ((refilled s).mgt.spent / 100000000))
    else refilled s := by
  have hbucket (T : State) : (if budgetOn T then setBucket T (min (bucketFull T) (T.mgt.bucket + budgetWatts T * 100000)) else T) =
      if T.r Reg.PWR_STATE_STATE ≤ 1 then setBucket T (min (bucketFull T) (T.mgt.bucket + budgetWatts T * 100000)) else T := by
    simp only [budgetOn, decide_eq_true_eq]
  simp only [budgetRefill, hbucket]
  rfl

/-! ### Thermal samples (R563, R564) -/

section
variable {s : State} {temps : List Int} {watts : Nat}

theorem thermalSample_eq : thermalSample s temps watts =
    (let h := hottest (sixteen temps)
     let old := toSigned 16 (s.r Reg.PWR_THERM_TJ)
     let T := sampled s temps watts
     let U := if 840 ≤ h.1 ∧ old < 840 then scbNote (T.setR Reg.PWR_THERM_WARN 1) (faultRec Src.thermal Act.recorded 3 h.2 0 0) else T
     if 880 ≤ h.1 ∧ 880 ≤ old then thermalTrip U else U) := rfl

theorem thermalSample_warns (hhot : 840 ≤ (hottest (sixteen temps)).1) (hold : toSigned 16 (s.r Reg.PWR_THERM_TJ) < 840) :
    thermalSample s temps watts =
      scbNote ((sampled s temps watts).setR Reg.PWR_THERM_WARN 1) (faultRec Src.thermal Act.recorded 3 (hottest (sixteen temps)).2 0 0) := by
  rw [thermalSample_eq]
  dsimp only
  rw [if_neg (by omega), if_pos ⟨hhot, hold⟩]

theorem thermalSample_shows (hwarn : ¬ (840 ≤ (hottest (sixteen temps)).1 ∧ toSigned 16 (s.r Reg.PWR_THERM_TJ) < 840))
    (htrip : ¬ (880 ≤ (hottest (sixteen temps)).1 ∧ 880 ≤ toSigned 16 (s.r Reg.PWR_THERM_TJ))) : thermalSample s temps watts = sampled s temps watts := by
  rw [thermalSample_eq]
  dsimp only
  rw [if_neg htrip, if_neg hwarn]

theorem thermalSample_trips (hhot : 880 ≤ (hottest (sixteen temps)).1) (hold : 880 ≤ toSigned 16 (s.r Reg.PWR_THERM_TJ)) :
    thermalSample s temps watts = thermalTrip (sampled s temps watts) := by
  rw [thermalSample_eq]
  dsimp only
  rw [if_pos ⟨hhot, hold⟩, if_neg (by omega)]

end

/-! ### The parity area of a rebuild (R382, R387) -/

theorem parSize_rebuildBegun (T : State) (o : Nat) (c : Cmd) (p : Bool) (n : State → Nat) : parSize (rebuildBegun T o c p n) = parSize T := by
  have hbase : (rebuildBegun T o c p n).r Reg.TIR_CP_PAR_BASE_BASE = T.r Reg.TIR_CP_PAR_BASE_BASE := by
    simp only [rebuildBegun, rebRegs]
    rw [State.setR_r_other (by decide), State.setR_r_other (by decide), State.setR_r_other (by decide)]
    rfl
  have hregions : (rebuildBegun T o c p n).rm = T.rm := rfl
  simp only [parSize, parAddr, hbase, hregions]

/-- Settles O56. -/
theorem scaleBookPowerAndHealth : Obligations.ScaleBookPowerAndHealth := by
  intro s
  refine ⟨fun ser => ⟨fun h => ?early, fun h => ?interval⟩, fun h => ?noFlush,
    fun h => ⟨fun hpower => ?flushPower, fun _ hnone => ?flushLast, fun hpower hmore => ?flushAgain⟩, fun l => ?borer, fun h => ?dayEarly, fun h => ?day,
    fun h => ?refills, fun h => ?means, fun temps watts => ⟨fun hcool => ?cool, fun hhot hold => ?warns, fun _ hcool hold => ?warm, fun hhot _ hold => ?first,
      fun hhot hold => ?trips⟩, fun p retryOk => ⟨fun h => ?detects, fun h => ?noUnit⟩, fun k n retryOk hk => ?corrected,
    fun c hready => ⟨fun hrole => ?parRole, fun hrole => ⟨fun hbusy => ?parBusy, fun hidle => ⟨fun hnone => ?parEmpty, fun hsome => ?parStarts⟩⟩⟩⟩
  case early => rw [exec_intervalBoundary, intervalBoundary_early h]
  case interval =>
    obtain ⟨U, hU⟩ := intervalBoundary_ends h ser
    rw [exec_intervalBoundary, hU]
    exact ⟨_, rfl, rfl, rfl, rfl, rfl, rfl, rfl, rfl, State.setR_r_same ..⟩
  case noFlush => rw [exec_scbFlushDone, scbFlushDone_none h]
  case flushPower => rw [exec_scbFlushDone, scbFlushDone_stops h (.inl hpower)]
  case flushLast => rw [exec_scbFlushDone, scbFlushDone_stops h (.inr hnone)]
  case flushAgain => rw [exec_scbFlushDone, scbFlushDone_again h hpower hmore]
  case borer => rw [exec_borerMeasure, funext₂ borerOne_eq_pairMeasured]
  case dayEarly => rw [exec_wearDayEnd, wearDayEnd_early h]
  case day => rw [exec_wearDayEnd, wearDayEnd_ends h]
  case refills => rw [exec_arrayBudgetRefill, budgetRefill_eq, if_neg (Nat.not_le.mpr h)]
  case means => rw [exec_arrayBudgetRefill, budgetRefill_eq, if_pos h]
  case cool => rw [exec_thermalSample, thermalSample_shows (by omega) (by omega)]
  case warns => rw [exec_thermalSample, thermalSample_warns hhot hold]
  case warm => rw [exec_thermalSample, thermalSample_shows (by omega) (by omega)]
  case first => rw [exec_thermalSample, thermalSample_shows (by omega) (by omega)]
  case trips => rw [exec_thermalSample, thermalSample_trips hhot hold]
  case detects => rw [exec_detectedError, withUnit_there h]
  case noUnit => rw [exec_detectedError, withUnit_absent h]
  case corrected =>
    have hthere : errPointOk (.corrected k n) = true := decide_eq_true hk
    rw [exec_detectedError, withUnit_there hthere]
    rfl
  case parRole => exact runCommand_ends hready (rebuildBody_otherRole hrole)
  case parBusy => exact runCommand_ends hready (rebuildBody_running hrole hbusy)
  case parEmpty =>
    refine runCommand_ends hready (rebuildBody_empty hrole hidle ?_)
    rw [parSize_rebuildBegun]
    exact Nat.div_eq_of_lt hnone
  case parStarts =>
    refine runCommand_goesOn hready (rebuildBody_starts hrole hidle ?_)
    rw [parSize_rebuildBegun]
    exact (Nat.div_pos hsome (by decide)).ne'

end Sys2Proof.Machine
end

section
/-! PROOFS. Sub-ports, lasers and flexible links (R529, R538, R539, R542, R546, R396, R438). -/

namespace Sys2Proof.Machine

/-! ### Sub-ports and light (R529, R538) -/

section
variable {s : State} {p k : Nat}

theorem exec_subportUp (h : p < 8) (hk : k < subPorts s p) : exec (.subportUp p k) s = goesOn s (subportIs s p k false false true) :=
  withUnit_there (by rw [decide_eq_true h, decide_eq_true hk]; rfl)
theorem exec_subportDown (h : p < 8) (hk : k < subPorts s p) (lf rf : Bool) : exec (.subportDown p k lf rf) s = goesOn s (subportIs s p k lf rf false) :=
  withUnit_there (by rw [decide_eq_true h, decide_eq_true hk]; rfl)
theorem exec_cwLoss (h : p < 8) : exec (.cwLoss p) s = goesOn s (lightLost s p) := withUnit_there (decide_eq_true h)

theorem subport_absent (h : 8 ≤ p ∨ subPorts s p ≤ k) : (decide (p < 8) && decide (k < subPorts s p)) = false := by
  simp only [Bool.and_eq_false_iff, decide_eq_false_iff_not]
  exact h.imp Nat.not_lt.mpr Nat.not_lt.mpr

theorem exec_subportUp_absent (h : 8 ≤ p ∨ subPorts s p ≤ k) : exec (.subportUp p k) s = .fault .noSuchUnit := withUnit_absent (subport_absent h)
theorem exec_subportDown_absent (h : 8 ≤ p ∨ subPorts s p ≤ k) (lf rf : Bool) : exec (.subportDown p k lf rf) s = .fault .noSuchUnit :=
  withUnit_absent (subport_absent h)
theorem exec_cwLoss_absent (h : 8 ≤ p) : exec (.cwLoss p) s = .fault .noSuchUnit := withUnit_absent (decide_eq_false (Nat.not_lt.mpr h))

end

/-! ### Lasers (R538, R539) -/

section
variable {s : State} {p bias temp serial : Nat} {ok : Bool}

theorem exec_laserPoll (h : p < 8) (present : Bool) : exec (.laserPoll p present ok bias temp serial) s = goesOn s (laserPoll s p present ok bias temp serial) :=
  withUnit_there (decide_eq_true h)
theorem exec_laserPoll_absent (h : 8 ≤ p) (present : Bool) : exec (.laserPoll p present ok bias temp serial) s = .fault .noSuchUnit :=
  withUnit_absent (decide_eq_false (Nat.not_lt.mpr h))

theorem laserPoll_removed : laserPoll s p false ok bias temp serial =
    if s.r (ofPort p Reg.CWT_PORT_STATUS_LASER_PRES) == 1 then lightLost (moduleRead s p false ok 0 0) p else moduleRead s p false ok 0 0 := rfl

theorem laserPoll_read : laserPoll s p true ok bias temp serial =
    (let T := moduleRead s p true ok bias temp
     biasKept (match amGet p T.scb.mram.laserSerial with
       | some n => if n = serial then T else wearClear T (128 + p)
       | none => T) p bias serial) := rfl

section
variable {T : State} (hT : T = moduleRead s p true ok bias temp)
include hT

theorem laserPoll_first (h : amGet p T.scb.mram.laserSerial = none) : laserPoll s p true ok bias temp serial = biasKept T p bias serial := by
  simp only [laserPoll_read, ← hT, h]

theorem laserPoll_again (h : amGet p T.scb.mram.laserSerial = some serial) : laserPoll s p true ok bias temp serial = biasKept T p bias serial := by
  simp only [laserPoll_read, ← hT, h, if_true]

theorem laserPoll_changed {n : Nat} (hn : n ≠ serial) (h : amGet p T.scb.mram.laserSerial = some n) :
    laserPoll s p true ok bias temp serial = biasKept (wearClear T (128 + p)) p bias serial := by
  simp only [laserPoll_read, ← hT, h, if_neg hn]

end
end

/-! ### Flexible ports (R438, R542, R546) -/

section
variable {s : State} {q rate width hdm : Nat}

theorem exec_flexLinkDown (h : q < 8) : exec (.flexLinkDown q) s = goesOn s (flexLinkDown s q) := withUnit_there (decide_eq_true h)
theorem exec_flexRetrain (h : q < 8) : exec (.flexRetrain q rate width hdm) s = goesOn s (flexRetrain s q rate width hdm) := withUnit_there (decide_eq_true h)
theorem exec_deviceUnsupportedRequest (h : q < 8) : exec (.deviceUnsupportedRequest q) s = goesOn s (deviceUr s q) := withUnit_there (decide_eq_true h)

theorem flexUp_iff : flexUp s q = true ↔ s.r (ofFlex q Reg.HIF_FLEX_STATUS_LINK_UP) = 1 := beq_iff_eq

theorem flexLinkDown_down (h : s.r (ofFlex q Reg.HIF_FLEX_STATUS_LINK_UP) ≠ 1) : flexLinkDown s q = s := by
  have hdown : (!flexUp s q) = true := by
    rw [Bool.not_eq_true', Bool.eq_false_iff]
    exact fun hup => h (flexUp_iff.mp hup)
  rw [flexLinkDown, if_pos hdown]

/-- The state once a link that was up is down and recorded. -/
def linkGone (s : State) (q : Nat) : State :=
  let T := setFlex s q 0 0 0 (s.r (ofFlex q Reg.HIF_FLEX_STATUS_HDM_1G))
  flexRecord { T with cwt := { T.cwt with flexDown := amSet q (T.now, s.r (ofFlex q Reg.HIF_FLEX_STATUS_WIDTH)) T.cwt.flexDown } } q

theorem flexLinkDown_up (h : s.r (ofFlex q Reg.HIF_FLEX_STATUS_LINK_UP) = 1) : flexLinkDown s q =
    if (linkGone s q).r (ofFlex q Reg.HIF_FLEX_CFG_MODE) = 2 ∧ (linkGone s q).role = roleCache ∧ areaBehind (linkGone s q) q = true then
      areasLost (linkGone s q) Src.flexPort q
    else linkGone s q := by
  rw [flexLinkDown, flexUp_iff.mpr h, Bool.not_true, if_neg Bool.false_ne_true]
  rfl

theorem flexRetrain_waits (h : s.r (ofFlex q Reg.HIF_FLEX_STATUS_LINK_UP) = 1 ∨ s.r (ofFlex q Reg.HIF_FLEX_CFG_MODE) = 0
      ∨ s.now < (amGetD q (0, 0) s.cwt.flexDown).1 + 1000000000) : flexRetrain s q rate width hdm = s :=
  if_pos (h.imp_left flexUp_iff.mpr)

section
variable (hdown : s.r (ofFlex q Reg.HIF_FLEX_STATUS_LINK_UP) ≠ 1) (hmode : s.r (ofFlex q Reg.HIF_FLEX_CFG_MODE) ≠ 0)
  (htime : (amGetD q (0, 0) s.cwt.flexDown).1 + 1000000000 ≤ s.now)
include hdown hmode htime

theorem flexRetrain_tries : flexRetrain s q rate width hdm =
    if rate = 0 then { s with cwt := { s.cwt with flexDown := amSet q (s.now, (amGetD q (0, 0) s.cwt.flexDown).2) s.cwt.flexDown } }
    else boltsRetryAll (rxRetry (if width < (amGetD q (0, 0) s.cwt.flexDown).2 then flexRecord (flexTrained s q rate width hdm) q else flexTrained s q rate width hdm)) := by
  refine if_neg ?_
  rintro (h | h | h)
  · exact hdown (flexUp_iff.mp h)
  · exact hmode h
  · exact Nat.not_lt.mpr htime h

theorem flexRetrain_fails (hrate : rate = 0) :
    flexRetrain s q rate width hdm = { s with cwt := { s.cwt with flexDown := amSet q (s.now, (amGetD q (0, 0) s.cwt.flexDown).2) s.cwt.flexDown } } := by
  rw [flexRetrain_tries hdown hmode htime, if_pos hrate]

theorem flexRetrain_trains (hrate : rate ≠ 0) (hwidth : (amGetD q (0, 0) s.cwt.flexDown).2 ≤ width) :
    flexRetrain s q rate width hdm = boltsRetryAll (rxRetry (flexTrained s q rate width hdm)) := by
  rw [flexRetrain_tries hdown hmode htime, if_neg hrate, if_neg (Nat.not_lt.mpr hwidth)]

theorem flexRetrain_narrower (hrate : rate ≠ 0) (hwidth : width < (amGetD q (0, 0) s.cwt.flexDown).2) :
    flexRetrain s q rate width hdm = boltsRetryAll (rxRetry (flexRecord (flexTrained s q rate width hdm) q)) := by
  rw [flexRetrain_tries hdown hmode htime, if_neg hrate, if_pos hwidth]

end

theorem deviceUr_logged (h : s.r (ofFlex q Reg.HIF_FLEX_CFG_MODE) = 1 ∨ s.r (ofFlex q Reg.HIF_FLEX_CFG_MODE) = 3) :
    deviceUr s q = postFault s (faultRec Src.flexPort Act.recorded 4 q Status.fenced.code 0) := if_pos h

theorem deviceUr_ignored (h1 : s.r (ofFlex q Reg.HIF_FLEX_CFG_MODE) ≠ 1) (h3 : s.r (ofFlex q Reg.HIF_FLEX_CFG_MODE) ≠ 3) : deviceUr s q = s :=
  if_neg (not_or.mpr ⟨h1, h3⟩)

end

/-- Settles O57. -/
theorem portsAndLinksChange : Obligations.PortsAndLinksChange := by
  intro s
  refine ⟨fun p k => ⟨exec_subportUp, exec_subportUp_absent⟩, fun p k lf rf => ⟨fun h hk => exec_subportDown h hk lf rf, fun h => exec_subportDown_absent h lf rf⟩,
    fun p => ⟨exec_cwLoss, exec_cwLoss_absent⟩,
    fun p ok bias temp serial hp => ⟨fun hwas => ?removed, fun hwas => ?empty, fun h => ?first, fun h => ?again, fun n hn h => ?changed⟩,
    fun p present ok bias temp serial hp => exec_laserPoll_absent hp present,
    fun q hq => ⟨fun h => ?down, fun h => ⟨fun hmode hrole harea => ?areas, fun hno => ?recorded⟩⟩,
    fun q rate width hdm hq => ⟨fun h => ?waits, fun hdown hmode htime => ⟨fun hrate => ?fails, fun hrate hwidth => ?trains, fun hrate hwidth => ?narrower⟩⟩,
    fun q hq => ⟨fun h => ?logged, fun h1 h3 => ?ignored⟩, fun q rate width hdm hq => ⟨?_, ?_, ?_⟩⟩
  case removed => rw [exec_laserPoll hp, laserPoll_removed, if_pos (beq_iff_eq.mpr hwas)]
  case empty => rw [exec_laserPoll hp, laserPoll_removed, if_neg (fun hpres => hwas (beq_iff_eq.mp hpres))]
  case first => rw [exec_laserPoll hp, laserPoll_first rfl h]
  case again => rw [exec_laserPoll hp, laserPoll_again rfl h]
  case changed => rw [exec_laserPoll hp, laserPoll_changed rfl hn h]
  case down => rw [exec_flexLinkDown hq, flexLinkDown_down h]
  case areas =>
    rw [exec_flexLinkDown hq, flexLinkDown_up h]
    exact congrArg (goesOn s) (if_pos ⟨hmode, hrole, harea⟩)
  case recorded =>
    rw [exec_flexLinkDown hq, flexLinkDown_up h]
    refine congrArg (goesOn s) (if_neg ?_)
    rintro ⟨hmode, hrole, harea⟩
    rcases hno with hno | hno | hno
    · exact hno hmode
    · exact hno hrole
    · exact Bool.false_ne_true (hno.symm.trans harea)
  case waits => rw [exec_flexRetrain hq, flexRetrain_waits h]
  case fails => rw [exec_flexRetrain hq, flexRetrain_fails hdown hmode htime hrate]
  case trains => rw [exec_flexRetrain hq, flexRetrain_trains hdown hmode htime hrate hwidth]
  case narrower => rw [exec_flexRetrain hq, flexRetrain_narrower hdown hmode htime hrate hwidth]
  case logged => rw [exec_deviceUnsupportedRequest hq, deviceUr_logged h]
  case ignored => rw [exec_deviceUnsupportedRequest hq, deviceUr_ignored h1 h3]
  all_goals exact withUnit_absent (decide_eq_false (Nat.not_lt.mpr hq))

end Sys2Proof.Machine
end

section
/-! PROOFS. Power states (R555 to R560), resets and what they leave (R550 to R552, R566), start-up (R553, R554) and the power-fail flush (R492). -/

namespace Sys2Proof.Machine

theorem exec_powerTransitionDone (s : State) : exec .powerTransitionDone s = goesOn s (transitionDone s) := rfl
theorem exec_porAssert (s : State) : exec .porAssert s = goesOn s (porAssert s) := rfl
theorem exec_porRelease (s : State) : exec .porRelease s = goesOn s (porRelease s) := rfl
theorem exec_perst (s : State) : exec .perst s = goesOn s (perst s) := rfl
theorem exec_perstRelease (s : State) : exec .perstRelease s = goesOn s (perstRelease s) := rfl
theorem exec_hotReset (s : State) : exec .hotReset s = goesOn s (softReset s 3) := rfl
theorem exec_linkDown (s : State) : exec .linkDown s = goesOn s (linkDown s) := rfl
theorem exec_pfFlr (s : State) : exec .pfFlr s = goesOn s (softReset s 5) := rfl
theorem exec_refLoss (s : State) : exec .refLoss s = goesOn s (refLoss s) := rfl
theorem exec_refclkStable (s : State) :
    exec .refclkStable s = goesOn s { s with mgt := { s.mgt with boot := { s.mgt.boot with refOk := true } } } := rfl
theorem exec_startupStep {n : Nat} (h1 : 1 ≤ n) (h11 : n ≤ 11) (good : Nat) (vals : List (Nat × Nat)) (s : State) :
    exec (.startupStep n good vals) s = goesOn s (startupStep s n good vals) :=
  withUnit_there (by rw [decide_eq_true h1, decide_eq_true h11]; rfl)
theorem exec_pfail (s : State) : exec .pfail s = goesOn s (pfail s) := rfl

/-! ### PWR_STATE and its transition (R556, R557) -/

section
variable {c : Cmd} {T : State} {d : List Byte}

/-- PWR_STATE names the state that is entered already. -/
def AtState (T : State) (t mask : Nat) : Prop := t = T.r Reg.PWR_STATE_STATE ∧ (t ≠ 1 ∨ mask = T.r Reg.PWR_STATE_GATED)

theorem pwrStateBody_there (h : AtState T (bits c.arg0 0 3) (bits c.arg0 8 8)) :
    pwrStateBody c T d = (T, some { Done.ok with value := bits c.arg0 0 3 }) := if_pos h

variable (hother : ¬ AtState T (bits c.arg0 0 3) (bits c.arg0 8 8))
include hother

theorem pwrStateBody_refused (h : pwrFails T (bits c.arg0 0 3) (bits c.arg0 8 8) ≠ 0) :
    pwrStateBody c T d = (T, some { Done.of .conflict 0 with result := pwrFails T (bits c.arg0 0 3) (bits c.arg0 8 8) }) :=
  (if_neg hother).trans (if_pos h)

/-- The state once a transition is recorded, with its drain of 500 µs. -/
def powerAsked (T : State) (c : Cmd) : State :=
  let t := bits c.arg0 0 3
  let mask := bits c.arg0 8 8
  let cols := (maskCols (gatedIn t mask)).filter fun k => !bit (T.r Reg.PWR_STATE_GATED) k
  (({ T with mgt := { T.mgt with trans := some ⟨t, mask, c, cols, T.now + 500000⟩ } } : State).setR Reg.PWR_STATE_BUSY 1).setR Reg.PWR_STATE_TARGET t

theorem pwrStateBody_begins (h : pwrFails T (bits c.arg0 0 3) (bits c.arg0 8 8) = 0) :
    pwrStateBody c T d = (drainCheck (if 3 ≤ bits c.arg0 0 3 then scbStartFlush (powerAsked T c) else powerAsked T c), none) :=
  (if_neg hother).trans (if_neg (not_not_intro h))

end

section
variable {s : State}

theorem transitionDone_none (h : s.mgt.trans = none) : transitionDone s = s := by rw [transitionDone, h]

variable {t : PwrTrans} (h : s.mgt.trans = some t)
include h

theorem transitionDone_some : transitionDone s =
    (let W := powerEntered s t
     let X := if t.target ≤ 1 then setBucket W (bucketFull W) else W
     let Y := if 3 ≤ t.target then enterRetention X else X
     let Z := if t.target = 4 then dropSecrets Y else Y
     let C := completeCmd Z Op.PWR_STATE t.cmd { Done.ok with value := t.target }
     if t.target = 4 then C.emit (.pin .pwroffReqN false) else C) := by
  rw [transitionDone, h]; rfl

theorem transitionDone_running (ht : t.target ≤ 1) : transitionDone s =
    completeCmd (setBucket (powerEntered s t) (bucketFull (powerEntered s t))) Op.PWR_STATE t.cmd { Done.ok with value := t.target } := by
  simp only [transitionDone_some h, if_pos ht, if_neg (show ¬ 3 ≤ t.target by omega), if_neg (show ¬ t.target = 4 by omega)]

theorem transitionDone_idle (ht : t.target = 2) :
    transitionDone s = completeCmd (powerEntered s t) Op.PWR_STATE t.cmd { Done.ok with value := 2 } := by
  simp only [transitionDone_some h, ht, show ¬ (2 : Nat) ≤ 1 by decide, show ¬ (3 : Nat) ≤ 2 by decide, show ¬ (2 : Nat) = 4 by decide, if_false]

theorem transitionDone_retention (ht : t.target = 3) :
    transitionDone s = completeCmd (enterRetention (powerEntered s t)) Op.PWR_STATE t.cmd { Done.ok with value := 3 } := by
  simp only [transitionDone_some h, ht, show ¬ (3 : Nat) ≤ 1 by decide, show ¬ (3 : Nat) = 4 by decide, le_refl, if_true, if_false]

theorem transitionDone_off (ht : t.target = 4) : transitionDone s =
    (completeCmd (dropSecrets (enterRetention (powerEntered s t))) Op.PWR_STATE t.cmd { Done.ok with value := 4 }).emit (.pin .pwroffReqN false) := by
  simp only [transitionDone_some h, ht, show ¬ (4 : Nat) ≤ 1 by decide, show (3 : Nat) ≤ 4 by decide, if_true, if_false]

end

/-! ### What a reset leaves (R550 to R552) -/

/-- A lookup in the part of a map whose keys have a property. -/
theorem amGet_filter_key {α : Type} (p : Nat → Bool) (m : AMap α) (a : Nat) :
    amGet a (m.filter fun c => p c.1) = if p a then amGet a m else none := by
  induction m with
  | nil => simp only [List.filter_nil, amGet, ite_self]
  | cons c m ih =>
    obtain ⟨j, v⟩ := c
    by_cases hj : j = a
    · subst hj
      by_cases hp : p j = true
      · simp only [List.filter_cons, hp, if_true, amGet]
      · simp only [List.filter_cons, hp, if_false, Bool.false_eq_true, ih]
    · by_cases hp : p j = true
      · simp only [List.filter_cons, hp, if_true, amGet, if_neg hj, ih]
      · simp only [List.filter_cons, hp, if_false, Bool.false_eq_true, amGet, if_neg hj, ih]

/-- The part with all work gone, before the registers of its firmware and of the cause are set. -/
def resetCore (s : State) (cause : Nat) : State :=
  { State.reset with
    pending := s.pending, sent := s.sent, free := s.free,
    mem := s.mem.filter fun c => xaSpace c.1 == 1 || xaSpace c.1 == 3,
    regs := if cause == 1 then [] else s.regs.filter fun e => aoField e.1,
    hif := { State.reset.hif with dmaRefused := s.hif.dmaRefused },
    mgt := { State.reset.mgt with banks := s.mgt.banks, minSvn := s.mgt.minSvn, boot := { s.mgt.boot with done := [] } },
    scb := if cause == 1 then { State.reset.scb with mram := s.scb.mram } else { s.scb with intervalStart := 0, daySum := [], dayN := [], dayTime := 0 },
    kh := { State.reset.kh with kemGen := s.kh.kemGen } }

/-- That part with those registers set. -/
def resetShown (s : State) (cause : Nat) : State :=
  (fwRegs ((resetCore s cause).setR Reg.MGT_FW_STATUS_ACTIVE_BANK (bootBank s))).setR Reg.MGT_BOOT_STATUS_CAUSE cause

/-- The pins that a reset releases. -/
def resetPins (s t : State) : State :=
  let U := if s.mgt.thermalTrip then t.emit (.pin .thermtripN true) else t
  if pwr s = 4 then U.emit (.pin .pwroffReqN true) else U

theorem controllerReset_eq (s : State) (cause : Nat) : controllerReset s cause = resetPins s (resetShown s cause) := rfl

section
variable {s t : State} {cause : Nat} {b : Boot}

theorem ResetLeaves.emit (h : ResetLeaves s t cause b) (e : Emit) : ResetLeaves s (t.emit e) cause b := { h with }

/-- What holds the controller changes after its reset. -/
theorem ResetLeaves.holding (h : ResetLeaves s t cause b) (f : Boot → Boot) : ResetLeaves s { t with mgt := { t.mgt with boot := f t.mgt.boot } } cause (f b) :=
  { h with boot := congrArg f h.boot }

theorem ResetLeaves.keepQueue (h : ResetLeaves s t cause b) : ResetLeaves s (keepQueue s t) cause b := { h with queue := rfl }

theorem ResetLeaves.pins (h : ResetLeaves s t cause b) : ResetLeaves s (resetPins s t) cause b := by
  have htrip : ResetLeaves s (if s.mgt.thermalTrip then t.emit (.pin .thermtripN true) else t) cause b := by
    split
    · exact h.emit _
    · exact h
  unfold resetPins
  dsimp only
  split
  · exact htrip.emit _
  · exact htrip

theorem aoField_ne {f g : Fld} (hf : aoField f.key = true) (hg : aoField g.key = false) : f.key ≠ g.key := fun h => by
  rw [h, hg] at hf; exact nomatch hf

theorem resetShown_book {f : Fld} (hf : aoField f.key = true) (hcause : cause ≠ 1) : (resetShown s cause).r f = s.r f := by
  have hkept : (resetCore s cause).r f = s.r f := by
    simp only [State.r, regGet, resetCore, beq_eq_false_iff_ne.mpr hcause, Bool.false_eq_true, if_false, amGet_filter_key, hf, if_true]
  simp only [resetShown, fwRegs]
  rw [State.setR_r_other (aoField_ne hf (by decide)), State.setR_r_other (aoField_ne hf (by decide)), State.setR_r_other (aoField_ne hf (by decide)),
    State.setR_r_other (aoField_ne hf (by decide)), State.setR_r_other (aoField_ne hf (by decide)), hkept]

theorem resetShown_memory (a : Nat) :
    memRead (resetShown s cause).mem a = if xaSpace a = 1 ∨ xaSpace a = 3 then memRead s.mem a else memRead [] a := by
  have hmem : (resetShown s cause).mem = s.mem.filter fun c => xaSpace c.1 == 1 || xaSpace c.1 == 3 := rfl
  rw [hmem, memRead, amGet_filter_key (fun k => xaSpace k == 1 || xaSpace k == 3)]
  simp only [Bool.or_eq_true, beq_iff_eq]
  split <;> rfl

theorem resetShown_leaves (hcause : cause < 8) : ResetLeaves s (resetShown s cause) cause { s.mgt.boot with done := [] } where
  cause_is := (State.setR_r_same ..).trans (Nat.mod_eq_of_lt (lt_of_lt_of_le hcause (by decide)))
  time_zero := rfl
  queue := rfl
  boot := rfl
  memory := resetShown_memory
  requests := rfl
  tiers := rfl
  codec := rfl
  index := rfl
  exchange := rfl
  regions := rfl
  transport := rfl
  pool := rfl
  keys := rfl
  mram := by
    show (if cause == 1 then { State.reset.scb with mram := s.scb.mram } else { s.scb with intervalStart := 0, daySum := [], dayN := [], dayTime := 0 }).mram = _
    split <;> rfl
  records := by
    show (if cause == 1 then { State.reset.scb with mram := s.scb.mram } else { s.scb with intervalStart := 0, daySum := [], dayN := [], dayTime := 0 }).ring = _
    by_cases h : cause = 1
    · rw [if_pos h, if_pos (beq_iff_eq.mpr h)]; rfl
    · rw [if_neg h, if_neg (fun hb => h (beq_iff_eq.mp hb))]
  banks := ⟨rfl, rfl⟩
  book _ hf h := resetShown_book hf h

theorem controllerReset_leaves (s : State) (hcause : cause < 8) : ResetLeaves s (controllerReset s cause) cause { s.mgt.boot with done := [] } := by
  rw [controllerReset_eq]
  exact (resetShown_leaves hcause).pins

/-- A reset that is asked for outside PS4. -/
theorem softReset_leaves (hpwr : s.r Reg.PWR_STATE_STATE ≠ 4) (hcause : cause < 8) :
    ResetLeaves s (softReset s cause) cause { s.mgt.boot with done := [] } := by
  rw [softReset, pwr, if_neg hpwr]
  exact controllerReset_leaves s hcause

theorem softReset_off (hpwr : s.r Reg.PWR_STATE_STATE = 4) : softReset s cause = s := if_pos hpwr

theorem porAssert_leaves (s : State) : ResetLeaves s (porAssert s) 1 { s.mgt.boot with done := [], por := true } :=
  (controllerReset_leaves s (by decide)).holding fun B => { B with por := true }

theorem porRelease_leaves (s : State) : ResetLeaves s (porRelease s) 1 { s.mgt.boot with done := [], por := false } :=
  (controllerReset_leaves s (by decide)).holding fun B => { B with por := false }

theorem perst_leaves (hpwr : s.r Reg.PWR_STATE_STATE ≠ 4) : ResetLeaves s (perst s) 2 { s.mgt.boot with done := [], perst := true } := by
  rw [perst, pwr, if_neg hpwr]
  exact (controllerReset_leaves s (by decide)).holding fun B => { B with perst := true }

theorem perst_off (hpwr : s.r Reg.PWR_STATE_STATE = 4) : perst s = s := if_pos hpwr

theorem refLoss_leaves (hpwr : s.r Reg.PWR_STATE_STATE ≠ 4) : ResetLeaves s (refLoss s) 7 { s.mgt.boot with done := [], refOk := false } := by
  rw [refLoss, pwr, if_neg hpwr]
  exact (controllerReset_leaves s (by decide)).holding fun B => { B with refOk := false }

theorem refLoss_off (hpwr : s.r Reg.PWR_STATE_STATE = 4) : refLoss s = s := if_pos hpwr

end

/-! ### LINK_DOWN (R438, R551) -/

/-- What a scale-book record leaves unchanged: the management controller, the waiting commands and PWR_STATE. -/
structure BookOnly (s t : State) : Prop where
  mgt : t.mgt = s.mgt
  pending : t.pending = s.pending
  power : t.r Reg.PWR_STATE_STATE = s.r Reg.PWR_STATE_STATE

section
variable {s : State}

theorem bookOnly_sendMsix (s : State) (f vec : Nat) : BookOnly s (sendMsix s f vec) := by
  unfold sendMsix
  dsimp only
  split
  · exact ⟨rfl, rfl, rfl⟩
  · exact ⟨rfl, rfl, rfl⟩

theorem BookOnly.trans {s t u : State} (h : BookOnly s t) (h' : BookOnly t u) : BookOnly s u :=
  ⟨h'.mgt.trans h.mgt, h'.pending.trans h.pending, h'.power.trans h.power⟩

theorem bookOnly_setR {f : Fld} (hf : Reg.PWR_STATE_STATE.key ≠ f.key) (s : State) (v : Nat) : BookOnly s (s.setR f v) :=
  ⟨rfl, rfl, State.setR_r_other hf ..⟩

theorem bookOnly_setEvent {f : Fld} (hf : Reg.PWR_STATE_STATE.key ≠ f.key) (s : State) (cause : Nat) : BookOnly s (setEvent s f cause) := by
  unfold setEvent eventMessage
  dsimp only
  split
  · split
    · exact (bookOnly_setR hf s 1).trans (bookOnly_sendMsix ..)
    · exact bookOnly_setR hf s 1
  · exact ⟨rfl, rfl, rfl⟩

theorem bookOnly_startFlush (s : State) : BookOnly s (scbStartFlush s) := by
  unfold scbStartFlush
  split
  · exact ⟨rfl, rfl, rfl⟩
  · exact ⟨rfl, rfl, rfl⟩

theorem bookOnly_scbPut (s : State) (rec : ScbRec) : BookOnly s (scbPut s rec) := by
  unfold scbPut
  split
  · exact ⟨rfl, rfl, rfl⟩
  · split
    · have hcount : BookOnly s (s.cnt Reg.SCB_STATUS_DISCARDED 1) := bookOnly_setR (f := Reg.SCB_STATUS_DISCARDED) (by decide) s _
      exact hcount.trans (bookOnly_setEvent (by decide) ..)
    · dsimp only
      split
      · exact ⟨(bookOnly_startFlush _).mgt, (bookOnly_startFlush _).pending, (bookOnly_startFlush _).power⟩
      · exact ⟨rfl, rfl, rfl⟩

theorem bookOnly_scbNote (s : State) (r : FaultRec) : BookOnly s (scbNote s r) := by
  unfold scbNote scbEvent
  dsimp only
  split
  · exact ⟨rfl, rfl, rfl⟩
  · split
    · exact ⟨rfl, rfl, rfl⟩
    · exact bookOnly_scbPut ..

theorem linkDown_ignored (h : (s.fn 0).d3hot = true ∨ s.r Reg.PWR_STATE_STATE = 3 ∨ s.r Reg.PWR_STATE_STATE = 4) : linkDown s = s := if_pos h

theorem linkDown_leaves (hawake : (s.fn 0).d3hot = false) (h3 : s.r Reg.PWR_STATE_STATE ≠ 3) (h4 : s.r Reg.PWR_STATE_STATE ≠ 4) :
    ResetLeaves (linkRecord s) (linkDown s) 4 { s.mgt.boot with done := [] } := by
  have hgo : ¬ ((s.fn 0).d3hot = true ∨ pwr s = 3 ∨ pwr s = 4) := by
    rintro (h | h | h)
    · rw [hawake] at h; exact nomatch h
    · exact h3 h
    · exact h4 h
  have hbook : BookOnly s (linkRecord s) := bookOnly_scbNote ..
  have hreset := softReset_leaves (s := linkRecord s) (cause := 4) (by rw [hbook.power]; exact h4) (by decide)
  rw [hbook.mgt] at hreset
  rwa [linkDown, if_neg hgo]

end

/-! ### Start-up (R553, R554) -/

section
variable {s : State} {n good : Nat} {vals : List (Nat × Nat)}

/-- Nothing holds the part, the step has not ended, and those that it waits for have. -/
def StepFree (s : State) (n : Nat) : Prop :=
  s.mgt.boot.por = false ∧ s.mgt.boot.perst = false ∧ s.mgt.boot.refOk = true ∧ n ∉ s.mgt.boot.done ∧ (∀ k ∈ stepNeeds n, k ∈ s.mgt.boot.done)

theorem stepFree_iff : StepFree s n ↔
    ¬ (inReset s = true ∨ s.mgt.boot.done.contains n = true ∨ (!(stepNeeds n).all s.mgt.boot.done.contains) = true) := by
  simp [StepFree, inReset, and_assoc]

theorem startupStep_held (h : ¬ StepFree s n) : startupStep s n good vals = s := by
  rw [stepFree_iff, not_not] at h
  refine if_pos ?_
  rcases h with h | h | h
  · exact .inl h
  · exact .inr (.inl h)
  · exact .inr (.inr (.inl h))

theorem startupStep_recovery (h4 : 4 ≤ n) (h6 : n ≤ 6) (h : s.r Reg.MGT_BOOT_STATUS_RECOVERY = 1) : startupStep s n good vals = s :=
  if_pos (.inr (.inr (.inr ⟨h4, h6, h⟩)))

/-- The state once a step is marked as ended. -/
def stepEnded (s : State) (n : Nat) : State := { s with mgt := { s.mgt with boot := { s.mgt.boot with done := s.mgt.boot.done ++ [n] } } }

theorem startupStep_runs (h : StepFree s n) (hrec : s.r Reg.MGT_BOOT_STATUS_RECOVERY ≠ 1) :
    startupStep s n good vals = stepEffect (stepEnded s n) n good vals := by
  rw [stepFree_iff] at h
  refine if_neg ?_
  rintro (hno | hno | hno | ⟨-, -, hno⟩)
  · exact h (.inl hno)
  · exact h (.inr (.inl hno))
  · exact h (.inr (.inr hno))
  · exact hrec hno

variable (U : State)

theorem stepEffect_three : stepEffect U 3 good vals =
    match romBank U with
    | some k => if k = activeBank U then U else U.setR Reg.MGT_FW_STATUS_ACTIVE_BANK k
    | none => romRecovery U := rfl

theorem stepEffect_active (h : bankOk U (activeBank U) = true) : stepEffect U 3 good vals = U := by
  simp only [stepEffect_three, romBank, h, if_true]

theorem activeBank_ne_other : otherBank U ≠ activeBank U := by
  rw [otherBank]; omega

theorem stepEffect_other (h : bankOk U (activeBank U) = false) (h' : bankOk U (otherBank U) = true) :
    stepEffect U 3 good vals = U.setR Reg.MGT_FW_STATUS_ACTIVE_BANK (otherBank U) := by
  simp only [stepEffect_three, romBank, h, h', if_true, Bool.false_eq_true, if_false, if_neg (activeBank_ne_other U)]

theorem stepEffect_neither (h : bankOk U (activeBank U) = false) (h' : bankOk U (otherBank U) = false) : stepEffect U 3 good vals = romRecovery U := by
  simp only [stepEffect_three, romBank, h, h', Bool.false_eq_true, if_false]

theorem stepEffect_five : stepEffect U 5 good [] =
    (U.setR Reg.MGT_BOOT_STATUS_LOCKED 1).setR Reg.KEY_STATUS_APPROVED ((U.setR Reg.MGT_BOOT_STATUS_LOCKED 1).r Reg.KEY_POLICY_APPROVED) := by
  rw [State.setR_r_other (by decide)]; rfl

/-- The boot record does not speak of READY. -/
theorem bootRecord_ready : bootRecord (U.setR Reg.MGT_BOOT_STATUS_READY 1) = bootRecord U := by
  simp only [bootRecord, activeBank]
  rw [State.setR_r_other (by decide), State.setR_r_other (by decide), State.setR_r_other (by decide), State.setR_r_other (by decide)]
  rfl

theorem stepEffect_eleven : stepEffect U 11 good vals =
    scbPut (U.setR Reg.MGT_BOOT_STATUS_READY 1) (bootRecord (U.setR Reg.MGT_BOOT_STATUS_READY 1)) := by
  rw [bootRecord_ready]; rfl

end

/-! ### PFAIL (R492) -/

section
variable {s : State}

theorem pfail_again (h : s.scb.pfailing = true) : pfail s = s := if_pos h

/-- The power-fail flush begun, on the state W that the abandoned flush leaves. -/
def pfailBegun (W : State) : State :=
  let V := scbPut W (pfailRecord W)
  { V with scb := { V.scb with pfailing := true, flushing := true, flush := scbSelect V } }

theorem pfail_idle (h : s.scb.pfailing = false) (hidle : s.scb.flushing = false) :
    pfail s = pfailBegun { s with scb := { s.scb with flush := [], flushing := false } } := by
  rw [pfail, h, if_neg Bool.false_ne_true, hidle]
  rfl

theorem pfail_flushing {k : Nat} {l : List Nat} {r : ScbRec} (h : s.scb.pfailing = false) (hbusy : s.scb.flushing = true) (hflush : s.scb.flush = k :: l)
    (hr : amGet k s.scb.ring = some r) :
    pfail s = pfailBegun { s with scb := { s.scb with flush := [], flushing := false, mram := mramPut s.scb.mram { r with flushed := true },
                                                      ring := amSet k { r with flushed := true } s.scb.ring } } := by
  have hone : flushAll { s.scb with flush := [], flushing := false } [k] =
      { s.scb with flush := [], flushing := false, mram := mramPut s.scb.mram { r with flushed := true }, ring := amSet k { r with flushed := true } s.scb.ring } := by
    simp only [flushAll, hr]
  rw [pfail, h, if_neg Bool.false_ne_true, hbusy, hflush]
  simp only [hone]
  rfl

end

/-- Settles O50. -/
theorem powerResetsAndStartup : Obligations.PowerResetsAndStartup := by
  intro s c
  refine ⟨fun hready => ⟨fun hthere => ?there, fun hother hfails => ?refused, fun hother hok => ?begins⟩,
    ⟨fun h => ?noTransition, fun t ht => ⟨fun h1 => ?running, fun h2 => ?idle, fun h3 => ?retention, fun h4 => ?off⟩⟩, ?asserts, ?released,
    fun h4 => ⟨?_, ?_, ?_, ?_, ?_⟩, fun h4 => ⟨?perst, ?hot, fun h => ?linkHeld, fun hawake h3 => ?link, ?flr, ?lost⟩, exec_perstRelease s, exec_refclkStable s,
    fun n good vals h1 h11 => ⟨fun hheld => ?held, fun hfour hsix hrec => ?recovery, fun hfree hrec => ?runs⟩,
    fun h => ?again, fun h hidle => ?fails, fun k l r h hbusy hflush hr => ?flushing⟩
  case there => exact runCommand_ends hready (pwrStateBody_there hthere)
  case refused => exact runCommand_ends hready (pwrStateBody_refused hother hfails)
  case begins => exact runCommand_goesOn hready (pwrStateBody_begins hother hok)
  case noTransition => rw [exec_powerTransitionDone, transitionDone_none h]
  case running => rw [exec_powerTransitionDone, transitionDone_running ht h1]; rfl
  case idle => rw [exec_powerTransitionDone, transitionDone_idle ht h2]; rfl
  case retention => rw [exec_powerTransitionDone, transitionDone_retention ht h3]; rfl
  case off => rw [exec_powerTransitionDone, transitionDone_off ht h4]
  case asserts => exact ⟨_, exec_porAssert s, (porAssert_leaves s).keepQueue⟩
  case released => exact ⟨_, exec_porRelease s, (porRelease_leaves s).keepQueue⟩
  · rw [exec_perst, perst_off h4]
  · rw [exec_hotReset, softReset_off h4]
  · rw [exec_linkDown, linkDown_ignored (.inr (.inr h4))]
  · rw [exec_pfFlr, softReset_off h4]
  · rw [exec_refLoss, refLoss_off h4]
  case perst => exact ⟨_, exec_perst s, (perst_leaves h4).keepQueue⟩
  case hot => exact ⟨_, exec_hotReset s, (softReset_leaves h4 (by decide)).keepQueue⟩
  case linkHeld => rw [exec_linkDown, linkDown_ignored (h.imp_right .inl)]
  case link =>
    have hleaves := linkDown_leaves hawake h3 h4
    exact ⟨_, exec_linkDown s, { hleaves with queue := (bookOnly_scbNote s _).pending.symm }⟩
  case flr => exact ⟨_, exec_pfFlr s, (softReset_leaves h4 (by decide)).keepQueue⟩
  case lost => exact ⟨_, exec_refLoss s, (refLoss_leaves h4).keepQueue⟩
  case held => rw [exec_startupStep h1 h11, startupStep_held hheld]
  case recovery => rw [exec_startupStep h1 h11, startupStep_recovery hfour hsix hrec]
  case runs =>
    rw [exec_startupStep h1 h11, startupStep_runs hfree hrec]
    refine ⟨fun hn => ?_, fun hn => ?_, fun hn hok => ?_, fun hn hbad hok => ?_, fun hn hbad hother => ?_, fun hn hvals => ?_, fun hn => ?_, fun hn hvals => ?_,
      fun hn => ?_⟩ <;> subst hn
    · rfl
    · rfl
    · exact congrArg (goesOn s) (stepEffect_active _ hok)
    · exact congrArg (goesOn s) (stepEffect_other _ hbad hok)
    · exact congrArg (goesOn s) (stepEffect_neither _ hbad hother)
    · subst hvals; exact congrArg (goesOn s) (stepEffect_five _)
    · rfl
    · subst hvals; rfl
    · exact congrArg (goesOn s) (stepEffect_eleven _)
  case again => rw [exec_pfail, pfail_again h]
  case fails => rw [exec_pfail, pfail_idle h hidle]; rfl
  case flushing => rw [exec_pfail, pfail_flushing h hbusy hflush hr]; rfl

end Sys2Proof.Machine
end

section
/-! PROOFS. Accesses downstream (R543), MACsec slots (R537), port switches (R529, R539), windows (R398, R400), the admin pair (R500, R505), the reset key (R551, R560) and HIF_EVT_CFG (R525). -/

namespace Sys2Proof.Machine

theorem exec_flexIndStart {q : Nat} (h : q < 8) (v : Nat) (s : State) : exec (.flexIndStart q v) s = goesOn s (flexIndStart s q v) := withUnit_there (decide_eq_true h)
theorem exec_flexIndDone {q : Nat} (h : q < 8) (result data : Nat) (s : State) : exec (.flexIndDone q result data) s = goesOn s (flexIndDone s q result data) :=
  withUnit_there (decide_eq_true h)
theorem exec_macsecSaWrite {p n k : Nat} (hp : p < 8) (hn : n < 2) (hk : k < 8) (v : Nat) (s : State) :
    exec (.macsecSaWrite p n k v) s = goesOn s (macsecSaWrite s p n k v) :=
  withUnit_there (by rw [decide_eq_true hp, decide_eq_true hn, decide_eq_true hk]; rfl)
theorem exec_laserEnWrite {p : Nat} (h : p < 8) (v : Nat) (s : State) : exec (.laserEnWrite p v) s = goesOn s (portCfgWrite s p v) := withUnit_there (decide_eq_true h)
theorem exec_xwEnableWrite {w : Nat} (h : w < 64) (v : Nat) (s : State) : exec (.xwEnableWrite w v) s = goesOn s (xwEnableWrite s w v) := withUnit_there (decide_eq_true h)
theorem exec_admqEnableWrite {f : Nat} (h : f < 64) (v : Nat) (s : State) : exec (.admqEnableWrite f v) s = goesOn s (admqWrite s f v) := withUnit_there (decide_eq_true h)
theorem exec_pwrReset (v : Nat) (s : State) : exec (.pwrReset v) s = goesOn s (if v % 256 = 0xA5 then softReset s 6 else s) := rfl

/-! ### Fields of one register (R5, R8) -/

/-- Fields at different bits have different keys, whatever their registers. -/
theorem key_ne_of_lo {f g : Fld} (hf : f.lo < 64) (hg : g.lo < 64) (h : f.lo ≠ g.lo) : f.key ≠ g.key := by
  simp only [Fld.key]
  omega

/-- What a field of a copied register reads after a write of another bit of the same or another register. -/
theorem State.setR_r_at {f g : Fld} (h : f.lo < 64 ∧ g.lo < 64 ∧ f.lo ≠ g.lo) (s : State) (st i v : Nat) :
    (s.setR (g.at st i) v).r (f.at st i) = s.r (f.at st i) := by
  obtain ⟨hf, hg, hne⟩ := h
  exact State.setR_r_other (key_ne_of_lo (f := f.at st i) (g := g.at st i) hf hg hne) ..

theorem State.setR_fr_lo {f g : Fld} (h : f.lo < 64 ∧ g.lo < 64 ∧ f.lo ≠ g.lo) (s : State) (fn v : Nat) : (s.setR (g.ofFn fn) v).fr fn f = s.fr fn f := by
  have hkeys : (f.ofFn fn).key ≠ (g.ofFn fn).key := by
    rw [← Fld.ofFn_lo f fn, ← Fld.ofFn_lo g fn] at h
    exact key_ne_of_lo h.1 h.2.1 h.2.2
  rw [State.fr, State.setR_r_other hkeys, State.fr]

/-- A field holds the bits of a word that are its own. -/
theorem State.setR_r_bits (s : State) (f : Fld) (v lo : Nat) : (s.setR f (bits v lo f.w)).r f = bits v lo f.w :=
  (State.setR_r_same ..).trans (Nat.mod_eq_of_lt (bits_lt ..))

theorem keepQueue_r (s t : State) (f : Fld) : (keepQueue s t).r f = t.r f := by rw [State.r, keepQueue_regs, State.r]

/-! ### Accesses downstream (R543) -/

section
variable {s : State} {q v : Nat}

theorem flexIndStart_busy (h : s.r (Reg.HIF_FLEX_IND_CTL_BUSY.at 0x20 q) = 1) : flexIndStart s q v = s := if_pos h

/-- The state once an access has begun, before it is sent. -/
def indBegun (s : State) (q v : Nat) : State :=
  (((({ s with cwt := { s.cwt with indAt := amSet q s.now s.cwt.indAt } } : State).setR (Reg.HIF_FLEX_IND_CTL_CFG.at 0x20 q) (bits v 60 1)).setR
    (Reg.HIF_FLEX_IND_CTL_WRITE.at 0x20 q) (bits v 59 1)).setR (Reg.HIF_FLEX_IND_CTL_ADDR.at 0x20 q) (bits v 3 48)).setR (Reg.HIF_FLEX_IND_CTL_BUSY.at 0x20 q) 1

/-- The port's fields outside the control word are as before. -/
theorem indBegun_r_other {f : Fld} (h : f.lo < 64 ∧ f.lo ≠ 60 ∧ f.lo ≠ 59 ∧ f.lo ≠ 3 ∧ f.lo ≠ 63) : (indBegun s q v).r (f.at 0x20 q) = s.r (f.at 0x20 q) := by
  obtain ⟨hlo, hcfg, hwrite, haddr, hbusy⟩ := h
  rw [indBegun, State.setR_r_at ⟨hlo, by decide, hbusy⟩, State.setR_r_at ⟨hlo, by decide, haddr⟩, State.setR_r_at ⟨hlo, by decide, hwrite⟩,
    State.setR_r_at ⟨hlo, by decide, hcfg⟩]
  rfl

theorem indBegun_busy : (indBegun s q v).r (Reg.HIF_FLEX_IND_CTL_BUSY.at 0x20 q) = 1 := by
  rw [indBegun, State.setR_r_same]; rfl

theorem indBegun_cfg : (indBegun s q v).r (Reg.HIF_FLEX_IND_CTL_CFG.at 0x20 q) = bits v 60 1 := by
  rw [indBegun, State.setR_r_at (by decide), State.setR_r_at (by decide), State.setR_r_at (by decide)]
  exact State.setR_r_bits ..

theorem indBegun_write : (indBegun s q v).r (Reg.HIF_FLEX_IND_CTL_WRITE.at 0x20 q) = bits v 59 1 := by
  rw [indBegun, State.setR_r_at (by decide), State.setR_r_at (by decide)]
  exact State.setR_r_bits ..

theorem indBegun_addr : (indBegun s q v).r (Reg.HIF_FLEX_IND_CTL_ADDR.at 0x20 q) = bits v 3 48 := by
  rw [indBegun, State.setR_r_at (by decide)]
  exact State.setR_r_bits ..

/-- The state once the access is sent where the port is live. -/
def indSent (s : State) (q v : Nat) : State :=
  { indBegun s q v with sent := if portLive s q = true then
      s.sent ++ [.indirect q (8 * bits v 3 48) (bit v 60) (bit v 59) (s.r (Reg.HIF_FLEX_IND_DATA_DATA.at 0x20 q))] else s.sent }

theorem indSent_r (f : Fld) : (indSent s q v).r f = (indBegun s q v).r f := rfl
theorem indSent_indAt : amGet q (indSent s q v).cwt.indAt = some s.now := amGet_set_same ..
theorem indSent_mem : (indSent s q v).mem = s.mem := rfl

theorem flexIndStart_starts (h : s.r (Reg.HIF_FLEX_IND_CTL_BUSY.at 0x20 q) ≠ 1) : flexIndStart s q v = indSent s q v := by
  have hlive : portLive (indBegun s q v) q = portLive s q := by
    simp only [portLive, indBegun_r_other (f := Reg.HIF_FLEX_STATUS_LINK_UP) (by decide)]
  have hdata : (indBegun s q v).r (Reg.HIF_FLEX_IND_DATA_DATA.at 0x20 q) = s.r (Reg.HIF_FLEX_IND_DATA_DATA.at 0x20 q) := indBegun_r_other (by decide)
  have hbegun : flexIndStart s q v = if portLive (indBegun s q v) q then
      (indBegun s q v).emit (.indirect q (8 * bits v 3 48) (bit v 60) (bit v 59) ((indBegun s q v).r (Reg.HIF_FLEX_IND_DATA_DATA.at 0x20 q)))
    else indBegun s q v := if_neg h
  rw [hbegun, hlive, hdata, indSent]
  split <;> rfl

theorem flexIndDone_ignored {result : Nat} (h : s.r (Reg.HIF_FLEX_IND_CTL_BUSY.at 0x20 q) = 0 ∨ 3 < result
      ∨ (result = 3 ∧ s.now < amGetD q 0 s.cwt.indAt + 50000000)) : flexIndDone s q result v = s := if_pos h

variable {result : Nat}

/-- The data register's value after the end of a good read. -/
def indData (s : State) (q data : Nat) : Nat :=
  if s.r (Reg.HIF_FLEX_IND_CTL_CFG.at 0x20 q) = 1 then s.r (Reg.HIF_FLEX_IND_DATA_DATA.at 0x20 q) / 2 ^ 32 * 2 ^ 32 + data % 2 ^ 32 else data

/-- The state once a good read's data has been taken, and once the access has ended. -/
def indTaken (s : State) (q result data : Nat) : State :=
  if s.r (Reg.HIF_FLEX_IND_CTL_WRITE.at 0x20 q) = 0 ∧ result = 0 then s.setR (Reg.HIF_FLEX_IND_DATA_DATA.at 0x20 q) (indData s q data) else s
def indEnded (s : State) (q result data : Nat) : State :=
  (({ indTaken s q result data with cwt := { (indTaken s q result data).cwt with indAt := amErase q (indTaken s q result data).cwt.indAt } } : State).setR
    (Reg.HIF_FLEX_IND_CTL_BUSY.at 0x20 q) 0).setR (Reg.HIF_FLEX_IND_CTL_RESULT.at 0x20 q) result

theorem flexIndDone_ends (hbusy : s.r (Reg.HIF_FLEX_IND_CTL_BUSY.at 0x20 q) ≠ 0)
    (h : result < 3 ∨ (result = 3 ∧ amGetD q 0 s.cwt.indAt + 50000000 ≤ s.now)) : flexIndDone s q result v = indEnded s q result v := by
  refine if_neg ?_
  rintro (hno | hno | hno)
  · exact hbusy hno
  · omega
  · omega

theorem indTaken_mem : (indTaken s q result v).mem = s.mem := by unfold indTaken; split <;> rfl
theorem indTaken_sent : (indTaken s q result v).sent = s.sent := by unfold indTaken; split <;> rfl
theorem indEnded_mem : (indEnded s q result v).mem = s.mem := indTaken_mem
theorem indEnded_sent : (indEnded s q result v).sent = s.sent := indTaken_sent

theorem indEnded_busy : (indEnded s q result v).r (Reg.HIF_FLEX_IND_CTL_BUSY.at 0x20 q) = 0 := by
  rw [indEnded, State.setR_r_at (by decide), State.setR_r_same]; rfl

theorem indEnded_result (h : result ≤ 3) : (indEnded s q result v).r (Reg.HIF_FLEX_IND_CTL_RESULT.at 0x20 q) = result := by
  rw [indEnded, State.setR_r_same]
  exact Nat.mod_eq_of_lt (Nat.lt_succ_of_le h)

theorem indEnded_data : (indEnded s q result v).r (Reg.HIF_FLEX_IND_DATA_DATA.at 0x20 q) = (indTaken s q result v).r (Reg.HIF_FLEX_IND_DATA_DATA.at 0x20 q) := by
  rw [indEnded, State.setR_r_at (by decide), State.setR_r_at (by decide)]; rfl

theorem indTaken_read (hread : s.r (Reg.HIF_FLEX_IND_CTL_WRITE.at 0x20 q) = 0) (hgood : result = 0) :
    (indTaken s q result v).r (Reg.HIF_FLEX_IND_DATA_DATA.at 0x20 q) = indData s q v % 2 ^ 64 := by
  rw [indTaken, if_pos ⟨hread, hgood⟩]
  exact State.setR_r_same ..

theorem indTaken_other (h : s.r (Reg.HIF_FLEX_IND_CTL_WRITE.at 0x20 q) ≠ 0 ∨ result ≠ 0) : indTaken s q result v = s :=
  if_neg fun ⟨hread, hgood⟩ => h.elim (· hread) (· hgood)

theorem indData_memory (h : s.r (Reg.HIF_FLEX_IND_CTL_CFG.at 0x20 q) ≠ 1) : indData s q v = v := if_neg h

theorem indData_config (h : s.r (Reg.HIF_FLEX_IND_CTL_CFG.at 0x20 q) = 1) : indData s q v % 2 ^ 64 % 2 ^ 32 = v % 2 ^ 32 := by
  rw [indData, if_pos h]
  omega

end

/-! ### MACsec slots (R537) and port switches (R529, R539) -/

section
variable {s : State} {p v : Nat}

/-- The fields of CWT_PORT_CFG that are taken only while the port is not enabled. -/
def portIdleSet (s : State) (p v : Nat) : State :=
  if s.r (Reg.CWT_PORT_CFG_ENABLE.at 0x100 p) == 1 then s
  else ((s.setR (Reg.CWT_PORT_CFG_MACSEC.at 0x100 p) (bits v 29 1)).setR (Reg.CWT_PORT_CFG_BREAKOUT.at 0x100 p) (bits v 24 2)).setR
    (Reg.CWT_PORT_CFG_SUB_EN.at 0x100 p) (bits v 16 8)

theorem portCfgWrite_eq : portCfgWrite s p v =
    ((((portIdleSet s p v).setR (Reg.CWT_PORT_CFG_ENABLE.at 0x100 p) (bits v 31 1)).setR (Reg.CWT_PORT_CFG_LASER_EN.at 0x100 p) (bits v 30 1)).setR
      (Reg.CWT_PORT_CFG_CAL_DWELL_10MS.at 0x100 p) (bits v 8 8)).setR (Reg.CWT_PORT_CFG_UP_HOLD_MS.at 0x100 p) (bits v 0 8) := rfl

theorem portCfgWrite_enable : (portCfgWrite s p v).r (Reg.CWT_PORT_CFG_ENABLE.at 0x100 p) = bits v 31 1 := by
  rw [portCfgWrite_eq, State.setR_r_at (by decide), State.setR_r_at (by decide), State.setR_r_at (by decide)]
  exact State.setR_r_bits ..

theorem portCfgWrite_laser : (portCfgWrite s p v).r (Reg.CWT_PORT_CFG_LASER_EN.at 0x100 p) = bits v 30 1 := by
  rw [portCfgWrite_eq, State.setR_r_at (by decide), State.setR_r_at (by decide)]
  exact State.setR_r_bits ..

/-- The fields that an enabled port keeps are those taken before the others. -/
theorem portCfgWrite_r_idle {f : Fld} (h : f.lo < 64 ∧ f.lo ≠ 31 ∧ f.lo ≠ 30 ∧ f.lo ≠ 8 ∧ f.lo ≠ 0) :
    (portCfgWrite s p v).r (f.at 0x100 p) = (portIdleSet s p v).r (f.at 0x100 p) := by
  obtain ⟨hlo, henable, hlaser, hdwell, hhold⟩ := h
  rw [portCfgWrite_eq, State.setR_r_at ⟨hlo, by decide, hhold⟩, State.setR_r_at ⟨hlo, by decide, hdwell⟩, State.setR_r_at ⟨hlo, by decide, hlaser⟩,
    State.setR_r_at ⟨hlo, by decide, henable⟩]

theorem portIdleSet_on (h : s.r (Reg.CWT_PORT_CFG_ENABLE.at 0x100 p) = 1) : portIdleSet s p v = s := if_pos (beq_iff_eq.mpr h)

theorem portIdleSet_off (h : s.r (Reg.CWT_PORT_CFG_ENABLE.at 0x100 p) ≠ 1) : portIdleSet s p v =
    ((s.setR (Reg.CWT_PORT_CFG_MACSEC.at 0x100 p) (bits v 29 1)).setR (Reg.CWT_PORT_CFG_BREAKOUT.at 0x100 p) (bits v 24 2)).setR
      (Reg.CWT_PORT_CFG_SUB_EN.at 0x100 p) (bits v 16 8) := if_neg fun hon => h (beq_iff_eq.mp hon)

section
variable (h : s.r (Reg.CWT_PORT_CFG_ENABLE.at 0x100 p) ≠ 1)
include h

theorem portIdleSet_macsec : (portIdleSet s p v).r (Reg.CWT_PORT_CFG_MACSEC.at 0x100 p) = bits v 29 1 := by
  rw [portIdleSet_off h, State.setR_r_at (by decide), State.setR_r_at (by decide)]
  exact State.setR_r_bits ..

theorem portIdleSet_breakout : (portIdleSet s p v).r (Reg.CWT_PORT_CFG_BREAKOUT.at 0x100 p) = bits v 24 2 := by
  rw [portIdleSet_off h, State.setR_r_at (by decide)]
  exact State.setR_r_bits ..

theorem portIdleSet_subEn : (portIdleSet s p v).r (Reg.CWT_PORT_CFG_SUB_EN.at 0x100 p) = bits v 16 8 := by
  rw [portIdleSet_off h]
  exact State.setR_r_bits ..

end

/-- What a state holds besides its registers, on the registers and waiting commands of s. -/
def besidesRegs (s t : State) : State := { keepQueue s t with regs := s.regs }

theorem besidesRegs_setR (s t : State) (f : Fld) (x : Nat) : besidesRegs s (t.setR f x) = besidesRegs s t := rfl
theorem besidesRegs_self (s : State) : besidesRegs s s = s := rfl

/-- A write of CWT_PORT_CFG changes registers alone. -/
theorem portCfgWrite_besidesRegs : besidesRegs s (portCfgWrite s p v) = s := by
  simp only [portCfgWrite_eq, portIdleSet, besidesRegs_setR]
  split
  · exact besidesRegs_self s
  · simp only [besidesRegs_setR, besidesRegs_self]

theorem macsecSaWrite_word {n k : Nat} (hk : k ≠ 7) : macsecSaWrite s p n k v =
    setSa s p n { saSlot s p n with bytes := (saSlot s p n).bytes.take (8 * k) ++ leBytes 8 v ++ (saSlot s p n).bytes.drop (8 * k + 8) } := if_neg hk

theorem macsecSaWrite_last {n : Nat} : macsecSaWrite s p n 7 v =
    (setSa s p n ⟨(saSlot s p n).bytes.take 56 ++ leBytes 8 v ++ (saSlot s p n).bytes.drop 64, true, 1, 0⟩).setR
      ((if n = 0 then Reg.CWT_PORT_MACSEC_VALID0 else Reg.CWT_PORT_MACSEC_VALID1).at 0x100 p) 1 := rfl

end

/-! ### Windows (R398, R400, R471, R542) -/

section
variable {s : State} {w v : Nat}

theorem xwEnableWrite_keeps (hon : winOn s w = true) (hv : bit v 63 = true) : xwEnableWrite s w v = s := by
  simp only [xwEnableWrite, hon, hv, if_true]

theorem xwEnableWrite_closes (hon : winOn s w = true) (hv : bit v 63 = false) : xwEnableWrite s w v =
    (((s.setR (Reg.HIF_XW_CFG_ENABLE.at 0x40 w) 0).win w).waiting.filter (fun r => r.kind != 4)).foldl (fun s r => stallBegin s r.handle St.exchange)
      (s.setR (Reg.HIF_XW_CFG_ENABLE.at 0x40 w) 0) := by
  simp only [xwEnableWrite, hon, hv, if_true, Bool.false_eq_true, if_false]

/-- The window's fields as a write sets them while it is off. -/
def windowSet (s : State) (w v : Nat) : State :=
  (((s.setR (Reg.HIF_XW_CFG_PORT.at 0x40 w) (bits v 56 4)).setR (Reg.HIF_XW_CFG_SLOTS.at 0x40 w) (bits v 48 8)).setR (Reg.HIF_XW_CFG_SLOT_64K.at 0x40 w)
    (bits v 32 16)).setR (Reg.HIF_XW_CFG_MODEL.at 0x40 w) (bits v 0 16)

/-- The slots of a window fit, and the window may open: it has a registered model and a port that may serve it. -/
def SlotsFit (v : Nat) : Prop := 0x10000 + min 64 (max 2 (bits v 48 8)) * (max 1 (bits v 32 16) * 65536) ≤ 0x10000000
def MayOpen (U : State) (w v : Nat) : Prop :=
  bits v 0 16 ≠ 0 ∧ amHas (bits v 0 16) U.sch.models = true
    ∧ (winPort U w < 8 → U.r (Reg.HIF_FLEX_CFG_MODE.at 0x20 (winPort U w)) ≠ 2 ∧ (U.r Reg.KEY_POLICY_REQUIRE_IDE ≠ 1 ∨ portSecure U (winPort U w) = true))

/-- Why a write leaves the window off. -/
def windowKept (U : State) (w v : Nat) : Bool :=
  !bit v 63 || bits v 0 16 == 0 || !amHas (bits v 0 16) U.sch.models
    || (U.r Reg.KEY_POLICY_REQUIRE_IDE == 1 && decide (winPort U w < 8) && !portSecure U (winPort U w))
    || (decide (winPort U w < 8) && U.r (Reg.HIF_FLEX_CFG_MODE.at 0x20 (winPort U w)) == 2)

theorem windowKept_iff (U : State) : windowKept U w v = true ↔ bit v 63 = false ∨ ¬ MayOpen U w v := by
  simp only [windowKept, MayOpen, Bool.or_eq_true, Bool.and_eq_true, Bool.not_eq_true', decide_eq_true_eq, beq_iff_eq, ← Bool.not_eq_true]
  tauto

section
variable (hoff : winOn s w = false)
include hoff

theorem xwEnableWrite_overflows (hno : ¬ SlotsFit v) : xwEnableWrite s w v = s := by
  have hfit : slotsFit (min 64 (max 2 (bits v 48 8))) (max 1 (bits v 32 16) * 65536) = false := decide_eq_false hno
  simp only [xwEnableWrite, hoff, hfit, Bool.false_eq_true, if_false, Bool.not_false, if_true]

variable (hfits : SlotsFit v)
include hfits

theorem xwEnableWrite_off : xwEnableWrite s w v =
    if windowKept (windowSet s w v) w v then windowSet s w v
    else
      let V := (windowSet s w v).setR (Reg.HIF_XW_CFG_ENABLE.at 0x40 w) 1
      bindUnbound (V.setWin w { V.win w with rcount := 0, rhead := 0, dcount := 0 }) (bits v 0 16) := by
  have hfit : slotsFit (min 64 (max 2 (bits v 48 8))) (max 1 (bits v 32 16) * 65536) = true := decide_eq_true hfits
  rw [xwEnableWrite, hoff, if_neg Bool.false_ne_true]
  dsimp only
  rw [hfit, Bool.not_true, if_neg Bool.false_ne_true]
  rfl

theorem xwEnableWrite_sets (h : bit v 63 = false ∨ ¬ MayOpen (windowSet s w v) w v) : xwEnableWrite s w v = windowSet s w v := by
  rw [xwEnableWrite_off hoff hfits, if_pos ((windowKept_iff _).mpr h)]

theorem xwEnableWrite_opens (hv : bit v 63 = true) (hmay : MayOpen (windowSet s w v) w v) : xwEnableWrite s w v =
    (let V := (windowSet s w v).setR (Reg.HIF_XW_CFG_ENABLE.at 0x40 w) 1
     bindUnbound (V.setWin w { V.win w with rcount := 0, rhead := 0, dcount := 0 }) (bits v 0 16)) := by
  rw [xwEnableWrite_off hoff hfits, if_neg]
  rw [windowKept_iff]
  rintro (h | h)
  · rw [hv] at h; exact nomatch h
  · exact h hmay

end
end

/-! ### The admin pair (R500, R505) -/

section
variable {s : State} {f v : Nat}

/-- The sizes and the vector that a write of HIF_ADMQ_CFG takes. -/
def admqSet (s : State) (f v : Nat) : State :=
  ((s.setR (Reg.HIF_ADMQ_CFG_SQ_LOG2.ofFn f) (bits v 24 4)).setR (Reg.HIF_ADMQ_CFG_CQ_LOG2.ofFn f) (bits v 20 4)).setR (Reg.HIF_ADMQ_CFG_VECTOR.ofFn f) (bits v 0 5)

theorem admqSet_fr {x : Fld} (h : x.lo < 64 ∧ x.lo ≠ 24 ∧ x.lo ≠ 20 ∧ x.lo ≠ 0) : (admqSet s f v).fr f x = s.fr f x := by
  obtain ⟨hlo, hsq, hcq, hvec⟩ := h
  rw [admqSet, State.setR_fr_lo ⟨hlo, by decide, hvec⟩, State.setR_fr_lo ⟨hlo, by decide, hcq⟩, State.setR_fr_lo ⟨hlo, by decide, hsq⟩]

/-- The admin pair of a function, empty, of the sizes in its registers. -/
def admqSq (U : State) (f : Nat) : Sq :=
  ⟨U.fr f Reg.HIF_ADMQ_BASE_BASE * 4096, min 12 (max 4 (U.fr f Reg.HIF_ADMQ_CFG_SQ_LOG2)), 0, 0, 0, U.now⟩
def admqCq (U : State) (f : Nat) : Cq :=
  { base := U.fr f Reg.HIF_ADMCQ_BASE_BASE * 4096, log2 := min 12 (max 4 (U.fr f Reg.HIF_ADMQ_CFG_CQ_LOG2)), typ := 0,
    vector := U.fr f Reg.HIF_ADMQ_CFG_VECTOR, coalCount := 1, coalUs := 0, written := 0, consumed := 0, held := [], unsig := 0, firstUnsig := none }
def admqStarted (U : State) (f : Nat) : State :=
  (U.setFn f { U.fn f with sqs := amSet 0 (admqSq U f) (U.fn f).sqs, cqs := amSet 0 (admqCq U f) (U.fn f).cqs }).setR (Reg.HIF_ADMQ_CFG_ENABLE.ofFn f) 1

theorem admqWrite_eq : admqWrite s f v =
    if !bit v 31 then cleanFn (admqSet s f v) f
    else if (admqSet s f v).fr f Reg.HIF_FN_STATUS_CLEANING = 1 ∨ (admqSet s f v).fr f Reg.HIF_ADMQ_CFG_ENABLE = 1 then admqSet s f v
    else admqStarted (admqSet s f v) f := rfl

theorem admqWrite_cleans (h : bit v 31 = false) : admqWrite s f v = cleanFn (admqSet s f v) f := by
  rw [admqWrite_eq, h, Bool.not_false, if_pos rfl]

theorem admqWrite_enables (h : bit v 31 = true) : admqWrite s f v =
    if s.fr f Reg.HIF_FN_STATUS_CLEANING = 1 ∨ s.fr f Reg.HIF_ADMQ_CFG_ENABLE = 1 then admqSet s f v else admqStarted (admqSet s f v) f := by
  rw [admqWrite_eq, h, Bool.not_true, if_neg Bool.false_ne_true, admqSet_fr (by decide), admqSet_fr (by decide)]

theorem admqStarted_enable (U : State) : (admqStarted U f).fr f Reg.HIF_ADMQ_CFG_ENABLE = 1 := State.setR_r_same ..
theorem admqStarted_fn (U : State) : (admqStarted U f).fn f =
    { U.fn f with sqs := amSet 0 (admqSq U f) (U.fn f).sqs, cqs := amSet 0 (admqCq U f) (U.fn f).cqs } := by
  rw [admqStarted, State.setR_fn, State.fn_setFn_same]

end

/-! ### HIF_EVT_CFG (R525) -/

section
variable {s : State} {v c : Nat}

/-- The state with HIF_EVT_CFG written, and the causes that the write enables while they are pending. -/
def evtCfgSet (s : State) (v : Nat) : State := { s with regs := rowWrite (rwlLocked s) s.regs evtCfgRow 0 v }
def EventRises (s : State) (v c : Nat) : Prop :=
  s.r (eventCfg c).1 = 0 ∧ (evtCfgSet s v).r (eventCfg c).1 = 1 ∧ causePending (evtCfgSet s v) c = true

/-- The message of a cause where the write enables it. -/
def evtStep (s : State) (v : Nat) (t : State) (c : Nat) : State :=
  if s.r (eventCfg c).1 = 0 ∧ (evtCfgSet s v).r (eventCfg c).1 = 1 ∧ causePending (evtCfgSet s v) c then eventMessage t c else t

theorem hifEvtCfgWrite_eq : hifEvtCfgWrite s v = evtStep s v (evtStep s v (evtStep s v (evtStep s v (evtCfgSet s v) 0) 1) 2) 3 := rfl

theorem evtStep_rises (h : EventRises s v c) (t : State) : evtStep s v t c = eventMessage t c := if_pos h
theorem evtStep_still (h : ¬ EventRises s v c) (t : State) : evtStep s v t c = t := if_neg h

theorem hifEvtCfgWrite_quiet (h : ∀ c, c < 4 → ¬ EventRises s v c) : hifEvtCfgWrite s v = evtCfgSet s v := by
  rw [hifEvtCfgWrite_eq, evtStep_still (h 0 (by decide)), evtStep_still (h 1 (by decide)), evtStep_still (h 2 (by decide)), evtStep_still (h 3 (by decide))]

theorem hifEvtCfgWrite_one (hc : c < 4) (h : EventRises s v c) (hother : ∀ d, d < 4 → d ≠ c → ¬ EventRises s v d) :
    hifEvtCfgWrite s v = eventMessage (evtCfgSet s v) c := by
  have hstill (d : Nat) (hd : d < 4) (hdc : d ≠ c) (t : State) : evtStep s v t d = t := evtStep_still (hother d hd hdc) t
  rw [hifEvtCfgWrite_eq]
  have hcases : c = 0 ∨ c = 1 ∨ c = 2 ∨ c = 3 := by omega
  rcases hcases with rfl | rfl | rfl | rfl
  · rw [hstill 3 (by decide) (by decide), hstill 2 (by decide) (by decide), hstill 1 (by decide) (by decide), evtStep_rises h]
  · rw [hstill 3 (by decide) (by decide), hstill 2 (by decide) (by decide), hstill 0 (by decide) (by decide), evtStep_rises h]
  · rw [hstill 3 (by decide) (by decide), hstill 1 (by decide) (by decide), hstill 0 (by decide) (by decide), evtStep_rises h]
  · rw [hstill 2 (by decide) (by decide), hstill 1 (by decide) (by decide), hstill 0 (by decide) (by decide), evtStep_rises h]

end

end Sys2Proof.Machine
end

section
/-! PROOFS. The fetching of commands (R190, R507): the arbiters serve an input that offers something, and COMMAND_FETCH takes the command at the head of a ready queue. -/

namespace Sys2Proof.Machine

/-! ### What an arbiter serves (R190) -/

theorem mem_insertOrd {α : Type} (le : α → α → Bool) (a x : α) (l : List α) : x ∈ insertOrd le a l ↔ x = a ∨ x ∈ l := by
  induction l with
  | nil => simp only [insertOrd, List.mem_singleton, List.not_mem_nil, or_false]
  | cons b l ih =>
    unfold insertOrd
    split
    · simp only [List.mem_cons]
    · simp only [List.mem_cons, ih]
      tauto

theorem mem_isort {α : Type} (le : α → α → Bool) (x : α) (l : List α) : x ∈ isort le l ↔ x ∈ l := by
  induction l with
  | nil => rfl
  | cons b l ih => rw [isort, mem_insertOrd, ih, List.mem_cons]

/-- Every input that offers an item is active after the refresh. -/
theorem Arb.mem_refresh {a : Arb} {os : List Offer} {o : Offer} (ho : o ∈ os) : o.input ∈ (a.refresh os).active := by
  simp only [Arb.refresh, List.mem_append, List.mem_map, mem_isort, List.mem_filter, List.any_eq_true, Bool.not_eq_true', List.contains_eq_mem,
    decide_eq_false_iff_not]
  by_cases h : o.input ∈ a.active
  · exact .inr ⟨h, o, ho, beq_self_eq_true _⟩
  · exact .inl ⟨o, ⟨ho, h⟩, rfl⟩

/-- An aged head is one of those offered. -/
theorem arbAged_mem {os : List Offer} {age now : Nat} {o : Offer} (h : arbAged os age now = some o) : o ∈ os := by
  have hfold (l : List Offer) (b : Option Offer) (hl : ∀ x ∈ l, x ∈ os) (hb : ∀ x, b = some x → x ∈ os) :
      ∀ x, l.foldl (fun b o =>
        if o.since + age ≤ now then
          match b with
          | none => some o
          | some x => if o.since < x.since || (o.since == x.since && decide (o.input < x.input)) then some o else b
        else b) b = some x → x ∈ os := by
    induction l generalizing b with
    | nil => exact hb
    | cons c l ih =>
      rw [List.foldl_cons]
      refine ih _ (fun x hx => hl x (List.mem_cons_of_mem _ hx)) fun x hx => ?_
      have hc := hl c List.mem_cons_self
      grind
  exact hfold os none (fun _ => id) (fun _ hnone => nomatch hnone) o h

/-- An arbiter serves nothing where nothing is offered. -/
theorem Arb.select_none (a : Arb) (q age now : Nat) : a.select [] q age now = none := by
  have hdrop : (a.refresh []).active = [] := by simp [Arb.refresh, isort]
  simp only [Arb.select, Arb.pick, arbAged, List.foldl_nil, hdrop, List.dropWhile_nil]

/-- An arbiter to which something is offered serves one of the offers. -/
theorem Arb.select_some (a : Arb) {os : List Offer} (hos : os ≠ []) (q age now : Nat) : ∃ o arb aged, a.select os q age now = some (o, arb, aged) ∧ o ∈ os := by
  unfold Arb.select Arb.pick
  dsimp only
  split
  case h_1 o haged => exact ⟨o, _, _, rfl, arbAged_mem haged⟩
  case h_2 =>
    obtain ⟨x, hx⟩ := List.exists_mem_of_ne_nil os hos
    split
    case h_1 hdrop =>
      have hnone := List.dropWhile_eq_nil_iff.mp hdrop x.input (Arb.mem_refresh hx)
      have hsome : (os.any fun o => o.input == x.input) = true := List.any_eq_true.mpr ⟨x, hx, beq_self_eq_true _⟩
      rw [hsome] at hnone
      exact nomatch hnone
    case h_2 i rest hdrop =>
      have hhead := List.head?_dropWhile_not (fun i => !(os.any fun o => o.input == i)) (a.refresh os).active
      rw [hdrop] at hhead
      have hcan : (os.any fun o => o.input == i) = true := by simpa using hhead
      split
      case h_1 hfind =>
        obtain ⟨y, hy, hinput⟩ := List.any_eq_true.mp hcan
        exact absurd hinput (List.find?_eq_none.mp hfind y hy)
      case h_2 o hfind => exact ⟨o, _, _, rfl, List.mem_of_find?_eq_some hfind⟩

theorem Arb.mem_of_select {a arb : Arb} {os : List Offer} {q age now : Nat} {o : Offer} {aged : Bool} (h : a.select os q age now = some (o, arb, aged)) : o ∈ os := by
  by_cases hos : os = []
  · subst hos
    rw [Arb.select_none] at h
    exact nomatch h
  · obtain ⟨o', arb', aged', hsel, hmem⟩ := Arb.select_some a hos q age now
    rw [hsel] at h
    injection h with h
    injection h with ho
    exact ho ▸ hmem

/-! ### The offers of the functions (R507) -/

section
variable {s : State} {f : Nat}

/-- The submission queues of a function that a command may be fetched from. -/
def readyQueues (s : State) (f : Nat) : List (Nat × Sq) := (s.fn f).sqs.filter fun e => sqReady s f e.1 e.2

theorem mem_readyQueues {e : Nat × Sq} : e ∈ readyQueues s f ↔ e ∈ (s.fn f).sqs ∧ sqReady s f e.1 e.2 = true := List.mem_filter

theorem fnOffer_eq : fnOffer s f =
    match (s.fn f).arb.select ((readyQueues s f).map fun e => ⟨e.1, 1, 1, e.2.since⟩) 1 (arbAge s) s.now with
    | none => none
    | some (o, a, _) => some (⟨f, (readyQueues s f).length, 1, o.since⟩, o.input, a) := rfl

theorem fnOffer_none (h : ∀ e ∈ (s.fn f).sqs, sqReady s f e.1 e.2 = false) : fnOffer s f = none := by
  have hempty : readyQueues s f = [] := List.filter_eq_nil_iff.mpr fun e he => Bool.eq_false_iff.mp (h e he)
  rw [fnOffer_eq, hempty, List.map_nil, Arb.select_none]

theorem fnOffer_isSome {e : Nat × Sq} (he : e ∈ readyQueues s f) : (fnOffer s f).isSome = true := by
  obtain ⟨o, arb, aged, hsel, -⟩ := Arb.select_some (s.fn f).arb (os := (readyQueues s f).map fun e => ⟨e.1, 1, 1, e.2.since⟩)
    (List.ne_nil_of_mem (List.mem_map_of_mem he)) 1 (arbAge s) s.now
  rw [fnOffer_eq, hsel]
  rfl

/-- What a function offers is a ready queue of its own. -/
theorem fnOffer_ready {x : Offer × Nat × Arb} (h : fnOffer s f = some x) : x.1.input = f ∧ ∃ w, (x.2.1, w) ∈ readyQueues s f := by
  rw [fnOffer_eq] at h
  split at h
  case h_1 => exact nomatch h
  case h_2 o a aged hsel =>
    obtain ⟨e, he, ho⟩ := List.mem_map.mp (Arb.mem_of_select hsel)
    injection h with h
    subst h ho
    exact ⟨rfl, e.2, he⟩

/-! ### COMMAND_FETCH (R507) -/

theorem amGet_isSome_of_mem {α : Type} {k : Nat} {y : α} {m : AMap α} (h : (k, y) ∈ m) : ∃ w, amGet k m = some w := by
  induction m with
  | nil => exact absurd h List.not_mem_nil
  | cons e m ih =>
    obtain ⟨j, z⟩ := e
    by_cases hj : j = k
    · exact ⟨z, if_pos hj⟩
    · rw [amGet, if_neg hj]
      rcases List.mem_cons.mp h with h | h
      · injection h with hk
        exact absurd hk.symm hj
      · exact ih h

theorem exec_commandFetch (s : State) : exec .commandFetch s = goesOn s (commandFetch s) := rfl

theorem commandFetch_idle (h : ∀ f, f < 64 → ∀ e ∈ (s.fn f).sqs, sqReady s f e.1 e.2 = false) : commandFetch s = s := by
  have hnone : (List.range 64).filterMap (fnOffer s) = [] :=
    List.filterMap_eq_nil_iff.mpr fun f hf => fnOffer_none (h f (List.mem_range.mp hf))
  simp only [commandFetch, hnone, List.map_nil, Arb.select_none]

/-- The state once the arbiters of the host port and of a function have chosen. -/
def fetchChosen (s : State) (f : Nat) (a b : Arb) : State := ({ s with hif := { s.hif with arb := a } } : State).setFn f { s.fn f with arb := b }

theorem commandFetch_takes {e : Nat × Sq} (hf : f < 64) (he : e ∈ readyQueues s f) :
    ∃ g q w a b, g < 64 ∧ amGet q (s.fn g).sqs = some w ∧ (∃ x, (q, x) ∈ readyQueues s g) ∧ commandFetch s = takeCommand (fetchChosen s g a b) g q w := by
  obtain ⟨x, hx⟩ := Option.isSome_iff_exists.mp (fnOffer_isSome he)
  have hsubs : ((List.range 64).filterMap (fnOffer s)).map (·.1) ≠ [] :=
    List.ne_nil_of_mem (List.mem_map_of_mem (List.mem_filterMap.mpr ⟨f, List.mem_range.mpr hf, hx⟩))
  obtain ⟨o, a, aged, hsel, ho⟩ := Arb.select_some s.hif.arb hsubs 1 (arbAge s) s.now
  obtain ⟨y, hy, hyo⟩ := List.mem_map.mp ho
  obtain ⟨z, hz⟩ := Option.isSome_iff_exists.mp
    (List.find?_isSome.mpr ⟨y, hy, beq_iff_eq.mpr (congrArg Offer.input hyo)⟩ :
      (((List.range 64).filterMap (fnOffer s)).find? fun x => x.1.input == o.input).isSome = true)
  obtain ⟨g, hg, hoffer⟩ := List.mem_filterMap.mp (List.mem_of_find?_eq_some hz)
  obtain ⟨hgz, w', hready⟩ := fnOffer_ready hoffer
  have hinput : o.input = g := by
    have hzo := List.find?_some hz
    rw [beq_iff_eq] at hzo
    rw [← hzo, hgz]
  rw [hinput] at hz
  obtain ⟨w, hw⟩ := amGet_isSome_of_mem (mem_readyQueues.mp hready).1
  refine ⟨g, z.2.1, w, a, z.2.2, List.mem_range.mp hg, hw, ⟨w', hready⟩, ?_⟩
  simp only [commandFetch, hsel, hz, hinput, hw, fetchChosen]
  rfl

/-- The state once a queue's head has moved past the command that is taken. -/
def headMoved (s u : State) (f q : Nat) (w : Sq) : State :=
  u.setFn f { u.fn f with sqs := amSet q { w with head := w.head + 1, since := s.now } (s.fn f).sqs }

theorem takeCommand_chosen (q : Nat) (w : Sq) (a b : Arb) :
    takeCommand (fetchChosen s f a b) f q w =
      if s.dmaOk f (sqEntryAddr w) 64 = true then
        afterOp (cmdOfEntry f q (s.rd (hostXA (sqEntryAddr w)) 64)).1 (cmdOfEntry f q (s.rd (hostXA (sqEntryAddr w)) 64)).2 (headMoved s (fetchChosen s f a b) f q w)
      else dmaWriteFail (headMoved s (fetchChosen s f a b) f q w) f (sqEntryAddr w) := by
  have hsqs : ((fetchChosen s f a b).fn f).sqs = (s.fn f).sqs := by rw [fetchChosen, State.fn_setFn_same]
  rw [takeCommand, hsqs]
  rfl

/-- With one ready queue the command is taken from it. -/
theorem commandFetch_only {q : Nat} {w : Sq} (hf : f < 64) (hw : amGet q (s.fn f).sqs = some w) (hready : (q, w) ∈ readyQueues s f)
    (honly : ∀ g, g < 64 → ∀ e ∈ readyQueues s g, g = f ∧ e = (q, w)) : ∃ a b, commandFetch s = takeCommand (fetchChosen s f a b) f q w := by
  obtain ⟨g, q', w', a, b, hg, hw', ⟨x, hx⟩, htaken⟩ := commandFetch_takes hf hready
  obtain ⟨rfl, heq⟩ := honly g hg _ hx
  injection heq with hq
  subst hq
  rw [hw] at hw'
  injection hw' with hw'
  subst hw'
  exact ⟨a, b, htaken⟩

end

/-- Settles O15. -/
theorem portWritesAct : Obligations.PortWritesAct := by
  intro s v
  refine ⟨fun q hq h => ?indBusy, fun q hq h => ?indStarts, fun q result hq h => ?indIgnored, fun q result hq hbusy h => ?indEnds,
    fun p n k hp hn hk => ⟨fun hword => ?saWord, fun hlast => ?saLast⟩, fun p hp => ?port, fun w hw hon hv => ?closes, fun w hw hon hv => ?keeps,
    fun w hw hoff => ⟨fun hno => ?overflows, fun hfits h => ?sets, fun hfits hv hmay => ?opens⟩, fun f hf => ⟨fun h => ?cleans, fun h hno => ?fields⟩,
    fun f hf h hclean hoff => ?enables, ⟨fun hkey hpwr => ?resets, fun hkey => ?otherKey⟩, fun f q w hf hw hmem hready hdma honly => ?fetchOne,
    fun h => ?fetchNone, fun h => ?fetchSome, ⟨fun h => ?quiet, fun c hc h hother => ?one⟩⟩
  case indBusy => rw [exec_flexIndStart hq, flexIndStart_busy h]
  case indStarts =>
    rw [exec_flexIndStart hq, flexIndStart_starts h]
    refine ⟨_, rfl, ?_⟩
    simp only [keepQueue_r, indSent_r, keepQueue_cwt, keepQueue_mem]
    exact ⟨indBegun_busy, indBegun_cfg, indBegun_write, indBegun_addr, rfl, indSent_indAt, indSent_mem⟩
  case indIgnored => rw [exec_flexIndDone hq, flexIndDone_ignored h]
  case indEnds =>
    rw [exec_flexIndDone hq, flexIndDone_ends hbusy h]
    refine ⟨_, rfl, ?_⟩
    simp only [keepQueue_r, keepQueue_mem, keepQueue_sent, indEnded_data]
    refine ⟨indEnded_busy, indEnded_result (by omega), indEnded_mem, indEnded_sent, fun hread hcfg hgood => ?_, fun hread hcfg hgood => ?_, fun hother => ?_⟩
    · rw [indTaken_read hread hgood, indData_memory hcfg]
    · rw [indTaken_read hread hgood, indData_config hcfg]
    · rw [indTaken_other hother]
  case saWord => rw [exec_macsecSaWrite hp hn hk, macsecSaWrite_word hword]
  case saLast => rw [exec_macsecSaWrite hp hn hk, hlast, macsecSaWrite_last]
  case port =>
    rw [exec_laserEnWrite hp]
    refine ⟨_, rfl, ?_⟩
    simp only [keepQueue_r]
    refine ⟨portCfgWrite_enable, portCfgWrite_laser, fun hon => ?_, fun hoff => ?_, portCfgWrite_besidesRegs⟩
    · have hkept (f : Fld) (hlo : f.lo < 64 ∧ f.lo ≠ 31 ∧ f.lo ≠ 30 ∧ f.lo ≠ 8 ∧ f.lo ≠ 0) : (portCfgWrite s p v).r (f.at 0x100 p) = s.r (f.at 0x100 p) := by
        rw [portCfgWrite_r_idle hlo, portIdleSet_on hon]
      exact ⟨hkept _ (by decide), hkept _ (by decide), hkept _ (by decide)⟩
    · rw [portCfgWrite_r_idle (by decide), portCfgWrite_r_idle (by decide), portCfgWrite_r_idle (by decide)]
      exact ⟨portIdleSet_macsec hoff, portIdleSet_breakout hoff, portIdleSet_subEn hoff⟩
  case closes => rw [exec_xwEnableWrite hw, xwEnableWrite_closes hon hv]
  case keeps => rw [exec_xwEnableWrite hw, xwEnableWrite_keeps hon hv]
  case overflows => rw [exec_xwEnableWrite hw, xwEnableWrite_overflows hoff hno]
  case sets => exact (exec_xwEnableWrite hw v s).trans (congrArg (goesOn s) (xwEnableWrite_sets hoff hfits h))
  case opens => exact (exec_xwEnableWrite hw v s).trans (congrArg (goesOn s) (xwEnableWrite_opens hoff hfits hv hmay))
  case cleans => exact (exec_admqEnableWrite hf v s).trans (congrArg (goesOn s) (admqWrite_cleans h))
  case fields => exact (exec_admqEnableWrite hf v s).trans (congrArg (goesOn s) ((admqWrite_enables h).trans (if_pos hno)))
  case enables =>
    have hidle : ¬ (s.fr f Reg.HIF_FN_STATUS_CLEANING = 1 ∨ s.fr f Reg.HIF_ADMQ_CFG_ENABLE = 1) := by
      rw [hclean, hoff]; decide
    refine ⟨_, (exec_admqEnableWrite hf v s).trans (congrArg (goesOn s) ((admqWrite_enables h).trans (if_neg hidle))), ?_⟩
    refine ⟨(keepQueue_fr ..).trans (admqStarted_enable _), ⟨admqSq (admqSet s f v) f, ?_, ?_, rfl, rfl, rfl⟩, ⟨admqCq (admqSet s f v) f, ?_, ?_, rfl, rfl, rfl⟩, ?_, ?_⟩
    · rw [keepQueue_fn, admqStarted_fn, amGet_set_same]
    · rw [admqSq, admqSet_fr (by decide)]
    · rw [keepQueue_fn, admqStarted_fn, amGet_set_same]
    · rw [admqCq, admqSet_fr (by decide)]
    · simp only [keepQueue_mem, admqStarted, admqSet, State.setR_mem, State.setFn_mem]
    · simp only [keepQueue_sent, admqStarted, admqSet, State.setR_sent, State.setFn_sent]
  case resets => rw [exec_pwrReset, if_pos hkey, softReset, if_neg hpwr]
  case otherKey => rw [exec_pwrReset, if_neg hkey]
  case fetchOne =>
    obtain ⟨a, b, htaken⟩ := commandFetch_only hf hw (mem_readyQueues.mpr ⟨hmem, hready⟩) fun g hg e he =>
      honly g hg e (mem_readyQueues.mp he).1 (mem_readyQueues.mp he).2
    refine ⟨a, b, ?_⟩
    rw [exec_commandFetch, htaken, takeCommand_chosen, if_pos hdma]
    rfl
  case fetchNone => rw [exec_commandFetch, commandFetch_idle h]
  case fetchSome =>
    obtain ⟨f, hf, e, he, hready⟩ := h
    obtain ⟨g, q, w, a, b, hg, hw, ⟨x, hx⟩, htaken⟩ := commandFetch_takes hf (mem_readyQueues.mpr ⟨he, hready⟩)
    refine ⟨g, q, w, a, b, hg, hw, ⟨x, mem_readyQueues.mp hx⟩, ?_⟩
    rw [exec_commandFetch, htaken, takeCommand_chosen]
    rfl
  case quiet => exact congrArg (goesOn s) (hifEvtCfgWrite_quiet h)
  case one => exact congrArg (goesOn s) (hifEvtCfgWrite_one hc h hother)

end Sys2Proof.Machine
end
